-- ==== Sys2Proof/Word.lean ====
section
/-! DEFINITION. Word.lean: the plain types of the CLP-48ss model (00_scope R8, R9, R12): words, indices,
sparse maps and absolute time. Only types and their plainest arithmetic stand here. -/

namespace Sys2Proof

/-- A byte. -/
abbrev Byte := BitVec 8
/-- A 64-bit word: a scalar register, an object of type U64, a word of a record. -/
abbrev Word := BitVec 64
/-- Spindle slot number, 0 to 15 (01 R19). -/
abbrev Slot := Fin 16
/-- Partition number, 0 to 3 (01 R47). -/
abbrev PartIdx := Fin 4
/-- Die index, 0 to 31 (01 R17). -/
abbrev DieIdx := Fin 32
/-- Hart identifier, 0 to 255 (01 R30). -/
abbrev HartIdx := Fin 256
/-- Rhoum port number, 0 to 15 (01 R32). -/
abbrev PortIdx := Fin 16
/-- A sparse map: pairs of a key and a value, keys rising. -/
abbrev Fm (α : Type) := List (Nat × α)

/-- Times are counted from cold reset in units of 1/42 ns: one arithmetic cycle is 14 units at
3.000 GHz and 15 units at 2.800 GHz (00_scope R4), 10 ns is 420 units. -/
def unitsPerNs : Nat := 42
/-- Time units in 10 ns, the step of the tick length (02 R59). -/
def unitsPer10ns : Nat := 420
/-- Time units in one microsecond. -/
def unitsPerUs : Nat := 42000
/-- Time units in one millisecond. -/
def unitsPerMs : Nat := 42000000
/-- Time units in one second. -/
def unitsPerSec : Nat := 42000000000

end Sys2Proof
end

