-- ==== Sys2Proof/Syntax.lean ====
section
/-! DEFINITION. Syntax.lean: the commands of the CLP-48ss package, one constructor per row of the
opcode table, with their operands. An operand carries only what comes from outside the block or from
its physics; everything else a command needs is computed from the state. -/

namespace Sys2Proof

/-- The transport instances AOAP runs on (15 R510, R513 to R516). -/
inductive Transport | ethernet (port : Bool) | i3c (bus : Bool) | mailbox
  deriving DecidableEq, Repr

/-- What a tester shifts through the test port (14 R473): an IEEE 1149.1 instruction, or an access to the IEEE 1687
network's instruments of a die. -/
inductive TestOp | bypass | idcode | sample | extest | ieee1687 (die : DieIdx)
  deriving DecidableEq, Repr

/-- A line of a channel that a traffic generator's checker found wrong (08 Table 08-9): line, first word, expected
XOR read, DRAM dies that supplied a mismatching symbol. -/
structure GenMiss where
  line : Nat
  word : Nat
  xor : BitVec 64
  dies : Nat
  deriving DecidableEq, Repr

/-- What the seal processors and the traffic generators find while a management message is served: whether every result
of the seal pair agrees, and bytes a generator has moved. -/
structure Outside where
  agree : Bool := true
  moved : Nat := 0
  miss : List (Fin 64 × List GenMiss) := []
  deriving DecidableEq, Repr

/-- What the monitors of a die read at a re-plan (16 R533, R534): rail current in mA, replica slack in 0.1 ps, and whether an
eye monitor lies below 15% of the unit interval or a retention monitor fails at the normal refresh rate. -/
structure Margin where
  die : DieIdx
  mA : Nat
  slack : Int
  low : Bool := false
  deriving DecidableEq, Repr

/-- A reference clock (18 R576). -/
inductive RefClock | sys | sd (n : Bool) | cxl (n : Bool)
  deriving DecidableEq, Repr

/-- Kinds of IEEE 1588 messages (02 R57). -/
inductive PtpKind | sync | followUp | delayReq | delayResp
  deriving DecidableEq, Repr

/-- A station command as it issues (03 R112): slot, the 128-bit command word. -/
structure Cmd where
  slot : Slot
  word : BitVec 128
  deriving DecidableEq, Repr


/-- A treadle-output pulse of a draft (02 R67, R88): the cadence tick in which the draft scheduled it,
its cycle offset and its step epoch. -/
structure Pulse where
  tick : Nat
  cycle : Nat
  epoch : Nat
  deriving DecidableEq, Repr

/-- What has gone wrong in a tile step by its checks (05 R192, R193): nothing; the exact contribution to element (i, j) in
pass q is off by m × 2^e; element (i, j) of the working copy is off by m × 2^e; a double-bit error of bank storage. -/
inductive StepCheck
  | pass
  | product (q i j : Nat) (m e : Int)
  | element (i j : Nat) (m e : Int)
  | bankError
  deriving DecidableEq, Repr

/-- A fabric packet (09 Table 09-3) with its data; in a response status and cause stand in their fields. -/
structure Packet where
  dst : Nat
  op : Nat
  cls : Nat := 2
  lane : Nat := 0
  retry : Bool := false
  resync : Bool := false
  addr : Nat := 0
  len : Nat := 0
  part : Nat := 0
  world : Bool := false
  src : Nat
  unit : Nat
  tag : Nat := 0
  gen : Nat := 0
  ord : Nat := 0
  data : List Byte := []
  status : Nat := 0
  cause : Nat := 0
  /-- the port it leaves by (09 R304), the words of its header, and the headers of its flits (09 R292, R311) -/
  port : Option Nat := .none
  words : List Nat := []
  flits : List Nat := []
  deriving DecidableEq, Repr

/-- A store of a solver hart: an integer or floating-point register, a store-conditional, or an atomic of the A
extension with its opcode of 09 Table 09-4 (09 R310, R312). -/
inductive StoreKind | int | fp | cond | amo (op : Nat)
  deriving DecidableEq, Repr

/-- What the SEC-DED code of the creel finds in the words of a chunk (10 R347, R352). -/
inductive CreelCheck | ok | corrected | uncorrectable
  deriving DecidableEq, Repr

/-- A page fault or access fault that a vector load or store meets (07 R242): the element, the exception cause, and the
first faulting byte within the element. -/
structure PageFault where
  elem : Nat
  cause : Nat
  byte : Nat := 0
  deriving DecidableEq, Repr

/-- What a wait instruction meets, as WFI (07 R263): nothing, a trap of `mstatus.TW`, or a trap of `hstatus.VTW`. -/
inductive WaitTrap | none | tw | vtw
  deriving DecidableEq, Repr

/-- A request that arrives at an arbitration point (11 R376 to R379): class 0 to 4, partition or member it is
charged to where the point does not derive it, channel line, cost, and die of the requester; at a bridge whether it is a
response, and which hop between fabric dies the packet makes here (11 R388, R389). -/
structure Arrival where
  cls : Nat
  member : Nat := 4
  line : Nat := 0
  cost : Nat := 1
  die : Nat := 18
  resp : Bool := false
  hop : Nat := 0
  deriving DecidableEq, Repr

/-- An arbitration point (11 Table 11-2). -/
inductive ArbPlace
  | dram (die : DieIdx) (ch : Fin 64)
  | port (n : PortIdx)
  /-- a direction of a bridge: sending die × 32 + receiving die -/
  | bridge (b : Nat)
  | hostLink
  deriving DecidableEq, Repr

/-- An error that has arisen in memory (08 R273, R280; 03 R123): symbols of a line of a stack, by DRAM die for
each codeword; a word of SRAM at an offset; a scalar register; an element of a bank of a whorl (05 R193). -/
inductive Upset
  | line (off cw0 cw1 : Nat)
  | word (off col : Nat) (double : Bool)
  | sreg (slot : Slot) (reg : Nat) (double : Bool)
  | bank (slot : Slot) (w b i : Nat) (double : Bool)
  deriving DecidableEq, Repr

/-- What ends a die (13 R423, 01 R46): its heartbeats on every bridge, its rail, its junction limit; or a bridge to
another die, which counts as the loss of a fabric die. -/
inductive LossCause | heartbeat | rail | junction | bridge (other : DieIdx)
  deriving DecidableEq, Repr

/-- The commands: one constructor per row of the opcode table. `t` is the time of the occurrence. -/
inductive Instr
  /-- TICK_BOUNDARY (R62): The cadence unit issues a tick boundary, advances the tick counter by 1 and writes the TICK reel record. -/
  | tickBoundary (t : Nat)
  /-- CAD_1PPS_EDGE (R58): A CAD_1PPS rising edge aligns a tick boundary and counts toward the source becoming healthy. -/
  | cad1ppsEdge (t : Nat) (pulseNs : Nat) (ref10mOk : Bool)
  /-- CAD_1PPS_TIMEOUT (R58): No CAD_1PPS rising edge within 1 s + 1 ms makes the source unhealthy. -/
  | cad1ppsTimeout (t : Nat)
  /-- CAD_REF10M_TIMEOUT (R58): CAD_REF10M shows no edge for 1 µs, so the CAD_1PPS/CAD_REF10M source becomes unhealthy. -/
  | cadRef10mTimeout (t : Nat)
  /-- TREADLE_EDGE (R59): A selected treadle edge is timestamped, its period measured, the tick lengths adjusted and a TREADLE reel record written. -/
  | treadleEdge (t : Nat) (falling : Bool) (pulseNs : Nat)
  /-- TREADLE_TIMEOUT (R59): No selected treadle edge 1.05 × K × tick_period after the previous one makes the period out of range. -/
  | treadleTimeout (t : Nat)
  /-- PTP_MESSAGE (R57): An IEEE 1588 message arrives in a Rhoum management flit and updates in-band time, path delay and the adopted tick counter. -/
  | ptpMessage (t : Nat) (port : PortIdx) (kind : PtpKind) (src : BitVec 48) (tick : BitVec 64) (period : BitVec 32) (offsetPs : Int)
  /-- CADENCE_HOLDOVER_LIMIT (R61): Holdover has lasted longer than holdover_limit and the package raises the event and keeps running. -/
  | cadenceHoldoverLimit (t : Nat)
  /-- CADENCE_MASTER_HANDOVER (R64): FX0's tick broadcast is missing 100 ns after the expected boundary, so FX1 issues it and becomes cadence master. -/
  | cadenceMasterHandover (t : Nat)
  /-- DRAFT_LOAD (R73): The load command runs the draft load checks and moves the draft from EMPTY to LOADED. -/
  | draftLoad (t : Nat) (q : Option Nat) (p : PartIdx)
  /-- DRAFT_START (R74): The start command checks lock, start_tick and group 63, seeds the buddy images and arms the draft. -/
  | draftStart (t : Nat) (q : Option Nat) (p : PartIdx)
  /-- DRAFT_STOP (R74): The stop command makes a running draft return to LOADED at the next step commit. -/
  | draftStop (t : Nat) (q : Option Nat) (p : PartIdx)
  /-- DRAFT_ABORT (R76): The abort command discards unreleased outputs and returns the draft to LOADED. -/
  | draftAbort (t : Nat) (q : Option Nat) (p : PartIdx)
  /-- DRAFT_UNLOAD (R74): The unload command moves a LOADED draft to EMPTY. -/
  | draftUnload (t : Nat) (q : Option Nat) (p : PartIdx)
  /-- DRAFT_START_TICK (R74): The tick counter reaches start_tick and the armed draft enters RUNNING. -/
  | draftStartTick (t : Nat) (p : PartIdx) (seeding : Nat)
  /-- GATE (R79): A gate takes effect in its cycle, tests the release flag or host queue and passes ownership or applies its late policy. -/
  | gate (t : Nat) (p : PartIdx) (g : Nat)
  /-- GATE_RETEST (R84): A stalled gate is tested again at the same cycle offset of the next tick, adding slip or resuming the draft. -/
  | gateRetest (t : Nat) (p : PartIdx)
  /-- STEP_COMMIT (R427): A step commit takes effect once its conditions hold, updating statistics, epoch, doff decision and buddy delta. -/
  | stepCommit (t : Nat) (p : PartIdx)
  /-- COMMIT_VOTE_LOST (R358): The commit vote result has not arrived 20 µs after the commit cycle, so the draft halts. -/
  | commitVoteLost (t : Nat) (p : PartIdx)
  /-- OUTPUT_RELEASE (R88): At its release instant a held output is released: host buffers granted, fabric data sent or a treadle pulse driven. -/
  | outputRelease (t : Nat) (p : PartIdx) (pulse : Option Pulse)
  /-- TREADLE_PULSE_END (R574): 1 µs after the last released pulse the treadle output falls. -/
  | treadlePulseEnd (t : Nat)
  /-- RERUN_START (R424): After the restore completes the step re-runs from its first draft tick at the next tick boundary. -/
  | rerunStart (t : Nat) (p : PartIdx)
  /-- NOP (R114): The issue unit's nop does nothing and serves as a signed marker. -/
  | nop (t : Nat) (c : Cmd)
  /-- SET_BASE (R114): set_base sets the flyer's segment base for the following commands. -/
  | setBase (t : Nat) (c : Cmd)
  /-- S_SET_LO (R119): Writes operand bits into the low half of a scalar register. -/
  | sSetLo (t : Nat) (c : Cmd)
  /-- S_SET_HI (R119): Writes operand bits into the high half of a scalar register. -/
  | sSetHi (t : Nat) (c : Cmd)
  /-- S_LOAD (R119): Loads 8 bytes of the shared bobbin into a scalar register. -/
  | sLoad (t : Nat) (c : Cmd)
  /-- S_STORE (R119): Stores a scalar register into 8 bytes of the shared bobbin. -/
  | sStore (t : Nat) (c : Cmd)
  /-- S_INT (R119): Performs a 64-bit integer operation on two scalar registers. -/
  | sInt (t : Nat) (c : Cmd)
  /-- S_FP64 (R119): Performs an FP64 operation on scalar registers without flags. -/
  | sFp64 (t : Nat) (c : Cmd)
  /-- SIGNATURE_COMPARE (R126): The cadence unit compares a delivered tick or prefix signature with the draft's, or finds it missing 2 µs after due. -/
  | signatureCompare (t : Nat) (slot : Slot) (tick : Nat) (gate : Option Nat) (missing : Bool)
  /-- ROVING_TILE_SEND (R105): At its tile time a roving tile leaves its source station. -/
  | rovingTileSend (t : Nat) (p : PartIdx) (r j : Nat)
  /-- ROVING_TILE_ARRIVE (R108): A roving tile reaches its destination's input queue or memory transfer. -/
  | rovingTileArrive (t : Nat) (p : PartIdx) (r j : Nat)
  /-- W_SETUP (R164): Empties a whorl bank and sets its path, coordinates and chunk length. -/
  | wSetup (t : Nat) (c : Cmd)
  /-- W_MMA (R160): Queues one tile step that accumulates the product of the port tiles into a bank. -/
  | wMma (t : Nat) (c : Cmd)
  /-- TILE_STEP_START (R165): A tile step starts once its command, both operand tiles and the whorl are ready. -/
  | tileStepStart (t : Nat) (slot : Slot) (w : Nat)
  /-- TILE_STEP_CHECK (R194): 24 cycles after the last product cycle the residue checks decide whether the working copy becomes the bank. -/
  | tileStepCheck (t : Nat) (slot : Slot) (w : Nat) (r : StepCheck)
  /-- RERUN_PAUSE_END (R194): The T + 24 cycle re-run pause ends and issue resumes. -/
  | rerunPauseEnd (t : Nat) (p : PartIdx)
  /-- W_BATT (R186): Adds a W53 bank's final values into a batt area with stochastic or nearest rounding. -/
  | wBatt (t : Nat) (c : Cmd)
  /-- W_ACC_OUT (R189): Exports a bank as eight RAW8 tiles. -/
  | wAccOut (t : Nat) (c : Cmd)
  /-- W_ACC_IN (R190): Loads a bank from eight RAW8 tiles. -/
  | wAccIn (t : Nat) (c : Cmd)
  /-- T_LOAD (R209): Stage 1 reads a roving tile, tile buffer or batt area. -/
  | tLoad (t : Nat) (c : Cmd)
  /-- T_ACC (R210): Stage 1 reads a whorl bank as it stood when flow started. -/
  | tAcc (t : Nat) (c : Cmd)
  /-- T_SCALE (R207): Stage 2 computes fma(x, s[a], s[b]). -/
  | tScale (t : Nat) (c : Cmd)
  /-- T_ADD (R207): Stage 3 adds operand B. -/
  | tAdd (t : Nat) (c : Cmd)
  /-- T_SUB (R207): Stage 3 subtracts operand B. -/
  | tSub (t : Nat) (c : Cmd)
  /-- T_MUL (R207): Stage 3 multiplies by operand B. -/
  | tMul (t : Nat) (c : Cmd)
  /-- T_DIV (R207): Stage 3 divides by operand B. -/
  | tDiv (t : Nat) (c : Cmd)
  /-- T_MIN (R207): Stage 3 IEEE minimum with operand B. -/
  | tMin (t : Nat) (c : Cmd)
  /-- T_MAX (R207): Stage 3 IEEE maximum with operand B. -/
  | tMax (t : Nat) (c : Cmd)
  /-- T_FMA (R207): Stage 3 computes fma(x, b, s[a]). -/
  | tFma (t : Nat) (c : Cmd)
  /-- T_SQRT (R207): Stage 3 square root. -/
  | tSqrt (t : Nat) (c : Cmd)
  /-- T_SIGN (R207): Stage 3 abs, negate or copysign. -/
  | tSign (t : Nat) (c : Cmd)
  /-- T_FUNC (R214): Stage 4 evaluates a transcendental function. -/
  | tFunc (t : Nat) (c : Cmd)
  /-- T_CMP (R207): Stage 5 keeps live bits where a comparison holds. -/
  | tCmp (t : Nat) (c : Cmd)
  /-- T_LIVE (R207): Stage 5 keeps live bits where operand B is nonzero. -/
  | tLive (t : Nat) (c : Cmd)
  /-- T_TRI (R207): Stage 5 keeps live bits of a triangular region. -/
  | tTri (t : Nat) (c : Cmd)
  /-- T_SEL (R207): Stage 5 replaces dead elements with operand B. -/
  | tSel (t : Nat) (c : Cmd)
  /-- T_RSUM (R215): Stage 6 row-axis sum by pairwise tree. -/
  | tRsum (t : Nat) (c : Cmd)
  /-- T_RMAX (R215): Stage 6 row-axis maximum. -/
  | tRmax (t : Nat) (c : Cmd)
  /-- T_RMIN (R215): Stage 6 row-axis minimum. -/
  | tRmin (t : Nat) (c : Cmd)
  /-- T_CSUM (R215): Stage 6 column-axis sequential sum. -/
  | tCsum (t : Nat) (c : Cmd)
  /-- T_CMAX (R215): Stage 6 column-axis maximum. -/
  | tCmax (t : Nat) (c : Cmd)
  /-- T_CMIN (R215): Stage 6 column-axis minimum. -/
  | tCmin (t : Nat) (c : Cmd)
  /-- T_CONV (R217): Stage 7 converts to the output format, forms hanks and writes the tile record through stage 8. -/
  | tConv (t : Nat) (c : Cmd)
  /-- TWIST_PASS_FLOW (R202): After eight assembly cycles a twist pass starts its flow. -/
  | twistPassFlow (t : Nat) (slot : Slot) (e : Nat)
  /-- T_SMAX_MAX (R220): Soft-maximum program accumulating row maxima and counts. -/
  | tSmaxMax (t : Nat) (c : Cmd)
  /-- T_SMAX_SUM (R220): Soft-maximum program accumulating the exponent sum. -/
  | tSmaxSum (t : Nat) (c : Cmd)
  /-- T_SMAX_OUT (R220): Soft-maximum program writing the forward output. -/
  | tSmaxOut (t : Nat) (c : Cmd)
  /-- T_SMAX_DOT (R220): Soft-maximum program accumulating y × dy. -/
  | tSmaxDot (t : Nat) (c : Cmd)
  /-- T_SMAX_BWD (R220): Soft-maximum program writing the backward gradient. -/
  | tSmaxBwd (t : Nat) (c : Cmd)
  /-- T_NORM_SUM (R222): Normalisation program accumulating sums and counts. -/
  | tNormSum (t : Nat) (c : Cmd)
  /-- T_NORM_VAR (R222): Normalisation program accumulating squared deviations. -/
  | tNormVar (t : Nat) (c : Cmd)
  /-- T_NORM_OUT (R222): Normalisation program writing the forward output. -/
  | tNormOut (t : Nat) (c : Cmd)
  /-- T_NORM_DOT (R222): Normalisation program accumulating g and g × x̂. -/
  | tNormDot (t : Nat) (c : Cmd)
  /-- T_NORM_BWD (R222): Normalisation program writing the backward gradient. -/
  | tNormBwd (t : Nat) (c : Cmd)
  /-- T_OPT_STEP (R224): The optimiser station updates one weight tile from the batt gradient. -/
  | tOptStep (t : Nat) (c : Cmd)
  /-- T_OPT_COMMIT (R227): Closes a layer's optimiser step, updating counters, scaling and gradient format. -/
  | tOptCommit (t : Nat) (c : Cmd)
  /-- MEM_FILL (R282): A B or M station fills a range with a scalar pattern. -/
  | memFill (t : Nat) (c : Cmd)
  /-- MEM_COPY (R282): A B or M station copies a range within its memory. -/
  | memCopy (t : Nat) (c : Cmd)
  /-- C_FILL (R82): A window endpoint fills a range of the spindle-side buffer. -/
  | cFill (t : Nat) (c : Cmd)
  /-- C_COPY (R82): A window endpoint copies a range within the spindle-side buffer. -/
  | cCopy (t : Nat) (c : Cmd)
  /-- F_COLL (R372): A slot contributes to a draft collective. -/
  | fColl (t : Nat) (c : Cmd)
  /-- F_VOTE (R372): The lowest slot sends the package's commit vote for the epoch. -/
  | fVote (t : Nat) (c : Cmd)
  /-- D_SHARD (R451): Consumes roving tiles and in a doff step writes them as a shard. -/
  | dShard (t : Nat) (c : Cmd)
  /-- L_MARK (R417): Writes a MARK reel record holding a scalar. -/
  | lMark (t : Nat) (c : Cmd)
  /-- L_DIGEST (R417): Consumes a tile and writes its DIGEST reel record. -/
  | lDigest (t : Nat) (c : Cmd)
  /-- Q_CHUNK (R584): A sequencer entry makes a collective engine perform its part of a chunk at its compiled cycle. -/
  | qChunk (t : Nat) (p : PartIdx) (f : Fin 8) (e : Nat)
  /-- Q_NOP (R584): A sequencer entry that does nothing. -/
  | qNop (t : Nat) (p : PartIdx) (f : Fin 8) (e : Nat)
  /-- BX_FADD (R245): BVX element-wise floating-point addition. -/
  | bxFadd (t : Nat) (h : HartIdx) (w : BitVec 32)
  /-- BX_FSUB (R245): BVX element-wise floating-point subtraction. -/
  | bxFsub (t : Nat) (h : HartIdx) (w : BitVec 32)
  /-- BX_FMUL (R245): BVX element-wise floating-point multiplication. -/
  | bxFmul (t : Nat) (h : HartIdx) (w : BitVec 32)
  /-- BX_FDIV (R245): BVX element-wise floating-point division. -/
  | bxFdiv (t : Nat) (h : HartIdx) (w : BitVec 32)
  /-- BX_FSQRT (R245): BVX element-wise square root. -/
  | bxFsqrt (t : Nat) (h : HartIdx) (w : BitVec 32)
  /-- BX_FMIN (R245): BVX element-wise floating-point minimum. -/
  | bxFmin (t : Nat) (h : HartIdx) (w : BitVec 32)
  /-- BX_FMAX (R245): BVX element-wise floating-point maximum. -/
  | bxFmax (t : Nat) (h : HartIdx) (w : BitVec 32)
  /-- BX_FSGNJ (R245): BVX sign injection. -/
  | bxFsgnj (t : Nat) (h : HartIdx) (w : BitVec 32)
  /-- BX_FMADD (R245): BVX fused multiply-add. -/
  | bxFmadd (t : Nat) (h : HartIdx) (w : BitVec 32)
  /-- BX_FMSUB (R245): BVX fused multiply-subtract. -/
  | bxFmsub (t : Nat) (h : HartIdx) (w : BitVec 32)
  /-- BX_FNMADD (R245): BVX negated fused multiply-add. -/
  | bxFnmadd (t : Nat) (h : HartIdx) (w : BitVec 32)
  /-- BX_FREDOSUM (R246): BVX ordered floating-point sum reduction. -/
  | bxFredosum (t : Nat) (h : HartIdx) (w : BitVec 32)
  /-- BX_FEQ (R247): BVX floating-point equal compare into a mask. -/
  | bxFeq (t : Nat) (h : HartIdx) (w : BitVec 32)
  /-- BX_FLT (R247): BVX floating-point less-than compare into a mask. -/
  | bxFlt (t : Nat) (h : HartIdx) (w : BitVec 32)
  /-- BX_FLE (R247): BVX floating-point less-or-equal compare into a mask. -/
  | bxFle (t : Nat) (h : HartIdx) (w : BitVec 32)
  /-- BX_ADD (R245): BVX integer addition. -/
  | bxAdd (t : Nat) (h : HartIdx) (w : BitVec 32)
  /-- BX_SUB (R245): BVX integer subtraction. -/
  | bxSub (t : Nat) (h : HartIdx) (w : BitVec 32)
  /-- BX_MUL (R245): BVX integer multiplication. -/
  | bxMul (t : Nat) (h : HartIdx) (w : BitVec 32)
  /-- BX_AND (R245): BVX bitwise AND. -/
  | bxAnd (t : Nat) (h : HartIdx) (w : BitVec 32)
  /-- BX_OR (R245): BVX bitwise OR. -/
  | bxOr (t : Nat) (h : HartIdx) (w : BitVec 32)
  /-- BX_XOR (R245): BVX bitwise XOR. -/
  | bxXor (t : Nat) (h : HartIdx) (w : BitVec 32)
  /-- BX_SLL (R245): BVX shift left logical. -/
  | bxSll (t : Nat) (h : HartIdx) (w : BitVec 32)
  /-- BX_SRL (R245): BVX shift right logical. -/
  | bxSrl (t : Nat) (h : HartIdx) (w : BitVec 32)
  /-- BX_SRA (R245): BVX shift right arithmetic. -/
  | bxSra (t : Nat) (h : HartIdx) (w : BitVec 32)
  /-- BX_MINU (R245): BVX unsigned minimum. -/
  | bxMinu (t : Nat) (h : HartIdx) (w : BitVec 32)
  /-- BX_MAXU (R245): BVX unsigned maximum. -/
  | bxMaxu (t : Nat) (h : HartIdx) (w : BitVec 32)
  /-- BX_MIN (R245): BVX signed minimum. -/
  | bxMin (t : Nat) (h : HartIdx) (w : BitVec 32)
  /-- BX_MAX (R245): BVX signed maximum. -/
  | bxMax (t : Nat) (h : HartIdx) (w : BitVec 32)
  /-- BX_SEQ (R247): BVX integer equal compare into a mask. -/
  | bxSeq (t : Nat) (h : HartIdx) (w : BitVec 32)
  /-- BX_SLTU (R247): BVX unsigned less-than compare into a mask. -/
  | bxSltu (t : Nat) (h : HartIdx) (w : BitVec 32)
  /-- BX_SLT (R247): BVX signed less-than compare into a mask. -/
  | bxSlt (t : Nat) (h : HartIdx) (w : BitVec 32)
  /-- BX_LD (R242): BVX element-precise unit-stride load. -/
  | bxLd (t : Nat) (h : HartIdx) (w : BitVec 32) (pf : Option PageFault)
  /-- BX_LDFF (R243): BVX first-fault load that trims bxvl at a later fault. -/
  | bxLdff (t : Nat) (h : HartIdx) (w : BitVec 32) (pf : Option PageFault)
  /-- BX_ST (R242): BVX element-precise unit-stride store. -/
  | bxSt (t : Nat) (h : HartIdx) (w : BitVec 32) (pf : Option PageFault)
  /-- BX_TPERM (R248): BVX table permute. -/
  | bxTperm (t : Nat) (h : HartIdx) (w : BitVec 32)
  /-- BX_CVTN (R250): BVX conversion into a narrow format with hank formation. -/
  | bxCvtn (t : Nat) (h : HartIdx) (w : BitVec 32)
  /-- BX_CVTW (R251): BVX widening conversion from a narrow format. -/
  | bxCvtw (t : Nat) (h : HartIdx) (w : BitVec 32)
  /-- BX_FCVT (R252): BVX IEEE conversions between FP and integer widths. -/
  | bxFcvt (t : Nat) (h : HartIdx) (w : BitVec 32)
  /-- BX_BCAST (R254): BVX broadcast of a scalar to active elements. -/
  | bxBcast (t : Nat) (h : HartIdx) (w : BitVec 32)
  /-- BX_MAND (R247): BVX mask AND. -/
  | bxMand (t : Nat) (h : HartIdx) (w : BitVec 32)
  /-- BX_MOR (R247): BVX mask OR. -/
  | bxMor (t : Nat) (h : HartIdx) (w : BitVec 32)
  /-- BX_MXOR (R247): BVX mask XOR. -/
  | bxMxor (t : Nat) (h : HartIdx) (w : BitVec 32)
  /-- BX_MANDN (R247): BVX mask AND NOT. -/
  | bxMandn (t : Nat) (h : HartIdx) (w : BitVec 32)
  /-- BX_MRD (R254): BVX reads 64 mask bits into an integer register. -/
  | bxMrd (t : Nat) (h : HartIdx) (w : BitVec 32)
  /-- BX_MWR (R254): BVX writes 64 mask bits from an integer register. -/
  | bxMwr (t : Nat) (h : HartIdx) (w : BitVec 32)
  /-- BX_EXT (R254): BVX extracts one vector element. -/
  | bxExt (t : Nat) (h : HartIdx) (w : BitVec 32)
  /-- BX_SETVL (R239): BVX sets element width, group size and vector length. -/
  | bxSetvl (t : Nat) (h : HartIdx) (w : BitVec 32)
  /-- BX_WREL (R257): A hart releases a coupling window and counts toward its quorum. -/
  | bxWrel (t : Nat) (h : HartIdx) (w : BitVec 32)
  /-- BX_WSTAT (R262): Returns a window's status word with load ordering. -/
  | bxWstat (t : Nat) (h : HartIdx) (w : BitVec 32)
  /-- BX_WWAIT (R263): Stalls the hart until the solver side owns the window, an interrupt is pending or the window ends. -/
  | bxWwait (t : Nat) (h : HartIdx) (w : BitVec 32) (tw : WaitTrap)
  /-- BX_WWAIT_WAKE (R263): A stalled bx.wwait resumes and writes the status word. -/
  | bxWwaitWake (t : Nat) (h : HartIdx)
  /-- WINDOW_FLAG_SET (R258): After the quorum completes and write-back finishes the window's release flag is set. -/
  | windowFlagSet (t : Nat) (p : PartIdx) (w : Nat)
  /-- SOLVER_LOAD (R326): A solver load passes the map, world, region and ownership checks and reads local or remote memory. -/
  | solverLoad (t : Nat) (h : HartIdx) (a : BitVec 56) (size rd : Nat) (signed fp lr : Bool)
  /-- SOLVER_STORE (R326): A solver store passes the checks and writes local memory or issues an ordered fabric store. -/
  | solverStore (t : Nat) (h : HartIdx) (a : BitVec 56) (size rs2 rd : Nat) (kind : StoreKind)
  /-- SOLVER_FENCE (R323): A solver fence records issued counts per destination. -/
  | solverFence (t : Nat) (h : HartIdx)
  /-- FENCE_COMPLETE (R324): A fence completes when every destination's responses arrive or it is dead. -/
  | fenceComplete (t : Nat) (h : HartIdx)
  /-- OWN_ACQUIRE (R329): An ownership acquire makes the domain owner or answers BUSY or WINDOW at once. -/
  | ownAcquire (t : Nat) (h : HartIdx) (a : BitVec 56) (rd : Nat) (word : BitVec 64)
  /-- OWN_RELEASE (R329): An owner completes its stores and write-backs and then sends a release. -/
  | ownRelease (t : Nat) (h : HartIdx) (a : BitVec 56) (rd : Nat) (word : BitVec 64)
  /-- OWN_HANDOVER (R329): An owner completes its stores and write-backs and then hands the region to another domain. -/
  | ownHandover (t : Nat) (h : HartIdx) (a : BitVec 56) (rd : Nat) (word : BitVec 64)
  /-- GATHER_DOORBELL (R332): A hart starts a gather by swapping a descriptor address at the control view. -/
  | gatherDoorbell (t : Nat) (h : HartIdx) (rd : Nat) (desc : BitVec 64)
  /-- GATHER_COMPLETE (R333): Every gather element has completed and the completion record is written. -/
  | gatherComplete (t : Nat) (h : HartIdx) (j : Nat)
  /-- COLL_LAUNCH_DOORBELL (R370): A hart launches a dynamic collective by swapping a descriptor address at a creel window. -/
  | collLaunchDoorbell (t : Nat) (h : HartIdx) (rd : Nat) (desc : BitVec 64)
  /-- LD (R311): A fabric ld request arrives and is served. -/
  | ld (t : Nat) (k : Packet)
  /-- ST (R317): A fabric st request passes the ordering die and is applied, held, acknowledged or refused. -/
  | st (t : Nat) (k : Packet)
  /-- AMO_ADD (R319): A fabric atomic add is applied and recorded in the ledger. -/
  | amoAdd (t : Nat) (k : Packet)
  /-- AMO_SWAP (R319): A fabric atomic swap. -/
  | amoSwap (t : Nat) (k : Packet)
  /-- AMO_CAS (R319): A fabric atomic compare-and-swap. -/
  | amoCas (t : Nat) (k : Packet)
  /-- AMO_AND (R319): A fabric atomic AND. -/
  | amoAnd (t : Nat) (k : Packet)
  /-- AMO_OR (R319): A fabric atomic OR. -/
  | amoOr (t : Nat) (k : Packet)
  /-- AMO_XOR (R319): A fabric atomic XOR. -/
  | amoXor (t : Nat) (k : Packet)
  /-- AMO_MINU (R319): A fabric atomic unsigned minimum. -/
  | amoMinu (t : Nat) (k : Packet)
  /-- AMO_MAXU (R319): A fabric atomic unsigned maximum. -/
  | amoMaxu (t : Nat) (k : Packet)
  /-- AMO_MIN (R319): A fabric atomic signed minimum. -/
  | amoMin (t : Nat) (k : Packet)
  /-- AMO_MAX (R319): A fabric atomic signed maximum. -/
  | amoMax (t : Nat) (k : Packet)
  /-- AMO_FADD (R312): A fabric floating-point atomic add, refused in strict mode. -/
  | amoFadd (t : Nat) (k : Packet)
  /-- OWN_CMD (R329): An ownership command arrives at the home and changes the region's entry. -/
  | ownCmd (t : Nat) (k : Packet)
  /-- RESPONSE (R313): A response arrives at its source and completes the request, writing a fault record on a bad status. -/
  | response (t : Nat) (k : Packet)
  /-- REQUEST_REISSUE (R320): A request without response is reissued at 4, 8, 12 or 16 µs. -/
  | requestReissue (t : Nat) (u tag : Nat)
  /-- REQUEST_DEAD_TIMEOUT (R320): After 20 µs without response the destination is marked dead and the request completes. -/
  | requestDeadTimeout (t : Nat) (u tag : Nat)
  /-- COLL_LAUNCH (R392): A coll_launch packet arrives at a head or child. -/
  | collLaunch (t : Nat) (k : Packet)
  /-- COLL_CHUNK (R347): A coll_chunk packet arrives and is combined, forwarded or delivered cut-through. -/
  | collChunk (t : Nat) (k : Packet) (cr : CreelCheck)
  /-- COLL_ACK (R354): A member's coll_ack for a result chunk arrives at the root head. -/
  | collAck (t : Nat) (k : Packet)
  /-- COLL_TAINT_PACKET (R354): A coll_taint packet arrives and the member records a tainted completion. -/
  | collTaintPacket (t : Nat) (k : Packet)
  /-- COLL_NAK (R374): A coll_nak packet arrives with its reason. -/
  | collNak (t : Nat) (k : Packet)
  /-- COMMIT_VOTE (R356): A commit_vote chunk arrives for the group-63 all_reduce. -/
  | commitVote (t : Nat) (k : Packet)
  /-- COMMIT_RESULT (R357): The combined vote arrives and decides commit or withhold. -/
  | commitResult (t : Nat) (k : Packet)
  /-- ROVING_TILE (R374): A roving_tile packet from another package arrives at its receiving slot. -/
  | rovingTile (t : Nat) (k : Packet)
  /-- CHUNK_RESEND_TIMEOUT (R355): A missing dynamic chunk is requested or resent every 4 µs. -/
  | chunkResendTimeout (t : Nat) (p : PartIdx) (g cseq : Nat) (peer : BitVec 48) (depth : Nat) (down : Bool) (chunk : Nat) (ask : Bool) (tries : Nat)
  /-- GEN_AHEAD_EXPIRY (R351): A receiver has not re-formed 1 ms after GEN_AHEAD, so the collective completes STALE_GEN. -/
  | genAheadExpiry (t : Nat) (p : PartIdx) (g cseq : Nat)
  /-- ADMIT_ROUND (R365): A head runs an admission round over waiting dynamic creel claims. -/
  | admitRound (t : Nat)
  /-- CHANNEL_SLOT_WINDOW (R284): A DRAM channel begins a new window of 1,024 command slots. -/
  | channelSlotWindow (t : Nat) (d : DieIdx)
  /-- CHANNEL_COMMAND_SLOT (R285): A command slot is given to the first waiting request in slot order. -/
  | channelCommandSlot (t : Nat) (d : DieIdx) (ch : Fin 64) (arr : List Arrival) (upkeep : Bool)
  /-- LINK_FRAME (R386): A port or bridge begins a 256-slot egress frame. -/
  | linkFrame (t : Nat) (pl : ArbPlace) (c0 : List (Nat × Nat))
  /-- ARBITRATION_ROUND (R381): The arbiter visits each member once by weighted deficit round-robin. -/
  | arbitrationRound (t : Nat) (pl : ArbPlace) (c1 : Bool) (arr : List Arrival)
  /-- REQUEST_PROMOTE (R382): A waiting request's age reaches 16 and it is promoted. -/
  | requestPromote (t : Nat) (pl : ArbPlace) (c1 : Bool)
  /-- ARBITRATION_BOUND (R383): A request is not served by the end of its 64th round. -/
  | arbitrationBound (t : Nat) (pl : ArbPlace) (c1 : Bool)
  /-- CODEWORD_RECEIVE (R294): A link codeword is received and decoded. -/
  | codewordReceive (t : Nat) (n : PortIdx) (ok : Bool) (vcs : List Nat) (credits : List (Nat × Nat)) (ack : Option (BitVec 8))
  /-- LANE_LOSS (R295): A lane loses lock or shows too many errors and is erased or takes the port down. -/
  | laneLoss (t : Nat) (n : PortIdx) (lane : Fin 7) (lock : Bool)
  /-- LANE_SPARE_REMAP (R296): Both link ends remap the erased lane onto lane 6. -/
  | laneSpareRemap (t : Nat) (n : PortIdx)
  /-- PORT_RETRAIN (R297): A DOWN port starts training again every 100 ms. -/
  | portRetrain (t : Nat) (n : PortIdx)
  /-- PORT_TRAINING (R298): Port training completes and sets UP, UP_SPARED, DOWN or FAILED. -/
  | portTraining (t : Nat) (n : PortIdx) (failed : BitVec 7) (tier : Nat) (isPackage : Bool)
  /-- LINK_NAK (R300): In compatibility mode a NAK makes the sender replay from its buffer. -/
  | linkNak (t : Nat) (n : PortIdx)
  /-- FLYOVER_REMOVED (R570): FLY_PRES_N goes high and the port is taken down. -/
  | flyoverRemoved (t : Nat) (n : PortIdx) (present : Bool)
  /-- SCRUB_PASS (R276): Patrol scrub reads and corrects lines within each scrub period. -/
  | scrubPass (t : Nat) (d : DieIdx) (arisen : List Upset) (lo n so sn : Nat)
  /-- BOND_LANE_REPLACE (R275): A bond whose error rate crossed its limit is replaced by a spare bond. -/
  | bondLaneReplace (t : Nat) (d : DieIdx) (ch : Fin 64) (bond : Nat)
  /-- DRAM_TEMP_SAMPLE (R278): A stack's temperature reading changes its refresh rate and throttling. -/
  | dramTempSample (t : Nat) (d : DieIdx) (temp : Nat)
  /-- SRAM_COLUMN_REPAIR (R281): A marked SRAM column is repaired when no draft of the partition runs. -/
  | sramColumnRepair (t : Nat) (d : DieIdx)
  /-- TRAFFIC_GEN_START (R289): The traffic generator start command starts one or all channels or is rejected. -/
  | trafficGenStart (t : Nat) (q : Option Nat) (v : BitVec 32)
  /-- TRAFFIC_GEN_STOP (R288): The traffic generator stop command stops a channel. -/
  | trafficGenStop (t : Nat) (q : Option Nat) (v : BitVec 32) (moved : Nat) (miss : List (Fin 64 × List GenMiss))
  /-- TRAFFIC_GEN_DONE (R288): A generator finishes its passes and reads done. -/
  | trafficGenDone (t : Nat) (d : DieIdx) (ch : Fin 64) (miss : List GenMiss)
  /-- DIE_HEARTBEAT_LOSS (R423): A die misses eight heartbeats, has a rail fault or passes the junction limit and is declared lost. -/
  | dieHeartbeatLoss (t : Nat) (d : DieIdx) (cause : LossCause) (dirty : List (BitVec 48))
  /-- DOFF_SHARDS_ACK (R453): All doff shards are acknowledged in both areas and the manifest is written. -/
  | doffShardsAck (t : Nat) (p : PartIdx) (failed : Bool)
  /-- DOFF_MANIFEST_ACK (R453): The manifest is acknowledged and the commit record is written. -/
  | doffManifestAck (t : Nat) (p : PartIdx) (failed : Bool)
  /-- RESTORE_REQUEST (R455): A write of a descriptor address starts a restore. -/
  | restoreRequest (t : Nat) (q : Option Nat) (v : BitVec 64)
  /-- RESTORE_FINISH (R456): The steward finishes a restore, writing status and data. -/
  | restoreFinish (t : Nat) (areas : List (Nat × List Byte))
  /-- REPLAY_FABRIC_INPUT (R419): In replay a recorded FABRIC_IN is performed at its recorded tick and cycle. -/
  | replayFabricInput (t : Nat) (p : PartIdx)
  /-- ROLE_MAP_WRITE (R24): A write to the spindle role map is applied or ignored. -/
  | roleMapWrite (t : Nat) (q : Option Nat) (die : DieIdx) (v : BitVec 16)
  /-- PARTITION_COMMIT (R49): A write of 0x01 to partition_commit runs the commit checks and locks the configuration. -/
  | partitionCommit (t : Nat) (q : Option Nat) (v : BitVec 8) (agree : Bool)
  /-- WINDOW_QUORUM_WRITE (R256): A write to a window's release quorum is applied or ignored. -/
  | windowQuorumWrite (t : Nat) (q : Option Nat) (p : PartIdx) (sub : Nat) (v : BitVec 16)
  /-- SHARE_WRITE (R396): A write to a partition share object is applied or ignored. -/
  | shareWrite (t : Nat) (q : Option Nat) (part : Fin 5) (sub : Nat) (v : BitVec 16)
  /-- RNG_KEY_WRITE (R406): A write of the generator key is applied with a SEED record or ignored. -/
  | rngKeyWrite (t : Nat) (q : Option Nat) (p : PartIdx) (v : BitVec 128)
  /-- RNG_KEY_ENTROPY (R406): A write of 0x01 fills the generator key from the entropy source. -/
  | rngKeyEntropy (t : Nat) (q : Option Nat) (p : PartIdx) (v : BitVec 8)
  /-- REEL_READ_WRITE (R412): A write of reel_read marks records as taken. -/
  | reelReadWrite (t : Nat) (q : Option Nat) (p : PartIdx) (v : BitVec 64)
  /-- GROUP_REFORM (R349): A write to group_reform validates and re-forms a group. -/
  | groupReform (t : Nat) (q : Option Nat) (p : PartIdx) (g : BitVec 8)
  /-- DEAD_CLEAR (R321): A write clears the dead mark of a path. -/
  | deadClear (t : Nat) (q : Option Nat) (v : BitVec 64)
  /-- OWN_FORCE_OPEN (R331): A write sets a region OPEN regardless of its owner. -/
  | ownForceOpen (t : Nat) (q : Option Nat) (v : BitVec 64)
  /-- REGION_ENTRY_WRITE (R463): A write to a region table entry is applied at the next slot-window boundary or rejected. -/
  | regionEntryWrite (t : Nat) (q : Option Nat) (die : DieIdx) (e : BitVec 8) (v : BitVec 64)
  /-- LC_REQUEST (R469): A transition record is checked and an accepted life-cycle transition carried out. -/
  | lcRequest (t : Nat) (q : Option Nat) (record : List Byte) (agree : Bool)
  /-- DEBUG_GRANT (R474): An owner writes a signed debug grant that opens debug for non-secure partitions. -/
  | debugGrant (t : Nat) (q : Option Nat) (grant : List Byte) (agree : Bool)
  /-- SVN_COMMIT (R477): A write raises the fused security version. -/
  | svnCommit (t : Nat) (q : Option Nat) (v : BitVec 32)
  /-- ATTEST_NONCE_WRITE (R480): A session writes its attestation nonce. -/
  | attestNonceWrite (t : Nat) (q : Option Nat) (nonce : List Byte)
  /-- ATTEST_REPORT_READ (R480): A session reads a freshly signed attestation report. -/
  | attestReportRead (t : Nat) (q : Option Nat) (agree : Bool)
  /-- REPLAN_NOW (R534): A write of 0x01 starts a margin re-plan. -/
  | replanNow (t : Nat) (q : Option Nat) (v : BitVec 8)
  /-- CLOCK_ACCEPT (R537): A write of 2800 accepts the offered lower clock. -/
  | clockAccept (t : Nat) (q : Option Nat) (v : BitVec 16)
  /-- CLOCK_CHANGE_APPLY (R537): When no draft is armed or running the accepted 2.8 GHz clock takes effect. -/
  | clockChangeApply (t : Nat)
  /-- HDM_SIZE_WRITE (R544): A write of hdm_size clears entries beyond the new size. -/
  | hdmSizeWrite (t : Nat) (q : Option Nat) (v : BitVec 16)
  /-- RESET_REQUEST_COLD (R557): A write of 0x01 to reset_request schedules a cold reset 10 ms after its response. -/
  | resetRequestCold (t : Nat) (q : Option Nat)
  /-- RESET_REQUEST_WARM (R557): A write of 0x02 to reset_request starts a warm reset. -/
  | resetRequestWarm (t : Nat) (q : Option Nat)
  /-- OD_WRITE (R497): A write to an object without behaviour of its own is checked and applied. -/
  | odWrite (t : Nat) (q : Option Nat) (idx : BitVec 16) (sub : BitVec 8) (whole : Bool) (data : List Byte) (o : Outside)
  /-- OD_READ (R497): An AOAP READ request returns an object's value. -/
  | odRead (t : Nat) (q : Option Nat) (idx : BitVec 16) (sub : BitVec 8) (whole : Bool)
  /-- OD_DESCRIBE (R511): An AOAP DESCRIBE request returns an object's type, right and size. -/
  | odDescribe (t : Nat) (q : Option Nat) (idx : BitVec 16) (sub : BitVec 8) (whole : Bool)
  /-- OD_SUBSCRIBE (R507): An AOAP SUBSCRIBE request creates an event or value subscription. -/
  | odSubscribe (t : Nat) (q : Option Nat) (idx : BitVec 16) (sub : BitVec 8) (data : List Byte)
  /-- OD_UNSUBSCRIBE (R507): An AOAP UNSUBSCRIBE request removes a subscription. -/
  | odUnsubscribe (t : Nat) (q : Option Nat) (data : List Byte)
  /-- VALUE_NOTIFY (R507): A value subscription's period expires and a VALUE notification is sent. -/
  | valueNotify (t : Nat) (id sid : Nat)
  /-- AOAP_MESSAGE (R511): A plain or sealed AOAP message is checked and its requests served in order. -/
  | aoapMessage (t : Nat) (tr : Transport) (m : List Byte) (o : Outside)
  /-- CLIENT_HELLO (R482): A client_hello is answered with device_hello. -/
  | clientHello (t : Nat) (tr : Transport) (body : List Byte) (agree : Bool)
  /-- CLIENT_AUTH (R482): A client_auth is verified and answered with device_finished. -/
  | clientAuth (t : Nat) (tr : Transport) (id : Nat) (body : List Byte) (agree : Bool)
  /-- SESSION_CLOSE (R484): A close message ends a session. -/
  | sessionClose (t : Nat) (tr : Transport) (id seq : Nat) (tag : List Byte)
  /-- SESSION_IDLE_TIMEOUT (R484): A session ends after 600 s without a message. -/
  | sessionIdleTimeout (t : Nat) (id : Nat)
  /-- SESSION_LIFETIME_EXPIRY (R484): A session ends 24 h after its handshake. -/
  | sessionLifetimeExpiry (t : Nat) (id : Nat)
  /-- UDP_SEGMENT (R514): A UDP segment arrives and is reassembled into an AOAP message. -/
  | udpSegment (t : Nat) (port : Bool) (src msgId seg nseg total rsv : Nat) (data : List Byte) (o : Outside)
  /-- UDP_REASSEMBLY_TIMEOUT (R514): A message incomplete 100 ms after its first segment is discarded. -/
  | udpReassemblyTimeout (t : Nat) (port : Bool) (src msgId : Nat)
  /-- MCTP_MESSAGE (R515): An MCTP vendor message over I3C carries an AOAP message. -/
  | mctpMessage (t : Nat) (bus : Bool) (body : List Byte) (o : Outside)
  /-- MB_AOAP_MESSAGE (R516): Mailbox command 0xC100 carries an AOAP message and returns its answer. -/
  | mbAoapMessage (t : Nat) (m : List Byte) (o : Outside)
  /-- MB_NOTIFY_DRAIN (R516): Mailbox command 0xC101 returns the oldest queued notification. -/
  | mbNotifyDrain (t : Nat)
  /-- MB_HOST_COPY (R552): Mailbox command 0xC102 starts a background host copy. -/
  | mbHostCopy (t : Nat) (hostAddr pkgAddr : BitVec 64) (len : BitVec 32) (dir : BitVec 8)
  /-- HOST_COPY_DONE (R552): A host copy completes or stops at its first failing line. -/
  | hostCopyDone (t : Nat) (host : List (Option (List Byte)))
  /-- MB_OWNERSHIP_CMD (R551): Mailbox command 0xC103 issues an ownership command for the host. -/
  | mbOwnershipCmd (t : Nat) (region word : BitVec 64)
  /-- MB_COLL_LAUNCH (R552): Mailbox command 0xC104 launches a dynamic collective. -/
  | mbCollLaunch (t : Nat) (p : BitVec 8) (desc : BitVec 64)
  /-- MB_IDENTIFY (R551): Mailbox Identify Memory Device returns the device identity. -/
  | mbIdentify (t : Nat)
  /-- MB_GET_SUPPORTED_LOGS (R551): Mailbox Get Supported Logs returns the supported logs. -/
  | mbGetSupportedLogs (t : Nat)
  /-- MB_GET_LOG (R551): Mailbox Get Log returns the Command Effects Log. -/
  | mbGetLog (t : Nat) (uuid : List Byte) (off len : BitVec 32)
  /-- HOST_READ (R545): A host CXL.mem read is translated, checked and served. -/
  | hostRead (t : Nat) (o : Nat)
  /-- HOST_WRITE (R545): A host CXL.mem write is translated, checked and performed or dropped. -/
  | hostWrite (t : Nat) (o : Nat) (data : List Byte) (mask : BitVec 64)
  /-- BI_SNOOP_RESPONSE (R546): The host answers a back-invalidate snoop. -/
  | biSnoopResponse (t : Nat) (region : Nat) (dirty : List (Fin 32768 × List Byte))
  /-- CXL_BI_TIMEOUT (R546): A back-invalidate snoop is unanswered after 20 µs and the line is poisoned. -/
  | cxlBiTimeout (t : Nat) (region : Nat) (lines : List (Fin 32768))
  /-- WIN_RELEASE_WRITE (R549): A host write to win_release releases its oldest granted buffer of a window. -/
  | winReleaseWrite (t : Nat) (p : PartIdx) (v : BitVec 64)
  /-- HOST_RELEASE_DONE (R549): After back-invalidation the host buffer is marked released. -/
  | hostReleaseDone (t : Nat) (p : PartIdx) (w : Fin 64)
  /-- HOST_DOORBELL_WRITE (R550): A host doorbell write records the value in the ring and interrupts the partition's harts. -/
  | hostDoorbellWrite (t : Nat) (p : PartIdx) (v : BitVec 64)
  /-- POWER_SAMPLE (R528): Every 100 µs package power is measured and the 10 ms mean held under the limit. -/
  | powerSample (t : Nat) (watts : Nat) (currents : List (Fin 40 × Nat))
  /-- POWER_LIMIT_ESCALATE (R528): Power still above the limit 1 ms after throttling pauses draft issue. -/
  | powerLimitEscalate (t : Nat)
  /-- THERMAL_SAMPLE (R529): Every 1 ms the hottest sensor of each die is acted on. -/
  | thermalSample (t : Nat) (d : DieIdx) (temp : Int) (dirty : List (BitVec 48))
  /-- THERMTRIP (R573): A hardware comparator finds a sensor above its trip limit and drives THERMTRIP_N low. -/
  | thermtrip (t : Nat)
  /-- DROOP_ALERT (R527): A droop-alert input goes low and solver issue and C2 to C4 admission are cut on its dies. -/
  | droopAlert (t : Nat) (k : Fin 8)
  /-- DROOP_RELEASE (R527): 2 µs after the alert is released the droop measures end. -/
  | droopRelease (t : Nat) (k : Fin 8) (released : Nat)
  /-- MARGIN_REPLAN (R534): The steward recomputes every AVS rail setpoint from replica slack. -/
  | marginReplan (t : Nat) (ms : List Margin)
  /-- AGEING_ACCRUE (R535): Each second the steward accrues equivalent hours for each die. -/
  | ageingAccrue (t : Nat)
  /-- PKG_RESET_ASSERT (R573): PKG_RESET_N held low for 10 µs starts a cold reset. -/
  | pkgResetAssert (t : Nat) (ns : Nat)
  /-- RAIL_OUT_OF_RANGE (R557): A rail falls out of range and causes a cold reset. -/
  | railOutOfRange (t : Nat)
  /-- PKG_RESET_RELEASE (R553): Release of package reset starts stage 2 and completes any interrupted life-cycle transition. -/
  | pkgResetRelease (t : Nat) (straps : BitVec 4)
  /-- PLL_LOCK (R553): All PLLs lock and stage 2 ends. -/
  | pllLock (t : Nat) (ok : Bool)
  /-- SEAL_BOOT (R554): The seal processors verify and start a firmware image in stage 3. -/
  | sealBoot (t : Nat) (a b : List Byte) (agreeA agreeB failA failB : Bool)
  /-- STEWARD_START (R553): The steward starts and the object dictionary becomes live, ending stage 4. -/
  | stewardStart (t : Nat)
  /-- STEWARD_START_TIMEOUT (R555): Stage 4 overruns its budget and boot restarts from the other flash part. -/
  | stewardStartTimeout (t : Nat)
  /-- DRAM_TRAINING (R553): DRAM training, bond repair and zeroing complete, ending stage 5. -/
  | dramTraining (t : Nat) (bonds : List (DieIdx × Fin 64 × Fin 576)) (offline : List DieIdx)
  /-- DIE_SELF_TEST (R556): Firmware load and die self-tests complete, retiring or losing failed dies, ending stage 6. -/
  | dieSelfTest (t : Nat) (columns : List (DieIdx × Nat × Nat)) (failed : List DieIdx)
  /-- STARTUP_UNLOCKED (R553): Cadence is not LOCKED by the end of stage 7's budget and the stage ends anyway. -/
  | startupUnlocked (t : Nat)
  /-- CXL_TRAINING (R553): CXL link training reaches L0 or retries every 100 ms. -/
  | cxlTraining (t : Nat) (ok : Bool) (width rate : Nat)
  /-- WARM_RESET_INPUT (R573): WARM_RESET_N held low for 10 µs starts a warm reset. -/
  | warmResetInput (t : Nat) (ns : Nat)
  /-- WARM_RESET_COMPLETE (R558): The warm reset re-runs stage 6 and returns to stage 9. -/
  | warmResetComplete (t : Nat) (columns : List (DieIdx × Nat × Nat)) (failed : List DieIdx)
  /-- REFCLK_LOST (R576): A reference clock is lost and the package responds by clock. -/
  | refclkLost (t : Nat) (c : RefClock)
  /-- CAD_REF10M_OUT_OF_RANGE (R58): CAD_REF10M drifts outside the lock range of Table 18-6 and the CAD_1PPS/CAD_REF10M source becomes unhealthy. -/
  | cadRef10mOutOfRange (t : Nat)
  /-- DELAY_REQ_SEND (R57): A follower sends an IEEE 1588 Delay_Req on its in-band port to measure path delay at least 16 times per second. -/
  | delayReqSend (t : Nat)
  /-- LEDGER_ENTRY_AGE_OUT (R319): An atomic ledger entry reaches 2 ms of age and a held atomic of that source may be applied. -/
  | ledgerEntryAgeOut (t : Nat) (path unit : Nat)
  /-- HEARTBEAT_FLIT (R321): A Rhoum management heartbeat from a path arrives and clears that path's dead mark. -/
  | heartbeatFlit (t : Nat) (port : PortIdx) (path : BitVec 48)
  /-- BX_CSR_WRITE (R261): A hart writes bxwpend, bxwmask or a pending bit of mip, changing the window-grant interrupt level or clearing a pending interrupt. -/
  | bxCsrWrite (t : Nat) (h : HartIdx) (csr : Nat) (v : BitVec 64) (priv : Nat)
  /-- WIN_PEND_CLEAR (R548): The host writes 1 to bits of win_pend to clear them, with a same-cycle set prevailing. -/
  | winPendClear (t : Nat) (p : PartIdx) (v : BitVec 64)
  /-- HDM_DECODER_COMMIT (R543): The host commits its HDM decoder, which fails with a commit error unless its size equals hdm_size. -/
  | hdmDecoderCommit (t : Nat) (gib : Nat)
  /-- CXL_PERST_RELEASE (R553): CXL_PERST_N is released and stage 8 link training and its 100 ms timer begin. -/
  | cxlPerstRelease (t : Nat)
  /-- ETH_LINK_CHANGE (R517): A management Ethernet link goes up or down and eth_link changes. -/
  | ethLinkChange (t : Nat) (port up : Bool)
  /-- MCTP_EID_ASSIGN (R515): The I3C bus owner assigns the package's dynamic address and MCTP endpoint id, reported in mctp_eid. -/
  | mctpEidAssign (t : Nat) (bus : Bool) (eid : BitVec 8)
  /-- TEST_PORT_INSTRUCTION (R473): The tester shifts an IEEE 1149.1 instruction or IEEE 1687 access through the test port, acted on as the life-cycle state allows. -/
  | testPortInstruction (t : Nat) (op : TestOp)
  /-- AVS_SETPOINT_STEP (R525): At least 1 ms after the previous command, the steward issues the next step of at most 10 mV toward a rail's new setpoint. -/
  | avsSetpointStep (t : Nat) (r : Fin 40)
  /-- COLD_RESET_DELAY_EXPIRY (R557): 10 ms after the response to a cold reset request, the cold reset takes effect. -/
  | coldResetDelayExpiry (t : Nat)
  /-- LC_ERASE_DONE (R471): The crypto-erase, zeroing and readback of a life-cycle transition finish, after which the new state fuse is blown. -/
  | lcEraseDone (t : Nat) (mismatch : Bool)
  deriving DecidableEq, Repr

end Sys2Proof
end

