-- ==== Sys2Proof/Decode.lean ====
section
/-! DEFINITION. Decode.lean: the commands that words spell. No row of the opcode table gives bits, so `decodeTableWord` answers
none; the spec's own encodings are decoded here: station command words (03 R112), by class and opcode, and the words of
the BVX instructions (07 R254, Tables 07-3, 07-6, 07-7). -/

namespace Sys2Proof

/-- The command a word spells by the table's bits: none, since no row gives bits. -/
def decodeTableWord (_nbits _w : Nat) : Option Instr := none

/-- The station command an issued word is, by its opcode [127:120]; none for an opcode that stands in no table. -/
def stationCommand (t : Nat) (c : Cmd) : Option Instr :=
  match c.word.toNat / 2 ^ 120 with
  | 0x00 => some (.nop t c)
  | 0x01 => some (.setBase t c)
  | 0x10 => some (.sSetLo t c)
  | 0x11 => some (.sSetHi t c)
  | 0x12 => some (.sLoad t c)
  | 0x13 => some (.sStore t c)
  | 0x14 => some (.sInt t c)
  | 0x15 => some (.sFp64 t c)
  | 0x20 => some (.wSetup t c)
  | 0x21 => some (.wMma t c)
  | 0x22 => some (.wBatt t c)
  | 0x23 => some (.wAccOut t c)
  | 0x24 => some (.wAccIn t c)
  | 0x40 => some (.tLoad t c)
  | 0x41 => some (.tAcc t c)
  | 0x48 => some (.tScale t c)
  | 0x50 => some (.tAdd t c)
  | 0x51 => some (.tSub t c)
  | 0x52 => some (.tMul t c)
  | 0x53 => some (.tDiv t c)
  | 0x54 => some (.tMin t c)
  | 0x55 => some (.tMax t c)
  | 0x56 => some (.tFma t c)
  | 0x57 => some (.tSqrt t c)
  | 0x58 => some (.tSign t c)
  | 0x60 => some (.tFunc t c)
  | 0x64 => some (.tCmp t c)
  | 0x65 => some (.tLive t c)
  | 0x66 => some (.tTri t c)
  | 0x67 => some (.tSel t c)
  | 0x68 => some (.tRsum t c)
  | 0x69 => some (.tRmax t c)
  | 0x6A => some (.tRmin t c)
  | 0x6B => some (.tCsum t c)
  | 0x6C => some (.tCmax t c)
  | 0x6D => some (.tCmin t c)
  | 0x6E => some (.tConv t c)
  | 0x70 => some (.tSmaxMax t c)
  | 0x71 => some (.tSmaxSum t c)
  | 0x72 => some (.tSmaxOut t c)
  | 0x73 => some (.tSmaxDot t c)
  | 0x74 => some (.tSmaxBwd t c)
  | 0x75 => some (.tNormSum t c)
  | 0x76 => some (.tNormVar t c)
  | 0x77 => some (.tNormOut t c)
  | 0x78 => some (.tNormDot t c)
  | 0x79 => some (.tNormBwd t c)
  | 0x7C => some (.tOptStep t c)
  | 0x7D => some (.tOptCommit t c)
  | 0x80 => some (.memFill t c)
  | 0x81 => some (.memCopy t c)
  | 0xB0 => some (.cFill t c)
  | 0xB1 => some (.cCopy t c)
  | 0x90 => some (.fColl t c)
  | 0x91 => some (.fVote t c)
  | 0xA0 => some (.dShard t c)
  | 0xA8 => some (.lMark t c)
  | 0xA9 => some (.lDigest t c)
  | _ => none

/-- A custom-0 word by `funct6` [4:0] (07 Table 07-6). -/
def custom0Command (t : Nat) (h : HartIdx) (w : BitVec 32) : Option Instr :=
  match w.toNat / 2 ^ 26 % 32 with
  | 0x00 => some (.bxFadd t h w)
  | 0x01 => some (.bxFsub t h w)
  | 0x02 => some (.bxFmul t h w)
  | 0x03 => some (.bxFdiv t h w)
  | 0x04 => some (.bxFsqrt t h w)
  | 0x05 => some (.bxFmin t h w)
  | 0x06 => some (.bxFmax t h w)
  | 0x07 => some (.bxFsgnj t h w)
  | 0x08 => some (.bxFmadd t h w)
  | 0x09 => some (.bxFmsub t h w)
  | 0x0A => some (.bxFnmadd t h w)
  | 0x0B => some (.bxFredosum t h w)
  | 0x0C => some (.bxFeq t h w)
  | 0x0D => some (.bxFlt t h w)
  | 0x0E => some (.bxFle t h w)
  | 0x10 => some (.bxAdd t h w)
  | 0x11 => some (.bxSub t h w)
  | 0x12 => some (.bxMul t h w)
  | 0x13 => some (.bxAnd t h w)
  | 0x14 => some (.bxOr t h w)
  | 0x15 => some (.bxXor t h w)
  | 0x16 => some (.bxSll t h w)
  | 0x17 => some (.bxSrl t h w)
  | 0x18 => some (.bxSra t h w)
  | 0x19 => some (.bxMinu t h w)
  | 0x1A => some (.bxMaxu t h w)
  | 0x1B => some (.bxMin t h w)
  | 0x1C => some (.bxMax t h w)
  | 0x1D => some (.bxSeq t h w)
  | 0x1E => some (.bxSltu t h w)
  | 0x1F => some (.bxSlt t h w)
  | _ => none

/-- A custom-1 word by `funct6` (07 Table 07-7); `pf`: the page fault its access meets, `how`: how its wait is intercepted. -/
def custom1Command (t : Nat) (h : HartIdx) (w : BitVec 32) (pf : Option PageFault) (how : WaitTrap) : Option Instr :=
  match w.toNat / 2 ^ 26 with
  | 0x00 => some (.bxLd t h w pf)
  | 0x01 => some (.bxLdff t h w pf)
  | 0x02 => some (.bxSt t h w pf)
  | 0x04 => some (.bxTperm t h w)
  | 0x05 => some (.bxTperm t h w)
  | 0x06 => some (.bxTperm t h w)
  | 0x07 => some (.bxTperm t h w)
  | 0x08 => some (.bxCvtn t h w)
  | 0x09 => some (.bxCvtw t h w)
  | 0x0A => some (.bxFcvt t h w)
  | 0x0B => some (.bxBcast t h w)
  | 0x0C => some (.bxMand t h w)
  | 0x0D => some (.bxMor t h w)
  | 0x0E => some (.bxMxor t h w)
  | 0x0F => some (.bxMandn t h w)
  | 0x10 => some (.bxMrd t h w)
  | 0x11 => some (.bxMwr t h w)
  | 0x12 => some (.bxExt t h w)
  | 0x18 => some (.bxSetvl t h w)
  | 0x19 => some (.bxWrel t h w)
  | 0x1A => some (.bxWstat t h w)
  | 0x1B => some (.bxWwait t h w how)
  | _ => none

/-- The BVX instruction a word is, by its opcode [6:0]. -/
def bvxCommand (t : Nat) (h : HartIdx) (w : BitVec 32) (pf : Option PageFault) (how : WaitTrap) : Option Instr :=
  if w.toNat % 128 = 0x0B then custom0Command t h w
  else if w.toNat % 128 = 0x2B then custom1Command t h w pf how
  else none

end Sys2Proof
end

