-- ==== Sys2Proof/Config.lean ====
section
/-! DEFINITION. Config.lean: what the manual leaves open, as constants with no body (assumption log
entries 3 and 4): the free values, and the standards' algorithms the manual names and does not state. -/

namespace Sys2Proof.Config

/-- A byte nothing constrains, by the number of its draw: the entropy source (14 R469, R479, R482)
and every other open byte. -/
opaque freeByte : Nat → Byte

/-- A 64-bit word nothing constrains, by the number of its draw. -/
opaque freeWord : Nat → Word

/-- Result of a scalar shift by 64 places or more (03 R119 states none): left or right, operands. -/
opaque wideShift (left : Bool) (a b : Word) : Word

/-- Result of a conversion of a NaN or of a value outside the integer's range (07 R252 states none): signed, width,
source code. -/
opaque fcvtOutside (signed : Bool) (ew code : Nat) : Nat

/-- What a pass reads from an element of a tile buffer that a pass of the other internal type wrote
(06 R205 states none): the type read is FP64, the code stored. -/
opaque bufferAcross (wide : Bool) (code : Nat) : Nat

/-- Whether a quotient that the manual gives in whole units and does not say how to round goes up: dividend, divisor. -/
opaque roundUp (n d : Nat) : Bool

/-- The four maker keys and the four firmware keys whose digests are fused at manufacture (14 R469, R476). -/
opaque makerKey : Nat → List Byte
opaque firmwareKey : Nat → List Byte

/-- Fused replica sensitivity of a die, in ps per V (16 R534). -/
opaque sensitivity : Nat → Nat

/-- Digest of the seal boot ROM (14 Table 14-7). -/
opaque bootRomDigest : List Byte

/-- Whether PKG_RESET_N held low for so many nanoseconds, from 1 µs up to 10 µs, starts a cold reset (18 R573 leaves it
open). -/
opaque shortReset : Nat → Bool

/-- Output payload of the mailbox command Identify Memory Device, and the effect bits that the Command Effects Log gives a
command, by opcode (17 R551 gives neither). -/
opaque deviceIdentity : List Byte
opaque commandEffect (opcode : Nat) : Nat

/-- ML-DSA-65 (FIPS 204): whether a signature by a public key over a message in a context verifies. -/
opaque dsaVerify (pk ctx msg sig : List Byte) : Bool

/-- ML-DSA-65: the signature of a key pair, named by its seed, over a message in a context. -/
opaque dsaSign (seed : Nat) (ctx msg : List Byte) : List Byte

/-- ML-DSA-65: the public key of a seed. -/
opaque dsaPublic (seed : Nat) : List Byte

/-- ML-KEM-768 (FIPS 203): ciphertext for an encapsulation key and randomness. -/
opaque kemCipher (ek rnd : List Byte) : List Byte

/-- ML-KEM-768: the shared secret that goes with it. -/
opaque kemSecret (ek rnd : List Byte) : List Byte

/-- AES-256-GCM: ciphertext followed by the tag. -/
opaque gcmSeal (key nonce aad plain : List Byte) : List Byte

/-- AES-256-GCM: the plaintext, when the tag is right. -/
opaque gcmOpen (key nonce aad sealedText : List Byte) : Option (List Byte)

/-- Contents of the function-stage tables: result bits of function `sub` on an input of 32 or 64
bits (06 R214 bounds the error and does not state the bits; Machine/Func.lean keeps the bound). -/
opaque funcStage (sub : Nat) (wide : Bool) (x : Nat) : Nat

/-- Equivalent hours accrued in one second, in millionths, at a junction temperature (m°C) and a
load voltage (µV): the rounding of 16 R535's powers of two. -/
opaque ageingPerSecond (tj : Int) (vload : Nat) : Nat

/-- The fit of 16 R536 over (day, Vmin in mV) pairs: drift in µV per day and days to the ceiling. -/
opaque marginFit (points : List (Nat × Nat)) : Int × Nat

end Sys2Proof.Config
end

