-- ==== Sys2Proof/Machine/Base.lean ====
section
/-! DEFINITION. Machine/Base.lean: helpers every family uses: sparse maps, bit fields, bytes
(little-endian, 00_scope R9), and the fold combinators over indices. -/

namespace Sys2Proof.Machine

/-- The value a sparse map holds at a key. -/
def fmGet? {α : Type} : Fm α → Nat → Option α
  | [], _ => none
  | (j, a) :: m, k => if k = j then some a else fmGet? m k

/-- The value at a key, or a default. -/
def fmGet {α : Type} (m : Fm α) (k : Nat) (d : α) : α := (fmGet? m k).getD d

/-- Write a value at a key, keeping keys rising. -/
def fmSet {α : Type} : Fm α → Nat → α → Fm α
  | [], k, a => [(k, a)]
  | (j, b) :: m, k, a =>
    if k < j then (k, a) :: (j, b) :: m
    else if k = j then (k, a) :: m
    else (j, b) :: fmSet m k a

/-- Remove a key. -/
def fmDel {α : Type} (m : Fm α) (k : Nat) : Fm α := m.filter fun e => e.1 != k

/-- Whether a key is present. -/
def fmHas {α : Type} (m : Fm α) (k : Nat) : Bool := (fmGet? m k).isSome

/-- Bits hi down to lo of a number (R9). -/
def bits (v hi lo : Nat) : Nat := (v >>> lo) % 2 ^ (hi + 1 - lo)

/-- One bit of a number. -/
def bit (v i : Nat) : Bool := v.testBit i

/-- 1 for true, 0 for false. -/
def b2n (b : Bool) : Nat := if b then 1 else 0

/-- The number v with bits hi..lo replaced by x. -/
def setBits (v hi lo x : Nat) : Nat :=
  v - (bits v hi lo <<< lo) + ((x % 2 ^ (hi + 1 - lo)) <<< lo)

/-- The number v with bit i set to b. -/
def setBit (v i : Nat) (b : Bool) : Nat := setBits v i i (b2n b)

/-- Read a number as a two's complement integer of w bits. -/
def toSigned (w v : Nat) : Int :=
  let u := v % 2 ^ w
  if u < 2 ^ (w - 1) then (u : Int) else (u : Int) - (2 ^ w : Nat)

/-- The two's complement bits, w wide, of an integer. -/
def ofSigned (w : Nat) (v : Int) : Nat := (v % ((2 ^ w : Nat) : Int)).toNat

/-- The n little-endian bytes of a number (R9). -/
def bytesOf : Nat → Nat → List Byte
  | 0, _ => []
  | n + 1, v => BitVec.ofNat 8 v :: bytesOf n (v / 256)

/-- The number whose little-endian bytes are given (R9). -/
def natOf : List Byte → Nat
  | [] => 0
  | b :: bs => b.toNat + 256 * natOf bs

/-- Cut a list into pieces of n. -/
def chunksOf {α : Type} (n : Nat) : Nat → List α → List (List α)
  | 0, _ => []
  | k + 1, l => l.take n :: chunksOf n k (l.drop n)

/-- The 64-bit words of a byte string. -/
def wordsOf (l : List Byte) : List Nat := (chunksOf 8 (l.length / 8) l).map natOf

/-- The bytes of a list of 64-bit words. -/
def bytesOfWords (l : List Nat) : List Byte := l.flatMap (bytesOf 8)

/-- Fold a state change over the numbers 0 to n - 1, in order. -/
def forN {σ : Type} (n : Nat) (s : σ) (f : σ → Nat → σ) : σ := (List.range n).foldl f s

/-- The list element at an index, or a default. -/
def nth {α : Type} (l : List α) (i : Nat) (d : α) : α := l.getD i d

/-- Insert in order of a key. -/
def insertBy {α : Type} (key : α → Nat) (x : α) : List α → List α
  | [] => [x]
  | y :: l => if key x < key y then x :: y :: l else y :: insertBy key x l

/-- Sort by a key, keeping the order of equals. -/
def sortBy {α : Type} (key : α → Nat) (l : List α) : List α := l.foldl (fun m x => insertBy key x m) []

/-- Round a quotient up. -/
def ceilDiv (a b : Nat) : Nat := (a + b - 1) / b

/-- The numbers below n whose bit is set in a mask. -/
def maskBits (n m : Nat) : List Nat := (List.range n).filter (bit m)

/-- Serial order of 16-bit numbers: a is older than b when b is at most 2^15 - 1 ahead (09 R317). -/
def serialLt (w a b : Nat) : Bool :=
  let d := (b + 2 ^ w - a) % 2 ^ w
  0 < d && d < 2 ^ (w - 1)

end Sys2Proof.Machine
end

