-- ==== Sys2Proof/Machine/Crypto.lean ====
section
/-! DEFINITION. Machine/Crypto.lean: SHAKE256 (FIPS 202), the digest of every rule that names one
(00 Table 00-2), and the counter-based generator of 12 R407. -/

namespace Sys2Proof.Machine

/-- The lane of column x and row y (both taken modulo 5) of a sponge of 25 lanes. -/
def spongeLane (st : List (BitVec 64)) (x y : Nat) : BitVec 64 := st.getD (x % 5 + 5 * (y % 5)) 0

/-- Theta: each lane takes in the parity of the column before it and of the one after it, turned. -/
def spongeMix (st : List (BitVec 64)) : List (BitVec 64) :=
  let parity := fun x => (List.range 5).foldl (fun p y => p ^^^ spongeLane st x y) 0
  let takes := (List.range 5).map fun x => parity (x + 4) ^^^ (parity (x + 1)).rotateLeft 1
  st.zipIdx.map fun (w, i) => w ^^^ takes.getD (i % 5) 0

/-- Rho and pi in one walk: the t-th lane of the walk from (1, 0) moves to (y, 2 x + 3 y), turned
by the t-th triangular number. -/
def spongeWalk (st : List (BitVec 64)) : Nat → Nat → Nat → Nat → List (BitVec 64) → List (BitVec 64)
  | 0, _, _, _, out => out
  | left + 1, t, x, y, out =>
    let y' := (2 * x + 3 * y) % 5
    spongeWalk st left (t + 1) y y'
      (out.set (y + 5 * y') ((spongeLane st x y).rotateLeft (t * (t + 1) / 2 % 64)))

/-- Chi: each lane takes in the next one's complement and the one after it, along its row. -/
def spongeChi (st : List (BitVec 64)) : List (BitVec 64) :=
  st.zipIdx.map fun (w, i) =>
    w ^^^ (spongeLane st (i % 5 + 2) (i / 5) &&& ~~~ spongeLane st (i % 5 + 1) (i / 5))

/-- The next value of the 8-bit register the iota constants are drawn from. -/
def iotaShift (r : Nat) : Nat := if r < 128 then 2 * r else (2 * r) ^^^ 0x171

/-- Iota: seven draws, draw j at bit 2^j - 1 of lane 0; answers the register after them. -/
def spongeIota (st : List (BitVec 64)) (r : Nat) : List (BitVec 64) × Nat :=
  (List.range 7).foldl (fun (acc : List (BitVec 64) × Nat) j =>
    (if acc.2 % 2 = 1 then acc.1.modify 0 (· ^^^ BitVec.ofNat 64 (2 ^ (2 ^ j - 1))) else acc.1,
      iotaShift acc.2)) (st, r)

/-- The sponge's permutation: 24 rounds, with the register of the constants running on. -/
def spongeTurn (st : List (BitVec 64)) : List (BitVec 64) :=
  ((List.range 24).foldl (fun (acc : List (BitVec 64) × Nat) _ =>
    let mixed := spongeMix acc.1
    spongeIota (spongeChi (spongeWalk mixed 24 1 1 0 mixed)) acc.2) (st, 1)).1

/-- Take in one 136-byte block, eight bytes a lane. -/
def spongeTake (st : List (BitVec 64)) (block : List Byte) : List (BitVec 64) :=
  spongeTurn (st.zipIdx.map fun (w, i) => w ^^^ BitVec.ofNat 64 (natOf ((block.drop (8 * i)).take 8)))

/-- Give out blocks of 136 bytes, a turn between each two. -/
def spongeGive : Nat → List (BitVec 64) → List Byte
  | 0, _ => []
  | blocks + 1, st => (st.take 17).flatMap (fun w => bytesOf 8 w.toNat) ++ spongeGive blocks (spongeTurn st)

/-- A message cut for SHAKE256: bits 1111 after it, then 1, zeros, and a last 1 that ends a block. -/
def spongePad (m : List Byte) : List Byte :=
  let tail := (0x1F : Byte) :: List.replicate (135 - m.length % 136) 0
  m ++ tail.modify (tail.length - 1) (· ||| 0x80)

/-- The first n bytes of SHAKE256 of a byte string (FIPS 202). -/
def shake256 (n : Nat) (m : List Byte) : List Byte :=
  let full := spongePad m
  let st := (chunksOf 136 (full.length / 136) full).foldl spongeTake (List.replicate 25 0)
  (spongeGive (ceilDiv n 136) st).take n

/-- The 32-byte digest the manual uses (14 R469). -/
def digest32 (m : List Byte) : List Byte := shake256 32 m

/-- One round of `gen_block` (12 R407): r, round keys, state. -/
def genRound (st : List (BitVec 32) × List (BitVec 32)) (r : Nat) : List (BitVec 32) × List (BitVec 32) :=
  let (rk, x) := st
  let mul := fun i (c : Nat) => (x.getD i 0).toNat * c
  let a := mul 0 0xD36A9E5B
  let b := mul 1 0xA74C3F19
  let c := mul 2 0xCB1E6A27
  let d := mul 3 0xF0E35C8D
  let hi := fun (n : Nat) => BitVec.ofNat 32 (n >>> 32)
  let lo := fun (n : Nat) => BitVec.ofNat 32 n
  let k := fun i => rk.getD ((r + i) % 4) 0
  (rk.set (r % 4) (rk.getD (r % 4) 0 + 0x7F4A7C15),
   [hi c ^^^ lo d ^^^ k 0, hi d ^^^ lo a ^^^ k 1, hi a ^^^ lo b ^^^ k 2, hi b ^^^ lo c ^^^ k 3])

/-- Word 0 of `gen_block` (12 R407): key, purpose, tensor, coordinates, epoch. -/
def genDraw (key : Nat) (pur ten row col idx ep : Nat) : BitVec 32 :=
  let k := fun i => BitVec.ofNat 32 (key >>> (32 * i))
  let rk := [k 0 ^^^ BitVec.ofNat 32 ((ten % 2 ^ 16) * 2 ^ 16 + (ep >>> 32) % 2 ^ 16),
    k 1 ^^^ BitVec.ofNat 32 (pur * 2 ^ 24), k 2, k 3]
  let x := [BitVec.ofNat 32 row, BitVec.ofNat 32 col, BitVec.ofNat 32 idx, BitVec.ofNat 32 ep]
  ((List.range 10).foldl genRound (rk, x)).2.getD 0 0

/-- The 4 bytes of a big or small tag string. -/
def ascii (s : String) : List Byte := s.toList.map fun c => BitVec.ofNat 8 c.toNat

end Sys2Proof.Machine
end

