-- ==== Sys2Proof/Machine/State.lean ====
section
/-! DEFINITION. Machine/State.lean: the state of the CLP-48ss package, field by field as the
manual names it (INVENTORY.md lists each with its rule and reset value), the fault and refusal
reasons, and the state after reset. Plain data only. -/

namespace Sys2Proof.Machine

/-- Why a step may stop with a fault. -/
inductive Fault
  /-- Raised by no command: the manual gives every command of the table an effect or an answer, and
  the model takes it. Safe. -/
  | unreachable
  deriving DecidableEq, Repr

/-- Why a step may be refused. -/
inductive Refusal
  /-- Raised by `exec`'s arms of commands whose meaning has not been written. Safe: the model stops
  where the hardware goes on. -/
  | notModelled (mnemonic : String)
  deriving DecidableEq, Repr

/-! ### Cadence (02_cadence_and_draft) -/

/-- Reported state of the cadence unit (02 R66, Table 02-2). -/
inductive CadState | unlocked | acquiring | locked | holdover
  deriving DecidableEq, Repr

/-- A selected time source (02 R56, Table 02-2). -/
inductive CadSource | none | inBand | pps | treadle
  deriving DecidableEq, Repr

/-- Health of the CAD_1PPS/CAD_REF10M source (02 R58). -/
structure PpsIn where
  /-- time of the last CAD_1PPS rising edge -/
  last : Option Nat := .none
  /-- consecutive edges within 1 s ± 1 ms with CAD_REF10M in range, up to 16 -/
  good : Nat := 0
  /-- 16 such edges have come, and nothing has made the source unhealthy since -/
  healthy : Bool := false
  /-- CAD_REF10M shows edges and lies in its lock range -/
  ref10m : Bool := false
  deriving DecidableEq, Repr

/-- Health of the treadle source (02 R59). -/
structure TreadleIn where
  /-- time of the last selected edge -/
  last : Option Nat := .none
  /-- last measured period, in time units; 0 before the second edge -/
  period : Nat := 0
  /-- consecutive periods inside ±5%, up to 16 -/
  good : Nat := 0
  /-- state of the last period (`treadle_in_range`) -/
  inRange : Bool := false
  /-- the source counts as healthy -/
  healthy : Bool := false
  deriving DecidableEq, Repr

/-- In-band time (02 R57). -/
structure InBand where
  /-- ports on which valid messages of the master arrived, a 16-bit mask -/
  ports : Nat := 0
  /-- the master's tick counter and the tick period it carries, last received -/
  masterTick : Nat := 0
  masterPeriod : Nat := 0
  /-- time of the message that carried them -/
  masterAt : Nat := 0
  /-- phase error of the package's boundaries against the master's, in ps: as last measured, with the corrections made since -/
  phasePs : Int := 0
  /-- the source was refused for a different count (02 R62) -/
  refused : Bool := false
  /-- Delay_Req messages sent and not yet answered, by port -/
  delayReq : Fm Nat := []
  deriving DecidableEq, Repr

/-- The cadence unit (02 R55 to R66). -/
structure Cadence where
  /-- OD 0x2003.00 tick_counter -/
  tick : BitVec 64 := 0
  /-- time of the last tick boundary -/
  tickStart : Nat := 0
  /-- length of the tick now running, in 10 ns -/
  tickLen : Nat := 100000
  /-- last measured tick length, in 10 ns, which holdover keeps (02 R61) -/
  holdLen : Nat := 100000
  state : CadState := .unlocked
  source : CadSource := .none
  /-- source selected before holdover -/
  lastSource : CadSource := .none
  /-- FX1 holds the cadence master (02 R64) -/
  masterFx1 : Bool := false
  standbyReady : Bool := false
  /-- both FX0 and FX1 are lost: no more ticks (13 R446) -/
  dead : Bool := false
  /-- consecutive ticks with the phase error within 50 ns, up to 16 -/
  lockCount : Nat := 0
  /-- the first LOCKED tick since cold reset has passed -/
  everLocked : Bool := false
  /-- free-running since the end of start-up stage 7 (02 R63) -/
  freeRun : Bool := false
  /-- start of the holdover now running -/
  holdSince : Option Nat := .none
  /-- CADENCE_HOLDOVER_LIMIT was raised in this holdover -/
  holdRaised : Bool := false
  pps : PpsIn := {}
  treadle : TreadleIn := {}
  inBand : InBand := {}
  deriving DecidableEq, Repr

/-! ### Drafts (02, 03) -/

/-- Draft state (02 Table 02-6). -/
inductive DraftState | empty | loaded | armed | running | halted
  deriving DecidableEq, Repr

/-- The three sides that may own a coupling window (02 R78). -/
inductive Side | solver | spindle | host
  deriving DecidableEq, Repr

/-- A window table entry (02 Table 02-4). -/
structure WinDesc where
  base : Nat
  size : Nat
  first : Side
  double : Bool
  extra : Nat
  deriving DecidableEq, Repr

/-- A gate table entry (02 Table 02-5). -/
structure GateDesc where
  cycle : Nat
  tick : Nat
  window : Nat
  src : Side
  dst : Side
  policy : Nat
  stallLimit : Nat
  deriving DecidableEq, Repr

/-- A roving declaration (03 Table 03-4). -/
structure Roving where
  srcStation : Nat
  srcSlot : Nat
  dstSlot : Nat
  dstStation : Nat
  format : Nat
  tensor : Nat
  count : Nat
  interval : Nat
  startTick : Nat
  startCycle : Nat
  remoteRoving : Nat
  ring : Nat
  srcAddr : Nat
  dstAddr : Nat
  firstIndex : Nat
  remotePath : Nat
  remoteSlot : Nat
  deriving DecidableEq, Repr

/-- A loaded draft: its image and the tables the load read from it (02 R68 to R71, 03 R102). -/
structure Draft where
  image : List Byte
  hdr : List Nat
  gates : List GateDesc
  wins : List WinDesc
  rovs : List Roving
  deriving DecidableEq, Repr

/-- Where one buffer of a window stands (02 R81, R85): the spare, held by a side, or released by
a side and held by none. Buffers of a host window's host queue are held by the host. -/
inductive BufSt | spare | held (s : Side) | released (s : Side)
  deriving DecidableEq, Repr

/-- An entry of a host window's host queue (02 R81). -/
structure QEnt where
  buf : Nat
  granted : Bool
  released : Bool
  /-- cadence tick of the gate that put it there -/
  tick : Nat := 0
  deriving DecidableEq, Repr

/-- Running state of a coupling window (02 R78 to R85, 07 R255 to R262). -/
structure WinSt where
  owner : Side
  /-- the release flag -/
  flag : Bool := false
  bufs : List BufSt
  queue : List QEnt := []
  /-- harts counted toward the quorum since the last gate (07 R257) -/
  counted : List Nat := []
  /-- a write-back of counted stores is still running (07 R258) -/
  writeBack : Bool := false
  /-- harts counted at the last solver-side release (13 R445) -/
  lastCounted : List Nat := []
  /-- quorum in force for the run, when a lost solver die has lowered it (13 R445) -/
  quorumCut : Nat := 0
  /-- epoch of the last change of owner (07 R262) -/
  epoch : Nat := 0
  deriving DecidableEq, Repr

/-- An output held until its release instant (02 R88). -/
structure HeldOut where
  /-- window and buffer of a host buffer -/
  window : Nat
  buf : Nat
  /-- cadence tick in which the draft scheduled it -/
  tick : Nat
  epoch : Nat
  /-- cadence tick in which its step committed -/
  committed : Option Nat
  /-- its draft has been unloaded since -/
  gone : Bool := false
  deriving DecidableEq, Repr

/-- A tile sent to a fabric consumer outside the draft set, held like every output (02 R88). -/
structure HeldTile where
  roving : Nat
  /-- path, slot and roving that take it -/
  path : Nat := 0
  slot : Nat := 0
  remote : Nat := 0
  index : Nat
  bytes : List Byte
  tick : Nat
  epoch : Nat
  committed : Option Nat
  gone : Bool := false
  deriving DecidableEq, Repr

/-- A step that committed: its epoch, the cadence ticks scheduled for its first and last draft tick, and the cadence tick
in which it committed (02 R67, R88). -/
structure StepRec where
  epoch : Nat
  first : Nat
  last : Nat
  committed : Nat
  gone : Bool := false
  deriving DecidableEq, Repr

/-- A buddy image's progress for one slot (13 R435 to R437). -/
structure Buddy where
  /-- places (memory keys) of persistent lines stored to in the running step, with their bytes -/
  delta : List (Nat × Byte) := []
  /-- the sealed delta not yet applied to the images -/
  sealedDelta : List (Nat × Byte) := []
  /-- scalar registers sealed with it -/
  sealedSregs : Fm (BitVec 64) := []
  /-- a delta overflowed: unprotected until the next load -/
  overflow : Bool := false
  deriving DecidableEq, Repr

/-- A doff being written (13 R453). -/
structure DoffRun where
  generation : Nat
  epoch : Nat
  /-- the directory: shard offset, tensor, kind, row and column offset -/
  dir : List (List Nat) := []
  /-- next free offset in the half, from 1 MiB -/
  next : Nat := 1048576
  /-- the doff step's commit has taken effect and slot state is written -/
  slotState : Bool := false
  failed : Bool := false
  /-- the manifest has been written and waits for its acknowledgement -/
  manifest : Bool := false
  deriving DecidableEq, Repr

/-- Replay of one partition (12 R419). -/
structure Replay where
  /-- the partition replays a stream since its draft start -/
  on : Bool := false
  /-- tick counter minus replay tick -/
  offset : Int := 0
  /-- byte offset of the next unread record of the stream -/
  cursor : Nat := 0
  /-- lengths of the ticks of the stream, by replay tick, read ahead -/
  diverged : Bool := false
  /-- byte offset from which the next FABRIC_IN record is looked for -/
  fabNext : Nat := 0
  deriving DecidableEq, Repr

/-- A tile as it travels: format, payload, side band and the 256-bit flag word (03 R96 to R99). -/
structure Tile where
  format : Nat
  payload : List Byte
  band : List Byte
  flag : Nat
  deriving DecidableEq, Repr

/-- Running state of a partition (02, 13). -/
structure Part where
  state : DraftState := .empty
  draft : Option Draft := .none
  /-- OD 0x2020+p.08 step_epoch, .09 slip, .0A lag, .0C variant -/
  epoch : BitVec 48 := 0
  slip : Nat := 0
  lag : Nat := 0
  variant : Nat := 0
  /-- steps committed since the draft started -/
  stepsDone : Nat := 0
  /-- draft tick within the step, and the time at which it began -/
  stepTick : Nat := 0
  tickBegan : Nat := 0
  /-- the step committed, at a time, and the next has not begun -/
  stepOver : Bool := false
  commitAt : Nat := 0
  /-- cadence tick scheduled for the first draft tick of the step (02 R75) -/
  sched : Nat := 0
  stopPending : Bool := false
  /-- gates whose stall stopped issue, the instant of the stop and the slip at them (02 R84) -/
  stalled : List Nat := []
  stallSlip : Nat := 0
  stallCycle : Nat := 0
  /-- consecutive rollbacks of the epoch: late, counted (die index named), tainted -/
  lateRolls : Nat := 0
  faultRolls : List (Option Nat) := []
  taintRolls : Nat := 0
  /-- reused-window mask (02 R85) -/
  reused : BitVec 64 := 0
  /-- the running step is tainted by a collective (10 R352) -/
  tainted : Bool := false
  /-- a rollback has restored the step and it waits for its re-run: cause bits of 12 Table 12-7 -/
  restoring : Bool := false
  restoreCause : Nat := 0
  /-- spare activations of the restore now pending: slot, old die, new die (13 R438) -/
  spares : List (Nat × Nat × Nat) := []
  /-- variant to take effect at the re-run (13 R444) -/
  variantNext : Option Nat := .none
  /-- issue stopped: re-run pause from and until a time (05 R194, R196) -/
  pauseUntil : Option Nat := .none
  pauseFrom : Nat := 0
  wins : List WinSt := []
  winsCommit : List WinSt := []
  slipCommit : Nat := 0
  /-- tiles under way: roving, number, time of arrival, tile (03 R106, R107) -/
  flight : List (Nat × Nat × Nat × Tile) := []
  /-- tiles of each roving that have left in this step -/
  left : Fm Nat := []
  /-- tiles of each roving a command has consumed, and that a station has produced, in this step -/
  taken : Fm Nat := []
  made : Fm Nat := []
  /-- tiles produced and not yet sent: roving, number, time from which they are ready -/
  outs : List (Nat × Nat × Nat × Tile) := []
  held : List HeldOut := []
  heldTiles : List HeldTile := []
  /-- committed steps whose treadle pulses may still be due -/
  commits : List StepRec := []
  /-- slots whose signature of the step's last draft tick compared equal (13 R427) -/
  sigOk : List Nat := []
  /-- gates of the running draft tick that have been met -/
  gatesDone : List Nat := []
  /-- replay: gates that wait for their release flag (12 R419) -/
  waiting : List Nat := []
  /-- creel granules of the draft's reservations (10 R361) -/
  creel : List Nat := []
  /-- the next step is a doff step (13 R450) -/
  doffNext : Bool := false
  /-- the generator key came from the entropy source (12 R406) -/
  keyEntropy : Bool := false
  /-- the commit vote: sent, and its result (10 R356, R357) -/
  voteSent : Bool := false
  voteResult : Option Bool := .none
  /-- undo journal: line key and its 64 old bytes (13 R428) -/
  undo : Fm (List Byte) := []
  undoOver : Bool := false
  /-- lines that raised an uncorrectable error in this step (13 R430) -/
  badLines : List Nat := []
  /-- persistent ranges in force: first place and length in bytes (13 R433) -/
  persist : List (Nat × Nat) := []
  buddy : Fm Buddy := []
  doff : Option DoffRun := .none
  /-- residues of rows 64 to 127 by the address of their record, and those of the last step commit (06 R224) -/
  resHigh : Fm (List Int) := []
  resHighCommit : Fm (List Int) := []
  /-- directory entries of the last manifest written in each half (13 R453) -/
  doffDirs : Fm Nat := []
  /-- the running step is a doff step (13 R450) -/
  doffStep : Bool := false
  /-- cadence tick in which an abort or unload discarded the outputs not yet released (02 R76) -/
  dropTick : Option Nat := .none
  replay : Replay := {}
  deriving DecidableEq, Repr

/-! ### Stations and flyers (03) -/

/-- A tile waiting in a station's input queue (03 R108). -/
structure QTile where
  arrived : Nat
  roving : Nat
  index : Nat
  tile : Tile
  deriving DecidableEq, Repr

/-- A command that consumes several tiles of a roving, one each `per` from its start (05 R190; 12 R417; 13 R451). -/
structure Take where
  roving : Nat
  want : Nat
  tiles : List Tile := []
  start : Nat
  per : Nat
  /-- place of the command -/
  tick : Nat
  pos : Nat
  /-- shard descriptor of a `d_shard`; bank of a `w_acc_in` -/
  desc : List Nat := []
  deriving DecidableEq, Repr

/-- A station command on its way to its station, or waiting there to start (03 R113, R116): partition, slot, station
word, the command word, the time of its arrival, its place (draft tick and position), and the scalars it read at issue. -/
structure StCmd where
  p : Nat
  n : Nat
  st : Nat
  word : Nat
  arrival : Nat
  tick : Nat
  pos : Nat
  a : Nat := 0
  b : Nat := 0
  deriving DecidableEq, Repr

/-- Input queues and command occupancy of one station (03 R108, R116). -/
structure Station where
  /-- tiles that wait for a command, or at B, M and C for a transfer -/
  queue : List QTile := []
  /-- commands that wait to start, and the end of the one that runs -/
  cmds : List StCmd := []
  freeAt : Nat := 0
  /-- transfers of tiles into the station's memory: start, end, roving (03 R108, 08 R283) -/
  xfers : List (Nat × Nat × Nat) := []
  /-- bytes that tiles arriving within the last 3,072 cycles replaced: time, place, old bytes (08 R283) -/
  recent : List (Nat × Nat × List Byte) := []
  /-- commands that consume tiles of a roving, in order -/
  takes : List Take := []
  deriving DecidableEq, Repr

/-- The flyer core of a slot (03 R109 to R126). -/
structure Flyer where
  /-- base integer registers of the RV64 pipeline (03 R109); an absent register reads 0 -/
  x : Fm (BitVec 64) := []
  /-- segment base -/
  base : BitVec 32 := 0
  /-- draft cycle of the last command, commands and scalar commands issued in it -/
  last : Nat := 0
  inCycle : Nat := 0
  scalars : Nat := 0
  /-- position of the next command in the tick's stream -/
  pos : Nat := 0
  /-- s0 to s63; an absent register reads 0 -/
  sreg : Fm (BitVec 64) := []
  /-- results not yet readable: landing cycle, register, value, bits written (03 R119) -/
  landing : List (Nat × Nat × BitVec 64 × BitVec 64) := []
  /-- registers of the last step commit (03 R122) -/
  sregCommit : Fm (BitVec 64) := []
  /-- registers with a single (1) or double (2) bit error (03 R123) -/
  sregErr : Fm Nat := []
  /-- the byte string M of the running draft tick (03 R124), and that of the tick before -/
  msg : List Byte := []
  prev : List Byte := []
  deriving DecidableEq, Repr

/-! ### Reel log and events (12, 15) -/

/-- One partition's part of the reel log (12 R412 to R416). -/
structure Reel where
  /-- package-physical base and size in bytes, fixed at partition commit -/
  base : Nat := 0
  size : Nat := 0
  disabled : Bool := false
  /-- number of the next record -/
  seq : Nat := 0
  /-- offsets (in reel_write counting) of the records kept, oldest first -/
  starts : List Nat := []
  /-- records dropped since the last LOST record -/
  dropped : Nat := 0
  lastFull : Option Nat := .none
  deriving DecidableEq, Repr

/-- An event log of 128 records (15 R505). -/
structure EvLog where
  head : Nat := 0
  recs : Fm (List Nat) := []
  deriving DecidableEq, Repr

/-- Who an event names in its record header (15 Table 15-5). -/
structure EvWho where
  part : Option Nat := .none
  die : Option Nat := .none
  slot : Option Nat := .none
  deriving DecidableEq, Repr

/-- A detail field of an event: a 32-bit half or a whole word (15 R506). -/
inductive EvField | half (v : Nat) | word (v : Nat)
  deriving DecidableEq, Repr
/-! ### Memory (08) -/

/-- A line's error state (08 R273, R277). Keyed by the physical line. -/
inductive LineSt
  /-- stored with inverted check symbols -/
  | poisoned
  /-- the DRAM dies whose symbols are in error in each of the two codewords, one bit each -/
  | symbols (cw0 cw1 : Nat)
  deriving DecidableEq, Repr

/-- One DRAM channel (08 R274, R275, R284 to R286). -/
structure Channel where
  /-- the erased DRAM die -/
  erased : Option Nat := .none
  /-- a second die's symbols are wrong too -/
  second : Option Nat := .none
  /-- spare bonds used, by spare number, with the bond each replaces -/
  spares : Fm Nat := []
  /-- the running slot window: slot number, C0 and C1 slots served, refresh and scrub slots used -/
  slotNo : Nat := 0
  c0Served : Nat := 0
  c1Served : Nat := 0
  refreshed : Nat := 0
  scrubbed : Nat := 0
  /-- C0 slots asked for and served in the window, by partition (11 R385) -/
  c0Received : Fm Nat := []
  c0ByPart : Fm Nat := []
  /-- C0 requests that wait: partition, line, slots -/
  c0 : List (Nat × Nat × Nat) := []
  /-- partial store whose second slot is still to come: line (08 R271) -/
  half : Option Nat := .none
  deriving DecidableEq, Repr

/-- One bonded stack (08 R274, R278, R290). -/
structure Stack where
  /-- corrected symbols of the last second: time, DRAM die, number -/
  recent : List (Nat × Nat × Nat) := []
  lostDie : Option Nat := .none
  temp : Nat := 0
  hot : Bool := false
  limit : Bool := false
  /-- DRAM_THROTTLE in force (16 R530) -/
  throttle : Bool := false
  /-- since when the temperature has stayed below 82 °C -/
  coolSince : Option Nat := .none
  /-- since when it has stayed below 93 °C, and above 100 °C (16 R530) -/
  below93 : Option Nat := .none
  above100 : Option Nat := .none
  /-- 0 absent, or not yet trained; 1 training, 2 ready, 4 offline; 3 follows from the erasures -/
  state : Nat := 0
  /-- corrected symbols of the last 3,600 s: time and number (13 R448) -/
  hour : List (Nat × Nat) := []
  deriving DecidableEq, Repr

/-- One SRAM bank of a slot's die (08 R281). -/
structure SramBank where
  /-- spare columns used -/
  used : Nat := 0
  /-- columns marked for repair -/
  marked : List Nat := []
  /-- per column, the words with a corrected error in the last second: time and place -/
  recent : Fm (List (Nat × Nat)) := []
  deriving DecidableEq, Repr

/-- A traffic generator and checker (08 R288, R289). Its records are OD objects. -/
structure TrafficGen where
  running : Bool := false
  startedAt : Nat := 0
  /-- starts at the next window of its stack -/
  due : Bool := false
  /-- requests it has placed at its channel, and those of the running window -/
  placed : Nat := 0
  taken : Nat := 0
  deriving DecidableEq, Repr

/-! ### Rhoum links and fabric (09) -/

/-- Port state (09 Table 09-12). -/
inductive PortState | disabled | training | up | upSpared | down | failed
  deriving DecidableEq, Repr

/-- A packet that waits for credits on a port, or has sent some of its flits (09 R293): virtual channel, class, flits
still to go, member it is charged to, headers of the flits that have gone. -/
structure Egress where
  vc : Nat
  cls : Nat
  left : Nat
  charge : Option Nat
  heads : List Nat := []
  packet : Packet
  deriving DecidableEq, Repr

/-- A Rhoum port (09 R291 to R301, 11 R386). -/
structure Port where
  state : PortState := .disabled
  /-- lane erased and not yet spared; lane spared -/
  erased : Option Nat := .none
  spared : Option Nat := .none
  partnerTier : Nat := 0
  /-- uncorrectable codewords, saturating at 2^32 - 1; their times within the last microsecond -/
  bad : Nat := 0
  badRecent : List Nat := []
  downSince : Nat := 0
  /-- next flit sequence number to send and last one acknowledged (09 R292, R300) -/
  seq : BitVec 8 := 0
  acked : BitVec 8 := 0
  /-- replay buffer of a compatibility port: the flits not acknowledged, by sequence number (09 R300) -/
  replayBuf : List (BitVec 8) := []
  /-- sequence number of the flit received next (09 R292, R300) -/
  rxSeq : BitVec 8 := 0
  /-- credits held per virtual channel; flit buffers freed per virtual channel and not yet returned (09 R292, R293) -/
  credits : Fm Nat := []
  owed : Fm Nat := []
  /-- packets that wait for credits, in order (09 R293) -/
  egress : List Egress := []
  /-- FLY_PRES_N is low: a flyover cable is present (18 R570) -/
  present : Bool := true
  /-- 256-slot egress frame: C0 flits by partition, management flits, C1 flits (11 R386, R387) -/
  frameC0 : Fm Nat := []
  frameMgmt : Nat := 0
  frameC1 : Nat := 0
  frames : Nat := 0
  deriving DecidableEq, Repr

/-- Where a completed request delivers. -/
inductive Deliver
  | none
  /-- an x register of a hart; bytes to take and whether the value is sign-extended -/
  | xreg (hart reg size : Nat) (signed : Bool)
  /-- an f register of a hart -/
  | freg (hart reg size : Nat)
  /-- bytes from an offset of the value of a load of `size` bytes -/
  | part (hart reg off size : Nat) (signed fp : Bool)
  /-- bytes of a vector register of a hart, from a byte offset -/
  | vreg (hart reg off : Nat)
  /-- element of a gather of a hart -/
  | gather (hart slot elem : Nat)
  /-- host read or mailbox command of a tag -/
  | host (tag : Nat)
  deriving DecidableEq, Repr

/-- An outstanding fabric request of a source unit (09 R315, R320). -/
structure Request where
  pkt : Packet
  first : Nat
  reissues : Nat := 0
  deliver : Deliver := .none
  deriving DecidableEq, Repr

/-- A pending fence of a source unit: its destinations and the issued counts recorded (09 R323). -/
structure Fence where
  marks : Fm Nat
  /-- a release or handover command to send when the fence completes (09 R329) -/
  thenSend : Option (Packet × Deliver) := .none
  /-- writes that other harts of the domain had issued to its home: unit, destination, number (09 R329) -/
  peers : List (Nat × Nat × Nat) := []
  /-- that command's home is this package -/
  here : Bool := false
  /-- a request it waits on has ended at a dead destination (09 R324) -/
  err : Option Nat := .none
  deriving DecidableEq, Repr

/-- A source unit (09 R315, R316, R320, R323). -/
structure Source where
  tag : BitVec 32 := 0
  ord : Fm Nat := []
  /-- destinations whose next store or atomic need not carry resync -/
  synced : List Nat := []
  outstanding : Fm Request := []
  issued : Fm Nat := []
  answered : Fm Nat := []
  fences : List Fence := []
  /-- loads held behind an unacknowledged store or atomic to their line (09 R318) -/
  held : List (Packet × Deliver) := []
  deriving DecidableEq, Repr

/-- An entry of the atomic ledger (09 R319). -/
structure LedgerEnt where
  tag : Nat
  old : List Byte
  time : Nat
  deriving DecidableEq, Repr

/-- State of one source at its ordering die (09 R317, R319). -/
structure OrdSrc where
  valid : Bool := false
  gen : Nat := 0
  next : Nat := 0
  held : List Packet := []
  ledger : List LedgerEnt := []
  deriving DecidableEq, Repr

/-- Ownership entry of a region (09 Table 09-9): 0 OPEN, 1 OWNED, 2 WINDOW. -/
structure OwnEnt where
  state : Nat := 0
  domain : Nat := 0
  gen : BitVec 16 := 0
  path : Nat := 0
  deriving DecidableEq, Repr

/-- A gather in flight (09 R332, R333). -/
structure Gather where
  /-- the descriptor's fields -/
  count : Nat
  lane : Nat
  dest : Nat
  cmpl : Nat
  /-- package-physical address and path index of each element -/
  elems : List (Nat × Nat)
  /-- destination path each element's load was sent to (09 R322) -/
  paths : List Nat := []
  done : List Nat := []
  /-- failed elements with their status and cause -/
  failed : Fm (Nat × Nat) := []
  deriving DecidableEq, Repr

/-- The fabric's shared state (09). -/
structure Fabric where
  dead : List Nat := []
  sources : Fm Source := []
  ordering : Fm OrdSrc := []
  own : Fm OwnEnt := []
  gathers : Fm Gather := []
  /-- the first fabric request since reset has been issued: OD 0x6005 is locked -/
  issued : Bool := false
  /-- the first port has begun training: OD 0x6001 and 0x6002 are locked -/
  trained : Bool := false
  /-- regions of other packages that a release or handover under way gives up: path, region, domain (09 R329) -/
  giving : List (Nat × Nat × Nat) := []
  deriving DecidableEq, Repr
/-! ### Security and management (14, 15) -/

/-- Session roles (14 R481). -/
inductive Role | anonymous | tenant | owner | maker | enrolling
  deriving DecidableEq, Repr

/-- A subscription (15 R507). -/
inductive SubKind
  | event (lo hi : Nat)
  | value (index sub period : Nat)
  deriving DecidableEq, Repr

/-- A subscription of a session, with the time a value notification is next due. -/
structure Sub where
  id : Nat
  kind : SubKind
  due : Nat := 0
  deriving DecidableEq, Repr

/-- A management session (14 R481 to R484). -/
structure Session where
  role : Role
  part : Nat := 0
  transport : Transport
  /-- false until client_auth is accepted (anonymous sessions begin accepted) -/
  open_ : Bool := false
  clientNonce : List Byte := []
  /-- the client's public key, once accepted -/
  clientPk : List Byte := []
  /-- T1, then the shared secret of the handshake -/
  t1 : List Byte := []
  secret : List Byte := []
  /-- the 88 bytes of keys and IV bases (14 R483) -/
  keys : List Byte := []
  /-- highest sequence number accepted and the numbers accepted within 64 of it -/
  rxTop : Nat := 0
  rxSeen : List Nat := []
  txSeq : Nat := 1
  /-- messages received from the client -/
  rxCount : Nat := 0
  lastMsg : Nat := 0
  began : Nat := 0
  attestNonce : Option (List Byte) := .none
  subs : List Sub := []
  nextSub : Nat := 1
  /-- notifications sent in the running second, and when it began -/
  sent : Nat := 0
  sentFrom : Nat := 0
  deriving DecidableEq, Repr

/-- Life-cycle states (14 Table 14-3). -/
inductive LifeCycle | maker | provisioned | field | returned | scrapped
  deriving DecidableEq, Repr

/-- The seal processors' state (14 R467 to R486). -/
structure Security where
  life : LifeCycle := .field
  refurb : Nat := 0
  svn : Nat := 0
  /-- security version of the image now running -/
  imageSvn : Nat := 0
  /-- an intent fuse blown without its state fuse: the target state -/
  intent : Option LifeCycle := .none
  /-- revocation fuses of the four maker keys and of the four firmware keys -/
  makerRevoked : Nat := 0
  fwRevoked : Nat := 0
  /-- the owner storage key is intact -/
  ownerKey : Bool := true
  /-- the identity seed in OTP (absent: never generated or erased) -/
  seed : Option Nat := some 0
  ownerDigest : List Byte := List.replicate 32 0
  /-- the owner key in the owner data area -/
  ownerPk : List Byte := []
  tenantDigests : Fm (List Byte) := []
  cosign : Bool := false
  lcChallenge : List Byte := []
  dbgChallenge : List Byte := []
  debugMask : Nat := 0
  /-- capability word of the grant that opened a partition -/
  debugCaps : Fm Nat := []
  /-- MR0 to MR15; an absent register is zero -/
  mr : Fm (List Byte) := []
  /-- digest of all region tables at the last commit -/
  regionDigest : List Byte := List.replicate 32 0
  /-- transition being carried out: target and requester's session (14 R470) -/
  transition : Option (LifeCycle × Option Nat) := .none
  erasePassFailed : Bool := false
  /-- a transition took place: only Table 14-10 answers until cold reset -/
  sealedUntilReset : Bool := false
  disagreements : Nat := 0
  /-- the seal processors still run their boot ROM (14 R473) -/
  inBootRom : Bool := true
  /-- test-port instruction in force (14 R473) -/
  testInstr : Nat := 0
  deriving DecidableEq, Repr

/-- A UDP message being reassembled (15 R514). -/
structure Reasm where
  source : Nat
  msgId : Nat
  nseg : Nat
  total : Nat
  first : Nat
  segs : Fm (List Byte) := []
  deriving DecidableEq, Repr

/-- Management transports (15). -/
structure Aoap where
  sessions : Fm Session := []
  nextSession : Nat := 1
  reasm : List Reasm := []
  /-- notifications waiting for the host: session and message body (15 R516) -/
  mbQueue : List (Nat × List Byte) := []
  deriving DecidableEq, Repr

/-- What a command put on an interface of the package. -/
inductive Msg
  /-- an EVENT or VALUE notification to a session: op, index, subindex, subscription, data -/
  | notify (session op index sub id : Nat) (data : List Byte)
  /-- a fabric packet -/
  | packet (p : Packet)
  /-- a message on a management transport, to a session's client or a requester -/
  | aoap (session : Nat) (bytes : List Byte)
  /-- an IEEE 1588 message on a port: kind code of PtpKind -/
  | ptp (port kind tick period : Nat)
  /-- a coherence snoop, or its completion, toward the host -/
  | snoop (addr : Nat)
  /-- bytes the host-copy engine writes to host memory -/
  | hostLine (addr : Nat) (bytes : List Byte)
  /-- an MSI-X vector signalled to the host -/
  | msix (vector : Nat)
  /-- a management flit on a link: kind 1 NAK, 2 a flit replayed, 3 lane control, 4 acknowledgement; a sequence number or a
  lane (09 R294, R296, R300) -/
  | flit (port kind value : Nat)
  /-- an AVSBus voltage command: rail and mV -/
  | avs (rail mv : Nat)
  /-- a message on a management Ethernet port, to a requester's address, in segments that carry a message id -/
  | udp (port : Bool) (dst msgId : Nat) (bytes : List Byte)
  /-- an MCTP message on an I3C bus -/
  | mctp (bus : Bool) (bytes : List Byte)
  /-- a word of an asynchronous answer to a hart or host -/
  | answer (tag : Nat) (data : List Byte)
  deriving DecidableEq, Repr

/-- The answer of the last management request, mailbox command, host read or doorbell: a status of
15 Table 15-9 (or of the interface's own table) and data. -/
structure Ans where
  status : Nat := 0
  data : List Byte := []
  deriving DecidableEq, Repr
/-! ### Configuration, resilience, power, host, start-up, pins (00, 01, 13, 16, 17, 18) -/

/-- What the part is, and what partition commit fixed (00 R2, 01 R22, R49; 08 R266). -/
structure Cfg where
  /-- CLP-4812: four spindle dies fused -/
  ss12 : Bool := false
  fused : List Nat := []
  /-- clock grade and stepping -/
  grade28 : Bool := false
  steppingA0 : Bool := false
  serial : List Byte := []
  macs : Fm Nat := []
  /-- partition commit has locked the configuration -/
  locked : Bool := false
  /-- dies bound to spare apertures 16 and 17 at commit -/
  spare16 : Option Nat := .none
  spare17 : Option Nat := .none
  /-- dies lost until cold reset -/
  lost : List Nat := []
  deriving DecidableEq, Repr

/-- A window of timed occurrences for the failure warnings (13 R448). -/
structure Resil where
  /-- corrected SRAM words by die and TILE_RERUN by slot: times within 3,600 s -/
  sramHour : Fm (List Nat) := []
  rerunHour : Fm (List Nat) := []
  /-- descriptor of the restore now running -/
  restoring : Option Nat := .none
  deriving DecidableEq, Repr

/-- One AVS rail (16 R523 to R525), keyed interface × 5 + select. -/
structure Rail where
  /-- setpoint the steward is moving toward -/
  target : Nat := 750
  lastCmd : Nat := 0
  /-- held since: its AVSBus interface fell silent (16 R524) -/
  heldSince : Option Nat := .none
  deriving DecidableEq, Repr

/-- A droop-alert input (16 R527). -/
structure Droop where
  asserted : Bool := false
  /-- time of the last assertion -/
  assertedAt : Nat := 0
  releasedAt : Option Nat := .none
  /-- the measures are in force -/
  active : Bool := false
  count : Nat := 0
  lastNotify : Option Nat := .none
  deriving DecidableEq, Repr

/-- A die's thermal and ageing state (16 R529, R535, R536). -/
structure DieHealth where
  warned : Bool := false
  throttled : Bool := false
  overSince : Option Nat := .none
  /-- millionths of an equivalent hour accrued (kept in flash) -/
  eqHours : Nat := 0
  /-- Vmin and time in days of the last 30 re-plans -/
  vmins : List (Nat × Nat) := []
  deriving DecidableEq, Repr

/-- Power management (16). -/
structure Power where
  rails : Fm Rail := []
  droops : Fm Droop := []
  dies : Fm DieHealth := []
  /-- 100 µs samples of the last 10 ms, newest first, W -/
  samples : List Nat := []
  /-- step 1 of R528 in force since, and step 2 -/
  throttleSince : Option Nat := .none
  paused : Bool := false
  /-- the accepted clock waits to take effect; flash records the choice of 2.800 GHz -/
  accepted : Bool := false
  slow : Bool := false
  lastReplan : Nat := 0
  /-- time of the last accrual of wear -/
  lastAccrue : Nat := 0
  /-- a re-plan has been asked for and not yet made -/
  replanAsked : Bool := false
  deriving DecidableEq, Repr

/-- A background host copy (17 R552). -/
structure HostCopy where
  hostAddr : Nat
  pkgAddr : Nat
  len : Nat
  toHost : Bool
  deriving DecidableEq, Repr

/-- The host attachment (17). -/
structure HostIf where
  /-- the background host copy that runs -/
  copy : Option HostCopy := .none
  winPend : Fm (BitVec 64) := []
  winMsix : Fm (BitVec 64) := []
  /-- time of the last set of a `win_pend` bit, keyed partition × 64 + window -/
  winPendAt : Fm Nat := []
  /-- size of the committed HDM decoder in GiB; none: decodes nothing -/
  decoder : Option Nat := .none
  commitError : Bool := false
  /-- 2 MiB regions (package-physical) the host may hold lines of -/
  held : List Nat := []
  /-- snoops sent and not answered: address and time -/
  snoops : Fm Nat := []
  /-- releases waiting for back-invalidation: partition, window, buffer -/
  releases : List (Nat × Nat × Nat) := []
  /-- ownership commands of domain 4 waiting for the host's lines -/
  ownWait : List (Nat × Nat) := []
  deriving DecidableEq, Repr

/-- Start-up and resets (17 R553 to R559). -/
structure Boot where
  /-- the stage that runs (Table 17-5) -/
  stage : Nat := 2
  /-- time of release of package reset -/
  released : Nat := 0
  /-- times at which stages ended, by stage -/
  times : Fm Nat := []
  /-- time at which stage 4 began, and stage 7 -/
  began4 : Nat := 0
  began7 : Nat := 0
  /-- the dictionary answers: stage 4 has ended -/
  live : Bool := false
  /-- stage 9 has been reached since cold reset -/
  reached9 : Bool := false
  /-- the image of a flash part runs in the seal processors -/
  seals : Bool := false
  cause : Nat := 1
  /-- flash part whose image runs -/
  source : Nat := 0
  /-- the steward missed its budget once, and the seal processors went back to stage 3 -/
  fellBack : Bool := false
  /-- the package stays in its stage for good: neither image accepted, or a second overrun of stage 4 -/
  stuck : Bool := false
  /-- version of the twist microcode and digest of the function-stage tables of the accepted image -/
  microcode : Nat := 0
  functions : Nat := 0
  /-- component digests of the accepted image, by type -/
  comps : Fm (List Byte) := []
  /-- a requested cold reset takes effect at -/
  coldAt : Option Nat := .none
  /-- a warm reset runs, and what asked for it -/
  warm : Bool := false
  warmCause : Nat := 5
  /-- WARM_RESET_N waits for the end of a life-cycle transition -/
  warmWaits : Bool := false
  /-- package reset is held asserted, and the cause a reset that waits for its release will report -/
  inReset : Bool := false
  /-- CXL: 0 down, 1 training, 2 L0; width; rate; lane reversal -/
  cxlState : Nat := 0
  cxlWidth : Nat := 0
  cxlRate : Nat := 0
  cxlReversed : Bool := false
  /-- host dies whose lanes have left the link, one bit each -/
  lanesLost : Nat := 0
  /-- release of CXL_PERST_N, and the last training attempt -/
  perstAt : Option Nat := .none
  cxlTried : Nat := 0
  deriving DecidableEq, Repr

/-- Pins (18 R571 to R576). -/
structure Pins where
  treadleOut : Bool := false
  treadleEnd : Nat := 0
  faultN : Bool := true
  thermtripN : Bool := true
  straps : Nat := 0
  sysRefLost : Bool := false
  deriving DecidableEq, Repr

/-! ### Formats, whorls, twists, solvers, collectives, sharing (04, 05, 06, 07, 10, 11) -/

/-- What has been raised once for a tensor of a slot in the running step (04 R141, R151; 06 R221). -/
structure StatMark where
  fallback : Bool := false
  nan : Bool := false
  masked : Bool := false
  infRow : Bool := false
  deriving DecidableEq, Repr

/-- An element of a W53 bank (05 R163): words of 04 R132, chunk index; special 0 none, 1 NaN, 2 +Inf, 3 −Inf. -/
structure WElem where
  acc : Nat := 0
  tot : Nat := 0
  tv : Bool := false
  ch : Option Nat := .none
  special : Nat := 0
  deriving DecidableEq, Repr

/-- An element of a long bank (05 Table 05-9). -/
structure LElem where
  l : Int := 0
  anchor : Int := 0
  sticky : Bool := false
  empty : Bool := true
  special : Nat := 0
  negZero : Bool := false
  /-- no product taken and nothing imported yet (05 R182, R190) -/
  fresh : Bool := true
  deriving DecidableEq, Repr

/-- An accumulator bank (05 R163, R164, R173); an empty list of elements is an empty bank. -/
structure Bank where
  /-- a `w_setup` has been issued since the start of the step -/
  ready : Bool := false
  path : Nat := 0
  tensor : Nat := 0
  keySwap : Bool := false
  rowTile : Nat := 0
  colTile : Nat := 0
  chunkLog2 : Nat := 0
  /-- last k_tile accepted -/
  kLast : Option Nat := .none
  w : List WElem := []
  l : List LElem := []
  /-- LONG_ACC_STICKY has been raised since the last `w_setup` -/
  stickyTold : Bool := false
  /-- end of the `w_batt`, `w_acc_out` or `w_acc_in` that uses the bank -/
  outUntil : Nat := 0
  /-- elements with a single (1) or double (2) bit error of their storage (05 R193) -/
  err : Fm Nat := []
  deriving DecidableEq, Repr

/-- A tile step in its product cycles or awaiting its checks (05 R165, R194). -/
structure TileStep where
  bank : Nat
  /-- place of its command: draft tick and position -/
  tick : Nat
  pos : Nat
  a : List Tile
  b : List Tile
  transA : Bool
  transB : Bool
  kTile : Nat
  /-- time of the first product cycle, and cycles of the step -/
  start : Nat
  cycles : Nat
  attempt : Nat := 1
  deriving DecidableEq, Repr

/-- A whorl (05). -/
structure Whorl where
  bank0 : Bank := {}
  bank1 : Bank := {}
  /-- commands that wait to start, and when the last one before them started (05 R165) -/
  queue : List StCmd := []
  headAt : Nat := 0
  /-- tile steps under way, in the order they started -/
  steps : List TileStep := []
  heldA : List Tile := []
  heldB : List Tile := []
  /-- cycle after the last product cycle of the last tile step started; the output path's next free time -/
  nextStep : Nat := 0
  outFree : Nat := 0
  /-- batt offset of the area the last `w_batt` writes, and until when (06 R210) -/
  battArea : Nat := 0
  battUntil : Nat := 0
  deriving DecidableEq, Repr

/-- A tile buffer of a twist engine (06 R205): shape and type of the pass that wrote it; element (r, c) at
place 128 r + c; an empty list reads +0. -/
structure TBuf where
  rows : Nat := 128
  cols : Nat := 128
  wide : Bool := false
  data : List Nat := []
  deriving DecidableEq, Repr

/-- A twist engine (06). -/
structure Twist where
  buf0 : TBuf := {}
  buf1 : TBuf := {}
  buf2 : TBuf := {}
  buf3 : TBuf := {}
  /-- ordinal of the next tile of a row set, by opcode (06 R219) -/
  ords : Fm Nat := []
  /-- the pass in assembly, and when assembly began -/
  pass : List StCmd := []
  began : Nat := 0
  /-- commands that wait, and when the last pass left the head (06 R202) -/
  queue : List StCmd := []
  headAt : Nat := 0
  stage1Free : Nat := 0
  /-- buffers the last pass wrote, and its last write -/
  wrote : List Nat := []
  lastWrite : Nat := 0
  /-- the batt area a pass reads, until when, and the place of its command (06 R210) -/
  battArea : Nat := 0
  battUntil : Nat := 0
  battTick : Nat := 0
  battPos : Nat := 0
  deriving DecidableEq, Repr

/-- A synchronous exception taken by a hart: cause and trap value (07 R231, R238). -/
structure Trap where
  cause : Nat
  tval : Nat
  deriving DecidableEq, Repr

/-- Modes of a solver core (07 R231). -/
inductive HartMode | user | supervisor | machine | virtualUser | virtualSupervisor
  deriving DecidableEq, Repr

/-- A solver hart's state (07): its registers and CSRs; its program is outside the block. -/
structure Hart where
  x : Fm (BitVec 64) := []
  f : Fm (BitVec 64) := []
  frm : BitVec 3 := 0
  fflags : BitVec 5 := 0
  v : Fm (BitVec 4096) := []
  m : Fm (BitVec 512) := []
  bxstart : BitVec 16 := 0
  bxff : Bool := false
  bxbs : BitVec 2 := 1
  bxhank : BitVec 64 := 0x101
  bxscale : BitVec 16 := 0
  bxwmask : BitVec 64 := 0
  bxwpend : BitVec 64 := 0
  bxvl : BitVec 64 := 0
  bxvtype : BitVec 64 := 0
  mip : BitVec 64 := 0
  mie : BitVec 64 := 0
  mideleg : BitVec 64 := 0
  /-- bits of `bxwpend` and of `mip` set last, and when (07 R261) -/
  pendSet : BitVec 64 := 0
  pendAt : Nat := 0
  mipSet : BitVec 64 := 0
  mipAt : Nat := 0
  /-- the mode it runs in, as its last command told or its last exception left it (07 R231) -/
  mode : HartMode := .machine
  /-- the other control and status registers: translation, PMP, traps (07 R230, R231); an absent one reads 0 -/
  csr : Fm (BitVec 64) := []
  /-- waiting in bx.wwait: window and destination register -/
  waiting : Option (Nat × Nat) := .none
  /-- last exception taken -/
  trap : Option Trap := .none
  /-- reservation of LR: package-physical address -/
  reserved : Option Nat := .none
  deriving DecidableEq, Repr
/-- A group in force since its last re-form (10 R335, R336, R349): generation, own rank, members as
position, absent, physical path, and nodes as prefix, head, standby. -/
structure Group where
  mgen : Nat := 0
  ownRank : Nat := 0x7FF
  formed : Bool := false
  members : List (Nat × Bool × Nat) := []
  nodes : List (Nat × Nat × Nat) := []
  deriving DecidableEq, Repr

/-- One stage of a collective at this package (10 R339, R360 to R365, R392). -/
structure Stage where
  /-- its claim waits, or has been admitted -/
  waiting : Bool := false
  admitted : Bool := false
  /-- order of arrival of the claim at the head, launch tick of the stage, granules it needs on each die -/
  arrival : Nat := 0
  tick : Nat := 0
  need : Nat := 0
  /-- granules held, the same on every die -/
  granules : List Nat := []
  /-- chunks received from children, keyed child × 2^32 + chunk, with their taint -/
  ins : Fm (List Byte × Bool) := []
  /-- chunks of the result on their way down, with their taint -/
  downIn : Fm (List Byte × Bool) := []
  /-- chunks of the stage's result sent up, and of the result passed down -/
  sent : List Nat := []
  sentDown : List Nat := []
  deriving DecidableEq, Repr

/-- A chunk, or a launch, a dynamic sender keeps until the collective completes (10 R351, R355): when it was sent first and last,
and whether the last sending has been answered GEN_AHEAD. -/
structure Kept where
  dst : Nat
  depth : Nat
  down : Bool
  chunk : Nat
  rank : Nat
  bytes : List Byte
  taint : Bool
  op : Nat := 0x31
  first : Nat := 0
  last : Nat := 0
  ahead : Bool := false
  deriving DecidableEq, Repr

/-- A collective outstanding at this package (10 R342 to R355, R370, R373). -/
structure Collective where
  part : Nat := 0
  group : Nat := 0
  cseq : Nat := 0
  mgen : Nat := 0
  op : Nat := 0
  red : Nat := 0
  root : Nat := 0
  /-- bytes of a contribution: of a member (dynamic), of a slot (draft) -/
  size : Nat := 0
  /-- its parameters are known; this package has launched it -/
  known : Bool := false
  launchedHere : Bool := false
  src : Nat := 0
  dst : Nat := 0
  cmpl : Nat := 0
  slotMask : Nat := 0
  rowTile : Nat := 0
  colTile : Nat := 0
  keySwap : Bool := false
  tensor : Nat := 0
  chunkBase : Nat := 0
  epoch : Nat := 0
  /-- a draft collective, and the offset of its descriptor; else a dynamic one -/
  draft : Bool := false
  desc : Nat := 0
  launchTick : Nat := 0
  /-- launches of children, keyed depth × 64 + digit: their launch ticks -/
  launches : Fm Nat := []
  /-- stages at this package, keyed segment × 16 + depth (15 the package stage) -/
  stages : Fm Stage := []
  /-- stages whose work is done and whose claim is released -/
  finished : List Nat := []
  /-- stages of parents that have been granted, keyed as stages (10 R392) -/
  granted : List Nat := []
  kept : List Kept := []
  /-- when each chunk came from another package (10 R355), by node depth, direction, child and chunk -/
  heard : Fm Nat := []
  /-- the member has completed, and the time of a GEN_AHEAD, the first one (10 R351) -/
  memberDone : Bool := false
  aheadAt : Option Nat := .none
  /-- taint at this member: chunks seen and not yet told of, chunks told of, consumers of the first -/
  pendTaint : List Nat := []
  toldTaint : List Nat := []
  taintFirst : Option Nat := .none
  consumers : Nat := 0
  /-- root head: acknowledgements by chunk (rank, whether bytes were written), tainted chunks, chunks all
  of whose acknowledgements have come -/
  acks : Fm (List (Nat × Bool)) := []
  tainted : List Nat := []
  acked : Nat := 0
  /-- exports of a `chunk_fold` by rank, in stream order: chunk index and tensor -/
  folds : Fm (List (Nat × Nat)) := []
  /-- draft: contribution bytes of each slot, its exports, its output roving and tiles sent on it -/
  parts : Fm (List Byte) := []
  slotFolds : Fm (List (Nat × Nat)) := []
  outs : Fm Nat := []
  emitted : Fm Nat := []
  deriving DecidableEq, Repr

/-- The commit vote of a partition at this package (10 R356 to R358): contributions held at each
stage, keyed depth × 2048 + lowest rank, as words 0 to 2. -/
structure Vote where
  ins : Fm (List Nat) := []
  deriving DecidableEq, Repr

/-- Collectives (10). -/
structure Coll where
  groups : Fm Group := []
  colls : Fm Collective := []
  votes : Fm Vote := []
  /-- claims that have arrived, for their order; time of the last admission round -/
  arrivals : Nat := 0
  lastRound : Nat := 0
  /-- the last completed collectives of each group, for a late `coll_taint`: keyed group × 8 + cseq mod 8 -/
  past : Fm Collective := []
  deriving DecidableEq, Repr

/-- A request at an arbitration point (11 R377, R379): class, member, cost, line at a DRAM channel, die of
the requester, order of arrival, rounds it has aged, and whether it is promoted. -/
structure ArbReq where
  cls : Nat
  member : Nat
  cost : Nat
  line : Nat
  die : Nat
  seq : Nat
  /-- virtual channel, and hop set at a bridge between fabric dies (11 R388, R389) -/
  vc : Nat := 3
  hop : Nat := 0
  age : Nat := 0
  promoted : Bool := false
  /-- its missed bound has been raised (11 R383) -/
  told : Bool := false
  deriving DecidableEq, Repr

/-- An arbiter, that of C1 or that of C2 to C4 (11 R381): admitted requests in order of arrival, deficits of
the members, requests that the running round serves and that wait for their slots, and rounds held. -/
structure Arb where
  reqs : List ArbReq := []
  deficit : Fm Nat := []
  granted : List ArbReq := []
  rounds : Nat := 0
  deriving DecidableEq, Repr

/-- An arbitration point (11 R378, R379): requests that wait upstream of full queues, and its two arbiters. -/
structure ArbPoint where
  seq : Nat := 0
  outside : List ArbReq := []
  c1 : Arb := {}
  c24 : Arb := {}
  /-- egress frame of a bridge or host link: C0 flits carried over, by partition, and C1 flits (11 R386, R394) -/
  frameC0 : Fm Nat := []
  frameC1 : Nat := 0
  frames : Nat := 0
  /-- flits of a bridge's running frame, by hop set × 16 + virtual channel (11 R389) -/
  vcs : Fm Nat := []
  deriving DecidableEq, Repr

/-! ### The package -/

/-- The state of the package. -/
structure State where
  /-- commands that wait, first in, first out -/
  pending : List Instr := []
  /-- time of the last command -/
  now : Nat := 0
  /-- the model's own counter of free values taken -/
  freeCtr : Nat := 0
  /-- the model's own record of the last answer and of what the last command sent -/
  ans : Ans := {}
  out : List Msg := []
  cfg : Cfg := {}
  /-- object dictionary: objects written or changed since reset, index × 256 + subindex -/
  od : Fm Nat := []
  cad : Cadence := {}
  parts : Fm Part := []
  flyers : Fm Flyer := []
  stations : Fm Station := []
  /-- station commands on their way to their stations, in issue order (03 R113) -/
  wire : List StCmd := []
  /-- statistics marks per slot and tensor (04) -/
  stats : Fm StatMark := []
  whorls : Fm Whorl := []
  twists : Fm Twist := []
  harts : Fm Hart := []
  /-- memory: bytes that differ from what an unlisted place reads as, places rising -/
  mem : List Host.Cell := []
  lines : Fm LineSt := []
  /-- SRAM words in error, by place: 1 or 2 wrong bits, plus 4 times the column (08 R280, R281) -/
  sramErr : Fm Nat := []
  channels : Fm Channel := []
  stackSt : Fm Stack := []
  banks : Fm SramBank := []
  gens : Fm TrafficGen := []
  ports : Fm Port := []
  fab : Fabric := {}
  coll : Coll := {}
  arb : Fm ArbPoint := []
  /-- region entries written and waiting for a window boundary: die × 256 + entry (14 R463) -/
  entryWaits : Fm Nat := []
  /-- time of the last set of a write-1-to-clear bit, keyed object key × 8 + bit (15 R501) -/
  w1cAt : Fm Nat := []
  reels : Fm Reel := []
  logs : Fm EvLog := []
  res : Resil := {}
  sec : Security := {}
  aoap : Aoap := {}
  pow : Power := {}
  host : HostIf := {}
  boot : Boot := {}
  pins : Pins := {}
  deriving DecidableEq, Repr

/-- The machine right after reset: every object at its default, every queue empty, memory with
nothing listed (15 R490, 17 R557). What a register holds whose reset value the manual does not
give stands in the field's default and is named in the assumption log (2). -/
def State.reset : State := {}

end Sys2Proof.Machine
end

