-- ==== Sys2Proof/Machine/OdTable.lean ====
section
/-! DEFINITION. Machine/OdTable.lean: the objects of the dictionary (15 R488 to R491), one row per
object or range of objects, as the defining chapters' tables list them, with type, size, access,
lock, default and range. -/

namespace Sys2Proof.Machine

/-- Object types (15 Table 15-1). -/
inductive OdTy | bool | u8 | u16 | u32 | u64 | i32 | i64 | f32 | f64 | time64 | str | octets | record
  deriving DecidableEq, Repr

/-- Access codes (00 R10). -/
inductive OdAcc | ro | rw | wo | w1c | rwl
  deriving DecidableEq, Repr

/-- When an RWL object locks. -/
inductive OdLock | none | commit | firstLocked | training | firstRequest | certificate
  deriving DecidableEq, Repr

/-- A row of the dictionary: indices lo to hi, subindices slo to shi. -/
structure OdRow where
  lo : Nat
  hi : Nat
  slo : Nat
  shi : Nat
  ty : OdTy
  acc : OdAcc
  dflt : Nat := 0
  /-- size in bytes of an OCTETS, STR or RECORD object (maximum, when `var`) -/
  size : Nat := 0
  var : Bool := false
  lock : OdLock := .none
  /-- least and greatest value a write may carry (as the unsigned code of the type) -/
  rmin : Nat := 0
  rmax : Option Nat := .none
  deriving DecidableEq, Repr

/-- Type code and size of Table 15-1. -/
def OdTy.code : OdTy → Nat
  | .bool => 1 | .u8 => 2 | .u16 => 3 | .u32 => 4 | .u64 => 5 | .i32 => 6 | .i64 => 7
  | .f32 => 8 | .f64 => 9 | .time64 => 10 | .str => 11 | .octets => 12 | .record => 13

/-- Size in bytes of a row's value (greatest size of a variable one). -/
def OdRow.bytes (r : OdRow) : Nat :=
  match r.ty with
  | .bool | .u8 => 1
  | .u16 => 2
  | .u32 | .i32 | .f32 => 4
  | .u64 | .i64 | .f64 | .time64 => 8
  | .str | .octets | .record => r.size

/-- All-ones of 64 bits, and the all-ones skein path. -/
def ones64 : Nat := 2 ^ 64 - 1
/-- The path that names nothing (02 Table 02-1, 09 Table 09-12). -/
def noPath : Nat := 2 ^ 48 - 1

/-- Objects of areas 0x1000 and 0x2000 (15 Table 15-11, 17 Table 17-7, 02 Tables 02-1, 02-6, 12 R410, Table 12-5, 07 R256). -/
def odRows1 : List OdRow :=
  [ ⟨0x1000, 0x1000, 1, 4, .str, .ro, 0, 32, true, .none, 0, .none⟩,
    ⟨0x1000, 0x1000, 5, 5, .u16, .ro, 1, 0, false, .none, 0, .none⟩,
    ⟨0x1000, 0x1000, 6, 6, .u32, .ro, 0x0001E7B4, 0, false, .none, 0, .none⟩,
    ⟨0x1001, 0x1001, 0, 0, .time64, .ro, 0, 0, false, .none, 0, .none⟩,
    ⟨0x1002, 0x1002, 1, 1, .u8, .ro, 4, 0, false, .none, 0, .none⟩,
    ⟨0x1002, 0x1002, 2, 2, .u8, .ro, 0, 0, false, .none, 0, .none⟩,
    ⟨0x1002, 0x1002, 3, 3, .record, .ro, 0, 44, false, .none, 0, .none⟩,
    ⟨0x1003, 0x1003, 0, 0, .u8, .wo, 0, 0, false, .none, 1, some 2⟩,
    ⟨0x1003, 0x1003, 1, 1, .u8, .ro, 1, 0, false, .none, 0, .none⟩,
    ⟨0x1010, 0x1011, 1, 1, .octets, .ro, 0, 6, false, .none, 0, .none⟩,
    ⟨0x1010, 0x1011, 2, 2, .octets, .rw, 0, 16, false, .none, 0, .none⟩,
    ⟨0x1010, 0x1011, 3, 3, .u8, .rw, 64, 0, false, .none, 1, some 128⟩,
    ⟨0x1010, 0x1011, 4, 4, .u16, .rw, 20289, 0, false, .none, 1024, some 65535⟩,
    ⟨0x1010, 0x1011, 5, 5, .u8, .ro, 0, 0, false, .none, 0, .none⟩,
    ⟨0x1020, 0x1020, 1, 2, .u8, .ro, 0, 0, false, .none, 0, .none⟩,
    ⟨0x1100, 0x1103, 0, 255, .u32, .rwl, 0, 0, false, .commit, 0, .none⟩,
    ⟨0x1104, 0x1104, 1, 1, .u16, .rwl, 0, 0, false, .commit, 0, some 1024⟩,
    ⟨0x1105, 0x1105, 1, 1, .u32, .ro, 0, 0, false, .none, 0, .none⟩,
    ⟨0x1108, 0x110B, 0, 0, .u64, .rw, 0, 0, false, .none, 0, .none⟩,
    ⟨0x110C, 0x110F, 0, 0, .u64, .ro, 0, 0, false, .none, 0, .none⟩,
    ⟨0x2001, 0x2001, 1, 1, .u8, .rw, 2, 0, false, .none, 0, .none⟩,
    ⟨0x2001, 0x2001, 2, 2, .u32, .rwl, 100000, 0, false, .firstLocked, 1000, some 10000000⟩,
    ⟨0x2001, 0x2001, 3, 3, .u8, .rwl, 0, 0, false, .firstLocked, 0, some 1⟩,
    ⟨0x2001, 0x2001, 4, 4, .u16, .rwl, 1, 0, false, .firstLocked, 1, some 65535⟩,
    ⟨0x2001, 0x2001, 5, 5, .i32, .rwl, 0, 0, false, .firstLocked, 0, some 0x7FFFFFFF⟩,
    ⟨0x2001, 0x2001, 7, 7, .u64, .rwl, 0, 0, false, .firstLocked, 0, .none⟩,
    ⟨0x2001, 0x2001, 8, 8, .u64, .rwl, noPath, 0, false, .firstLocked, 0, .none⟩,
    ⟨0x2001, 0x2001, 9, 9, .u32, .rw, 60000, 0, false, .none, 0, .none⟩,
    ⟨0x2002, 0x2002, 1, 1, .u32, .ro, 0, 0, false, .none, 0, .none⟩,
    ⟨0x2002, 0x2002, 2, 2, .i32, .ro, 0, 0, false, .none, 0, .none⟩,
    ⟨0x2002, 0x2002, 3, 3, .u32, .ro, 0, 0, false, .none, 0, .none⟩,
    ⟨0x2003, 0x2003, 0, 0, .u64, .ro, 0, 0, false, .none, 0, .none⟩,
    ⟨0x2004, 0x2004, 0, 0, .u16, .rwl, 8, 0, false, .commit, 1, some 1024⟩,
    ⟨0x2006, 0x2006, 1, 16, .i32, .rw, 0, 0, false, .none, 0, .none⟩,
    ⟨0x2007, 0x2007, 1, 16, .i32, .ro, 0, 0, false, .none, 0, .none⟩,
    ⟨0x2020, 0x2023, 1, 1, .u64, .rw, 0, 0, false, .none, 0, .none⟩,
    ⟨0x2020, 0x2023, 2, 2, .u32, .rw, 0, 0, false, .none, 0, .none⟩,
    ⟨0x2020, 0x2023, 3, 3, .u8, .wo, 0, 0, false, .none, 1, some 5⟩,
    ⟨0x2020, 0x2023, 4, 4, .u8, .ro, 0, 0, false, .none, 0, .none⟩,
    ⟨0x2020, 0x2023, 5, 5, .u64, .rw, 0, 0, false, .none, 0, .none⟩,
    ⟨0x2020, 0x2023, 6, 6, .u8, .ro, 0, 0, false, .none, 0, .none⟩,
    ⟨0x2020, 0x2023, 7, 7, .octets, .ro, 0, 64, false, .none, 0, .none⟩,
    ⟨0x2020, 0x2023, 8, 9, .u64, .ro, 0, 0, false, .none, 0, .none⟩,
    ⟨0x2020, 0x2023, 10, 10, .u32, .ro, 0, 0, false, .none, 0, .none⟩,
    ⟨0x2020, 0x2023, 11, 11, .u8, .rw, 3, 0, false, .none, 1, some 255⟩,
    ⟨0x2020, 0x2023, 12, 12, .u8, .ro, 0, 0, false, .none, 0, .none⟩,
    ⟨0x2024, 0x2027, 1, 64, .u16, .rw, 1, 0, false, .none, 1, some 256⟩,
    ⟨0x2030, 0x2030, 1, 1, .u64, .rwl, 0, 0, false, .commit, 0, .none⟩,
    ⟨0x2030, 0x2030, 2, 2, .u16, .rwl, 0, 0, false, .commit, 0, some 4096⟩,
    ⟨0x2030, 0x2030, 3, 3, .u8, .rwl, 0, 0, false, .commit, 0, some 1⟩,
    ⟨0x2030, 0x2030, 4, 4, .bool, .rwl, 0, 0, false, .commit, 0, some 1⟩,
    ⟨0x2030, 0x2030, 5, 5, .u8, .rwl, 0, 0, false, .commit, 0, some 3⟩,
    ⟨0x2034, 0x2037, 1, 1, .u64, .ro, 0, 0, false, .none, 0, .none⟩,
    ⟨0x2034, 0x2037, 2, 2, .u64, .rw, 0, 0, false, .none, 0, .none⟩,
    ⟨0x2034, 0x2037, 3, 3, .u64, .ro, 0, 0, false, .none, 0, .none⟩,
    ⟨0x2034, 0x2037, 4, 4, .u64, .rw, 0, 0, false, .none, 0, .none⟩,
    ⟨0x2034, 0x2037, 5, 5, .u32, .ro, 0, 0, false, .none, 0, .none⟩ ]

/-- Objects of areas 0x3000 to 0x6000 (01 Tables 01-2, 01-5; 06 R213; 08 Tables 08-8 to 08-10; 09 Table 09-12; 12). -/
def odRows2 : List OdRow :=
  [ ⟨0x3001, 0x3001, 1, 18, .u16, .rwl, 0, 0, false, .commit, 0, .none⟩,
    ⟨0x3010, 0x3010, 1, 4, .u64, .rwl, 0, 0, false, .commit, 0, .none⟩,
    ⟨0x3011, 0x3011, 0, 0, .u8, .wo, 0, 0, false, .commit, 1, some 1⟩,
    ⟨0x3012, 0x3012, 0, 0, .u8, .ro, 0, 0, false, .none, 0, .none⟩,
    ⟨0x3030, 0x3030, 1, 128, .u8, .w1c, 0, 0, false, .none, 0, .none⟩,
    ⟨0x3031, 0x3031, 1, 128, .record, .ro, 0, 40, false, .none, 0, .none⟩,
    ⟨0x4001, 0x4001, 1, 1, .u8, .ro, 0xB0, 0, false, .none, 0, .none⟩,
    ⟨0x4001, 0x4001, 2, 2, .u16, .ro, 2, 0, false, .none, 0, .none⟩,
    ⟨0x4001, 0x4001, 3, 3, .u32, .ro, 0, 0, false, .none, 0, .none⟩,
    ⟨0x4001, 0x4001, 4, 4, .octets, .ro, 0, 16, false, .none, 0, .none⟩,
    ⟨0x4002, 0x4002, 0, 0, .bool, .rwl, 1, 0, false, .commit, 0, some 1⟩,
    ⟨0x4002, 0x4002, 1, 1, .bool, .rwl, 0, 0, false, .commit, 0, some 1⟩,
    ⟨0x4010, 0x4013, 1, 1, .octets, .rw, 0, 16, false, .none, 0, .none⟩,
    ⟨0x4010, 0x4013, 2, 2, .u8, .wo, 0, 0, false, .none, 1, some 1⟩,
    ⟨0x5001, 0x5003, 1, 22, .u64, .ro, 0, 0, false, .none, 0, .none⟩,
    ⟨0x5004, 0x5004, 1, 18, .u64, .ro, 0, 0, false, .none, 0, .none⟩,
    ⟨0x5010, 0x5010, 1, 1, .u32, .rwl, 28800, 0, false, .commit, 3600, some 28800⟩,
    ⟨0x5010, 0x5010, 2, 2, .u16, .rwl, 64, 0, false, .commit, 1, some 65535⟩,
    ⟨0x5010, 0x5010, 3, 3, .u16, .rwl, 256, 0, false, .commit, 64, some 256⟩,
    ⟨0x5100, 0x5115, 1, 65, .record, .rw,
      0x180 + 1024 * 2 ^ 10 + 0x1000000 * 2 ^ 96 + 2 ^ 128 + 2 ^ 192, 32, false, .none, 0, .none⟩,
    ⟨0x5120, 0x5135, 1, 64, .record, .ro, 0, 48, false, .none, 0, .none⟩,
    ⟨0x5140, 0x5140, 0, 0, .u32, .wo, 0, 0, false, .none, 0, .none⟩,
    ⟨0x6001, 0x6001, 0, 0, .u64, .rwl, noPath, 0, false, .training, 0, .none⟩,
    ⟨0x6002, 0x6002, 1, 16, .u32, .rwl, 0x21, 0, false, .training, 0, .none⟩,
    ⟨0x6003, 0x6003, 1, 16, .u64, .ro, 0, 0, false, .none, 0, .none⟩,
    ⟨0x6005, 0x6005, 0, 0, .u16, .rwl, 0, 0, false, .firstRequest, 0, .none⟩,
    ⟨0x6010, 0x6013, 1, 127, .u64, .rw, ones64, 0, false, .none, 0, .none⟩,
    ⟨0x6018, 0x6019, 1, 7, .u64, .rwl, ones64, 0, false, .commit, 0, .none⟩,
    ⟨0x6020, 0x6020, 0, 0, .u64, .wo, 0, 0, false, .none, 0, .none⟩,
    ⟨0x6030, 0x6030, 0, 0, .u64, .wo, 0, 0, false, .none, 0, .none⟩,
    ⟨0x6040, 0x6043, 0, 0, .octets, .ro, 0, 8192, false, .none, 0, .none⟩,
    ⟨0x6044, 0x6047, 0, 0, .u32, .ro, 0, 0, false, .none, 0, .none⟩ ]

/-- Objects of areas 0x8000 to 0xB000 (13 Table 13-11, 14 Table 14-10, 16 Table 16-3, 15 R504, R505). -/
def odRows3 : List OdRow :=
  [ ⟨0x8001, 0x8001, 0, 0, .u8, .rw, 3, 0, false, .none, 1, some 255⟩,
    ⟨0x8002, 0x8002, 1, 16, .u32, .rwl, 0, 0, false, .commit, 0, .none⟩,
    ⟨0x8003, 0x8003, 0, 0, .u8, .rwl, 8, 0, false, .commit, 2, some 16⟩,
    ⟨0x8004, 0x8004, 0, 0, .u16, .rwl, 512, 0, false, .commit, 128, some 4096⟩,
    ⟨0x8005, 0x8005, 1, 16, .u8, .ro, 0, 0, false, .none, 0, .none⟩,
    ⟨0x8006, 0x8006, 1, 16, .u64, .ro, 0, 0, false, .none, 0, .none⟩,
    ⟨0x8007, 0x8007, 0, 0, .u16, .ro, 0xFFFF, 0, false, .none, 0, .none⟩,
    ⟨0x8010, 0x8013, 1, 64, .record, .rw, 0, 16, false, .none, 0, .none⟩,
    ⟨0x8040, 0x8040, 1, 1, .u32, .rw, 4096, 0, false, .none, 0, .none⟩,
    ⟨0x8040, 0x8040, 2, 2, .u32, .rw, 1024, 0, false, .none, 0, .none⟩,
    ⟨0x8040, 0x8040, 3, 3, .u16, .rw, 256, 0, false, .none, 0, .none⟩,
    ⟨0x8040, 0x8040, 4, 4, .u8, .rw, 4, 0, false, .none, 0, .none⟩,
    ⟨0x8040, 0x8040, 5, 5, .u32, .rw, 64, 0, false, .none, 0, .none⟩,
    ⟨0x8040, 0x8040, 6, 6, .u16, .rw, 16, 0, false, .none, 1, some 65535⟩,
    ⟨0x8050, 0x8053, 1, 1, .u32, .rw, 0, 0, false, .none, 0, .none⟩,
    ⟨0x8050, 0x8053, 2, 2, .u64, .rw, ones64, 0, false, .none, 0, .none⟩,
    ⟨0x8050, 0x8053, 3, 3, .u64, .ro, 0, 0, false, .none, 0, .none⟩,
    ⟨0x8050, 0x8053, 4, 4, .u8, .ro, 0, 0, false, .none, 0, .none⟩,
    ⟨0x8050, 0x8053, 5, 6, .octets, .rw, 0, 16, false, .none, 0, .none⟩,
    ⟨0x8050, 0x8053, 7, 7, .u64, .rw, 0, 0, false, .none, 0, .none⟩,
    ⟨0x8050, 0x8053, 8, 8, .octets, .rw, 0, 64, false, .none, 0, .none⟩,
    ⟨0x8050, 0x8053, 9, 9, .u64, .ro, 0, 0, false, .none, 0, .none⟩,
    ⟨0x8060, 0x8060, 1, 1, .u64, .wo, 0, 0, false, .none, 0, .none⟩,
    ⟨0x8060, 0x8060, 2, 2, .u32, .ro, 0, 0, false, .none, 0, .none⟩,
    ⟨0x8060, 0x8060, 3, 3, .u64, .ro, 0, 0, false, .none, 0, .none⟩,
    ⟨0x9001, 0x9001, 1, 2, .u8, .ro, 0, 0, false, .none, 0, .none⟩,
    ⟨0x9001, 0x9001, 3, 3, .u32, .ro, 0, 0, false, .none, 0, .none⟩,
    ⟨0x9002, 0x9002, 0, 0, .octets, .wo, 0, 8682, false, .none, 0, .none⟩,
    ⟨0x9003, 0x9004, 0, 0, .octets, .ro, 0, 32, false, .none, 0, .none⟩,
    ⟨0x9005, 0x9005, 0, 0, .u32, .wo, 0, 0, false, .none, 0, .none⟩,
    ⟨0x9006, 0x9006, 0, 0, .octets, .wo, 0, 3389, false, .none, 0, .none⟩,
    ⟨0x9007, 0x9007, 0, 0, .u8, .ro, 0, 0, false, .none, 0, .none⟩,
    ⟨0x9010, 0x9010, 1, 32, .u8, .ro, 0, 0, false, .none, 0, .none⟩,
    ⟨0x9011, 0x9011, 1, 16, .u8, .ro, 0, 0, false, .none, 0, .none⟩,
    ⟨0x9020, 0x9020, 0, 0, .octets, .ro, 0, 1952, false, .none, 0, .none⟩,
    ⟨0x9021, 0x9021, 0, 0, .octets, .rwl, 0, 8192, true, .certificate, 0, .none⟩,
    ⟨0x9022, 0x9022, 0, 0, .octets, .ro, 0, 32, false, .none, 0, .none⟩,
    ⟨0x9030, 0x9030, 1, 1, .octets, .wo, 0, 32, false, .none, 0, .none⟩,
    ⟨0x9030, 0x9030, 2, 2, .octets, .ro, 0, 4541, false, .none, 0, .none⟩,
    ⟨0x9031, 0x9031, 1, 16, .octets, .ro, 0, 64, false, .none, 0, .none⟩,
    ⟨0x9040, 0x9040, 0, 0, .octets, .ro, 0, 32, false, .none, 0, .none⟩,
    ⟨0x9041, 0x9044, 0, 0, .octets, .rwl, 0, 32, false, .commit, 0, .none⟩,
    ⟨0x9045, 0x9045, 0, 0, .bool, .ro, 0, 0, false, .none, 0, .none⟩,
    ⟨0x9050, 0x9050, 0, 0, .u8, .ro, 0, 0, false, .none, 0, .none⟩,
    ⟨0x9100, 0x9115, 0, 255, .u64, .rwl, 0, 0, false, .commit, 0, .none⟩,
    ⟨0xA001, 0xA001, 1, 1, .u32, .ro, 0, 0, false, .none, 0, .none⟩,
    ⟨0xA001, 0xA001, 2, 2, .u16, .rw, 6800, 0, false, .none, 3000, some 6800⟩,
    ⟨0xA001, 0xA001, 3, 3, .u32, .ro, 0, 0, false, .none, 0, .none⟩,
    ⟨0xA002, 0xA002, 1, 40, .u16, .ro, 750, 0, false, .none, 0, .none⟩,
    ⟨0xA003, 0xA003, 1, 40, .u32, .ro, 0, 0, false, .none, 0, .none⟩,
    ⟨0xA004, 0xA004, 1, 1, .u16, .rwl, 50, 0, false, .commit, 0, .none⟩,
    ⟨0xA004, 0xA004, 2, 2, .u16, .rwl, 100, 0, false, .commit, 0, .none⟩,
    ⟨0xA005, 0xA005, 0, 0, .u8, .rwl, 25, 0, false, .commit, 25, some 50⟩,
    ⟨0xA006, 0xA006, 0, 0, .u32, .rw, 86400, 0, false, .none, 3600, some 86400⟩,
    ⟨0xA007, 0xA007, 0, 0, .u8, .wo, 0, 0, false, .none, 1, some 1⟩,
    ⟨0xA010, 0xA010, 0, 0, .u16, .ro, 3000, 0, false, .none, 0, .none⟩,
    ⟨0xA011, 0xA011, 0, 0, .u16, .ro, 0, 0, false, .none, 0, .none⟩,
    ⟨0xA012, 0xA012, 0, 0, .u16, .wo, 0, 0, false, .none, 0, .none⟩,
    ⟨0xA020, 0xA020, 1, 32, .i32, .ro, 0, 0, false, .none, 0, .none⟩,
    ⟨0xA021, 0xA021, 0, 0, .u8, .rw, 95, 0, false, .none, 80, some 100⟩,
    ⟨0xA022, 0xA022, 0, 0, .u16, .rw, 30, 0, false, .none, 1, some 3650⟩,
    ⟨0xA030, 0xA030, 1, 32, .record, .ro, 0xFFFF * 2 ^ 144, 32, false, .none, 0, .none⟩,
    ⟨0xA031, 0xA031, 0, 0, .u32, .ro, 0, 0, false, .none, 0, .none⟩,
    ⟨0xB030, 0xB034, 1, 1, .octets, .ro, 0, 6144, false, .none, 0, .none⟩,
    ⟨0xB030, 0xB034, 2, 2, .u64, .ro, 0, 0, false, .none, 0, .none⟩ ]

/-- Number of events of each event-code group (15 Table 15-4, 16 R539, 17 R561, 18 R582). -/
def evGroup : Nat → Nat
  | 1 => 1 | 2 => 13 | 3 => 8 | 4 => 3 | 5 => 4 | 6 => 4 | 7 => 1 | 8 => 14 | 9 => 12 | 10 => 7
  | 11 => 3 | 12 => 10 | 13 => 21 | 14 => 9 | 16 => 10 | 17 => 8 | 18 => 2 | _ => 0

/-- Objects of area 0x7000 and the shares (10 Table 10-11, 11 Table 11-5). -/
def odRows4 : List OdRow :=
  [ ⟨0x7001, 0x7001, 1, 1, .u8, .rw, 3, 0, false, .none, 1, some 255⟩,
    ⟨0x7010, 0x7013, 1, 64, .record, .rw, 0x7FF * 2 ^ 144, 32, false, .none, 0, .none⟩,
    ⟨0x7014, 0x7017, 0, 0, .u8, .wo, 0, 0, false, .none, 0, some 63⟩,
    ⟨0x7018, 0x701B, 0, 0, .u16, .ro, 0, 0, false, .none, 0, .none⟩,
    ⟨0x7020, 0x7022, 1, 4, .u32, .ro, 0, 0, false, .none, 0, .none⟩,
    ⟨0x7030, 0x7030, 0, 0, .u64, .ro, 0, 0, false, .none, 0, .none⟩,
    ⟨0x7040, 0x7043, 1, 64, .u16, .ro, 0, 0, false, .none, 0, .none⟩,
    ⟨0x3020, 0x3023, 1, 3, .u8, .rwl, 16, 0, false, .commit, 1, some 255⟩,
    ⟨0x3020, 0x3023, 4, 4, .u16, .rwl, 0, 0, false, .commit, 0, some 1023⟩,
    ⟨0x3020, 0x3023, 5, 5, .u8, .rwl, 0, 0, false, .commit, 0, some 100⟩,
    ⟨0x3024, 0x3024, 0, 0, .u8, .rwl, 4, 0, false, .commit, 1, some 255⟩,
    ⟨0x3028, 0x302B, 1, 4, .u64, .ro, 0, 0, false, .none, 0, .none⟩,
    ⟨0x3028, 0x302B, 5, 5, .u8, .ro, 0, 0, false, .none, 0, .none⟩,
    ⟨0x3028, 0x302B, 6, 6, .u16, .ro, 0, 0, false, .none, 0, .none⟩ ]

/-- The row of an index and subindex, event counts and flags of R504 among them. -/
def odRow? (idx sub : Nat) : Option OdRow :=
  if (idx == 0xA002 || idx == 0xA003) && sub % 5 == 0 && decide (5 < sub) then none else
  match (odRows1 ++ odRows2 ++ odRows3 ++ odRows4).find?
      (fun r => r.lo ≤ idx && idx ≤ r.hi && r.slo ≤ sub && sub ≤ r.shi) with
  | some r => some r
  | none =>
    if (idx / 256 == 0xB1 || idx / 256 == 0xB2) && 1 ≤ sub && sub ≤ evGroup (idx % 256) then
      some ⟨idx, idx, sub, sub, if idx / 256 == 0xB1 then .u64 else .bool,
        if idx / 256 == 0xB1 then .ro else .w1c, 0, 0, false, .none, 0, .none⟩
    else none

/-- Key of an object in the store. -/
def odKey (idx sub : Nat) : Nat := idx * 256 + sub

/-- Number of spindle slots (01 R19). -/
def Cfg.slots (c : Cfg) : Nat := if c.ss12 then 12 else 16

/-- Default role-map entry of a die (01 Table 01-2, R23). -/
def Cfg.roleDefault (c : Cfg) (d : Nat) : Nat :=
  if c.ss12 then
    if c.fused.contains d then 0x30
    else
      let rank := ((List.range d).filter fun e => !c.fused.contains e).length
      if rank < 12 then rank else 0x10
  else if d < 16 then d else 0x10

/-- The default of an object: the table's, or the one that depends on the part (01 R22, R48;
13 R431; 16 Table 16-3; 12 R401; 11 R395). -/
def odDefault (c : Cfg) (idx sub : Nat) : Nat :=
  if idx = 0x3001 then c.roleDefault (sub - 1)
  else if idx = 0x3010 then
    if sub = 1 then 2 ^ 32 + 0xFFFF * 2 ^ 16 + (if c.ss12 then 0x0FFF else 0xFFFF) else 0
  else if idx = 0x3020 ∧ sub = 4 then 1023
  else if idx = 0x3020 ∧ sub = 5 then 100
  else if idx = 0x8002 then
    let n := sub - 1
    if n < c.slots then
      let per := if c.ss12 then 6 else 8
      2 ^ 11 + (n % per) * 2 ^ 5 + (16 + n / per)
    else 0
  else if idx = 0xA001 ∧ sub = 2 then if c.ss12 then 5500 else 6800
  else if idx = 0xA010 then if c.grade28 then 2800 else 3000
  else if idx = 0x4001 ∧ sub = 1 then if c.steppingA0 then 0xA0 else 0xB0
  else if idx = 0x4001 ∧ sub = 2 then if c.steppingA0 then 1 else 2
  else match odRow? idx sub with
    | some r => r.dflt
    | none => 0

/-- The value an object of the dictionary holds. -/
def State.odGet (s : State) (idx sub : Nat) : Nat :=
  match fmGet? s.od (odKey idx sub) with
  | some v => v
  | none => odDefault s.cfg idx sub

/-- The package or a write sets an object. -/
def State.odSet (s : State) (idx sub v : Nat) : State :=
  { s with od := fmSet s.od (odKey idx sub) v }

end Sys2Proof.Machine
end

