-- ==== Sys2Proof/Machine/Mem.lean ====
section
/-! DEFINITION. Machine/Mem.lean: memory (08): the sparse list of bytes by physical place in its one
canonical form, and the package-physical address map of Table 08-1. -/

namespace Sys2Proof.Machine

/-- Place of a byte of the stack bonded to a die: die × 2^36 + offset. -/
def stackKey (die off : Nat) : Nat := die * 2 ^ 36 + off
/-- Place of a byte of a spindle die's SRAM at an offset of Table 08-2. -/
def sramKey (die off : Nat) : Nat := 2 ^ 41 + die * 2 ^ 30 + off
/-- Place of a byte of a fabric die's creel. -/
def creelKey (f off : Nat) : Nat := 2 ^ 42 + f * 2 ^ 26 + off

/-- Offset of the histogram space in a slot's SRAM (08 Table 08-2). -/
def histOff : Nat := 0x2E000000
/-- Offset of the batt. -/
def battOff : Nat := 0x28000000
/-- Offset of the shared bobbin. -/
def sharedOff : Nat := 0x20000000
/-- First offset beyond the memory of a slot's SRAM window. -/
def sramEnd : Nat := 0x2E200000

/-- Default of byte o of a statistics record (04 Table 04-5). -/
def histDefault (o : Nat) : Byte :=
  if o = 584 then 0xE0 else if o = 585 then 0xFF else if o = 587 then 1
  else if 648 ≤ o ∧ o ≤ 652 then 0xFF else if o = 653 then 0x7F else 0

/-- What an unlisted place reads as: zero, but a statistics record's defaults in histogram space
(17 R553 stage 5 for stacks; 04 R145). -/
def memDefault (k : Nat) : Byte :=
  if 2 ^ 41 ≤ k ∧ k < 2 ^ 42 then
    let o := (k - 2 ^ 41) % 2 ^ 30
    if histOff ≤ o ∧ o < sramEnd then histDefault (o % 1024) else 0
  else 0

/-- Memory: cells of rising place, none equal to what its place reads as unlisted. -/
abbrev Mem := List Host.Cell

/-- The byte at a place. -/
def Mem.read : Mem → Nat → Byte
  | [], k => memDefault k
  | (j, b) :: m, k => if k = j then b else if k < j then memDefault k else Mem.read m k

/-- Write a byte at a place, keeping the canonical form. -/
def Mem.write : Mem → Nat → Byte → Mem
  | [], k, b => if b = memDefault k then [] else [(k, b)]
  | (j, c) :: m, k, b =>
    if k < j then (if b = memDefault k then (j, c) :: m else (k, b) :: (j, c) :: m)
    else if k = j then (if b = memDefault k then m else (k, b) :: m)
    else (j, c) :: Mem.write m k b

/-- The canonical form: places rise strictly from a bound, and no cell holds its place's default. -/
def Mem.wfFrom : Nat → Mem → Bool
  | _, [] => true
  | lo, (j, b) :: m => decide (lo ≤ j) && decide (b ≠ memDefault j) && Mem.wfFrom (j + 1) m

/-- The canonical form of memory. -/
def Mem.wf (m : Mem) : Bool := Mem.wfFrom 0 m

/-- The n bytes from a place. -/
def Mem.readN (m : Mem) (k : Nat) : Nat → List Byte
  | 0 => []
  | n + 1 => m.read k :: Mem.readN m (k + 1) n

/-- Write bytes from a place upward. -/
def Mem.writeN : Mem → Nat → List Byte → Mem
  | m, _, [] => m
  | m, k, b :: bs => Mem.writeN (m.write k b) (k + 1) bs

/-- Every place of a range back to what it reads as unlisted (zeros, record defaults). -/
def Mem.clear (m : Mem) (lo n : Nat) : Mem := m.filter fun c => !(lo ≤ c.1 && c.1 < lo + n)

/-- Copy a range: the bytes at src .. src+n-1 as they stood go to dst. Both ranges lie in stacks or
in equal offsets of SRAM, so that unlisted bytes agree. -/
def Mem.copy (m : Mem) (src dst n : Nat) : Mem :=
  let moved := (m.filter fun c => src ≤ c.1 && c.1 < src + n).map fun c => (c.1 - src + dst, c.2)
  moved.foldl (fun m c => Mem.write m c.1 c.2) (m.clear dst n)

/-- Apply a list of writes in order. -/
def Mem.apply (m : Mem) (l : List Host.Cell) : Mem := l.foldl (fun m c => Mem.write m c.1 c.2) m

/-! ### Dies, slots and partitions (01) -/

/-- Role field of a die's role-map entry: 0 ACTIVE, 1 SPARE, 2 RETIRED, 3 FUSED (01 Table 01-2). -/
def State.role (s : State) (d : Nat) : Nat := bits (s.odGet 0x3001 (d + 1)) 5 4

/-- Slot field of a die's role-map entry. -/
def State.roleSlot (s : State) (d : Nat) : Nat := bits (s.odGet 0x3001 (d + 1)) 3 0

/-- The die serving a slot (01 R19, R22). -/
def State.dieOfSlot (s : State) (n : Nat) : Option Nat :=
  if n < s.cfg.slots then
    (List.range 18).find? fun d => s.role d == 0 && s.roleSlot d == n
  else none

/-- The slot a spindle die serves. -/
def State.slotOfDie (s : State) (d : Nat) : Option Nat :=
  if d < 18 ∧ s.role d = 0 then some (s.roleSlot d) else none

/-- The SPARE dies, in ascending order. -/
def State.spareDies (s : State) : List Nat := (List.range 18).filter fun d => s.role d == 1

/-- The die bound to spare aperture 16 or 17 (08 R266). -/
def State.spareDie (s : State) (a : Nat) : Option Nat :=
  if s.cfg.locked then
    match (if a = 16 then s.cfg.spare16 else s.cfg.spare17) with
    | some d => if s.role d = 1 then some d else none
    | none => none
  else s.spareDies[a - 16]?

/-- Descriptor fields of a partition (01 Table 01-5). -/
def State.desc (s : State) (p : Nat) : Nat := s.odGet 0x3010 (p + 1)
def State.partValid (s : State) (p : Nat) : Bool := bit (s.desc p) 32
def State.partWorld (s : State) (p : Nat) : Bool := bit (s.desc p) 33
def State.partSlots (s : State) (p : Nat) : List Nat := maskBits 16 (bits (s.desc p) 15 0)
def State.partGroups (s : State) (p : Nat) : List Nat := maskBits 16 (bits (s.desc p) 31 16)

/-- The partition that owns a slot, and the one that owns a solver group (01 R48, R51). -/
def State.partOfSlot (s : State) (n : Nat) : Option Nat :=
  (List.range 4).find? fun p => s.partValid p && bit (s.desc p) n
def State.partOfGroup (s : State) (g : Nat) : Option Nat :=
  (List.range 4).find? fun p => s.partValid p && bit (s.desc p) (16 + g)

/-- The partition of a hart: that of its solver group (01 R30). -/
def State.partOfHart (s : State) (h : Nat) : Option Nat := s.partOfGroup (h / 16)

/-- Die index of a hart's solver die. -/
def hartDie (h : Nat) : Nat := 18 + h / 64

/-- The harts of a partition's groups whose die is not lost. -/
def State.partHarts (s : State) (p : Nat) : List Nat :=
  (List.range 256).filter fun h => bit (s.desc p) (16 + h / 16) && !s.cfg.lost.contains (hartDie h)

/-! ### The address map (08 R265 to R267, 13 R428) -/

/-- Where a package-physical address leads. -/
inductive Place
  | stack (die off : Nat)
  | sram (slot die off : Nat)
  | creel (f off : Nat)
  | mmio (die off : Nat)
  | mailbox (off : Nat)
  | unmapped
  deriving DecidableEq, Repr

/-- Bytes of the journal at the top of every active stack (13 R428). -/
def State.journalBytes (s : State) : Nat := s.odGet 0x8004 0 * 2 ^ 21

/-- The place of a package-physical address. The journal is unmapped to every requester. -/
def State.place (s : State) (pa : Nat) : Place :=
  let a := pa / 2 ^ 36
  let o := pa % 2 ^ 36
  if a < 16 then
    match s.dieOfSlot a with
    | some d => if o < 2 ^ 36 - s.journalBytes then .stack d o else .unmapped
    | none => .unmapped
  else if a < 18 then
    match s.spareDie a with
    | some d => .stack d o
    | none => .unmapped
  else if a < 22 then
    if s.cfg.lost.contains a then .unmapped
    else if o < 2 ^ 36 - s.journalBytes then .stack a o else .unmapped
  else if 0x020000000000 ≤ pa ∧ pa < 0x020400000000 then
    let n := (pa - 0x020000000000) / 2 ^ 30
    let o := pa % 2 ^ 30
    match s.dieOfSlot n with
    | some d => if o < sramEnd then .sram n d o else .unmapped
    | none => .unmapped
  else if 0x021000000000 ≤ pa ∧ pa < 0x021020000000 then
    let f := (pa - 0x021000000000) / 2 ^ 26
    if s.cfg.lost.contains (22 + f) then .unmapped else .creel f (pa % 2 ^ 26)
  else if 0x030000000000 ≤ pa ∧ pa < 0x030020000000 then
    .mmio ((pa - 0x030000000000) / 2 ^ 24) (pa % 2 ^ 24)
  else if 0x030020000000 ≤ pa ∧ pa < 0x030020010000 then .mailbox (pa - 0x030020000000)
  else .unmapped

/-- The memory key of a place, where it names memory. -/
def Place.key? : Place → Option Nat
  | .stack d o => some (stackKey d o)
  | .sram _ d o => some (sramKey d o)
  | .creel f o => some (creelKey f o)
  | _ => none

/-- The memory key of a package-physical address. -/
def State.key? (s : State) (pa : Nat) : Option Nat := (s.place pa).key?

/-! ### Slub words (09 R314) -/

/-- Bytes of a lane (09 Table 09-3). -/
def laneBytes (lane : Nat) : Nat := 8 / 2 ^ lane

/-- The slub word of a lane and cause (09 Table 09-7). -/
def slubWord (lane cause : Nat) : Nat :=
  match lane with
  | 0 => 0x7FF45C0000000000 + cause
  | 1 => 0x7FA2E000 + cause
  | 2 => 0x7FC0
  | _ => 0x7F

/-- Bytes off to off + n of a run of slub words. -/
def slubBytes (lane cause off n : Nat) : List Byte :=
  (List.range n).map fun i =>
    nth (bytesOf (laneBytes lane) (slubWord lane cause)) ((off + i) % laneBytes lane) 0

/-! ### Lines in error (08 R270, R273, R277) -/

/-- The die whose stack or SRAM a place belongs to. -/
def keyDie (k : Nat) : Nat := if k < 2 ^ 41 then k / 2 ^ 36 else (k - 2 ^ 41) / 2 ^ 30

/-- `stack_map` (R270): channel and channel address of a byte of a stack. -/
def stackMap (o : Nat) : Nat × Nat :=
  (bits o 13 8 ^^^ bits o 19 14 ^^^ bits o 25 20 ^^^ bits o 31 26 ^^^ bits o 35 32, ((o >>> 14) <<< 8) + o % 256)

/-- A channel of a die's stack. -/
def State.channel (s : State) (d ch : Nat) : Channel := fmGet s.channels (d * 64 + ch) {}
def State.setChannel (s : State) (d ch : Nat) (x : Channel) : State :=
  { s with channels := fmSet s.channels (d * 64 + ch) x }

/-- Number of bits set in an 18-bit mask. -/
def popcount (m : Nat) : Nat := (maskBits 64 m).length

/-- A line of a stack, by its number, reads as uncorrectable (08 Table 08-3). -/
def State.lineBad (s : State) (line : Nat) : Bool :=
  match fmGet? s.lines line with
  | none => false
  | some .poisoned => true
  | some (.symbols a b) =>
    match (s.channel (keyDie (line * 64)) (stackMap (line * 64 % 2 ^ 36)).1).erased with
    | some k => !((a == 0 || a == 2 ^ k) && (b == 0 || b == 2 ^ k))
    | none => !(decide (popcount a ≤ 1) && decide (popcount b ≤ 1))

/-- The places of a range that read as uncorrectable, with their bytes: lines of a stack, words of SRAM (08 R280). -/
def State.badPlaces (s : State) (k n : Nat) : List (Nat × Nat) :=
  if k < 2 ^ 41 then
    (s.lines.filter fun e => decide (k < e.1 * 64 + 64) && decide (e.1 * 64 < k + n) && s.lineBad e.1).map fun e => (e.1 * 64, 64)
  else if k < 2 ^ 42 then
    (s.sramErr.filter fun e => decide (k < e.1 + 8) && decide (e.1 < k + n) && e.2 % 4 != 1).map fun e => (e.1, 8)
  else []

/-- Bytes read from a place, with slub words of cause 4 in the lanes that read as uncorrectable. -/
def slubOver (bad : List (Nat × Nat)) (k : Nat) (l : List Byte) : List Byte :=
  if bad.isEmpty then l
  else (List.range l.length).map fun i =>
    if bad.any fun b => decide (b.1 ≤ k + i) && decide (k + i < b.1 + b.2) then nth (slubBytes 0 4 (k + i) 1) 0 0 else nth l i 0

/-- Read bytes at package-physical addresses, as the package itself reads them (unmapped reads 0; 08 R277, R280). -/
def State.readPa (s : State) (pa n : Nat) : List Byte :=
  match s.key? pa with
  | some k => slubOver (s.badPlaces k n) k (Mem.readN s.mem k n)
  | none => List.replicate n 0

/-- Write bytes at package-physical addresses, as the package itself writes them. -/
def State.writePa (s : State) (pa : Nat) (l : List Byte) : State :=
  match s.key? pa with
  | some k => { s with mem := Mem.writeN s.mem k l }
  | none => s

/-- A little-endian 64-bit word at a package-physical address. -/
def State.readPa64 (s : State) (pa : Nat) : Nat := natOf (s.readPa pa 8)

/-! ### Region tables (14 R462) -/

/-- Entry e of the region table of the stack on die d. -/
def State.regionEntry (s : State) (d e : Nat) : Nat := s.odGet (0x9100 + d) e

/-- Whether a valid entry covers a granule. -/
def regionCovers (v g : Nat) : Bool :=
  bit v 35 && decide (bits v 14 0 ≤ g) && decide (g ≤ bits v 14 0 + bits v 29 15)

/-- The entry that covers granule g of the stack on die d. -/
def State.region? (s : State) (d g : Nat) : Option Nat :=
  ((List.range 256).find? fun e => regionCovers (s.regionEntry d e) g).map (s.regionEntry d)

/-- The granule is one of partition p's regions: a valid tenant entry names p (14 R462). -/
def State.ownsGranule (s : State) (p d g : Nat) : Bool :=
  match s.region? d g with
  | some v => bits v 38 37 == 0 && bits v 31 30 == p
  | none => false

/-- Whether n bytes from a package-physical address lie wholly in p's regions (14 R462): in one
aperture, every granule p's. -/
def State.inRegions (s : State) (p pa n : Nat) : Bool :=
  n == 0 || (pa / 2 ^ 36 == (pa + n - 1) / 2 ^ 36 &&
  match s.place pa, s.place (pa + n - 1) with
  | .stack d o, .stack d' _ => d == d' &&
      (List.range ((o + n - 1) / 2 ^ 21 - o / 2 ^ 21 + 1)).all fun i => s.ownsGranule p d (o / 2 ^ 21 + i)
  | _, _ => false)

end Sys2Proof.Machine
end

