-- ==== Sys2Proof/Machine/Switch.lean ====
section
/-! DEFINITION. Machine/Switch.lean: the internal switch: gaps and bridges (01 R34, R41, R42), the way of traffic across
the fabric dies (01 R43, R45; 11 R390), and the virtual channels and hop sets of the bridges (11 R389). -/

namespace Sys2Proof.Machine

/-! ### Bridges (Tables 01-3, 01-4) -/

/-- Gap of a die that is no fabric die (Table 01-3). -/
def dieGap (d : Nat) : Nat :=
  if d < 16 then d / 2
  else match d with
    | 16 => 3 | 17 => 7 | 18 => 1 | 19 => 2 | 20 => 5 | 21 => 6 | 30 => 0 | _ => 4

/-- Two fabric dies are bridged: the ring and the chords FX1–FX6, FX2–FX5 (R42). -/
def bridged (a b : Nat) : Bool :=
  (a + 1) % 8 == b || (b + 1) % 8 == a || (a == 1 && b == 6) || (a == 6 && b == 1) || (a == 2 && b == 5) || (a == 5 && b == 2)

/-- A die is a fabric die. -/
def isFabric (d : Nat) : Bool := decide (22 ≤ d) && decide (d < 30)

/-- Fabric dies that a die is bridged to, or the fabric die itself (R41). -/
def dieEnds (d : Nat) : List Nat := if isFabric d then [d - 22] else [dieGap d, (dieGap d + 1) % 8]

/-- Two dies are joined by a bridge (Table 01-4). -/
def isBridge (a b : Nat) : Bool :=
  if isFabric a && isFabric b then bridged (a - 22) (b - 22)
  else if isFabric a then decide (b < 32) && (dieEnds b).contains (a - 22)
  else if isFabric b then decide (a < 32) && (dieEnds a).contains (b - 22)
  else (a == 30 && b == 31) || (a == 31 && b == 30)

/-- Number of the direction from die a to die b of a bridge, as arbitration points and events name it. -/
def bridgeNo (a b : Nat) : Nat := a * 32 + b

/-! ### The way of traffic (R43, R45; 11 R390) -/

/-- Surviving fabric dies, ascending. -/
def State.fabricDies (s : State) : List Nat := (List.range 8).filter fun f => !s.cfg.lost.contains (22 + f)

/-- Fabric dies within k hops of a set, over the dies that are alive. -/
def within (alive : List Nat) : Nat → List Nat → List Nat
  | 0, l => l
  | k + 1, l => within alive k ((l ++ alive.filter fun b => l.any fun a => bridged a b).eraseDups)

/-- Hops from fabric die f to the nearest of a set. -/
def hopsTo (alive ends : List Nat) (f : Nat) : Option Nat :=
  (List.range 8).find? fun k => (within alive k [f]).any fun g => ends.contains g

/-- From fabric die f, k hops from a set, the shortest path whose sequence of dies is lowest (R390). -/
def pathFrom (alive ends : List Nat) : Nat → Nat → List Nat
  | 0, f => [f]
  | k + 1, f =>
    f :: (match alive.find? fun g => bridged f g && hopsTo alive ends g == some k with
      | some g => pathFrom alive ends k g
      | none => [])

/-- Fabric dies that traffic between two dies crosses, in order: the shortest path in hops, and among equal ones that of the
lowest sequence (R43, R390), over the surviving dies (R45). The route that a draft fixes for its own traffic stands in no
field of its image; DEDUCED (log 57): it is this one too. -/
def State.switchPath (s : State) (d e : Nat) : Option (List Nat) :=
  let alive := s.fabricDies
  let starts := (dieEnds d).filter alive.contains
  let ends := (dieEnds e).filter alive.contains
  match (List.range 8).find? fun k => starts.any fun f => hopsTo alive ends f == some k with
  | none => none
  | some k => (alive.find? fun f => starts.contains f && hopsTo alive ends f == some k).map (pathFrom alive ends k)

/-- Traffic between two dies finds a way: within a die and between the host dies it needs no fabric die (R34). -/
def State.joined (s : State) (d e : Nat) : Bool :=
  d == e || (decide (30 ≤ d) && decide (30 ≤ e)) || (s.switchPath d e).isSome

/-- Bridges that a packet crosses, with the hop set of each: hop set h for the h-th hop between fabric dies, 0 for a bridge
that joins a fabric die to another kind (11 R389). -/
def crossings (d e : Nat) (path : List Nat) : List (Nat × Nat) :=
  let fx := path.map (· + 22)
  let inner := (List.range (fx.length - 1)).map fun i => (bridgeNo (nth fx i 0) (nth fx (i + 1) 0), i + 1)
  (if isFabric d then [] else [(bridgeNo d (fx.headD 0), 0)]) ++ inner ++
  (if isFabric e then [] else [(bridgeNo (fx.getLastD 0) e, 0)])

/-- Key of the arbitration point of a bridge's direction (11 Table 11-2). -/
def bridgePoint (b : Nat) : Nat := 0x20000 + b

/-- Count a packet's flits in the running frame of a bridge, in their virtual channel and hop set (11 R386, R389). -/
def ArbPoint.carry (x : ArbPoint) (cls vc hop part flits : Nat) : ArbPoint :=
  { x with
    vcs := fmSet x.vcs (hop * 16 + vc) (fmGet x.vcs (hop * 16 + vc) 0 + flits)
    frameC0 := if cls = 0 then fmSet x.frameC0 part (fmGet x.frameC0 part 0 + flits) else x.frameC0
    frameC1 := if cls = 1 then x.frameC1 + flits else x.frameC1 }

/-- A packet of a partition crosses the internal switch between two dies, on a virtual channel of every bridge it takes
(11 R386, R389). -/
def State.crossSwitch (s : State) (d e cls vc part flits : Nat) : State :=
  match s.switchPath d e with
  | none => s
  | some path => { s with arb := (crossings d e path).foldl (fun m c =>
      fmSet m (bridgePoint c.1) ((fmGet m (bridgePoint c.1) {}).carry cls vc c.2 part flits)) s.arb }

end Sys2Proof.Machine
end

