-- ==== Sys2Proof/Machine/Ops.lean ====
section
/-! DEFINITION. Machine/Ops.lean: the operations every family shares: time and ticks, events and
their log (15 R503 to R508), the reel log (12 R412 to R416), interrupts of solver harts, writes of
draft traffic with the undo journal and buddy deltas (13 R428, R436), rollback and halt
(13 R424 to R430), and the end of a command. -/

namespace Sys2Proof.Machine

/-- What every command does first: the time moves on, and nothing has been sent or answered yet. -/
def State.begin (s : State) (t : Nat) : State :=
  { s with now := max s.now t, out := [], ans := {} }

/-- Put a message on an interface. -/
def State.send (s : State) (m : Msg) : State := { s with out := s.out ++ [m] }

/-- Answer the requester. -/
def State.answer (s : State) (status : Nat) (data : List Byte) : State :=
  { s with ans := ⟨status, data⟩ }

/-- Take n free bytes. -/
def State.freeBytes (s : State) (n : Nat) : List Byte × State :=
  ((List.range n).map fun i => Config.freeByte (s.freeCtr + i), { s with freeCtr := s.freeCtr + n })

/-- Take a free 64-bit word. -/
def State.freeWord (s : State) : Word × State :=
  (Config.freeWord s.freeCtr, { s with freeCtr := s.freeCtr + 1 })

/-! ### Field access -/

/-- Partition p's running state. -/
def State.part (s : State) (p : Nat) : Part := fmGet s.parts p {}
def State.setPart (s : State) (p : Nat) (x : Part) : State := { s with parts := fmSet s.parts p x }
/-- The flyer of a slot. -/
def State.flyer (s : State) (n : Nat) : Flyer := fmGet s.flyers n {}
def State.setFlyer (s : State) (n : Nat) (x : Flyer) : State := { s with flyers := fmSet s.flyers n x }
/-- A solver hart. -/
def State.hart (s : State) (h : Nat) : Hart := fmGet s.harts h {}
def State.setHart (s : State) (h : Nat) (x : Hart) : State := { s with harts := fmSet s.harts h x }
/-- A station, keyed by slot and station word. -/
def stKey (slot st : Nat) : Nat := slot * 65536 + st
def State.station (s : State) (slot st : Nat) : Station := fmGet s.stations (stKey slot st) {}
def State.setStation (s : State) (slot st : Nat) (x : Station) : State :=
  { s with stations := fmSet s.stations (stKey slot st) x }
/-- A Rhoum port. -/
def State.port (s : State) (n : Nat) : Port := fmGet s.ports n {}
def State.setPort (s : State) (n : Nat) (x : Port) : State := { s with ports := fmSet s.ports n x }

/-! ### Time -/

/-- Arithmetic clock in MHz: OD 0xA010.00 (16 R537). -/
def State.clockMhz (s : State) : Nat := s.odGet 0xA010 0
/-- Time units in an arithmetic cycle (00 R4). -/
def State.cycleUnits (s : State) : Nat := if s.clockMhz = 2800 then 15 else 14
/-- The nominal tick period, OD 0x2001.02, in 10 ns. -/
def State.tickPeriod (s : State) : Nat := s.odGet 0x2001 2
/-- Arithmetic cycles since the last tick boundary, saturating (15 Table 15-5, 13 R446). -/
def State.cycleInTick (s : State) : Nat := min ((s.now - s.cad.tickStart) / s.cycleUnits) (2 ^ 32 - 1)
/-- The tick number partition p sees: the replay tick while it replays (12 R419). -/
def State.tickOf (s : State) (p : Option Nat) : Nat :=
  match p with
  | some p =>
    let r := (s.part p).replay
    if r.on then ofSigned 64 ((s.cad.tick.toNat : Int) - r.offset) else s.cad.tick.toNat
  | none => s.cad.tick.toNat

/-! ### Events (15 R503 to R508) -/

/-- Pack detail fields into two words, as a 128-bit number (R506): pos is the next free half. -/
def packDetail : Nat → List EvField → Nat
  | _, [] => 0
  | pos, .half v :: fs =>
    if pos < 4 then ((v % 2 ^ 32) <<< (32 * pos)) + packDetail (pos + 1) fs else 0
  | pos, .word v :: fs =>
    let w := (pos + 1) / 2
    if w < 2 then ((v % 2 ^ 64) <<< (64 * w)) + packDetail (2 * w + 2) fs else 0

/-- The six words of an event record (Table 15-5). -/
def State.eventRecord (s : State) (code count : Nat) (who : EvWho) (det : List EvField) : List Nat :=
  let o := fun (x : Option Nat) => x.getD 0
  let d := packDetail 0 det
  [ code + (o who.part <<< 16) + (b2n who.part.isSome <<< 18) + (o who.die <<< 19)
      + (b2n who.die.isSome <<< 24) + (o who.slot <<< 25) + (b2n who.slot.isSome <<< 29),
    count, s.tickOf who.part, s.cycleInTick, d % 2 ^ 64, d >>> 64 ]

/-- Whether a session's role lets it read the log a record goes to (15 R492, R493, R504). -/
def State.mayReadLog (s : State) (x : Session) (part : Option Nat) : Bool :=
  match x.role with
  | .owner | .maker => true
  | .tenant => part == some x.part && s.partValid x.part
  | _ => false

/-- Whether a session may be sent one more notification now (R508). -/
def Session.mayNotify (x : Session) (now : Nat) : Bool :=
  decide (now ≥ x.sentFrom + unitsPerSec) || decide (x.sent < 1000)

/-- Count one notification of a session. -/
def Session.countNotify (x : Session) (now : Nat) : Session :=
  if now ≥ x.sentFrom + unitsPerSec then { x with sentFrom := now, sent := 1 } else { x with sent := x.sent + 1 }

/-- Count one notification that takes the next sequence number at once (14 R483); one for the mailbox takes its
number when the host drains it. -/
def Session.countSent (x : Session) (now : Nat) : Session :=
  let y := x.countNotify now
  { y with txSeq := y.txSeq + 1 }

/-- Send one notification to a session: on its transport, or into the mailbox queue (R508, R516). -/
def State.notify (s : State) (id op idx sub sid : Nat) (data : List Byte) : State :=
  match fmGet? s.aoap.sessions id with
  | none => s
  | some x =>
    if x.mayNotify s.now then
      match x.transport with
      | .mailbox =>
        if s.aoap.mbQueue.length < 64 then
          let hdr := bytesOf 1 op ++ bytesOf 1 sub ++ bytesOf 2 idx ++ bytesOf 2 sid ++ bytesOf 2 0 ++ bytesOf 4 data.length
          let s := { s with aoap := { s.aoap with
            sessions := fmSet s.aoap.sessions id (x.countNotify s.now)
            mbQueue := s.aoap.mbQueue ++ [(id, hdr ++ data)] } }
          if s.aoap.mbQueue.length = 1 then s.send (.msix 5) else s
        else s
      | _ =>
        ({ s with aoap := { s.aoap with sessions := fmSet s.aoap.sessions id (x.countSent s.now) } }).send
          (.notify id op idx sub sid data)
    else s

/-- Notify every session with a subscription covering an event (R507). -/
def State.notifyEvent (s : State) (code : Nat) (part : Option Nat) (ent : List Nat) : State :=
  s.aoap.sessions.foldl (fun s e =>
    e.2.subs.foldl (fun s sub =>
      match sub.kind with
      | .event lo hi =>
        if e.2.open_ && decide (lo ≤ code) && decide (code ≤ hi) && s.mayReadLog e.2 part then
          s.notify e.1 0x80 0 0 sub.id (bytesOfWords ent)
        else s
      | .value .. => s) s) s

/-- A bit of a W1C object is set by the package now (R501). -/
def State.markW1c (s : State) (idx sub b : Nat) : State := { s with w1cAt := fmSet s.w1cAt (odKey idx sub * 8 + b) s.now }

/-- Raise an event that counts n occurrences, notifying when `tell` (R504, R505, R507). -/
def State.eventN (s : State) (code n : Nat) (tell : Bool) (who : EvWho) (det : List EvField) : State :=
  let g := code / 256
  let k := code % 256
  let count := s.odGet (0xB100 + g) k + n
  let s := ((s.odSet (0xB100 + g) k count).odSet (0xB200 + g) k 1).markW1c (0xB200 + g) k 0
  let ent := s.eventRecord code count who det
  let key := who.part.getD 4
  let log := fmGet s.logs key {}
  let s := { s with logs := fmSet s.logs key ⟨log.head + 1, fmSet log.recs (log.head % 128) ent⟩ }
  if tell then s.notifyEvent code who.part ent else s

/-- Raise an event (R503 to R507). -/
def State.event (s : State) (code : Nat) (who : EvWho) (det : List EvField) : State :=
  s.eventN code 1 true who det

/-- An event of the system log that names nothing. -/
def noOne : EvWho := {}
/-- An event of a partition. -/
def ofPart (p : Nat) : EvWho := { part := some p }
/-- An event of a die. -/
def ofDie (d : Nat) : EvWho := { die := some d }
/-- An event of a slot: its partition, the die serving it (01 R21) and the slot. -/
def State.ofSlot (s : State) (n : Nat) : EvWho :=
  { part := s.partOfSlot n, die := s.dieOfSlot n, slot := some n }
/-- An event whose rule names a slot and no die (15 Table 15-5): its partition and the slot. -/
def State.slotOnly (s : State) (n : Nat) : EvWho := { part := s.partOfSlot n, slot := some n }

/-! ### Writes to memory (08 R277, R280) -/

/-- An uncorrectable line read is counted in OD 0x5003 and raises `DRAM_UNCORRECTABLE`, in the log of the
partition whose requester met it (15 R505). -/
def State.dramBad (s : State) (d : Nat) (p : Option Nat) (det : List EvField) : State :=
  (s.odSet 0x5003 (d + 1) (s.odGet 0x5003 (d + 1) + 1)).event 0x0806 { part := p, die := some d } det

/-- Write bytes: the lines and words they cover wholly are sound again. -/
def State.putMem (s : State) (k : Nat) (l : List Byte) : State :=
  { s with
    mem := Mem.writeN s.mem k l
    lines := s.lines.filter (fun e =>
      !(decide (k ≤ e.1 * 64) && decide (e.1 * 64 + 64 ≤ k + l.length)))
    sramErr := s.sramErr.filter (fun e => !(decide (k ≤ e.1) && decide (e.1 + 8 ≤ k + l.length))) }

/-- The lines a write covers in part and that read as uncorrectable. -/
def State.partBad (s : State) (k n : Nat) : List Nat :=
  ([k / 64, (k + n - 1) / 64].eraseDups).filter fun i =>
    decide (k < 2 ^ 41) && s.lineBad i && !(decide (k ≤ i * 64) && decide (i * 64 + 64 ≤ k + n))

/-- A write of the package itself: it is dropped in those lines, with `DRAM_UNCORRECTABLE`, and done in the others. -/
def State.putParts (s : State) (k : Nat) (l : List Byte) (put : State → Nat → List Byte → State) : State :=
  let bad := s.partBad k l.length
  let last := (k + l.length - 1) / 64
  let lo := if bad.contains (k / 64) then 64 - k % 64 else 0
  let hi := if bad.contains last then last * 64 - k else l.length
  let body := (l.take hi).drop lo
  let s := bad.foldl (fun s _ => s.dramBad (keyDie k) none []) s
  if body.isEmpty then s else put s (k + lo) body

/-! ### The reel log (12 R412 to R416) -/

/-- The memory key of byte o of part p's reel, when its region is mapped. -/
def State.reelKey (s : State) (r : Reel) (o : Nat) : Option Nat := s.key? (r.base + o)

/-- Store record bytes in a part at an offset; a record touching an unmapped region is not stored,
and counts as lost (R412). -/
def State.reelStore (s : State) (p : Nat) (r : Reel) (o : Nat) (l : List Byte) : State :=
  match s.reelKey r o, s.reelKey r (o + l.length - 1) with
  | some k, some _ => s.putParts k l State.putMem
  | _, _ => s.odSet (0x2034 + p) 3 (s.odGet (0x2034 + p) 3 + 1)

/-- The header unit of a record (Table 12-6). -/
def State.reelHeader (s : State) (p type units seq : Nat) : List Nat :=
  [ type + (units <<< 8) + (p <<< 16) + ((seq % 2 ^ 32) <<< 32), s.tickOf (some p), s.cycleInTick,
    (s.part p).epoch.toNat ]

/-- Advance reel_write by one record of n bytes that starts at it, overwriting the oldest in mode 0. -/
def State.reelPut (s : State) (p : Nat) (type units : Nat) (payload : List Nat) : State :=
  let r := fmGet s.reels p {}
  let w := s.odGet (0x2034 + p) 1
  let bytes := bytesOfWords (s.reelHeader p type units r.seq ++ payload) ++
    List.replicate (32 * units - 32 - 8 * payload.length) 0
  let w' := w + 32 * units
  let kept := (r.starts ++ [w]).filter fun o => decide (w' ≤ o + r.size)
  let gone := (r.starts.filter fun o => !decide (w' ≤ o + r.size))
  let rd := s.odGet (0x2034 + p) 2
  let lostNow := (gone.filter fun o => decide (rd ≤ o)).length
  let s := s.reelStore p r (w % r.size) bytes
  let s := s.odSet (0x2034 + p) 1 w'
  let s := if lostNow = 0 then s else
    (s.odSet (0x2034 + p) 2 (kept.headD w')).odSet (0x2034 + p) 3 (s.odGet (0x2034 + p) 3 + lostNow)
  let tell := lostNow != 0 && (match r.lastFull with | some x => decide (s.now ≥ x + unitsPerSec) | none => true)
  let s := { s with reels := fmSet s.reels p { r with
    seq := r.seq + 1, starts := kept, lastFull := if tell then some s.now else r.lastFull } }
  if tell then s.event 0x0C06 (ofPart p) [] else s

/-- Free bytes of a part in mode 1: what software has taken is free (R416). -/
def State.reelFree (s : State) (p : Nat) (r : Reel) : Nat :=
  r.size - (s.odGet (0x2034 + p) 1 - s.odGet (0x2034 + p) 2)

/-- Bytes a record of n bytes takes, the PAD before it included (R413). -/
def reelNeed (size w n : Nat) : Nat := if w % size + n ≤ size then n else size - w % size + n

/-- Write one record, with a PAD first when it would cross the end of the part (R413). -/
def State.reelWrite (s : State) (p type units : Nat) (payload : List Nat) : State :=
  let r := fmGet s.reels p {}
  let w := s.odGet (0x2034 + p) 1
  let s := if w % r.size + 32 * units ≤ r.size then s
    else s.reelPut p 0 (min 255 ((r.size - w % r.size) / 32)) []
  s.reelPut p type units payload

/-- Write a record into part p under the full mode (R416): drop in mode 1 when it does not fit, and
write a LOST record before the first that fits again. -/
def State.reel (s : State) (p type units : Nat) (payload : List Nat) : State :=
  let r := fmGet s.reels p {}
  if r.disabled || r.size == 0 then s
  else if s.odGet 0x2030 3 = 0 then s.reelWrite p type units payload
  else
    let w := s.odGet (0x2034 + p) 1
    let need := reelNeed r.size w (32 * units + if r.dropped = 0 then 0 else 64)
    if need ≤ s.reelFree p r then
      let s := if r.dropped = 0 then s else
        let s := s.reelWrite p 0x0E 2 [r.dropped]
        { s with reels := fmSet s.reels p { fmGet s.reels p {} with dropped := 0 } }
      s.reelWrite p type units payload
    else
      let tell := match r.lastFull with | some x => decide (s.now ≥ x + unitsPerSec) | none => true
      let s := s.odSet (0x2034 + p) 3 (s.odGet (0x2034 + p) 3 + 1)
      let s := { s with reels := fmSet s.reels p { r with
        dropped := r.dropped + 1, lastFull := if tell then some s.now else r.lastFull } }
      if tell then s.event 0x0C07 (ofPart p) [] else s

/-- Write a record into every partition's part. -/
def State.reelAll (s : State) (type units : Nat) (payload : List Nat) : State :=
  forN 4 s fun s p => s.reel p type units payload

/-! ### Interrupts of solver harts (07 R261, R264; 09 R322; 17 R550) -/

/-- Make local interrupt n pending in a hart. -/
def State.raiseIrq (s : State) (n h : Nat) : State :=
  let x := s.hart h
  s.setHart h { x with
    mip := x.mip ||| (1 <<< n)
    mipSet := (if x.mipAt = s.now then x.mipSet else 0) ||| (1 <<< n)
    mipAt := s.now }

/-- Raise local interrupt n in every hart of a partition that has it enabled in `mie` (07 R264, 17 R550). -/
def State.raiseIrqPart (s : State) (n p : Nat) : State :=
  (s.partHarts p).foldl (fun s h => if (s.hart h).mie.toNat.testBit n then s.raiseIrq n h else s) s

/-- Clear every `bxwpend` bit in a partition's harts (07 R264). -/
def State.clearGrants (s : State) (p : Nat) : State :=
  (s.partHarts p).foldl (fun s h =>
    let x := s.hart h
    if x.bxwpend = 0 then s else s.setHart h { x with bxwpend := 0 }) s

/-- A window passes to the solver side: bit w of `bxwpend` in the harts that mask it in (07 R261). -/
def State.grantHarts (s : State) (p w : Nat) : State :=
  (s.partHarts p).foldl (fun s h =>
    let x := s.hart h
    if x.bxwmask.toNat.testBit w then
      s.setHart h { x with
        bxwpend := x.bxwpend ||| (1 <<< w)
        pendSet := (if x.pendAt = s.now then x.pendSet else 0) ||| (1 <<< w)
        pendAt := s.now }
    else s) s

/-! ### Windows of the running draft (02 R70, R81, R85) -/

/-- Number of buffers of a window. -/
def WinDesc.buffers (w : WinDesc) : Nat := if w.double then 2 + w.extra else 1
/-- Bytes of one buffer. -/
def WinDesc.bytes (w : WinDesc) : Nat := w.size * 2 ^ 21
/-- Package-physical address of buffer i. -/
def WinDesc.bufBase (w : WinDesc) (i : Nat) : Nat := w.base + i * w.bytes

/-- A window some gate passes to or from the host (R81). -/
def Draft.isHostWin (d : Draft) (w : Nat) : Bool :=
  d.gates.any fun g => g.window == w && (g.src == .host || g.dst == .host)

/-- The buffer a side holds of a window. -/
def WinSt.heldBy (w : WinSt) (x : Side) : Option Nat := w.bufs.findIdx? fun b => b == .held x

/-- The partition, window and buffer an address lies in, among the loaded drafts. -/
def State.windowAt (s : State) (pa : Nat) : Option (Nat × Nat × Nat) :=
  (List.range 4).findSome? fun p =>
    match (s.part p).draft with
    | none => none
    | some d => (List.range d.wins.length).findSome? fun w =>
      match d.wins[w]? with
      | none => none
      | some x =>
        if x.base ≤ pa ∧ pa < x.bufBase x.buffers then some (p, w, (pa - x.base) / x.bytes) else none

/-- Whether the host may reach buffer b of a host window: granted and not yet released (R81). -/
def WinSt.hostReaches (w : WinSt) (b : Nat) : Bool :=
  w.queue.any fun e => e.buf == b && e.granted && !e.released

/-- Whether a side reaches buffer b of a window (R78, R81, R85). -/
def WinSt.reaches (w : WinSt) (x : Side) (b : Nat) : Bool :=
  match x with
  | .host => w.hostReaches b || w.bufs[b]? == some (.held .host)
  | _ => w.bufs[b]? == some (.held x)

/-! ### Step state, undo journal and buddy deltas (13 R426, R428, R434, R436) -/

/-- The slots a partition's loaded draft uses (02 Table 02-3). -/
def State.draftSlots (s : State) (p : Nat) : List Nat :=
  match (s.part p).draft with
  | some d => maskBits 16 (bits (nth d.hdr 1 0) 15 0)
  | none => []

/-- Memory keys of the buffers of a partition's windows: start and length. -/
def State.windowKeys (s : State) (p : Nat) : List (Nat × Nat) :=
  match (s.part p).draft with
  | none => []
  | some d => d.wins.filterMap fun w => (s.key? w.base).map fun k => (k, w.bytes * w.buffers)

/-- A place of the step state of partition p (13 R426): histogram space and batt of its slots, its
persistent ranges, its windows. -/
def State.isStepState (s : State) (p k : Nat) : Bool :=
  (s.partSlots p).any (fun n =>
    match s.dieOfSlot n with
    | some d => decide (sramKey d battOff ≤ k) && decide (k < sramKey d sramEnd)
    | none => false)
  || (s.part p).persist.any (fun r => decide (r.1 ≤ k) && decide (k < r.1 + r.2))
  || (s.windowKeys p).any (fun r => decide (r.1 ≤ k) && decide (k < r.1 + r.2))

/-- The slot of p whose persistent bytes hold a place: batt, histogram space, persistent ranges and
window regions below L − 1 GiB of its stack (13 R433). -/
def State.persistSlot (s : State) (p k : Nat) : Option Nat :=
  match s.slotOfDie (keyDie k) with
  | some n =>
    if s.partOfSlot n == some p && s.isStepState p k &&
        (decide (2 ^ 41 ≤ k) || decide (k % 2 ^ 36 < s.odGet 0x8003 0 * 2 ^ 30 - 2 ^ 30))
    then some n else none
  | none => none

/-- Enter state 3, unprotected, raising BUDDY_UNPROTECTED (13 R437). -/
def State.unprotect (s : State) (n : Nat) : State :=
  if s.odGet 0x8005 (n + 1) = 3 then s
  else (s.odSet 0x8005 (n + 1) 3).event 0x0D09 (s.slotOnly n) []

/-- Lines a partner journal's delta may hold: J / 4 regions at 128 bytes a line (13 R428, R436). -/
def State.deltaLines (s : State) : Nat := s.odGet 0x8004 0 / 4 * 2 ^ 21 / 128

/-- Append a store to a persistent line of slot n to its delta (13 R436), from the start tick on. -/
def State.buddyStore (s : State) (p n k : Nat) (l : List Byte) : State :=
  let x := s.part p
  let b := fmGet x.buddy n {}
  if s.odGet 0x8005 (n + 1) != 2 || b.overflow then s
  else
    let d := b.delta ++ (List.range l.length).map (fun i => (k + i, nth l i 0))
    if ((d.map fun e => e.1 / 64).eraseDups).length ≤ s.deltaLines then
      s.setPart p { x with buddy := fmSet x.buddy n { b with delta := d } }
    else
      let s := s.setPart p { x with buddy := fmSet x.buddy n { b with overflow := true, delta := [] } }
      (s.event 0x0D0A (s.slotOnly n) []).unprotect n

/-- A store to memory by any requester: the bytes, the delta of the slot whose persistent line it
touches (13 R436), and the end of poison of the lines it covers wholly (08 R277). -/
def State.store (s : State) (k : Nat) (l : List Byte) : State :=
  let s := (List.range 4).foldl (fun s p =>
    match s.persistSlot p k with
    | some n => if (s.part p).state = .running then s.buddyStore p n k l else s
    | none => s) s
  s.putMem k l

/-- Store bytes at a package-physical address; an address that names no memory takes nothing. -/
def State.storePa (s : State) (pa : Nat) (l : List Byte) : State :=
  match s.key? pa with
  | some k => s.putParts k l State.store
  | none => s

/-- Journal the line that holds a place of step state before its first C0 write in the step (13 R428). -/
def State.journal (s : State) (p line : Nat) : State :=
  let x := s.part p
  if x.undoOver || fmHas x.undo line || !(x.state == .running) || !s.isStepState p (line * 64) then s
  else
    let d := keyDie (line * 64)
    let used := (x.undo.filter fun e => keyDie (e.1 * 64) == d).length
    if used < s.journalBytes / 2 / 128 then
      s.setPart p { x with undo := fmSet x.undo line (Mem.readN s.mem (line * 64) 64) }
    else
      (s.setPart p { x with undoOver := true }).event 0x0D05 { part := some p, die := some d } []

/-- A write of draft traffic (C0): journalled, then stored (13 R428). -/
def State.c0Write (s : State) (p k : Nat) (l : List Byte) : State :=
  let s := (List.range ((k + l.length - 1) / 64 - k / 64 + 1)).foldl (fun s i => s.journal p (k / 64 + i)) s
  s.store k l

/-! ### Rollback and halt (13 R424 to R430, 02 R86) -/

/-- Stop a partition's draft in HALTED (02 Table 02-8). Outputs of committed steps stay held (R88). -/
def State.halt (s : State) (p : Nat) : State :=
  let x := s.part p
  if x.state = .halted then s
  else
    let s := s.setPart p { x with
      state := .halted, restoring := false, stalled := [], waiting := [], flight := [],
      held := x.held.filter (fun h => h.committed.isSome),
      heldTiles := x.heldTiles.filter (fun h => h.committed.isSome) }
    let s := if x.replay.on then s.odSet (0x2034 + p) 5 3 else s
    s.event 0x020C (ofPart p) [.word x.epoch.toNat]

/-- Host queue after a rollback: as it stood at the last commit, with what the host has been granted
and has released since (02 R81, R89). -/
def restoreQueue (commit cur : List QEnt) : List QEnt :=
  commit.map fun e =>
    match cur.find? (fun c => c.buf == e.buf && c.tick == e.tick) with
    | some c => { e with granted := e.granted || c.granted, released := e.released || c.released }
    | none => e

/-- Windows after a rollback: owners, buffers and release flags of the last commit (13 R426). -/
def restoreWins (commit cur : List WinSt) : List WinSt :=
  (List.range commit.length).map fun i =>
    let c := nth commit i { owner := .solver, bufs := [] }
    let n := nth cur i c
    { c with
      queue := restoreQueue c.queue n.queue, counted := [], writeBack := false, lastCounted := n.lastCounted,
      quorumCut := n.quorumCut }

/-- Clear what a step has in flight at the stations of a slot, and its flyer (03 R106). Whorl banks are empty and tile buffers
read +0 after it (05 R164, 06 R205). -/
def State.clearSlot (s : State) (n : Nat) : State :=
  let f := s.flyer n
  let s := s.setFlyer n { f with
    base := 0, last := 0, inCycle := 0, scalars := 0, pos := 0,
    sreg := f.sregCommit, sregErr := [], landing := [], msg := [] }
  { s with
    wire := s.wire.filter (fun c => c.n != n)
    stations := s.stations.filter (fun e => e.1 / 65536 != n),
    whorls := s.whorls.filter (fun e => e.1 / 32 != n),
    twists := s.twists.filter fun e => e.1 / 8 != n }

/-- Draft collectives of a partition are forgotten: a step restored, or a draft ended. -/
def State.dropDraftColls (s : State) (p : Nat) : State :=
  { s with coll := { s.coll with colls := s.coll.colls.filter fun e => !(e.2.draft && e.2.part == p) } }

/-! ### Buddy images (13 R431 to R437) -/

/-- L in bytes. -/
def State.buddyBytes (s : State) : Nat := s.odGet 0x8003 0 * 2 ^ 30

/-- The die whose stack an aperture of a buddy map entry names. -/
def State.apertureDie (s : State) (a : Nat) : Option Nat :=
  if a < 16 then s.dieOfSlot a else if a < 18 then s.spareDie a
  else if a < 22 ∧ ¬ s.cfg.lost.contains a then some a else none

/-- The memory key of image offset 0 of an image: aperture and place. -/
def State.imageKey (s : State) (target place : Nat) : Option Nat :=
  (s.apertureDie target).map fun d => stackKey d (place * s.buddyBytes)

/-- The images of a slot: primary then secondary, those present (13 Table 13-2). -/
def State.images (s : State) (n : Nat) : List (Nat × Nat) :=
  let e := s.odGet 0x8002 (n + 1)
  (if bit e 11 then [(bits e 4 0, bits e 10 5)] else []) ++
  (if bit e 23 then [(bits e 16 12, bits e 22 17)] else [])

/-- Image offset of a place of slot n's step state (13 R434). -/
def State.imageOff (s : State) (k : Nat) : Nat :=
  if k < 2 ^ 41 then k % 2 ^ 36 else s.buddyBytes - 2 ^ 30 + (k - 2 ^ 41) % 2 ^ 30

/-- The image of slot n that its state can be restored from: the first of a ready slot in a readable stack (13 R430,
R438 step 5). -/
def State.readableImage (s : State) (n : Nat) : Option (Nat × Nat) :=
  if s.odGet 0x8005 (n + 1) = 2 then
    (s.images n).find? fun i => (s.apertureDie i.1).isSome
  else none

/-- Committed bytes of a line of slot n's step state, from an image and the sealed delta (13 R430, R436). -/
def State.imageLine (s : State) (p n : Nat) (img : Nat × Nat) (line : Nat) : List Byte :=
  let b := ((s.imageKey img.1 img.2).getD 0) + s.imageOff (line * 64)
  let d := (fmGet (s.part p).buddy n {}).sealedDelta
  (List.range 64).map fun i =>
    match (d.filter fun e => e.1 == line * 64 + i).getLast? with
    | some e => e.2
    | none => Mem.read s.mem (b + i)

/-- Write the committed value of a persistent line that raised an uncorrectable error from its slot's buddy image,
raising LINE_REPAIRED (13 R430). -/
def State.repairLine (s : State) (p line : Nat) : State :=
  match s.persistSlot p (line * 64) with
  | none => s
  | some n =>
    match s.readableImage n with
    | none => s
    | some i =>
      { s with
        mem := Mem.writeN s.mem (line * 64) (s.imageLine p n i line)
        lines := fmDel s.lines line
        sramErr := s.sramErr.filter fun e => e.1 / 64 != line }.event 0x0D06 (s.ofSlot n) [.word (line * 64)]

/-- Write the bytes of the undo journal back (13 R428), then repair the persistent lines that raised an
uncorrectable error (13 R430). -/
def State.undoMemory (s : State) (p : Nat) : State :=
  let x := s.part p
  x.badLines.foldl (fun s line => s.repairLine p line)
    { s with mem := x.undo.foldl (fun m e => Mem.writeN m (e.1 * 64) e.2) s.mem }

/-- Memory key of a statistics record (04 R144); none for a tensor without a record. -/
def State.recKey (s : State) (n t : Nat) : Option Nat :=
  if t < 2048 then (s.dieOfSlot n).map fun d => sramKey d (histOff + 1024 * t) else none

/-- The statistics marks of a partition's slots are cleared. -/
def State.clearMarks (s : State) (p : Nat) : State :=
  { s with stats := s.stats.filter fun e => !(s.partSlots p).contains (e.1 / 65536) }

/-- Statistics after a rollback (04 R147): bins_cur, step_amax and w74 to w81 at their defaults. -/
def State.rollbackStats (s : State) (p : Nat) : State :=
  let s := s.clearMarks p
  let clear := fun (m : Mem) (k n : Nat) => (List.range n).foldl (fun m i => m.write (k + i) (memDefault (k + i))) m
  { s with mem := (s.partSlots p).foldl (fun m n =>
      (List.range 2048).foldl (fun m t =>
        match s.recKey n t with
        | some k => clear (clear (clear m k 256) (k + 576) 4) (k + 592) 64
        | none => m) m) s.mem }

/-- Restore a partition's step state to the last step commit: R424 steps 2 and 3. Cause bits as in
Table 12-7: 1 late gate, 2 taint, 4 detected fault, 8 vote. -/
def State.restoreStep (s : State) (p cause : Nat) : State :=
  let x := s.part p
  if x.undoOver then s.halt p
  else
    let s := (s.undoMemory p).rollbackStats p
    let s := ((s.draftSlots p).foldl (fun s n => s.clearSlot n) s).dropDraftColls p
    let x := s.part p
    let s := s.setPart p { x with
      slip := x.slipCommit, reused := 0, tainted := false, restoring := true, restoreCause := cause,
      stalled := [], waiting := [], stallSlip := 0, gatesDone := [], pauseUntil := .none,
      flight := [], left := [], taken := [], made := [], outs := [],
      wins := restoreWins x.winsCommit x.wins, resHigh := x.resHighCommit,
      held := x.held.filter (fun h => h.committed.isSome),
      heldTiles := x.heldTiles.filter (fun h => h.committed.isSome),
      sigOk := [], voteResult := .none, voteSent := false, undo := [], badLines := [],
      buddy := x.buddy.map (fun e => (e.1, { e.2 with delta := [] })),
      doff := x.doff.map fun d =>
        if x.doffStep && !d.slotState then { d with dir := [], next := 1048576 } else d }
    let s := s.event 0x020B (ofPart p) [.word x.epoch.toNat]
    let s := (s.clearGrants p).raiseIrqPart 17 p
    s.reel p 0x0A 2 [x.epoch.toNat + (cause <<< 48)]

/-- A rollback with a taint among its causes counts toward *taint_retry_limit* (10 R353). -/
def State.countTaint (s : State) (p : Nat) : State :=
  let x := s.part p
  let n := x.taintRolls + 1
  let s := s.setPart p { x with taintRolls := n }
  if n < s.odGet 0x7001 1 then s else s.halt p

/-- Begin or merge a rollback of the running step (02 R87, 10 R353, 13 R424). A tainted step adds its
cause. -/
def State.rollback (s : State) (p cause : Nat) : State :=
  let x := s.part p
  if x.state ≠ .running then s
  else
    let cause := if x.tainted then cause ||| 2 else cause
    let taints := bit cause 1 && !(x.restoring && bit x.restoreCause 1)
    let s := if x.restoring then s.setPart p { x with restoreCause := x.restoreCause ||| cause }
      else s.restoreStep p cause
    if taints then s.countTaint p
    else if x.restoring then s
    else s.setPart p { s.part p with taintRolls := 0 }

/-- Fault codes that name no die. -/
def spindleDie (d : Option Nat) : Bool := match d with | some d => decide (d < 18) | none => false

end Sys2Proof.Machine
end

