-- ==== Sys2Proof/Machine/Source.lean ====
section
/-! DEFINITION. Machine/Source.lean: skein paths (09 R307 to R309), the port a packet leaves by (09 R304; 11
R386, R388), and the requests of a source unit (09 R311, R312, R315, R316, R318, R323). -/

namespace Sys2Proof.Machine

/-! ### Paths (09 R307 to R309) -/

/-- Digit k of a skein path. -/
def digit (path k : Nat) : Nat := bits path (47 - 6 * k) (42 - 6 * k)

/-- The prefix of depth j of a path: the digits from j on become terminators. -/
def prefixOf (path j : Nat) : Nat := path / 2 ^ (48 - 6 * j) * 2 ^ (48 - 6 * j) + (2 ^ (48 - 6 * j) - 1)

/-- Depth of a path: its digits before the first terminator. -/
def depthOf (path : Nat) : Nat := ((List.range 8).find? fun k => digit path k == 0x3F).getD 8

/-- A path names something: no digit after a terminator, depth not 0 (R307). -/
def pathNames (path : Nat) : Bool :=
  decide (depthOf path ≠ 0) && prefixOf path (depthOf path) == path

/-- This package's path: OD 0x6001.00 (R308). -/
def State.ownPath (s : State) : Nat := s.odGet 0x6001 0 % 2 ^ 48

/-- The head in force of the package's skein of depth j (R309). -/
def State.skeinHead (s : State) (j : Nat) : Nat :=
  let h := s.odGet 0x6018 j % 2 ^ 48
  if s.fab.dead.contains h then s.odGet 0x6019 j % 2 ^ 48 else h

/-- Where a request to a path goes: to this package, to another, or nowhere (R307, R308). -/
inductive Route | here | away (path : Nat) | nowhere
  deriving DecidableEq, Repr

/-- A path that stands for a package. -/
def State.routePackage (s : State) (path : Nat) : Route :=
  if !pathNames path then .nowhere
  else if path = s.ownPath then .here
  else if depthOf path < depthOf s.ownPath then .nowhere
  else .away path

/-- Resolve a path: a skein that contains this package is served by its head. -/
def State.route (s : State) (path : Nat) : Route :=
  let j := depthOf path
  if pathNames path && decide (j < depthOf s.ownPath) && prefixOf s.ownPath j == path then
    s.routePackage (s.skeinHead j)
  else s.routePackage path

/-! ### Ports (R304; 11 R386, R388) -/

/-- A port carries traffic. -/
def PortState.usable : PortState → Bool
  | .up | .upSpared => true
  | _ => false

/-- Usable ports of a skein level; no C0 traffic goes on a compatibility port (R301). -/
def State.levelPorts (s : State) (c0 : Bool) (k : Nat) : List Nat :=
  (List.range 16).filter fun n =>
    let c := s.odGet 0x6002 (n + 1)
    (s.port n).state.usable && bits c 4 2 == k && !(c0 && bit c 1)

/-- The port set toward a path: that of the first digit in which it differs, else of the nearest lower level. -/
def State.portSet (s : State) (c0 : Bool) (dst : Nat) : List Nat :=
  let k := ((List.range 8).find? fun k => digit dst k != digit s.ownPath k).getD 8
  (((List.range (k + 1)).reverse.map (s.levelPorts c0)).find? fun l => !l.isEmpty).getD []

/-- The port a packet leaves by. -/
def State.portFor (s : State) (c0 : Bool) (dst unit : Nat) : Option Nat :=
  let l := s.portSet c0 dst
  l[(dst ^^^ unit) % l.length]?

/-- Flits of a packet with n bytes of data (R311). -/
def flitsOf (n : Nat) : Nat := if n ≤ 216 then 1 else 1 + ceilDiv (n - 216) 248

/-- Virtual channel of a packet (11 Table 11-4); a `coll_nak` names the direction of the chunk it answers, and goes the other way. -/
def vcOf (p : Packet) : Nat :=
  let down := bit (natOf (p.data.take 8)) 44
  if 0x80 ≤ p.op then 5 + p.cls
  else if p.op < 0x30 then 1 + p.cls
  else if p.cls = 0 then (if p.op = 0x36 ∨ (p.op = 0x31 ∧ down) then 1 else 0)
  else if p.op = 0x34 then (if down then 10 else 11)
  else if p.op = 0x33 ∨ (p.op ≠ 0x32 ∧ down) then 11 else 10

/-! ### The packet header (R311, Table 09-3) -/

/-- A field of a word: the value cut to its width, at its place. -/
def fieldAt (hi lo v : Nat) : Nat := (v % 2 ^ (hi + 1 - lo)) <<< lo

end Sys2Proof.Machine

namespace Sys2Proof
open Machine

/-- The four words of a packet's header; a response has its status and cause where a request has its length. -/
def Packet.header (k : Packet) : List Nat :=
  [fieldAt 47 0 k.dst + fieldAt 55 48 k.op + fieldAt 58 56 k.cls + fieldAt 60 59 k.lane + fieldAt 61 61 (b2n k.retry) +
     fieldAt 62 62 (b2n k.resync),
   fieldAt 47 0 k.addr +
     (if 0x80 ≤ k.op then fieldAt 55 48 k.status + fieldAt 63 56 k.cause
      else fieldAt 59 48 k.len + fieldAt 61 60 k.part + fieldAt 62 62 (b2n k.world)),
   fieldAt 47 0 k.src + fieldAt 63 48 k.unit,
   fieldAt 31 0 k.tag + fieldAt 47 32 k.gen + fieldAt 63 48 k.ord]

end Sys2Proof

namespace Sys2Proof.Machine

/-- The packet a header and its data are. -/
def packetOf (ws : List Nat) (data : List Byte) : Packet :=
  let w := fun i => nth ws i 0
  let resp := decide (0x80 ≤ bits (w 0) 55 48)
  { dst := bits (w 0) 47 0, op := bits (w 0) 55 48, cls := bits (w 0) 58 56, lane := bits (w 0) 60 59
    retry := bit (w 0) 61, resync := bit (w 0) 62, addr := bits (w 1) 47 0
    len := if resp then 0 else bits (w 1) 59 48
    part := if resp then 0 else bits (w 1) 61 60
    world := !resp && bit (w 1) 62
    status := if resp then bits (w 1) 55 48 else 0
    cause := if resp then bits (w 1) 63 56 else 0
    src := bits (w 2) 47 0, unit := bits (w 2) 63 48, tag := bits (w 3) 31 0, gen := bits (w 3) 47 32, ord := bits (w 3) 63 48
    data := data }

/-! ### Flits and credits (R292, R293, R300) -/

/-- A flit header (Table 09-1). -/
def flitHeader (ftype vc seq credit creditVc plen : Nat) : Nat :=
  fieldAt 3 0 ftype + fieldAt 7 4 vc + fieldAt 15 8 seq + fieldAt 23 16 credit + fieldAt 27 24 creditVc + fieldAt 35 28 plen

/-- Type of flit i of a packet of n flits. -/
def flitType (i n : Nat) : Nat := if n = 1 then 4 else if i = 0 then 1 else if i + 1 = n then 3 else 2

/-- A compatibility port has room in its replay buffer, and a native port needs none (R300). -/
def State.roomToReplay (s : State) (n : Nat) : Bool :=
  !bit (s.odGet 0x6002 (n + 1)) 1 || decide ((s.port n).replayBuf.length < 128)

/-- The next flit of a waiting packet leaves its port: its header with a credit return (R292), the credit it takes (R293),
the replay buffer (R300), the frame (11 R386) and the share (11 R395). -/
def State.sendFlit (s : State) (n : Nat) (e : Egress) : State × Egress :=
  let x := s.port n
  let total := flitsOf e.packet.data.length
  let ret := (x.owed.find? fun o => decide (0 < o.2)).getD (0, 0)
  let back := min 255 ret.2
  let h := flitHeader (flitType e.heads.length total) e.vc x.seq.toNat back ret.1 (if e.heads.isEmpty then total else 0)
  let s := s.setPort n { x with
    seq := x.seq + 1
    credits := fmSet x.credits e.vc (fmGet x.credits e.vc 0 - 1)
    owed := if back = 0 then x.owed else fmSet x.owed ret.1 (ret.2 - back)
    replayBuf := if bit (s.odGet 0x6002 (n + 1)) 1 then x.replayBuf ++ [x.seq] else []
    frameC0 := if e.cls = 0 then fmSet x.frameC0 (e.charge.getD 0) (fmGet x.frameC0 (e.charge.getD 0) 0 + 1) else x.frameC0
    frameC1 := if e.cls = 1 then x.frameC1 + 1 else x.frameC1 }
  let s := match e.cls, e.charge with
    | 0, _ | _, none => s
    | _, some p => s.odSet (0x3028 + p) 2 (s.odGet (0x3028 + p) 2 + 1)
  (s, { e with left := e.left - 1, heads := e.heads ++ [h] })

/-- C0 frame budget of a partition on a link: its part of 204 flits among the valid partitions (11 R386). -/
def State.frameBudget (s : State) (p : Nat) : Nat :=
  let ps := (List.range 4).filter s.partValid
  let sum := (ps.map fun p => s.odGet (0x3020 + p) 2).sum
  if s.partValid p ∧ sum ≠ 0 then 204 * s.odGet (0x3020 + p) 2 / sum else 0

/-- A C0 flit beyond its partition's budget in the running frame of a port waits for a following frame (11 R387). -/
def State.overFrame (s : State) (n : Nat) (e : Egress) : Bool :=
  e.cls == 0 && decide (s.frameBudget (e.charge.getD 0) ≤ fmGet (s.port n).frameC0 (e.charge.getD 0) 0)

/-- The flits of a packet leave while their channel has credits. -/
def State.sendFlits (s : State) (n : Nat) : Nat → Egress → State × Egress
  | 0, e => (s, e)
  | k + 1, e =>
    if e.left = 0 ∨ fmGet (s.port n).credits e.vc 0 = 0 ∨ !s.roomToReplay n ∨ s.overFrame n e then (s, e)
    else
      let (s, e) := s.sendFlit n e
      s.sendFlits n k e

/-- The order in which waiting packets leave a port (11 Table 11-3): C0, C1 within its 64 flits of the frame, C2 to C4, C1 beyond. -/
def sendOrder (frameC1 : Nat) (l : List Egress) : List Egress :=
  sortBy (fun e => if e.cls = 0 then 0 else if e.cls ≠ 1 then 2 else if frameC1 < 64 then 1 else 3) l

/-- The packets that wait at a port go as far as their credits reach, those of one channel in order (R293). -/
def State.drainPort (s : State) (n : Nat) : State :=
  let l := sendOrder (s.port n).frameC1 (s.port n).egress
  let (s, keep) := l.foldl (fun (a : State × List Egress) e =>
    if a.2.any fun b => b.vc == e.vc then (a.1, a.2 ++ [e])
    else
      let (s, e) := a.1.sendFlits n e.left e
      if e.left = 0 then (s.send (.packet { e.packet with flits := e.heads }), a.2) else (s, a.2 ++ [e])) (s, [])
  if l.isEmpty then s else s.setPort n { s.port n with egress := keep }

/-- Send a packet, charged to a member (11 R377): its flits leave as credits allow. Without a usable port it is lost (R305). -/
def State.sendPacket (s : State) (charge : Option Nat) (p : Packet) : State :=
  let s := if p.op < 0x80 then { s with fab := { s.fab with issued := true } } else s
  match s.portFor (p.cls == 0) p.dst p.unit with
  | none => s
  | some n =>
    let e : Egress := {
      vc := vcOf p, cls := p.cls, left := flitsOf p.data.length, charge := charge
      packet := { p with port := some n, words := p.header } }
    let s := s.setPort n { s.port n with egress := (s.port n).egress ++ [e] }
    s.drainPort n

/-- Send a roving tile to another package as a `roving_tile` packet (10 Table 10-10): 8 bytes of addressing,
then the record. -/
def State.sendTile (s : State) (p path slot roving index : Nat) (bytes : List Byte) : State :=
  s.sendPacket (some p) {
    dst := path, op := 0x37, cls := 0, part := p, world := s.partWorld p, src := s.ownPath, unit := 22 * 2048
    gen := s.odGet 0x6005 0
    data := bytesOf 8 (fieldAt 3 0 slot + fieldAt 15 4 roving + fieldAt 63 16 index) ++ bytes }

/-! ### Requests of a source unit (R315, R316, R318, R323) -/

def State.srcUnit (s : State) (u : Nat) : Source := fmGet s.fab.sources u {}
def State.setSrcUnit (s : State) (u : Nat) (x : Source) : State :=
  { s with fab := { s.fab with sources := fmSet s.fab.sources u x } }

end Sys2Proof.Machine

namespace Sys2Proof
open Machine

/-- A request that changes memory: store, atomic or ownership command (R316); a read of an ownership entry, which carries no
data, is a load (R327). -/
def Packet.isWrite (k : Packet) : Bool := k.op != 0x01 && !(k.op == 0x28 && k.data.isEmpty)

end Sys2Proof

namespace Sys2Proof.Machine

/-- Source unit of the steward (Table 09-3). -/
def stewardUnit : Nat := 30 * 2048 + 1

/-- The partition a source's traffic is charged to: the steward's is the system's (11 R377). -/
def chargeOf (p : Packet) : Option Nat := if p.unit % 2048 = 1 ∧ 30 ≤ p.unit / 2048 then none else some p.part

/-- Number a request and send it (R315, R316, R323). -/
def State.launch (s : State) (pkt : Packet) (dl : Deliver) : State :=
  let u := pkt.unit
  let x := s.srcUnit u
  let w := pkt.isWrite
  let ord := fmGet x.ord pkt.dst 0
  let pkt := { pkt with
    tag := x.tag.toNat
    gen := s.odGet 0x6005 0
    ord := if w then ord else 0
    resync := w && !x.synced.contains pkt.dst }
  let s := s.setSrcUnit u { x with
    tag := x.tag + 1
    ord := if w then fmSet x.ord pkt.dst ((ord + 1) % 65536) else x.ord
    synced := if w && !x.synced.contains pkt.dst then x.synced ++ [pkt.dst] else x.synced
    outstanding := fmSet x.outstanding x.tag.toNat { pkt := pkt, first := s.now, deliver := dl }
    issued := if w then fmSet x.issued pkt.dst (fmGet x.issued pkt.dst 0 + 1) else x.issued }
  s.sendPacket (chargeOf pkt) pkt

end Sys2Proof.Machine

namespace Sys2Proof
open Machine

/-- Two requests name the same line of the same package. -/
def Packet.sameLine (a b : Packet) : Bool :=
  a.dst == b.dst && decide (a.addr / 64 ≤ (b.addr + b.len - 1) / 64) && decide (b.addr / 64 ≤ (a.addr + a.len - 1) / 64)

end Sys2Proof

namespace Sys2Proof.Machine

/-- A store or atomic to the line of a load is unacknowledged (R318). -/
def Source.blocks (x : Source) (pkt : Packet) : Bool :=
  (x.outstanding.any fun e => e.2.pkt.isWrite && e.2.pkt.sameLine pkt) || x.held.any fun e => e.1.isWrite && e.1.sameLine pkt

/-- Issue a request to another package: a load waits behind a store or atomic to its line (R318), and every request while
4,096 are outstanding (R315). -/
def State.issueReq (s : State) (pkt : Packet) (dl : Deliver) : State :=
  let x := s.srcUnit pkt.unit
  if (!pkt.isWrite && x.blocks pkt) || decide (4096 ≤ x.outstanding.length) then
    s.setSrcUnit pkt.unit { x with held := x.held ++ [(pkt, dl)] }
  else s.launch pkt dl

/-! ### Fault records (R322) -/

/-- The hart of a source unit. -/
def hartOfUnit (u : Nat) : Option Nat :=
  if 18 ≤ u / 2048 ∧ u / 2048 < 22 ∧ u % 2048 < 64 then some ((u / 2048 - 18) * 64 + u % 2048) else none

/-- Source unit of a hart. -/
def hartUnit (h : Nat) : Nat := hartDie h * 2048 + h % 64

/-- Write one fault record into the ring of partition p, and raise local interrupt 18 at a hart. -/
def State.faultRecord (s : State) (p addr cause status path op tag unit : Nat) : State :=
  let head := s.odGet (0x6044 + p) 0
  let r := addr % 2 ^ 48 + (cause <<< 48) + (status <<< 56) + ((path % 2 ^ 48 + (op <<< 48)) <<< 64) +
    ((tag % 2 ^ 32 + ((unit % 65536) <<< 32)) <<< 128) + ((s.tickOf (some p) % 2 ^ 64) <<< 192)
  let o := 256 * (head % 256)
  let s := (s.odSet (0x6040 + p) 0 (setBits (s.odGet (0x6040 + p) 0) (o + 255) o r)).odSet (0x6044 + p) 0
    ((head + 1) % 2 ^ 32)
  match hartOfUnit unit with
  | some h => if (s.hart h).mie.toNat.testBit 18 then s.raiseIrq 18 h else s
  | none => s

/-- A store to a dead package completes at once (R320, R321): it takes its tag and no more. -/
def State.storeDead (s : State) (pkt : Packet) : State :=
  let x := s.srcUnit pkt.unit
  let s := s.setSrcUnit pkt.unit { x with tag := x.tag + 1 }
  let s := s.faultRecord pkt.part pkt.addr 1 3 pkt.dst pkt.op x.tag.toNat pkt.unit
  (s.event 0x0909 noOne [.word pkt.dst]).event 0x0908 noOne [.half x.tag.toNat]

/-! ### Stores of the steward (R312) -/

/-- Bytes of the next request of an access at an address with so many bytes left (R312): lines from a line on, else an aligned
access. -/
def pieceLen (a n : Nat) : Nat :=
  if a % 64 = 0 ∧ 64 ≤ n then min 512 (n / 64 * 64)
  else if a % 8 = 0 ∧ 8 ≤ n then 8
  else if a % 4 = 0 ∧ 4 ≤ n then 4
  else if a % 2 = 0 ∧ 2 ≤ n then 2
  else 1

/-- Offsets and lengths of the requests of an access: at most so many. -/
def pieces (a : Nat) : Nat → Nat → Nat → List (Nat × Nat)
  | 0, _, _ => []
  | k + 1, off, n => if n = 0 then [] else (off, pieceLen (a + off) n) :: pieces a k (off + pieceLen (a + off) n) (n - pieceLen (a + off) n)

/-- Stores of a byte string to another package. -/
def State.issueStores (s : State) (base : Packet) (l : List Byte) : State :=
  (pieces base.addr l.length 0 l.length).foldl (fun s e =>
    let d := (l.drop e.1).take e.2
    let pkt := { base with addr := base.addr + e.1, len := d.length, data := d }
    if s.fab.dead.contains pkt.dst then s.storeDead pkt else s.issueReq pkt .none) s

end Sys2Proof.Machine
end

