-- ==== Sys2Proof/Machine/DraftOps.lean ====
section
/-! DEFINITION. Machine/DraftOps.lean: reading a draft image (02 R68 to R71, 03 R102, R110, R125) and
the passage of draft ticks (02 R75, R90, R91; 03 R111, R124). -/

namespace Sys2Proof.Machine

/-! ### Header fields (02 Table 02-3) -/

def Draft.w (d : Draft) (i : Nat) : Nat := nth d.hdr i 0
def Draft.partition (d : Draft) : Nat := bits (d.w 0) 49 48
def Draft.slotMask (d : Draft) : Nat := bits (d.w 1) 15 0
def Draft.groupMask (d : Draft) : Nat := bits (d.w 1) 31 16
def Draft.stepTicks (d : Draft) : Nat := bits (d.w 1) 47 32
def Draft.headroom (d : Draft) : Nat := bits (d.w 1) 55 48
def Draft.variants (d : Draft) : Nat := bits (d.w 1) 63 56
def Draft.tickPeriod (d : Draft) : Nat := bits (d.w 2) 31 0
def Draft.clockMhz (d : Draft) : Nat := bits (d.w 2) 43 32
def Draft.packages (d : Draft) : Nat := bits (d.w 2) 63 48
def Draft.stepCount (d : Draft) : Nat := bits (d.w 3) 31 0
def Draft.gateCount (d : Draft) : Nat := bits (d.w 3) 39 32
def Draft.windowCount (d : Draft) : Nat := bits (d.w 3) 46 40
/-- Section offset i of w8 to w11. -/
def Draft.section_ (d : Draft) (i : Nat) : Nat := bits (d.w (8 + i / 2)) (32 * (i % 2) + 31) (32 * (i % 2))
/-- The slots the draft uses, ascending. -/
def Draft.slots (d : Draft) : List Nat := maskBits 16 d.slotMask

/-- Nominal arithmetic cycles of a tick, C of R90. -/
def Draft.cycles (d : Draft) : Nat := d.tickPeriod * d.clockMhz / 100
/-- The scheduled span of a tick (R90). -/
def Draft.span (d : Draft) : Nat := d.cycles * (100 - d.headroom) / 100

/-- Side of an owner code. -/
def sideOf : Nat → Side
  | 0 => .solver | 1 => .spindle | _ => .host

/-- Code of a side (02 Table 02-4). -/
def Side.code : Side → Nat
  | .solver => 0 | .spindle => 1 | .host => 2

/-- A window table entry of two words. -/
def readWindow (w0 w1 : Nat) : WinDesc :=
  ⟨bits w0 47 0, bits w0 59 48, sideOf (bits w1 1 0), bit w1 2, bits w1 6 3⟩

/-- A gate table entry of two words. -/
def readGate (w0 w1 : Nat) : GateDesc :=
  ⟨bits w0 31 0, bits w0 47 32, bits w0 53 48, sideOf (bits w0 55 54), sideOf (bits w0 57 56),
   bits w0 59 58, bits w1 15 0⟩

/-- A station word as the package reads it (03 R93): class and index; any value in its reserved bits [11:6] is ignored
(00 R11). -/
def stationOf (w : Nat) : Nat := w / 4096 * 4096 + w % 64

/-- A roving declaration of eight words (03 Table 03-4). -/
def readRoving (w : List Nat) : Roving :=
  let g := fun i => nth w i 0
  { srcStation := stationOf (bits (g 0) 15 0), srcSlot := bits (g 0) 19 16, dstSlot := bits (g 0) 23 20,
    dstStation := stationOf (bits (g 0) 39 24), format := bits (g 0) 45 40, tensor := bits (g 0) 63 48,
    count := bits (g 1) 31 0, interval := bits (g 1) 47 32, startTick := bits (g 1) 63 48,
    startCycle := bits (g 2) 31 0, remoteRoving := bits (g 2) 43 32, ring := bits (g 2) 59 44,
    srcAddr := bits (g 3) 47 0, dstAddr := bits (g 4) 47 0,
    firstIndex := bits (g 3) 63 48 + (bits (g 4) 63 48 <<< 16),
    remotePath := bits (g 5) 47 0, remoteSlot := bits (g 5) 51 48 }

/-- Bytes lo up to hi of an image. -/
def slice (l : List Byte) (lo hi : Nat) : List Byte := (l.drop lo).take (hi - lo)

/-- Section i of an image: up to the next section, the variants section up to the trailer (R69). -/
def Draft.sectionBytes (d : Draft) (i : Nat) : List Byte :=
  slice d.image (d.section_ i) (if i = 6 then d.image.length - 64 else d.section_ (i + 1))

/-- The trailer digest. -/
def Draft.digest (d : Draft) : List Byte := d.image.drop (d.image.length - 64)

/-- Read an image: header, then gate table, window table and rovings in full. -/
def readDraft (image : List Byte) : Draft :=
  let hdr := wordsOf (image.take 128)
  let d : Draft := ⟨image, hdr, [], [], []⟩
  let gw := wordsOf (d.sectionBytes 3)
  let ww := wordsOf (d.sectionBytes 4)
  let rw := wordsOf (d.sectionBytes 0)
  { d with
    gates := (List.range d.gateCount).map (fun i => readGate (nth gw (2 * i) 0) (nth gw (2 * i + 1) 0)),
    wins := (List.range d.windowCount).map (fun i => readWindow (nth ww (2 * i) 0) (nth ww (2 * i + 1) 0)),
    rovs := (List.range (rw.length / 8)).map (fun i => readRoving ((rw.drop (8 * i)).take 8)) }

/-- A stall-capable gate (02 Table 02-5, 03 R125). -/
def GateDesc.stallCapable (g : GateDesc) : Bool := g.policy == 0 && !(g.src == .spindle)

/-- Signature section of variant v (03 R125). -/
def Draft.sigSection (d : Draft) (v : Nat) : List Byte :=
  if v = 0 then d.sectionBytes 5
  else
    let e := (d.sectionBytes 6).drop (48 * (v - 1))
    let off := natOf ((e.drop 32).take 8)
    slice d.image off (off + natOf ((e.drop 40).take 8))

/-- Command-stream section of variant v. -/
def Draft.streamSection (d : Draft) (v : Nat) : List Byte :=
  if v = 0 then d.sectionBytes 1
  else
    let e := (d.sectionBytes 6).drop (48 * (v - 1))
    let off := natOf (e.take 8)
    slice d.image off (off + natOf ((e.drop 8).take 8))

/-- Sequencer section of variant v. -/
def Draft.seqSection (d : Draft) (v : Nat) : List Byte :=
  if v = 0 then d.sectionBytes 2
  else
    let e := (d.sectionBytes 6).drop (48 * (v - 1))
    let off := natOf ((e.drop 16).take 8)
    slice d.image off (off + natOf ((e.drop 24).take 8))

/-- Stall-capable gates of a draft tick, in table order. -/
def Draft.stallGates (d : Draft) (tick : Nat) : List Nat :=
  (List.range d.gates.length).filter fun i =>
    match d.gates[i]? with | some g => g.tick == tick && g.stallCapable | none => false

/-- Signature entries of one slot before its draft tick's own (R125). -/
def Draft.sigBefore (d : Draft) (tick : Nat) : Nat :=
  ((List.range tick).map fun k => (d.stallGates k).length + 1).sum

/-- Signature entry of a slot and draft tick: the j-th prefix, or the full one for j equal to their number. -/
def Draft.signature (d : Draft) (v slot tick j : Nat) : List Byte :=
  let rank := (d.slots.filter fun n => decide (n < slot)).length
  let i := rank * d.sigBefore d.stepTicks + d.sigBefore tick + j
  slice (d.sigSection v) (32 * i) (32 * i + 32)

/-- Rank of a slot among the draft's slots. -/
def Draft.slotRank (d : Draft) (slot : Nat) : Nat := (d.slots.filter fun n => decide (n < slot)).length

/-- The commands an index entry of a stream or sequencer section names: 128-bit words (03 R110, 10 R584). -/
def entryWords (sec : List Byte) (i : Nat) : List Nat :=
  let e := (sec.drop (8 * i)).take 8
  let off := natOf (e.take 4)
  let n := natOf (e.drop 4)
  if n = 0 then [] else (chunksOf 16 n (sec.drop off)).map natOf

/-- Commands of a slot's draft tick in variant v, in stream order. -/
def Draft.commands (d : Draft) (v slot tick : Nat) : List Nat :=
  entryWords (d.streamSection v) (d.slotRank slot * d.stepTicks + tick)

/-- Sequencer entries of fabric die f in a draft tick, variant v. -/
def Draft.sequence (d : Draft) (v f tick : Nat) : List Nat :=
  entryWords (d.seqSection v) (f * d.stepTicks + tick)

/-! ### Draft ticks (02 R75, R91; 03 R111, R124) -/

/-- The first bytes of M of a draft tick (03 R124). -/
def msgHead (slot tick variant : Nat) : List Byte :=
  [0x46, 0x4C, 0x59, 0x31, BitVec.ofNat 8 slot] ++ bytesOf 2 tick ++ [BitVec.ofNat 8 variant]

/-- Results that have landed by draft cycle dc (03 R119): later commands prevail. A result that writes the whole register
writes its check bits too, so that an error of the register is gone (03 R123). -/
def Flyer.land (f : Flyer) (dc : Nat) : Flyer :=
  { f with
    sregErr := (f.landing.filter fun e => decide (e.1 ≤ dc) && e.2.2.2 == BitVec.allOnes 64).foldl (fun m e => fmDel m e.2.1) f.sregErr
    sreg := (f.landing.filter fun e => decide (e.1 ≤ dc)).foldl (fun m e =>
      fmSet m e.2.1 ((fmGet m e.2.1 0 &&& ~~~ e.2.2.2) ||| (e.2.2.1 &&& e.2.2.2))) f.sreg,
    landing := f.landing.filter fun e => !decide (e.1 ≤ dc) }

/-- Start a draft tick at the flyers of a partition's draft slots. -/
def State.beginFlyers (s : State) (p tick : Nat) : State :=
  (s.draftSlots p).foldl (fun s n =>
    let f := (s.flyer n).land (2 ^ 64)
    s.setFlyer n { f with
      base := 0, last := 0, inCycle := 0, scalars := 0, pos := 0,
      msg := msgHead n tick (s.part p).variant, prev := f.msg }) s

/-- Draft tick k of partition p begins at a time, with a lag. -/
def State.beginDraftTick (s : State) (p k time lag : Nat) : State :=
  let s := s.setPart p { s.part p with
    stepTick := k, tickBegan := time, stepOver := false, lag := lag, gatesDone := [] }
  s.beginFlyers p k

/-- Whether the draft of p can begin another draft tick: it runs, and issue is not stopped. -/
def Part.issuing (x : Part) : Bool :=
  x.state == .running && !x.restoring && x.stalled.isEmpty && x.waiting.isEmpty && x.pauseUntil.isNone

/-! ### Doff areas (13 R450, R453) -/

/-- The skein path and address a doff area object holds. -/
def State.doffArea (s : State) (p i : Nat) : Nat × Nat :=
  let v := s.odGet (0x8050 + p) (5 + i)
  (v % 2 ^ 48, v / 2 ^ 64 % 2 ^ 48)

/-- Store doff bytes at an offset of an area's half: into memory when the area lies on this package,
else as a C3 store to its package (13 R453). -/
def State.doffStore (s : State) (p i half off : Nat) (l : List Byte) : State :=
  let (path, base) := s.doffArea p i
  let a := base + half * (s.odGet (0x8050 + p) 7 / 2) + off
  if path = s.ownPath then s.writePa a l
  else s.issueStores {
    dst := path, op := 2, cls := 3, addr := a, part := p, world := s.partWorld p, src := s.ownPath,
    unit := stewardUnit } l

/-- Store doff bytes in both areas. -/
def State.doffStoreBoth (s : State) (p half off : Nat) (l : List Byte) : State :=
  (s.doffStore p 0 half off l).doffStore p 1 half off l

/-- What a step does not inherit: bank contents and set-up, held tiles, tile buffers (05 R164, R168; 06 R205),
the counts of its rovings' tiles. -/
def State.clearScratch (s : State) (p : Nat) : State :=
  let x := s.part p
  let mine := fun (n : Nat) => (s.draftSlots p).contains n
  let s := s.setPart p { x with left := [], taken := [], made := [], outs := [] }
  { s with
    whorls := s.whorls.filter (fun e => !mine (e.1 / 32))
    twists := s.twists.map fun e =>
      if mine (e.1 / 8) then (e.1, { ords := e.2.ords, stage1Free := e.2.stage1Free }) else e }

/-- Begin a step: a doff step opens its generation with zeros over the commit record, or is skipped
while a generation is still being written (R453 step 1, R454). -/
def State.beginStep (s : State) (p : Nat) : State :=
  let x := s.part p
  if !x.doffNext then s.setPart p { x with doffStep := false }
  else if x.doff.isSome then
    (s.setPart p { x with doffStep := false, doffNext := false }).event 0x0D12 (ofPart p) []
  else
    let g := s.odGet (0x8050 + p) 3 + 1
    let half := g % 2
    let s := s.doffStoreBoth p half (256 + 32 * fmGet x.doffDirs half 0) (List.replicate 64 0)
    let s := s.setPart p { s.part p with
      doffStep := true
      doffNext := false
      doff := some { generation := g, epoch := x.epoch.toNat } }
    s.odSet (0x8050 + p) 4 1

/-- Cadence tick scheduled for draft tick k of the running step: slip moves it (R75, R84). -/
def Part.schedTick (x : Part) (k : Nat) : Nat := x.sched + k + (x.slip - x.slipCommit)

/-- The next draft tick of a partition: its number and cadence tick; none while the step waits for its
commit. -/
def Part.nextTick (x : Part) (d : Draft) : Option Nat :=
  if x.stepOver then some 0 else if x.stepTick + 1 < d.stepTicks then some (x.stepTick + 1) else none

/-- Begin every draft tick that is due by now. A draft tick begins at its scheduled boundary, or, under
lag, as soon as the span before has run and the step before has committed (R91); its lag is the
delay against that boundary. -/
def State.advance (s : State) (p : Nat) : Nat → State
  | 0 => s
  | n + 1 =>
    let x := s.part p
    match x.draft with
    | none => s
    | some d =>
      match x.nextTick d with
      | none => s
      | some k =>
        let sched := x.schedTick k
        let ran := max (x.tickBegan + d.span * s.cycleUnits) (if k = 0 then x.commitAt else 0)
        let at_ := if s.cad.tick.toNat = sched then max ran s.cad.tickStart else ran
        if x.issuing && decide (sched ≤ s.cad.tick.toNat) && decide (at_ ≤ s.now) then
          let late : Int := ((at_ : Int) - s.cad.tickStart) / s.cycleUnits
          let lag := (((s.cad.tick.toNat - sched) * d.cycles : Nat) + late).toNat
          let s := if k = 0 then (s.beginStep p).clearScratch p else s
          (s.beginDraftTick p k at_ lag).advance p n
        else s

/-- Bring a partition's draft position up to now. -/
def State.syncDraft (s : State) (p : Nat) : State := s.advance p 65536

/-- The current draft cycle of p's draft tick at now, capped at the 32 bits the flyer counts. -/
def State.draftCycle (s : State) (p : Nat) : Nat := (s.now - (s.part p).tickBegan) / s.cycleUnits

end Sys2Proof.Machine
end

