-- ==== Sys2Proof/Machine/Cadence.lean ====
section
/-! DEFINITION. Machine/Cadence.lean: the cadence unit (02 R55 to R66; 12 R410; 18 R577). -/

namespace Sys2Proof.Machine

/-- Write the cadence unit. -/
def State.setCad (s : State) (c : Cadence) : State := { s with cad := c }

/-- Code of a source and of a state (02 Table 02-2). -/
def CadSource.code : CadSource → Nat | .none => 0 | .inBand => 1 | .pps => 2 | .treadle => 3
def CadState.code : CadState → Nat | .unlocked => 0 | .acquiring => 1 | .locked => 2 | .holdover => 3

/-- The port in use for in-band time: the lowest-numbered on which valid messages of the master arrived (R57). DESIGN
CHOICE (log 51): a port counts as one until it leaves service; the manual gives no time after which silence ends that. -/
def InBand.port (i : InBand) : Option Nat := (maskBits 16 i.ports).head?

/-- OD 0x2002.01 cadence_status (R66). -/
def State.cadenceStatus (s : State) : Nat :=
  let c := s.cad
  c.state.code + (c.source.code <<< 3) + (b2n c.masterFx1 <<< 6) + (b2n c.standbyReady <<< 7)
    + (b2n c.treadle.inRange <<< 8) + (c.inBand.port.getD 0 <<< 9) + (b2n c.inBand.port.isSome <<< 13)

/-- Skein level a port serves, and whether it is enabled (Table 09-12). -/
def State.portLevel (s : State) (n : Nat) : Nat := bits (s.odGet 0x6002 (n + 1)) 4 2
def State.portEnabled (s : State) (n : Nat) : Bool := bit (s.odGet 0x6002 (n + 1)) 0

/-- Stage 7 has begun since cold reset: ports train and the cadence unit acquires (17 R553). -/
def State.trains (s : State) : Bool := s.boot.reached9 || decide (7 ≤ s.boot.stage)

/-- Training begins on every enabled port (09 R298, R334). -/
def State.startTraining (s : State) : State :=
  forN 16 s fun s n =>
    if s.portEnabled n ∧ !s.cfg.lost.contains (22 + n / 2) ∧ (s.port n).state = .disabled then
      { s.setPort n { s.port n with state := .training, downSince := 0 } with fab := { s.fab with trained := true } }
    else s

/-- A training attempt of every enabled port has ended (09 R298). -/
def State.portsTrained (s : State) : Bool :=
  (List.range 16).all fun n => !s.portEnabled n || s.cfg.lost.contains (22 + n / 2) ||
    ((s.port n).state != .disabled && (s.port n).state != .training)

/-- Stage 7 ends (17 R553): with no source enabled the cadence unit runs free from here on (R63); link training begins
when the host port has left reset. -/
def State.closeStage7 (s : State) : State :=
  let b := s.boot
  let up := b.perstAt.isSome
  let c := s.cad
  { s with
    boot := { b with
      stage := 8, times := fmSet b.times 7 s.now, cxlState := if up then 1 else 0, cxlTried := s.now }
    cad :=
      if s.odGet 0x2001 1 = 0 ∧ ¬ c.everLocked ∧ ¬ c.freeRun then
        { c with freeRun := true, tickStart := s.now, tickLen := s.tickPeriod }
      else c }

/-- Stage 7 ends when every enabled port has trained and the cadence unit is LOCKED. -/
def State.endStage7 (s : State) : State :=
  if s.boot.stage = 7 ∧ s.cad.state = .locked ∧ s.portsTrained then s.closeStage7 else s

/-- A replaying partition takes the cadence from its stream: no external source (12 R419). -/
def State.replaying (s : State) : Bool := (List.range 4).any fun p => (s.part p).replay.on

/-- Whether a source is enabled and healthy (R56 to R59). -/
def State.sourceHealthy (s : State) : CadSource → Bool
  | .none => false
  | .inBand => bit (s.odGet 0x2001 1) 0 && s.cad.inBand.port.isSome && !s.cad.inBand.refused
  | .pps => bit (s.odGet 0x2001 1) 1 && s.cad.pps.ref10m && s.cad.pps.healthy &&
      100000000 % s.tickPeriod == 0
  | .treadle => bit (s.odGet 0x2001 1) 2 && s.cad.treadle.healthy

/-- The highest-priority enabled healthy source (R56). -/
def State.bestSource (s : State) : CadSource :=
  if s.replaying then .none
  else if s.sourceHealthy .inBand then .inBand
  else if s.sourceHealthy .pps then .pps
  else if s.sourceHealthy .treadle then .treadle
  else .none

/-- Length the selected source calls for, in 10 ns (R60): the nominal period, or the measured treadle period divided by K
and rounded (R59); holdover keeps the last one measured (R61), and a free-running unit makes ticks of *tick_period* (R63). -/
def State.nominalLen (s : State) : Nat :=
  let k := s.odGet 0x2001 4 * unitsPer10ns
  match s.cad.source with
  | .treadle => if s.cad.treadle.period = 0 ∨ k = 0 then s.tickPeriod else (2 * s.cad.treadle.period + k) / (2 * k)
  | .none => if s.cad.state = .holdover then s.cad.holdLen else s.tickPeriod
  | _ => s.tickPeriod

/-- Acquisition starts on a new source. Before the first LOCKED tick no boundary is issued, so the ticks that are counted
toward lock start here (R60, R63). -/
def State.acquire (s : State) (b : CadSource) : State :=
  let c := { s.cad with
    source := b, state := .acquiring, lockCount := 0, holdSince := .none, holdRaised := false, freeRun := false }
  s.setCad (if c.everLocked then c else { c with tickStart := s.now, tickLen := s.tickPeriod })

/-- Follow the selection of R56: a new source starts acquisition with CADENCE_SOURCE_CHANGE, none
left means holdover after the first LOCKED tick (R60, R61, R63). -/
def State.selectSource (s : State) : State :=
  let c := s.cad
  let b := s.bestSource
  if b = c.source ∨ c.dead ∨ ¬ s.trains then s
  else if b = .none then
    if c.everLocked then
      (s.setCad { c with
        source := .none, lastSource := c.source, state := .holdover, holdSince := some s.now,
        holdRaised := false, lockCount := 0, holdLen := s.nominalLen }).event 0x0204 noOne []
    else s.setCad { c with source := .none, state := .unlocked, lockCount := 0 }
  else if c.holdSince.isSome ∧ c.lastSource = b then s.acquire b
  else (s.acquire b).event 0x0202 noOne []

/-- Whether the unit makes its ticks, issued or only counted toward lock (R63). -/
def Cadence.ticks (c : Cadence) : Bool :=
  !c.dead && (c.everLocked || c.freeRun || c.state == .acquiring)

/-- The instant at which the tick that runs ends (R60). -/
def Cadence.due (c : Cadence) : Nat := c.tickStart + c.tickLen * unitsPer10ns

/-- A distance on a grid of period p, from the nearest grid point: -p/2 to p/2. -/
def centred (x : Int) (p : Nat) : Int := if p = 0 then 0 else (x + (p / 2 : Nat)) % (p : Int) - (p / 2 : Nat)

/-- Phase error of a boundary at time b against the selected source, in time units; above 0 the boundary is late. Against
CAD_1PPS the source's ticks stand at each rising edge and every *tick_period* after it (R58); against the treadle, at the
selected edge plus *treadle_offset* and every 1/K of the period after it (R59); in-band it is the error last measured with
the corrections made since (R57). Without a source there is none. -/
def State.phaseAt (s : State) (b : Nat) : Int :=
  let c := s.cad
  match c.source with
  | .none => 0
  | .inBand => centred (c.inBand.phasePs * 42 / 1000) (s.tickPeriod * unitsPer10ns)
  | .pps => match c.pps.last with
    | some e => centred ((b : Int) - e) (s.tickPeriod * unitsPer10ns)
    | none => 0
  | .treadle => match c.treadle.last with
    | some e =>
      let k := s.odGet 0x2001 4
      if k = 0 then 0
      else centred (k * ((b : Int) - e - s.odGet 0x2001 5 * unitsPer10ns)) c.treadle.period / k
    | none => 0

/-- Change of the next tick's length that takes a phase error away, in 10 ns: limited to 0.1% of the nominal period once
ticks are issued (R60). -/
def State.correction (s : State) (phase : Int) : Int :=
  let x := -((2 * phase + unitsPer10ns) / (2 * unitsPer10ns))
  let m : Int := (s.tickPeriod / 1000 : Nat)
  if s.cad.everLocked then max (-m) (min m x) else x

/-- Byte offset of the next record of a type and tick in p's replay stream (12 R419), from a cursor. -/
def State.replayFind (s : State) (p type : Nat) (tick : Option Nat) : Nat → Nat → Option Nat
  | 0, _ => none
  | n + 1, off =>
    let a := s.odGet (0x2034 + p) 4 + off
    let w0 := s.readPa64 a
    let units := bits w0 15 8
    if units = 0 then none
    else if bits w0 7 0 = type ∧ (tick = none ∨ tick = some (s.readPa64 (a + 8))) then some off
    else s.replayFind p type tick n (off + 32 * units)

/-- Records of a replay stream looked through for one match. -/
def replayFuel : Nat := 1000000

/-- Payload word i of a stream record. -/
def State.replayWord (s : State) (p off i : Nat) : Nat := s.readPa64 (s.odGet (0x2034 + p) 4 + off + 32 + 8 * i)

/-- Length and correction of the tick that begins with a phase error: the clock partition's TICK record in replay (12 R419),
else the source's length with its correction (R60); holdover and free run have none. -/
def State.tickLength (s : State) (phase : Int) : Nat × Int :=
  let q := s.odGet 0x2030 5
  if s.replaying && (s.part q).replay.on then
    match s.replayFind q 2 (some (s.tickOf (some q) + 1)) replayFuel 0 with
    | some o => (bits (s.replayWord q o 0) 31 0, 0)
    | none => (s.nominalLen, 0)
  else
    let x := if s.cad.source = .none then 0 else s.correction phase
    (((s.nominalLen : Int) + x).toNat, x)

/-- Count a tick toward lock (R61, R63): within ±50 ns, or any tick of a free-running unit. -/
def Cadence.countLock (c : Cadence) (phase : Int) : Nat :=
  if (c.freeRun && c.source == .none) || decide (phase.natAbs ≤ 50 * unitsPerNs) then min 16 (c.lockCount + 1) else 0

/-- Port n carries in-band time: UP or UP_SPARED, `ptp` 1 and no compatibility mode (R57, 09 R301). -/
def State.ptpPort (s : State) (n : Nat) : Bool :=
  let c := s.odGet 0x6002 (n + 1)
  ((s.port n).state == .up || (s.port n).state == .upSpared) && bit c 5 && !bit c 1

/-- The rack master's Sync and Follow_Up on every port that carries in-band time, with its tick counter and period (R57).
DESIGN CHOICE (log 52): a LOCKED package that has no master of its own is one, and sends them at every boundary. -/
def State.sendSyncs (s : State) : State :=
  if s.cad.state = .locked ∧ s.odGet 0x2001 8 % 2 ^ 48 = noPath then
    ((List.range 16).filter s.ptpPort).foldl (fun s n =>
      (s.send (.ptp n 0 s.cad.tick.toNat s.tickPeriod)).send (.ptp n 1 s.cad.tick.toNat s.tickPeriod)) s
  else s

/-- Everything an issued tick boundary sets off: the TICK records, in-band time for followers and the draft ticks of every
partition. -/
def State.issueBoundary (s : State) : State :=
  let s := s.reelAll 2 2 [s.cad.tickLen % 2 ^ 32 + ((s.cadenceStatus % 256) <<< 32)]
  forN 4 s.sendSyncs fun s p => s.syncDraft p

/-- The master's counter at a boundary at time b, from its last message (R62). DEDUCED (log 53). -/
def State.masterCount (s : State) (b : Nat) : Nat :=
  s.cad.inBand.masterTick + ceilDiv (b - s.cad.inBand.masterAt) (max 1 (s.tickPeriod * unitsPer10ns))

/-- The non-master of FX0 and FX1 tracks every boundary: it is not lost, and has not handed the master over (R64, R66). -/
def State.standbyTracks (s : State) : Bool := !s.cad.masterFx1 && !s.cfg.lost.contains 23

/-- A would-be in-band lock to a master with another count is refused (R62). -/
def State.refuseCount (s : State) : State :=
  ((s.setCad { s.cad with lockCount := 0, inBand := { s.cad.inBand with refused := true } }).event 0x0206 noOne []).selectSource

/-- One tick of the cadence unit that ends at time b (R60 to R63): the phase is measured, the next length corrected, and
the tick counted. From the first LOCKED tick on, every tick is issued and adds 1 to the counter. CADENCE_LOCK is raised at
the tick that reports LOCKED; DEDUCED (log 54): also at the 16th tick of a free-running unit. -/
def State.tickCore (s : State) (b : Nat) : State :=
  let c := s.cad
  let phase := s.phaseAt b
  let l := s.tickLength phase
  let n := c.countLock phase
  let locksNow := (c.state == .acquiring || (c.freeRun && !c.everLocked)) && n == 16
  let count := s.masterCount b
  let s := s.odSet 0x2002 2 (ofSigned 32 (phase / unitsPerNs))
  let c : Cadence := { c with
    tickStart := b, tickLen := l.1, lockCount := n,
    inBand := { c.inBand with phasePs := if c.source = .inBand then c.inBand.phasePs + 10000 * l.2 else c.inBand.phasePs } }
  if c.everLocked then
    let other := locksNow && c.source == .inBand && BitVec.ofNat 64 count != c.tick + 1
    let s := s.setCad { c with tick := c.tick + 1, state := if locksNow && !other then .locked else c.state }
    let s := if other then s.refuseCount else if locksNow then s.event 0x0203 noOne [] else s
    s.issueBoundary.endStage7
  else if locksNow then
    let first := if c.source = .inBand then count else s.odGet 0x2001 7
    let s := s.setCad { c with
      tick := BitVec.ofNat 64 first, everLocked := true, state := .locked, standbyReady := s.standbyTracks }
    (s.event 0x0203 noOne []).issueBoundary.endStage7
  else s.setCad c

/-- Health of the CAD_1PPS source after a rising edge (R58): an edge within 1 s ± 1 ms of the one before, with CAD_REF10M
in range, counts toward the 16 a source needs; a late edge and an input out of range make the source unhealthy, an early
edge only starts the count again (DEDUCED, log 55: R58 names silence and range as what ends health). -/
def PpsIn.edge (q : PpsIn) (now : Nat) (ref10mOk : Bool) : PpsIn :=
  let late := match q.last with
    | some x => decide (unitsPerSec + unitsPerMs < now - x)
    | none => true
  let early := match q.last with
    | some x => decide (now - x < unitsPerSec - unitsPerMs)
    | none => false
  let n := if late || early || !ref10mOk then 0 else min 16 (q.good + 1)
  { last := some now, good := n, ref10m := ref10mOk, healthy := !late && ref10mOk && (q.healthy || n == 16) }

/-- CAD_REF10M silent or out of range: the source is unhealthy (R58). -/
def State.ref10mBad (s : State) : State :=
  (s.setCad { s.cad with pps := { s.cad.pps with ref10m := false, good := 0, healthy := false } }).selectSource

/-- K × tick_period in time units. -/
def State.treadleNominal (s : State) : Nat := s.odGet 0x2001 4 * s.tickPeriod * unitsPer10ns

/-- The treadle period left its range, or a selected edge is missing (R59). -/
def State.treadleBad (s : State) : State :=
  let h := s.cad.treadle.healthy
  let s := s.setCad { s.cad with treadle := { s.cad.treadle with good := 0, inRange := false, healthy := false } }
  let s := if h then s.event 0x0201 noOne [] else s
  s.selectSource

/-- A follower adopts its master's tick period with its counter (R57), where in-band time is enabled and not refused and
the period is one the object takes. -/
def State.adoptPeriod (s : State) (period : Nat) : State :=
  if bit (s.odGet 0x2001 1) 0 ∧ ¬ s.cad.inBand.refused ∧ 1000 ≤ period ∧ period ≤ 10000000 then s.odSet 0x2001 2 period
  else s

/-- A message of the master on port n: its counter and period, and the phase error measured there. A refusal for another
count ends when the counts agree (DESIGN CHOICE, log 53). -/
def InBand.hear (i : InBand) (now n tick period : Nat) (kind : PtpKind) (own : Nat) (phase : Int) : InBand :=
  let ports := i.ports ||| 2 ^ n
  { ports := ports, masterTick := tick, masterPeriod := period, masterAt := now,
    phasePs := if (maskBits 16 ports).head? = some n then phase else i.phasePs,
    refused := i.refused && tick != own,
    delayReq := if kind = .delayResp then fmDel i.delayReq n else i.delayReq }

/-- FX1 becomes cadence master, for good until cold reset (R64), and drives the level of the treadle output that its own
copy of the schedule gives (18 R574). DESIGN CHOICE (log 56): `standby_ready` reads 0 from then on, also where FX0 is not
lost. -/
def State.handover (s : State) : State :=
  if s.cad.masterFx1 then s
  else
    let s := { s with pins := { s.pins with treadleOut := s.pins.treadleOut && decide (s.now < s.pins.treadleEnd) } }
    (s.setCad { s.cad with masterFx1 := true, standbyReady := false }).event 0x0207 noOne []

/-- The die that holds the standby function: the other of FX0 and FX1, else the lowest-numbered surviving fabric die other
than the master (13 R446). -/
def State.standbyDie (s : State) : Option Nat :=
  let master := if s.cad.masterFx1 then 1 else 0
  if s.cfg.lost.contains (22 + (1 - master)) then
    (List.range 8).find? fun f => f != master && !s.cfg.lost.contains (22 + f)
  else some (1 - master)

end Sys2Proof.Machine
end

