-- ==== Sys2Proof/Machine/Access.lean ====
section
/-! DEFINITION. Machine/Access.lean: who may reach an object (14 R481, 15 R491 to R495), the statuses of
Table 15-9, and draft regions in the ownership table (09 R330, R331). -/

namespace Sys2Proof.Machine

/-! ### Statuses (15 Table 15-9) -/

def stOk : Nat := 0
def stNoObject : Nat := 1
def stDenied : Nat := 2
def stReadOnly : Nat := 3
def stLocked : Nat := 4
def stRange : Nat := 5
def stLength : Nat := 6
def stNotReady : Nat := 7
def stRejected : Nat := 8
def stNoSession : Nat := 9
def stTooMany : Nat := 10
def stMalformed : Nat := 11
def stTooLarge : Nat := 12
/-- The model's own code: the package does not answer (16 R532, 17 R553). -/
def stSilent : Nat := 254

/-! ### Roles and worlds (14 R481) -/

/-- The open session of a requester; none: the requester acts without a session. -/
def State.sessionOf (s : State) (q : Option Nat) : Option Session :=
  q.bind fun id => (fmGet? s.aoap.sessions id).filter (fun x => x.open_)

/-- World of a session: that of its role. -/
def State.secureSession (s : State) (x : Session) : Bool :=
  match x.role with
  | .owner | .maker => true
  | .tenant => s.partWorld x.part
  | _ => false

/-- World of a requester; without a session it is non-secure. -/
def State.secureReq (s : State) (q : Option Nat) : Bool :=
  match s.sessionOf q with
  | some x => s.secureSession x
  | none => false

/-! ### Partition-local copies (15 R495) -/

/-- The partition-local block: offset, global index of partition 0's object, and whether a tenant may write
(Table 15-3). -/
def localBlock : List (Nat × Nat × Bool) :=
  [ (0x020, 0x2020, true), (0x024, 0x2024, true), (0x034, 0x2034, true), (0x120, 0x3020, false),
    (0x128, 0x3028, false), (0x210, 0x4010, true), (0x410, 0x6010, true), (0x440, 0x6040, false),
    (0x444, 0x6044, false), (0x510, 0x7010, true), (0x514, 0x7014, true), (0x518, 0x7018, true),
    (0x540, 0x7040, false), (0x610, 0x8010, true), (0x650, 0x8050, true), (0xA30, 0xB030, false) ]

/-- The global object of a local index; other indices stand for themselves. -/
def globalOf (idx sub : Nat) : Option (Nat × Nat) :=
  if 0xC000 ≤ idx ∧ idx < 0xF000 then
    let p := (idx - 0xC000) / 0xC00
    let off := (idx - 0xC000) % 0xC00
    if off = 0x010 then (if sub = 0 then some (0x3010, p + 1) else none)
    else (localBlock.find? fun e => e.1 == off).map fun e => (e.2.1 + p, sub)
  else some (idx, sub)

/-- The partition an object belongs to, when it is an object of a partition (Table 15-3). -/
def partObject (idx sub : Nat) : Option (Nat × Bool) :=
  if idx = 0x3010 then some (sub - 1, false)
  else (localBlock.find? fun e => e.2.1 ≤ idx && idx < e.2.1 + 4).map fun e => (idx - e.2.1, e.2.2)

/-! ### Entitlement (15 R492, R493) -/

/-- Rail number, interface × 5 + rail select, of a die's core rail (16 R522, 01 Table 01-3). -/
def dieRail (d : Nat) : Nat :=
  if 22 ≤ d then (if d < 30 then (d - 22) * 5 + 3 else if d = 30 then 2 else 22)
  else if d < 16 then (d / 2) * 5 + d % 2
  else if d = 16 then 17 else if d = 17 then 37
  else if d = 18 then 7 else if d = 19 then 12 else if d = 20 then 27 else 32

/-- Dies an object or subindex is keyed to (R493): those of a die, slot, engine or rail. -/
def State.keyedDies (s : State) (idx sub : Nat) : List Nat :=
  if idx = 0x3001 then [sub - 1]
  else if idx = 0x3030 ∨ idx = 0x3031 then (s.dieOfSlot ((sub - 1) / 8)).toList
  else if 0x5001 ≤ idx ∧ idx ≤ 0x5004 then [sub - 1]
  else if 0x9100 ≤ idx ∧ idx ≤ 0x9115 then [idx - 0x9100]
  else if idx = 0xA020 ∨ idx = 0xA030 then [sub - 1]
  else if idx = 0xA002 ∨ idx = 0xA003 then (List.range 32).filter fun d => dieRail d + 1 == sub
  else []

/-- Whether an object belongs to a secure partition or a secure block (R493). -/
def State.secureObject (s : State) (idx sub : Nat) : Bool :=
  (match partObject idx sub with
   | some (p, _) => s.partWorld p
   | none => false) ||
  (s.keyedDies idx sub).any fun d => bit (s.odGet 0x9010 (d + 1)) 0

/-- What a tenant of partition p may do with an object: 0 nothing, 1 read, 2 write (Table 15-3 and after). -/
def State.tenantRight (s : State) (p idx sub : Nat) : Nat :=
  match partObject idx sub with
  | some (r, w) => if r = p then (if w then 2 else 1) else 0
  | none =>
    if idx / 4096 = 1 ∨ (0x2001 ≤ idx ∧ idx ≤ 0x2004) ∨ idx = 0x4001 ∨ idx = 0x4002 then 1
    else if idx = 0x3030 then (if s.partOfSlot ((sub - 1) / 8) = some p then 2 else 0)
    else if idx = 0x3001 then (if (s.slotOfDie (sub - 1)).any (fun n => s.partOfSlot n == some p) then 1 else 0)
    else 0

/-- Objects that answer without a session (14 R481). -/
def openObject (idx : Nat) : Bool :=
  idx == 0x9001 || idx == 0x9003 || idx == 0x9020 || idx == 0x9021 || idx == 0x9022

/-- What a requester may do with an object by Table 15-2: 0 nothing, 1 read, 2 write; *reset_request* is written by owner and
maker sessions only (17 R557). -/
def State.right (s : State) (q : Option Nat) (idx sub : Nat) : Nat :=
  let anon :=
    if openObject idx then 1
    else if idx = 0x9030 ∧ (s.sessionOf q).isSome then (if sub = 1 then 2 else 1) else 0
  let role := (s.sessionOf q).map Session.role
  let part := ((s.sessionOf q).map Session.part).getD 0
  match s.sec.life with
  | .maker =>
    if idx = 0x1003 ∧ sub = 0 then (match role with | some .owner | some .maker => 2 | _ => 0) else 2
  | .provisioned =>
    match role with
    | some .maker => 2
    | some .enrolling => if idx = 0x9002 then 2 else anon
    | _ => anon
  | .field =>
    match role with
    | some .owner => 2
    | some .maker => max anon (if idx / 4096 = 1 ∨ idx / 4096 = 9 then 1 else 0)
    | some .tenant => max anon (s.tenantRight part idx sub)
    | _ => anon
  | .returned => match role with | some .maker => 2 | _ => anon
  | .scrapped => if idx / 4096 = 1 ∨ idx = 0x9001 then 1 else 0

/-- Objects of 14 Table 14-10: what the package answers between a life-cycle transition and cold reset (14 R470). -/
def securityObject (idx : Nat) : Bool := decide (0x9001 ≤ idx) && decide (idx ≤ 0x9115)

/-- When an RWL object is locked (15 R491, Table 15-1's lock columns), and *partition_commit* (01 R49). -/
def State.lockedNow (s : State) (r : OdRow) : Bool :=
  (r.acc == .rwl || r.acc == .wo) && match r.lock with
  | .commit => s.cfg.locked
  | .firstLocked => s.cad.everLocked
  | .training => s.fab.trained
  | .firstRequest => s.fab.issued
  | .certificate => s.sec.life != .maker && s.sec.life != .provisioned
  | .none => false

/-- An object that is served without a session (R510; 14 R481; Table 15-2 in SCRAPPED). -/
def State.plainObject (s : State) (idx : Nat) : Bool :=
  s.sec.life == .maker || openObject idx || (s.sec.life == .scrapped && idx / 4096 == 1)

/-- Whether a requester's access to an object is refused before its value is looked at, and how
(R488, R491 to R494; R510 where there is no session); none: it may go on. Indices are global ones. -/
def State.refusal (s : State) (q : Option Nat) (idx sub : Nat) (write : Bool) : Option Nat :=
  if !s.boot.live then some stSilent
  else if q.isNone && !s.plainObject idx then some stNoSession
  else match odRow? idx sub with
  | none => some stNoObject
  | some r =>
    let right := if s.secureObject idx sub && !s.secureReq q then 0 else s.right q idx sub
    if write && r.acc == .ro then some stReadOnly
    else if right = 0 || s.sec.sealedUntilReset && !securityObject idx then some stDenied
    else if right = 1 && (write || r.acc == .wo) then some stDenied
    else if write && s.lockedNow r then some stLocked
    else none

/-- Run a command object (R499): refused accesses answer their status, a command refused at once
answers REJECTED. -/
def State.command (s : State) (q : Option Nat) (idx sub : Nat) (run : State → State × Bool) : State :=
  match s.refusal q idx sub true with
  | some st => s.answer st []
  | none =>
    let (s, ok) := run s
    s.answer (if ok then stOk else stRejected) []

/-- A write the package ignores with an event (R499), also when the object is locked (R491). -/
def State.commandEv (s : State) (q : Option Nat) (idx sub code : Nat) (who : EvWho)
    (run : State → State × Bool) : State :=
  match s.refusal q idx sub true with
  | some st => if st = stLocked then (s.event code who []).answer st [] else s.answer st []
  | none =>
    let (s, ok) := run s
    if ok then s.answer stOk [] else (s.event code who []).answer stRejected []

/-- A start-up stage from 9 on ends (17 R553). -/
def State.endStartup (s : State) (k : Nat) : State :=
  if 9 ≤ s.boot.stage ∧ s.boot.stage ≤ k ∧ !fmHas s.boot.times k then
    { s with boot := { s.boot with stage := min 11 (k + 1), times := fmSet s.boot.times k s.now } }
  else if 9 ≤ s.boot.stage ∧ s.boot.stage ≤ k then
    { s with boot := { s.boot with stage := min 11 (k + 1) } }
  else s

/-! ### Ownership of window regions (09 R328, R330, R331) -/

/-- The ownership entry of a region. -/
def State.ownEnt (s : State) (region : Nat) : OwnEnt := fmGet s.fab.own region {}

/-- Write an ownership entry, counting `own_gen` at every change of state or owner (09 Table 09-9). -/
def State.setOwn (s : State) (region state domain path : Nat) : State :=
  let e := s.ownEnt region
  if e.state = state ∧ e.domain = domain ∧ e.path = path then s
  else { s with fab := { s.fab with
    own := fmSet s.fab.own region { state := state, domain := domain, gen := e.gen + 1, path := path } } }

/-- Force a region open: `own_gen` counts whatever the region was (R331). -/
def State.forceOpen (s : State) (region : Nat) : State :=
  ({ s with fab := { s.fab with
    own := fmSet s.fab.own region { gen := (s.ownEnt region).gen + 1 } } }).event 0x090B noOne []

/-- The regions of a draft's windows, as address / 2 MiB. -/
def Draft.windowRegions (d : Draft) : List Nat :=
  d.wins.flatMap fun w => (List.range (w.size * w.buffers)).map fun i => w.base / 2 ^ 21 + i

end Sys2Proof.Machine
end

