-- ==== Sys2Proof/Machine/CollOps.lean ====
section
/-! DEFINITION. Machine/CollOps.lean: groups and their trees (10 R335 to R339), the creel's pools and
granules (10 R360 to R362, 11 R397), completion of a collective (10 R371), and the commit vote
(10 R356 to R358). -/

namespace Sys2Proof.Machine

/-! ### Trees (10 R336 to R339) -/

/-- Group g of partition p. -/
def State.group (s : State) (p g : Nat) : Group := fmGet s.coll.groups (p * 64 + g) {}

/-- Present members: rank, position, physical path. -/
def Group.present (g : Group) : List (Nat × Nat × Nat) :=
  ((List.range g.members.length).zip g.members).filterMap fun e =>
    if e.2.2.1 then none else some (e.1, e.2.1, e.2.2.2)

/-- Position of a rank. -/
def Group.pos (g : Group) (rank : Nat) : Nat := (nth g.members rank (0, true, 0)).1
/-- Physical path of a rank. -/
def Group.phys (g : Group) (rank : Nat) : Nat := (nth g.members rank (0, true, 0)).2.2

/-- Depth of the members' positions. -/
def Group.depth (g : Group) : Nat := depthOf (g.pos 0)

/-- Present members below the prefix of depth j of a position. -/
def Group.below (g : Group) (pos j : Nat) : List (Nat × Nat × Nat) :=
  g.present.filter fun m => prefixOf m.2.1 j == prefixOf pos j

/-- Digits of the present children of the node of depth j above a position, ascending (R339). -/
def Group.kids (g : Group) (pos j : Nat) : List Nat :=
  ((g.below pos j).map fun m => digit m.2.1 j).eraseDups

/-- A node with at least two present children runs a stage (R339). -/
def Group.isStage (g : Group) (pos j : Nat) : Bool := decide (2 ≤ (g.kids pos j).length)

/-- Depth of the next stage above a depth; none at the root of the reduction. -/
def Group.up (g : Group) (pos j : Nat) : Option Nat := (List.range j).reverse.find? fun k => decide (1 ≤ k) && g.isStage pos k

/-- Depth of the first stage below a child of the node of depth j; none when the child is one member. -/
def Group.down (g : Group) (pos j : Nat) : Option Nat :=
  (List.range g.depth).find? fun k => decide (j < k) && g.isStage pos k

/-- The package that heads a node: `head`, or `standby` when the head is marked dead (R338). -/
def State.nodeHead (s : State) (g : Group) (pos j : Nat) : Nat :=
  match g.nodes.find? fun n => n.1 == prefixOf pos j with
  | some n => if s.fab.dead.contains n.2.1 then n.2.2 else n.2.1
  | none => noPath

/-- A package acts as head of a node for the packets sent to it as `head` or as `standby`: the sender's mark decides (R338). -/
def Group.heads (g : Group) (pos j path : Nat) : Bool :=
  g.nodes.any fun n => n.1 == prefixOf pos j && (n.2.1 == path || n.2.2 == path)

/-- Where a child of the node of depth j is reached: the head of its own stage, or the member (R339). -/
def State.childPath (s : State) (g : Group) (pos j : Nat) : Nat :=
  match g.down pos j with
  | some k => s.nodeHead g pos k
  | none => ((g.below pos (j + 1)).head?.map fun m => m.2.2).getD noPath

/-- A position below child c of the node of depth j above a position. -/
def Group.childPos (g : Group) (pos j c : Nat) : Nat :=
  (((g.below pos j).find? fun m => digit m.2.1 j == c).map fun m => m.2.1).getD pos

/-- The package's index in its draft set: its place among the present members of group 63, 0 when it
is alone (13 Tables 13-8, 13-9). -/
def State.pkgIndex (s : State) (p : Nat) : Nat :=
  let g := s.group p 63
  if g.formed then (g.present.filter fun m => decide (m.1 < g.ownRank)).length else 0

/-- Group 63 meets R359 for a draft of n packages. -/
def State.group63Ok (s : State) (p n : Nat) : Bool :=
  let g := s.group p 63
  g.formed && g.present.length == n && g.ownRank != 0x7FF

/-! ### The creel (10 R360 to R362; 11 R397; 13 R446) -/

/-- First granule of partition p's creel share. -/
def State.creelBase (s : State) (p : Nat) : Nat := ((List.range p).map fun q => s.odGet (0x3020 + q) 4).sum

/-- Granules of partition p's share. -/
def State.creelShare (s : State) (p : Nat) : List Nat :=
  (List.range (s.odGet (0x3020 + p) 4)).map fun i => s.creelBase p + i

/-- Granules dynamic stages of partition p hold. -/
def State.creelHeld (s : State) (p : Nat) : List Nat :=
  s.coll.colls.flatMap fun c =>
    if c.2.part == p && !c.2.draft then c.2.stages.flatMap fun t => t.2.granules else []

/-- The dynamic pool of partition p: its share less its draft reservations (R361). -/
def State.creelPool (s : State) (p : Nat) : List Nat :=
  (s.creelShare p).filter fun g => !(s.part p).creel.contains g

/-- Free granules per die in partition p's dynamic pool. -/
def State.creelFree (s : State) (p : Nat) : List Nat :=
  let held := s.creelHeld p
  (s.creelPool p).filter fun g => !held.contains g

/-- The fabric die that handles chunk c at this package's heads (R345, 13 R446). -/
def State.chunkDie (s : State) (c : Nat) : Nat :=
  let l := s.fabricDies
  if l.length = 8 then c % 8 else nth l (c % 7 % l.length) 0

/-- Granules on each die for a claim of b bytes (R360, 13 R446). -/
def State.claimGranules (s : State) (b : Nat) : Nat := ceilDiv b (65536 * max 1 s.fabricDies.length)

/-- Overwrite granules with zeros on every die before they enter a pool (R362). -/
def State.zeroGranules (s : State) (l : List Nat) : State :=
  { s with mem := l.foldl (fun m g =>
    (List.range 8).foldl (fun m f => Mem.clear m (creelKey f (g * 65536)) 65536) m) s.mem }

/-- The 64-byte descriptor at an offset of a slot's shared bobbin, as words. -/
def State.bobbinWords (s : State) (slot off n : Nat) : List Nat :=
  match s.dieOfSlot slot with
  | some d => wordsOf (Mem.readN s.mem (sramKey d (sharedOff + off)) (8 * n))
  | none => List.replicate n 0

/-- Descriptors the draft's `f_coll` commands name: slot and offset in the shared bobbin (R372). -/
def Draft.descriptors (d : Draft) : List (Nat × Nat) :=
  ((List.range d.variants).flatMap fun v => d.slots.flatMap fun n =>
    (List.range d.stepTicks).flatMap fun k => (d.commands v n k).filterMap fun w =>
      if bits w 127 120 = 0x90 then some (n, bits w 26 0) else none).eraseDups

/-- Granules of partition p's share that the draft's descriptors reserve (R361). -/
def State.reservations (s : State) (p : Nat) (d : Draft) : List Nat :=
  let share := s.creelShare p
  ((d.descriptors.flatMap fun e =>
    let w1 := nth (s.bobbinWords e.1 e.2 8) 1 0
    (List.range (bits w1 52 42)).map fun i => bits w1 41 32 + i).eraseDups).filter fun g => share.contains g

/-! ### Collectives outstanding (10 R370, R371) -/

/-- Key of a dynamic collective. -/
def collKey (p g cseq : Nat) : Nat := (p * 64 + g) * 65536 + cseq
/-- Key of a draft collective, by its ordinal among those of its group in the step. -/
def draftKey (p g cseq : Nat) : Nat := 2 ^ 40 + collKey p g cseq

def State.setColl (s : State) (k : Nat) (c : Collective) : State :=
  { s with coll := { s.coll with colls := fmSet s.coll.colls k c } }

/-- Source unit number of fabric die f's engine, or of a die: die index × 2048 + unit (09 Table 09-3). -/
def engineUnit (f : Nat) : Nat := (22 + f) * 2048

/-- The chunk a collective packet is about: that of its header; a vote is chunk 0 (Table 10-4, R356). -/
def packetChunk (op : Nat) (data : List Byte) : Nat := if op < 0x35 then natOf ((data.drop 8).take 4) else 0

/-- A collective packet (10 R374) from the engine of its chunk (R345): tag and order number 0. -/
def State.collPacket (s : State) (p dst op cls : Nat) (data : List Byte) : Packet :=
  { dst := dst, op := op, cls := cls, len := data.length % 4096, part := p, world := s.partWorld p,
    src := s.ownPath, unit := engineUnit (s.chunkDie (packetChunk op data)), gen := s.odGet 0x6005 0, data := data }

/-- Send a collective packet. -/
def State.sendColl (s : State) (p dst op cls : Nat) (data : List Byte) : State :=
  s.sendPacket (some p) (s.collPacket p dst op cls data)

/-- The 16-byte header of Table 10-4. -/
def chunkHeader (p : Nat) (c : Collective) (depth : Nat) (down : Bool) (chunk rank : Nat) : List Byte :=
  bytesOf 8 (c.group + (p <<< 6) + (c.mgen <<< 8) + (c.cseq <<< 24) + (depth <<< 40) + (b2n down <<< 44)) ++
  bytesOf 8 (chunk + (rank <<< 32))

/-- Release what a collective's stages hold, zeroing each granule (R362). -/
def State.releaseStages (s : State) (c : Collective) : State :=
  s.zeroGranules (c.stages.flatMap fun t => t.2.granules)

/-- The completion record of Table 10-8. -/
def completionRecord (c : Collective) (status failRank doneTick : Nat) : List Byte :=
  bytesOfWords [ 1 + (status <<< 1) + (c.cseq <<< 4) + (c.mgen <<< 20) + (failRank <<< 36),
    c.taintFirst.getD 0xFFFFFFFF + (c.toldTaint.length <<< 32), c.launchTick, doneTick ] ++
  bytesOf 128 c.consumers ++ List.replicate 96 0

/-- Write a member's completion record, `done` with it, and keep the collective for a late `coll_taint`. -/
def State.writeRecord (s : State) (c : Collective) (status failRank : Nat) : State :=
  let kept := fmSet s.coll.past ((c.part * 64 + c.group) * 8 + c.cseq % 8) { c with stages := [], kept := [] }
  let s := { s with coll := { s.coll with past := kept } }
  s.storePa c.cmpl (completionRecord c status failRank s.cad.tick.toNat)

/-- A dynamic collective ends at this package: its record, when the member has none yet, and its claims released. -/
def State.completeColl (s : State) (k status failRank : Nat) : State :=
  match fmGet? s.coll.colls k with
  | none => s
  | some c =>
    let s := { s with coll := { s.coll with colls := fmDel s.coll.colls k } }
    let s := s.releaseStages c
    if c.launchedHere && !c.draft && !c.memberDone then s.writeRecord c status failRank else s

/-- Reasons of a `coll_nak` and the status a member's collective completes with (R351, R366; 13 R446); the
model's reason 0 stands for MISMATCH (R370). -/
def nakStatus : Nat → Nat
  | 0 => 4 | 2 => 5 | 3 => 5 | 5 => 7 | 6 => 6 | _ => 3

/-- Tell every other present member that a dynamic collective ends, and end it here. -/
def State.nakAll (s : State) (k reason : Nat) : State :=
  match fmGet? s.coll.colls k with
  | none => s
  | some c =>
    let s := (s.group c.part c.group).present.foldl (fun s m =>
      if m.2.2 = s.ownPath then s
      else s.sendColl c.part m.2.2 0x34 3 (chunkHeader c.part c 15 false 0 0x7FF ++ bytesOf 8 reason)) s
    s.completeColl k (nakStatus reason) 0x7FF

/-- At a draft's start tick, claims that still hold a granule of its reservations are released (R368). -/
def State.creelAbort (s : State) (p : Nat) : State :=
  s.coll.colls.foldl (fun s e =>
    if !e.2.draft && e.2.part == p &&
        e.2.stages.any (fun t => t.2.granules.any fun g => (s.part p).creel.contains g) then
      (s.nakAll e.1 6).event 0x0A06 (ofPart p) []
    else s) s

/-! ### The commit vote (10 R356 to R358) -/

/-- The vote chunk of a package: words 0 to 2 of 64 bytes. -/
def voteWords (commit : Bool) (epoch : Nat) : List Nat := [if commit then 2 ^ 64 - 1 else 0, epoch, 2 ^ 64 - 1 - epoch]

/-- A vote chunk as bytes. -/
def voteBytes (w : List Nat) : List Byte := bytesOfWords (w ++ [0, 0, 0, 0, 0])

/-- AND of vote words. -/
def andWords (a b : List Nat) : List Nat := (a.zip b).map fun e => e.1 &&& e.2

/-- Write the contributions a partition's stages hold. -/
def State.setVote (s : State) (p : Nat) (ins : Fm (List Nat)) : State :=
  { s with coll := { s.coll with votes := fmSet s.coll.votes p { ins := ins } } }

/-- A result of the vote at this package: it commits only under R357; else it withholds and rolls back. -/
def State.voteResult (s : State) (p : Nat) (w : List Nat) : State :=
  let x := s.part p
  let ok := nth w 0 0 == 2 ^ 64 - 1 && nth w 2 0 == 2 ^ 64 - 1 - nth w 1 0 && nth w 1 0 == x.epoch.toNat
  if x.state ≠ .running then s
  else if ok then (if x.restoring then s else s.setPart p { x with voteResult := some true })
  else s.rollback p 8

/-- Send a result down to one child of the stage of depth j, or act on it here when the child is this
package (fuel: depths). -/
def State.voteDown (s : State) (p : Nat) (g : Group) (w : List Nat) : Nat → Nat → Nat → State
  | 0, _, _ => s
  | n + 1, pos, j =>
    (g.kids pos j).foldl (fun s c =>
      let cp := g.childPos pos j c
      let dst := s.childPath g cp j
      if dst = s.ownPath then
        match g.down cp j with
        | some k => s.voteDown p g w n cp k
        | none => s.voteResult p w
      else s.sendColl p dst 0x36 0 (voteBytes w)) s

/-- A contribution enters the stage of depth j through the child of a position (fuel: depths). When every
present child has sent, the AND goes up, or at the root back down. `mine`: it was sent here (R338). -/
def State.voteUp (s : State) (p : Nat) (g : Group) (w : List Nat) (mine : Bool) : Nat → Nat → Option Nat → State
  | 0, _, _ => s
  | _ + 1, _, none => s.voteResult p w
  | n + 1, pos, some j =>
    let head := s.nodeHead g pos j
    if !mine ∧ head ≠ s.ownPath then s.sendColl p head 0x35 0 (voteBytes w)
    else
      let v := fmGet s.coll.votes p {}
      let ins := fmSet v.ins (j * 64 + digit pos j) w
      let kids := g.kids pos j
      let s := s.setVote p ins
      if kids.all (fun c => fmHas ins (j * 64 + c)) then
        let all := kids.foldl (fun a c => andWords a (fmGet ins (j * 64 + c) [])) [2 ^ 64 - 1, 2 ^ 64 - 1, 2 ^ 64 - 1]
        let s := s.setVote p (ins.filter fun e => e.1 / 64 != j)
        match g.up pos j with
        | some k => s.voteUp p g all false n pos (some k)
        | none => s.voteDown p g all 8 pos j
      else s

/-- This package's vote for the running epoch (R356). -/
def State.sendVote (s : State) (p : Nat) (commit : Bool) : State :=
  let x := s.part p
  let g := s.group p 63
  let pos := g.pos g.ownRank
  let s := s.setPart p { x with voteSent := true }
  s.voteUp p g (voteWords commit x.epoch.toNat) false 9 pos (g.up pos g.depth)

/-- A rollback of a draft set's package votes to withhold before its step is restored (R356, 13 R424). -/
def State.withholdAndRollback (s : State) (p cause : Nat) : State :=
  let x := s.part p
  let set := match x.draft with | some d => decide (1 < d.packages) | none => false
  let s := if set && x.state == .running && !x.restoring && !x.voteSent then s.sendVote p false else s
  s.rollback p cause

end Sys2Proof.Machine
end

