-- ==== Sys2Proof/Machine/Fault.lean ====
section
/-! DEFINITION. Machine/Fault.lean: detected control faults and their escalation (13 R424, R425), rails
by die (16 R522, R523), buddy images (13 R431 to R437) and spare-spindle activation (13 R438 to R442). -/

namespace Sys2Proof.Machine

/-! ### Rails (16 R522) -/

/-- Command a rail to a setpoint in one AVSBus command (16 R525), unless it is held (16 R524). -/
def State.setRail (s : State) (r mv : Nat) : State :=
  let x := fmGet s.pow.rails r {}
  if x.heldSince.isSome then s
  else
    let s := { s with pow := { s.pow with rails := fmSet s.pow.rails r { x with target := mv, lastCmd := s.now } } }
    (s.odSet 0xA002 (r + 1) mv).send (.avs r mv)

/-- The active setpoint held ready for a die: that of its last re-plan, else the nominal 750 mV (16 R523). -/
def State.activeSetpoint (s : State) (d : Nat) : Nat :=
  let v := bits (s.odGet 0xA030 (d + 1)) 31 16
  if v = 0 then 750 else v

/-! ### Buddy images (13 R431 to R437) -/

/-- Write one byte of a slot's step state into all its images. -/
def State.imageWrite (s : State) (n : Nat) (e : Nat × Byte) : State :=
  (s.images n).foldl (fun s i =>
    match s.imageKey i.1 i.2 with
    | some b => { s with mem := Mem.write s.mem (b + s.imageOff e.1) e.2 }
    | none => s) s

/-- Offsets within a statistics record whose default is not zero. -/
def histSpecials : List Nat := [584, 585, 587, 648, 649, 650, 651, 652, 653]

/-- Copy the bytes of the histogram space whose defaults differ from zero between a slot's SRAM and an image. -/
def Mem.copyHist (m : Mem) (src dst : Nat) : Mem :=
  (List.range 2048).foldl (fun m t =>
    histSpecials.foldl (fun m o => Mem.write m (dst + t * 1024 + o) (Mem.read m (src + t * 1024 + o))) m) m

/-- Bytes of the scalar registers of a slot. -/
def sregBytes (r : Fm (BitVec 64)) : List Byte := (List.range 64).flatMap fun i => bytesOf 8 (fmGet r i 0).toNat

/-- Scalar registers read from an image. -/
def sregOf (l : List Byte) : Fm (BitVec 64) :=
  (List.range 64).foldl (fun m i =>
    let v := natOf ((l.drop (8 * i)).take 8)
    if v = 0 then m else fmSet m i (BitVec.ofNat 64 v)) []

/-- Persistent ranges of a slot as memory keys (13 R433): batt, histogram space, declared ranges and
window regions below L − 1 GiB on its die. -/
def State.persistKeys (s : State) (p n : Nat) : List (Nat × Nat) :=
  match s.dieOfSlot n with
  | none => []
  | some d =>
    [(sramKey d battOff, sramEnd - battOff)] ++
    ((s.part p).persist ++ s.windowKeys p).filter fun r =>
      keyDie r.1 == d && (decide (2 ^ 41 ≤ r.1) || decide (r.1 % 2 ^ 36 + r.2 ≤ s.buddyBytes - 2 ^ 30))

/-- Copy a slot's persistent bytes and scalar registers into one image (13 R435). -/
def State.seedImage (s : State) (p n : Nat) (i : Nat × Nat) : State :=
  match s.imageKey i.1 i.2, s.dieOfSlot n with
  | some b, some d =>
    let s := (s.persistKeys p n).foldl (fun s r =>
      { s with mem := Mem.copy s.mem r.1 (b + s.imageOff r.1) r.2 }) s
    let s := { s with mem := Mem.copyHist s.mem (sramKey d histOff) (b + s.imageOff (sramKey d histOff)) }
    { s with mem := Mem.writeN s.mem (b + s.buddyBytes - 4096) (sregBytes (s.flyer n).sregCommit) }
  | _, _ => s

/-- Apply a slot's sealed delta and registers to its images (13 R436). -/
def State.applyDelta (s : State) (p n : Nat) : State :=
  let b := fmGet (s.part p).buddy n {}
  let s := b.sealedDelta.foldl (fun s e => s.imageWrite n e) s
  let s := (s.images n).foldl (fun s i =>
    match s.imageKey i.1 i.2 with
    | some k => { s with mem := Mem.writeN s.mem (k + s.buddyBytes - 4096) (sregBytes b.sealedSregs) }
    | none => s) s
  s.setPart p { s.part p with buddy := fmSet (s.part p).buddy n { b with sealedDelta := [] } }

/-- Every image held in the stack of an aperture is lost: a slot takes its secondary image when it is
there, and else becomes unprotected (13 R440, R442). Before partition commit there are none. -/
def State.loseImages (s : State) (aperture : Nat) : State :=
  if !s.cfg.locked then s
  else forN 16 s fun s n =>
    let e := s.odGet 0x8002 (n + 1)
    let prim := bit e 11 && bits e 4 0 == aperture
    let sec := bit e 23 && bits e 16 12 == aperture
    if !prim && !sec then s
    else
      let e' := if sec then setBit e 23 false else e
      let promoted := prim && bit e' 23
      let e' := if promoted then setBits (setBits (setBit (setBit e' 23 false) 11 true) 4 0 (bits e' 16 12)) 10 5 (bits e' 22 17)
        else if prim then setBit e' 11 false else e'
      let s := s.odSet 0x8002 (n + 1) e'
      if prim && !promoted && decide (0 < s.odGet 0x8005 (n + 1)) then s.unprotect n else s

/-- Give the slot of a lost die to a spare, and move what follows the slot (01 R27; 13 R438 step 3, R440;
14 R461; 16 R523). -/
def State.moveSlot (s : State) (n old new : Nat) : State :=
  let s := s.odSet 0x3001 (old + 1) (0x20 + n)
  let s := s.odSet 0x3001 (new + 1) n
  let s := forN 256 s fun s e => (s.odSet (0x9100 + new) e (s.regionEntry old e)).odSet (0x9100 + old) e 0
  let world := (s.partOfSlot n).any fun p => s.partWorld p
  let s := s.odSet 0x9010 (new + 1) (b2n world + 2)
  let s := s.setRail (dieRail old) 0
  s.setRail (dieRail new) (s.activeSetpoint new)

/-- Ranges of a stack's offsets assigned to partitions other than p, as memory keys (13 R440). -/
def State.foreignRanges (s : State) (p d : Nat) : List (Nat × Nat) :=
  (List.range 256).filterMap fun e =>
    let v := s.regionEntry d e
    if bit v 35 && bits v 38 37 == 0 && bits v 31 30 != p then
      some (stackKey d (bits v 14 0 * 2 ^ 21), (bits v 29 15 + 1) * 2 ^ 21)
    else none

/-- A place of a retired die, as a place of the die its slot moved to. -/
def movedKey (old new k : Nat) : Nat :=
  if keyDie k ≠ old then k
  else if k < 2 ^ 41 then stackKey new (k % 2 ^ 36) else sramKey new ((k - 2 ^ 41) % 2 ^ 30)

/-- Persistent ranges of partition p and the sealed delta of slot n follow the slot to its new die. -/
def State.movePersist (s : State) (p n old new : Nat) : State :=
  let x := s.part p
  let b := fmGet x.buddy n {}
  s.setPart p { x with
    persist := x.persist.map fun (r : Nat × Nat) => (movedKey old new r.1, r.2)
    buddy := fmSet x.buddy n { b with sealedDelta := b.sealedDelta.map fun (e : Nat × Byte) => (movedKey old new e.1, e.2) } }

/-- Fill a spare from an image: stack offsets, SRAM part, sealed delta, and the registers as last sealed, which are
those of the last step commit (13 R436, R438 step 5). -/
def State.fillSpare (s : State) (p n new : Nat) (b : Nat) : State :=
  let L := s.buddyBytes
  let s := if b = stackKey new 0 then s else
    { s with
      mem := Mem.copy s.mem b (stackKey new 0) (L - 2 ^ 30)
      lines := s.lines.filter fun e =>
        !(decide (stackKey new 0 ≤ 64 * e.1) && decide (64 * e.1 < stackKey new 0 + (L - 2 ^ 30))) }
  let s := { s with sramErr := s.sramErr.filter fun e =>
    !(decide (sramKey new 0 ≤ e.1) && decide (e.1 < sramKey new sramEnd)) }
  let s := { s with mem := Mem.copy s.mem (b + L - 2 ^ 30) (sramKey new 0) histOff }
  let h := b + L - 2 ^ 30 + histOff
  let s := { s with mem := Mem.copyHist (Mem.copy s.mem h (sramKey new histOff) 0x200000) h (sramKey new histOff) }
  let d := fmGet (s.part p).buddy n {}
  let s := { s with mem := d.sealedDelta.foldl (fun (m : Mem) (e : Nat × Byte) => Mem.write m e.1 e.2) s.mem }
  s.setFlyer n { s.flyer n with sreg := (s.flyer n).sregCommit, sregErr := [] }

/-- SPARE_ACTIVATED, with the slot, the old die, the new die and the step epoch (13 R438); a re-plan follows (16 R523). -/
def State.spareActivated (s : State) (p : Nat) (a : Nat × Nat × Nat) : State :=
  let s := s.event 0x0D0C { part := some p, die := some a.2.2, slot := some a.1 }
    [.half a.2.1, .half a.2.2, .word (s.part p).epoch.toNat]
  { s with pow := { s.pow with replanAsked := true } }

/-- A slot of partition p cannot be restored: SPARE_EXHAUSTED, and p's draft halts (13 R441). -/
def State.spareExhausted (s : State) (n die : Nat) : State :=
  let p := s.partOfSlot n
  let s := s.event 0x0D0D { part := p, die := some die, slot := some n } []
  match p with
  | some p => if (s.part p).state = .running ∨ (s.part p).state = .armed then s.halt p else s
  | none => s

/-- A spindle die is lost (13 R438, R441, R442). Rolls back and fills a spare when it served a slot. -/
def State.spindleLost (s : State) (die : Nat) : State :=
  if s.cfg.lost.contains die ∨ 18 ≤ die ∨ s.role die = 3 then s
  else
    let s := { s with cfg := { s.cfg with lost := s.cfg.lost ++ [die] } }
    match s.slotOfDie die with
    | none =>
      if s.role die = 1 then
        let s := s.event 0x0D01 (ofDie die) []
        let ap := if s.spareDie 16 = some die then 16 else 17
        let s := s.odSet 0x3001 (die + 1) 0x20
        (s.setRail (dieRail die) 0).loseImages ap
      else s
    | some n =>
      let owner := s.partOfSlot n
      let s := s.event 0x0D01 { part := owner, die := some die, slot := some n } []
      let img := s.readableImage n
      let primary := bits (s.odGet 0x8002 (n + 1)) 4 0
      let spare := match (if primary = 16 ∨ primary = 17 then s.spareDie primary else none) with
        | some d => some d
        | none => s.spareDies.head?
      match spare with
      | none =>
        let s := ((s.odSet 0x3001 (die + 1) (0x20 + n)).setRail (dieRail die) 0).loseImages n
        s.spareExhausted n die
      | some new =>
        let ap := if s.spareDie 16 = some new then 16 else 17
        let key := img.bind fun i => s.imageKey i.1 i.2
        let others := s.foreignRanges (owner.getD 4) new
        let s := (s.moveSlot n die new).loseImages n
        match owner, key with
        | some p, some b =>
          let s := s.movePersist p n die new
          let running := (s.part p).state == .running
          let s := if running && !(s.part p).restoring then s.withholdAndRollback p 4 else s
          let s := { s with mem := others.foldl (fun m (r : Nat × Nat) => Mem.clear m r.1 r.2) s.mem }
          let s := (s.fillSpare p n new b).loseImages ap
          if running then s.setPart p { s.part p with spares := (s.part p).spares ++ [(n, die, new)] }
          else s.spareActivated p (n, die, new)
        | some p, none => ((s.movePersist p n die new).loseImages ap).spareExhausted n die
        | none, _ => s.loseImages ap

/-- A detected control fault of partition p, naming a die or none (13 R424, R425, 03 R117). -/
def State.detectedFault (s : State) (p : Nat) (die : Option Nat) : State :=
  let x := s.part p
  if x.state ≠ .running then s
  else
    let counted := x.restoring && bit x.restoreCause 2
    let s := s.withholdAndRollback p 4
    if counted then s
    else
      let x := s.part p
      let rolls := x.faultRolls ++ [die]
      let s := s.setPart p { x with faultRolls := rolls }
      if rolls.length < s.odGet 0x8001 0 then s
      else match die with
        | some d => if d < 18 ∧ rolls.all (fun r => r == some d) then s.spindleLost d else s.halt p
        | none => s.halt p

/-- A control fault found in partition p at a slot: its event, then its containment (03 R117). -/
def State.slotFault (s : State) (code n : Nat) (det : List EvField) : State :=
  let s := s.event code (s.ofSlot n) det
  match s.partOfSlot n with
  | some p => s.detectedFault p (s.dieOfSlot n)
  | none => s

/-- Failure warning (13 R448): a doff is requested of every running draft, warning_lead steps ahead (R450). -/
def State.failureWarning (s : State) : State :=
  let ps := (List.range 4).filter fun p => (s.part p).state == .running
  if ps.isEmpty then s.event 0x0D10 noOne []
  else ps.foldl (fun s p =>
    let e := (s.part p).epoch.toNat + s.odGet 0x8040 6
    let s := if e < s.odGet (0x8050 + p) 2 then s.odSet (0x8050 + p) 2 e else s
    s.event 0x0D10 (ofPart p) [.word e]) s

/-- A measure that moved from one value to another reached its threshold; 0 disables it (13 R448). -/
def State.warnIfReached (s : State) (sub before after : Nat) : State :=
  let thr := s.odGet 0x8040 sub
  if thr ≠ 0 ∧ before < thr ∧ thr ≤ after then s.failureWarning else s

end Sys2Proof.Machine
end

