-- ==== Sys2Proof/Machine/Tiles.lean ====
section
/-! DEFINITION. Machine/Tiles.lean: format codes, tile shapes, tile records and the tile flag word
(03 R96 to R101). -/

namespace Sys2Proof.Machine

/-- Element type and hank size fields of a format code (03 R96). -/
def fmtType (f : Nat) : Nat := f % 8
def fmtHank (f : Nat) : Nat := f / 8 % 8

/-- A format code that names a format: hanks other than none only with E4M3, E5M2 and BF16. -/
def formatValid (f : Nat) : Bool :=
  decide (f < 64) && fmtType f != 0 &&
  (fmtHank f == 0 || (decide (fmtHank f ≤ 4) && (fmtType f == 1 || fmtType f == 2 || fmtType f == 3)))

/-- Bytes of an element (03 Table 03-2). -/
def elemBytes (f : Nat) : Nat :=
  match fmtType f with
  | 1 | 2 | 7 => 1
  | 3 | 4 => 2
  | 5 => 4
  | 6 => 8
  | _ => 0

/-- Rows and columns of a tile. -/
def tileRows (f : Nat) : Nat := if fmtType f = 6 then 64 else 128
def tileCols (f : Nat) : Nat := if fmtType f = 5 ∨ fmtType f = 6 then 64 else 128

/-- Bytes of the payload and of the tile record (03 R97). -/
def payloadBytes (f : Nat) : Nat := tileRows f * tileCols f * elemBytes f
def recordBytes (f : Nat) : Nat := payloadBytes f + 1088

/-- Values in a hank (03 Table 03-2); 0 for a plain tile. -/
def hankSize (f : Nat) : Nat := if fmtHank f = 0 then 0 else 8 * 2 ^ fmtHank f

/-- Hanks of a tile. -/
def hankCount (f : Nat) : Nat := if fmtHank f = 0 then 0 else 16384 / hankSize f

/-- The tile record: payload, side band, flag word, 32 reserved bytes (03 R97). -/
def Tile.record (t : Tile) : List Byte := t.payload ++ t.band ++ bytesOf 32 t.flag ++ List.replicate 32 0

/-- A tile read from its record. -/
def tileOf (f : Nat) (l : List Byte) : Tile :=
  { format := f, payload := l.take (payloadBytes f), band := (l.drop (payloadBytes f)).take 1024,
    flag := natOf ((l.drop (payloadBytes f + 1024)).take 32) }

/-- Element code at an index of a tile's payload. -/
def Tile.code (t : Tile) (i : Nat) : Nat :=
  let n := elemBytes t.format
  natOf ((t.payload.drop (i * n)).take n)

/-- Element codes of a tile in index order. -/
def Tile.codes (t : Tile) : List Nat :=
  let n := elemBytes t.format
  (chunksOf n (t.payload.length / n) t.payload).map natOf

/-- An element code is a NaN or an infinity (03 R99, 04 R131). -/
def codeNan (f c : Nat) : Bool :=
  match fmtType f with
  | 1 => c % 128 == 127
  | 2 => c % 128 / 4 == 31 && c % 4 != 0
  | 3 => c / 128 % 256 == 255 && c % 128 != 0
  | 4 => c / 1024 % 32 == 31 && c % 1024 != 0
  | 5 => c / 2 ^ 23 % 256 == 255 && c % 2 ^ 23 != 0
  | 6 => c / 2 ^ 52 % 2048 == 2047 && c % 2 ^ 52 != 0
  | _ => false
def codeInf (f c : Nat) : Bool :=
  match fmtType f with
  | 2 => c % 128 / 4 == 31 && c % 4 == 0
  | 3 => c / 128 % 256 == 255 && c % 128 == 0
  | 4 => c / 1024 % 32 == 31 && c % 1024 == 0
  | 5 => c / 2 ^ 23 % 256 == 255 && c % 2 ^ 23 == 0
  | 6 => c / 2 ^ 52 % 2048 == 2047 && c % 2 ^ 52 == 0
  | _ => false
/-- An element code is ±0. -/
def codeZero (f c : Nat) : Bool := c % 2 ^ (8 * elemBytes f - 1) == 0

/-- First NaN of a tile: of an element, or the first element of a hank whose scale byte is 0xFF (R99, R100). -/
def firstNan (f : Nat) (codes : List Nat) (band : List Byte) : Option Nat :=
  let a := codes.findIdx? (codeNan f)
  let b := ((band.take (hankCount f)).findIdx? fun x => x.toNat == 0xFF).map fun h =>
    h * hankSize f
  match a, b with
  | some x, some y => some (min x y)
  | some x, none => some x
  | none, y => y

/-- First ±Inf of a tile: of an element outside the hanks whose scale byte is 0xFF, every element of which is NaN whatever
its code (R99; 04 R138). -/
def firstInf (f : Nat) (codes : List Nat) (band : List Byte) : Option Nat :=
  (((List.range codes.length).zip codes).find? fun e =>
    codeInf f e.2 && !(fmtHank f != 0 && (nth band (e.1 / hankSize f) 0).toNat == 0xFF)).map (·.1)

/-- All-zero hanks of a tile: scale byte not 0xFF, every element ±0 (04 R139). -/
def zeroHanks (f : Nat) (codes : List Nat) (band : List Byte) : Nat :=
  (((chunksOf (hankSize f) (hankCount f) codes).zip band).filter fun h =>
    h.1.all (codeZero f) && h.2.toNat != 0xFF).length

/-- Build a flag word (Table 03-3). -/
def flagWord (nan inf : Option Nat) (crush zeros hist sat under fmt index tensor : Nat) : Nat :=
  nan.getD 0x7FFF + (b2n nan.isSome <<< 15) + (inf.getD 0x7FFF <<< 16) + (b2n inf.isSome <<< 31)
  + (min crush 0xFFFF <<< 32) + (min zeros 0xFFFF <<< 48)
  + ((hist % 65536) <<< 64) + (min sat 0xFFFF <<< 80) + (min under 0xFFFF <<< 96) + (fmt <<< 112)
  + (((index % 2 ^ 32) + ((tensor % 65536) <<< 32)) <<< 128)

/-- Fields of a flag word other stations read. -/
def flagIndex (w : Nat) : Nat := bits w 159 128
def flagTensor (w : Nat) : Nat := bits w 175 160
def flagHist (w : Nat) : Nat := bits w 79 64
def flagNan (w : Nat) : Bool := bit w 15

/-- The flag word a window endpoint recomputes (R101). -/
def recomputedFlag (f : Nat) (payload band : List Byte) (hist index tensor : Nat) : Nat :=
  let t : Tile := ⟨f, payload, band, 0⟩
  let codes := t.codes
  flagWord (firstNan f codes band) (firstInf f codes band) 0 (zeroHanks f codes band) hist 0 0 f index tensor

/-- Transfer time of a tile at a station class, in cycles (03 Table 03-6). -/
def transferTime (cls idx f : Nat) : Nat :=
  let big := decide (16384 < payloadBytes f)
  match cls with
  | 3 => if idx = 32 then (if big then 32 else 16) else (if big then 32 else 16)
  | 5 | 6 => if big then 128 else 64
  | _ => if big then 64 else 32

end Sys2Proof.Machine
end

