-- ==== Sys2Proof/Machine/LoadCheck.lean ====
section
/-! DEFINITION. Machine/LoadCheck.lean: the draft load checks of 02 Table 02-7, in its order (02 R68 to
R71, R73; 03 R102 to R105, R110, R125; 10 R359, R584). -/

namespace Sys2Proof.Machine

/-- The bit-identity key OD 0x4001 as its 24 bytes (12 R401). -/
def State.identityKey (s : State) : List Byte :=
  bytesOf 1 (s.odGet 0x4001 1) ++ [0] ++ bytesOf 2 (s.odGet 0x4001 2) ++ bytesOf 4 (s.odGet 0x4001 3) ++
  bytesOf 16 (s.odGet 0x4001 4)

/-! ### Check 0x0F: malformed entries -/

/-- Header words outside Table 02-3. -/
def Draft.headerBad (d : Draft) : Bool :=
  bits (d.w 0) 63 50 != 0 || bits (d.w 2) 47 44 != 0 || bits (d.w 3) 63 47 != 0 || d.section_ 7 != 0 ||
  d.w 12 != 0 || d.w 13 != 0 || d.w 14 != 0 || d.w 15 != 0 ||
  d.stepTicks == 0 || d.variants == 0 || decide (16 < d.variants) || d.packages == 0 ||
  (d.clockMhz != 3000 && d.clockMhz != 2800) || decide (64 < d.windowCount)

/-- Section offsets that break R69. -/
def Draft.offsetsBad (d : Draft) : Bool :=
  decide (d.section_ 0 < 128) || decide (d.image.length - 64 < d.section_ 6) ||
  (List.range 6).any fun i => decide (d.section_ (i + 1) < d.section_ i)

/-- Raw words of table entry i of a section of 16-byte entries. -/
def entryWord (sec : List Byte) (i k : Nat) : Nat := natOf ((sec.drop (16 * i + 8 * k)).take 8)

/-- A window entry outside Table 02-4. -/
def windowBad (w0 w1 : Nat) : Bool :=
  bits w0 63 60 != 0 || bits w1 63 7 != 0 || bits w0 20 0 != 0 || bits w0 59 48 == 0 ||
  bits w1 1 0 == 3 || bits w1 6 3 == 15

/-- A gate entry outside Table 02-5. -/
def Draft.gateBad (d : Draft) (w0 w1 : Nat) : Bool :=
  bits w0 63 60 != 0 || bits w1 63 16 != 0 || bits w0 55 54 == 3 || bits w0 57 56 == 3 ||
  bits w0 55 54 == bits w0 57 56 || (bits w0 59 58 == 3 && bits w0 55 54 != 1) ||
  decide (d.stepTicks ≤ bits w0 47 32) ||
  (bits w0 59 58 == 0 && bits w0 55 54 != 1 && bits w1 15 0 == 0)

/-- Instant of a gate within the step. -/
def GateDesc.instant (g : GateDesc) : Nat := g.tick * 2 ^ 32 + g.cycle

/-- A gate table out of order, or two gates of one window at one instant (R71). -/
def gatesUnordered : List GateDesc → Bool
  | [] => false
  | g :: l =>
    l.any (fun h => decide (h.instant < g.instant) || (h.instant == g.instant && h.window == g.window)) ||
    gatesUnordered l

/-- Bytes of a memory endpoint's memory (03 Table 03-5); none for a class without addresses. -/
def Draft.endpointBytes (d : Draft) (st : Nat) : Option Nat :=
  let i := bits st 5 0
  match bits st 15 12 with
  | 3 => some (if i < 32 then 2 ^ 24 else if i = 32 then 2 ^ 27 else 0)
  | 8 => some (2 ^ 36)
  | 7 => some (match d.wins[i]? with | some w => w.bytes | none => 0)
  | _ => none

/-- One end of a roving: its records lie inside the endpoint's memory, or its address is 0 (03 R103). -/
def Draft.endBad (d : Draft) (r : Roving) (st addr : Nat) : Bool :=
  match d.endpointBytes st with
  | none => addr != 0
  | some n =>
    addr % 64 != 0 || decide (n < addr + (if r.ring = 0 then r.count else min r.count r.ring) * recordBytes r.format)

/-- A roving entry outside Table 03-4 (eight raw words and the entry read from them). -/
def Draft.rovingBad (d : Draft) (w : List Nat) (r : Roving) : Bool :=
  bits (nth w 0 0) 47 46 != 0 || bits (nth w 2 0) 63 60 != 0 || bits (nth w 5 0) 63 52 != 0 ||
  nth w 6 0 != 0 || nth w 7 0 != 0 || r.count == 0 || r.interval == 0 ||
  decide (d.stepTicks ≤ r.startTick) || decide (d.span ≤ r.startCycle) ||
  d.endBad r r.srcStation r.srcAddr || d.endBad r r.dstStation r.dstAddr

/-- An index of n entries that breaks R110: too short a section, or data outside it. -/
def indexBad (sec : List Byte) (n : Nat) : Bool :=
  decide (sec.length < 8 * n) || (List.range n).any fun i =>
    let e := (sec.drop (8 * i)).take 8
    let off := natOf (e.take 4)
    let c := natOf (e.drop 4)
    c != 0 && (decide (off < 8 * n) || decide (sec.length < off + 16 * c))

/-- The fabric die that handles chunk c in variant v: FX(c mod 8), or in a variant after the loss of FXf
the k-th survivor, k = c mod 7 (10 R345, 13 R446). -/
def variantDie (v c : Nat) : Nat :=
  if 5 ≤ v ∧ v ≤ 12 then (if c % 7 < v - 5 then c % 7 else c % 7 + 1) else c % 8

/-- Cycle of a sequencer entry. -/
def seqCycle (w : Nat) : Nat := bits w 31 0

/-- Sequencer entries of one index entry that break R584. -/
def seqBad (v f : Nat) : List Nat → Bool
  | [] => false
  | w :: l =>
    decide (1 < bits w 127 120) || bits w 93 64 != 0 ||
    (bits w 127 120 == 1 && variantDie v (bits w 63 32) != f) ||
    l.any (fun x => decide (seqCycle x < seqCycle w)) || seqBad v f l

/-- Streams and sequencer of variant v that break R110 or R584. -/
def Draft.variantBad (d : Draft) (v : Nat) : Bool :=
  indexBad (d.streamSection v) (d.slots.length * d.stepTicks) ||
  indexBad (d.seqSection v) (8 * d.stepTicks) ||
  (List.range 8).any fun f => (List.range d.stepTicks).any fun k => seqBad v f (d.sequence v f k)

/-- Variant entries whose sections reach outside the variants section (03 R125). -/
def Draft.variantEntryBad (d : Draft) (v : Nat) : Bool :=
  let sec := d.sectionBytes 6
  let lo := d.section_ 6 + 48 * (d.variants - 1)
  let hi := d.image.length - 64
  decide (sec.length < 48 * (d.variants - 1)) || (List.range 3).any fun i =>
    let e := sec.drop (48 * (v - 1) + 16 * i)
    let off := natOf (e.take 8)
    decide (off < lo) || decide (hi < off + natOf ((e.drop 8).take 8))

/-- Check 0x0F. DEDUCED (log 62): a rovings section that is no whole number of 64-byte entries holds a malformed entry. -/
def Draft.malformed (d : Draft) : Bool :=
  d.headerBad || d.offsetsBad ||
  (let gs := d.sectionBytes 3
   let ws := d.sectionBytes 4
   let rs := d.sectionBytes 0
   decide (gs.length < 16 * d.gateCount) || decide (ws.length < 16 * d.windowCount) ||
   (List.range d.windowCount).any (fun i => windowBad (entryWord ws i 0) (entryWord ws i 1)) ||
   (List.range d.gateCount).any (fun i => d.gateBad (entryWord gs i 0) (entryWord gs i 1)) ||
   gatesUnordered d.gates ||
   rs.length % 64 != 0 || decide (4096 < d.rovs.length) ||
   ((List.range d.rovs.length).zip d.rovs).any (fun e =>
     d.rovingBad (wordsOf ((rs.drop (64 * e.1)).take 64)) e.2)) ||
  (List.range (d.variants - 1)).any (fun v => d.variantEntryBad (v + 1)) ||
  (List.range d.variants).any fun v => d.variantBad v

/-! ### Checks 0x04 to 0x0E -/

/-- Check 0x04: partition, slot mask, group mask, and slots no die serves (13 R441). -/
def State.masksBad (s : State) (p : Nat) (d : Draft) : Bool :=
  d.partition != p || !s.partValid p ||
  d.slots.any (fun n => !bit (s.desc p) n || (s.dieOfSlot n).isNone) ||
  (maskBits 16 d.groupMask).any fun g => !bit (s.desc p) (16 + g)

/-- Issue cycles of commands in stream order, from a segment base (03 R111, R114). -/
def issueCycles : Nat → List Nat → List Nat
  | _, [] => []
  | base, w :: l =>
    (base + bits w 63 40) :: issueCycles (if bits w 127 120 = 1 ∧ stationOf (bits w 119 104) = 0 then bits w 31 0 else base) l

/-- Draft tick and span cycle of tile i of a roving (03 R105). -/
def Draft.tileTime (d : Draft) (r : Roving) (i : Nat) : Nat × Nat :=
  let p := r.startCycle + i * r.interval
  (r.startTick + p / d.span, p % d.span)

/-- Check 0x07: headroom, and draft events beyond the scheduled span or the step. -/
def Draft.beyondSpan (d : Draft) : Bool :=
  decide (50 < d.headroom) ||
  (List.range d.variants).any (fun v =>
    d.slots.any (fun n => (List.range d.stepTicks).any fun k =>
      (issueCycles 0 (d.commands v n k)).any fun c => decide (d.span ≤ c)) ||
    (List.range 8).any fun f => (List.range d.stepTicks).any fun k =>
      (d.sequence v f k).any fun w => decide (d.span ≤ seqCycle w)) ||
  d.gates.any (fun g => decide (d.span ≤ g.cycle)) ||
  d.rovs.any fun r => decide (d.stepTicks ≤ (d.tileTime r (r.count - 1)).1)

/-- Check 0x08: windows inside the partition's regions and world, without overlap. -/
def State.windowsBad (s : State) (p : Nat) (d : Draft) : Bool :=
  let world := s.partWorld p
  d.wins.any (fun w => !s.inRegions p w.base (w.bytes * w.buffers) ||
    (List.range (w.size * w.buffers)).any fun i =>
      match s.place (w.base + i * 2 ^ 21) with
      | .stack die o => (s.region? die (o / 2 ^ 21)).all fun v => bit v 32 != world
      | _ => true) ||
  (List.range d.wins.length).any fun i => (List.range i).any fun j =>
    match d.wins[i]?, d.wins[j]? with
    | some a, some b => decide (a.base < b.bufBase b.buffers) && decide (b.base < a.bufBase a.buffers)
    | _, _ => false

/-- Owners of the windows over a step: window, position in the step at which it changes, new owner. -/
def ownersAfter (own : List Side) : List GateDesc → Option (List Side)
  | [] => some own
  | g :: l =>
    match own[g.window]? with
    | some o => if o = g.src then ownersAfter (own.set g.window g.dst) l else none
    | none => none

/-- Position of a gate in the step, in span cycles. -/
def Draft.gateAt (d : Draft) (g : GateDesc) : Nat := g.tick * d.span + g.cycle

/-- Intervals of a step in which a window's owner is not the spindle side: start and end. -/
def Draft.awayFrom (d : Draft) (w : Nat) (first : Side) : List (Nat × Nat) :=
  let gs := d.gates.filter fun g => g.window == w
  let cuts := (0, first) :: gs.map fun g => (d.gateAt g, g.dst)
  let ends := (gs.map d.gateAt) ++ [d.stepTicks * d.span]
  (cuts.zip ends).filterMap fun e => if e.1.2 = .spindle then none else some (e.1.1, e.2)

/-- A tile time of a roving with a C endpoint falls where the spindle side does not own the window. -/
def Draft.tileAway (d : Draft) (r : Roving) : Bool :=
  let base := r.startTick * d.span + r.startCycle
  [r.srcStation, r.dstStation].any fun st =>
    bits st 15 12 == 7 &&
    match d.wins[bits st 5 0]? with
    | none => true
    | some w => (d.awayFrom (bits st 5 0) w.first).any fun iv =>
      let i := ceilDiv (iv.1 - base) r.interval
      decide (i < r.count) && decide (base + i * r.interval < iv.2)

/-- Check 0x09. -/
def Draft.ownersBad (d : Draft) : Bool :=
  (match ownersAfter (d.wins.map fun w => w.first) d.gates with
   | none => true
   | some o => o != d.wins.map fun w => w.first) || d.rovs.any d.tileAway

/-- Check 0x0D: host windows (R81). -/
def Draft.hostWindowsBad (d : Draft) : Bool :=
  ((List.range d.wins.length).zip d.wins).any fun e =>
    let gs := d.gates.filter fun g => g.window == e.1
    if d.isHostWin e.1 then
      !e.2.double || decide (2 < ((gs.map fun g => g.src) ++ gs.map fun g => g.dst).eraseDups.length)
    else decide (0 < e.2.extra)

/-- Check 0x0C: a variant's signatures do not cover every tick of every slot (03 R125). -/
def Draft.signaturesShort (d : Draft) (v : Nat) : Bool :=
  decide ((d.sigSection v).length < 32 * d.slots.length * d.sigBefore d.stepTicks)

/-- The draft image named lies in the partition's regions, on a package whose partitions are committed (checks 0x01, 0x02). -/
def State.imageThere (s : State) (p : Nat) : Bool :=
  s.odGet 0x3012 0 == 1 && decide (192 ≤ s.odGet (0x2020 + p) 2) && s.inRegions p (s.odGet (0x2020 + p) 1) (s.odGet (0x2020 + p) 2)

/-- Reason a load is refused, 0 when every check passes (R73, Table 02-7 in its order), and the draft. -/
def State.loadReason (s : State) (p : Nat) : Nat × Draft :=
  let a := s.odGet (0x2020 + p) 1
  let n := s.odGet (0x2020 + p) 2
  let none_ : Draft := ⟨[], [], [], [], []⟩
  if s.odGet 0x3012 0 ≠ 1 then (0x01, none_)
  else if n < 192 ∨ ¬ s.inRegions p a n then (0x02, none_)
  else
    let image := s.readPa a n
    let d := readDraft image
    let r :=
      if bits (d.w 0) 47 0 ≠ 0x000144524146 then 0x02
      else if shake256 64 (image.take (n - 64)) ≠ d.digest then 0x03
      else if d.malformed then 0x0F
      else if s.masksBad p d then 0x04
      else if slice image 32 64 ≠ s.identityKey ++ List.replicate 8 0 then 0x05
      else if d.tickPeriod ≠ s.tickPeriod ∨ d.clockMhz ≠ s.clockMhz then 0x06
      else if d.beyondSpan then 0x07
      else if s.windowsBad p d then 0x08
      else if d.ownersBad then 0x09
      else if d.gates.any (fun g => g.policy == 1 && g.src != .spindle &&
          !((d.wins[g.window]?).map fun w => w.double).getD false) then 0x0A
      else if 1 < d.packages ∧ d.gates.any GateDesc.stallCapable then 0x0B
      else if (List.range d.variants).any d.signaturesShort then 0x0C
      else if d.hostWindowsBad then 0x0D
      else if 1 < d.packages ∧ ¬ s.group63Ok p d.packages then 0x0E
      else 0
    (r, d)

end Sys2Proof.Machine
end

