-- ==== Sys2Proof/Machine/Draft.lean ====
section
/-! DEFINITION. Machine/Draft.lean: draft control (02 R72 to R76), gates and windows (02 R78 to R87; 07
R261; 12 R419), step commit (02 R77, 13 R427, R436, R450), output release (02 R67, R88, R89; 17 R548;
18 R574), and the signature comparison (03 R126). -/

namespace Sys2Proof.Machine

/-! ### Windows in states LOADED and ARMED (02 R81, R85) -/

/-- The draft side of a host window. -/
def Draft.draftSide (d : Draft) (w : Nat) : Side :=
  match d.gates.find? fun g => g.window == w with
  | some g => if g.src = .host then g.dst else g.src
  | none => .solver

/-- Buffer of a host window that the draft side has before draft start: buffer 0 (R81). DESIGN CHOICE (log 12): while
buffer 0 is a committed output that is still held, which a stop does not discard (R76), the first buffer that is none. -/
def Draft.firstBuf (held : List HeldOut) (w n : Nat) : Nat :=
  ((List.range n).find? fun b => !held.any fun h => h.window == w && h.buf == b && !h.gone).getD 0

/-- A window as it stands before draft start: outputs of an earlier run that are still held stay held
in the host queue. -/
def Draft.initWin (d : Draft) (held : List HeldOut) (w : Nat) : WinSt :=
  match d.wins[w]? with
  | none => { owner := .solver, bufs := [] }
  | some x =>
    let n := x.buffers
    if d.isHostWin w then
      let mine := x.first != .host
      let own := Draft.firstBuf held w n
      let hosts := (List.range n).filter fun b => !(mine && b == own)
      { owner := x.first,
        bufs := (List.range n).map (fun b => if mine && b == own then .held x.first else .held .host),
        queue := hosts.map fun b =>
          match held.find? fun h => h.window == w && h.buf == b && !h.gone with
          | some h => ⟨b, false, false, h.tick⟩
          | none => ⟨b, true, false, 0⟩ }
    else
      { owner := x.first, bufs := (List.range n).map fun b => if b = 0 then .held x.first else .spare }

/-- All windows of a draft as they stand before draft start. -/
def Draft.initWins (d : Draft) (held : List HeldOut) : List WinSt :=
  (List.range d.wins.length).map (d.initWin held)

/-- A draft comes to rest in LOADED: nothing runs, and its windows stand as before a start. -/
def State.toLoaded (s : State) (p : Nat) : State :=
  let x := s.part p
  match x.draft with
  | none => s
  | some d =>
    let s := s.dropDraftColls p
    let s := if x.replay.on then s.odSet (0x2034 + p) 5 2 else s
    s.setPart p { x with
      state := .loaded, stopPending := false, stalled := [], waiting := [], restoring := false,
      restoreCause := 0, pauseUntil := .none, flight := [], stepOver := false, lag := 0,
      wins := d.initWins x.held, doffStep := false, doffNext := false, replay := {} }

/-! ### Commands of draft control (02 R72 to R76) -/

/-- A draft command is refused: reason, event, state unchanged (R73). -/
def State.draftReject (s : State) (p reason : Nat) : State × Bool :=
  ((s.odSet (0x2020 + p) 6 reason).event 0x0208 (ofPart p) [.half reason], false)

/-- Valid persistent ranges of partition p: first address and bytes (13 Table 13-3). -/
def State.declaredRanges (s : State) (p : Nat) : List (Nat × Nat) :=
  (List.range 64).filterMap fun i =>
    let v := s.odGet (0x8010 + p) (i + 1)
    if bit v 96 then some (bits v 47 0, bits v 95 64 * 64) else none

/-- A persistent range lies wholly in the SRAM window of a slot of p, or in a slot aperture of p below
L − 1 GiB (13 R433). -/
def State.rangeKey (s : State) (p pa n : Nat) : Option Nat :=
  if n = 0 then none
  else match s.place pa, s.place (pa + n - 1) with
  | .sram m d o, .sram m' _ _ => if m = m' ∧ s.partOfSlot m = some p then some (sramKey d o) else none
  | .stack d o, .stack d' _ =>
    if d = d' ∧ d < 18 ∧ pa / 2 ^ 36 < 16 ∧ s.partOfSlot (pa / 2 ^ 36) = some p ∧
        o + n ≤ s.buddyBytes - 2 ^ 30 then some (stackKey d o) else none
  | _, _ => none

/-- Put the persistent ranges in force, ignoring each that is out of place (13 R433). -/
def State.takeRanges (s : State) (p : Nat) : State :=
  (s.declaredRanges p).foldl (fun s r =>
    match s.rangeKey p r.1 r.2 with
    | some k => s.setPart p { s.part p with persist := (s.part p).persist ++ [(k, r.2)] }
    | none => s.event 0x0D08 (ofPart p) []) (s.setPart p { s.part p with persist := [] })

/-- OD 0x8006 *slot_live_set*: persistent bytes of each slot of p (13 R434). -/
def State.setLiveSets (s : State) (p : Nat) : State :=
  (s.partSlots p).foldl (fun s n =>
    s.odSet 0x8006 (n + 1) ((s.persistKeys p n).map fun r => r.2).sum) s

/-- Extend measurement register MRk (14 R478). -/
def State.extendMr (s : State) (k : Nat) (data : List Byte) : State :=
  let old := fmGet s.sec.mr k (List.replicate 64 0)
  { s with sec := { s.sec with mr := fmSet s.sec.mr k (shake256 64 (old ++ data)) } }

/-- A draft that passed every check is LOADED (02 R73, R81, R85; 09 R330; 10 R361, R362; 13 R433;
14 R474, R478). -/
def State.installDraft (s : State) (p : Nat) (d : Draft) : State :=
  let s := d.windowRegions.foldl (fun s r =>
    let s := if (s.ownEnt r).state = 1 then s.forceOpen r else s
    s.setOwn r 2 0 0) s
  let res := s.reservations p d
  let s := s.odSet (0x2020 + p) 7 (natOf d.digest)
  let s := s.setPart p { s.part p with
    state := .loaded, draft := some d, wins := d.initWins [], creel := res, variant := 0,
    epoch := 0, slip := 0, lag := 0 }
  let held := s.creelHeld p
  let s := s.zeroGranules (res.filter fun g => !held.contains g)
  let s := { s with sec := { s.sec with
    debugMask := setBit s.sec.debugMask p false, debugCaps := fmDel s.sec.debugCaps p } }
  let s := s.extendMr (6 + p) d.digest
  (s.takeRanges p).setLiveSets p

/-- A slot's partner for deltas: the next slot of the partition in cyclic order, else the lowest solver
aperture among the partition's groups (13 R436). -/
def State.buddyPartner (s : State) (p n : Nat) : Option Nat :=
  let l := (s.partSlots p).filter fun m => (s.dieOfSlot m).isSome
  match (l.filter fun m => decide (n < m)) ++ l.filter fun m => decide (m < n) with
  | m :: _ => some m
  | [] => ((s.partGroups p).map fun g => 18 + g / 4).find? fun a => !s.cfg.lost.contains a

/-- A window of the draft in slot n's aperture reaches L − 1 GiB or above (13 R433). -/
def State.windowAbove (s : State) (d : Draft) (n : Nat) : Bool :=
  d.wins.any fun w => w.base / 2 ^ 36 == n &&
    decide (s.buddyBytes - 2 ^ 30 < w.base % 2 ^ 36 + w.bytes * w.buffers)

/-- Reason a start is refused, 0 when it is not (R73). DESIGN CHOICE (log 61): a cadence unit that is dead, with both FX0 and
FX1 or REFCLK_SYS lost, refuses with reason 0x12 as before the first LOCKED tick: no tick will come. -/
def State.startReason (s : State) (p : Nat) : Nat :=
  let x := s.part p
  match x.state, x.draft with
  | .loaded, some d =>
    if ¬ s.cad.everLocked ∨ s.cad.dead then 0x12
    else if s.odGet (0x2020 + p) 5 < s.cad.tick.toNat + 2 then 0x11
    else if 1 < d.packages ∧ ¬ s.group63Ok p d.packages then 0x0E
    else 0
  | _, _ => 0x10

/-- Abort a draft (R76): LOADED at once, its outputs not yet released discarded. -/
def State.abortDraft (s : State) (p : Nat) : State :=
  let s := (s.draftSlots p).foldl (fun s n => s.clearSlot n) s
  (s.setPart p { s.part p with 
    held := (s.part p).held.filter (fun h => h.gone), heldTiles := (s.part p).heldTiles.filter (fun h => h.gone),
    commits := (s.part p).commits.filter (fun h => h.gone), dropTick := some s.cad.tick.toNat }).toLoaded p

/-- A LOADED draft is EMPTY: its window regions OPEN, its creel zeroed and released (09 R330, 10 R362). Outputs of committed
steps stay held until their release instant (R88); a host buffer among them is then only notified of, since its window is
gone (DESIGN CHOICE, log 12). -/
def State.emptyDraft (s : State) (p : Nat) : State :=
  match (s.part p).draft with
  | none => s
  | some d =>
    let s := d.windowRegions.foldl (fun s r => s.setOwn r 0 0 0) s
    let s := s.zeroGranules (s.part p).creel
    let s := s.odSet (0x2020 + p) 7 0
    s.setPart p { s.part p with
      state := .empty, draft := .none, wins := [], winsCommit := [], creel := [], persist := [],
      held := (s.part p).held.map (fun h => { h with gone := true })
      heldTiles := (s.part p).heldTiles.map (fun h => { h with gone := true })
      commits := (s.part p).commits.map fun h => { h with gone := true } }

/-! ### Draft start (02 R74, R75; 03 R122; 10 R368; 12 R406, R411, R419; 13 R433 to R437; 17 R556) -/

/-- The variant that fits the losses so far; none when more than one die of Table 13-5 is lost. -/
def State.lossVariant (s : State) : Option Nat :=
  match ((List.range 12).filter fun i => s.cfg.lost.contains (18 + i)) with
  | [] => some 0
  | [i] => some (i + 1)
  | _ => none

/-- Buddy states at the start tick: ready, or unprotected (13 R433, R435 to R437). -/
def State.startBuddies (s : State) (p seeding : Nat) (d : Draft) : State :=
  (s.partSlots p).foldl (fun s n =>
    if s.odGet 0x8005 (n + 1) ≠ 1 then
      if s.windowAbove d n ∧ s.odGet 0x8005 (n + 1) ≠ 0 then s.unprotect n else s
    else if bit seeding n || s.windowAbove d n || (s.buddyPartner p n).isNone then s.unprotect n
    else
      let s := (s.images n).foldl (fun s i => s.seedImage p n i) s
      (s.odSet 0x8005 (n + 1) 2).event 0x0D0B (s.slotOnly n) []) s

/-- The stream's OPEN record names another format version than 2 (12 R418). -/
def State.oldStream (s : State) (p : Nat) : Bool :=
  (s.replayFind p 1 none replayFuel 0).any fun o => bits (s.replayWord p o 0) 15 0 != 2

/-- Begin replay of a partition that holds a stream (12 R418, R419): the offset of its ticks and its key. -/
def State.startReplay (s : State) (p : Nat) : State :=
  if s.odGet 0x2030 4 = 0 ∨ s.odGet (0x2034 + p) 4 = 0 ∨ s.oldStream p then s
  else match s.replayFind p 4 none replayFuel 0 with
  | none => s
  | some o =>
    let off : Int := (s.cad.tick.toNat : Int) - (s.replayWord p o 0 : Nat)
    let s := s.setPart p { s.part p with replay := { on := true, offset := off, cursor := o } }
    let s := s.odSet (0x2034 + p) 5 1
    let s := match s.replayFind p 9 none replayFuel o with
      | some k => s.odSet (0x4010 + p) 1 (s.replayWord p k 2 + s.replayWord p k 3 * 2 ^ 64)
      | none => s
    s.selectSource

/-- Write a SEED record: the key, and whether it came from entropy (12 Table 12-7). -/
def State.seedRecord (s : State) (p : Nat) : State :=
  let k := s.odGet (0x4010 + p) 1
  s.reel p 9 2 [b2n (s.part p).keyEntropy, 0, k % 2 ^ 64, k / 2 ^ 64]

/-! ### Gates (02 R79 to R87) -/

/-- Buffer a gate takes from its releasing side: the released one, or for the spindle side the held one. -/
def WinSt.passable (w : WinSt) (src : Side) : Option Nat :=
  match w.bufs.findIdx? fun b => b == .released src with
  | some b => some b
  | none => w.heldBy src

/-- A gate is on time: never late from the spindle side; from the host when the head of the queue is
released; else when the release flag is set (R79, R80, R81). -/
def GateDesc.ready (g : GateDesc) (w : WinSt) : Bool :=
  match g.src with
  | .spindle => true
  | .host =>
    if (w.passable g.dst).isSome then true
    else (w.queue.head?).any fun e => e.released
  | .solver => w.flag

/-- Buffers of a window after a side has received one: it holds only that one, and what it held or had
released becomes the spare (R85). -/
def receiveBuf (bufs : List BufSt) (side : Side) (b : Nat) : List BufSt :=
  ((List.range bufs.length).zip bufs).map fun e =>
    if e.1 = b then .held side
    else if e.2 = .held side ∨ e.2 = .released side then .spare else e.2

/-- Write window w of partition p. -/
def State.setWin (s : State) (p w : Nat) (x : WinSt) : State :=
  s.setPart p { s.part p with wins := (s.part p).wins.set w x }

/-- Window w of partition p. -/
def State.win (s : State) (p w : Nat) : WinSt := nth (s.part p).wins w { owner := .solver, bufs := [] }

/-- Digest of a window buffer: the first 32 bytes of SHAKE256 (12 R414). -/
def State.bufDigest (s : State) (x : WinDesc) (b : Nat) : List Byte := shake256 32 (s.readPa (x.bufBase b) x.bytes)

/-- The WINDOW_IN record of a window in the running tick of p's replay stream, from a cursor (12 R419). -/
def State.replayWindow (s : State) (p w : Nat) : Nat → Nat → Option Nat
  | 0, _ => none
  | n + 1, off =>
    match s.replayFind p 6 (some (s.tickOf (some p))) replayFuel off with
    | none => none
    | some o => if s.replayWord p o 0 % 64 = w then some o else s.replayWindow p w n (o + 96)

/-- A WINDOW_IN record for a window that passes from the host, compared with the stream in replay (12 R414, R419). -/
def State.windowIn (s : State) (p w b : Nat) (x : WinDesc) : State :=
  let dg := wordsOf (s.bufDigest x b)
  let s := s.reel p 6 3 ((w + (b <<< 6)) :: dg)
  let r := (s.part p).replay
  if !r.on then s
  else
    let same := match s.replayWindow p w 64 r.cursor with
      | some o => (List.range 4).map (fun i => s.replayWord p o (i + 1)) == dg
      | none => false
    if same then s else (s.event 0x0C08 (ofPart p) []).halt p

/-- A window has changed hands: the receiver learns of it (R79; 07 R257, R261, R262). -/
def State.passed (s : State) (p w : Nat) (side : Side) (x : WinSt) : State :=
  let ep := (s.part p).epoch.toNat
  match side with
  | .solver => (s.setWin p w { x with owner := .solver, flag := false, epoch := ep, counted := [], writeBack := false }).grantHarts p w
  | _ => s.setWin p w { x with owner := side, flag := false, epoch := ep }

/-- Ownership passes at a gate that is on time (R79, R81, R85). -/
def State.passGate (s : State) (p : Nat) (d : Draft) (g : GateDesc) : State :=
  let w := s.win p g.window
  match d.wins[g.window]? with
  | none => s
  | some x =>
    if g.dst = .host then
      match w.passable g.src with
      | none => s.passed p g.window .host w
      | some b =>
        let s := s.setPart p { s.part p with
          held := (s.part p).held ++ [⟨g.window, b, s.cad.tick.toNat, (s.part p).epoch.toNat, none, false⟩] }
        s.passed p g.window .host { w with bufs := w.bufs.set b (.held .host), queue := w.queue ++ [⟨b, false, false, s.cad.tick.toNat⟩] }
    else if g.src = .host then
      match w.passable g.dst, w.queue with
      | some b, _ => s.passed p g.window g.dst { w with bufs := w.bufs.set b (.held g.dst) }
      | none, e :: l =>
        let s := s.passed p g.window g.dst { w with bufs := w.bufs.set e.buf (.held g.dst), queue := l }
        s.windowIn p g.window e.buf x
      | none, [] => s
    else
      match w.passable g.src with
      | some b => s.passed p g.window g.dst { w with bufs := receiveBuf w.bufs g.dst b }
      | none => s

/-- A late gate under the reuse policy (R81, R85): the spare, or the newest buffer of the host queue. -/
def State.reuseGate (s : State) (p : Nat) (g : GateDesc) : State :=
  let w := s.win p g.window
  let mark := fun (s : State) => s.setPart p { s.part p with reused := (s.part p).reused ||| (1 <<< g.window) }
  if g.src = .host then
    match w.queue.getLast? with
    | some e =>
      mark (s.passed p g.window g.dst { w with bufs := w.bufs.set e.buf (.held g.dst), queue := w.queue.dropLast })
    | none => s
  else if g.dst = .host then mark (s.passed p g.window .host w)
  else
    match w.bufs.findIdx? fun b => b == .spare with
    | some b => mark (s.passed p g.window g.dst { w with bufs := receiveBuf w.bufs g.dst b })
    | none => mark s

/-- LATE_GATE on every late gate (R83): window, step epoch, tick, policy. -/
def State.lateEvent (s : State) (p : Nat) (g : GateDesc) : State :=
  s.event 0x020A (ofPart p) [.half g.window, .word (s.part p).epoch.toNat, .half g.policy]

/-- The LATE_GATE record when a late gate is resolved: 0 passed, 1 reused, 2 rolled back (12 Table 12-7). -/
def State.lateRecord (s : State) (p i : Nat) (g : GateDesc) (outcome slip : Nat) : State :=
  s.reel p 8 2 [i + (g.window <<< 8) + (g.policy <<< 14) + (outcome <<< 16) + ((slip % 2 ^ 32) <<< 32)]

/-- A late gate fails the step (R86): rollback, and halt after *fail_retry_limit* of one epoch. -/
def State.failStep (s : State) (p : Nat) : State :=
  let s := s.withholdAndRollback p 1
  let x := s.part p
  if x.state ≠ .running then s
  else
    let s := s.setPart p { x with lateRolls := x.lateRolls + 1 }
    if x.lateRolls + 1 < s.odGet (0x2020 + p) 11 then s else s.halt p

/-- A recorded LATE_GATE of gate i whose first test fell in the running replay tick: outcome and slip (12 R419). -/
def State.replayLate (s : State) (p i tick : Nat) : Nat → Nat → Option (Nat × Nat)
  | 0, _ => none
  | n + 1, off =>
    match s.replayFind p 8 none replayFuel off with
    | none => none
    | some o =>
      let w := s.replayWord p o 0
      let ts := s.readPa64 (s.odGet (0x2034 + p) 4 + o + 8)
      let slip := bits w 63 32
      if bits w 7 0 = i ∧ ts = tick + slip then some (bits w 17 16, slip)
      else s.replayLate p i tick n (o + 64)

/-- What is recorded of gate i, when the partition replays: none, a gate that was on time. -/
def State.recorded (s : State) (p i : Nat) : Option (Nat × Nat) :=
  s.replayLate p i (s.tickOf (some p)) replayFuel (s.part p).replay.cursor

/-- Gates a draft numbers, with their numbers. -/
def Draft.numbered (d : Draft) (l : List Nat) : List (Nat × GateDesc) :=
  l.filterMap fun i => (d.gates[i]?).map fun g => (i, g)

/-- Late gates of one instant are resolved together (R87): any fail-step decides, else any stall, else
each is reused. `first` is false at a retest, which adds slip. -/
def State.lateGates (s : State) (p : Nat) (late : List (Nat × GateDesc)) (slip : Nat) : State :=
  let beyond := fun (g : GateDesc) => g.policy == 0 && decide (g.stallLimit < slip + 1)
  if late.any fun e => e.2.policy == 2 || beyond e.2 then
    let s := late.foldl (fun s e => s.lateRecord p e.1 e.2 2 slip) s
    s.failStep p
  else if late.any fun e => e.2.policy == 0 then
    let x := s.part p
    s.setPart p { x with stalled := late.map (fun e => e.1), stallSlip := slip + 1, slip := x.slip + 1 }
  else
    late.foldl (fun s e => (s.reuseGate p e.2).lateRecord p e.1 e.2 1 slip) s

/-- Gates of one instant take effect (R79, R83 to R87). -/
def State.gates (s : State) (p : Nat) (d : Draft) (l : List (Nat × GateDesc)) : State :=
  let s := s.setPart p { s.part p with gatesDone := (s.part p).gatesDone ++ l.map fun e => e.1 }
  let late := l.filter fun e => !e.2.ready (s.win p e.2.window)
  let s := (l.filter fun e => e.2.ready (s.win p e.2.window)).foldl (fun s e => s.passGate p d e.2) s
  let s := late.foldl (fun s e => s.lateEvent p e.2) s
  let s := s.setPart p { s.part p with stallCycle := ((l.head?).map fun e => e.2.cycle).getD 0 }
  if late.isEmpty ∨ (s.part p).state ≠ .running then s else s.lateGates p late 0

/-- Gates of one instant in replay (12 R419): a recorded late gate acts as recorded, any other waits. -/
def State.replayGates (s : State) (p : Nat) (d : Draft) (l : List (Nat × GateDesc)) : State :=
  let s := s.setPart p { s.part p with
    gatesDone := (s.part p).gatesDone ++ l.map (fun e => e.1),
    stallCycle := ((l.head?).map fun e => e.2.cycle).getD 0 }
  let rec_ := l.filterMap fun e => (s.recorded p e.1).map fun r => (e, r)
  let free := l.filter fun e => (s.recorded p e.1).isNone
  let s := rec_.foldl (fun s e => s.lateEvent p e.1.2) s
  if rec_.any fun e => e.2.1 == 2 then
    (rec_.foldl (fun s e => s.lateRecord p e.1.1 e.1.2 2 e.2.2) s).failStep p
  else
    let slipped := rec_.filter fun e => e.2.1 == 0
    let s := (free.filter fun e => e.2.ready (s.win p e.2.window)).foldl (fun s e => s.passGate p d e.2) s
    let s := (rec_.filter fun e => e.2.1 == 1).foldl (fun s e =>
      (s.reuseGate p e.1.2).lateRecord p e.1.1 e.1.2 1 e.2.2) s
    let wait := free.filter fun e => !e.2.ready (s.win p e.2.window)
    let x := s.part p
    s.setPart p { x with
      stalled := slipped.map (fun e => e.1.1), waiting := wait.map (fun e => e.1),
      stallSlip := if slipped.isEmpty then 0 else 1, slip := if slipped.isEmpty then x.slip else x.slip + 1 }

/-- The draft resumes from the cycle at which it stopped (R84). -/
def State.resume (s : State) (p : Nat) : State :=
  let x := s.part p
  s.setPart p { x with
    stalled := [], waiting := [], stallSlip := 0, tickBegan := s.now - x.stallCycle * s.cycleUnits,
    pauseFrom := s.now }

/-- A retest of stalled gates (R84, R87). -/
def State.retest (s : State) (p : Nat) (d : Draft) : State :=
  let x := s.part p
  let l := d.numbered x.stalled
  let slip := x.stallSlip
  let ready := l.filter fun e => e.2.ready (s.win p e.2.window)
  let late := l.filter fun e => !e.2.ready (s.win p e.2.window)
  let s := ready.foldl (fun s e => s.passGate p d e.2) s
  let s := ready.foldl (fun s e => s.lateRecord p e.1 e.2 0 slip) s
  if (s.part p).state ≠ .running then s
  else if late.isEmpty then s.resume p
  else
    let s := s.lateGates p late slip
    let y := s.part p
    if y.state = .running ∧ ¬ y.restoring ∧ (late.all fun e => e.2.policy == 1) then s.resume p else s

/-- A retest in replay: the recorded slip has passed, and the flag is set (12 R419). -/
def State.replayRetest (s : State) (p : Nat) (d : Draft) : State :=
  let x := s.part p
  let first := s.tickOf (some p) - x.stallSlip
  let due := (d.numbered x.stalled).all fun e =>
    match s.replayLate p e.1 first replayFuel x.replay.cursor with
    | some r => decide (r.2 ≤ x.stallSlip)
    | none => true
  let ready := (d.numbered (x.stalled ++ x.waiting)).all fun e => e.2.ready (s.win p e.2.window)
  if !due then s.setPart p { x with stallSlip := x.stallSlip + 1, slip := x.slip + 1 }
  else if !ready then s
  else
    let s := (d.numbered (x.stalled ++ x.waiting)).foldl (fun s e => s.passGate p d e.2) s
    let s := (d.numbered x.stalled).foldl (fun s e => s.lateRecord p e.1 e.2 0 x.stallSlip) s
    if (s.part p).state = .running then s.resume p else s

end Sys2Proof.Machine
end

