-- ==== Sys2Proof/Machine/Lines.lean ====
section
/-! DEFINITION. Machine/Lines.lean: error correction of DRAM lines and SRAM words (08 R270 to R281), and the
accesses of stations to memory (08 R277, R280; 13 R428, R430; 14 R465). -/

namespace Sys2Proof.Machine

/-- A stack. -/
def State.stackOf (s : State) (d : Nat) : Stack := fmGet s.stackSt d {}
def State.setStack (s : State) (d : Nat) (x : Stack) : State := { s with stackSt := fmSet s.stackSt d x }

/-- Requester word of an event (15 R583). -/
def reqWord (die unit : Nat) (world remote hdm : Bool) : Nat :=
  unit % 2048 + ((die % 32) <<< 11) + (b2n remote <<< 16) + (b2n world <<< 17) + (b2n hdm <<< 18)

/-- Channels of a stack that have erased a DRAM die. -/
def State.erasedIn (s : State) (d k : Nat) : List Nat :=
  (List.range 64).filter fun ch => (s.channel d ch).erased == some k

/-- Erase DRAM die k in one channel of the stack on die d; a second one is only noted (R274). -/
def State.eraseOne (s : State) (d ch k : Nat) : State :=
  let c := s.channel d ch
  match c.erased with
  | none => s.setChannel d ch { c with erased := some k }
  | some j =>
    if j = k ∨ c.second = some k then s
    else ((s.setChannel d ch { c with second := some k }).event 0x0804 (ofDie d) []).failureWarning

/-- Erase DRAM die k in some channels, with `DRAM_DIE_ERASED` for those newly erased. -/
def State.eraseIn (s : State) (d k : Nat) (chs : List Nat) : State :=
  let new := chs.filter fun ch => (s.channel d ch).erased.isNone
  let s := chs.foldl (fun s ch => s.eraseOne d ch k) s
  if new.isEmpty then s
  else s.event 0x0803 (ofDie d) [.half k, .word (new.foldl (fun m c => m + 2 ^ c) 0)]

/-- The stack marks DRAM die k lost in all 64 channels (R274), a failure warning (13 R448). -/
def State.markDramLost (s : State) (d k : Nat) : State :=
  let x := s.stackOf d
  if x.lostDie = some k then s
  else ((s.setStack d { x with lostDie := some k }).eraseIn d k (List.range 64)).failureWarning

/-- Erase a DRAM die in one channel; the fourth channel marks it lost in the whole stack (R274). -/
def State.eraseDie (s : State) (d ch k : Nat) : State :=
  let s := s.eraseIn d k [ch]
  if 4 ≤ (s.erasedIn d k).length then s.markDramLost d k else s

/-- Numbers of occurrences within the last 3,600 s. -/
def withinHour (now : Nat) (l : List (Nat × Nat)) : List (Nat × Nat) :=
  l.filter fun e => decide (now < e.1 + 3600 * unitsPerSec)

/-- Count n corrected symbols of DRAM die k of a stack (R273, R274; 13 R448). -/
def State.countSymbols (s : State) (d k n : Nat) : State :=
  if n = 0 then s
  else
    let x := s.stackOf d
    let recent := (x.recent.filter fun e => decide (s.now < e.1 + unitsPerSec)) ++ [(s.now, k, n)]
    let c := ((recent.filter fun e => e.2.1 == k).map fun e => e.2.2).sum
    let before := ((withinHour s.now x.hour).map (·.2)).sum
    let s := s.setStack d { x with
      recent := recent
      hour := withinHour s.now x.hour ++ [(s.now, n)] }
    let s := s.odSet 0x5002 (d + 1) (s.odGet 0x5002 (d + 1) + n)
    let s := s.warnIfReached 1 before (before + n)
    if s.odGet 0x5010 2 ≤ c then s.markDramLost d k else s

/-- The outcome of reading one line of a stack, by its number (R273, R277): uncorrectable or not. Corrected
symbols are counted. -/
def State.readLine (s : State) (line : Nat) : State × Bool :=
  let d := keyDie (line * 64)
  let bad := s.lineBad line
  match fmGet? s.lines line, (s.channel d (stackMap (line * 64 % 2 ^ 36)).1).erased with
  | some (.symbols a b), none =>
    (if bad then s else (List.range 18).foldl (fun s k => s.countSymbols d k (b2n (bit a k) + b2n (bit b k))) s, bad)
  | _, _ => (s, bad)

/-- A column of an SRAM bank is to be repaired; a bank that would need a fifth spare is exhausted (R281, 13 R448). -/
def State.markColumn (s : State) (d bank col : Nat) : State :=
  let key := d * 4096 + bank
  let b : SramBank := fmGet s.banks key {}
  if b.marked.contains col then s
  else if b.used + b.marked.length < 4 then { s with banks := fmSet s.banks key { b with marked := b.marked ++ [col] } }
  else (s.event 0x080C (ofDie d) []).failureWarning

/-- Note a corrected error in a column of an SRAM bank; the eighth word within a second marks the column (R281). -/
def State.countColumn (s : State) (k col : Nat) : State :=
  let d := keyDie k
  let o := k - sramKey d 0
  let key := d * 4096 + o / 2 ^ 18
  let b : SramBank := fmGet s.banks key {}
  let old := (fmGet b.recent col []).filter fun e => decide (s.now < e.1 + unitsPerSec)
  let words := (old.filter fun e => e.2 != k) ++ [(s.now, k)]
  let b : SramBank := { b with recent := fmSet b.recent col words }
  let s := { s with banks := fmSet s.banks key b }
  if 8 ≤ words.length ∧ old.length < 8 then s.markColumn d (o / 2 ^ 18) col else s

/-- A corrected SRAM word (R280, 13 R448). -/
def State.sramCorrected (s : State) (k col : Nat) : State :=
  let d := keyDie k
  let l := (fmGet s.res.sramHour d []).filter fun t => decide (s.now < t + 3600 * unitsPerSec)
  let s := { s with res := { s.res with sramHour := fmSet s.res.sramHour d (l ++ [s.now]) } }
  let s := s.odSet 0x5004 (d + 1) (s.odGet 0x5004 (d + 1) + 1)
  let s := (s.event 0x0809 (ofDie d) []).countColumn k col
  s.warnIfReached 2 l.length (l.length + 1)

/-- Read the words in error of an SRAM range: those with two wrong bits. -/
def State.readWords (s : State) (k n : Nat) : State × List Nat :=
  let hit := s.sramErr.filter fun e => decide (k < e.1 + 8) && decide (e.1 < k + n)
  (hit.foldl (fun s e => if e.2 % 4 = 1 then s.sramCorrected e.1 (e.2 / 4) else s) s,
   (hit.filter fun e => e.2 % 4 != 1).map (·.1))

/-- Read the lines in error of a stack range: those that are uncorrectable. -/
def State.readLines (s : State) (k n : Nat) : State × List Nat :=
  let hit := s.lines.filter fun e => decide (k < e.1 * 64 + 64) && decide (e.1 * 64 < k + n)
  hit.foldl (fun (a : State × List Nat) e =>
    let (s, bad) := a.1.readLine e.1
    (s, if bad then a.2 ++ [e.1 * 64] else a.2)) (s, [])

/-- The uncorrectable places of a range of memory, corrected ones counted. -/
def State.readCheck (s : State) (k n : Nat) : State × List Nat :=
  if k < 2 ^ 41 then s.readLines k n else if k < 2 ^ 42 then s.readWords k n else (s, [])

/-- What a read of the package itself does beside its bytes (R273, R277, R280): corrected errors are counted, an uncorrectable
line raises `DRAM_UNCORRECTABLE`. -/
def State.scanned (s : State) (pa n : Nat) : State :=
  match s.key? pa with
  | none => s
  | some k =>
    let (s, bad) := s.readCheck k n
    if k < 2 ^ 41 then bad.foldl (fun s _ => s.dramBad (keyDie k) none []) s else s

/-! ### Station accesses -/

/-- Requester unit of a station (15 Table 15-13). -/
def stationUnit (st : Nat) : Nat := 0x400 + st / 4096 * 64 + st % 64

/-- A refused station access (14 R465; 08 R267): its event, and a detected control fault. -/
def State.stationRefused (s : State) (code p n st pa : Nat) : State :=
  let die := (s.dieOfSlot n).getD 0
  let s := s.event code (s.ofSlot n) [.half (reqWord die (stationUnit st) (s.partWorld p) false false), .word pa]
  s.detectedFault p (s.dieOfSlot n)

/-- Whether a station of p may reach a range of a stack: granules that are p's (R465); the slot's SRAM always. -/
def State.stationMay (s : State) (p k n : Nat) : Bool :=
  decide (2 ^ 41 ≤ k) ||
  (List.range ((k % 2 ^ 36 + n - 1) / 2 ^ 21 - k % 2 ^ 36 / 2 ^ 21 + 1)).all fun i =>
    s.ownsGranule p (keyDie k) (k % 2 ^ 36 / 2 ^ 21 + i)

/-- The memory key of a range a station accesses, or the event code of the refusal: the address map of R267,
then the region check of R465. -/
def State.stationKey (s : State) (p pa len : Nat) : Except Nat Nat :=
  match s.key? pa, s.key? (pa + (len - 1)) with
  | some k, some _ => if s.stationMay p k len then .ok k else .error 0x0E02
  | _, _ => .error 0x0801

/-- Fields of a detected control fault that a command finds (03 R117): draft tick, position, step epoch. -/
def State.cmdPlace (s : State) (p tick pos : Nat) : List EvField :=
  [.half tick, .half pos, .word (s.part p).epoch.toNat]

/-- A station has met uncorrectable places of its memory (R277, R280): the lines are noted for their repair (13 R430), and
the event and the detected control fault follow. -/
def State.metBad (s : State) (p n k : Nat) (bad : List Nat) (det : List EvField) : State :=
  let s := s.setPart p { s.part p with badLines := ((s.part p).badLines ++ bad.map (· / 64)).eraseDups }
  let s := if k < 2 ^ 41 then bad.foldl (fun s _ => s.dramBad (keyDie k) (some p) det) s
    else s.event 0x080A (s.ofSlot n) det
  s.detectedFault p (s.dieOfSlot n)

/-- A C0 read by a station: the bytes, or none after a fault. A line that raised an uncorrectable error is
noted for its repair (13 R430). `det`: the fields of the command that reads, if one does (03 R117). -/
def State.c0Read (s : State) (p n st pa len : Nat) (det : List EvField := []) : State × Option (List Byte) :=
  match s.stationKey p pa len with
  | .error code => (s.stationRefused code p n st pa, none)
  | .ok k =>
    let (s, bad) := s.readCheck k len
    if bad.isEmpty then (s, some (Mem.readN s.mem k len))
    else (s.metBad p n k bad det, none)

/-- A C0 write by a station: whether it took place. -/
def State.c0Store (s : State) (p n st pa : Nat) (l : List Byte) : State × Bool :=
  match s.stationKey p pa l.length with
  | .error code => (s.stationRefused code p n st pa, false)
  | .ok k => (s.c0Write p k l, true)

end Sys2Proof.Machine
end

