-- ==== Sys2Proof/Machine/Num.lean ====
section
/-! DEFINITION. Machine/Num.lean: exact numbers, the element encodings of Table 04-1, rounding, the IEEE 754
operations of 04 R157, W53 arithmetic (04 R132; 05 R175) and the conversions of Table 04-2 (04 R134, R135). -/

namespace Sys2Proof.Machine

/-- A value: NaN, an infinity, or exactly (−1)^neg × m × 2^e. -/
inductive Num | nan | inf (neg : Bool) | fin (neg : Bool) (m : Nat) (e : Int)
  deriving DecidableEq, Repr

/-- +0 -/
def Num.zero_ : Num := .fin false 0 0

/-- Rounding directions: the four of IEEE 754, ties away, and the stochastic one with 32 random bits (05 R175). -/
inductive Rm | rne | rtz | rup | rdn | rmm | sr (rb : Nat)
  deriving DecidableEq, Repr

/-- `rmode` of a twist command (06 Table 06-2). -/
def rmOf : Nat → Rm
  | 0 => .rne | 1 => .rtz | 2 => .rup | _ => .rdn

/-- Index of the highest set bit plus 1. -/
def bitLen (m : Nat) : Nat := if m = 0 then 0 else Nat.log2 m + 1

/-- Drop the s low bits of m with a rounding direction: the rounded quotient, and whether bits were lost.
The stochastic direction follows `sr_bit`: 32 discarded bits count (05 R175). -/
def roundShift (rm : Rm) (neg : Bool) (m s : Nat) : Nat × Bool :=
  if s = 0 then (m, false)
  else
    let q := m / 2 ^ s
    let r := m % 2 ^ s
    let half := 2 ^ (s - 1)
    let up := match rm with
      | .rne => decide (half < r) || (r == half && q % 2 == 1)
      | .rtz => false
      | .rup => !neg && r != 0
      | .rdn => neg && r != 0
      | .rmm => decide (half ≤ r)
      | .sr rb => decide (rb < r * 2 ^ 32 / 2 ^ s)
    (if up then q + 1 else q, r != 0)

/-- Round m × 2^e to p significant bits, the last bit weighing at least 2^lo when given. -/
def roundTo (rm : Rm) (p : Nat) (lo : Option Int) (neg : Bool) (m : Nat) (e : Int) : Nat × Int × Bool :=
  let lsb := e + bitLen m - p
  let lsb := match lo with | some l => max l lsb | none => lsb
  if lsb ≤ e then (m, e, false)
  else
    let (q, inexact) := roundShift rm neg m (lsb - e).toNat
    (q, lsb, inexact)

/-- Whether m × 2^e is below 2^k, for m not 0. -/
def magBelow (m : Nat) (e k : Int) : Bool := decide (e + bitLen m ≤ k)

/-- Compare magnitudes of m × 2^e and n × 2^f: less. -/
def magLt (m : Nat) (e : Int) (n : Nat) (f : Int) : Bool :=
  if e ≤ f then decide (m < n * 2 ^ (f - e).toNat) else decide (m * 2 ^ (e - f).toNat < n)

/-! ### Encodings (04 R130, R132) -/

/-- An encoding: exponent bits, fraction bits, whether it has infinities, whether it has subnormals. -/
structure Flt where
  eb : Nat
  fb : Nat
  hasInf : Bool := true
  hasSub : Bool := true
  deriving DecidableEq, Repr

def e4m3 : Flt := { eb := 4, fb := 3, hasInf := false }
def e5m2 : Flt := { eb := 5, fb := 2 }
def bf16 : Flt := { eb := 8, fb := 7 }
def fp16 : Flt := { eb := 5, fb := 10 }
def fp32 : Flt := { eb := 8, fb := 23 }
def fp64 : Flt := { eb := 11, fb := 52 }
def w53 : Flt := { eb := 12, fb := 40, hasSub := false }

/-- The encoding of an element type (03 Table 03-2); RAW8 bytes have none. -/
def fltOf : Nat → Flt
  | 1 => e4m3 | 2 => e5m2 | 3 => bf16 | 4 => fp16 | 5 => fp32 | _ => fp64

def Flt.bias (f : Flt) : Int := 2 ^ (f.eb - 1) - 1
/-- Significant bits of a normal value. -/
def Flt.prec (f : Flt) : Nat := f.fb + 1
/-- Exponent of the smallest normal value. -/
def Flt.emin (f : Flt) : Int := 1 - f.bias
/-- Weight of the last place of subnormal values. -/
def Flt.lsbMin (f : Flt) : Int := f.emin - f.fb
/-- Largest finite value: significand and weight of its last place. -/
def Flt.maxFin (f : Flt) : Nat × Int :=
  if f.hasInf then (2 ^ f.prec - 1, f.bias - f.fb) else (2 ^ f.prec - 2, f.bias + 1 - f.fb)
/-- The canonical NaN (Table 04-1). -/
def Flt.nan (f : Flt) : Nat :=
  if f.hasInf then ((2 ^ f.eb - 1) <<< f.fb) + 2 ^ (f.fb - 1) else 2 ^ (f.eb + f.fb) - 1

/-- The value of a code. -/
def Flt.decode (f : Flt) (c : Nat) : Num :=
  let neg := bit c (f.eb + f.fb)
  let ex := bits c (f.eb + f.fb - 1) f.fb
  let fr := c % 2 ^ f.fb
  if f.hasInf && ex == 2 ^ f.eb - 1 then (if fr = 0 then .inf neg else .nan)
  else if !f.hasInf && ex == 2 ^ f.eb - 1 && fr == 2 ^ f.fb - 1 then .nan
  else if ex = 0 then .fin neg (if f.hasSub then fr else 0) f.lsbMin
  else .fin neg (2 ^ f.fb + fr) ((ex : Int) - f.bias - f.fb)

/-- The code of a value the encoding holds exactly. -/
def Flt.encode (f : Flt) : Num → Nat
  | .nan => f.nan
  | .inf neg => (b2n neg <<< (f.eb + f.fb)) + (if f.hasInf then (2 ^ f.eb - 1) <<< f.fb else f.nan % 2 ^ (f.eb + f.fb))
  | .fin neg m e =>
    let sgn := b2n neg <<< (f.eb + f.fb)
    if m = 0 then sgn
    else
      let ea := e + bitLen m - 1
      if ea < f.emin then sgn + m * 2 ^ (e - f.lsbMin).toNat / 2 ^ (f.lsbMin - e).toNat
      else
        let sh := (f.fb : Int) + 1 - bitLen m
        let sig := m * 2 ^ sh.toNat / 2 ^ (-sh).toNat
        sgn + ((ea + f.bias).toNat <<< f.fb) + (sig - 2 ^ f.fb)

/-- A code is a signalling NaN: the top fraction bit is 0 (04 R159). -/
def Flt.isSnan (f : Flt) (c : Nat) : Bool :=
  f.hasInf && bits c (f.eb + f.fb - 1) f.fb == 2 ^ f.eb - 1 && c % 2 ^ f.fb != 0 && !bit c (f.fb - 1)

/-! ### IEEE 754 operations (04 R157). Flags: 1 inexact, 2 underflow, 4 overflow, 8 divide by zero, 16 invalid -/

/-- The result of an overflow in a direction. -/
def overflowTo (f : Flt) (rm : Rm) (neg : Bool) : Num :=
  let mx := f.maxFin
  let inf := match rm with
    | .rtz => false
    | .rup => !neg
    | .rdn => neg
    | _ => true
  if inf then .inf neg else .fin neg mx.1 mx.2

/-- Round an exact value to a format, with flags; tininess is detected after rounding. -/
def ieeeRound (f : Flt) (rm : Rm) (x : Num) : Num × Nat :=
  match x with
  | .fin neg m e =>
    if m = 0 then (x, 0)
    else
      let u := roundTo rm f.prec none neg m e
      let r := roundTo rm f.prec (some f.lsbMin) neg m e
      let mx := f.maxFin
      if magLt mx.1 mx.2 u.1 u.2.1 then (overflowTo f rm neg, 5)
      else
        let tiny := magBelow u.1 u.2.1 f.emin
        (.fin neg r.1 r.2.1, if r.2.2 then (if tiny then 3 else 1) else 0)
  | _ => (x, 0)

/-- The exact sum; a zero sum of unlike zeros is −0 only when rounding toward −Inf. -/
def Num.addExact (rm : Rm) : Num → Num → Num
  | .nan, _ | _, .nan => .nan
  | .inf a, .inf b => if a = b then .inf a else .nan
  | .inf a, _ | _, .inf a => .inf a
  | .fin a m e, .fin b n f =>
    let l := min e f
    let x : Int := (if a then -1 else 1) * ((m * 2 ^ (e - l).toNat : Nat) : Int)
    let y : Int := (if b then -1 else 1) * ((n * 2 ^ (f - l).toNat : Nat) : Int)
    let z := x + y
    if z = 0 then .fin (if m = 0 ∧ n = 0 ∧ a = b then a else rm == .rdn) 0 0
    else .fin (decide (z < 0)) z.natAbs l

/-- The value with its sign changed. -/
def Num.negate : Num → Num
  | .nan => .nan
  | .inf a => .inf !a
  | .fin a m e => .fin (!a) m e

/-- The exact product. -/
def Num.mulExact : Num → Num → Num
  | .nan, _ | _, .nan => .nan
  | .inf a, .inf b => .inf (a != b)
  | .inf a, .fin b n _ => if n = 0 then .nan else .inf (a != b)
  | .fin a m _, .inf b => if m = 0 then .nan else .inf (a != b)
  | .fin a m e, .fin b n f => .fin (a != b) (m * n) (e + f)

/-- A value times 2^k. -/
def Num.scale2 (k : Int) : Num → Num
  | .fin a m e => .fin a m (e + k)
  | x => x

def Num.isNan : Num → Bool
  | .nan => true
  | _ => false
def Num.isInf : Num → Bool
  | .inf _ => true
  | _ => false
def Num.isFin : Num → Bool
  | .fin .. => true
  | _ => false
def Num.isZero : Num → Bool
  | .fin _ m _ => m == 0
  | _ => false
def Num.neg? : Num → Bool
  | .inf a => a
  | .fin a _ _ => a
  | .nan => false

/-- The quotient of two finite nonzero magnitudes with enough bits to round to p, the rest in a sticky bit. -/
def divBits (p m : Nat) (e : Int) (n : Nat) (f : Int) : Nat × Int :=
  let k := p + 3 + bitLen n
  let q := m * 2 ^ k / n
  (2 * q + b2n (decide (m * 2 ^ k % n ≠ 0)), e - f - k - 1)

/-- Whole part of a square root, from the highest bit down. -/
def isqrt (n : Nat) : Nat :=
  (List.range (bitLen n / 2 + 1)).foldr (fun i r => if (r + 2 ^ i) * (r + 2 ^ i) ≤ n then r + 2 ^ i else r) 0

/-- The square root of m × 2^e with enough bits to round to p, the rest in a sticky bit. -/
def sqrtBits (p m : Nat) (e : Int) : Nat × Int :=
  let k := 2 * p + 6 + b2n ((e % 2) != 0)
  let v := m * 2 ^ k
  let q := isqrt v
  (2 * q + b2n (decide (q * q ≠ v)), (e - k) / 2 - 1)

/-- The flag of a signalling operand. -/
def snanFlag (f : Flt) (cs : List Nat) : Nat := if cs.any f.isSnan then 16 else 0

/-- Finish an operation: the code of the rounded value and the flags; a NaN made by non-NaN operands is invalid. -/
def finish (f : Flt) (rm : Rm) (cs : List Nat) (x : Num) : Nat × Nat :=
  let anyNan := cs.any fun c => (f.decode c).isNan
  match x with
  | .nan => (f.nan, if anyNan then snanFlag f cs else 16)
  | _ =>
    let (r, fl) := ieeeRound f rm x
    (f.encode r, fl)

/-- Addition, subtraction, multiplication and fused multiply-add on codes, with flags. -/
def fAdd (f : Flt) (rm : Rm) (a b : Nat) : Nat × Nat :=
  finish f rm [a, b] (Num.addExact rm (f.decode a) (f.decode b))
def fSub (f : Flt) (rm : Rm) (a b : Nat) : Nat × Nat :=
  finish f rm [a, b] (Num.addExact rm (f.decode a) (f.decode b).negate)
def fMul (f : Flt) (rm : Rm) (a b : Nat) : Nat × Nat :=
  finish f rm [a, b] (Num.mulExact (f.decode a) (f.decode b))
/-- a × b + c; ∞ × 0 is invalid even with a quiet NaN addend. -/
def fFma (f : Flt) (rm : Rm) (a b c : Nat) : Nat × Nat :=
  let p := Num.mulExact (f.decode a) (f.decode b)
  let r := finish f rm [a, b, c] (Num.addExact rm p (f.decode c))
  if p.isNan && !(f.decode a).isNan && !(f.decode b).isNan then (r.1, r.2 ||| 16) else r

/-- Division on codes, with flags. -/
def fDiv (f : Flt) (rm : Rm) (a b : Nat) : Nat × Nat :=
  match f.decode a, f.decode b with
  | .nan, _ | _, .nan => finish f rm [a, b] .nan
  | .inf _, .inf _ => finish f rm [a, b] .nan
  | .inf x, .fin y _ _ => (f.encode (.inf (x != y)), 0)
  | .fin x _ _, .inf y => (f.encode (.fin (x != y) 0 0), 0)
  | .fin x m e, .fin y n g =>
    if n = 0 then (if m = 0 then finish f rm [a, b] .nan else (f.encode (.inf (x != y)), 8))
    else if m = 0 then (f.encode (.fin (x != y) 0 0), 0)
    else
      let q := divBits f.prec m e n g
      finish f rm [a, b] (.fin (x != y) q.1 q.2)

/-- Square root on codes, with flags. -/
def fSqrt (f : Flt) (rm : Rm) (a : Nat) : Nat × Nat :=
  match f.decode a with
  | .nan => finish f rm [a] .nan
  | .inf false => (a, 0)
  | .inf true => finish f rm [a] .nan
  | .fin x m e =>
    if m = 0 then (a, 0)
    else if x then finish f rm [a] .nan
    else
      let q := sqrtBits f.prec m e
      finish f rm [a] (.fin false q.1 q.2)

/-- Order of two numbers that are not NaN: less than, −0 equal to +0. -/
def Num.lt : Num → Num → Bool
  | .nan, _ | _, .nan => false
  | .inf a, .inf b => a && !b
  | .inf a, _ => a
  | _, .inf b => !b
  | .fin a m e, .fin b n f =>
    if a && !b then !(m == 0 && n == 0)
    else if !a && b then false
    else if a then magLt n f m e else magLt m e n f

/-- Equal values, −0 equal to +0. -/
def Num.eq (x y : Num) : Bool := !x.isNan && !y.isNan && !x.lt y && !y.lt x

/-- Order in which −0 lies below +0 (06 R215). -/
def Num.ltZ (x y : Num) : Bool := x.lt y || (x.isZero && y.isZero && x.neg? && !y.neg?)

/-- IEEE 754 minimum and maximum: a NaN propagates, −0 orders below +0. -/
def fMin (f : Flt) (a b : Nat) : Nat × Nat :=
  let x := f.decode a
  let y := f.decode b
  if x.isNan || y.isNan then (f.nan, snanFlag f [a, b]) else (if y.ltZ x then b else a, 0)
def fMax (f : Flt) (a b : Nat) : Nat × Nat :=
  let x := f.decode a
  let y := f.decode b
  if x.isNan || y.isNan then (f.nan, snanFlag f [a, b]) else (if x.ltZ y then b else a, 0)

/-! ### Conversions into formats (04 R134, R135, Table 04-2) -/

/-- Counts of one conversion: saturated, underflowed. -/
structure Cnt where
  sat : Nat := 0
  under : Nat := 0
  deriving DecidableEq, Repr

def Cnt.plus (a b : Cnt) : Cnt := ⟨a.sat + b.sat, a.under + b.under⟩

/-- Convert a value to a format by Table 04-2. `bounded`: the first rounding already has subnormal
spacing (05 R186, 06 R218), and a value that it rounds to zero counts nothing; else it has unbounded exponent range (R134), and
a subnormal result is the input rounded once, to the subnormal spacing (DESIGN CHOICE, log 67: Table 04-2 says only "rounded
subnormal"). -/
def convertTo (f : Flt) (sat sub : Bool) (rm : Rm) (bounded : Bool) (x : Num) : Nat × Cnt :=
  match x with
  | .nan => (f.nan, {})
  | .inf neg => (if f.hasInf then f.encode (.inf neg) else f.nan, {})
  | .fin neg m e =>
    if m = 0 then (f.encode (.fin neg 0 0), {})
    else
      let lo := if bounded then some f.lsbMin else none
      let u := roundTo rm f.prec lo neg m e
      let mx := f.maxFin
      if u.1 = 0 then (f.encode (.fin neg 0 0), {})
      else if magLt mx.1 mx.2 u.1 u.2.1 then
        (if sat || !f.hasInf then (f.encode (.fin neg mx.1 mx.2), { sat := 1 }) else (f.encode (.inf neg), {}))
      else if magBelow u.1 u.2.1 f.emin then
        let r := roundTo rm f.prec (some f.lsbMin) neg m e
        (f.encode (.fin neg (if sub then r.1 else 0) r.2.1), { under := 1 })
      else (f.encode (.fin neg u.1 u.2.1), {})

/-- Round a value to W53: zero below 2^-2046 and infinite above the largest finite value (04 R132). -/
def toW53 (rm : Rm) (x : Num) : Num :=
  match x with
  | .fin neg m e =>
    if m = 0 then x
    else
      let u := roundTo rm w53.prec none neg m e
      let mx := w53.maxFin
      if magLt mx.1 mx.2 u.1 u.2.1 then .inf neg
      else if magBelow u.1 u.2.1 w53.emin then .fin neg 0 0
      else .fin neg u.1 u.2.1
  | _ => x

/-- Sum of two W53 values with one rounding to nearest even (05 R175). -/
def rneW53 (x y : Nat) : Nat := w53.encode (toW53 .rne (Num.addExact .rne (w53.decode x) (w53.decode y)))

/-- `sr_w53` (05 R175): sum of two W53 values with stochastic rounding. -/
def srW53 (x y rb : Nat) : Nat := w53.encode (toW53 (.sr rb) (Num.addExact .rne (w53.decode x) (w53.decode y)))

/-! ### Hanks (04 R137 to R143) -/

/-- emax and mmax of Table 04-3. -/
def scaleConst (f : Flt) : Int × Nat :=
  if f = e4m3 then (8, 0xC000000000) else if f = e5m2 then (15, 0xC000000000) else (127, 0xFE00000000)

/-- Unbiased exponent, and fraction with its width, of a finite nonzero magnitude. -/
def magExp (m : Nat) (e : Int) : Int := e + bitLen m - 1

/-- `scale_exp` (R142): the smallest scale exponent that brings m × 2^e to the largest finite value or below. -/
def scaleExp (f : Flt) (m : Nat) (e : Int) : Int :=
  let c := scaleConst f
  let above := magLt (2 ^ 40 + c.2) (magExp m e - 40) m e
  magExp m e - c.1 + (if above then 1 else 0)

/-- `delayed_exp` (R142): the delayed exponent of a ring of maxima, none without history. -/
def delayedExp (f : Flt) (hist : List Nat) (pos depth margin : Nat) : Option Int :=
  let best := (List.range depth).foldl (fun b k => max b (nth hist ((pos + 16 - (k + 1)) % 16) 0 % 2 ^ 31)) 0
  if best = 0 then none
  else if 0x7F800000 ≤ best then some 127
  else match fp32.decode best with
    | .fin _ m e => some (scaleExp f m e + margin)
    | _ => some 127

/-- Larger of two magnitudes of finite nonzero values. -/
def maxMag (a : Option (Nat × Int)) (x : Num) : Option (Nat × Int) :=
  match x with
  | .fin _ m e =>
    if m = 0 then a
    else match a with
      | none => some (m, e)
      | some (n, f) => if magLt n f m e then some (m, e) else a
  | _ => a

/-- What forming a hank gives: scale byte, element codes, crushed inputs, all-zero hanks, saturated elements. -/
structure HankOut where
  scale : Nat
  codes : List Nat
  crush : Nat := 0
  zhank : Nat := 0
  sat : Nat := 0
  deriving DecidableEq, Repr

/-- `form_hank` (R142, R143), converting element i in direction rm i. -/
def formHank (f : Flt) (sat : Bool) (delayed : Option Int) (rm : Nat → Rm) (bounded : Bool) (xs : List Num) : HankOut :=
  if xs.any Num.isNan || (xs.any Num.isInf && !f.hasInf) then
    { scale := 0xFF, codes := xs.map fun _ => f.nan }
  else
    match xs.foldl maxMag none with
    | none =>
      if xs.any Num.isInf then
        { scale := 127, codes := xs.map fun x => if x.isInf then f.encode x else 0 }
      else { scale := 0, codes := xs.map fun _ => 0, zhank := 1 }
    | some (m, e) =>
      let ex := max (-127) (min 127 (delayed.getD (scaleExp f m e)))
      let cs := (List.range xs.length).map fun i =>
        let x := nth xs i .nan
        (x, convertTo f sat true (rm i) bounded (x.scale2 (-ex)))
      { scale := (ex + 127).toNat
        codes := cs.map fun c => c.2.1
        crush := (cs.filter fun c => !c.1.isZero && c.1.isFin && (f.decode c.2.1).isZero).length
        sat := (cs.map fun c => c.2.2.sat).sum }

end Sys2Proof.Machine
end

