-- ==== Sys2Proof/Machine/Stats.lean ====
section
/-! DEFINITION. Machine/Stats.lean: tensor statistics records (04 R144 to R151), scale selection (04 R140, R141)
and the tiles stations write: payload, side band, flag word, statistics (03 R99; 04 R146). -/

namespace Sys2Proof.Machine

/-- Word i of the statistics record of a slot's tensor; a tensor without a record reads the defaults (04 R135,
R144: hist_base 0). -/
def State.recWord (s : State) (n t i : Nat) : Nat :=
  match s.recKey n t with
  | some k => natOf (Mem.readN s.mem (k + 8 * i) 8)
  | none => if i = 73 then 2 ^ 24 else 0

/-- A station reads a record of a slot (08 R280): corrected words are counted, and an uncorrectable one is a detected control
fault, after which the read gives nothing. -/
def State.recCheck (s : State) (p n t : Nat) (det : List EvField) : State × Bool :=
  match s.recKey n t with
  | none => (s, true)
  | some k =>
    let (s, bad) := s.readCheck k 720
    if bad.isEmpty then (s, true) else (s.metBad p n k bad det, false)

/-- Marks of a slot's tensor. -/
def State.mark (s : State) (n t : Nat) : StatMark := fmGet s.stats (n * 65536 + t) {}
def State.setMark (s : State) (n t : Nat) (m : StatMark) : State := { s with stats := fmSet s.stats (n * 65536 + t) m }

/-- hist_base, saturate and subnormal of a tensor. -/
def State.histBase (s : State) (n t : Nat) : Nat := s.recWord n t 73 % 65536
def State.satBit (s : State) (n t : Nat) : Bool := bit (s.recWord n t 73) 23
def State.subBit (s : State) (n t : Nat) : Bool := bit (s.recWord n t 73) 24

/-- The delayed exponent in force for a tensor in this step, if any (04 R140, R141): the committed ring is
unchanged while the step runs. Without history it falls back to on-write, with `SCALE_FALLBACK` once a step: DESIGN CHOICE (log
68), at the tensor's first hanked conversion of the step, and again in the re-run of a step that was rolled back. -/
def State.delayedScale (s : State) (n t : Nat) (f : Flt) : State × Option Int :=
  let w := s.recWord n t 73
  if !bit w 16 then (s, none)
  else
    let ring := (List.range 16).map fun i => bits (s.recWord n t (64 + i / 2)) (32 * (i % 2) + 31) (32 * (i % 2))
    match delayedExp f ring (bits w 35 32) (bits w 20 17 + 1) (bits w 22 21) with
    | some e => (s, some e)
    | none =>
      if (s.mark n t).fallback then (s, none)
      else ((s.setMark n t { s.mark n t with fallback := true }).event 0x0401 (s.ofSlot n) [.half t], none)

/-! ### Accumulation (04 R146, R151) -/

/-- What a tile adds to its tensor's record: codes and side band as written, counters before saturation, and
the largest finite magnitude of the wide inputs. -/
structure TileStats where
  format : Nat
  index : Nat
  crush : Nat := 0
  zhank : Nat := 0
  sat : Nat := 0
  under : Nat := 0
  amax : Option (Nat × Int) := none
  deriving DecidableEq, Repr

/-- Bin of an element: none when it is ±0, NaN or ±Inf. -/
def elemBin (fmt base : Nat) (scale : Nat) (c : Nat) : Option Nat :=
  match (fltOf (fmtType fmt)).decode c with
  | .fin _ m e =>
    if m = 0 ∨ scale = 0xFF then none
    else
      let ex := magExp m e + (if fmtHank fmt = 0 then 0 else (scale : Int) - 127)
      some (min 63 (ex - toSigned 16 base).toNat)
  | _ => none

/-- Scale byte of the hank that holds element i. -/
def scaleAt (fmt : Nat) (band : List Byte) (i : Nat) : Nat :=
  if fmtHank fmt = 0 then 127 else (nth band (i / hankSize fmt) 0).toNat

/-- Saturating addition to a 32-bit bin. -/
def addBin (bins : List Nat) (i : Nat) : List Nat := bins.set i (min (nth bins i 0 + 1) (2 ^ 32 - 1))

/-- FP32 pattern of a magnitude rounded toward +Inf (R146). -/
def amaxPattern (a : Option (Nat × Int)) : Nat :=
  match a with
  | some (m, e) => fp32.encode (ieeeRound fp32 .rup (.fin false m e)).1
  | none => 0

/-- The first NaN position kept: the smaller pair of tile index and element (R151). -/
def firstNanWord (old index elem : Nat) : Nat :=
  let new := index + (elem <<< 32) + (1 <<< 47)
  if !bit old 47 then new
  else if index < old % 2 ^ 32 ∨ (index = old % 2 ^ 32 ∧ elem < bits old 46 32) then new else old

/-- Add a written tile to the record of its tensor, whose words read well. -/
def State.accumulate (s : State) (p n t : Nat) (x : TileStats) (codes : List Nat) (band : List Byte) : State :=
  match s.recKey n t with
  | none => s
  | some k =>
    let f := fltOf (fmtType x.format)
    let base := s.histBase n t
    let at_ := fun (i : Nat) => s.recWord n t i
    let bins := (List.range 64).map fun i => bits (at_ (i / 2)) (32 * (i % 2) + 31) (32 * (i % 2))
    let cs := (List.range codes.length).zip codes
    let bins := (cs.filterMap fun e => elemBin x.format base (scaleAt x.format band e.1) e.2).foldl addBin bins
    let isNan := fun (e : Nat × Nat) => (f.decode e.2).isNan || scaleAt x.format band e.1 == 0xFF
    let nans := (cs.filter isNan).length
    let infs := (cs.filter fun e => (f.decode e.2).isInf && !isNan e).length
    let zeros := (cs.filter fun e => (f.decode e.2).isZero && !isNan e).length
    let amax := max (at_ 72 % 2 ^ 32) (amaxPattern x.amax)
    let s := s.c0Write p k (bins.flatMap (bytesOf 4))
    let s := s.c0Write p (k + 576) (bytesOf 4 amax)
    let first := firstNan x.format codes band
    let w81 := match first with
      | some e => firstNanWord (at_ 81) x.index e
      | none => at_ 81
    let s := s.c0Write p (k + 592) (bytesOfWords [ (at_ 74 + x.crush) % 2 ^ 64, (at_ 75 + x.zhank) % 2 ^ 64,
      (at_ 76 + x.sat) % 2 ^ 64, (at_ 77 + x.under) % 2 ^ 64, (at_ 78 + nans) % 2 ^ 64, (at_ 79 + infs) % 2 ^ 64,
      (at_ 80 + zeros) % 2 ^ 64, w81 ])
    match first with
    | some e =>
      if (s.mark n t).nan then s
      else (s.setMark n t { s.mark n t with nan := true }).event 0x0403 (s.ofSlot n) [.half t, .half x.index, .half e]
    | none => s

/-- Add a written tile to the record of its tensor. -/
def State.addStats (s : State) (p n t : Nat) (x : TileStats) (codes : List Nat) (band : List Byte) : State :=
  match s.recCheck p n t [] with
  | (s, true) => s.accumulate p n t x codes band
  | (s, false) => s

/-- Write of the whole or of bytes of `step_amax`: it combines as a maximum (04 R149). -/
def State.writeAmax (s : State) (n t v : Nat) : State :=
  match s.recKey n t with
  | none => s
  | some k => s.store (k + 576) (bytesOf 4 (max (s.recWord n t 72 % 2 ^ 32) (v % 2 ^ 31)))

/-! ### Step commit (04 R147) -/

/-- The words of a record after a step commit. -/
def commitRecord (w : List Nat) : List Nat :=
  let g := fun i => nth w i 0
  let pos := bits (g 73) 35 32
  let ring := (List.range 8).map fun i =>
    if pos / 2 = i then setBits (g (64 + i)) (32 * (pos % 2) + 31) (32 * (pos % 2)) (g 72) else g (64 + i)
  List.replicate 32 0 ++ w.take 32 ++ ring ++ [0, setBits (g 73) 35 32 ((pos + 1) % 16)] ++
    List.replicate 7 0 ++ [2 ^ 32 - 1 + (0x7FFF <<< 32)] ++ (w.drop 74).take 8

/-- The records of a partition's slots as its commit reads them: whether every one reads well. -/
def State.statsCheck (s : State) (p : Nat) : State × Bool :=
  (s.partSlots p).foldl (fun (a : State × Bool) n =>
    (List.range 2048).foldl (fun (a : State × Bool) t =>
      if a.2 then a.1.recCheck p n t [] else a) a) (s, true)

/-- Every record of a partition's slots is updated at its step commit. -/
def State.commitStats (s : State) (p : Nat) : State :=
  let s := s.clearMarks p
  (s.partSlots p).foldl (fun s n =>
    (List.range 2048).foldl (fun s t =>
      match s.recKey n t with
      | some k => s.store k (bytesOfWords (commitRecord (wordsOf (Mem.readN s.mem k 720))))
      | none => s) s) s

/-! ### Tiles as stations write them (03 R99, R100; 04 R134 to R143) -/

/-- A converted tile with what it adds to the statistics. -/
structure Made where
  tile : Tile
  stats : TileStats
  codes : List Nat
  deriving DecidableEq, Repr

/-- Finish a tile: payload, side band and flag word. -/
def State.makeTile (s : State) (n t fmt index : Nat) (codes : List Nat) (band : List Byte) (x : TileStats) : Made :=
  let f := fltOf (fmtType fmt)
  let payload := codes.flatMap (bytesOf (elemBytes fmt))
  let band := band ++ List.replicate (1024 - band.length) 0
  let hist := if t < 2048 then s.histBase n t else 0
  let flag := flagWord (firstNan fmt codes band) (codes.findIdx? fun c => (f.decode c).isInf)
    x.crush x.zhank hist x.sat x.under fmt index t
  { tile := ⟨fmt, payload, band, flag⟩, stats := { x with format := fmt, index := index }, codes := codes }

/-- Convert wide values to a plain format (R134, R135). -/
def State.convertPlain (s : State) (n t fmt index : Nat) (rm : Nat → Rm) (bounded : Bool) (extra : Cnt) (xs : List Num) :
    Made :=
  let f := fltOf (fmtType fmt)
  let sat := s.satBit n t
  let sub := s.subBit n t
  let cs := ((List.range xs.length).zip xs).map fun e => convertTo f sat sub (rm e.1) bounded e.2
  s.makeTile n t fmt index (cs.map (·.1)) []
    { format := fmt, index := index, sat := extra.sat + (cs.map (·.2.sat)).sum,
      under := extra.under + (cs.map (·.2.under)).sum, amax := xs.foldl maxMag none }

/-- Convert wide values to a hanked format (R136, R141). -/
def State.convertHanked (s : State) (n t fmt index : Nat) (rm : Nat → Rm) (bounded : Bool) (extra : Cnt) (xs : List Num) :
    State × Made :=
  let f := fltOf (fmtType fmt)
  let (s, delayed) := s.delayedScale n t f
  let h := hankSize fmt
  let hs := (List.range (hankCount fmt)).map fun i =>
    formHank f (s.satBit n t) delayed (fun j => rm (i * h + j)) bounded ((xs.drop (i * h)).take h)
  (s, s.makeTile n t fmt index (hs.flatMap (·.codes)) (hs.map fun x => BitVec.ofNat 8 x.scale)
    { format := fmt, index := index, crush := (hs.map (·.crush)).sum, zhank := (hs.map (·.zhank)).sum,
      sat := extra.sat + (hs.map (·.sat)).sum, under := extra.under, amax := xs.foldl maxMag none })

/-- Convert wide values into a tile of a tensor. -/
def State.convertTile (s : State) (n t fmt index : Nat) (rm : Nat → Rm) (bounded : Bool) (extra : Cnt) (xs : List Num) :
    State × Made :=
  if fmtHank fmt = 0 then (s, s.convertPlain n t fmt index rm bounded extra xs)
  else s.convertHanked n t fmt index rm bounded extra xs

/-- Statistics of a tile that a whorl or twist engine has written. -/
def State.countTile (s : State) (p n : Nat) (m : Made) : State :=
  s.addStats p n (flagTensor m.tile.flag) m.stats m.codes m.tile.band

/-- Values of a tile's elements, hank scales included (04 R138); RAW8 bytes are unsigned integers (06 R209). -/
def Tile.values (t : Tile) : List Num :=
  let f := fltOf (fmtType t.format)
  let cs := t.codes
  ((List.range cs.length).zip cs).map fun e =>
    if fmtType t.format = 7 then .fin false e.2 0
    else
      let sc := scaleAt t.format t.band e.1
      if fmtHank t.format = 0 then f.decode e.2
      else if sc = 0xFF then .nan else (f.decode e.2).scale2 ((sc : Int) - 127)

end Sys2Proof.Machine
end

