-- ==== Sys2Proof/Machine/Reach.lean ====
section
/-! DEFINITION. Machine/Reach.lean: accesses to this package's memory by solver harts, the host and other
packages: the checks of 14 R465 in their order, slub words (09 R314), loads, stores and atomics. -/

namespace Sys2Proof.Machine

/-- A dynamic requester. -/
inductive Who
  | hart (h : Nat)
  | host
  /-- another package: its path, source unit, source partition and world -/
  | remote (path unit part : Nat) (world : Bool)
  deriving DecidableEq, Repr

/-- What an access does. -/
inductive Acc | rd | wr | amo
  deriving DecidableEq, Repr

/-- The outcome of the checks: memory from a place, or a refusal with status and cause (09 Tables 09-5, 09-6). -/
inductive Verdict
  | ok (key : Nat)
  | refused (status cause : Nat)
  deriving DecidableEq, Repr

/-- Host die that runs the CXL link (17 R540, R542). -/
def State.hostDie (s : State) : Nat := if s.cfg.lost.contains 30 then 31 else 30

/-- World of the region a host request falls in: host dies carry the world they serve (14 R460). -/
def State.regionWorld (s : State) (pa : Nat) : Bool :=
  match s.place pa with
  | .stack d o => (s.region? d (o / 2 ^ 21)).any fun v => bit v 32
  | _ => false

/-- Requester word (15 R583). -/
def State.whoWord (s : State) (w : Who) (pa : Nat) : Nat :=
  match w with
  | .hart h => reqWord (hartDie h) (h % 64) ((s.partOfHart h).any fun p => s.partWorld p) false false
  | .host => reqWord s.hostDie 0 (s.regionWorld pa) false false
  | .remote _ u _ world => reqWord (u / 2048) u world true false

/-- Whom a requester's events belong to (15 R505). -/
def State.whoEv (s : State) (w : Who) : EvWho :=
  match w with
  | .hart h => { part := s.partOfHart h }
  | _ => noOne

/-- An event that names the requester and the address. -/
def State.whoEvent (s : State) (code : Nat) (w : Who) (pa : Nat) : State :=
  s.event code (s.whoEv w) [.half (s.whoWord w pa), .word pa]

/-- The world and region check of Table 14-2 for a granule of a stack. -/
def State.granuleOk (s : State) (w : Who) (d g : Nat) : Bool :=
  match s.region? d g with
  | none => false
  | some v =>
    bits v 38 37 == 0 &&
    match w with
    | .hart h => s.partOfHart h == some (bits v 31 30)
    | .host => bit v 33
    | .remote _ _ _ world => bit v 34 && bit v 32 == world

/-- Status of a refused access. -/
def Acc.refusedStatus : Acc → Nat
  | .rd => 1
  | _ => 2

/-- The requester is the owner of an owned region (09 R326). -/
def State.isOwner (s : State) (w : Who) (e : OwnEnt) : Bool :=
  match w with
  | .hart h => e.path == s.ownPath && s.partOfHart h == some e.domain
  | .host => e.path == s.ownPath && e.domain == 4
  | .remote path _ part _ => e.path == path && e.domain == part

/-- A side's access to a buffer of a window (02 R78, R81, R85; 07 R255, R260). -/
def State.windowOk (s : State) (side : Side) (p w b : Nat) : Bool :=
  let x := s.part p
  let y := s.win p w
  y.reaches side b ||
  (side == .solver && (x.state == .loaded || x.state == .armed) && y.owner == .solver && !y.flag &&
    !(match x.draft with | some d => d.isHostWin w | none => true))

/-- Ownership of a stack address: the region's entry, and window ownership (09 R326; 02 R78). -/
def State.ownVerdict (s : State) (w : Who) (a : Acc) (pa k : Nat) : State × Verdict :=
  let e := s.ownEnt (pa / 2 ^ 21)
  let foreign := Verdict.refused (if a = .amo then 0x11 else a.refusedStatus) 5
  if e.state = 0 then (s, .ok k)
  else if e.state = 1 then (s, if s.isOwner w e then .ok k else foreign)
  else match w, s.windowAt pa with
    | .remote .., _ => (s, foreign)
    | _, none => (s, .ok k)
    | w, some (p, x, b) =>
      let side := match w with | .host => Side.host | _ => Side.solver
      if s.windowOk side p x b then (s, .ok k)
      else (if a = .rd then s else s.event 0x0209 (s.whoEv w) [], .refused a.refusedStatus 5)

/-- A draft of the partition that owns a slot is ARMED or RUNNING. -/
def State.slotBusy (s : State) (n : Nat) : Bool :=
  match s.partOfSlot n with
  | some p => (s.part p).state == .armed || (s.part p).state == .running
  | none => false

/-- The die a requester's accesses start from; those of another package enter by a fabric die. -/
def State.whoDie (s : State) (w : Who) : Nat :=
  match w with
  | .hart h => hartDie h
  | .host => s.hostDie
  | .remote .. => 22 + s.fabricDies.headD 0

/-- No surviving fabric die leads from a requester to the memory of an address (01 R34, R45). -/
def State.unreached (s : State) (w : Who) (pa : Nat) : Bool :=
  match s.place pa with
  | .stack d _ | .sram _ d _ => !s.joined (s.whoDie w) d
  | .creel f _ => !s.joined (s.whoDie w) (22 + f)
  | _ => false

/-- The checks of one access of at most a line (14 R465, 08 R267, R268, 10 R363). DESIGN CHOICE (log 58): memory that no
surviving fabric die leads to answers as unmapped memory does. -/
def State.verdict (s : State) (w : Who) (a : Acc) (pa : Nat) : State × Verdict :=
  if s.unreached w pa then (s.whoEvent 0x0801 w pa, .refused a.refusedStatus 3)
  else match s.place pa with
  | .stack d o =>
    if s.granuleOk w d (o / 2 ^ 21) then s.ownVerdict w a pa (stackKey d o)
    else (s.whoEvent 0x0E02 w pa, .refused a.refusedStatus 6)
  | .sram n d o =>
    let mine := match w with | .hart h => s.partOfHart h == s.partOfSlot n && (s.partOfHart h).isSome | _ => false
    if !mine then (s.whoEvent 0x0E02 w pa, .refused a.refusedStatus 6)
    else if o < histOff ∧ s.slotBusy n then
      (s.event 0x0802 (s.slotOnly n) [], .refused a.refusedStatus 5)
    else (s, .ok (sramKey d o))
  | .creel f o =>
    match w with
    | .hart _ =>
      if a = .rd ∧ (s.sec.life = .maker ∨ s.sec.life = .returned) then (s, .ok (creelKey f o))
      else (s.event 0x0A05 (s.whoEv w) [], .refused a.refusedStatus 5)
    | _ => (s.whoEvent 0x0E02 w pa, .refused a.refusedStatus 6)
  | _ => (s.whoEvent 0x0801 w pa, .refused a.refusedStatus 3)

/-! ### Lines the host may hold (17 R546) -/

/-- Snoop the regions of an access that the host may hold; the access then waits. -/
def State.snoopFor (s : State) (w : Who) (pa n : Nat) : State × Bool :=
  match w with
  | .host => (s, false)
  | _ =>
    let rs := s.host.held.filter fun r => decide (pa / 2 ^ 21 ≤ r) && decide (r ≤ (pa + n - 1) / 2 ^ 21)
    (rs.foldl (fun s r =>
      if fmHas s.host.snoops (r * 2 ^ 21) then s
      else ({ s with host := { s.host with snoops := fmSet s.host.snoops (r * 2 ^ 21) s.now } }).send
        (.snoop (r * 2 ^ 21))) s, !rs.isEmpty)

/-! ### Loads and stores -/

/-- The pieces of an access that lie in one line each: offset, address, bytes. -/
def linePieces (pa n : Nat) : List (Nat × Nat × Nat) :=
  (List.range ((pa + n - 1) / 64 - pa / 64 + 1)).map fun i =>
    let a := max pa ((pa / 64 + i) * 64)
    (a - pa, a, min (pa + n) ((pa / 64 + i + 1) * 64) - a)

/-- Read one piece: its bytes and the cause, 0 when it was performed. -/
def State.loadPiece (s : State) (w : Who) (lane off pa n : Nat) : State × List Byte × Nat :=
  match s.verdict w .rd pa with
  | (s, .ok k) =>
    let (s, bad) := s.readCheck k n
    if bad.isEmpty then (s, Mem.readN s.mem k n, 0)
    else
      let s := if k < 2 ^ 41 then s.dramBad (keyDie k) (s.whoEv w).part [] else s
      (s, slubBytes lane 4 off n, 4)
  | (s, .refused _ c) => (s, slubBytes lane c off n, c)

/-- Read n bytes that stand from an offset of an access on: the bytes and the first cause; none: the access waits. -/
def State.loadFrom (s : State) (w : Who) (lane off pa n : Nat) : State × Option (List Byte × Nat) :=
  match s.snoopFor w pa n with
  | (s, true) => (s, none)
  | (s, false) =>
    let r := (linePieces pa n).foldl (fun (a : State × List Byte × Nat) e =>
      let (s, l, c) := a.1.loadPiece w lane (off + e.1) e.2.1 e.2.2
      (s, a.2.1 ++ l, if a.2.2 = 0 then c else a.2.2)) (s, [], 0)
    (r.1, some r.2)

/-- Read n bytes: the bytes and the first cause; none: the access waits. -/
def State.loadLocal (s : State) (w : Who) (lane pa n : Nat) : State × Option (List Byte × Nat) := s.loadFrom w lane 0 pa n

/-- Bits of a statistics record that software may write: a mask for word i (04 Table 04-5). -/
def statsMask (i : Nat) : Nat :=
  if i < 72 then 2 ^ 64 - 1
  else if i = 72 then 2 ^ 32 - 1
  else if i = 73 then 2 ^ 25 - 1
  else if i < 81 then 2 ^ 64 - 1
  else if i = 81 then 2 ^ 48 - 1
  else if i < 89 then 2 ^ 64 - 1
  else if i = 89 then 2 ^ 48 - 1
  else 0

/-- Write the permitted bits of one record word. -/
def State.statsWord (s : State) (k i mask v : Nat) : State :=
  let old := natOf (Mem.readN s.mem (k + 8 * i) 8)
  let m := mask &&& statsMask i
  s.store (k + 8 * i) (bytesOf 8 ((old &&& (2 ^ 64 - 1 - m)) ||| (v &&& m)))

/-- Write bytes of histogram space (04 R148, R149): `step_amax` takes the maximum at any time; every other
word is written only while no draft of the slot's partition is ARMED or RUNNING. Whether all of it was taken. -/
def State.statsStore (s : State) (n d o : Nat) (l : List Byte) : State × Bool :=
  let first := o / 8
  let count := (o + l.length - 1) / 8 - first + 1
  (List.range count).foldl (fun (a : State × Bool) j =>
    let wd := first + j
    let t := (wd * 8 - histOff) / 1024
    let i := wd * 8 % 1024 / 8
    let lo := max o (wd * 8)
    let hi := min (o + l.length) (wd * 8 + 8)
    let part := (l.drop (lo - o)).take (hi - lo)
    let v := natOf part <<< (8 * (lo - wd * 8))
    let mask := (2 ^ (8 * (hi - lo)) - 1) <<< (8 * (lo - wd * 8))
    let k := sramKey d (histOff + 1024 * t)
    let s := a.1
    if i = 72 ∧ mask % 2 ^ 32 ≠ 0 then
      let old := natOf (Mem.readN s.mem (k + 576) 4)
      let w := v % 2 ^ 31
      (if w ≤ old then s else s.store (k + 576) (bytesOf 4 w), a.2)
    else if s.slotBusy n then (s.event 0x0402 (s.slotOnly n) [.half t], false)
    else (s.statsWord k i mask v, a.2)) (s, true)

/-- Write one piece: status and cause. A partial write to an uncorrectable line is dropped (08 R277). -/
def State.storePiece (s : State) (w : Who) (a : Acc) (pa : Nat) (l : List Byte) : State × Nat × Nat :=
  match s.verdict w a pa with
  | (s, .ok k) =>
    match s.place pa with
    | .sram n d o =>
      if histOff ≤ o then
        let (s, ok) := s.statsStore n d o l
        (s, if ok then (0, 0) else (2, 5))
      else (s.store k l, 0, 0)
    | _ =>
      let (s, bad) := if l.length = 64 then (s, []) else s.readCheck k l.length
      if bad.isEmpty then (s.store k l, 0, 0)
      else (s.dramBad (keyDie k) (s.whoEv w).part [], 2, 4)
  | (s, .refused st c) => (s, st, c)

/-- Write bytes: the first status and cause that are not OK; none: the access waits. -/
def State.storeLocal (s : State) (w : Who) (pa : Nat) (l : List Byte) : State × Option (Nat × Nat) :=
  match s.snoopFor w pa l.length with
  | (s, true) => (s, none)
  | (s, false) =>
    let r := (linePieces pa l.length).foldl (fun (a : State × Nat × Nat) e =>
      let (s, st, c) := a.1.storePiece w .wr e.2.1 ((l.drop e.1).take e.2.2)
      (s, if a.2.1 = 0 then (st, c) else a.2)) (s, 0, 0)
    (r.1, some r.2)

/-- A store of one request: when a line of it is refused it changes no memory (R314). -/
def State.storeRequest (s : State) (w : Who) (pa : Nat) (l : List Byte) : State × Option (Nat × Nat) :=
  match (linePieces pa l.length).findSome? fun e =>
      match s.verdict w .wr e.2.1 with
      | (t, .refused st c) => some (t, st, c)
      | (_, .ok _) => none with
  | some (t, st, c) => (t, some (st, c))
  | none => s.storeLocal w pa l

/-! ### Atomics (09 Table 09-4) -/

/-- The value an atomic stores: opcode, width in bytes, old value, operands. -/
def amoValue (op n old a b : Nat) : Nat :=
  let w := 8 * n
  let sg := toSigned w
  match op with
  | 0x10 => (old + a) % 2 ^ w
  | 0x11 => a
  | 0x12 => if old = a then b else old
  | 0x13 => old &&& a
  | 0x14 => old ||| a
  | 0x15 => old ^^^ a
  | 0x16 => min old a
  | 0x17 => max old a
  | 0x18 => if sg old ≤ sg a then old else a
  | 0x19 => if sg old ≤ sg a then a else old
  | _ => (fAdd (if n = 4 then fp32 else fp64) .rne old a).1

/-- Lane of an access of n bytes. -/
def laneOf (n : Nat) : Nat := if n = 8 then 0 else if n = 4 then 1 else if n = 2 then 2 else 3

/-- Perform an atomic of n bytes: the old value, or the slub word; status and cause. None: it waits. -/
def State.amoLocal (s : State) (w : Who) (op pa n : Nat) (operands : List Byte) :
    State × Option (List Byte × Nat × Nat) :=
  match s.snoopFor w pa n with
  | (s, true) => (s, none)
  | (s, false) =>
    match s.verdict w .amo pa with
    | (s, .ok k) =>
      let (s, bad) := s.readCheck k n
      if !bad.isEmpty then
        (if k < 2 ^ 41 then s.dramBad (keyDie k) (s.whoEv w).part [] else s, some (slubBytes (laneOf n) 4 0 n, 2, 4))
      else
        let old := Mem.readN s.mem k n
        let new := bytesOf n (amoValue op n (natOf old) (natOf (operands.take n)) (natOf ((operands.drop n).take n)))
        match s.place pa with
        | .sram m d o =>
          if histOff ≤ o then
            let (s, ok) := s.statsStore m d o new
            (s, some (if ok then (old, 0, 0) else (slubBytes (laneOf n) 5 0 n, 2, 5)))
          else (s.store k new, some (old, 0, 0))
        | _ => (s.store k new, some (old, 0, 0))
    | (s, .refused st c) => (s, some (slubBytes (laneOf n) c 0 n, st, c))

end Sys2Proof.Machine
end

