-- ==== Sys2Proof/Machine/Priv.lean ====
section
/-! DEFINITION. Machine/Priv.lean: the solver cores' modes, control and status registers, physical memory protection and
address translation (07 R230, R231, R233, R237, R238, R261), as the RISC-V privileged specification that R230 names has
them (PRESUMED, log 73), and exceptions of a hart. -/

namespace Sys2Proof.Machine

/-! ### Modes -/

/-- Privilege of a mode: 0 user, 1 supervisor, 3 machine. -/
def HartMode.level : HartMode → Nat
  | .user | .virtualUser => 0
  | .supervisor | .virtualSupervisor => 1
  | .machine => 3
/-- A guest's mode. -/
def HartMode.virtual : HartMode → Bool
  | .virtualUser | .virtualSupervisor => true
  | _ => false
/-- The mode a command names: 0 user, 1 supervisor, 4 virtual user, 5 virtual supervisor, else machine. -/
def modeOf : Nat → HartMode
  | 0 => .user
  | 1 => .supervisor
  | 4 => .virtualUser
  | 5 => .virtualSupervisor
  | _ => .machine

/-- A stored CSR, and storing one. -/
def Hart.getCsr (x : Hart) (c : Nat) : Nat := (fmGet x.csr c 0).toNat
def Hart.setCsr (x : Hart) (c v : Nat) : Hart := { x with csr := fmSet x.csr c (BitVec.ofNat 64 v) }

/-! ### Exceptions -/

/-- The status CSR, its interrupt-enable bit and its previous-privilege field, and the cause and value CSRs of the mode that
takes an exception. -/
structure TrapRegs where
  status : Nat
  ie : Nat
  ppLo : Nat
  ppHi : Nat
  cause : Nat
  tval : Nat
  mode : HartMode

/-- Where an exception of a cause is taken: machine mode, unless delegated; a guest's, under `hedeleg`, by the guest. -/
def Hart.trapRegs (x : Hart) (cause : Nat) : TrapRegs :=
  if x.mode = .machine ∨ !bit (x.getCsr 0x302) cause then ⟨0x300, 3, 11, 12, 0x342, 0x343, .machine⟩
  else if x.mode.virtual ∧ bit (x.getCsr 0x602) cause then ⟨0x200, 1, 8, 8, 0x242, 0x243, .virtualSupervisor⟩
  else ⟨0x300, 1, 8, 8, 0x142, 0x143, .supervisor⟩

/-- A hart takes a synchronous exception: cause and value in the registers of the mode that takes it, the interrupt enable
and the mode saved in its status (its program counter is outside the block). -/
def State.trap (s : State) (h cause tval : Nat) : State :=
  let x := s.hart h
  let r := x.trapRegs cause
  let st := x.getCsr r.status
  let st := setBits st r.ppHi r.ppLo (x.mode.level % 2 ^ (r.ppHi + 1 - r.ppLo))
  let st := setBit (setBit st (r.ie + 4) (bit st r.ie)) r.ie false
  let st := if r.mode = .machine then setBit st 39 x.mode.virtual else st
  let y := ((x.setCsr r.status st).setCsr r.cause cause).setCsr r.tval tval
  let y := if r.mode = .supervisor then y.setCsr 0x600 (setBit (y.getCsr 0x600) 7 x.mode.virtual) else y
  s.setHart h { y with mode := r.mode, trap := some ⟨cause, tval⟩ }

/-! ### Physical memory protection: 16 entries (R231) -/

/-- Configuration byte of an entry, and its address register. -/
def Hart.pmpCfg (x : Hart) (i : Nat) : Nat := bits (x.getCsr (0x3A0 + i / 8 * 2)) (8 * (i % 8) + 7) (8 * (i % 8))
def Hart.pmpAddr (x : Hart) (i : Nat) : Nat := x.getCsr (0x3B0 + i)

/-- Number of one bits at the low end. -/
def lowOnes (v : Nat) : Nat := ((List.range 64).find? fun i => !bit v i).getD 64

/-- The range of an entry: base and end; empty when it is off. -/
def Hart.pmpRange (x : Hart) (i : Nat) : Nat × Nat :=
  let a := x.pmpAddr i
  match bits (x.pmpCfg i) 4 3 with
  | 1 => (if i = 0 then 0 else 4 * x.pmpAddr (i - 1), 4 * a)
  | 2 => (4 * a, 4 * a + 4)
  | 3 =>
    let k := lowOnes a + 3
    (4 * a / 2 ^ k * 2 ^ k, 4 * a / 2 ^ k * 2 ^ k + 2 ^ k)
  | _ => (0, 0)

/-- PMP lets an access of n bytes at a physical address go on: the first entry that holds one of them decides, and must hold
all; with none, machine mode may. -/
def Hart.pmpOk (x : Hart) (m : HartMode) (a n : Nat) (store : Bool) : Bool :=
  match (List.range 16).find? fun i => decide ((x.pmpRange i).1 < a + n) && decide (a < (x.pmpRange i).2) with
  | none => m == .machine
  | some i =>
    let c := x.pmpCfg i
    decide ((x.pmpRange i).1 ≤ a) && decide (a + n ≤ (x.pmpRange i).2) &&
    ((m == .machine && !bit c 7) || bit c (if store then 1 else 0))

/-- PMP forbids an access of n bytes at a physical address to a hart in its mode (R231). -/
def State.pmpStops (s : State) (h a n : Nat) (store : Bool) : Bool := !(s.hart h).pmpOk (s.hart h).mode a n store

/-! ### Address translation: Sv39, Sv48, Sv39x4, Sv48x4 (R231) -/

/-- Levels of a translation mode: none for no translation. -/
def levelsOf (mode : Nat) : Option Nat :=
  match mode with
  | 8 => some 3
  | 9 => some 4
  | _ => none

/-- Causes of the page faults of the stages, and of an access fault. -/
def pageCause (store : Bool) : Nat := if store then 15 else 13
def guestCause (store : Bool) : Nat := if store then 23 else 21
def accessCause (store : Bool) : Nat := if store then 7 else 5

/-- Walk the page tables from a base: the leaf entry and the translated address, or a cause. `wide`: two more index bits at
the root. -/
def walk (get : Nat → Except Nat Nat) (pf va : Nat) : Nat → Nat → Nat → Except Nat (Nat × Nat)
  | 0, _, _ => .error pf
  | k + 1, base, wide =>
    match get (base + 8 * bits va (12 + 9 * k + 8 + wide) (12 + 9 * k)) with
    | .error e => .error e
    | .ok pte =>
      let ppn := bits pte 53 10
      if !bit pte 0 ∨ (!bit pte 1 ∧ bit pte 2) ∨ bits pte 63 54 ≠ 0 then .error pf
      else if bit pte 1 ∨ bit pte 3 then
        if ppn % 2 ^ (9 * k) ≠ 0 then .error pf
        else .ok (pte, ppn * 4096 + va % 2 ^ (12 + 9 * k))
      else walk get pf va k (ppn * 4096) 0

/-- A leaf entry allows an access: its user bit, its permissions, its accessed and dirty bits. -/
def leafOk (pte : Nat) (user : Bool) (sum mxr store : Bool) : Bool :=
  (if user then bit pte 4 else !bit pte 4 || sum) &&
  (if store then bit pte 2 && bit pte 7 else bit pte 1 || (mxr && bit pte 3)) && bit pte 6

/-- A page-table entry at a physical address, read under PMP. -/
def State.pteAt (s : State) (x : Hart) (store : Bool) (a : Nat) : Except Nat Nat :=
  match s.place a with
  | .stack .. => if x.pmpOk .supervisor a 8 false then .ok (s.readPa64 a) else .error (accessCause store)
  | _ => .error (accessCause store)

/-- A guest-physical address translated by the second stage. -/
def State.guestStage (s : State) (x : Hart) (store : Bool) (a : Nat) : Except Nat Nat :=
  let g := x.getCsr 0x680
  match levelsOf (bits g 63 60) with
  | none => .ok a
  | some k =>
    if 2 ^ (12 + 9 * k + 2) ≤ a then .error (guestCause store)
    else match walk (s.pteAt x store) (guestCause store) a k (bits g 43 0 * 4096) 2 with
      | .error e => .error e
      | .ok (pte, pa) => if leafOk pte true false false store then .ok pa else .error (guestCause store)

/-- A virtual address is the sign extension of its translated bits. -/
def canonical (k va : Nat) : Bool :=
  let w := 12 + 9 * k
  bits va 63 (w - 1) == 0 || bits va 63 (w - 1) == 2 ^ (65 - w) - 1

/-- Translate an access of a hart to a 56-bit physical address, or give the cause of its exception. -/
def State.translate (s : State) (h va : Nat) (store : Bool) : Except Nat Nat :=
  let x := s.hart h
  let guest := x.mode.virtual
  let st := x.getCsr (if guest then 0x200 else 0x300)
  let second := fun (a : Nat) => if guest then s.guestStage x store a else .ok a
  let atp := if x.mode = .machine then 0 else x.getCsr (if guest then 0x280 else 0x180)
  match levelsOf (bits atp 63 60) with
  | none => if 2 ^ 56 ≤ va then .error (accessCause store) else second va
  | some k =>
    if !canonical k va then .error (pageCause store)
    else
      let get := fun (a : Nat) => match second a with | .ok b => s.pteAt x store b | .error e => .error e
      match walk get (pageCause store) va k (bits atp 43 0 * 4096) 0 with
      | .error e => .error e
      | .ok (pte, pa) =>
        if leafOk pte (x.mode.level == 0) (bit st 18) (bit st 19 || bit (x.getCsr 0x300) 19) store then second pa
        else .error (pageCause store)

/-- Translation and PMP for n bytes of a hart's access that lie in one page. -/
def State.reach (s : State) (h va n : Nat) (store : Bool) : Except Nat Nat :=
  match s.translate h va store with
  | .error e => .error e
  | .ok pa => if (s.hart h).pmpOk (s.hart h).mode pa n store then .ok pa else .error (accessCause store)

/-! ### Control and status registers (R230, R233, R237, R238, R261) -/

/-- The `time` CSR: 100 MHz from the board reference clock (R233). -/
def State.timeCsr (s : State) : Nat := s.now / (unitsPerUs / 100) % 2 ^ 64

/-- Supervisor CSRs that a guest reads and writes as its own. -/
def guestCsr (c : Nat) : Nat :=
  if [0x100, 0x104, 0x105, 0x140, 0x141, 0x142, 0x143, 0x144, 0x180].contains c then c + 0x100 else c

/-- CSRs of the standard extensions that a hart stores as written. -/
def plainCsrs : List Nat :=
  [0x300, 0x302, 0x305, 0x306, 0x340, 0x341, 0x342, 0x343, 0x34A, 0x34B, 0x105, 0x106, 0x140, 0x141, 0x142, 0x143,
   0x600, 0x602, 0x603, 0x605, 0x606, 0x607, 0x643, 0x645, 0x64A, 0x200, 0x204, 0x205, 0x240, 0x241, 0x242, 0x243, 0x244]

/-- Bits of `mstatus` that `sstatus` shows. -/
def sstatusBits : Nat := 0x80000003000DE762

/-- A translation CSR takes a value: a mode it has, its identifier bits, its root page; else it stays as it is. -/
def atpValue (c old v : Nat) : Nat :=
  let m := bits v 63 60
  if m ≠ 0 ∧ (levelsOf m).isNone then old
  else if c = 0x680 then setBits (v % 2 ^ 64) 59 58 0 / 4 * 4 else v % 2 ^ 64

/-- A PMP entry is locked. -/
def Hart.pmpLocked (x : Hart) (i : Nat) : Bool := bit (x.pmpCfg i) 7

/-- A PMP configuration register takes the bytes of its entries that are not locked. -/
def Hart.setPmpCfg (x : Hart) (c v : Nat) : Hart :=
  let first := (c - 0x3A0) / 2 * 8
  x.setCsr c ((List.range 8).foldl (fun a i =>
    if x.pmpLocked (first + i) then a else setBits a (8 * i + 7) (8 * i) (bits v (8 * i + 7) (8 * i) &&& 0x9F)) (x.getCsr c))

/-- A PMP address register takes 54 bits, unless its entry, or a range that begins with it, is locked. -/
def Hart.setPmpAddr (x : Hart) (i v : Nat) : Hart :=
  if x.pmpLocked i || (decide (i < 15) && x.pmpLocked (i + 1) && bits (x.pmpCfg (i + 1)) 4 3 == 1) then x
  else x.setCsr (0x3B0 + i) (v % 2 ^ 54)

/-- The lowest mode that reaches a CSR: 0 user, 1 supervisor, 2 hypervisor, 3 machine. -/
def csrLevel (c : Nat) : Nat := c / 256 % 4

/-- A mode reaches a CSR: the exception, if it does not. A guest takes a virtual-instruction exception for a CSR that its
level would reach outside a guest. -/
def HartMode.csrFault (m : HartMode) (c : Nat) : Option Nat :=
  let k := if m = .supervisor then 2 else m.level
  if csrLevel c ≤ k then none else if m.virtual ∧ csrLevel c < 3 then some 22 else some 2

/-- A CSR of a hart as it reads (R237): none when there is no such CSR, or with `bs` 0 (R238). -/
def State.csrRead (s : State) (h c : Nat) : Option Nat :=
  let x := s.hart h
  let off := x.bxbs == 0
  let p := s.partOfHart h
  match c with
  | 0x001 => some x.fflags.toNat
  | 0x002 => some x.frm.toNat
  | 0x003 => some (x.fflags.toNat + (x.frm.toNat <<< 5))
  | 0x800 => if off then none else some x.bxstart.toNat
  | 0x801 => if off then none else some (b2n x.bxff + (x.bxbs.toNat <<< 1))
  | 0x802 => if off then none else some x.bxhank.toNat
  | 0x803 => if off then none else some x.bxscale.toNat
  | 0x804 => some x.bxwmask.toNat
  | 0x805 => some x.bxwpend.toNat
  | 0xCC0 => some x.bxvl.toNat
  | 0xCC1 => some x.bxvtype.toNat
  | 0xCC2 => some (s.tickOf p)
  | 0xCC3 => some ((s.now - s.cad.tickStart) / s.cycleUnits % 2 ^ 64)
  | 0xCC4 => some (((p.map fun p => (s.part p).epoch.toNat).getD 0) % 2 ^ 48)
  | 0xC01 => some s.timeCsr
  | 0xF14 => some h
  | 0x303 => some x.mideleg.toNat
  | 0x304 => some x.mie.toNat
  | 0x344 => some (setBit x.mip.toNat 16 (x.bxwpend &&& x.bxwmask != 0))
  | 0x104 => some (x.mie &&& x.mideleg).toNat
  | 0x144 => some (setBit x.mip.toNat 16 (x.bxwpend &&& x.bxwmask != 0) &&& x.mideleg.toNat)
  | 0x100 => some (x.getCsr 0x300 &&& sstatusBits)
  | _ =>
    if plainCsrs.contains c ∨ c = 0x180 ∨ c = 0x280 ∨ c = 0x680 ∨ c = 0x3A0 ∨ c = 0x3A2 ∨ (0x3B0 ≤ c ∧ c < 0x3C0) then
      some (x.getCsr c)
    else none

end Sys2Proof.Machine
end

