-- ==== Sys2Proof/Machine/Request.lean ====
section
/-! DEFINITION. Machine/Request.lean: completion of fabric requests: delivery to harts
and gathers, dead targets (09 R309, R320, R321; 10 R355), and the paths of a hart's addresses (09 R310). -/

namespace Sys2Proof.Machine

/-! ### Hart registers -/

/-- An integer register; x0 reads 0. -/
def State.getX (s : State) (h r : Nat) : Nat := if r = 0 then 0 else (fmGet (s.hart h).x r 0).toNat

/-- Write an integer register; x0 takes nothing. -/
def State.setX (s : State) (h r v : Nat) : State :=
  if r = 0 then s else s.setHart h { s.hart h with x := fmSet (s.hart h).x r (BitVec.ofNat 64 v) }

/-- A floating-point register. -/
def State.getF (s : State) (h r : Nat) : Nat := (fmGet (s.hart h).f r 0).toNat

/-- Write a floating-point register, NaN-boxing a value of 4 bytes (07 R245). -/
def State.setF (s : State) (h r size v : Nat) : State :=
  let v := if size = 4 then v % 2 ^ 32 + (2 ^ 64 - 2 ^ 32) else v
  s.setHart h { s.hart h with f := fmSet (s.hart h).f r (BitVec.ofNat 64 v) }

/-- Extend a loaded value of `size` bytes to 64 bits. -/
def extendTo (size : Nat) (signed : Bool) (v : Nat) : Nat :=
  if signed then ofSigned 64 (toSigned (8 * size) v) else v

/-- Bytes of a vector register. -/
def State.getV (s : State) (h r : Nat) : List Byte := bytesOf 512 (fmGet (s.hart h).v r 0).toNat

/-- Write bytes of the register group from a register on, from a byte offset. -/
def State.setVBytes (s : State) (h r off : Nat) (l : List Byte) : State :=
  let first := r + off / 512
  (List.range ((off % 512 + l.length + 511) / 512)).foldl (fun s i =>
    let lo := if i = 0 then off % 512 else 0
    let skip := if i = 0 then 0 else 512 * i - off % 512
    let part := (l.drop skip).take (512 - lo)
    let old := s.getV h (first + i)
    let new := old.take lo ++ part ++ old.drop (lo + part.length)
    s.setHart h { s.hart h with v := fmSet (s.hart h).v (first + i) (BitVec.ofNat 4096 (natOf new)) }) s

/-! ### Delivery -/

/-- Gather key: hart × 16 + place. -/
def State.gather (s : State) (h j : Nat) : Option Gather := fmGet? s.fab.gathers (h * 16 + j)
def State.setGather (s : State) (h j : Nat) (g : Gather) : State :=
  { s with fab := { s.fab with gathers := fmSet s.fab.gathers (h * 16 + j) g } }

/-- An element of a gather has completed: its bytes go to its slot (09 R333). -/
def State.gatherDone (s : State) (h j i : Nat) (l : List Byte) (status cause : Nat) : State :=
  match s.gather h j with
  | none => s
  | some g =>
    let s := (s.storeLocal (.hart h) (g.dest + i * laneBytes g.lane) l).1
    s.setGather h j { g with
      done := if g.done.contains i then g.done else g.done ++ [i]
      failed := if status = 0 then g.failed else fmSet g.failed i (status, cause) }

/-- Hand the data of a completed request to whom it is for. -/
def State.deliver (s : State) (dl : Deliver) (status cause : Nat) (l : List Byte) : State :=
  match dl with
  | .none => s
  | .xreg h r size signed => s.setX h r (extendTo size signed (natOf (l.take size)))
  | .freg h r size => s.setF h r size (natOf (l.take size))
  | .part h r off size signed fp =>
    let old := if fp then s.getF h r else s.getX h r
    let v := natOf ((bytesOf size old).take off ++ l ++ (bytesOf size old).drop (off + l.length))
    if fp then s.setF h r size v else s.setX h r (extendTo size signed v)
  | .vreg h r off => s.setVBytes h r off l
  | .gather h j i => s.gatherDone h j i l status cause
  | .host tag => s.send (.answer tag l)

/-- Offset, within its lane, of the byte that a part of a split access begins with (R312, R314). -/
def Deliver.laneOff : Deliver → Nat
  | .part _ _ off .. => off
  | .vreg _ _ off => off
  | _ => 0

/-- Data a requester receives when a request is not performed: the slub word in every lane (R314, R320). -/
def slubData (pkt : Packet) (dl : Deliver) (cause : Nat) : List Byte :=
  if pkt.op = 0x02 then [] else slubBytes pkt.lane cause dl.laneOff pkt.len

/-- A request ends: its data is delivered, that of a load not performed as slub words, and a status other than OK writes a
fault record (R322). -/
def State.finish (s : State) (pkt : Packet) (dl : Deliver) (status cause : Nat) (l : List Byte) : State :=
  let s := s.deliver dl status cause (if status = 1 then slubData pkt dl cause else l.take pkt.len)
  if status = 0 then s else s.faultRecord pkt.part pkt.addr cause status pkt.dst pkt.op pkt.tag pkt.unit

/-- A request that is not sent: it takes its tag and completes at once. -/
def State.failNow (s : State) (pkt : Packet) (dl : Deliver) (status cause : Nat) : State :=
  let x := s.srcUnit pkt.unit
  let s := s.setSrcUnit pkt.unit { x with tag := x.tag + 1 }
  s.finish { pkt with tag := x.tag.toNat } dl status cause (slubData pkt dl cause)

/-! ### Dead targets (R309, R320, R321; 10 R355) -/

/-- Depths of this package's skeins whose primary head is a path. -/
def State.headDepths (s : State) (path : Nat) : List Nat :=
  (List.range (depthOf s.ownPath)).filter fun j => decide (1 ≤ j) && s.odGet 0x6018 j % 2 ^ 48 == path

/-- The heads of the skeins a path heads have changed (R309). -/
def State.headChange (s : State) (path : Nat) : State :=
  (s.headDepths path).foldl (fun s j => s.event 0x0907 noOne [.half j, .word (s.skeinHead j)]) s

/-- Rank of a path in a group, 0x7FF when it is not a member (10 R355). -/
def Group.rankOf (g : Group) (path : Nat) : Nat :=
  ((g.present.find? fun m => m.2.2 == path).map fun m => m.1).getD 0x7FF

/-- Dynamic collectives whose member or head is a path end with FAILED_MEMBER (10 R355). -/
def State.failMember (s : State) (path : Nat) : State :=
  s.coll.colls.foldl (fun s e =>
    let g := s.group e.2.part e.2.group
    let heads := g.nodes.any fun n => n.2.1 == path
    if !e.2.draft && (g.rankOf path != 0x7FF || heads) then s.completeColl e.1 3 (g.rankOf path) else s) s

/-- Mark a destination package dead (R320, R321): the next store or atomic to it resynchronises (R316). -/
def State.markDead (s : State) (path : Nat) : State :=
  let s := s.event 0x0909 noOne [.word path]
  if s.fab.dead.contains path then s
  else
    let s := { s with fab := { s.fab with
      dead := s.fab.dead ++ [path]
      sources := s.fab.sources.map fun (e : Nat × Source) => (e.1, { e.2 with synced := e.2.synced.filter fun d => d != path }) } }
    (s.headChange path).failMember path

/-- The dead mark of a path clears (R321). -/
def State.clearDead (s : State) (path : Nat) : State :=
  if s.fab.dead.contains path then
    ({ s with fab := { s.fab with dead := s.fab.dead.filter fun d => d != path } }).headChange path
  else s

/-- Status a request completes with when its destination is dead (R320), and when it is refused (R313). -/
def deadStatus (pkt : Packet) : Nat := if pkt.isWrite then 3 else 1
def refusedStatus (pkt : Packet) : Nat := if pkt.isWrite then 2 else 1

/-- A request completes at a dead destination: ATOMIC_OUTCOME_UNKNOWN for a store or atomic. -/
def State.deadEvent (s : State) (pkt : Packet) : State :=
  if pkt.isWrite then s.event 0x0908 noOne [.half pkt.tag] else s

/-- A request to a dead destination completes without being sent (R321). -/
def State.failDead (s : State) (pkt : Packet) (dl : Deliver) : State :=
  let tag := (s.srcUnit pkt.unit).tag.toNat
  ((s.failNow pkt dl (deadStatus pkt) 1).markDead pkt.dst).deadEvent { pkt with tag := tag }

/-- Issue the held requests of a unit that nothing blocks any more, in order; one to a path marked dead since completes at
once (R321). -/
def State.releaseHeld (s : State) (u : Nat) : State :=
  let l := (s.srcUnit u).held
  let s := s.setSrcUnit u { s.srcUnit u with held := [] }
  l.foldl (fun s e => if s.fab.dead.contains e.1.dst then s.failDead e.1 e.2 else s.issueReq e.1 e.2) s

/-- Complete an outstanding request (R313, R320): it counts as answered (R323), and requests it held back go. -/
def State.complete (s : State) (u tag status cause : Nat) (l : List Byte) : State :=
  let x := s.srcUnit u
  match fmGet? x.outstanding tag with
  | none => s
  | some r =>
    let s := s.setSrcUnit u { x with
      outstanding := fmDel x.outstanding tag
      answered := if r.pkt.isWrite then fmSet x.answered r.pkt.dst (fmGet x.answered r.pkt.dst 0 + 1) else x.answered }
    (s.finish r.pkt r.deliver status cause l).releaseHeld u

/-- A request of the solver side of a partition names a region of another package that a release or handover of its domain is
giving up: it counts as that of a non-owner (R329). -/
def State.givenUp (s : State) (pkt : Packet) : Bool :=
  pkt.op != 0x28 && (hartOfUnit pkt.unit).isSome && s.fab.giving.contains (pkt.dst, pkt.addr / 2 ^ 21, pkt.part)

/-- Send a request to a path that stands for another package, or complete it at once when there is no route
or the destination is dead. -/
def State.request (s : State) (pkt : Packet) (path : Nat) (dl : Deliver) : State :=
  match s.route path with
  | .away d =>
    let pkt := { pkt with dst := d }
    if s.fab.dead.contains d then s.failDead pkt dl
    else if (s.portFor (pkt.cls == 0) d pkt.unit).isNone then s.failNow pkt dl (refusedStatus pkt) 2
    else if s.givenUp pkt then s.failNow pkt dl (if pkt.op < 0x10 then refusedStatus pkt else 0x11) 5
    else s.issueReq pkt dl
  | _ => s.failNow { pkt with dst := path } dl (refusedStatus { pkt with dst := path }) 2

/-- A unit has no room for so many more requests (R315). -/
def State.unitFull (s : State) (u k : Nat) : Bool :=
  let x := s.srcUnit u
  decide (4096 < x.outstanding.length + x.held.length + k)

/-! ### Addresses of a hart (R310) -/

/-- The package a hart's address names. -/
def State.hartPath (s : State) (h a : Nat) : Nat :=
  let i := bits a 54 48
  if i = 0 then s.ownPath
  else match s.partOfHart h with
    | some p => s.odGet (0x6010 + p) i % 2 ^ 48
    | none => noPath

/-- Where a request of a hart goes: path index 0 is the hart's own package, whatever its path (R310). -/
def State.hartRoute (s : State) (h a : Nat) : Route := if bits a 54 48 = 0 then .here else s.route (s.hartPath h a)

/-- A packet of a hart's request. -/
def State.hartPacket (s : State) (h op cls addr len : Nat) (data : List Byte) : Packet :=
  let p := (s.partOfHart h).getD 0
  { dst := s.ownPath, op := op, cls := cls, lane := laneOf len, addr := addr, len := len, part := p,
    world := s.partWorld p, src := s.ownPath, unit := hartUnit h, data := data }

/-- A failed access of a hart to its own package is a request that completes with a status (R322). -/
def State.localFault (s : State) (h op pa len status cause : Nat) : State :=
  if status = 0 then s else s.failNow (s.hartPacket h op 1 pa len []) .none status cause

end Sys2Proof.Machine
end

