-- ==== Sys2Proof/Machine/Fabric.lean ====
section
/-! DEFINITION. Machine/Fabric.lean: loads, stores, fences, ownership commands and gathers of solver harts
(09 R310, R323 to R333), requests from other packages (09 R311 to R319), responses, reissues and time-outs
(09 R313, R320, R321), and the fabric's objects (09 R321, R331). -/

namespace Sys2Proof.Machine

/-- Answer of a command that waits and is sent again: lines the host may hold (17 R546), or 4,096 requests
outstanding (09 R315). -/
def stWait : Nat := 255

/-- A hart of a lost die executes nothing (13 R445). -/
def State.hartGone (s : State) (h : Nat) : Bool := s.cfg.lost.contains (hartDie h)

/-! ### Ownership at the home (09 R326, R328, R329) -/

/-- Result word of an ownership command (R328). -/
def State.ownResult (s : State) (region status : Nat) : Nat := status + ((s.ownEnt region).gen.toNat <<< 16)

/-- An ownership command takes effect at the home: requesting package and domain, region, command word, and
the package of a new owner. Answers the status. -/
def State.ownApply (s : State) (path domain region word target : Nat) : State × Nat :=
  let e := s.ownEnt region
  let mine := e.state == 1 && e.path == path && e.domain == domain
  match bits word 3 0 with
    | 1 =>
      if e.state = 0 then (s.setOwn region 1 domain path, 0)
      else if mine then (s, 0)
      else (s, if e.state = 2 then 0x12 else 0x10)
    | 2 => if mine then (s.setOwn region 0 0 0, 0) else (s, 0x11)
    | 3 =>
      if mine ∧ bits word 18 16 ≤ 4 ∧ (pathNames target ∨ bits word 14 8 = 0) then (s.setOwn region 1 (bits word 18 16) target, 0)
      else (s, 0x11)
    | _ => (s, 0x11)

/-- The map and region checks of a control-view access: the cause of a refusal, 0 when it may go on. -/
def State.ctlCheck (s : State) (w : Who) (pa : Nat) : State × Nat :=
  match s.place pa with
  | .stack d o => if s.granuleOk w d (o / 2 ^ 21) then (s, 0) else (s.whoEvent 0x0E02 w pa, 6)
  | _ => (s.whoEvent 0x0801 w pa, 3)

/-- Word of an ownership entry (Table 09-9): w0, or w1 from offset 8 on. -/
def State.ownWord (s : State) (pa : Nat) : Nat :=
  let e := s.ownEnt (pa / 2 ^ 21)
  if pa % 2 ^ 21 = 8 then e.path else e.state + (e.domain <<< 2) + (e.gen.toNat <<< 16)

/-- Serve an ownership request: a command, or (with no data) a read of the entry. Data, status, cause. -/
def State.ownServe (s : State) (w : Who) (path domain pa : Nat) (data : List Byte) : State × List Byte × Nat × Nat :=
  match s.ctlCheck w pa with
  | (s, 0) =>
    if data.isEmpty then (s, bytesOf 8 (s.ownWord pa), 0, 0)
    else
      let (s, st) := s.ownApply path domain (pa / 2 ^ 21) (natOf (data.take 8)) (natOf ((data.drop 8).take 8))
      (s, bytesOf 8 (s.ownResult (pa / 2 ^ 21) st), st, 0)
  | (s, c) => (s, slubBytes 0 c 0 8, if data.isEmpty then 1 else 2, c)

/-! ### Solver loads and stores (R310, R318, R326, R327) -/

/-- Send an ownership request of a hart, for so many bytes of the answer, to its home, or serve it here. From its sending on, a
release or handover to another package makes the domain a non-owner there (R329). -/
def State.ownSend (s : State) (h : Nat) (here : Bool) (path pa len : Nat) (dl : Deliver) (data : List Byte) : State :=
  let p := (s.partOfHart h).getD 0
  if here then
    let r := s.ownServe (.hart h) s.ownPath p pa data
    (r.1.deliver dl 0 0 (r.2.1.take len)).localFault h 0x28 pa len r.2.2.1 r.2.2.2
  else
    let s := match s.route path with
      | .away d =>
        if natOf (data.take 1) % 16 = 2 ∨ natOf (data.take 1) % 16 = 3 then
          { s with fab := { s.fab with giving := s.fab.giving ++ [(d, pa / 2 ^ 21, p)] } }
        else s
      | _ => s
    s.request (s.hartPacket h 0x28 2 pa len data) path dl

/-- The release or handover of a region has ended (R329). -/
def State.endGiving (s : State) (k : Packet) : State :=
  if k.op = 0x28 ∧ k.isWrite then
    { s with fab := { s.fab with giving := s.fab.giving.erase (k.dst, k.addr / 2 ^ 21, k.part) } }
  else s

/-- A load of the control view (R327), of any width. -/
def State.ctlLoad (s : State) (h a size : Nat) (dl : Deliver) : State :=
  let off := a % 2 ^ 21
  if off = 0 ∨ off = 8 then s.ownSend h (s.hartRoute h a == .here) (s.hartPath h a) (a % 2 ^ 48) size dl []
  else s.trap h 5 a

/-- An address inside the coherence domain of 07 R235: the stacks of PX0 to PX3 of this package. -/
def State.coherent (s : State) (a : Nat) : Bool :=
  bits a 55 48 == 0 && match s.place (a % 2 ^ 48) with | .stack d _ => decide (18 ≤ d) && decide (d < 22) | _ => false

/-- Reservations of other harts on a line end when it is stored to. -/
def State.breakRes (s : State) (h pa n : Nat) : State :=
  { s with harts := s.harts.map fun e =>
      match e.2.reserved with
      | some r => if e.1 ≠ h ∧ r / 64 ≤ (pa + n - 1) / 64 ∧ pa / 64 ≤ r / 64 then (e.1, { e.2 with reserved := none }) else e
      | none => e }

/-- A store of a hart's bytes to a path and address. -/
def State.solverStore (s : State) (h a pa : Nat) (l : List Byte) : State :=
  if s.hartRoute h a = .here then
    match s.storeLocal (.hart h) pa l with
    | (s, none) => s.answer stWait []
    | (s, some (st, c)) => (s.breakRes h pa l.length).localFault h 2 pa l.length st c
  else if s.unitFull (hartUnit h) (if pa % l.length = 0 then 1 else l.length) then s.answer stWait []
  else if pa % l.length = 0 then s.request (s.hartPacket h 2 2 pa l.length l) (s.hartPath h a) .none
  else (List.range l.length).foldl (fun s i =>
    s.request (s.hartPacket h 2 2 (pa + i) 1 [nth l i 0]) (s.hartPath h a) .none) s

/-- An atomic of a hart. -/
def State.solverAmo (s : State) (h a pa size rd op : Nat) (l : List Byte) : State :=
  let dl := Deliver.xreg h rd size true
  if s.hartRoute h a = .here then
    match s.amoLocal (.hart h) op pa size l with
    | (s, none) => s.answer stWait []
    | (s, some (old, st, c)) => ((s.deliver dl 0 0 old).breakRes h pa size).localFault h op pa size st c
  else if s.unitFull (hartUnit h) 1 then s.answer stWait []
  else s.request (s.hartPacket h op 2 pa size l) (s.hartPath h a) dl

/-! ### Fences (R323, R324) -/

/-- A fence of a unit begins: it records the issued count of every destination. -/
def State.pushFence (s : State) (u : Nat) (next : Option (Packet × Deliver)) (peers : List (Nat × Nat × Nat))
    (here : Bool) : State :=
  let x := s.srcUnit u
  s.setSrcUnit u { x with fences := x.fences ++ [{ marks := x.issued, thenSend := next, peers := peers, here := here }] }

/-- Stores and atomics that the other harts of a hart's domain have issued to a home and that are unanswered (R329). -/
def State.peerWrites (s : State) (h path : Nat) : List (Nat × Nat × Nat) :=
  match s.route path, s.partOfHart h with
  | .away d, some p => ((s.partHarts p).filter fun j => j != h).filterMap fun j =>
      let x := s.srcUnit (hartUnit j)
      let n := fmGet x.issued d 0
      if n ≤ fmGet x.answered d 0 then none else some (hartUnit j, d, n)
  | _, _ => []

/-- A destination of a fence no longer holds it. -/
def State.fenceMet (s : State) (x : Source) (e : Nat × Nat) : Bool :=
  decide (e.2 ≤ fmGet x.answered e.1 0) || s.fab.dead.contains e.1

/-- The dead destination a fence completes at. -/
def State.fenceDead (s : State) (x : Source) (f : Fence) : Option Nat :=
  (f.err.or ((f.marks.find? fun e => decide (fmGet x.answered e.1 0 < e.2) && s.fab.dead.contains e.1).map fun e => e.1)).or
    ((f.peers.find? fun e => decide (fmGet (s.srcUnit e.1).answered e.2.1 0 < e.2.2) && s.fab.dead.contains e.2.1).map
      fun e => e.2.1)

/-- The oldest fence of a hart completes when every destination has answered or is dead. -/
def State.fenceDone (s : State) (h : Nat) : State :=
  let u := hartUnit h
  let x := s.srcUnit u
  match x.fences with
  | [] => s
  | f :: fs =>
    if !(f.marks.all (s.fenceMet x) && f.peers.all fun e => s.fenceMet (s.srcUnit e.1) e.2) then s
    else
      let s := s.setSrcUnit u { x with fences := fs }
      let s := match s.fenceDead x f with
        | some d => (s.faultRecord ((s.partOfHart h).getD 0) 0 1 3 d 0xF0 0 u).event 0x090A { part := s.partOfHart h } []
        | none => s
      match f.thenSend with
      | some (pkt, dl) => s.ownSend h f.here pkt.dst pkt.addr 8 dl pkt.data
      | none => s

/-! ### Ownership commands of harts (R327 to R329) -/

/-- Issue an ownership command: a release or handover waits for the stores and atomics issued before it, by the hart
to every package and by its domain to the home (R323, R329). The command travels with the path of a handover's new owner. -/
def State.ownIssue (s : State) (h a rd word : Nat) : State :=
  let pa := a % 2 ^ 48
  let path := s.hartPath h a
  let target := s.hartPath h (bits word 14 8 * 2 ^ 48)
  let data := bytesOf 8 word ++ bytesOf 8 target
  let dl := Deliver.xreg h rd 8 false
  if s.hartGone h then s
  else if s.pmpStops h a 8 true || pa % 2 ^ 21 != 0 then s.trap h 7 a
  else if s.unitFull (hartUnit h) 1 then s.answer stWait []
  else if bits word 3 0 = 2 ∨ bits word 3 0 = 3 then
    s.pushFence (hartUnit h) (some ({ s.hartPacket h 0x28 2 pa 8 data with dst := path }, dl))
      (if s.hartRoute h a = .here then [] else s.peerWrites h path) (s.hartRoute h a == .here)
  else s.ownSend h (s.hartRoute h a == .here) path pa 8 dl data

/-! ### Gathers (R332, R333) -/

/-- Fabric die whose engine serves a hart's gathers: the nearer of its die's two, the lower-numbered when both are
equally near (01 R41, R43). -/
def State.gatherDie (s : State) (h : Nat) : Nat :=
  let k := nth [1, 2, 5, 6] (h / 64) 1
  if s.fabricDies.contains k then k else if s.fabricDies.contains (k + 1) then k + 1 else s.fabricDies.headD 0

/-- A gather descriptor as words, when it is valid (Table 09-10). -/
def State.gatherDesc (s : State) (h pa : Nat) : State × Option (List Nat) :=
  if pa % 64 ≠ 0 then (s, none)
  else match s.loadLocal (.hart h) 0 pa 64 with
    | (s, some (l, 0)) =>
      let w := wordsOf l
      let g := fun i => nth w i 0
      let size := laneBytes (bits (g 0) 56 55)
      let ok := bits (g 0) 47 0 % 8 == 0 && decide (1 ≤ bits (g 0) 54 48) && decide (bits (g 0) 54 48 ≤ 64) &&
        bits (g 0) 63 57 == 0 && bits (g 1) 63 48 == 0 && bits (g 2) 63 48 == 0 && (w.drop 3).all (fun v => v == 0) &&
        g 1 % size == 0 && g 2 % 64 == 0
      (s, if ok then some w else none)
    | (s, _) => (s, none)

/-- The element list of a gather: addresses and path indices, when it is valid. -/
def State.gatherList (s : State) (h addr count : Nat) : State × Option (List (Nat × Nat)) :=
  match s.loadLocal (.hart h) 0 addr (8 * count) with
  | (s, some (l, 0)) =>
    let w := wordsOf l
    (s, if w.all (fun v => bits v 63 55 == 0) then some (w.map fun v => (bits v 47 0, bits v 54 48)) else none)
  | (s, _) => (s, none)

/-- The destination path of a gather's element: that of the package that serves it (R308, R322). -/
def State.elemPath (s : State) (h : Nat) (e : Nat × Nat) : Nat :=
  let path := s.hartPath h (e.2 * 2 ^ 48)
  if e.2 = 0 then path else match s.route path with | .away d => d | _ => path

/-- Start one element of a gather; a load that fails writes its fault record (R322). -/
def State.gatherElem (s : State) (h j i lane : Nat) (e : Nat × Nat) : State :=
  let path := s.hartPath h (e.2 * 2 ^ 48)
  let n := laneBytes lane
  let pkt := { s.hartPacket h 1 2 e.1 n [] with lane := lane, unit := engineUnit (s.gatherDie h) }
  if s.hartRoute h (e.2 * 2 ^ 48) = .here then
    match s.loadLocal (.hart h) lane e.1 n with
    | (s, some (l, c)) =>
      let s := s.gatherDone h j i l (if c = 0 then 0 else 1) c
      if c = 0 then s else s.failNow pkt .none 1 c
    | (s, none) => s
  else s.request pkt path (.gather h j i)

/-- Snoop ranges of this package's memory that the host may hold (17 R546); the doorbell then waits. -/
def State.snoopAll (s : State) (h : Nat) (l : List (Nat × Nat)) : State × Bool :=
  l.foldl (fun (a : State × Bool) e =>
    let (s, w) := a.1.snoopFor (.hart h) e.1 e.2
    (s, a.2 || w)) (s, false)

/-- The memory of this package that a gather reads or writes beside its descriptor: list, slots, record, elements. -/
def State.gatherRanges (s : State) (h : Nat) (w : List Nat) (l : List (Nat × Nat)) : List (Nat × Nat) :=
  let size := laneBytes (bits (nth w 0 0) 56 55)
  [(nth w 1 0, size * bits (nth w 0 0) 54 48), (nth w 2 0, 64)] ++
  (l.filter fun e => s.hartRoute h (e.2 * 2 ^ 48) == .here).map fun e => (e.1, size)

/-- Start a gather (R332): x[rd] receives 0, or why it was not started. -/
def State.gatherStart (s : State) (h rd desc : Nat) : State :=
  if s.hartGone h then s
  else match (List.range 16).find? fun j => (s.gather h j).isNone with
    | none => s.setX h rd 2
    | some j =>
      if desc % 64 ≠ 0 then s.setX h rd 1
      else match s.snoopAll h [(desc, 64)] with
      | (s, true) => s.answer stWait []
      | (s, false) =>
        match s.gatherDesc h desc with
        | (s, none) => s.setX h rd 1
        | (s, some w) =>
          let count := bits (nth w 0 0) 54 48
          let lane := bits (nth w 0 0) 56 55
          match s.snoopAll h [(bits (nth w 0 0) 47 0, 8 * count)] with
          | (s, true) => s.answer stWait []
          | (s, false) =>
            match s.gatherList h (bits (nth w 0 0) 47 0) count with
            | (s, none) => s.setX h rd 1
            | (s, some l) =>
              match s.snoopAll h (s.gatherRanges h w l) with
              | (s, true) => s.answer stWait []
              | (s, false) =>
                let s := s.setGather h j {
                  count := count, lane := lane, dest := nth w 1 0, cmpl := nth w 2 0, elems := l
                  paths := l.map (s.elemPath h) }
                ((List.range count).foldl (fun s i => s.gatherElem h j i lane (nth l i (0, 0))) s).setX h rd 0

/-- An atomic to the control view (R327): AMOSWAP.D is an ownership command at offset 0x00 and a gather doorbell at
offset 0x40 with path index 0; any other takes an access-fault exception. -/
def State.ctlAmo (s : State) (h a size rd op word : Nat) : State :=
  let off := a % 2 ^ 21
  if op ≠ 0x11 ∨ size ≠ 8 then s.trap h 7 a
  else if off = 0 then s.ownIssue h a rd word
  else if off = 0x40 ∧ bits a 54 48 = 0 then s.gatherStart h rd (word % 2 ^ 48)
  else s.trap h 7 a

/-- The completion record of Table 09-11. -/
def gatherRecord (g : Gather) : List Byte :=
  let n := g.failed.length
  let first := (g.failed.head?).map fun e => (e.1, e.2.2)
  let status := if n = 0 then 1 else if n = g.count then 3 else 2
  bytesOfWords [ 1 + (status <<< 1) + (((first.map (·.1)).getD 0x7F) <<< 3) + (n <<< 10) + (((first.map (·.2)).getD 0) <<< 17),
    g.failed.foldl (fun m e => m + 2 ^ e.1) 0, 0, 0, 0, 0, 0, 0 ]

/-! ### Requests from other packages (R311 to R319) -/

/-- A packet from a path has arrived (R321). -/
def State.heard (s : State) (k : Packet) : State := s.clearDead k.src

/-- A request is well formed (R312). -/
def wellMade (k : Packet) : Bool :=
  let one := (k.len == 1 || k.len == 2 || k.len == 4 || k.len == 8) && k.addr % k.len == 0
  let lines := k.len % 64 == 0 && decide (64 ≤ k.len) && decide (k.len ≤ 512) && k.addr % 64 == 0
  if k.op = 0x01 then one || lines
  else if k.op = 0x02 then (one || lines) && k.data.length == k.len
  else if k.op = 0x28 then (k.data.length == 16 && k.len == 8) || (k.data.isEmpty && one)
  else (k.len == 4 || k.len == 8) && k.addr % k.len == 0 && k.data.length == (if k.op = 0x12 then 2 * k.len else k.len)

/-- The partition that holds the region of an address. -/
def State.regionPart (s : State) (pa : Nat) : Option Nat :=
  match s.place pa with
  | .stack d o => ((s.region? d (o / 2 ^ 21)).filter fun v => bits v 38 37 == 0).map fun v => bits v 31 30
  | _ => none

/-- Send the response to a request: source and destination exchanged (R311), charged to the partition that holds the region (11
R377). -/
def State.respond (s : State) (k : Packet) (status cause : Nat) (l : List Byte) : State :=
  s.sendPacket (s.regionPart k.addr) { k with
    dst := k.src, src := s.ownPath, op := k.op + 0x80, retry := false, resync := false, data := l,
    status := status, cause := cause, len := 0 }

/-- A package stands outside the draft set of partition p (12 R414). -/
def State.outsideSet (s : State) (p path : Nat) : Bool :=
  match (s.part p).draft with
  | some d => !(decide (1 < d.packages) && (s.group p 63).present.any fun m => m.2.2 == path)
  | none => true

/-- The partition whose running draft sees a store or atomic from outside its set. -/
def State.fabricIn (s : State) (k : Packet) : Option Nat :=
  (s.regionPart k.addr).filter fun p => (s.part p).state == .running && s.outsideSet p k.src

/-- Write a FABRIC_IN record (12 Table 12-7). -/
def State.fabricRecord (s : State) (p : Nat) (k : Packet) : State :=
  s.reel p 7 3 ([k.src + (k.op <<< 48), k.addr + (k.len <<< 48)] ++ wordsOf (digest32 k.data))

/-- Perform a store, atomic or ownership command: data, status, cause; none: it waits. -/
def State.perform (s : State) (k : Packet) : State × Option (List Byte × Nat × Nat) :=
  let w := Who.remote k.src k.unit k.part k.world
  let slub := fun c => slubData k .none c
  if !wellMade k then (s, some (slub 7, 2, 7))
  else if k.op = 0x28 then
    let r := s.ownServe w k.src k.part k.addr k.data
    (r.1, some (r.2.1.take k.len, r.2.2.1, r.2.2.2))
  else if k.op = 0x1A ∧ s.odGet 0x4002 0 = 1 then (s, some (slub 0, 4, 0))
  else
    let inp := s.fabricIn k
    if inp.any fun p => (s.part p).replay.on then (s, some (slub 5, 2, 5))
    else
      let r := if k.op = 0x02 then
          match s.storeRequest w k.addr k.data with
          | (s, some (st, c)) => (s, some ([], st, c))
          | (s, none) => (s, none)
        else s.amoLocal w k.op k.addr k.len k.data
      match r, inp with
      | (s, some (l, 0, c)), some p => ((s.breakRes 256 k.addr k.len).fabricRecord p k, some (l, 0, c))
      | (s, some (l, 0, c)), none => (s.breakRes 256 k.addr k.len, some (l, 0, c))
      | r, _ => r

/-! #### The ordering die (R317, R319) -/

/-- Key of a source at its ordering die. -/
def ordKey (path unit : Nat) : Nat := path * 65536 + unit

def State.ordSrc (s : State) (key : Nat) : OrdSrc := fmGet s.fab.ordering key {}
def State.setOrd (s : State) (key : Nat) (x : OrdSrc) : State :=
  { s with fab := { s.fab with ordering := fmSet s.fab.ordering key x } }

/-- The fabric die FXh that orders a source: its unit and the last digit of its path, modulo 8. -/
def orderDie (path unit : Nat) : Nat := (unit + digit path (depthOf path - 1)) % 8

/-- The die that orders a source now: FXh, or, when that is lost, its mirror; none when both are. -/
def State.orderHome (s : State) (path unit : Nat) : Option Nat :=
  let h := orderDie path unit
  if !s.cfg.lost.contains (22 + h) then some h
  else if !s.cfg.lost.contains (22 + (h + 1) % 8) then some ((h + 1) % 8) else none

/-- The state of the sources whose ordering die and mirror are both lost is lost with them. -/
def State.ordersLost (s : State) : State :=
  { s with fab := { s.fab with
      ordering := s.fab.ordering.filter fun e => (s.orderHome (e.1 / 65536) (e.1 % 65536)).isSome } }

/-- What the ordering die decides. -/
inductive Accept | apply | hold | duplicate | stale
  deriving DecidableEq, Repr

/-- `order_accept` (R317). -/
def orderAccept (x : OrdSrc) (gen ord : Nat) (resync : Bool) : OrdSrc × Accept :=
  if x.valid && serialLt 16 gen x.gen then (x, .stale)
  else
    let x := if !x.valid || gen != x.gen then { valid := true, gen := gen, next := ord }
      else if resync && serialLt 16 x.next ord then
        { x with held := x.held.filter (fun k => !serialLt 16 k.ord ord), next := ord }
      else x
    (x, if ord = x.next then .apply else if serialLt 16 ord x.next then .duplicate else .hold)

/-- The ledger can take no further atomic: 4,096 entries younger than 2 ms (R319). -/
def OrdSrc.ledgerFull (x : OrdSrc) (now : Nat) : Bool :=
  decide (4096 ≤ (x.ledger.filter fun e => decide (now < e.time + 2 * unitsPerMs)).length)

/-- Record an atomic: the newest 4,096 entries are kept, and none 2^31 tags behind (R319, 12 R420). -/
def OrdSrc.record (x : OrdSrc) (tag : Nat) (old : List Byte) (now : Nat) : OrdSrc :=
  let l := (x.ledger.filter fun e => decide ((tag + 2 ^ 32 - e.tag) % 2 ^ 32 < 2 ^ 31)) ++ [⟨tag, old, now⟩]
  { x with ledger := l.drop (l.length - 4096) }

/-- Apply one request that is next in order: whether it was performed. -/
def State.applyOne (s : State) (key : Nat) (k : Packet) : State × Bool :=
  let amo := decide (0x10 ≤ k.op)
  if amo && (s.ordSrc key).ledgerFull s.now then (s, false)
  else match s.perform k with
    | (s, none) => (s, false)
    | (s, some (l, st, c)) =>
      let x := s.ordSrc key
      let x := { x with next := (k.ord + 1) % 65536, held := x.held.filter fun h => h.ord != k.ord }
      let x := if amo && (st == 0 || k.op == 0x28) then x.record k.tag l s.now else x
      ((s.setOrd key x).respond k st c l, true)

/-- Apply held requests while the next one in order is there. -/
def State.drainHeld (s : State) (key : Nat) : Nat → State
  | 0 => s
  | n + 1 =>
    let x := s.ordSrc key
    match x.held.find? fun h => h.ord == x.next with
    | none => s
    | some k => match s.applyOne key k with
      | (s, true) => s.drainHeld key n
      | (s, false) => s

/-- Keep a request at the ordering die: at most 64 of a source, each once. -/
def State.holdReq (s : State) (key : Nat) (k : Packet) : State :=
  let x := s.ordSrc key
  if 64 ≤ x.held.length ∨ x.held.any (fun h => h.ord == k.ord) then s
  else s.setOrd key { x with held := x.held ++ [k] }

/-- A store, atomic or ownership command that its ordering die has taken (R317). -/
def State.orderedHere (s : State) (k : Packet) : State :=
  let key := ordKey k.src k.unit
  let (x, a) := orderAccept (s.ordSrc key) k.gen k.ord k.resync
  let s := s.setOrd key x
  match a with
  | .stale => s.respond k 5 0 (slubData k .none 0)
  | .duplicate =>
    if k.op < 0x10 then s.respond k 0 0 []
    else match x.ledger.find? fun e => e.tag == k.tag with
      | some e => s.respond k 0 0 e.old
      | none => s.respond k 5 0 (slubData k .none 0)
  | .hold => s.holdReq key k
  | .apply =>
    match s.applyOne key k with
    | (s, true) => s.drainHeld key 64
    | (s, false) => if decide (0x10 ≤ k.op) && (s.ordSrc key).ledgerFull s.now then s.holdReq key k else s.answer stWait []

/-- A store, atomic or ownership command arrives; with its ordering die and the mirror lost nothing orders it, and it is lost. -/
def State.ordered (s : State) (k : Packet) : State :=
  let s := s.heard k
  if (s.orderHome k.src k.unit).isNone then s else s.orderedHere k

/-! ### Responses, reissues, time-outs (R313, R320, R321, R323) -/

/-- The slot of a gather's element that completes lies in a line the host may hold (17 R546): the completion waits. -/
def State.slotWaits (s : State) (dl : Deliver) : State × Bool :=
  match dl with
  | .gather h j i =>
    match s.gather h j with
    | some g => s.snoopFor (.hart h) (g.dest + i * laneBytes g.lane) (laneBytes g.lane)
    | none => (s, false)
  | _ => (s, false)

/-- Fences that wait on a request that ended at a dead destination complete with an error (R324). -/
def Source.spoilFences (x : Source) (dst : Nat) : Source :=
  { x with fences := x.fences.map fun f =>
      if fmGet x.answered dst 0 < fmGet f.marks dst 0 then { f with err := f.err.or (some dst) } else f }

end Sys2Proof.Machine
end

