-- ==== Sys2Proof/Machine/Commit.lean ====
section
/-! DEFINITION. Machine/Commit.lean: step commit (02 R75, R77; 04 R147; 13 R427, R436, R450, R453; 12 R420), the
lost commit vote (10 R358), output release (02 R67, R88, R89; 17 R548; 18 R574), the re-run (13 R424, R438,
R444) and the signature comparison (03 R126). -/

namespace Sys2Proof.Machine

/-! ### Doff shards (13 R449, R453, R454) -/

/-- A doff write fails (R454). -/
def State.doffFail (s : State) (p : Nat) : State :=
  ((s.setPart p { s.part p with doff := none, doffStep := false }).odSet (0x8050 + p) 4 0).event 0x0D13 (ofPart p) []

/-- The 128-byte shard header of Table 13-8. -/
def shardHeader (kind fmt orig layout tensor pkg slot rowOff colOff rows cols gen epoch : Nat) (data : List Byte) :
    List Byte :=
  bytesOfWords [ 0x53485244 + (1 <<< 32) + (kind <<< 48) + (fmt <<< 50) + (orig <<< 56) + (layout <<< 62),
    tensor + (pkg <<< 16) + (slot <<< 32), rowOff + (colOff <<< 32), rows + (cols <<< 32), gen, epoch,
    data.length / 64, 0 ] ++ shake256 32 data ++ List.replicate 32 0

/-- Write one shard in both areas, with its directory entry; a half that would overflow fails the doff. -/
def State.writeShard (s : State) (p kind fmt orig layout tensor slot rowOff colOff rows cols : Nat)
    (data : List Byte) : State :=
  match (s.part p).doff with
  | none => s
  | some r =>
    let half := r.generation % 2
    let bytes := shardHeader kind fmt orig layout tensor (s.pkgIndex p) slot rowOff colOff rows cols
      r.generation r.epoch data ++ data
    if s.odGet (0x8050 + p) 7 / 2 < r.next + bytes.length ∨ 32758 ≤ r.dir.length then s.doffFail p
    else
      let s := s.doffStoreBoth p half r.next bytes
      s.setPart p { s.part p with doff := some { r with
        next := (r.next + bytes.length + 63) / 64 * 64,
        dir := r.dir ++ [[r.next, tensor + (kind <<< 16), rowOff + (colOff <<< 32), 0]] } }

/-- The slot-state shard of a slot: scalar registers, histogram space, batt, persistent SRAM ranges (R449). -/
def State.slotState (s : State) (p n : Nat) : List Byte :=
  match s.dieOfSlot n with
  | none => []
  | some d =>
    sregBytes (s.flyer n).sregCommit ++ Mem.readN s.mem (sramKey d histOff) 0x200000 ++
    Mem.readN s.mem (sramKey d battOff) (histOff - battOff) ++
    ((s.part p).persist.filter fun r => decide (sramKey d 0 ≤ r.1) && decide (r.1 < sramKey d sramEnd)).flatMap
      fun r => Mem.readN s.mem r.1 r.2

/-- After the commit of a doff step: the slot-state shards (R453 step 3). -/
def State.writeSlotStates (s : State) (p : Nat) : State :=
  let s := (s.draftSlots p).foldl (fun s n =>
    s.writeShard p 3 0 0 0 0xFFFF n (s.pkgIndex p) n 0 0 (s.slotState p n)) s
  match (s.part p).doff with
  | some r => s.setPart p { s.part p with doff := some { r with slotState := true } }
  | none => s

/-- Whether the next step is a doff step (R450); a requested one resets *doff_request*. -/
def State.decideDoff (s : State) (p next : Nat) : State :=
  let iv := s.odGet (0x8050 + p) 1
  let asked := decide (s.odGet (0x8050 + p) 2 ≤ next)
  let s := if asked then s.odSet (0x8050 + p) 2 ones64 else s
  s.setPart p { s.part p with doffNext := asked || (iv != 0 && next % iv == 0) }

/-! ### Step commit (13 R427) -/

/-- Time at which the commit cycle of the running step falls: the last cycle of its last scheduled span. -/
def State.commitTime (s : State) (p : Nat) (d : Draft) : Nat := (s.part p).tickBegan + (d.span - 1) * s.cycleUnits

/-- The partition stands at or past the commit cycle of its step. -/
def State.atCommit (s : State) (p : Nat) (d : Draft) : Bool :=
  let x := s.part p
  x.issuing && !x.stepOver && x.stepTick + 1 == d.stepTicks && decide (s.commitTime p d ≤ s.now)

/-- Seal the step's deltas with the scalar registers, after the deltas sealed before have been applied
to every image (13 R427, R436). -/
def State.sealDeltas (s : State) (p : Nat) : State :=
  (s.partSlots p).foldl (fun s n =>
    if s.odGet 0x8005 (n + 1) ≠ 2 then s
    else
      let s := s.applyDelta p n
      let b := fmGet (s.part p).buddy n {}
      s.setPart p { s.part p with buddy := fmSet (s.part p).buddy n { b with
        sealedDelta := b.delta, delta := [], sealedSregs := (s.flyer n).sregCommit } }) s

/-- Held outputs of the step are now of a committed step; those whose buffer was withdrawn are no outputs any more. -/
def Part.commitHeld (x : Part) (tick : Nat) : List HeldOut :=
  (x.held.map fun h => { h with committed := h.committed.or (some tick) }).filter fun h =>
    h.gone || match x.wins[h.window]? with
    | some w => w.queue.any fun e => e.buf == h.buf && e.tick == h.tick && !e.granted
    | none => false

/-- The committed steps whose pulses may still be due, with the one that commits now: a step's pulses are due by tick
max(last + D, c + 1) (02 R88). -/
def Part.commitSteps (x : Part) (stepTicks tick d : Nat) : List StepRec :=
  x.commits.filter (fun r => decide (tick ≤ max (r.last + d) (r.committed + 1))) ++
    [⟨x.epoch.toNat, x.sched, x.schedTick (stepTicks - 1), tick, false⟩]

/-- The commit takes effect (R427): registers, deltas, held outputs, windows, epoch, record. -/
def State.commitStep (s : State) (p : Nat) (d : Draft) : State :=
  let s := d.slots.foldl (fun s n =>
    let f := (s.flyer n).land (2 ^ 64)
    s.setFlyer n { f with sregCommit := f.sreg }) s
  let s := (s.commitStats p).sealDeltas p
  let x := s.part p
  let s := s.reel p 0x0B 2 [x.reused.toNat, x.slip]
  let tick := s.cad.tick.toNat
  let wasDoff := x.doffStep
  let s := s.setPart p { x with
    epoch := x.epoch + 1, stepsDone := x.stepsDone + 1, stepOver := true, commitAt := s.now,
    sched := x.schedTick d.stepTicks, slipCommit := x.slip, winsCommit := x.wins, resHighCommit := x.resHigh,
    reused := 0, lateRolls := 0, faultRolls := [], taintRolls := 0, undo := [], undoOver := false,
    badLines := [], held := x.commitHeld tick, commits := x.commitSteps d.stepTicks tick (s.odGet 0x2004 0),
    heldTiles := x.heldTiles.map (fun h => { h with committed := h.committed.or (some tick) }),
    voteSent := false, voteResult := .none, sigOk := [], spares := [], doffStep := false }
  let s := s.dropDraftColls p
  let s := if wasDoff then s.writeSlotStates p else s
  s.decideDoff p (x.epoch.toNat + 1)

/-- After a commit the draft runs on, or comes to rest in LOADED (R74, 12 R420). -/
def State.afterCommit (s : State) (p : Nat) (d : Draft) : State :=
  let x := s.part p
  if x.epoch = 0 then (s.toLoaded p).event 0x0C0A (ofPart p) []
  else if x.stopPending ∨ (d.stepCount ≠ 0 ∧ d.stepCount ≤ x.stepsDone) then s.toLoaded p
  else s.syncDraft p

/-- Every tile check of the step has passed: no whorl of its slots holds a tile step. -/
def State.checksPassed (s : State) (d : Draft) : Bool :=
  s.whorls.all fun e => !bit d.slotMask (e.1 / 32) || (e.2.steps.isEmpty && e.2.queue.isEmpty)

/-! ### Output release (02 R67, R88, R89) -/

/-- Release tick of an output scheduled in tick t whose step committed in tick c (R88). -/
def State.releaseTick (s : State) (t c : Nat) : Nat := max (t + s.odGet 0x2004 0) (c + 1)

/-- RELEASE_LATE for an output scheduled in tick t whose step committed in tick c: tick t + D had begun by then (R88, R89). -/
def State.lateRelease (s : State) (p t c : Nat) : State :=
  if t + s.odGet 0x2004 0 ≤ c then s.event 0x020D (ofPart p) [] else s

/-- The entry of a held output in a host queue is granted. -/
def WinSt.grant (w : WinSt) (h : HeldOut) : WinSt :=
  { w with queue := w.queue.map fun e => if e.buf = h.buf ∧ e.tick = h.tick then { e with granted := true } else e }

/-- Grant a held buffer to the host (R81, 17 R548), for good: a rollback does not take the grant back. -/
def State.grantHost (s : State) (p : Nat) (h : HeldOut) : State :=
  let s := if h.gone then s else
    let s := s.setWin p h.window ((s.win p h.window).grant h)
    s.setPart p { s.part p with winsCommit := (s.part p).winsCommit.modify h.window fun w => w.grant h }
  let pend := fmGet s.host.winPend p 0 ||| (1 <<< h.window)
  let s := { s with host := { s.host with
    winPend := fmSet s.host.winPend p pend, winPendAt := fmSet s.host.winPendAt (64 * p + h.window) s.now } }
  if (fmGet s.host.winMsix p 0).toNat.testBit h.window then s.send (.msix (1 + p)) else s

/-- A held output is due at the present tick. -/
def State.outputDue (s : State) (tick : Nat) (committed : Option Nat) : Bool :=
  match committed with
  | some c => decide (s.releaseTick tick c ≤ s.cad.tick.toNat)
  | none => false

/-- Release every host buffer of a partition that is due. -/
def State.releaseBuffers (s : State) (p : Nat) : State :=
  let due := (s.part p).held.filter fun h => s.outputDue h.tick h.committed
  let s := s.setPart p { s.part p with held := (s.part p).held.filter fun h => !s.outputDue h.tick h.committed }
  due.foldl (fun s h => (s.grantHost p h).lateRelease p h.tick (h.committed.getD 0)) s

/-- Release every tile held for a consumer outside the draft set (R88). -/
def State.releaseTiles (s : State) (p : Nat) : State :=
  let x := s.part p
  let due := x.heldTiles.filter fun h => s.outputDue h.tick h.committed
  let s := s.setPart p { x with heldTiles := x.heldTiles.filter fun h => !s.outputDue h.tick h.committed }
  due.foldl (fun s h =>
    (s.sendTile p h.path h.slot h.remote h.index h.bytes).lateRelease p h.tick (h.committed.getD 0)) s

/-- Both FX0 and FX1 lost: the treadle output is at high impedance (13 R446). -/
def State.drivePulse (s : State) : State :=
  if s.cad.dead then s
  else { s with pins := { s.pins with treadleOut := true, treadleEnd := s.now + unitsPerUs } }

/-- The committed step that scheduled a pulse: of its epoch, with its tick among the step's. -/
def Part.pulseStep (x : Part) (u : Pulse) : Option StepRec :=
  x.commits.find? fun r => r.epoch == u.epoch && decide (r.first ≤ u.tick) && decide (u.tick ≤ r.last)

/-- A treadle pulse of partition p is due (R67, R88): its step has committed, and no abort has discarded it since; it
leaves at its own cycle of tick t + D, or, when its step did not commit in a tick before that, at the boundary after the
commit. The commit tick of its step, when it is due. -/
def State.pulseDue (s : State) (p : Nat) (u : Pulse) : Option Nat :=
  let d := u.tick + s.odGet 0x2004 0
  let now := s.cad.tick.toNat
  match (s.part p).pulseStep u with
  | none => none
  | some r =>
    let due := if r.committed < d then decide (d < now) || (d == now && decide (u.cycle ≤ s.cycleInTick))
      else decide (r.committed + 1 ≤ now)
    if due && (r.gone || (s.part p).dropTick.all fun a => decide (a < u.tick)) then some r.committed else none

/-! ### Command-stream signature (03 R124 to R126) -/

/-- The comparison failed, or nothing arrived: a detected control fault that names the slot, the die,
the draft tick and the step epoch. -/
def State.signatureFault (s : State) (p n tick : Nat) : State :=
  let s := s.event 0x0308 (s.ofSlot n) [.half tick, .word (s.part p).epoch.toNat]
  s.detectedFault p (s.dieOfSlot n)

end Sys2Proof.Machine
end

