-- ==== Sys2Proof/Machine/Flyer.lean ====
section
/-! DEFINITION. Machine/Flyer.lean: the flyer core's issue rules and faults (03 R111 to R117), its scalar registers
(03 R118 to R123), the stations' queues and transfers (03 R108, R113, R116; 08 R283), the bobbin and stack commands
(08 R282; 02 R82), the reel station (12 R417) and `d_shard` (13 R451, R452). -/

namespace Sys2Proof

/-! ### Fields of a station command (03 Table 03-7) -/

/-- Bits hi to lo of a command word. -/
def Cmd.f (c : Cmd) (hi lo : Nat) : Nat := Machine.bits c.word.toNat hi lo
def Cmd.opcode (c : Cmd) : Nat := c.f 127 120
/-- The station word, its reserved bits ignored (03 R93; 00 R11). -/
def Cmd.station (c : Cmd) : Nat := Machine.stationOf (c.f 119 104)
def Cmd.roving (c : Cmd) : Nat := c.f 103 92
def Cmd.format (c : Cmd) : Nat := c.f 91 86
def Cmd.sa (c : Cmd) : Nat := c.f 85 80
def Cmd.sb (c : Cmd) : Nat := c.f 79 74
def Cmd.mod (c : Cmd) : Nat := c.f 73 64
def Cmd.offset (c : Cmd) : Nat := c.f 63 40
def Cmd.operand (c : Cmd) : Nat := c.f 39 0

end Sys2Proof

namespace Sys2Proof.Machine

/-- Fields of a command under way. -/
def StCmd.f (c : StCmd) (hi lo : Nat) : Nat := bits c.word hi lo
def StCmd.op (c : StCmd) : Nat := c.f 127 120
def StCmd.roving (c : StCmd) : Nat := c.f 103 92
def StCmd.format (c : StCmd) : Nat := c.f 91 86
def StCmd.operand (c : StCmd) : Nat := c.f 39 0

/-- A station word names a station of an opcode's range: its class, and an index within the class (R92, R93, R113).
DESIGN CHOICE (log 63): an index beyond the class's range, or one other than 0 for a class without an index, names no
station either, so that the command is invalid as one of a wrong class is. -/
def stationFits (op st : Nat) : Bool :=
  let cls := st / 4096
  let idx := st % 4096
  if op < 0x10 then st == 0
  else if op < 0x20 then st == 0
  else if op < 0x40 then cls == 1 && decide (idx < 32)
  else if op < 0x80 then cls == 2 && decide (idx < 8)
  else if op < 0x90 then (cls == 3 && decide (idx < 33)) || st == 0x8000
  else if op < 0xA0 then st == 0x4000
  else if op < 0xA8 then st == 0x5000
  else if op < 0xB0 then st == 0x6000
  else if op < 0xC0 then cls == 7 && decide (idx < 64)
  else false

/-- Transit latency in cycles (Table 03-8). -/
def transit (op st : Nat) : Nat :=
  if op < 0x20 then 0 else if op < 0x80 then 4 else if op < 0x90 then (if st = 0x8000 then 12 else 4) else 12

/-- A command that issues: its partition, its slot, its place in its tick's stream, its draft cycle. -/
structure Issued where
  p : Nat
  n : Nat
  pos : Nat
  dc : Nat
  deriving DecidableEq, Repr

/-- A detected control fault that a command finds (R117): slot, die, draft tick, position, step epoch. -/
def State.placeFault (s : State) (code p n tick pos : Nat) : State :=
  let s := s.event code (s.ofSlot n) (s.cmdPlace p tick pos)
  s.detectedFault p (s.dieOfSlot n)

/-- A fault found by the command that issues. -/
def State.cmdFault (s : State) (i : Issued) (code : Nat) : State :=
  s.placeFault code i.p i.n (s.part i.p).stepTick i.pos

/-- A fault found by a command at its station. -/
def State.atFault (s : State) (c : StCmd) (code : Nat) : State := s.placeFault code c.p c.n c.tick c.pos

/-- COMMAND_INVALID of a command that issues, and of one at its station. -/
def State.invalid (s : State) (i : Issued) : State := s.cmdFault i 0x0304
def State.atInvalid (s : State) (c : StCmd) : State := s.atFault c 0x0304

/-! ### Rovings that a command names (R112, R117) -/

/-- A roving of the partition's draft. -/
def State.roving (s : State) (p r : Nat) : Option Roving := (s.part p).draft.bind fun d => d.rovs[r]?

/-- A roving ends, or begins, at a station of a slot. -/
def Roving.endsAt (r : Roving) (n st : Nat) : Bool := r.dstSlot == n && r.dstStation == st
def Roving.beginsAt (r : Roving) (n st : Nat) : Bool := r.srcSlot == n && r.srcStation == st

/-- The rovings a command uses, by the fields of its class. -/
def usedRovings (c : Cmd) : List Nat :=
  let op := c.opcode
  if op = 0x21 then (if c.f 65 65 = 0 then [c.roving] else []) ++ (if c.f 66 66 = 0 then [c.f 11 0] else [])
  else if op = 0x23 ∨ op = 0x24 ∨ op = 0xA0 ∨ op = 0xA9 then [c.roving]
  else if op = 0x90 then [c.roving, c.f 38 27]
  else if op = 0x7C then (if c.f 34 23 = 0 then [] else [c.f 34 23])
  else if 0x40 ≤ op ∧ op < 0x7C then
    (if c.f 2 0 = 1 ∨ op = 0x6E then [c.roving] else []) ++
    (if (op = 0x72 ∨ op = 0x74 ∨ op = 0x77 ∨ op = 0x79) ∧ c.f 10 8 = 1 then [c.f 34 23] else [])
  else []

/-- A roving touches a station of a slot: it begins or ends there, in a valid format (R96, R112, R117). -/
def State.touches (s : State) (p n st r : Nat) : Bool :=
  match s.roving p r with
  | some v => (v.beginsAt n st || v.endsAt n st) && formatValid v.format
  | none => false

/-! ### Issue (R111, R115, R117, R124) -/

/-- What a command that issues in draft cycle dc leaves in the flyer: it is counted and absorbed. -/
def Flyer.take (f : Flyer) (c : Cmd) (dc : Nat) : Flyer :=
  let same := f.last == dc && f.inCycle != 0
  { f with
    last := dc
    inCycle := if same then f.inCycle + 1 else 1
    scalars := (if same then f.scalars else 0) + b2n (decide (0x10 ≤ c.opcode ∧ c.opcode < 0x20))
    pos := f.pos + 1
    msg := f.msg ++ bytesOf 16 c.word.toNat ++ bytesOf 4 dc }

/-- The command breaks the issue rules (R115): below the cycle of the one before, the third of its cycle, or its
second scalar command. -/
def Flyer.orderBad (f : Flyer) (c : Cmd) (dc : Nat) : Bool :=
  let same := f.last == dc && f.inCycle != 0
  decide (f.base.toNat + c.offset < f.last) ||
  (same && (decide (2 ≤ f.inCycle) || (decide (0x10 ≤ c.opcode ∧ c.opcode < 0x20) && decide (1 ≤ f.scalars))))

/-- The command names a wrong opcode, a reserved class or format, or a roving that does not touch its station. -/
def State.cmdBad (s : State) (p : Nat) (c : Cmd) (op : Nat) : Bool :=
  c.opcode != op || !stationFits op c.station || !(c.format == 0 || formatValid c.format) ||
  !(usedRovings c).all fun r => s.touches p c.slot.val c.station r

/-- Whether the flyer of a slot may issue: its partition's draft runs on that slot, and issue is not stopped. -/
def State.mayIssue (s : State) (p n : Nat) : Bool :=
  (s.part p).issuing && (s.draftSlots p).contains n && !(s.part p).stepOver

/-- Time of a draft cycle of the running draft tick. -/
def State.cycleTime (s : State) (p dc : Nat) : Nat := (s.part p).tickBegan + dc * s.cycleUnits

/-- A command issues in a draft cycle (R111, R115, R117, R124): absorbed into the signature, checked for order, opcode,
station and rovings. None: it has raised a fault. -/
def State.issueAt (s : State) (p : Nat) (c : Cmd) (op : Nat) : State × Option Issued :=
  let n := c.slot.val
  let dc := s.draftCycle p
  let f := (s.flyer n).land dc
  let i : Issued := ⟨p, n, f.pos, dc⟩
  let s := s.setFlyer n (f.take c dc)
  if f.orderBad c dc then (s.cmdFault i 0x0303, none)
  else if s.cmdBad p c op then (s.invalid i, none)
  else (s, some i)

/-! ### Scalar registers (R118, R119, R122, R123) -/

/-- A command reads a scalar register in its issue cycle: none after an uncorrectable error. -/
def State.readSreg (s : State) (i : Issued) (r : Nat) : State × Option (BitVec 64) :=
  let f := s.flyer i.n
  let v := fmGet f.sreg r 0
  match fmGet f.sregErr r 0 with
  | 0 => (s, some v)
  | 1 => ((s.setFlyer i.n { f with sregErr := fmDel f.sregErr r }).event 0x0306 (s.ofSlot i.n) [], some v)
  | _ => (s.cmdFault i 0x0307, none)

/-- Read the registers a command names, in order. -/
def State.readSregs (s : State) (i : Issued) : List Nat → State × Option (List Nat)
  | [] => (s, some [])
  | r :: rs =>
    match s.readSreg i r with
    | (s, none) => (s, none)
    | (s, some v) =>
      match s.readSregs i rs with
      | (s, none) => (s, none)
      | (s, some vs) => (s, some (v.toNat :: vs))

/-- A result reaches a scalar register 4 cycles after issue. -/
def State.landSreg (s : State) (i : Issued) (c : Cmd) (v mask : Nat) : State :=
  let f := s.flyer i.n
  s.setFlyer i.n { f with
    landing := f.landing ++ [(i.dc + 4, c.sa, BitVec.ofNat 64 v, BitVec.ofNat 64 mask)] }

/-- `s_int` (Table 03-9); none for a selector that names no operation. -/
def sInt (m : Nat) (a b : Word) : Option Word :=
  match m with
  | 0 => some (a + b)
  | 1 => some (a - b)
  | 2 => some (a &&& b)
  | 3 => some (a ||| b)
  | 4 => some (a ^^^ b)
  | 5 => some (if b.toNat < 64 then a <<< b.toNat else Config.wideShift true a b)
  | 6 => some (if b.toNat < 64 then a >>> b.toNat else Config.wideShift false a b)
  | 7 => some (if a.toNat ≤ b.toNat then a else b)
  | 8 => some (if a.toNat ≤ b.toNat then b else a)
  | _ => none

/-- `s_fp64` (Table 03-9, R120): the default result, no flags; none for a selector that names no operation. DESIGN
CHOICE (log 65): Table 03-9 says only min and max; a NaN propagates and −0 orders below +0, as in the twist engine's minimum
and maximum (06 R215). -/
def sFp64 (m a b : Nat) : Option Nat :=
  match m with
  | 0 => some (fAdd fp64 .rne a b).1
  | 1 => some (fSub fp64 .rne a b).1
  | 2 => some (fMul fp64 .rne a b).1
  | 3 => some (fDiv fp64 .rne a b).1
  | 4 => some (fMin fp64 a b).1
  | 5 => some (fMax fp64 a b).1
  | 6 => some (fSqrt fp64 .rne b).1
  | 7 => some (finish fp32 .rne [] (fp64.decode b)).1
  | _ => none

/-- Base of a slot's SRAM window. -/
def sramBase (n : Nat) : Nat := 0x020000000000 + n * 2 ^ 30

/-! ### The scalar unit's commands (R119) -/

/-- `s_load`: 8 bytes of the shared bobbin into s[a]. -/
def State.sLoad (s : State) (i : Issued) (c : Cmd) : State :=
  let o := c.operand % 2 ^ 27
  if o % 8 ≠ 0 then s.invalid i
  else match s.c0Read i.p i.n 0 (sramBase i.n + sharedOff + o) 8 (s.cmdPlace i.p (s.part i.p).stepTick i.pos) with
    | (s, some l) => s.landSreg i c (natOf l) (2 ^ 64 - 1)
    | (s, none) => s

/-- `s_store`: s[b] into 8 bytes of the shared bobbin. -/
def State.sStore (s : State) (i : Issued) (c : Cmd) : State :=
  let o := c.operand % 2 ^ 27
  if o % 8 ≠ 0 then s.invalid i
  else match s.readSreg i c.sb with
    | (s, some v) => (s.c0Store i.p i.n 0 (sramBase i.n + sharedOff + o) (bytesOf 8 v.toNat)).1
    | (s, none) => s

/-- A two-operand operation of the scalar unit on s[a] and s[b]. -/
def State.sOp (s : State) (i : Issued) (c : Cmd) (g : Nat → Nat → Option Nat) : State :=
  match s.readSregs i [c.sa, c.sb] with
  | (s, some [a, b]) =>
    match g a b with
    | some v => s.landSreg i c v (2 ^ 64 - 1)
    | none => s.invalid i
  | (s, _) => s

/-- `set_base` (R114): the segment base, which lies below the scheduled span. DESIGN CHOICE (log 64): a value at or above the
span makes the command invalid and leaves the base; the rule says only that it must lie below. -/
def State.setBase (s : State) (i : Issued) (c : Cmd) : State :=
  match (s.part i.p).draft with
  | some d =>
    if d.span ≤ c.operand % 2 ^ 32 then s.invalid i
    else s.setFlyer i.n { s.flyer i.n with base := BitVec.ofNat 32 c.operand }
  | none => s

/-! ### Under way to a station (R113, R116) -/

/-- Send a command to its station, with the scalars it has read (R113, R118). -/
def State.dispatch (s : State) (i : Issued) (c : Cmd) (a b : Nat) : State :=
  { s with wire := s.wire ++ [{
      p := i.p, n := i.n, st := c.station, word := c.word.toNat,
      arrival := s.now + transit c.opcode c.station * s.cycleUnits
      tick := (s.part i.p).stepTick, pos := i.pos, a := a, b := b }] }

/-- Send a command that names no scalar register, s[`sreg_a`], or both registers. -/
def State.dispatch0 (s : State) (i : Issued) (c : Cmd) : State := s.dispatch i c 0 0
def State.dispatch1 (s : State) (i : Issued) (c : Cmd) : State :=
  match s.readSreg i c.sa with
  | (s, some a) => s.dispatch i c a.toNat 0
  | (s, none) => s
def State.dispatch2 (s : State) (i : Issued) (c : Cmd) : State :=
  match s.readSregs i [c.sa, c.sb] with
  | (s, some [a, b]) => s.dispatch i c a b
  | (s, _) => s

/-- A command joins the queue of its station, which holds at most four (R116, R117). -/
def State.queueAt (s : State) (c : StCmd) : State :=
  let x := s.station c.n c.st
  if 4 ≤ x.cmds.length then s.atFault c 0x0305
  else s.setStation c.n c.st { x with cmds := x.cmds ++ [c] }

/-- A command occupies its station for a number of cycles from now. -/
def State.occupy (s : State) (c : StCmd) (cycles : Nat) : State :=
  s.setStation c.n c.st { s.station c.n c.st with freeAt := s.now + cycles * s.cycleUnits }

/-- Take the next tile of a roving from its station's queue. -/
def State.takeTile (s : State) (p n st r : Nat) : Option (State × QTile) :=
  let x := s.station n st
  match x.queue.find? fun q => q.roving == r with
  | none => none
  | some q =>
    let s := s.setStation n st { x with queue := x.queue.erase q }
    let y := s.part p
    some (s.setPart p { y with taken := fmSet y.taken r (fmGet y.taken r 0 + 1) }, q)

/-- ROVING_UNDERRUN of a consuming command: the fields of R117, then R108's, of which none fits any more. -/
def State.underrun (s : State) (p n st r tick pos : Nat) : State :=
  let s := s.event 0x0302 (s.ofSlot n)
    (s.cmdPlace p tick pos ++ [.half st, .half r, .half (fmGet (s.part p).taken r 0), .half pos])
  s.detectedFault p (s.dieOfSlot n)

/-- A command consumes the next tile of a roving, or underruns. -/
def State.consume (s : State) (p n st r tick pos : Nat) : State × Option QTile :=
  match s.takeTile p n st r with
  | some (s, q) => (s, some q)
  | none => (s.underrun p n st r tick pos, none)

/-! ### Transfers into the memories (R108; 08 R283) -/

/-- Package-physical base and size of the memory of a B or M station. -/
def stationMem (n st : Nat) : Nat × Nat :=
  if st = 0x8000 then (n * 2 ^ 36, 2 ^ 36)
  else if st % 64 = 32 then (sramBase n + sharedOff, 2 ^ 27)
  else (sramBase n + st % 64 * 2 ^ 24, 2 ^ 24)

/-- The window buffer the spindle side holds: its base and size. -/
def State.spindleBuf (s : State) (p w : Nat) : Option (Nat × Nat) :=
  match (s.part p).draft.bind fun d => d.wins[w]?, (s.part p).wins[w]? with
  | some x, some y => (y.heldBy .spindle).map fun b => (x.bufBase b, x.bytes)
  | _, _ => none

/-- Base and size of the memory of a B, M or C station: none for a window that the spindle side does not hold. -/
def State.endpointMem (s : State) (p n st : Nat) : Option (Nat × Nat) :=
  if st / 4096 = 7 then s.spindleBuf p (st % 64) else some (stationMem n st)

/-- A window of the draft lies in a stack. -/
def State.winInStack (s : State) (p w : Nat) : Bool :=
  match (s.part p).draft.bind fun d => d.wins[w]? with
  | some x => decide (x.base < 22 * 2 ^ 36)
  | none => false

/-- Transfers a memory has at once (Table 03-6, 08 R283), and the station that counts them: M's also for a C station
whose window lies in a stack. A C station of another window has three of its own (02 R82). -/
def State.lanesOf (s : State) (p st : Nat) : Nat × Nat :=
  if st = 0x3020 then (8, st)
  else if st / 4096 = 3 then (1, st)
  else if st / 4096 = 7 ∧ !s.winInStack p (st % 64) then (3, st)
  else (3, 0x8000)

/-- Time at which a transfer is free, counted from a time. -/
def laneFree (lanes : Nat) (xfers : List (Nat × Nat × Nat)) (from_ : Nat) : Nat :=
  let ends := sortBy (fun (e : Nat) => e) ((xfers.filter fun e => decide (from_ < e.2.1)).map fun e => e.2.1)
  if ends.length < lanes then from_ else nth ends (ends.length - lanes) from_

/-- When a transfer of a memory station is free, and taking one for a number of cycles from a time. -/
def State.laneTime (s : State) (p n st from_ : Nat) : Nat :=
  let (lanes, key) := s.lanesOf p st
  laneFree lanes (s.station n key).xfers from_
def State.takeLane (s : State) (p n st r from_ cycles : Nat) : State :=
  let (_, key) := s.lanesOf p st
  let y := s.station n key
  s.setStation n key { y with
    xfers := (y.xfers.filter fun e => decide (s.now < e.2.1)) ++ [(from_, from_ + cycles * s.cycleUnits, r)] }

/-! ### Bobbin, stack and window commands (08 R282, R283; 02 R82) -/

/-- Whether two ranges of equal length do not overlap. -/
def apart (a b len : Nat) : Bool := decide (a + len ≤ b) || decide (b + len ≤ a)

/-- Bytes per cycle of a fill at a station (Table 08-4; C as M): a copy runs at half the rate. -/
def fillRate (st : Nat) : Nat := if st / 4096 = 3 then 1024 else 512

/-- A fill or copy holds a transfer at M and C, and its station at B, for its whole length. -/
def State.holdMem (s : State) (c : StCmd) (cycles : Nat) : State :=
  if c.st / 4096 = 3 then s.occupy c cycles else (s.takeLane c.p c.n c.st 0xFFFF s.now cycles).occupy c cycles

/-- Fill a range of a memory that begins at a package-physical address (`mem_fill`, `c_fill`). -/
def State.fillRange (s : State) (c : StCmd) (base size : Nat) : State :=
  let o := c.a % 2 ^ 48
  let len := c.operand % 2 ^ 32 * 64
  if o % 64 ≠ 0 ∨ size < o + len then s.atInvalid c
  else
    let s := s.holdMem c (ceilDiv len (fillRate c.st))
    if len = 0 then s
    else (s.c0Store c.p c.n c.st (base + o) (List.replicate (len / 8) (bytesOf 8 c.b)).flatten).1

/-- Copy a range within such a memory (`mem_copy`, `c_copy`). -/
def State.copyRange (s : State) (c : StCmd) (base size : Nat) : State :=
  let src := c.a % 2 ^ 48
  let dst := c.b % 2 ^ 48
  let len := c.operand % 2 ^ 32 * 64
  if src % 64 ≠ 0 ∨ dst % 64 ≠ 0 ∨ size < src + len ∨ size < dst + len ∨ !apart src dst len then s.atInvalid c
  else
    let s := s.holdMem c (ceilDiv len (fillRate c.st / 2))
    if len = 0 then s
    else match s.c0Read c.p c.n c.st (base + src) len (s.cmdPlace c.p c.tick c.pos) with
      | (s, some l) => (s.c0Store c.p c.n c.st (base + dst) l).1
      | (s, none) => s

/-- A fill or copy starts at its station: at C in the window buffer that the spindle side then holds. -/
def State.startMem (s : State) (c : StCmd) : State :=
  match s.endpointMem c.p c.n c.st with
  | some m => if c.op % 2 = 0 then s.fillRange c m.1 m.2 else s.copyRange c m.1 m.2
  | none => s.atInvalid c

/-! ### The reel station (12 R417, R419) -/

/-- `l_mark` starts: a MARK record holding s[a]. -/
def State.startMark (s : State) (c : StCmd) : State := (s.occupy c 1).reel c.p 0x0C 2 [c.a]

/-- The recorded DIGEST of a tile in a partition's replay stream, from a record on, in the running epoch. -/
def State.recordedDigest (s : State) (p epoch key : Nat) : Nat → Nat → Option Nat
  | 0, _ => none
  | n + 1, off =>
    match s.replayFind p 0x0D none replayFuel off with
    | none => none
    | some o =>
      if s.replayWord p o 0 = key ∧ s.readPa64 (s.odGet (0x2034 + p) 4 + o + 24) = epoch then some o
      else s.recordedDigest p epoch key n (o + 96)

/-- A DIGEST record, compared in replay: the first difference raises `REPLAY_DIVERGED` (12 R414, R419). -/
def State.digestTile (s : State) (p : Nat) (t : Tile) : State :=
  let key := flagTensor t.flag + (flagIndex t.flag <<< 16)
  let dg := wordsOf (digest32 (t.payload ++ t.band))
  let s := s.reel p 0x0D 3 (key :: dg)
  let x := s.part p
  if !x.replay.on || x.replay.diverged then s
  else match s.recordedDigest p x.epoch.toNat key replayFuel x.replay.cursor with
    | none => s
    | some o =>
      if (List.range 4).map (fun i => s.replayWord p o (i + 1)) = dg then s
      else (s.setPart p { x with replay := { x.replay with diverged := true } }).event 0x0C09 (ofPart p)
        [.word x.epoch.toNat, .half (flagTensor t.flag), .half (flagIndex t.flag)]

/-! ### Doff shards (13 R451, R452) -/

/-- The FP32 values of a pair of tiles laid side by side as one 128 × 128 tile; the right half of a last odd
tile is free (13 R452 states no layout for it). -/
def sideBySide (free : Nat) (a : List Num) (b : Option (List Num)) : List Num :=
  (List.range 128).flatMap fun r =>
    ((a.drop (64 * r)).take 64) ++
    (match b with
     | some l => (l.drop (64 * r)).take 64
     | none => (List.range 64).map fun c => fp32.decode ((Config.freeWord (free + 64 * r + c)).toNat % 2 ^ 32))

/-- Narrow one 128 × 128 tile to BF16 or E5M2 with 32-value hanks and on-write scales; no statistics. -/
def State.narrowTile (s : State) (n fmt : Nat) (x : Tile) (xs : List Num) : Tile :=
  let f := fltOf (fmtType fmt)
  let hs := (List.range (hankCount fmt)).map fun i =>
    formHank f false none (fun _ => .rne) false ((xs.drop (32 * i)).take 32)
  (s.makeTile n (flagTensor x.flag) fmt (flagIndex x.flag) (hs.flatMap (·.codes)) (hs.map fun h => BitVec.ofNat 8 h.scale)
    { format := fmt, index := flagIndex x.flag, crush := (hs.map (·.crush)).sum, zhank := (hs.map (·.zhank)).sum,
      sat := (hs.map (·.sat)).sum }).tile

/-- Narrow a shard's tiles, two FP32 tiles to one. -/
def State.narrowTiles (s : State) (n fmt : Nat) : List Tile → List Tile
  | [] => []
  | [a] => [s.narrowTile n fmt a (sideBySide s.freeCtr a.values none)]
  | a :: b :: l => s.narrowTile n fmt a (sideBySide 0 a.values (some b.values)) :: s.narrowTiles n fmt l

/-- Format a shard is stored in (R451, R452). -/
def shardFormat (desc : List Nat) (fmt : Nat) : Nat :=
  match bits (nth desc 0 0) 19 18 with
  | 1 => 0x13 | 2 => 0x12 | _ => fmt

/-- A shard's tiles have all been consumed: in a doff step it is written (R451). -/
def State.finishShard (s : State) (p n : Nat) (r : Take) : State :=
  if !(s.part p).doffStep then s
  else match s.roving p r.roving with
    | none => s
    | some v =>
      let g := fun i => nth r.desc i 0
      let fmt := shardFormat r.desc v.format
      let tiles := if fmt = v.format then r.tiles else s.narrowTiles n fmt r.tiles
      let s := if fmt ≠ v.format ∧ r.tiles.length % 2 = 1 then { s with freeCtr := s.freeCtr + 8192 } else s
      s.writeShard p (bits (g 0) 17 16) fmt v.format (b2n (bit (g 0) 20)) (bits (g 0) 15 0) n
        (bits (g 1) 31 0) (bits (g 1) 63 32) (bits (g 2) 31 0) (bits (g 2) 63 32) (tiles.flatMap Tile.record)

/-! ### Commands that consume tiles (03 R108; 05 R190; 12 R417; 13 R451) -/

/-- A `w_acc_in` has its eight tiles: the bank is loaded when every word is well formed; else the command is
invalid (05 R190). The load itself stands in `loadBank`. -/
def wordsBad (long : Bool) (ws : List Nat) : Bool :=
  if long then (List.range (ws.length / 4)).any fun i => bits (nth ws (4 * i + 3) 0) 63 37 != 0
  else ws.any fun w => decide (2 ^ 53 ≤ w)

/-- Whorl key. -/
def whKey (n w : Nat) : Nat := n * 32 + w
def State.whorl (s : State) (n w : Nat) : Whorl := fmGet s.whorls (whKey n w) {}
def State.setWhorl (s : State) (n w : Nat) (x : Whorl) : State := { s with whorls := fmSet s.whorls (whKey n w) x }
/-- A bank of a whorl. -/
def Whorl.bank (x : Whorl) (b : Nat) : Bank := if b = 0 then x.bank0 else x.bank1
def Whorl.setBank (x : Whorl) (b : Nat) (y : Bank) : Whorl := if b = 0 then { x with bank0 := y } else { x with bank1 := y }
/-- A long bank: FP64 paths. -/
def Bank.long (b : Bank) : Bool := decide (2 ≤ b.path)

/-- Element of a W53 bank from an imported word (05 R190). -/
def importW (w : Nat) : WElem :=
  match w53.decode w with
  | .nan => { tot := w, tv := true, special := 1 }
  | .inf neg => { tot := w, tv := true, special := if neg then 3 else 2 }
  | .fin .. => { tot := w, tv := true }

/-- Element of a long bank from an imported record (05 R190, Table 05-9). -/
def importL (v : Nat) : LElem :=
  { l := toSigned 192 v, anchor := toSigned 32 (bits v 223 192), sticky := bit v 224, empty := bit v 225
    special := bits v 227 226, negZero := bit v 228, fresh := false }

/-- Load a bank from its eight tiles. -/
def Bank.load (b : Bank) (ws : List Nat) : Bank :=
  if b.long then
    { b with l := (chunksOf 4 4096 ws).map fun q =>
        importL (nth q 0 0 + (nth q 1 0 <<< 64) + (nth q 2 0 <<< 128) + (nth q 3 0 <<< 192)) }
  else { b with w := ws.map importW }

/-- Finish an import: its words go into the bank. -/
def State.finishImport (s : State) (p n st : Nat) (r : Take) : State :=
  let x := s.whorl n (st % 64)
  let b := nth r.desc 0 0
  let ws := wordsOf (r.tiles.flatMap (·.payload))
  if wordsBad (x.bank b).long ws then s.placeFault 0x0304 p n r.tick r.pos
  else s.setWhorl n (st % 64) (x.setBank b { ((x.bank b).load ws) with kLast := none, err := [] })

/-- Bytes that tiles contribute to a draft collective: records for operator `none`, else payloads (10 R343). -/
def contribution (red : Nat) (l : List Tile) : List Byte := if red = 0 then l.flatMap Tile.record else l.flatMap (·.payload)

/-- Exports of a `chunk_fold` contribution: one of eight tiles each, with chunk index and tensor (10 R344). -/
def exportsOf (l : List Tile) : List (Nat × Nat) :=
  ((List.range (l.length / 8)).filterMap fun i => (l[8 * i]?).map fun t => (flagIndex t.flag / 8, flagTensor t.flag))

/-- A slot's contribution to a draft collective is complete (10 R373). -/
def State.finishContribution (s : State) (n : Nat) (r : Take) : State :=
  let k := nth r.desc 0 0
  match fmGet? s.coll.colls k with
  | none => s
  | some c =>
    let c := { c with parts := fmSet c.parts n (contribution c.red r.tiles), slotFolds := fmSet c.slotFolds n (exportsOf r.tiles) }
    { s with coll := { s.coll with colls := fmSet s.coll.colls k c } }

/-- A command has consumed all its tiles: W loads its bank, F contributes, D writes its shard, L digests. -/
def State.finishTake (s : State) (p n st : Nat) (r : Take) : State :=
  if st / 4096 = 1 then s.finishImport p n st r
  else if st / 4096 = 4 then s.finishContribution n r
  else if st / 4096 = 5 then s.finishShard p n r
  else match r.tiles with
    | t :: _ => s.digestTile p t
    | [] => s

/-- A tile that a command at a port of a whorl consumes is the port's held tile from then on (05 R168). -/
def State.holdTile (s : State) (n st : Nat) (t : Tile) : State :=
  if st / 4096 = 1 then s.setWhorl n (st % 64) { s.whorl n (st % 64) with heldA := [t] } else s

/-- Feed the commands of a station with the tiles that wait for them: a tile that came after its time is an
underrun (R108). -/
def State.feed (s : State) (p n st : Nat) : Nat → State
  | 0 => s
  | k + 1 =>
    let x := s.station n st
    match x.takes with
    | [] => s
    | r :: rs =>
      if r.want ≤ r.tiles.length then ((s.setStation n st { x with takes := rs }).finishTake p n st r).feed p n st k
      else match x.queue.find? fun q => q.roving == r.roving with
        | none => if r.start + r.tiles.length * r.per < s.now then s.underrun p n st r.roving r.tick r.pos else s
        | some q =>
          if r.start + r.tiles.length * r.per < q.arrived then s.underrun p n st r.roving r.tick r.pos
          else
            let y := s.part p
            let s := s.setPart p { y with taken := fmSet y.taken r.roving (fmGet y.taken r.roving 0 + 1) }
            let s := s.setStation n st { x with
              queue := x.queue.erase q
              takes := { r with tiles := r.tiles ++ [q.tile] } :: rs }
            (s.holdTile n st q.tile).feed p n st k

/-- Steps of feeding that suffice for what waits at a station. -/
def Station.work (x : Station) : Nat := x.queue.length + x.takes.length + 1

/-- A command begins, now, to consume tiles of a roving, one each so many cycles. -/
def State.addTake (s : State) (c : StCmd) (roving want per : Nat) (desc : List Nat) : State :=
  let x := s.station c.n c.st
  let s := s.setStation c.n c.st { x with takes := x.takes ++ [{
    roving := roving, want := want, start := s.now, per := per * s.cycleUnits, tick := c.tick, pos := c.pos, desc := desc }] }
  s.feed c.p c.n c.st (s.station c.n c.st).work

/-- `l_digest` starts (12 R417): it consumes the next tile of a roving that ends at SPnn.L. -/
def State.startDigest (s : State) (c : StCmd) : State :=
  match s.roving c.p c.roving with
  | none => s.atInvalid c
  | some r =>
    if !r.endsAt c.n c.st then s.atInvalid c
    else
      let per := transferTime 6 0 r.format
      (s.occupy c per).addTake c c.roving 1 per []

/-- The shard descriptor names no shard of a roving's format (Table 13-7, R452). -/
def shardBad (w0 fmt : Nat) : Bool :=
  bits w0 17 16 == 3 || bits w0 19 18 == 3 || (bits w0 19 18 != 0 && (bits w0 17 16 != 1 || fmt != 5))

/-- `d_shard` starts (R451, R452): it consumes the tiles of its descriptor; in a doff step it writes them as a shard. -/
def State.startShard (s : State) (c : StCmd) : State :=
  let o := c.a % 2 ^ 27
  match s.roving c.p c.roving with
  | none => s.atInvalid c
  | some r =>
    if o % 64 ≠ 0 ∨ !r.endsAt c.n c.st then s.atInvalid c
    else match s.c0Read c.p c.n c.st (sramBase c.n + sharedOff + o) 64 (s.cmdPlace c.p c.tick c.pos) with
      | (s, none) => s
      | (s, some l) =>
        let desc := wordsOf l
        if shardBad (nth desc 0 0) r.format then s.atInvalid c
        else
          let count := bits (nth desc 3 0) 31 0
          let per := transferTime 5 0 r.format
          (s.occupy c (count * per)).addTake c c.roving count per desc

end Sys2Proof.Machine
end

