-- ==== Sys2Proof/Machine/Whorl.lean ====
section
/-! DEFINITION. Machine/Whorl.lean: the whorl matrix engine (05): products, accumulation, long accumulator, batt,
exports and imports, tile steps with their checks and re-runs, bank hazards. -/

namespace Sys2Proof.Machine

/-! ### Operands (R160, R178, R180) -/

/-- A matrix of exact values, read by row and column. -/
structure Mat where
  cols : Nat
  els : Array Num

def Mat.get (m : Mat) (r c : Nat) : Num := (m.els[r * m.cols + c]?).getD .nan

def matOf (t : Tile) : Mat := ⟨tileCols t.format, t.values.toArray⟩

/-- Element (i, k) of A′ or B′ from the tiles a port consumed (R178, R180). -/
def operand (ms : List Mat) (trans : Bool) (i k : Nat) : Num :=
  match ms with
  | [m] => if trans then m.get k i else m.get i k
  | [m0, m1] =>
    if trans then (if i < 64 then m0.get k i else m1.get k (i - 64))
    else (if k < 64 then m0.get i k else m1.get i (k - 64))
  | _ => .nan

/-! ### W53 banks (R169 to R176) -/

/-- Special state after a special product (Table 05-7). -/
def specialAfter (st : Nat) (p : Num) : Nat :=
  match p with
  | .nan => 1
  | .inf neg =>
    if st = 1 then 1
    else if st = 0 then (if neg then 3 else 2)
    else if st = (if neg then 3 else 2) then st else 1
  | .fin .. => st

/-- The kept products of the FP32 plies (04 R154): sum of the partial products with i + j ≤ 2. -/
def plyProduct (a b : Num) : Num :=
  match a, b with
  | .fin x m e, .fin y n f =>
    let p := fun (v i : Nat) => v / 2 ^ (16 - 8 * i) % 256
    let kept := ((List.range 3).flatMap fun i => (List.range (3 - i)).map fun j => p m i * p n j * 2 ^ (32 - 8 * (i + j))).sum
    .fin (x != y) kept (e + f)
  | _, _ => Num.mulExact a b

/-- A product of a W53 path. -/
def wProduct (path : Nat) (a b : Num) : Num := if path = 1 then plyProduct a b else Num.mulExact a b

/-- The exact sum of finite products: an exact zero is −0 only when every product is −0 (R172). -/
def groupSum (ps : List Num) : Num :=
  let z := ps.foldl (Num.addExact .rne) (.fin true 0 0)
  if z.isZero then .fin (ps.all fun p => p.isZero && p.neg?) 0 0 else z

/-- `add_group` (R175): r gives the random bits of a chunk. -/
def addGroup (r : Nat → Nat) (x : WElem) (g gc : Nat) : WElem :=
  match x.ch with
  | none => { x with acc := g, ch := some gc }
  | some c =>
    if gc ≠ c then
      { x with
        tot := if x.tv then srW53 x.tot x.acc (r c) else x.acc
        tv := true
        acc := g
        ch := some gc }
    else { x with acc := rneW53 x.acc g }

/-- One k-group's products enter an element (R170, R172, R175). -/
def takeGroup (r : Nat → Nat) (x : WElem) (ps : List Num) (gc : Nat) : WElem :=
  let sp := ps.foldl specialAfter x.special
  if sp ≠ 0 then { x with special := sp }
  else addGroup r x (w53.encode (toW53 .rne (groupSum ps))) gc

/-- `final_value` (R175) as a value. -/
def WElem.final (r : Nat → Nat) (x : WElem) : Num :=
  match x.special with
  | 1 => .nan
  | 2 => .inf false
  | 3 => .inf true
  | _ =>
    if !x.tv then w53.decode x.acc
    else match x.ch with
      | none => w53.decode x.tot
      | some c => w53.decode (srW53 x.tot x.acc (r c))

/-- The open chunk sum as a value (R189, `part` 1). -/
def WElem.open_ (x : WElem) : Num :=
  match x.special with
  | 1 => .nan
  | 2 => .inf false
  | 3 => .inf true
  | _ => w53.decode x.acc

/-! ### The long accumulator (R181 to R184) -/

/-- floor(v / 2^s), with whether the remainder is nonzero. -/
def shrFloor (v : Int) (s : Nat) : Int × Bool := (v / (2 ^ s : Nat), v % (2 ^ s : Nat) != 0)

/-- `la_add` (R181): one nonzero partial product p × 2^w of sign ng. -/
def laAdd (x : LElem) (p : Nat) (ng : Bool) (w : Int) : LElem :=
  let top := w + bitLen p
  let x := if x.empty then { x with anchor := top - 172, empty := false } else x
  let x := if x.anchor < top - 172 then
      let r := shrFloor x.l (top - 172 - x.anchor).toNat
      { x with l := r.1, sticky := x.sticky || r.2, anchor := top - 172 }
    else x
  let x := if 190 ≤ bitLen x.l.natAbs then
      let r := shrFloor x.l 1
      { x with l := r.1, sticky := x.sticky || r.2, anchor := x.anchor + 1 }
    else x
  let q : Int := if ng then -(p : Int) else p
  if x.anchor ≤ w then { x with l := x.l + q * (2 ^ (w - x.anchor).toNat : Nat) }
  else
    let r := shrFloor q (x.anchor - w).toNat
    { x with l := x.l + r.1, sticky := x.sticky || r.2 }

/-- The two plies of a significand (04 R152): high 27 bits, low 26, weight of the lowest bit. -/
def plies64 (m : Nat) : Nat × Nat := (m / 2 ^ 26, m % 2 ^ 26)

/-- One product enters a long element (R170, R181, R182): partial products in pass order, fast mode without the last. -/
def takeProduct (fast : Bool) (x : LElem) (a b : Num) : LElem :=
  match a, b with
  | .fin s m e, .fin u n f =>
    let ng := s != u
    let minusZero := (m == 0 || n == 0) && ng
    let x := { x with negZero := if minusZero then x.negZero || x.fresh else false, fresh := false }
    if x.special ≠ 0 then x
    else
      let (ha, la) := plies64 m
      let (hb, lb) := plies64 n
      let passes : List (Nat × Int) :=
        [(ha * hb, e + f + 52), (ha * lb, e + f + 26), (la * hb, e + f + 26)] ++
        (if fast then [] else [(la * lb, e + f)])
      passes.foldl (fun x q => if q.1 = 0 then x else laAdd x q.1 ng q.2) x
  | _, _ =>
    { x with special := specialAfter x.special (Num.mulExact a b), negZero := false, fresh := false }

/-- The contents of a long element as an exact value (R183). -/
def LElem.value (x : LElem) : Num :=
  match x.special with
  | 1 => .nan
  | 2 => .inf false
  | 3 => .inf true
  | _ =>
    let v : Int := 2 * x.l + (if x.sticky then 1 else 0)
    if v = 0 then .fin x.negZero 0 0 else .fin (decide (v < 0)) v.natAbs (x.anchor - 1)

/-- The record of Table 05-9 as bytes. -/
def LElem.record (x : LElem) : List Byte :=
  bytesOf 24 (ofSigned 192 x.l) ++ bytesOf 8 (ofSigned 32 x.anchor + (b2n x.sticky <<< 32) + (b2n x.empty <<< 33) +
    (x.special <<< 34) + (b2n x.negZero <<< 36))

/-! ### Banks -/

/-- Values of k in a tile step of a path (Table 05-1). -/
def kPerStep (path : Nat) : Nat := if path = 0 then 128 else 64

/-- Rows and columns of a bank. -/
def Bank.side (b : Bank) : Nat := if b.long then 64 else 128

def Bank.wElem (b : Bank) (i : Nat) : WElem := nth b.w i {}
def Bank.lElem (b : Bank) (i : Nat) : LElem := nth b.l i {}

/-- Logical row and column of an element, exchanged under `key_swap` (R176, Table 05-3). -/
def Bank.keys (b : Bank) (i : Nat) : Nat × Nat :=
  let r := b.rowTile * b.side + i / b.side
  let c := b.colTile * b.side + i % b.side
  if b.keySwap then (c, r) else (r, c)

/-- Random bits of an element of a bank for a purpose and third coordinate (R176, R186; 12 R408). -/
def State.bankDraw (s : State) (p : Nat) (b : Bank) (purpose i idx : Nat) : Nat :=
  let k := b.keys i
  (genDraw (s.odGet (0x4010 + p) 1) purpose b.tensor k.1 k.2 idx (s.part p).epoch.toNat).toNat

/-- `final_value` of element i. -/
def State.bankFinal (s : State) (p : Nat) (b : Bank) (i : Nat) : Num :=
  (b.wElem i).final fun c => s.bankDraw p b 1 i c

/-- An error of a tile step that its residues do not see: element, and what the element takes in besides the products. -/
abbrev StepError := Option (Nat × Num)

/-- The bank after a tile step (R160, R172, R181), with an error that no check has seen. -/
def State.applyStep (s : State) (p : Nat) (b : Bank) (x : TileStep) (err : StepError) : Bank :=
  let ma := x.a.map matOf
  let mb := x.b.map matOf
  let k := kPerStep b.path
  let span := k * x.a.length
  let n := b.side
  let chunk := 2 ^ (b.chunkLog2 + 9)
  let off := fun (i : Nat) => match err with | some e => if e.1 = i then [e.2] else [] | none => []
  if b.long then
    { b with
      err := []
      l := (List.range (n * n)).map fun i =>
        (off i).foldl (fun e d => takeProduct (b.path == 3) e d (.fin false 1 0))
          ((List.range span).foldl (fun e c =>
            takeProduct (b.path == 3) e (operand ma x.transA (i / n) c) (operand mb x.transB (i % n) c)) (b.lElem i)) }
  else
    { b with
      err := []
      w := (List.range (n * n)).map fun i =>
        (List.range (span / 16)).foldl (fun e g =>
          takeGroup (fun c => s.bankDraw p b 1 i c) e
            (((List.range 16).map fun c =>
              wProduct b.path (operand ma x.transA (i / n) (16 * g + c)) (operand mb x.transB (i % n) (16 * g + c))) ++
              (if g = 0 then off i else []))
            ((x.kTile * k + 16 * g) / chunk)) (b.wElem i) }

/-! ### Residues (R192, R193) -/

/-- M of the residues. -/
def resMod : Nat := 2 ^ 31 - 1

/-- res(m × 2^e) = (m mod M) × 2^(e mod 31) mod M; a special value takes no part. -/
def res : Num → Nat
  | .fin neg m e =>
    let r := m % resMod * 2 ^ (e % 31).toNat % resMod
    if neg then (resMod - r) % resMod else r
  | _ => 0

/-- The exact sum of the finite values of a list. -/
def finSum (l : List Num) : Num := l.foldl (fun a x => if x.isFin then Num.addExact .rne a x else a) Num.zero_

/-- The piece of a significand that lies from a bit on, so many bits wide. -/
def piece (lo width : Nat) : Num → Num
  | .fin neg m e => .fin neg (m / 2 ^ lo % 2 ^ width) (e + lo)
  | x => x

/-- The passes of a tile step: the plies of A′ and of B′ that each multiplies (R161; 04 R152 to R155). -/
def passesOf (path : Nat) : List ((Num → Num) × (Num → Num)) :=
  match path with
  | 0 => [(id, id)]
  | 1 => (List.range 3).flatMap fun i => (List.range (3 - i)).map fun j => (piece (16 - 8 * i) 8, piece (16 - 8 * j) 8)
  | _ =>
    let hi := piece 26 27
    let lo := piece 0 26
    [(hi, hi), (hi, lo), (lo, hi)] ++ (if path = 3 then [] else [(lo, lo)])

/-- A tile step as its guards see it: the values of k it covers, and the elements of A′ and B′. -/
structure Guarded where
  side : Nat
  span : Nat
  a : Nat → Nat → Num
  b : Nat → Nat → Num

def TileStep.guarded (x : TileStep) (k : Bank) : Guarded :=
  let ma := x.a.map matOf
  let mb := x.b.map matOf
  ⟨k.side, kPerStep k.path * x.a.length, operand ma x.transA, operand mb x.transB⟩

/-- The guard column's entry of row i in a pass: Σ_k res(A′[i][k]) × res(Σ_j B′[j][k]). -/
def Guarded.guardCol (g : Guarded) (q : (Num → Num) × (Num → Num)) (i : Nat) : Nat :=
  ((List.range g.span).map fun k =>
    res (q.1 (g.a i k)) * res (finSum ((List.range g.side).map fun j => q.2 (g.b j k)))).sum % resMod

/-- The guard row's entry of column j in a pass: Σ_k res(Σ_i A′[i][k]) × res(B′[j][k]). -/
def Guarded.guardRow (g : Guarded) (q : (Num → Num) × (Num → Num)) (j : Nat) : Nat :=
  ((List.range g.span).map fun k =>
    res (finSum ((List.range g.side).map fun i => q.1 (g.a i k))) * res (q.2 (g.b j k))).sum % resMod

/-- The exact contribution P_ij of a pass to element (i, j). -/
def Guarded.passSum (g : Guarded) (q : (Num → Num) × (Num → Num)) (i j : Nat) : Num :=
  finSum ((List.range g.span).map fun k => Num.mulExact (q.1 (g.a i k)) (q.2 (g.b j k)))

/-- The guards of row i and column j agree with the contributions of a pass, of which that to (i, j) is off by d (R192). -/
def Guarded.agrees (g : Guarded) (q : (Num → Num) × (Num → Num)) (i j : Nat) (d : Num) : Bool :=
  let off := fun (r c : Nat) => finSum [g.passSum q r c, if r = i ∧ c = j then d else Num.zero_]
  g.guardCol q i == ((List.range g.side).map fun c => res (off i c)).sum % resMod &&
  g.guardRow q j == ((List.range g.side).map fun r => res (off r j)).sum % resMod

/-- The value a bank element holds, nothing rounded. -/
def Bank.elemNum (b : Bank) (i : Nat) : Num :=
  if b.long then (b.lElem i).value else finSum [w53.decode (b.wElem i).tot, w53.decode (b.wElem i).acc]

/-- Element (i, j) of the working copy, off by d, agrees with the residue of its previous value plus res(P_ij) (R193). -/
def Guarded.elemAgrees (g : Guarded) (b : Bank) (i j : Nat) (d : Num) : Bool :=
  let was := res (b.elemNum (i * b.side + j))
  let adds := ((passesOf b.path).map fun q => res (g.passSum q i j)).sum
  (was + adds) % resMod == (was + adds + res d) % resMod

/-- A signed number of units 2^e. -/
def signedNum (m e : Int) : Num := .fin (decide (m < 0)) m.natAbs e

/-- What the checks of a tile step give (R192, R193): none for a mismatch; else an error they cannot see, if there is one. -/
def stepChecked (b : Bank) (x : TileStep) : StepCheck → Option StepError
  | .product q i j m e =>
    match (passesOf b.path)[q]? with
    | none => some none
    | some q =>
      if i < b.side ∧ j < b.side then
        if (x.guarded b).agrees q i j (signedNum m e) then some (some (i * b.side + j, signedNum m e)) else none
      else some none
  | .element i j m e =>
    if i < b.side ∧ j < b.side then
      if (x.guarded b).elemAgrees b i j (signedNum m e) then some (some (i * b.side + j, signedNum m e)) else none
    else some none
  | _ => some none

/-! ### Starting commands (R165, R166, R198) -/

/-- Bank that a whorl command names. -/
def StCmd.wBank (c : StCmd) : Nat := c.f 64 64

/-- A bank has a tile step in its product cycles or awaiting its checks. -/
def Whorl.stepping (x : Whorl) (b : Nat) : Bool := x.steps.any fun e => e.bank == b

/-- A bank is in use at a time: R198. -/
def Whorl.inUse (x : Whorl) (b start : Nat) : Bool := x.stepping b || decide (start < (x.bank b).outUntil)

/-- Port a roving is bound to (R167): true for port B. The stream of the nominal variant decides at load. -/
def Draft.portB (d : Draft) (n st r : Nat) : Bool :=
  let cmds := (List.range d.stepTicks).flatMap fun t => d.commands 0 n t
  let mine := cmds.filter fun w => stationOf (bits w 119 104) == st && decide (0x20 ≤ bits w 127 120 ∧ bits w 127 120 < 0x40)
  let names := mine.filterMap fun w =>
    let op := bits w 127 120
    if (op = 0x21 ∧ bits w 65 65 = 0 ∨ op = 0x24) ∧ bits w 103 92 = r then some false
    else if op = 0x21 ∧ bits w 66 66 = 0 ∧ bits w 11 0 = r then some true else none
  names.headD false

/-- `w_setup` (Table 05-3): empties a bank and sets it up. -/
def State.startSetup (s : State) (c : StCmd) : State :=
  let w := c.st % 64
  let x := s.whorl c.n w
  s.setWhorl c.n w (x.setBank c.wBank {
    ready := true
    path := c.f 66 65
    tensor := c.a % 65536
    keySwap := c.f 67 67 == 1
    rowTile := c.f 15 0
    colTile := c.f 31 16
    chunkLog2 := c.f 35 32
    outUntil := (x.bank c.wBank).outUntil })

/-- Read a bank's storage (R193): a single-bit error of an element is corrected and masked; a double-bit error raises
`WHORL_FAULT` for the command at (tick, pos), and the read gives nothing. -/
def State.readBank (s : State) (p n w b tick pos : Nat) : State × Bool :=
  let x := s.whorl n w
  let k := x.bank b
  if k.err.isEmpty then (s, true)
  else if k.err.any fun e => e.2 == 2 then (s.placeFault 0x0503 p n tick pos, false)
  else (s.setWhorl n w (x.setBank b { k with err := [] }), true)

/-- LONG_ACC_STICKY at the first read or export that finds an element with `sticky` (R184). -/
def State.tellSticky (s : State) (n w b : Nat) : State :=
  let x := s.whorl n w
  let k := x.bank b
  if !k.long || k.stickyTold then s
  else match k.l.findIdx? fun e => e.sticky with
    | none => s
    | some e =>
      (s.setWhorl n w (x.setBank b { k with stickyTold := true })).event 0x0501 (s.ofSlot n) [.half w, .half b, .half e]

/-- A tile produced by a station waits for its roving time. -/
def State.produce (s : State) (p r ready : Nat) (t : Tile) : State :=
  let x := s.part p
  let i := fmGet x.made r 0
  s.setPart p { x with made := fmSet x.made r (i + 1), outs := x.outs ++ [(r, i, ready, t)] }

/-- An export tile (R189). -/
def exportTile (r : Roving) (i : Nat) (payload : List Byte) : Tile :=
  ⟨7, payload, List.replicate 1024 0, flagWord none none 0 0 0 0 0 7 (r.firstIndex + i) r.tensor⟩

/-- Bytes of an export: part 0 final values, part 1 open chunk sums, or long records (R189). -/
def State.exportBytes (s : State) (p : Nat) (b : Bank) (part : Nat) : List Byte :=
  if b.long then (List.range 4096).flatMap fun i => (b.lElem i).record
  else (List.range 16384).flatMap fun i =>
    bytesOf 8 (w53.encode (if part = 0 then s.bankFinal p b i else (b.wElem i).open_))

/-- A command runs on the output path of its whorl, on its bank, for a number of cycles from now (R165). -/
def State.useOut (s : State) (c : StCmd) (cycles : Nat) : State :=
  let w := c.st % 64
  let x := s.whorl c.n w
  let u := s.now + cycles * s.cycleUnits
  s.setWhorl c.n w ({ x with outFree := u }.setBank c.wBank { x.bank c.wBank with outUntil := u })

/-- `w_acc_out` breaks a rule of R189. -/
def State.accOutBad (s : State) (c : StCmd) : Bool :=
  let b := (s.whorl c.n (c.st % 64)).bank c.wBank
  match s.roving c.p c.roving with
  | none => true
  | some r => !r.beginsAt c.n c.st || r.format != 7 || c.format != 7 || (c.f 65 65 == 1 && (b.long || b.w.any fun e => e.tv))

/-- `w_acc_out` (R189). -/
def State.startAccOut (s : State) (c : StCmd) : State :=
  let w := c.st % 64
  if s.accOutBad c then s.atInvalid c
  else match s.readBank c.p c.n w c.wBank c.tick c.pos, s.roving c.p c.roving with
    | (s, true), some r =>
      let bytes := s.exportBytes c.p ((s.whorl c.n w).bank c.wBank) (c.f 65 65)
      let s := (s.useOut c 256).tellSticky c.n w c.wBank
      forN 8 s fun s t =>
        s.produce c.p c.roving (s.now + 32 * (t + 1) * s.cycleUnits)
          (exportTile r (fmGet (s.part c.p).made c.roving 0) ((bytes.drop (16384 * t)).take 16384))
    | (s, _), _ => s

/-- `w_acc_in` breaks a rule of R167 or Table 05-6: its roving ends at port A of this whorl in RAW8, and its fields
`format` and `part` are 0. -/
def State.accInBad (s : State) (c : StCmd) : Bool :=
  match s.roving c.p c.roving, (s.part c.p).draft with
  | some r, some d => !r.endsAt c.n c.st || r.format != 7 || c.format != 0 || c.f 65 65 != 0 || d.portB c.n c.st c.roving
  | _, _ => true

/-- `w_acc_in` (R190): eight tiles at port A, one every 32 cycles. -/
def State.startAccIn (s : State) (c : StCmd) : State :=
  if s.accInBad c then s.atInvalid c else (s.useOut c 256).addTake c c.roving 8 32 [c.wBank]

/-- One batt element (R186): the exact sum, and what is stored. -/
def battElem (init : Bool) (b v : Num) : Num :=
  if init then v else Num.addExact .rne b v

/-- One FP32 record of a batt area after the accumulation (R185 to R187): h is 0 or 1. -/
def State.battRecord (s : State) (c : StCmd) (k : Bank) (old : Tile) (h : Nat) : Made :=
  let ten := c.a % 65536
  let micro := c.f 36 21
  let place := fun (e : Nat) => e / 64 * 128 + 64 * h + e % 64
  let xs := (List.range 8192).map fun e =>
    battElem (c.f 65 65 == 1) (fp32.decode (old.code e)) (s.bankFinal c.p k (place e))
  let rm := fun e => if c.f 66 66 = 1 then Rm.rne else .sr (s.bankDraw c.p k 2 (place e) micro)
  s.convertPlain c.n ten 5 ((bits c.a 47 16 + h) % 2 ^ 32) rm true {} xs

/-- Bytes of a batt area. -/
def battBytes : Nat := 67712

/-- The twist pass of a slot that reads, in the same cycles, a batt area that a `w_batt` starts to write: the read takes no
effect and raises `ACC_HAZARD` (06 R210). -/
def State.battReader (s : State) (n area : Nat) : Option Twist :=
  ((List.range 8).map fun e => fmGet s.twists (n * 8 + e) {}).find? fun x =>
    decide (s.now < x.battUntil) && decide (area < x.battArea + battBytes) && decide (x.battArea < area + battBytes)

/-- `w_batt` (R185 to R188). -/
def State.startBatt (s : State) (c : StCmd) : State :=
  let w := c.st % 64
  let area := c.f 20 0 * 64
  if ((s.whorl c.n w).bank c.wBank).long ∨ c.format ≠ 5 ∨ 96 * 2 ^ 20 < area + battBytes then s.atInvalid c
  else match s.battReader c.n area with
    | some r => s.placeFault 0x0504 c.p c.n r.battTick r.battPos
    | none =>
      let pa := sramBase c.n + battOff + area
      match s.readBank c.p c.n w c.wBank c.tick c.pos with
      | (s, false) => s
      | (s, true) =>
        match s.c0Read c.p c.n c.st pa battBytes (s.cmdPlace c.p c.tick c.pos) with
        | (s, none) => s
        | (s, some l) =>
          let k := (s.whorl c.n w).bank c.wBank
          let m0 := s.battRecord c k (tileOf 5 l) 0
          let m1 := s.battRecord c k (tileOf 5 (l.drop 33856)) 1
          let s := s.useOut c 128
          let s := s.setWhorl c.n w { s.whorl c.n w with battArea := area, battUntil := s.now + 128 * s.cycleUnits }
          let s := (s.c0Store c.p c.n c.st pa (m0.tile.record ++ m1.tile.record)).1
          (s.countTile c.p c.n m0).countTile c.p c.n m1

/-- A whorl command other than `w_mma` starts, now (R165): it is judged for set-up and hazard in this cycle (R164, R198). -/
def State.startOther (s : State) (c : StCmd) : State :=
  let x := s.whorl c.n (c.st % 64)
  if c.op ≠ 0x20 ∧ !(x.bank c.wBank).ready then s.atInvalid c
  else if x.inUse c.wBank s.now then s.atFault c 0x0504
  else if c.op = 0x20 then s.startSetup c
  else if c.op = 0x22 then s.startBatt c
  else if c.op = 0x23 then s.startAccOut c
  else s.startAccIn c

/-- When the command at the head of a whorl's queue starts, if it is no `w_mma` (R165): a `w_setup` at the head, the
others when the output path is free too. -/
def Whorl.headTime (x : Whorl) : Option Nat :=
  match x.queue with
  | [] => none
  | c :: _ =>
    if c.op = 0x21 then none
    else if c.op = 0x20 then some (max c.arrival x.headAt)
    else some (max (max c.arrival x.headAt) x.outFree)

/-- The head of a whorl's queue leaves it, now. -/
def State.popWhorl (s : State) (n w : Nat) : State :=
  let x := s.whorl n w
  s.setWhorl n w { x with queue := x.queue.drop 1, headAt := s.now }

/-- The command at the head of a whorl's queue starts, if it is no `w_mma`. -/
def State.startWhorl (s : State) (n w : Nat) : State :=
  match (s.whorl n w).queue with
  | [] => s
  | c :: _ => (s.popWhorl n w).startOther c

/-- Cycles of the tile step a queued `w_mma` makes (Table 05-1, R180). -/
def State.mmaCycles (s : State) (x : Whorl) (c : StCmd) : Nat :=
  match (x.bank c.wBank).path with
  | 1 => if c.f 68 67 = 0 then 768 else 1536
  | 2 => 4096
  | 3 => 3072
  | _ =>
    let fmt := if c.f 65 65 = 1 then (x.heldA.getLast?.map Tile.format).getD 1
      else ((s.roving c.p c.roving).map Roving.format).getD 1
    if fmtType fmt = 1 ∨ fmtType fmt = 2 then 128 else 256

/-- Commands of a whorl's queue that still wait at a time: those whose start lies after it. -/
def State.waitingAt (s : State) (x : Whorl) (time : Nat) : Nat :=
  let r := x.queue.foldl (fun (a : Nat × Nat × Nat) c =>
    if c.op = 0x21 then
      let st := max (max a.1 a.2.1) c.arrival
      (st, st + s.mmaCycles x c * s.cycleUnits, a.2.2 + b2n (decide (time < st)))
    else
      let st := max (max a.1 c.arrival) (if c.op = 0x20 then 0 else x.outFree)
      (st, a.2.1, a.2.2 + b2n (decide (time < st)))) (x.headAt, x.nextStep, 0)
  r.2.2

/-- A whorl command arrives: it joins the queue, in which at most four wait (R116, R117). -/
def State.whorlArrive (s : State) (c : StCmd) : State :=
  let w := c.st % 64
  let x := s.whorl c.n w
  if 4 ≤ s.waitingAt x s.now then s.atFault c 0x0305
  else s.setWhorl c.n w { x with queue := x.queue ++ [c] }

/-! ### Tile steps (R165, R168, R173, R192 to R196) -/

/-- The tiles a port gives a step: held or consumed; none after a fault. -/
def State.portTiles (s : State) (c : StCmd) (hold : Bool) (r count : Nat) (portB : Bool) :
    State × Option (List Tile) :=
  let x := s.whorl c.n (c.st % 64)
  let held := if portB then x.heldB else x.heldA
  if hold then
    if held.length < count then (s.atInvalid c, none)
    else (s, some (if count = 1 then held.drop (held.length - 1) else held))
  else
    let bad := match s.roving c.p r, (s.part c.p).draft with
      | some v, some d => !v.endsAt c.n c.st || d.portB c.n c.st r != portB
      | _, _ => true
    if bad then (s.atInvalid c, none)
    else match s.consume c.p c.n c.st r c.tick c.pos with
      | (s, none) => (s, none)
      | (s, some q) =>
        if count = 1 then (s, some [q.tile])
        else match s.consume c.p c.n c.st r c.tick c.pos with
          | (s, none) => (s, none)
          | (s, some q') => (s, some [q.tile, q'.tile])

/-- Operand formats that a path takes (R162, Table 05-1): FP16, FP32 and FP64 only plain. -/
def pathTakes (path : Nat) (a b : Tile) : Bool :=
  let x := fmtType a.format
  let y := fmtType b.format
  let plain := fmtHank a.format == 0 && fmtHank b.format == 0
  match path with
  | 0 => ((x == 1 || x == 2) && (y == 1 || y == 2)) || (x == 3 && y == 3) || (x == 4 && y == 4 && plain)
  | 1 => x == 5 && y == 5 && plain
  | _ => x == 6 && y == 6 && plain

/-- A `w_mma` covers two tiles of each port: an FP32 double step (R180). -/
def Bank.double (b : Bank) (c : StCmd) : Bool := b.path == 1 && c.f 68 67 != 0

/-- The tile step at the head starts (R165). -/
def State.startMma (s : State) (c : StCmd) : State :=
  let w := c.st % 64
  let x := s.whorl c.n w
  let b := x.bank c.wBank
  let count := if b.double c then 2 else 1
  let k := c.f 39 12
  if !b.ready then s.atInvalid c
  else if s.now < b.outUntil then s.atFault c 0x0504
  else if (match b.kLast with | some l => decide (k ≤ l) | none => false) then s.atInvalid c
  else
    let cycles := s.mmaCycles x c
    match s.portTiles c (c.f 65 65 == 1) c.roving count false with
    | (s, none) => s
    | (s, some a) =>
      match s.portTiles c (c.f 66 66 == 1) (c.f 11 0) count true with
      | (s, none) => s
      | (s, some bt) =>
        if !((a.zip bt).all fun e => pathTakes b.path e.1 e.2) then s.atInvalid c
        else
          let x := s.whorl c.n w
          let b := x.bank c.wBank
          let step : TileStep := {
            bank := c.wBank, tick := c.tick, pos := c.pos, a := a, b := bt, transA := c.f 67 67 == 1
            transB := c.f 68 68 == 1, kTile := k, start := s.now, cycles := cycles }
          s.setWhorl c.n w ({ x with
            steps := x.steps ++ [step]
            heldA := if c.f 65 65 = 1 then x.heldA else a
            heldB := if c.f 66 66 = 1 then x.heldB else bt
            nextStep := s.now + cycles * s.cycleUnits }.setBank c.wBank
              { b with kLast := some (if b.double c then k + 1 else k) })

/-- Steps restarted one after another from a time (R194). -/
def restart (cu : Nat) : Nat → List TileStep → List TileStep
  | _, [] => []
  | at_, e :: es => { e with start := at_ } :: restart cu (at_ + e.cycles * cu) es

/-- Count a `TILE_RERUN` of a slot toward its failure warning (13 R448). -/
def State.countRerun (s : State) (n : Nat) : State :=
  let l := (fmGet s.res.rerunHour n []).filter fun t => decide (s.now < t + 3600 * unitsPerSec)
  let s := { s with res := { s.res with rerunHour := fmSet s.res.rerunHour n (l ++ [s.now]) } }
  s.warnIfReached 5 l.length (l.length + 1)

/-- Pause a partition's issue for a number of cycles from the next cycle; pauses merge (R194, R196). -/
def State.pauseIssue (s : State) (p cycles : Nat) : State :=
  let x := s.part p
  let u := s.now + (cycles + 1) * s.cycleUnits
  match x.pauseUntil with
  | some v => s.setPart p { x with pauseUntil := some (max u v) }
  | none => s.setPart p { x with pauseUntil := some u, pauseFrom := s.now + s.cycleUnits }

/-- A failed check: the working copy is discarded, the step and those that started after it run again, the
partition pauses (R194); the third failed attempt is a `WHORL_FAULT` (R195). -/
def State.stepMismatch (s : State) (p n w : Nat) (e : TileStep) (es : List TileStep) : State :=
  if 3 ≤ e.attempt then s.placeFault 0x0503 p n e.tick e.pos
  else
    let x := s.whorl n w
    let steps := restart s.cycleUnits (s.now + s.cycleUnits) ({ e with attempt := e.attempt + 1 } :: es)
    let last := steps.foldl (fun _ e => e.start + e.cycles * s.cycleUnits) x.nextStep
    let s := s.setWhorl n w { x with steps := steps, nextStep := last }
    let s := s.event 0x0502 (s.ofSlot n) [.half w, .half e.bank, .half e.tick, .word (s.part p).epoch.toNat, .half e.attempt]
    (s.countRerun n).pauseIssue p (e.cycles + 24)

/-- The oldest tile step of a whorl has had its checks (R193 to R195): the working copy becomes the bank, or the step runs
again; a double-bit error of the bank's storage is a `WHORL_FAULT`. -/
def State.endStep (s : State) (p n w : Nat) (e : TileStep) (es : List TileStep) (r : StepCheck) : State :=
  if r = .bankError then s.placeFault 0x0503 p n e.tick e.pos
  else match s.readBank p n w e.bank e.tick e.pos with
    | (s, false) => s
    | (s, true) =>
      let x := s.whorl n w
      match stepChecked (x.bank e.bank) e r with
      | some err => s.setWhorl n w ({ x with steps := es }.setBank e.bank (s.applyStep p (x.bank e.bank) e err))
      | none => s.stepMismatch p n w e es

end Sys2Proof.Machine
end

