-- ==== Sys2Proof/Machine/Combine.lean ====
section
/-! DEFINITION. Machine/Combine.lean: what a collective computes: operators (10 Table 10-3), `chunk_fold` (10 R344),
streams and chunks (10 R345, R346, R369), who receives which part of a result (10 Table 10-2). -/

namespace Sys2Proof.Machine

/-! ### CRC-32C (R346) -/

/-- One step of the reflected CRC-32C register. -/
def crcStep (c : BitVec 32) : BitVec 32 := if c.getLsbD 0 then (c >>> 1) ^^^ 0x82F63B78#32 else c >>> 1

/-- CRC-32C of a byte string. -/
def crc32c (l : List Byte) : BitVec 32 :=
  l.foldl (fun c b => (List.range 8).foldl (fun c _ => crcStep c) (c ^^^ b.zeroExtend 32)) 0xFFFFFFFF#32 ^^^ 0xFFFFFFFF#32

/-! ### Operators (Table 10-3) -/

/-- Bytes of an operator's element. -/
def redBytes (red : Nat) : Nat :=
  match red with
  | 0 => 1
  | 1 | 3 | 4 | 5 | 6 => 4
  | 9 => 32
  | _ => 8

/-- Exact addition of two long records (operator 9): `la_add` of the second record's value. -/
def longAdd (a b : LElem) : LElem :=
  let sp := if a.special = 0 then b.special else if b.special = 0 ∨ a.special = b.special then a.special else 1
  let nz := a.negZero && b.negZero
  if sp ≠ 0 ∨ b.l = 0 then { a with special := sp, negZero := nz, sticky := a.sticky || b.sticky }
  else { laAdd { a with sticky := a.sticky || b.sticky } b.l.natAbs (decide (b.l < 0)) b.anchor with negZero := false }

/-- `combine` of Table 10-3 on element patterns. -/
def combineElem (red a b : Nat) : Nat :=
  match red with
  | 1 => (fAdd fp32 .rne a b).1
  | 2 => (fAdd fp64 .rne a b).1
  | 3 => (fMax fp32 a b).1
  | 4 => (fMin fp32 a b).1
  | 5 => max (a % 2 ^ 31) (b % 2 ^ 31)
  | 6 => min (a + b) (2 ^ 32 - 1)
  | 7 => (a + b) % 2 ^ 64
  | 8 => a &&& b
  | 9 => natOf (longAdd (importL a) (importL b)).record
  | _ => b

/-- Element by element over two byte strings of equal length. -/
def combineBytes (red : Nat) (a b : List Byte) : List Byte :=
  let w := redBytes red
  ((chunksOf w (a.length / w) a).zip (chunksOf w (b.length / w) b)).flatMap fun e =>
    bytesOf w (combineElem red (natOf e.1) (natOf e.2))

/-- `node_value` (R340): the inputs in ascending order of their children; none when none is present. -/
def nodeValue (red : Nat) : List (List Byte) → Option (List Byte)
  | [] => none
  | a :: l => some (l.foldl (combineBytes red) a)

/-- Operator a barrier runs (Table 10-2). -/
def Collective.operator (c : Collective) : Nat := if c.op = 5 then 8 else c.red

/-! ### Sizes, segments and chunks (R345, R369) -/

/-- Bytes of a segment. -/
def segBytes0 : Nat := 2 ^ 22
/-- Bytes of a part-1 export (R344). -/
def exportSize : Nat := 131072

/-- Slots of a mask. -/
def Collective.slots (c : Collective) : List Nat := maskBits 16 c.slotMask

/-- Bytes of a member's contribution after its package stage; operator `none` and `chunk_fold` concatenate the slots. -/
def Collective.memberBytes (c : Collective) : Nat :=
  if c.op = 5 then 64
  else if c.draft && (c.red == 0 || c.red == 10) then c.size * c.slots.length else c.size

/-- Contributions are concatenated on their way up, not combined. -/
def Collective.gathers (c : Collective) : Bool := c.op == 3 || (c.red == 10 && c.op != 5)

/-- Segments (R369). -/
def Collective.segs (c : Collective) : Nat :=
  if c.draft || c.gathers && c.red == 10 || c.op == 5 then 1 else max 1 (ceilDiv c.size segBytes0)

/-- Bytes of a member in a segment. -/
def Collective.segBytes (c : Collective) (seg : Nat) : Nat :=
  if c.segs = 1 then c.memberBytes else min segBytes0 (c.size - seg * segBytes0)

/-- Chunks of a stream of b bytes. -/
def chunkCount (b : Nat) : Nat := max 1 (ceilDiv b 4096)

/-- Bytes that rise from n members in a segment. -/
def Collective.upBytes (c : Collective) (n seg : Nat) : Nat := if c.gathers then n * c.segBytes seg else c.segBytes seg

/-- Bytes of the result of m members in a segment. -/
def Collective.resultBytes (c : Collective) (m seg : Nat) : Nat :=
  if c.gathers then (if c.red = 10 then exportSize else m * c.segBytes seg) else c.segBytes seg

/-- First chunk index of a segment of a stream that carries n members. -/
def Collective.firstChunk (c : Collective) (n seg : Nat) : Nat :=
  if c.segs = 1 then 0 else seg * 1024 * (if c.gathers then n else 1)

/-- Segment of a chunk index of a stream that carries n members. -/
def Collective.segOf (c : Collective) (n chunk : Nat) : Nat :=
  if c.segs = 1 then 0 else chunk / (1024 * (if c.gathers then max 1 n else 1))

/-- Chunk indices of a segment that rise from n members. -/
def Collective.upRange (c : Collective) (n seg : Nat) : List Nat :=
  (List.range (chunkCount (c.upBytes n seg))).map fun i => c.firstChunk n seg + i

/-- Chunk indices of a segment of the result. -/
def Collective.downRange (c : Collective) (m seg : Nat) : List Nat :=
  (List.range (chunkCount (c.resultBytes m seg))).map fun i => c.firstChunk m seg + i

/-- Shard of rank r (Table 10-2): first byte and end. -/
def Collective.shard (c : Collective) (g : Group) (r : Nat) : Nat × Nat :=
  let b := if c.red = 10 then exportSize else c.memberBytes
  (r * b / max 1 g.members.length, (r + 1) * b / max 1 g.members.length)

/-- Whether the member of rank r receives a chunk of the result. -/
def Collective.receives (c : Collective) (g : Group) (r chunk : Nat) : Bool :=
  if c.op = 1 then r == c.root
  else if c.op = 2 then
    let h := c.shard g r
    decide (4096 * chunk < h.2) && decide (h.1 < 4096 * chunk + 4096)
  else true

/-- Where the bytes of a chunk of the result go in a member's destination: destination offset, chunk offset, bytes. -/
def Collective.pieces (c : Collective) (g : Group) (r chunk : Nat) : List (Nat × Nat × Nat) :=
  let cut := fun (lo hi at_ : Nat) (base : Nat) =>
    let a := max lo at_
    let b := min hi (at_ + 4096)
    if a < b then [(base + a - lo, a - at_, b - a)] else []
  let m := g.present.length
  if c.op = 5 then []
  else if c.op = 2 then
    let h := c.shard g r
    cut h.1 h.2 (4096 * chunk) 0
  else if c.op = 3 then
    let seg := c.segOf m chunk
    let n := c.segBytes seg
    let off := (chunk - c.firstChunk m seg) * 4096
    ((List.range m).zip g.present).flatMap fun e =>
      cut (e.1 * n) (e.1 * n + n) off (e.2.1 * c.memberBytes + seg * segBytes0)
  else cut 0 (if c.red = 10 then exportSize else c.memberBytes) (4096 * chunk) 0

/-! ### Concatenation and `chunk_fold` (R342, R344) -/

/-- A chunk of a child's stream at a stage. -/
def Stage.chunk (st : Stage) (child i : Nat) : Option (List Byte × Bool) := fmGet? st.ins (child * 2 ^ 32 + i)

/-- A chunk of a concatenation. -/
structure Cat where
  bytes : List Byte := []
  missing : Bool := false
  taint : Bool := false
  deriving DecidableEq, Repr

/-- Bytes lo to hi of a child's stream whose first chunk is numbered `first`; bytes that have not arrived are free. -/
def Stage.cut (st : Stage) (free child first lo hi : Nat) : Cat :=
  (List.range ((hi - 1) / 4096 - lo / 4096 + 1)).foldl (fun (a : Cat) j =>
    let i := lo / 4096 + j
    let x := max lo (4096 * i)
    let y := min hi (4096 * i + 4096)
    match st.chunk child (first + i) with
    | some (l, t) => { a with bytes := a.bytes ++ (l.drop (x - 4096 * i)).take (y - x), taint := a.taint || t }
    | none => { a with bytes := a.bytes ++ (List.range (y - x)).map (fun q => Config.freeByte (free + a.bytes.length + q)), missing := true }) {}

/-- The 4,096 bytes from byte lo of the children's streams end to end; children as number, bytes, first chunk. -/
def Stage.cat (st : Stage) (free : Nat) (kids : List (Nat × Nat × Nat)) (lo : Nat) : Cat :=
  let r := kids.foldl (fun (a : Nat × Cat) k =>
    let x := max lo a.1
    let y := min (lo + 4096) (a.1 + k.2.1)
    let c := if x < y then st.cut (free + a.2.bytes.length) k.1 k.2.2 (x - a.1) (y - a.1) else {}
    (a.1 + k.2.1, { bytes := a.2.bytes ++ c.bytes, missing := a.2.missing || c.missing, taint := a.2.taint || c.taint })) (0, {})
  { r.2 with bytes := r.2.bytes ++ List.replicate (4096 - r.2.bytes.length) 0 }

/-- `chunk_fold` of one element: words with their chunk indices, ascending. -/
def chunkFold (draw : Nat → Nat) : List (Nat × Nat) → Nat
  | [] => 0
  | e :: l => l.foldl (fun t x => srW53 t x.2 (draw x.1)) e.2

/-- Random bits of an element for an export's chunk index (R344). -/
def State.foldDraw (s : State) (c : Collective) (tensor e idx : Nat) : Nat :=
  let r := c.rowTile * 128 + e / 128
  let q := c.colTile * 128 + e % 128
  let k := if c.keySwap then (q, r) else (r, q)
  (genDraw (s.odGet (0x4010 + c.part) 1) 1 tensor k.1 k.2 idx
    (if c.draft then (s.part c.part).epoch.toNat else c.epoch)).toNat

/-- Chunk i of a `chunk_fold` result from the same chunk of every export: index, tensor, words. -/
def State.foldChunk (s : State) (c : Collective) (i : Nat) (ex : List ((Nat × Nat) × List Nat)) : List Byte :=
  let ex := sortBy (fun (e : (Nat × Nat) × List Nat) => e.1.1) ex
  let tensor := fun idx => ((ex.find? fun e => e.1.1 == idx).map fun e => e.1.2).getD c.tensor
  (List.range 512).flatMap fun j =>
    bytesOf 8 (chunkFold (fun idx => s.foldDraw c (tensor idx) (512 * i + j) idx) (ex.map fun e => (e.1.1, nth e.2 j 0)))

/-- What a stage's chunk comes to: bytes (none: no input has arrived), a missing input, a tainted one. -/
structure StageOut where
  bytes : Option (List Byte) := .none
  missing : Bool := false
  taint : Bool := false
  deriving DecidableEq, Repr

/-- Children of a stage as number, bytes of the stream and its first chunk, from (number, members below). -/
def Collective.kidStreams (c : Collective) (seg : Nat) (kids : List (Nat × Nat)) : List (Nat × Nat × Nat) :=
  kids.map fun k => (k.1, c.upBytes k.2 seg, c.firstChunk k.2 seg)

/-- Chunk `i` of a stage's result (R340, R342, R344): `kids` are the children's streams, `root` says that the
stage is the root's, `only` the child that carries a broadcast, `base` the first chunk of the segment. -/
def State.stageChunk (s : State) (c : Collective) (st : Stage) (kids : List (Nat × Nat × Nat)) (cat root : Bool)
    (only : Option Nat) (exports : List (Nat × Nat)) (base i : Nat) : StageOut :=
  match only with
  | some d => match st.chunk d i with
    | some (l, t) => { bytes := some l, taint := t }
    | none => { missing := true }
  | none =>
    if cat && root && c.red == 10 then
      let parts := ((List.range exports.length).zip exports).map fun e =>
        (e.2, st.cat s.freeCtr kids (e.1 * exportSize + 4096 * i))
      { bytes := some (s.foldChunk c i (parts.map fun e => (e.1, wordsOf e.2.bytes)))
        missing := parts.any fun e => e.2.missing
        taint := parts.any fun e => e.2.taint }
    else if cat then
      let r := st.cat s.freeCtr kids ((i - base) * 4096)
      { bytes := some r.bytes, missing := r.missing, taint := r.taint }
    else
      let have_ := kids.filterMap fun k => st.chunk k.1 i
      { bytes := nodeValue c.operator (have_.map fun e => e.1)
        missing := have_.length != kids.length
        taint := have_.any fun e => e.2 }

end Sys2Proof.Machine
end

