-- ==== Sys2Proof/Machine/Coll.lean ====
section
/-! DEFINITION. Machine/Coll.lean: dynamic collectives (10 R335 to R371; 11 R392): launch, claims and admission, chunks
up and down the tree, acknowledgements and taint, resends, and the end of a collective. -/

namespace Sys2Proof.Machine

/-! ### Access to a collective and its stages -/

def State.coll? (s : State) (k : Nat) : Option Collective := fmGet? s.coll.colls k
def State.collOf (s : State) (k : Nat) : Collective := fmGet s.coll.colls k {}

/-- Change a collective that is there. -/
def State.modColl (s : State) (k : Nat) (f : Collective → Collective) : State :=
  match s.coll? k with
  | some c => s.setColl k (f c)
  | none => s

/-- Key of a stage. -/
def stageKey (seg depth : Nat) : Nat := seg * 16 + depth
def Collective.stage? (c : Collective) (seg depth : Nat) : Option Stage := fmGet? c.stages (stageKey seg depth)
def Collective.stage (c : Collective) (seg depth : Nat) : Stage := (c.stage? seg depth).getD {}
def Collective.setStage (c : Collective) (seg depth : Nat) (t : Stage) : Collective :=
  { c with stages := fmSet c.stages (stageKey seg depth) t }

/-- Change a stage. -/
def State.modStage (s : State) (k seg depth : Nat) (f : Stage → Stage) : State :=
  s.modColl k fun c => c.setStage seg depth (f (c.stage seg depth))

/-- The group of a collective. -/
def State.groupOf (s : State) (c : Collective) : Group := s.group c.part c.group

/-! ### Where this package stands in the tree (R338, R339) -/

/-- A position below the node of depth j of which this package is head or standby (R338). -/
def State.myNode (s : State) (g : Group) (j : Nat) : Option Nat :=
  (g.nodes.find? fun n => depthOf n.1 == j && (n.2.1 == s.ownPath || n.2.2 == s.ownPath)).bind fun n =>
    (g.present.find? fun m => prefixOf m.2.1 j == n.1).map fun m => m.2.1

/-- Depths at which this package may run a node stage, as head or as standby. -/
def State.nodeDepths (s : State) (g : Group) : List Nat :=
  (List.range g.depth).filter fun j => decide (1 ≤ j) && (s.myNode g j).any fun pos => g.isStage pos j

/-- Depths at which this package runs a node stage of a collective: where it takes itself for the head, and where a launch has
been sent to it (R338). -/
def State.myStages (s : State) (c : Collective) (g : Group) : List Nat :=
  (s.nodeDepths g).filter fun j =>
    (s.myNode g j).any (fun pos => s.nodeHead g pos j == s.ownPath) || c.launches.any fun e => e.1 / 64 == j

/-- The position a stage of this package stands for: its own for the package stage. -/
def State.stagePos (s : State) (g : Group) (j : Nat) : Nat :=
  if j = 15 then g.pos g.ownRank else (s.myNode g j).getD 0

/-- The stage a stage's result rises to. -/
def Group.parent (g : Group) (pos j : Nat) : Option Nat := g.up pos (if j = 15 then g.depth else j)

/-- Depth of the root's stage; none when one member is present. -/
def Group.rootStage (g : Group) : Option Nat :=
  match g.present.head? with
  | some m => (List.range g.depth).find? fun j => decide (1 ≤ j) && g.isStage m.2.1 j
  | none => none

/-- The root head. -/
def State.rootHead (s : State) (g : Group) : Nat :=
  match g.rootStage, g.present.head? with
  | some j, some m => s.nodeHead g m.2.1 j
  | _, _ => s.ownPath

/-- Present members below a stage. -/
def Group.members_ (g : Group) (pos j : Nat) : Nat := if j = 15 then 1 else (g.below pos j).length

/-- Children of a node, with the members below each. -/
def Group.kidCounts (g : Group) (pos j : Nat) : List (Nat × Nat) :=
  (g.kids pos j).map fun d => (d, ((g.below pos j).filter fun m => digit m.2.1 j == d).length)

/-- Rank of the lowest present member below a stage. -/
def Group.lowest (g : Group) (pos j : Nat) : Nat :=
  if j = 15 then ((g.present.find? fun m => m.2.1 == pos).map fun m => m.1).getD 0x7FF
  else (((g.below pos j).head?).map fun m => m.1).getD 0x7FF

/-- The root rank of a `reduce` or `broadcast` lies below a stage. -/
def Collective.rootBelow (c : Collective) (g : Group) (pos j : Nat) : Bool :=
  if j = 15 then g.pos c.root == pos && g.present.any (fun m => m.1 == c.root)
  else (g.below pos j).any fun m => m.1 == c.root

/-- Chunks a stage sends up in a segment. -/
def Collective.upList (c : Collective) (g : Group) (pos j seg : Nat) : List Nat :=
  if c.op = 4 ∧ !c.rootBelow g pos j then []
  else if (g.parent pos j).isNone then c.downRange (g.members_ pos j) seg
  else c.upRange (g.members_ pos j) seg

/-- Chunks of the result a stage passes down in a segment. -/
def Collective.downList (c : Collective) (g : Group) (pos j seg : Nat) : List Nat :=
  (c.downRange g.present.length seg).filter fun i =>
    if j = 15 then c.receives g (g.lowest pos 15) i
    else (g.below pos j).any fun m => c.receives g m.1 i

/-! ### Packets (R346, R374; Table 10-4) -/

/-- The header of Table 10-4. -/
structure ChunkHead where
  part : Nat
  group : Nat
  mgen : Nat
  cseq : Nat
  depth : Nat
  down : Bool
  chunk : Nat
  rank : Nat
  deriving DecidableEq, Repr

/-- Read the header of a collective packet. -/
def readHead (l : List Byte) : ChunkHead :=
  let h0 := natOf (l.take 8)
  let h1 := natOf ((l.drop 8).take 8)
  ⟨bits h0 7 6, bits h0 5 0, bits h0 23 8, bits h0 39 24, bits h0 43 40, bit h0 44, bits h1 31 0, bits h1 42 32⟩

/-- Class of a collective's packets. -/
def Collective.cls (c : Collective) : Nat := if c.draft then 0 else 3

/-- Answer a packet with `coll_nak`: its header and the reason. -/
def State.nak (s : State) (k : Packet) (reason : Nat) : State :=
  s.sendColl k.part k.src 0x34 k.cls (k.data.take 16 ++ bytesOf 8 reason)

/-- Check a collective packet: its tag and order number (R374) and its generation (R351). None: it has been answered. -/
def State.collCheck (s : State) (k : Packet) : State × Option ChunkHead :=
  let h := readHead k.data
  let own := (s.group h.part h.group).mgen
  if k.tag ≠ 0 ∨ k.ord ≠ 0 then (s.respond k 2 7 [], none)
  else if h.mgen = own then (s, some h)
  else if serialLt 16 own h.mgen then ((s.nak k 3).event 0x0A03 (ofPart h.part) [], none)
  else (s.nak k 2, none)

/-- Key of the collective a packet names. -/
def ChunkHead.key (h : ChunkHead) (draft : Bool) : Nat :=
  if draft then draftKey h.part h.group h.cseq else collKey h.part h.group h.cseq

/-- Find or open the collective a packet names. -/
def State.openColl (s : State) (h : ChunkHead) (draft : Bool) : State :=
  match s.coll? (h.key draft) with
  | some _ => s
  | none => s.setColl (h.key draft)
      { part := h.part, group := h.group, cseq := h.cseq, mgen := h.mgen, draft := draft }

/-- The bytes of a `coll_chunk` packet: header, chunk, trailer with its crc (R346). -/
def chunkPacket (c : Collective) (depth : Nat) (down : Bool) (chunk rank : Nat) (l : List Byte) (taint : Bool) : List Byte :=
  chunkHeader c.part c depth down chunk rank ++ l ++ bytesOf 8 ((crc32c l).toNat + (b2n taint <<< 32)) ++ bytesOf 8 0

/-- Send a chunk to another package, keeping it when the collective is dynamic (R355). -/
def State.sendChunk (s : State) (k dst depth : Nat) (down : Bool) (chunk rank : Nat) (l : List Byte) (taint : Bool) : State :=
  match s.coll? k with
  | none => s
  | some c =>
    let s := s.sendColl c.part dst 0x31 c.cls (chunkPacket c depth down chunk rank l taint)
    if c.draft then s
    else s.setColl k { c with kept := c.kept ++ [⟨dst, depth, down, chunk, rank, l, taint, 0x31, s.now, s.now, false⟩] }

/-- Send a `coll_launch` to another package, keeping it as a chunk is kept. -/
def State.sendLaunch (s : State) (k dst depth : Nat) (down : Bool) (seg rank : Nat) (l : List Byte) : State :=
  match s.coll? k with
  | none => s
  | some c =>
    let s := s.sendColl c.part dst 0x30 c.cls (chunkHeader c.part c depth down seg rank ++ l)
    if c.draft then s
    else s.setColl k { c with kept := c.kept ++ [⟨dst, depth, down, seg, rank, l, false, 0x30, s.now, s.now, false⟩] }

/-- COLL_TAINT (R352): group, cseq, chunk, depth; a draft collective taints its step (R353). -/
def State.taint (s : State) (k chunk depth : Nat) : State :=
  let c := s.collOf k
  let s := (s.odSet 0x7030 0 (s.odGet 0x7030 0 + 1)).event 0x0A02 (ofPart c.part)
    [.half c.group, .half c.cseq, .half chunk, .half depth]
  if c.draft then s.setPart c.part { s.part c.part with tainted := true } else s

/-! ### Claims and admission (R360 to R366, R369; Table 10-6) -/

/-- Bytes a stage claims for a segment. -/
def Collective.claim (c : Collective) (g : Group) (pos j seg : Nat) : Nat :=
  let kids := if j = 15 then 1 else (g.kids pos j).length
  if c.gathers && c.red == 10 then
    (if (g.parent pos j).isNone then g.present.length * c.memberBytes else 8192 * kids)
  else if 3 ≤ c.op then 8192 * kids
  else c.segBytes seg + 8192 * kids

/-- A stage's claim for a segment arrives at its head. One that no pool can hold ends the collective (R366). -/
def State.claimStage (s : State) (k j seg tick : Nat) : State :=
  match s.coll? k with
  | none => s
  | some c =>
    let g := s.groupOf c
    let need := s.claimGranules (c.claim g (s.stagePos g j) j seg)
    if (s.creelPool c.part).length < need then s.nakAll k 5
    else
      let s := s.modStage k seg j fun t => { t with waiting := true, arrival := s.coll.arrivals, tick := tick, need := need }
      { s with coll := { s.coll with arrivals := s.coll.arrivals + 1 } }

/-- A stage claims its first two segments. -/
def State.claimFirst (s : State) (k j tick : Nat) : State :=
  let s := s.claimStage k j 0 tick
  if 1 < (s.collOf k).segs then s.claimStage k j 1 tick else s

/-- The bytes a `coll_launch` carries after its header: parameters, launch tick, what the draws of a `chunk_fold` take beside its
exports (R344), and the exports. -/
def launchBytes (c : Collective) (tick : Nat) (folds : Fm (List (Nat × Nat))) : List Byte :=
  let ex := folds.flatMap fun e => e.2.map fun x => e.1 + (x.2 <<< 16) + (x.1 <<< 32)
  bytesOfWords ([c.op + (c.red <<< 3) + (c.root <<< 8) + (c.size <<< 32), tick,
    c.rowTile + (c.colTile <<< 16) + (b2n c.keySwap <<< 32), c.epoch, ex.length] ++ ex)

/-- Exports a launch carries, by rank. -/
def readFolds (ws : List Nat) : Fm (List (Nat × Nat)) :=
  ws.foldl (fun m w => fmSet m (bits w 15 0) (fmGet m (bits w 15 0) [] ++ [(bits w 63 32, bits w 31 16)])) []

/-- Exports of the members below a stage. -/
def Collective.foldsBelow (c : Collective) (g : Group) (pos j : Nat) : Fm (List (Nat × Nat)) :=
  c.folds.filter fun e => if j = 15 then e.1 == g.lowest pos 15 else (g.below pos j).any fun m => m.1 == e.1

/-- A child of the node of depth j that this package heads has launched (R364): when every present child has,
the stage claims, and its launch goes on up (fuel: depths). -/
def State.launchUp (s : State) (k tick : Nat) : Nat → Nat → Nat → State
  | 0, _, _ => s
  | n + 1, pos, j =>
    match s.coll? k with
    | none => s
    | some c =>
      let g := s.groupOf c
      match g.parent pos j with
      | none => s
      | some u =>
        let head := s.nodeHead g pos u
        if head ≠ s.ownPath then
          s.sendLaunch k head u false 0 (g.lowest pos j) (launchBytes c tick (c.foldsBelow g pos j))
        else
          let l := fmSet c.launches (u * 64 + digit pos u) tick
          let s := s.setColl k { c with launches := l }
          let kids := g.kids pos u
          if kids.all fun d => fmHas l (u * 64 + d) then
            let tick := (kids.map fun d => fmGet l (u * 64 + d) 0).foldl max 0
            let s := if c.draft then s else s.claimFirst k u tick
            s.launchUp k tick n pos u
          else s

/-! ### Chunks up and down (R339, R342, R345, R347) -/

/-- The result chunk of a stage rises: into the parent's stage when this package heads it, else in a packet; at the
root it turns and goes down. -/
def State.emitUp (s : State) (k seg pos j i : Nat) (l : List Byte) (taint : Bool) : State :=
  let c := s.collOf k
  let g := s.groupOf c
  let s := s.modStage k seg j fun t => { t with sent := t.sent ++ [i] }
  match g.parent pos j with
  | none =>
    let s := if taint then s.modColl k fun c => { c with tainted := (c.tainted ++ [i]).eraseDups } else s
    s.modStage k seg j fun t => { t with downIn := fmSet t.downIn i (l, taint) }
  | some u =>
    let head := s.nodeHead g pos u
    if head = s.ownPath then
      s.modStage k seg u fun t => { t with ins := fmSet t.ins (digit pos u * 2 ^ 32 + i) (l, taint) }
    else s.sendChunk k head u false i (g.lowest pos j) l taint

/-- A result chunk descends from a node to its children that receive of it. -/
def State.emitDown (s : State) (k seg pos j i : Nat) (l : List Byte) (taint : Bool) : State :=
  let c := s.collOf k
  let g := s.groupOf c
  let s := s.modStage k seg j fun t => { t with sentDown := t.sentDown ++ [i] }
  (g.kids pos j).foldl (fun s d =>
    let cp := g.childPos pos j d
    if !((g.below pos j).any fun m => digit m.2.1 j == d && c.receives g m.1 i) then s
    else
      let dst := s.childPath g cp j
      if dst = s.ownPath then
        s.modStage k seg ((g.down cp j).getD 15) fun t => { t with downIn := fmSet t.downIn i (l, taint) }
      else s.sendChunk k dst j true i 0x7FF l taint) s

/-- The chunks of a stage's result that can be sent now (R340 to R344): every input has arrived. -/
def State.readyChunks (s : State) (c : Collective) (g : Group) (pos j seg : Nat) : List (Nat × List Byte × Bool) :=
  let st := c.stage seg j
  let counts := g.kidCounts pos j
  let kids := c.kidStreams seg counts
  let root := (g.parent pos j).isNone
  let only := if c.op = 4 then (counts.find? fun d => (g.below pos j).any fun m => digit m.2.1 j == d.1 && m.1 == c.root).map (·.1) else none
  let exports := ((g.below pos j).flatMap fun m => fmGet c.folds m.1 [])
  let base := c.firstChunk (g.members_ pos j) seg
  let whole := !c.gathers || counts.all fun d => (c.upRange d.2 seg).all fun i => (st.chunk d.1 i).isSome
  if !whole then []
  else (c.upList g pos j seg).filterMap fun i =>
    if st.sent.contains i then none
    else
      let r := s.stageChunk c st kids c.gathers root only exports base i
      match r.bytes, r.missing with
      | some l, false => some (i, l, r.taint)
      | _, _ => none

/-- A repeated chunk index among the exports of a `chunk_fold` (R344). -/
def repeated (l : List Nat) : Bool := l.eraseDups.length != l.length

/-- The stage may send: admitted, and granted by its parent (R392). -/
def Collective.maySend (c : Collective) (g : Group) (pos j seg : Nat) : Bool :=
  (c.stage seg j).admitted && match g.parent pos j with
    | some u => c.granted.contains (stageKey seg u)
    | none => true

/-- Read a contribution, line by line: an uncorrectable line gives slub words (08 R277). -/
def State.collRead (s : State) (pa n : Nat) : State × List Byte :=
  (linePieces pa n).foldl (fun (a : State × List Byte) e =>
    match a.1.key? e.2.1 with
    | none => (a.1, a.2 ++ List.replicate e.2.2 0)
    | some k =>
      let (s, bad) := a.1.readCheck k e.2.2
      if bad.isEmpty then (s, a.2 ++ Mem.readN s.mem k e.2.2)
      else (s.dramBad (keyDie k) none [], a.2 ++ slubBytes 0 4 e.1 e.2.2)) (s, [])

/-- Chunk i of this member's contribution, padded (R345). -/
def State.sourceChunk (s : State) (c : Collective) (i : Nat) : State × List Byte :=
  if c.op = 5 then (s, List.replicate 4096 0)
  else
    let n := min 4096 (c.memberBytes - 4096 * i)
    if n = 0 then (s, List.replicate 4096 0)
    else
      let (s, l) := s.collRead (c.src + 4096 * i) n
      (s, l ++ List.replicate (4096 - n) 0)

/-- Chunk of the single export list a lone `chunk_fold` member folds. -/
def State.loneFold (s : State) (c : Collective) (g : Group) (i : Nat) : State × List Byte :=
  let ex := fmGet c.folds g.ownRank []
  let r := ((List.range ex.length).zip ex).foldl (fun (a : State × List ((Nat × Nat) × List Nat)) e =>
    let (s, l) := a.1.sourceChunk c (32 * e.1 + i)
    (s, a.2 ++ [(e.2, wordsOf l)])) (s, [])
  (r.1, r.1.foldChunk c i r.2)

/-- The package stage of a member sends its contribution up. -/
def State.pumpMember (s : State) (k seg : Nat) : State :=
  match s.coll? k with
  | none => s
  | some c =>
    let g := s.groupOf c
    let pos := s.stagePos g 15
    if c.memberDone || !c.launchedHere || !c.maySend g pos 15 seg then s
    else (c.upList g pos 15 seg).foldl (fun s i =>
      if ((s.collOf k).stage seg 15).sent.contains i then s
      else
        let lone := c.gathers && c.red == 10 && (g.parent pos 15).isNone
        let (s, l) := if lone then s.loneFold c g i else s.sourceChunk c i
        s.emitUp k seg pos 15 i l false) s

/-- A node stage of this package sends what it can, up and down. -/
def State.pumpUp (s : State) (k seg j : Nat) : State :=
  match s.coll? k with
  | none => s
  | some c =>
    let g := s.groupOf c
    let pos := s.stagePos g j
    if !c.maySend g pos j seg then s
    else (s.readyChunks c g pos j seg).foldl (fun s r => s.emitUp k seg pos j r.1 r.2.1 r.2.2) s

/-- Pass the result chunks of a node stage on. -/
def State.pumpDown (s : State) (k seg j : Nat) : State :=
  match s.coll? k with
  | none => s
  | some c =>
    let g := s.groupOf c
    let pos := s.stagePos g j
    ((c.stage seg j).downIn.filter fun e => !(c.stage seg j).sentDown.contains e.1).foldl (fun s e =>
      s.emitDown k seg pos j e.1 e.2.1 e.2.2) s

/-! ### Acknowledgements and taint (R354) -/

/-- A `coll_taint` reaches a member: chunk and bitmap of consumers. -/
def Collective.tell (c : Collective) (chunk bitmap : Nat) : Collective :=
  if c.toldTaint.contains chunk then c
  else
    let first := match c.taintFirst with | some x => decide (chunk < x) | none => true
    { c with
      toldTaint := c.toldTaint ++ [chunk], pendTaint := c.pendTaint.filter fun x => x != chunk
      taintFirst := if first then some chunk else c.taintFirst, consumers := if first then bitmap else c.consumers }

/-- `coll_taint` at this member: into its record, which reads TAINTED, with COLL_TAINT. -/
def State.toldTaint (s : State) (h : ChunkHead) (bitmap : Nat) : State :=
  let k := h.key false
  match s.coll? k with
  | some c =>
    let s := s.setColl k (c.tell h.chunk bitmap)
    let s := s.taint k h.chunk h.depth
    if c.memberDone && c.launchedHere then s.writeRecord (c.tell h.chunk bitmap) 2 0x7FF else s
  | none =>
    match fmGet? s.coll.past ((h.part * 64 + h.group) * 8 + h.cseq % 8) with
    | some c =>
      if c.cseq ≠ h.cseq then s
      else
        let s := (s.odSet 0x7030 0 (s.odGet 0x7030 0 + 1)).event 0x0A02 (ofPart c.part)
          [.half c.group, .half c.cseq, .half h.chunk, .half h.depth]
        s.writeRecord (c.tell h.chunk bitmap) 2 0x7FF
    | none => s

/-- An acknowledgement reaches the root head: when the last of a tainted chunk has come, `coll_taint` goes to every
present member. -/
def State.acked (s : State) (k chunk rank : Nat) (good wrote : Bool) : State :=
  match s.coll? k with
  | none => s
  | some c =>
    let g := s.groupOf c
    let l := (fmGet c.acks chunk []).filter (fun e => e.1 != rank) ++ [(rank, wrote)]
    let want := (g.present.filter fun m => c.receives g m.1 chunk).length
    let tainted := if good then c.tainted else (c.tainted ++ [chunk]).eraseDups
    if l.length < want then s.setColl k { c with acks := fmSet c.acks chunk l, tainted := tainted }
    else
      let s := s.setColl k { c with acks := fmDel c.acks chunk, tainted := tainted, acked := c.acked + 1 }
      if !tainted.contains chunk then s
      else
        let bitmap := (l.filter fun e => e.2).foldl (fun m e => m + 2 ^ e.1) 0
        let head := chunkHeader c.part c ((g.rootStage).getD 15) true chunk 0x7FF
        g.present.foldl (fun s m =>
          if m.2.2 = s.ownPath then s.toldTaint (readHead head) bitmap
          else s.sendColl c.part m.2.2 0x33 c.cls (head ++ bytesOf 128 bitmap)) s

/-- A member acknowledges a result chunk: whether it was good, whether bytes of it were written. -/
def State.ackChunk (s : State) (k chunk : Nat) (good wrote : Bool) : State :=
  let c := s.collOf k
  let g := s.groupOf c
  if s.rootHead g = s.ownPath then s.acked k chunk g.ownRank good wrote
  else s.sendColl c.part (s.rootHead g) 0x32 c.cls
    (chunkHeader c.part c 15 false chunk g.ownRank ++ bytesOf 8 (b2n good + 2 * b2n wrote))

/-- A result chunk is delivered at this member (R342, R347). -/
def State.deliverChunk (s : State) (k seg i : Nat) (l : List Byte) (taint : Bool) : State :=
  let c := s.collOf k
  let g := s.groupOf c
  let ps := c.pieces g g.ownRank i
  let s := ps.foldl (fun s e => s.storePa (c.dst + e.1) ((l.drop e.2.1).take e.2.2)) s
  let s := s.modStage k seg 15 fun t => { t with sentDown := t.sentDown ++ [i] }
  let s := if taint ∧ (g.rootStage).isSome then s.modColl k fun c => { c with pendTaint := (c.pendTaint ++ [i]).eraseDups } else s
  s.ackChunk k i (!taint) (!ps.isEmpty)

/-- The segments before one are delivered at this member, so that its own results may be (R369). -/
def Collective.deliveredTo (c : Collective) (g : Group) (pos seg : Nat) : Bool :=
  (List.range seg).all fun n => c.finished.contains (stageKey n 15) ||
    (c.downList g pos 15 n).all fun i => (c.stage n 15).sentDown.contains i

/-- Deliver the result chunks that have reached the package stage, in segment order. -/
def State.pumpDeliver (s : State) (k seg : Nat) : State :=
  match s.coll? k with
  | none => s
  | some c =>
    let g := s.groupOf c
    if !c.launchedHere || c.memberDone || !c.deliveredTo g (s.stagePos g 15) seg then s
    else ((c.stage seg 15).downIn.filter fun e => !(c.stage seg 15).sentDown.contains e.1).foldl (fun s e =>
      s.deliverChunk k seg e.1 e.2.1 e.2.2) s

/-! ### The end of stages, members and collectives (R362, R369, R371) -/

/-- A stage of a segment has sent and passed on all it has to. -/
def Collective.stageDone (c : Collective) (g : Group) (pos j seg : Nat) : Bool :=
  let t := c.stage seg j
  t.admitted && (c.upList g pos j seg).all (fun i => t.sent.contains i) &&
  (c.downList g pos j seg).all fun i => t.sentDown.contains i

/-- Release a stage's claim when its work on a segment is done; the next segment but one then claims. -/
def State.endStage (s : State) (k seg j : Nat) : State :=
  match s.coll? k with
  | none => s
  | some c =>
    let g := s.groupOf c
    if (c.stage? seg j).isNone || !c.stageDone g (s.stagePos g j) j seg then s
    else
      let t := c.stage seg j
      let s := s.setColl k { c with stages := fmDel c.stages (stageKey seg j), finished := c.finished ++ [stageKey seg j] }
      let s := s.zeroGranules t.granules
      if seg + 2 < c.segs then s.claimStage k j (seg + 2) t.tick else s

/-- Every segment of a stage is done. -/
def Collective.allDone (c : Collective) (j : Nat) : Bool := (List.range c.segs).all fun seg => c.finished.contains (stageKey seg j)

/-- Chunks of the whole result that the root head sees acknowledged. -/
def Collective.ackTotal (c : Collective) (g : Group) : Nat :=
  ((List.range c.segs).map fun seg =>
    ((c.downRange g.present.length seg).filter fun i => g.present.any fun m => c.receives g m.1 i).length).sum

/-- A member completes when its package stage is done and no taint is pending; the collective is forgotten when
every stage of this package is done. -/
def State.endColl (s : State) (k : Nat) : State :=
  match s.coll? k with
  | none => s
  | some c =>
    let g := s.groupOf c
    let s :=
      if c.launchedHere && !c.memberDone && c.allDone 15 && c.pendTaint.isEmpty then
        (s.setColl k { c with memberDone := true }).writeRecord c (if c.taintFirst.isSome then 2 else 1) 0x7FF
      else s
    match s.coll? k with
    | none => s
    | some c =>
      let js := s.myStages c g
      let heads := js.all fun j => c.allDone j
      let acks := s.rootHead g != s.ownPath || decide (c.ackTotal g ≤ c.acked)
      let mine := c.memberDone || (g.ownRank == 0x7FF && !js.isEmpty)
      if mine && heads && acks then { s with coll := { s.coll with colls := fmDel s.coll.colls k } } else s

/-- Bring a dynamic collective as far as it goes: package stage, nodes upward, nodes downward, delivery, ends. -/
def State.pump (s : State) (k : Nat) : State :=
  match s.coll? k with
  | none => s
  | some c =>
    let js := s.myStages c (s.groupOf c)
    let segs := (c.stages.map fun e => e.1 / 16).eraseDups
    let s := segs.foldl (fun s seg =>
      let s := js.reverse.foldl (fun s j => s.pumpUp k seg j) (s.pumpMember k seg)
      let s := js.foldl (fun s j => s.pumpDown k seg j) s
      s.pumpDeliver k seg) s
    let s := segs.foldl (fun s seg => (js ++ [15]).foldl (fun s j => s.endStage k seg j) s) s
    s.endColl k

/-! ### Admission rounds (R364, R365) -/

/-- A waiting claim: collective, stage, and the parts of its key. -/
structure Claim where
  key : Nat
  stage : Nat
  part : Nat
  need : Nat
  order : Nat
  deriving DecidableEq, Repr

/-- Claims that wait, in order: the key (launch tick, part, group, cseq, segment) in strict mode, else by arrival. -/
def State.claims (s : State) : List Claim :=
  let strict := s.odGet 0x4002 0 = 1
  sortBy Claim.order (s.coll.colls.flatMap fun e =>
    (e.2.stages.filter fun t => t.2.waiting && !t.2.admitted).map fun t =>
      { key := e.1, stage := t.1, part := e.2.part, need := t.2.need
        order := if strict then ((t.2.tick * 4 + e.2.part) * 64 + e.2.group) * 2 ^ 48 + e.2.cseq * 2 ^ 32 + t.1
          else t.2.arrival })

/-- A claim is granted: its granules, and `coll_launch` to every present child (R392). -/
def State.grant (s : State) (x : Claim) : State :=
  let j := x.stage % 16
  let seg := x.stage / 16
  let got := (s.creelFree x.part).take x.need
  let s := s.modStage x.key seg j fun t => { t with waiting := false, admitted := true, granules := got }
  let c := s.collOf x.key
  let g := s.groupOf c
  if j = 15 then s
  else
    let pos := s.stagePos g j
    (g.kids pos j).foldl (fun s d =>
      let dst := s.childPath g (g.childPos pos j d) j
      if dst = s.ownPath then s.modColl x.key fun c => { c with granted := c.granted ++ [x.stage] }
      else s.sendLaunch x.key dst j true seg 0x7FF (launchBytes c (c.stage seg j).tick [])) s

/-- `admit_round` (R365): in order, no claim of a partition passes one that does not fit. -/
def State.admitRound (s : State) : State :=
  ((s.claims.foldl (fun (a : State × List Nat) x =>
    if a.2.contains x.part then a
    else if x.need ≤ (a.1.creelFree x.part).length then (a.1.grant x, a.2)
    else (a.1, a.2 ++ [x.part])) (s, []))).1

/-! ### Launch (R370) -/

/-- Operation, operator and size agree (R342, R343): bytes of a contribution, members of the group. -/
def collValid (op red size count : Nat) : Bool :=
  decide (op ≤ 5) && decide (red ≤ 10) &&
  (op == 5 || (decide (3 ≤ op) == (red == 0))) &&
  (op == 5 || size % (if red = 10 then exportSize else redBytes red) == 0) &&
  (op != 2 || size % (count * redBytes red) == 0)

/-- A descriptor of Table 10-7 with its reserved bits 0. -/
def descValid (w : List Nat) : Bool :=
  let g := fun i => nth w i 0
  bits (g 0) 15 13 == 0 && bits (g 0) 31 26 == 0 && bits (g 0) 63 48 == 0 && bits (g 1) 63 53 == 0 &&
  bits (g 2) 63 48 == 0 && bits (g 3) 63 48 == 0 && bits (g 4) 63 48 == 0 && bits (g 5) 47 33 == 0 &&
  bits (g 6) 63 32 == 0 && bits (g 7) 63 48 == 0

/-- A dynamic descriptor as a collective of partition p. -/
def readDesc (p : Nat) (w : List Nat) : Collective :=
  let g := fun i => nth w i 0
  { part := p, group := bits (g 0) 5 0, op := bits (g 0) 8 6, red := bits (g 0) 12 9, root := bits (g 0) 25 16
    size := bits (g 1) 31 0, slotMask := bits (g 0) 47 32, src := bits (g 2) 47 0, dst := bits (g 3) 47 0
    cmpl := bits (g 4) 47 0, rowTile := bits (g 5) 15 0, colTile := bits (g 5) 31 16, keySwap := bit (g 5) 32
    tensor := bits (g 5) 63 48, chunkBase := bits (g 6) 31 0, epoch := bits (g 7) 47 0 }

/-- Bytes of a member's result in its destination. -/
def Collective.destBytes (c : Collective) (g : Group) : Nat :=
  match c.op with
  | 1 => if g.ownRank = c.root then (if c.red = 10 then exportSize else c.size) else 0
  | 2 => (c.shard g 1).1
  | 3 => g.members.length * c.size
  | 5 => 0
  | _ => if c.red = 10 then exportSize else c.size

/-- The dynamic descriptor and the buffers it names are valid (R343, R370). -/
def State.dynValid (s : State) (c : Collective) (w : List Nat) : Bool :=
  let g := s.groupOf c
  descValid w && c.slotMask == 0 && bits (nth w 1 0) 52 32 == 0 && collValid c.op c.red c.size (max 1 g.members.length) &&
  (c.op == 5 || s.inRegions c.part c.src c.size) && s.inRegions c.part c.dst (c.destBytes g) &&
  c.cmpl % 256 == 0 && s.inRegions c.part c.cmpl 256

/-- Two launches of one collective agree (R370). -/
def Collective.agrees (a b : Collective) : Bool := a.op == b.op && a.red == b.red && a.size == b.size && a.root == b.root

/-- A head finds members that launched with differing parameters: MISMATCH on every member. -/
def State.mismatch (s : State) (k : Nat) : State :=
  let p := (s.collOf k).part
  (s.nakAll k 0).event 0x0A07 (ofPart p) []

/-- Exports of this member's `chunk_fold` contribution (R344). -/
def Collective.ownExports (c : Collective) : List (Nat × Nat) :=
  if c.gathers && c.red == 10 then (List.range (c.size / exportSize)).map fun i => (c.chunkBase + i, c.tensor) else []

/-- Launch a dynamic collective of partition p by its descriptor words: the value the swap returns. -/
def State.launchColl (s : State) (p : Nat) (w : List Nat) : State × Nat :=
  let c := readDesc p w
  let g := s.groupOf c
  let mine := s.coll.colls.filter fun e => e.2.part == p && e.2.group == c.group && !e.2.draft && e.2.launchedHere && !e.2.memberDone
  if !s.dynValid c w then (s, 1)
  else if !g.formed ∨ g.ownRank = 0x7FF then (s, 3)
  else if 8 ≤ mine.length then (s, 2)
  else
    let n := s.odGet (0x7040 + p) (c.group + 1)
    let s := s.odSet (0x7040 + p) (c.group + 1) ((n + 1) % 65536)
    let k := collKey p c.group n
    let old := s.coll? k
    let c := { c with
      cseq := n, mgen := g.mgen, known := true, launchedHere := true, launchTick := s.cad.tick.toNat
      launches := ((old.map fun o => o.launches).getD []), stages := ((old.map fun o => o.stages).getD [])
      granted := ((old.map fun o => o.granted).getD []), finished := ((old.map fun o => o.finished).getD [])
      folds := fmSet ((old.map fun o => o.folds).getD []) g.ownRank c.ownExports }
    let bad := match old with | some o => o.known && !o.agrees c | none => false
    let s := s.setColl k c
    if bad then (s.mismatch k, 0)
    else if (c.op = 1 ∨ c.op = 4) ∧ !g.present.any (fun m => m.1 == c.root) then (s.completeColl k 4 0x7FF, 0)
    else
      let s := s.claimFirst k 15 c.launchTick
      let s := s.launchUp k c.launchTick 9 (g.pos g.ownRank) 15
      (s.pump k, 0)

/-! ### Packets that arrive (R338, R351, R354, R392) -/

/-- A collective with the parameters a launch carries. -/
def Collective.learn (c : Collective) (ws : List Nat) : Collective :=
  let w := nth ws 0 0
  let k := nth ws 2 0
  if c.known then c
  else { c with
    known := true, op := bits w 2 0, red := bits w 6 3, root := bits w 17 8, size := bits w 63 32
    rowTile := bits k 15 0, colTile := bits k 31 16, keySwap := bit k 32, epoch := nth ws 3 0 }

/-- The stage of this package that a chunk from the node of depth j enters on its way down. -/
def State.stageBelow (s : State) (g : Group) (j : Nat) : Nat :=
  ((s.nodeDepths g).find? fun k => decide (j < k) && g.up (s.stagePos g k) k == some j).getD 15

/-- What a receiver finds at a chunk's trailer (R346, R347, R352): its bytes and whether it is tainted. -/
def State.checkChunk (s : State) (key : Nat) (h : ChunkHead) (l : List Byte) (cr : CreelCheck) : State × List Byte × Bool :=
  let body := (l.drop 16).take 4096
  let t0 := natOf ((l.drop 4112).take 8)
  let s := if cr = .corrected then s.event 0x0A01 (ofPart h.part) [] else s
  let bad := (crc32c body).toNat != bits t0 31 0 || bit t0 32 || cr == .uncorrectable
  (if bad then s.taint key h.chunk h.depth else s, body, bad)

/-- Key of a chunk that came from child d of the node of a depth, or down from that node (d = 0). -/
def heardKey (depth : Nat) (down : Bool) (d chunk : Nat) : Nat := ((depth * 2 + b2n down) * 64 + d) * 2 ^ 32 + chunk

/-- A chunk came now. -/
def State.hear (s : State) (k key : Nat) : State := s.modColl k fun c => { c with heard := fmSet c.heard key s.now }

/-- A chunk has not come 4 µs after the chunk before it from the same stage did (R355). -/
def Collective.overdue (c : Collective) (key now : Nat) : Bool :=
  !fmHas c.heard key &&
  (c.heard.filter fun e => e.1 / 2 ^ 32 == key / 2 ^ 32 && decide (e.1 < key)).getLast?.any fun e =>
    decide (e.2 + 4 * unitsPerUs ≤ now)

/-- This package waits for a chunk of a peer, to or from the node of a depth, and it is overdue (R355). -/
def State.asksFor (s : State) (c : Collective) (peer depth : Nat) (down : Bool) (chunk : Nat) : Bool :=
  let g := s.groupOf c
  if down then
    let j := s.stageBelow g depth
    (c.downList g (s.stagePos g j) j (c.segOf g.present.length chunk)).contains chunk &&
      c.overdue (heardKey depth true 0 chunk) s.now
  else match s.myNode g depth with
    | none => false
    | some pos => (g.kidCounts pos depth).any fun e =>
        s.childPath g (g.childPos pos depth e.1) depth == peer &&
        (c.upRange e.2 (c.segOf e.2 chunk)).contains chunk && c.overdue (heardKey depth false e.1 chunk) s.now

/-- A dynamic chunk enters a stage of this package; the collective goes on. A chunk before its stage's grant is
discarded and asked for again (R392). -/
def State.dynChunk (s : State) (k : Packet) (h : ChunkHead) (cr : CreelCheck) : State :=
  let key := h.key false
  let g := s.group h.part h.group
  match s.coll? key with
  | none => if h.down then s else match s.myNode g h.depth with | none => s.nak k 1 | some _ => s.nak k 4
  | some c =>
    if h.down then
      let j := s.stageBelow g h.depth
      let seg := c.segOf g.present.length h.chunk
      if c.finished.contains (stageKey seg j) ∨ (c.stage seg j).sentDown.contains h.chunk then s
      else
        let (s, l, bad) := (s.hear key (heardKey h.depth true 0 h.chunk)).checkChunk key h k.data cr
        (s.modStage key seg j fun t => { t with downIn := fmSet t.downIn h.chunk (l, bad) }).pump key
    else match s.myNode g h.depth with
      | none => s.nak k 1
      | some pos =>
        let d := digit (g.pos h.rank) h.depth
        let n := ((g.kidCounts pos h.depth).find? fun e => e.1 == d).map (·.2)
        let seg := c.segOf (n.getD 1) h.chunk
        if c.finished.contains (stageKey seg h.depth) then s
        else if !(c.stage seg h.depth).admitted then s.nak k 4
        else
          let (s, l, bad) := (s.hear key (heardKey h.depth false d h.chunk)).checkChunk key h k.data cr
          let all := fun (s : State) => (s.groupOf c).present.flatMap fun m => (fmGet (s.collOf key).folds m.1 []).map (·.1)
          if c.gathers && c.red == 10 && (g.parent pos h.depth).isNone && repeated (all s) then s.mismatch key
          else (s.modStage key seg h.depth fun t => { t with ins := fmSet t.ins (d * 2 ^ 32 + h.chunk) (l, bad) }).pump key

/-- A draft chunk waits at its stage for the sequencer (R584). -/
def State.draftChunk (s : State) (k : Packet) (h : ChunkHead) (cr : CreelCheck) : State :=
  let key := h.key true
  let g := s.group h.part h.group
  let s := s.openColl h true
  if h.down then
    let (s, l, bad) := s.checkChunk key h k.data cr
    s.modStage key 0 (s.stageBelow g h.depth) fun t => { t with downIn := fmSet t.downIn h.chunk (l, bad) }
  else match s.myNode g h.depth with
    | none => s.nak k 1
    | some _ =>
      let (s, l, bad) := s.checkChunk key h k.data cr
      let d := digit (g.pos h.rank) h.depth
      s.modStage key 0 h.depth fun t => { t with ins := fmSet t.ins (d * 2 ^ 32 + h.chunk) (l, bad) }

/-- Send again what is kept and fits (R351, R355); the sending awaits its answer. -/
def State.resend (s : State) (key : Nat) (fits : Kept → Bool) : State :=
  let c := s.collOf key
  let s := (c.kept.filter fits).foldl (fun s x =>
    s.sendColl c.part x.dst x.op c.cls
      (if x.op = 0x30 then chunkHeader c.part c x.depth x.down x.chunk x.rank ++ x.bytes
       else chunkPacket c x.depth x.down x.chunk x.rank x.bytes x.taint)) s
  s.modColl key fun c => { c with kept := c.kept.map fun x => if fits x then { x with last := s.now, ahead := false } else x }

/-- A kept packet is the one a header from or to a package names. -/
def Kept.is (x : Kept) (dst depth : Nat) (down : Bool) (chunk : Nat) : Bool :=
  x.dst == dst && x.depth == depth && x.down == down && x.chunk == chunk

end Sys2Proof.Machine
end

