-- ==== Sys2Proof/Machine/DraftColl.lean ====
section
/-! DEFINITION. Machine/DraftColl.lean: draft collectives (10 R372, R373, R584), the commit vote's packets (10 R356 to
R358), and the re-forming of groups (10 R335 to R337, R349, R350). -/

namespace Sys2Proof.Machine

/-! ### Draft collectives (R343, R352, R372, R373) -/

/-- Draft collectives of partition p that this package has begun in the step. -/
def State.draftColls (s : State) (p : Nat) : List (Nat × Collective) :=
  s.coll.colls.filter fun e => e.2.draft && e.2.part == p && e.2.launchedHere

/-- Begin the next draft collective of a group from its descriptor; chunks that came early stay. -/
def State.beginDraftColl (s : State) (p off bytes : Nat) (w : List Nat) : State × Nat :=
  let d := readDesc p w
  let n := ((s.draftColls p).filter fun e => e.2.group == d.group).length
  let k := draftKey p d.group n
  let old := s.coll? k
  (s.setColl k { d with
    cseq := n, mgen := (s.group p d.group).mgen, size := bytes, draft := true, desc := off, known := true, launchedHere := true
    launches := ((old.map fun o => o.launches).getD []), stages := ((old.map fun o => o.stages).getD [])
    folds := ((old.map fun o => o.folds).getD []) }, k)

/-- The descriptor as words, in the shared bobbin of a slot. -/
def State.descAt (s : State) (n off : Nat) : List Nat := s.bobbinWords n off 8

/-- The draft collective a slot's `f_coll` joins: one begun from its descriptor that the slot is not in yet. -/
def State.joinColl (s : State) (p n off bytes : Nat) (w : List Nat) : State × Nat :=
  match (s.draftColls p).find? fun e => e.2.desc == off && !fmHas e.2.outs n with
  | some e => (s, e.1)
  | none => s.beginDraftColl p off bytes w

/-- Tile formats an operator takes (R343). -/
def feeds (red fmt : Nat) : Bool :=
  match red with
  | 0 => true
  | 1 | 3 | 4 | 5 | 6 => fmt == 5
  | 2 => fmt == 6
  | _ => fmt == 7

/-- A draft descriptor is valid for a slot and its input format (R343, R361, R372). -/
def State.draftDescOk (s : State) (p n fmt bytes : Nat) (w : List Nat) : Bool :=
  let c := readDesc p w
  let w1 := nth w 1 0
  let first := bits w1 41 32
  let count := bits w1 52 42
  let member := { c with draft := true, size := bytes : Collective }.memberBytes
  descValid w && bit c.slotMask n && (c.op == 5 || feeds c.red fmt) &&
  collValid c.op c.red (if c.red = 10 then bytes else member) (max 1 (s.groupOf c).members.length) &&
  decide (1 ≤ count) && decide (s.creelBase p ≤ first) && decide (first + count ≤ s.creelBase p + s.odGet (0x3020 + p) 4)

/-- `f_coll` starts (R372, R373): a slot contributes the tiles of its input roving. -/
def State.startColl (s : State) (c : StCmd) : State :=
  let off := c.f 26 0
  let out := c.f 38 27
  match s.roving c.p c.roving, s.roving c.p out with
  | some r, some o =>
    if !r.endsAt c.n c.st || !o.beginsAt c.n c.st || r.remotePath != 0 || o.remotePath != 0 || off % 64 != 0 then s.atInvalid c
    else match s.c0Read c.p c.n c.st (sramBase c.n + sharedOff + off) 64 (s.cmdPlace c.p c.tick c.pos) with
      | (s, none) => s
      | (s, some l) =>
        let w := wordsOf l
        let d := readDesc c.p w
        let tiles := if d.op = 5 then 0 else d.size
        let bytes := tiles * (if d.red = 0 then recordBytes r.format else payloadBytes r.format)
        if !s.draftDescOk c.p c.n r.format bytes w then s.atInvalid c
        else
          let per := transferTime 4 0 r.format
          let (s, k) := (s.occupy c (tiles * per)).joinColl c.p c.n off bytes w
          (s.modColl k fun x => { x with outs := fmSet x.outs c.n out, size := bytes }).addTake c c.roving tiles per [k]
  | _, _ => s.atInvalid c

/-- `f_vote` starts (R356, R358, R372): the lowest slot of the draft, once per step. -/
def State.startVote (s : State) (c : StCmd) : State :=
  let x := s.part c.p
  match x.draft with
  | none => s
  | some d =>
    if d.slots.head? ≠ some c.n ∨ x.voteSent then s.atInvalid c
    else
      let s := s.occupy c 1
      if d.packages = 1 then s.setPart c.p { s.part c.p with voteSent := true }
      else s.sendVote c.p (!x.tainted)

/-! ### The fabric sequencers (R584) -/

/-- Contribution bytes of a slot so far, and whether all of it is there. -/
def State.slotBytes (s : State) (k : Nat) (c : Collective) (n : Nat) : List Byte × Bool :=
  match fmGet? c.parts n with
  | some l => (l, true)
  | none =>
    match (s.station n 0x4000).takes.find? fun r => nth r.desc 0 0 == k with
    | some r => (contribution c.red r.tiles, false)
    | none => ([], false)

/-- The package stage with the slots' chunks that are there (R339): slots are its children. -/
def State.packageStage (s : State) (k : Nat) (c : Collective) : Stage :=
  let pad := fun (l : List Byte) => l ++ List.replicate (4096 - l.length) 0
  c.slots.foldl (fun (t : Stage) n =>
    if c.op = 5 then (if fmHas c.outs n then { t with ins := fmSet t.ins (n * 2 ^ 32) (pad [], false) } else t)
    else
      let (l, whole) := s.slotBytes k c n
      let full := if whole then chunkCount l.length else l.length / 4096
      (List.range full).foldl (fun (t : Stage) j =>
        { t with ins := fmSet t.ins (n * 2 ^ 32 + j) (pad ((l.drop (4096 * j)).take 4096), false) }) t) {}

/-- Exports of this member's contribution, slot by slot. -/
def Collective.memberFolds (c : Collective) : List (Nat × Nat) := c.slots.flatMap fun n => fmGet c.slotFolds n []

/-- Send the collective's `coll_launch` up, once, with the package stage's first chunk. -/
def State.draftLaunch (s : State) (k : Nat) : State :=
  match s.coll? k with
  | none => s
  | some c =>
    let g := s.groupOf c
    if fmHas c.launches (15 * 64) ∨ (c.red = 10 ∧ !c.slots.all fun n => fmHas c.parts n) then s
    else
      let s := s.setColl k { c with
        launches := fmSet c.launches (15 * 64) 0, folds := fmSet c.folds g.ownRank c.memberFolds }
      s.launchUp k s.cad.tick.toNat 9 (g.pos g.ownRank) 15

/-- What a stage of a draft collective makes of a chunk (R340, R344). -/
def State.draftStageChunk (s : State) (k : Nat) (c : Collective) (g : Group) (j i : Nat) : StageOut :=
  let pos := s.stagePos g j
  let root := (g.parent pos j).isNone
  if j = 15 then
    let cat := (c.red == 0 || c.red == 10) && c.op != 5
    s.stageChunk c (s.packageStage k c) (c.slots.map fun n => (n, (if c.op = 5 then 64 else c.size), 0)) cat root none
      (fmGet c.folds g.ownRank c.memberFolds) 0 i
  else
    let counts := g.kidCounts pos j
    let only := if c.op = 4 then (counts.find? fun d => (g.below pos j).any fun m => digit m.2.1 j == d.1 && m.1 == c.root).map (·.1) else none
    s.stageChunk c (c.stage 0 j) (c.kidStreams 0 counts) c.gathers root only
      ((g.below pos j).flatMap fun m => fmGet c.folds m.1 []) 0 i

/-- A repeated chunk index among the exports the root of a draft `chunk_fold` folds (R344). -/
def State.draftRepeated (s : State) (c : Collective) (g : Group) : Bool :=
  c.gathers && c.red == 10 && repeated ((g.present.flatMap fun m => fmGet c.folds m.1 []).map (·.1)) && (s.rootHead g == s.ownPath)

/-- `q_chunk` upward: the stage's inputs that have arrived are combined and sent on (R352). -/
def State.seqUp (s : State) (k j i : Nat) : State :=
  let s := if j = 15 then s.draftLaunch k else s
  let c := s.collOf k
  let g := s.groupOf c
  let pos := s.stagePos g j
  if c.op = 4 ∧ !c.rootBelow g pos j ∧ g.formed then s
  else
    let r := s.draftStageChunk k c g j i
    let s := if r.missing then s.taint k i j else s
    let s := if s.draftRepeated c g then
        (s.event 0x0A07 (ofPart c.part) []).setPart c.part { s.part c.part with tainted := true }
      else s
    match r.bytes with
    | some l => ({ s with freeCtr := if r.missing then s.freeCtr + 131072 else s.freeCtr }).emitUp k 0 pos j i l (r.taint || r.missing)
    | none =>
      let (l, s) := s.freeBytes 4096
      s.emitUp k 0 pos j i l true

/-- The chunk a stage passes down: what has arrived, or free bytes with a taint (R352). -/
def State.seqInput (s : State) (k j i : Nat) : State × List Byte × Bool :=
  match fmGet? ((s.collOf k).stage 0 j).downIn i with
  | some (l, t) => (s, l, t)
  | none =>
    let s := s.taint k i j
    let (l, s) := s.freeBytes 4096
    (s, l, true)

/-- First byte of the result and bytes that a member's slots receive (Table 10-2). -/
def Collective.memberResult (c : Collective) (g : Group) : Nat × Nat :=
  let m := max 1 g.present.length
  if c.op = 5 ∨ (c.op = 1 ∧ g.formed ∧ g.ownRank ≠ c.root) then (0, 0)
  else if c.op = 2 then
    let h := c.shard g g.ownRank
    (h.1, h.2 - h.1)
  else (0, c.resultBytes m 0)

/-- Result tiles of one slot that are whole leave on its output roving (R373). -/
def State.emitTiles (s : State) (k n : Nat) : Nat → State
  | 0 => s
  | fuel + 1 =>
    let c := s.collOf k
    let g := s.groupOf c
    match fmGet? c.outs n with
    | none => s
    | some o =>
      match s.roving c.part o with
      | none => s
      | some r =>
        let i := fmGet c.emitted n 0
        let size := if c.red = 0 then recordBytes r.format else payloadBytes r.format
        let (lo, len) := c.memberResult g
        let a := lo + i * size
        let st := c.stage 0 15
        let cs := (List.range ((a + size - 1) / 4096 - a / 4096 + 1)).map fun j => a / 4096 + j
        if len < (i + 1) * size ∨ r.count ≤ i ∨ !cs.all (fun j => st.sentDown.contains j) then s
        else
          let bytes := ((cs.flatMap fun j => (fmGet st.downIn j ([], false)).1).drop (a % 4096)).take size
          let x := if c.red = 0 then tileOf r.format bytes else ⟨r.format, bytes, List.replicate 1024 0, 0⟩
          let flag := recomputedFlag r.format x.payload x.band (s.histBase n r.tensor) (r.firstIndex + i) r.tensor
          let s := s.modColl k fun c => { c with emitted := fmSet c.emitted n (i + 1) }
          (s.produce c.part o s.now { x with flag := flag }).emitTiles k n fuel

/-- `q_chunk` downward: passed to the node's children, or delivered to the member's slots. -/
def State.seqDown (s : State) (k j i : Nat) : State :=
  let (s, l, taint) := s.seqInput k j i
  let c := s.collOf k
  let g := s.groupOf c
  if j = 15 then
    let s := s.modStage k 0 15 fun t => { t with downIn := fmSet t.downIn i (l, taint), sentDown := t.sentDown ++ [i] }
    c.slots.foldl (fun s n => s.emitTiles k n 65536) s
  else s.emitDown k 0 (s.stagePos g j) j i l taint

/-- The collective a sequencer entry names: the last begun from its descriptor, else it begins now without inputs. -/
def State.seqColl (s : State) (p off : Nat) (d : Draft) : State × Nat :=
  match ((s.draftColls p).filter fun e => e.2.desc == off).getLast? with
  | some e => (s, e.1)
  | none =>
    let w := s.descAt (d.slots.headD 0) off
    s.beginDraftColl p off 0 w

/-- The sequencer entry e of fabric die f in the running draft tick, when its cycle has come. -/
def State.seqEntry (s : State) (p f e op : Nat) : Option (Nat × Draft) :=
  let x := s.part p
  match x.draft with
  | none => none
  | some d =>
    if !x.issuing || x.stepOver || s.cfg.lost.contains (22 + f) then none
    else match (d.sequence x.variant f x.stepTick)[e]? with
      | none => none
      | some w =>
        if bits w 127 120 ≠ op ∨ s.now < x.tickBegan + bits w 31 0 * s.cycleUnits then none else some (w, d)

/-! ### The commit vote's packets (R356, R357, R374) -/

/-- Vote words of a packet. -/
def votePacket (k : Packet) : List Nat := (wordsOf k.data).take 3

/-! ### Re-forming a group (R335 to R337, R349, R350) -/

/-- A member entry: position, absent, physical path; none when a reserved bit is set. -/
def memberEntry (l : List Byte) : Option (Nat × Bool × Nat) :=
  let w0 := natOf (l.take 8)
  let w1 := natOf ((l.drop 8).take 8)
  if 2 ^ 49 ≤ w0 ∨ 2 ^ 48 ≤ w1 then none else some (bits w0 47 0, bit w0 48, w1)

/-- A node entry: prefix, head, standby. -/
def nodeEntry (l : List Byte) : Option (Nat × Nat × Nat) :=
  let w := wordsOf l
  if (w.any fun v => decide (2 ^ 48 ≤ v)) || nth w 3 0 != 0 then none else some (nth w 0 0, nth w 1 0, nth w 2 0)

/-- All entries, when every one is well formed. -/
def allSome {α : Type} (l : List (Option α)) : Option (List α) :=
  l.foldr (fun x r => match x, r with | some a, some l => some (a :: l) | _, _ => none) (some [])

/-- Strictly ascending. -/
def ascending : List Nat → Bool
  | a :: b :: l => decide (a < b) && ascending (b :: l)
  | _ => true

/-- A member list is valid (R337). -/
def membersValid (l : List (Nat × Bool × Nat)) : Bool :=
  let ps := l.map fun m => m.1
  let d := depthOf (ps.headD 0)
  ascending ps && decide (2 ≤ d) && ps.all (fun p => depthOf p == d && pathNames p && digit p 0 == digit (ps.headD 0) 0) &&
  !repeated (l.map fun m => m.2.2)

/-- The prefixes the node table must hold (R337). -/
def nodesWanted (ps : List Nat) : List Nat :=
  let d := depthOf (ps.headD 0)
  let root := ((List.range (d + 1)).reverse.find? fun j => ps.all fun p => prefixOf p j == prefixOf (ps.headD 0) j).getD 0
  (((List.range d).filter fun j => decide (root ≤ j)).flatMap fun j => ps.map fun p => prefixOf p j).eraseDups

/-- A node table holds exactly the nodes of the tree, each once (R337). -/
def nodesValid (ps : List Nat) (l : List (Nat × Nat × Nat)) : Bool :=
  let have_ := l.map fun n => n.1
  let want := nodesWanted ps
  !repeated have_ && have_.length == want.length && have_.all fun x => want.contains x

/-- The group in the form a re-form gives it, or the code of its failure (Table 10-5). -/
def State.reform (s : State) (p g : Nat) : Except Nat Group :=
  let r := s.odGet (0x7010 + p) (g + 1)
  let la := bits r 47 0
  let n := bits r 58 48
  let na := bits r 111 64
  let m := bits r 119 112
  let busy := (s.part p).state == .armed || (s.part p).state == .running
  if busy then .error 5
  else if n < 1 ∨ 1024 < n ∨ m < 1 ∨ la % 16 ≠ 0 ∨ na % 16 ≠ 0 ∨ !s.inRegions p la (16 * n) ∨ !s.inRegions p na (32 * m) then .error 4
  else
    match allSome ((chunksOf 16 n (s.readPa la (16 * n))).map memberEntry) with
    | none => .error 2
    | some l =>
      if !membersValid l then .error 2
      else match allSome ((chunksOf 32 m (s.readPa na (32 * m))).map nodeEntry) with
        | none => .error 3
        | some ns =>
          if !nodesValid (l.map fun x => x.1) ns then .error 3
          else
            let rank := (l.findIdx? fun x => !x.2.1 && x.2.2 == s.ownPath).getD 0x7FF
            .ok { mgen := ((s.group p g).mgen + 1) % 65536, ownRank := rank, formed := true, members := l, nodes := ns }

/-- Dynamic collectives of a group outstanding here end with STALE_GEN (R350). -/
def State.staleGroup (s : State) (p g : Nat) : State :=
  s.coll.colls.foldl (fun s e =>
    if !e.2.draft && e.2.part == p && e.2.group == g then s.completeColl e.1 5 0x7FF else s) s

/-- Put a re-formed group in force, with word 2 of its record. -/
def State.setGroup (s : State) (p g : Nat) (x : Group) : State :=
  let r := s.odGet (0x7010 + p) (g + 1)
  let s := s.odSet (0x7010 + p) (g + 1) (setBits r 191 128 (x.mgen + (x.ownRank <<< 16) + (b2n x.formed <<< 27)))
  { s with coll := { s.coll with groups := fmSet s.coll.groups (p * 64 + g) x } }

end Sys2Proof.Machine
end

