-- ==== Sys2Proof/Machine/Func.lean ====
section
/-! DEFINITION. Machine/Func.lean: the functions of the twist engine's function stage on finite inputs, to far more than the
precision of FP64, and the bound that 06 R214 and 04 R158 set on the stage's results: 2 ulp in FP32 and 1 ulp in FP64. -/

namespace Sys2Proof.Machine

/-! ### Arithmetic with 300 significant bits -/

/-- Keep the highest 300 bits. -/
def Num.trim : Num → Num
  | .fin s m e => let d := bitLen m - 300; .fin s (m >>> d) (e + d)
  | x => x

/-- The weight of the highest bit. -/
def Num.top : Num → Int
  | .fin _ m e => e + bitLen m
  | _ => 0

/-- A sum; a term more than 2,000 bits below the other is left out. -/
def Num.add (a b : Num) : Num :=
  if a.isZero then b else if b.isZero then a
  else if b.top + 2000 < a.top then a else if a.top + 2000 < b.top then b
  else (Num.addExact .rne a b).trim
def Num.sub (a b : Num) : Num := a.add b.negate
def Num.mul (a b : Num) : Num := (Num.mulExact a b).trim
def Num.div (a b : Num) : Num :=
  match a, b with
  | .fin s m e, .fin t n f => if n = 0 then .nan else (Num.fin (s != t) ((m <<< 600) / n) (e - f - 600)).trim
  | _, _ => .nan
def Num.ofNat (n : Nat) : Num := .fin false n 0
/-- 1/2^k of a value. -/
def Num.halve (k : Nat) (a : Num) : Num := Num.scale2 (-(k : Int)) a
/-- The nearest integer at or below. -/
def Num.floor : Num → Int
  | .fin s m e =>
    let v : Int := if s then -(m : Int) else m
    if 0 ≤ e then v * 2 ^ e.toNat else v / 2 ^ (-e).toNat
  | _ => 0
def Num.ofInt (i : Int) : Num := .fin (decide (i < 0)) i.natAbs 0
/-- The square root of a value that is not negative. -/
def Num.root : Num → Num
  | .fin _ m e =>
    let k := 600 + (e % 2).toNat
    .fin false (isqrt (m <<< k)) ((e - k) / 2)
  | x => x

/-- ln 2, with 400 bits after the point. -/
def ln2Bits : Nat :=
  (0xB17217F7D1CF79ABC9E3B39803F2F6AF40F343267298B62D8A0D175B8BAAFA2BE7B876206DEBAC98559552FB4AFA1B10 <<< 16) +
  0xED2E
/-- π, with 1,500 bits after the point. -/
def piBits : Nat :=
  (0x3243F6A8885A308D313198A2E03707344A4093822299F31D0082EFA98EC4E6C89452821E638D01377BE5466CF34E90C6 <<< 1120) +
  (0xCC0AC29B7C97C50DD3F84D5B5B54709179216D5D98979FB1BD1310BA698DFB5AC2FFD72DBD01ADFB7B8E1AFED6A267E9 <<< 736) +
  (0x6BA7C9045F12C7F9924A19947B3916CF70801F2E2858EFC16636920D871574E69A458FEA3F4933D7E0D95748F728EB65 <<< 352) +
  0x8718BCD5882154AEE7B54A41DC25A59B59C30D5392AF26013C5D1B023286085F0CA417918B8DB38EF8E79DCB
def numLn2 : Num := .fin false ln2Bits (-400)
def numPi : Num := .fin false piBits (-1500)

/-! ### Series -/

/-- 1 + c(1) (1 + c(2) (1 + … c(n))). -/
def nested (c : Nat → Num) (n : Nat) : Num :=
  (List.range n).foldr (fun i acc => (Num.ofNat 1).add ((c (i + 1)).mul acc)) (Num.ofNat 1)

/-- e^x; beyond ±2^11 a value far outside every format. -/
def numExp (x : Num) : Num :=
  if 12 ≤ x.top then (if x.neg? then .fin false 1 (-4000) else .fin false 1 4000)
  else
    let k := ((x.div numLn2).add (.fin false 1 (-1))).floor
    let r := x.sub ((Num.ofInt k).mul numLn2)
    (nested (fun i => r.div (Num.ofNat i)) 70).scale2 k

/-- ln x of a positive value: ln of its significand in [3/4, 3/2), as 2 artanh, and a multiple of ln 2. -/
def numLn (x : Num) : Num :=
  match x with
  | .fin _ m e =>
    let n := bitLen m
    let k : Int := if 3 * 2 ^ n ≤ 4 * m then n else n - 1
    let v := Num.fin false m (-k)
    let t := (v.sub (Num.ofNat 1)).div (v.add (Num.ofNat 1))
    let q := t.mul t
    let s := (List.range 70).foldr (fun i acc => ((Num.ofNat 1).div (Num.ofNat (2 * i + 1))).add (q.mul acc)) (Num.ofNat 0)
    ((t.mul s).scale2 1).add ((Num.ofInt (e + k)).mul numLn2)
  | x => x

/-- 1/(1 + e^−x). -/
def numSigmoid (x : Num) : Num := (Num.ofNat 1).div ((Num.ofNat 1).add (numExp x.negate))

/-- tanh x; a value below 2^−60 is its own. -/
def numTanh (x : Num) : Num :=
  if x.top ≤ -60 then x
  else if 12 ≤ x.top then .fin x.neg? 1 0
  else
    let y := numExp (x.scale2 1)
    (y.sub (Num.ofNat 1)).div (y.add (Num.ofNat 1))

/-- 2/√π. -/
def numErfScale : Num := (Num.ofNat 2).div numPi.trim.root

/-- erf of a value of magnitude below 3: 2/√π e^(−x²) Σ 2^n x^(2n+1) / (2n+1)!!. -/
def numErfSmall (x : Num) : Num :=
  let q := (x.mul x).scale2 1
  ((numErfScale.mul x).mul (numExp (x.mul x).negate)).mul (nested (fun i => q.div (Num.ofNat (2 * i + 1))) 150)

/-- 1 − erf of a value of 3 and more, by its continued fraction. -/
def numErfc (x : Num) : Num :=
  let tail := (List.range 300).foldr (fun i acc => x.add (((Num.ofNat (i + 1)).halve 1).div acc)) x
  ((numErfScale.halve 1).mul (numExp (x.mul x).negate)).div tail

/-- 1 + erf x. -/
def numErf1 (x : Num) : Num :=
  let a := match x with | .fin _ m e => Num.fin false m e | y => y
  if a.lt (Num.ofNat 3) then (Num.ofNat 1).add (numErfSmall x)
  else if 7 ≤ a.top then (if x.neg? then .fin false 1 (-40000) else Num.ofNat 2)
  else if x.neg? then numErfc a else (Num.ofNat 2).sub (numErfc a)

def numErf (x : Num) : Num :=
  let a := match x with | .fin _ m e => Num.fin false m e | y => y
  if a.lt (Num.ofNat 3) then numErfSmall x else (numErf1 x).sub (Num.ofNat 1)

/-- sin and cos of an angle of at most 1 in magnitude. -/
def numSin0 (x : Num) : Num :=
  let q := (x.mul x).negate
  x.mul (nested (fun i => q.div (Num.ofNat (2 * i * (2 * i + 1)))) 50)
def numCos0 (x : Num) : Num :=
  let q := (x.mul x).negate
  nested (fun i => q.div (Num.ofNat ((2 * i - 1) * (2 * i)))) 50

/-- sin (x + j π/2), x being reduced by multiples of π/2. -/
def numSin (j : Int) (x : Num) : Num :=
  let h := numPi.halve 1
  let k := match x with
    | .fin s m e =>
      let v : Int := if s then -(m : Int) else m
      if x.top ≤ -1 then 0
      else if 0 ≤ e then (2 * (v * 2 ^ e.toNat) * 2 ^ 1500 + piBits / 2) / piBits
      else (2 * v * 2 ^ 1500 + piBits / 2 * 2 ^ (-e).toNat) / (piBits * 2 ^ (-e).toNat)
    | _ => 0
  let r := (Num.addExact .rne x (Num.mulExact (Num.ofInt k) h).negate).trim
  match ((k + j) % 4).toNat with
  | 0 => numSin0 r
  | 1 => numCos0 r
  | 2 => (numSin0 r).negate
  | _ => (numCos0 r).negate

/-- The function of Table 06-4 on a finite input that is not one of its special inputs. -/
def funcValue (sub : Nat) (x : Num) : Num :=
  match sub with
  | 0 => numExp x
  | 1 => numExp (x.mul numLn2)
  | 2 => numLn x
  | 3 => (numLn x).div numLn2
  | 4 => (Num.ofNat 1).div x.root
  | 5 => (Num.ofNat 1).div x
  | 6 => numTanh x
  | 7 => numSigmoid x
  | 8 => numErf x
  | 9 => (x.halve 1).mul (numErf1 (x.div (Num.ofNat 2).root))
  | 10 => x.mul (numSigmoid x)
  | 11 => numSin 0 x
  | _ => numSin 1 x

/-! ### The bound (R214) -/

/-- One ulp of a format at a value. -/
def Flt.ulp (f : Flt) (y : Num) : Num := .fin false 1 (max (y.top - 1) f.emin - f.fb)

/-- A code lies within so many ulp of a value. -/
def Flt.within (f : Flt) (n : Nat) (c : Nat) (y : Num) : Bool :=
  match f.decode c with
  | .fin s m e =>
    let d := match (Num.fin s m e).sub y with | .fin _ m e => Num.fin false m e | z => z
    !((Num.ofNat n).mul (f.ulp y)).lt d
  | _ => false

/-- A value under the stage's bound: the table's own bits where they keep it, and +Inf or −Inf on overflow. The bound is all that
R214 states of the bits (log 3); where the table broke it the nearest value stands. -/
def funcBits (sub : Nat) (wide : Bool) (x : Nat) : Nat :=
  let f := if wide then fp64 else fp32
  let y := funcValue sub (f.decode x)
  let near := f.encode (ieeeRound f .rne y).1
  if !(f.decode near).isFin then near
  else
    let c := Config.funcStage sub wide x % 2 ^ (if wide then 64 else 32)
    if f.within (if wide then 1 else 2) c y then c else near

end Sys2Proof.Machine
end

