-- ==== Sys2Proof/Machine/Twist.lean ====
section
/-! DEFINITION. Machine/Twist.lean: the twist engine (06): passes and their assembly, the stages, reductions and
output. Row programs stand in RowProg.lean, the optimiser station in Optimiser.lean. -/

namespace Sys2Proof.Machine

/-! ### Fields (06 Table 06-2) -/

def StCmd.wide (c : StCmd) : Bool := bit c.word 64
def StCmd.rm (c : StCmd) : Rm := rmOf (c.f 66 65)
def StCmd.stoch (c : StCmd) : Bool := bit c.word 67
def StCmd.accum (c : StCmd) : Bool := bit c.word 68
def StCmd.first (c : StCmd) : Bool := bit c.word 69
def StCmd.prescale (c : StCmd) : Bool := bit c.word 70
def StCmd.srcA (c : StCmd) : Nat := c.f 2 0
def StCmd.srcB (c : StCmd) : Nat := c.f 5 3
def StCmd.bcast (c : StCmd) : Nat := c.f 7 6
def StCmd.dst (c : StCmd) : Nat := c.f 10 8
def StCmd.whorl (c : StCmd) : Nat := c.f 15 11
def StCmd.tBank (c : StCmd) : Nat := c.f 16 16
def StCmd.aux (c : StCmd) : Nat := c.f 18 17
def StCmd.sub (c : StCmd) : Nat := c.f 22 19
def StCmd.rovingOut (c : StCmd) : Nat := c.f 34 23

/-- Stage of an opcode (Table 06-3); 8 for the commands that occupy the whole engine. -/
def twistStage (op : Nat) : Nat :=
  if op < 0x48 then 1 else if op < 0x50 then 2 else if op < 0x60 then 3 else if op < 0x64 then 4
  else if op < 0x68 then 5 else if op < 0x6E then 6 else if op < 0x70 then 7 else 8

/-! ### Tile buffers (R205) -/

def Twist.buf (x : Twist) (i : Nat) : TBuf := match i with | 0 => x.buf0 | 1 => x.buf1 | 2 => x.buf2 | _ => x.buf3
def Twist.setBuf (x : Twist) (i : Nat) (b : TBuf) : Twist :=
  match i with
  | 0 => { x with buf0 := b }
  | 1 => { x with buf1 := b }
  | 2 => { x with buf2 := b }
  | _ => { x with buf3 := b }

def twKey (n e : Nat) : Nat := n * 8 + e
def State.twist (s : State) (n e : Nat) : Twist := fmGet s.twists (twKey n e) {}
def State.setTwist (s : State) (n e : Nat) (x : Twist) : State := { s with twists := fmSet s.twists (twKey n e) x }

/-- Element of a buffer as a pass of an internal type reads it. -/
def TBuf.get (b : TBuf) (wide : Bool) (r c : Nat) : Nat :=
  let v := nth b.data (128 * r + c) 0
  if b.data.isEmpty || b.wide == wide then v else Config.bufferAcross wide v

/-- The 16,384 places of a buffer. -/
def TBuf.full (b : TBuf) : List Nat := b.data ++ List.replicate (16384 - b.data.length) 0

/-- A whole tile written to a buffer. -/
def TBuf.ofTile (rows cols : Nat) (wide : Bool) (get : Nat → Nat → Nat) : TBuf :=
  { rows := rows, cols := cols, wide := wide
    data := (List.range 16384).map fun i => if i / 128 < rows ∧ i % 128 < cols then get (i / 128) (i % 128) else 0 }

/-- Some elements of a buffer written, the others unchanged; the buffer takes the pass's shape and type. -/
def TBuf.patch (b : TBuf) (rows cols : Nat) (wide : Bool) (l : List (Nat × Nat × Nat)) : TBuf :=
  { rows := rows, cols := cols, wide := wide, data := l.foldl (fun d e => d.set (128 * e.1 + e.2.1) e.2.2) b.full }

/-! ### A pass in flow -/

/-- The data of a pass: shape, internal type, elements row by row, live bits, conversion counts of stage 1, the
source values before conversion, flags raised. -/
structure Flow where
  rows : Nat
  cols : Nat
  wide : Bool
  data : Array Nat
  live : Array Bool
  cnt : Array Cnt
  raw : Array Num
  flags : Nat := 0

/-- The internal type (R201). -/
def Flow.flt (x : Flow) : Flt := if x.wide then fp64 else fp32
def Flow.size (x : Flow) : Nat := x.rows * x.cols
def Flow.get (x : Flow) (r c : Nat) : Nat := (x.data[r * x.cols + c]?).getD 0
def Flow.at_ (x : Flow) (i : Nat) : Nat := (x.data[i]?).getD 0
def Flow.alive (x : Flow) (i : Nat) : Bool := (x.live[i]?).getD true

/-- Apply an operation with flags to every element. -/
def Flow.map (x : Flow) (g : Nat → Nat → Nat × Nat) : Flow :=
  let rs := (Array.range x.size).map fun i => g i (x.at_ i)
  { x with data := rs.map (·.1), flags := rs.foldl (fun a r => a ||| r.2) x.flags }

/-- Keep an element live where a condition holds. -/
def Flow.keep (x : Flow) (g : Nat → Nat → Bool) : Flow :=
  { x with live := (Array.range x.size).map fun i => x.alive i && g i (x.at_ i) }

/-- Operand B at an element (R207): a scalar, or a tile buffer as `bcast_b` directs. -/
def operandB (tw : Twist) (c : StCmd) (x : Flow) (i : Nat) : Nat :=
  if c.srcB = 1 then (if x.wide then c.b else c.b % 2 ^ 32)
  else
    let b := tw.buf (c.srcB - 2)
    match c.bcast with
    | 1 => b.get x.wide (i / x.cols) 0
    | 2 => b.get x.wide 0 (i % x.cols)
    | _ => b.get x.wide (i / x.cols) (i % x.cols)

/-- A scalar as the command's type reads it (03 R121). -/
def scalarOf (wide : Bool) (v : Nat) : Nat := if wide then v else v % 2 ^ 32

/-- An opcode that needs operand B. -/
def needsB (op sub : Nat) : Bool :=
  (decide (0x50 ≤ op) && decide (op ≤ 0x56)) || (op == 0x58 && sub == 2) || op == 0x64 || op == 0x65 || op == 0x67 ||
  (decide (0x70 ≤ op) && decide (op ≤ 0x74)) || (decide (0x77 ≤ op) && decide (op ≤ 0x79))

/-- An opcode whose command may have operand B. -/
def usesB (op sub : Nat) : Bool := needsB op sub || op == 0x66

/-- An opcode whose command uses `dst`: the stages, and the row programs that write an output. -/
def usesDst (op : Nat) : Bool :=
  decide (op < 0x70) || op == 0x72 || op == 0x74 || op == 0x77 || op == 0x79

/-- Fields of a command that name nothing: invalid under 03 R117 (R207, Tables 06-2 to 06-4). A field that the command
does not use is ignored (R206). -/
def twistBad (c : StCmd) : Bool :=
  let op := c.op
  let b := usesB op c.sub
  if op = 0x7C ∨ op = 0x7D then false
  else
    (b && decide (6 ≤ c.srcB)) || (b && decide (2 ≤ c.srcB) && op != 0x77 && c.bcast == 3) ||
    (usesDst op && decide (6 ≤ c.dst)) || (needsB op c.sub && c.srcB == 0) ||
    (c.dst == 1 && decide (op < 0x6E)) ||
    (op == 0x40 && (c.srcA == 0 || c.srcA == 6)) || (op == 0x41 && c.srcA != 6) ||
    (op == 0x58 && decide (2 < c.sub)) || (op == 0x60 && decide (12 < c.sub)) || (op == 0x64 && decide (6 < c.sub))

/-- Whether a command reads s[`sreg_a`], and s[`sreg_b`] (R206, Table 06-3). -/
def readsA (c : Cmd) : Bool :=
  let op := c.opcode
  op == 0x48 || op == 0x56 || op == 0x66 || op == 0x7C || op == 0x7D ||
  (decide (op < 0x7C) && c.f 2 0 == 7) || (decide (0x70 ≤ op) && decide (op ≤ 0x72) && bit c.word.toNat 70)
def readsB (c : Cmd) : Bool :=
  let op := c.opcode
  op == 0x48 || op == 0x77 || op == 0x7C || (usesB op (c.f 22 19) && c.f 5 3 == 1)

/-! ### Stages 2 to 6 (R207, R212 to R216) -/

/-- The function stage (R214, Table 06-4): fixed answers for the special inputs; for others the table's bits, within the bound. -/
def funcCode (sub : Nat) (wide : Bool) (x : Nat) : Nat :=
  let f := if wide then fp64 else fp32
  let one := f.encode (.fin false 1 0)
  match f.decode x with
  | .nan => f.nan
  | .inf neg =>
    match sub with
    | 0 | 1 => if neg then 0 else x
    | 2 | 3 => if neg then f.nan else x
    | 4 => if neg then f.nan else 0
    | 5 => f.encode (.fin neg 0 0)
    | 6 | 8 => if neg then f.encode (.fin true 1 0) else one
    | 7 => if neg then 0 else one
    | 9 | 10 => if neg then f.encode (.fin true 0 0) else x
    | _ => f.nan
  | .fin neg m _ =>
    match sub with
    | 2 | 3 => if m = 0 then f.encode (.inf true) else if neg then f.nan else funcBits sub wide x
    | 4 => if m = 0 then f.encode (.inf neg) else if neg then f.nan else funcBits sub wide x
    | 5 => if m = 0 then f.encode (.inf neg) else funcBits sub wide x
    | _ => funcBits sub wide x

/-- `t_sign`: abs, negation, copysign; a NaN is canonical (04 R131). -/
def signCode (f : Flt) (sub x b : Nat) : Nat :=
  let w := f.eb + f.fb
  if (f.decode x).isNan then f.nan
  else match sub with
    | 0 => x % 2 ^ w
    | 1 => x % 2 ^ w + (b2n (!bit x w) <<< w)
    | _ => x % 2 ^ w + (b2n (bit b w) <<< w)

/-- `t_cmp` conditions. -/
def cmpCode (f : Flt) (sub x b : Nat) : Bool :=
  let p := f.decode x
  let q := f.decode b
  match sub with
  | 0 => p.eq q
  | 1 => !p.eq q
  | 2 => p.lt q
  | 3 => p.lt q || p.eq q
  | 4 => q.lt p
  | 5 => q.lt p || p.eq q
  | _ => !p.isNan && !q.isNan

/-- Two-operand results of stage 3. -/
def arith (f : Flt) (rm : Rm) (op x b a : Nat) : Nat × Nat :=
  match op with
  | 0x50 => fAdd f rm x b
  | 0x51 => fSub f rm x b
  | 0x52 => fMul f rm x b
  | 0x53 => fDiv f rm x b
  | 0x54 => fMin f x b
  | 0x55 => fMax f x b
  | 0x56 => fFma f rm x b a
  | _ => fSqrt f rm x

/-- A reduction's operation: 0 sum, 1 maximum, 2 minimum. -/
def redOp (f : Flt) (rm : Rm) (kind a b : Nat) : Nat × Nat :=
  match kind with
  | 0 => fAdd f rm a b
  | 1 => ((fMax f a b).1, 0)
  | _ => ((fMin f a b).1, 0)

/-- What a reduction with no live element gives. -/
def redEmpty (f : Flt) (kind : Nat) : Nat :=
  match kind with
  | 0 => 0
  | 1 => f.encode (.inf true)
  | _ => f.encode (.inf false)

/-- One level of the pairwise tree; dead members are left out (R215). -/
def treeLevel (g : Nat → Nat → Nat × Nat) : List (Option Nat) → List (Option Nat) × Nat
  | a :: b :: l =>
    let (rest, fl) := treeLevel g l
    match a, b with
    | some x, some y => let r := g x y; (some r.1 :: rest, r.2 ||| fl)
    | some x, none => (some x :: rest, fl)
    | none, y => (y :: rest, fl)
  | l => (l, 0)

/-- The pairwise tree over a row. -/
def treeFold (g : Nat → Nat → Nat × Nat) : Nat → List (Option Nat) → Option Nat × Nat
  | 0, l => (l.headD none, 0)
  | n + 1, l =>
    let (l, fl) := treeLevel g l
    let (r, fl') := treeFold g n l
    (r, fl ||| fl')

/-- Sequential reduction down a column. -/
def seqFold (g : Nat → Nat → Nat × Nat) (l : List (Option Nat)) : Option Nat × Nat :=
  l.foldl (fun (a : Option Nat × Nat) x =>
    match a.1, x with
    | some u, some v => let r := g u v; (some r.1, r.2 ||| a.2)
    | none, x => (x, a.2)
    | u, none => (u, a.2)) (none, 0)

/-- Element of a row or column, none when dead. -/
def Flow.el (x : Flow) (r c : Nat) : Option Nat :=
  if x.alive (r * x.cols + c) then some (x.get r c) else none

/-- Reduce a row by the tree (R215). -/
def Flow.redRow (x : Flow) (rm : Rm) (kind r : Nat) : Nat × Nat :=
  let (v, fl) := treeFold (redOp x.flt rm kind) 7 ((List.range x.cols).map fun c => x.el r c)
  (v.getD (redEmpty x.flt kind), fl)

/-- Reduce a column (R215). -/
def Flow.redCol (x : Flow) (rm : Rm) (kind c : Nat) : Nat × Nat :=
  let (v, fl) := seqFold (redOp x.flt rm kind) ((List.range x.rows).map fun r => x.el r c)
  (v.getD (redEmpty x.flt kind), fl)

/-- A reduction writes its vector to `dst`, combined with what stands there under `accum` (R216). -/
def reduceTo (old : Twist) (tw : Twist) (c : StCmd) (x : Flow) : Twist × Flow :=
  let kind := (c.op - 0x68) % 3
  let row := decide (c.op < 0x6B)
  let n := if row then x.rows else x.cols
  let rs := (List.range n).map fun i =>
    let v := if row then x.redRow c.rm kind i else x.redCol c.rm kind i
    let d := (old.buf (c.dst - 2)).get x.wide (if row then i else 0) (if row then 0 else i)
    let w := if c.accum then redOp x.flt c.rm kind d v.1 else (v.1, 0)
    ((if row then (i, 0, w.1) else (0, i, w.1)), v.2 ||| w.2)
  let x := { x with flags := rs.foldl (fun a r => a ||| r.2) x.flags }
  if c.dst < 2 then (tw, x)
  else (tw.setBuf (c.dst - 2) ((tw.buf (c.dst - 2)).patch x.rows x.cols x.wide (rs.map (·.1))), x)

/-- A command with a buffer as `dst` writes the data of its stage there. -/
def writeDst (tw : Twist) (c : StCmd) (x : Flow) : Twist :=
  if c.dst < 2 then tw else tw.setBuf (c.dst - 2) (TBuf.ofTile x.rows x.cols x.wide x.get)

/-- One command of stages 1 to 6: `old` is the engine as it stood when flow started (R204). -/
def stageStep (old : Twist) (c : StCmd) (a : Twist × Flow) : Twist × Flow :=
  let x := a.2
  let f := x.flt
  let b := operandB old c x
  let sa := scalarOf x.wide c.a
  let sb := scalarOf x.wide c.b
  let op := c.op
  if 0x68 ≤ op ∧ op < 0x6E then reduceTo old a.1 c x
  else
    let y :=
      if op = 0x48 then x.map fun _ v => fFma f c.rm v sa sb
      else if op = 0x58 then x.map fun i v => (signCode f c.sub v (b i), 0)
      else if 0x50 ≤ op ∧ op ≤ 0x57 then x.map fun i v => arith f c.rm op v (b i) sa
      else if op = 0x60 then x.map fun _ v => (funcCode c.sub x.wide v, 0)
      else if op = 0x64 then x.keep fun i v => cmpCode f c.sub v (b i)
      else if op = 0x65 then x.keep fun i _ => !(f.decode (b i)).isZero
      else if op = 0x66 then x.keep fun i _ =>
        decide (((i % x.cols : Nat) : Int) + toSigned 32 (c.a / 2 ^ 32) ≤ ((i / x.cols : Nat) : Int) + toSigned 32 c.a) &&
        (c.srcB == 0 || !(f.decode (b i)).isZero)
      else if op = 0x67 then x.map fun i v => (if x.alive i then v else b i, 0)
      else x
    (writeDst a.1 c y, y)

/-! ### Stage 1 (R201, R209 to R211) -/

/-- Flags of an IEEE conversion of a code from binary16, binary32 or binary64 to another of them (04 R157, R159): a
signalling NaN is invalid, and a rounding sets the flags of the result. -/
def convFlags (src dst : Flt) (code : Nat) : Nat :=
  if src.isSnan code then 16 else (ieeeRound dst .rne (src.decode code)).2

/-- Flags of stage 1 on the codes of a tile: FP16, FP32 and FP64 convert as IEEE formats, the others do not (04 R158). -/
def stage1Flags (wide : Bool) (t : Tile) : Nat :=
  if 4 ≤ fmtType t.format ∧ fmtType t.format ≤ 6 then
    t.codes.foldl (fun a c => a ||| convFlags (fltOf (fmtType t.format)) (if wide then fp64 else fp32) c) 0
  else 0

/-- Convert a source value to the internal type with the output tensor's bits. -/
def stage1 (f : Flt) (sat sub : Bool) (v : Num) : Nat × Cnt := convertTo f sat sub .rne false v

/-- A flow from source values, with the flags of their conversion. -/
def flowOf (rows cols : Nat) (wide sat sub : Bool) (vs : Array Num) (fl : Nat) : Flow :=
  let f := if wide then fp64 else fp32
  let cs := vs.map (stage1 f sat sub)
  { rows := rows, cols := cols, wide := wide, data := cs.map (·.1), live := vs.map fun _ => true
    cnt := cs.map (·.2), raw := vs, flags := fl }

/-- A flow from a tile buffer. -/
def flowOfBuf (b : TBuf) (wide : Bool) : Flow :=
  let f := if wide then fp64 else fp32
  let vs := (Array.range (b.rows * b.cols)).map fun i => b.get wide (i / b.cols) (i % b.cols)
  { rows := b.rows, cols := b.cols, wide := wide, data := vs, live := vs.map fun _ => true
    cnt := vs.map fun _ => {}, raw := vs.map f.decode }

/-- The two FP32 records of a batt area as one 128 × 128 tile (R209). -/
def battValues (l : List Byte) : Array Num :=
  let a := (tileOf 5 l).values.toArray
  let b := (tileOf 5 (l.drop 33856)).values.toArray
  (Array.range 16384).map fun i =>
    let r := i / 128
    let c := i % 128
    if c < 64 then (a[64 * r + c]?).getD .nan else (b[64 * r + c - 64]?).getD .nan

/-- A `w_batt` writes an overlapping batt area now (R210). -/
def State.battBusy (s : State) (n area : Nat) : Bool :=
  (List.range 32).any fun w =>
    let x := s.whorl n w
    decide (s.now < x.battUntil) && decide (area < x.battArea + battBytes) && decide (x.battArea < area + battBytes)

/-- A fault found by a twist command. -/
def State.tFault (s : State) (p n : Nat) (c : StCmd) (code : Nat) : State := s.placeFault code p n c.tick c.pos

/-- Time a pass takes to enter stage 1, in cycles (R201). -/
def passTime (rows cols : Nat) (wide : Bool) : Nat :=
  if cols = 128 then (if wide then 256 else 128) else if rows = 128 then (if wide then 128 else 64) else 64

/-- Read a batt area for a twist command whose pass lasts so many cycles; none after a fault (R209, R210). The read is
noted, for a `w_batt` that starts within it. -/
def State.readBatt (s : State) (p n e : Nat) (c : StCmd) (area cycles : Nat) : State × Option (List Byte) :=
  if 96 * 2 ^ 20 < area + battBytes then (s.tFault p n c 0x0304, none)
  else if s.battBusy n area then (s.tFault p n c 0x0504, none)
  else
    let s := s.setTwist n e { s.twist n e with
      battArea := area, battUntil := s.now + cycles * s.cycleUnits, battTick := c.tick, battPos := c.pos }
    s.c0Read p n (0x2000 + e) (sramBase n + battOff + area) battBytes (s.cmdPlace p c.tick c.pos)

/-- Shape of a tile format. -/
def shapeOf (fmt : Nat) : Nat × Nat := (tileRows fmt, tileCols fmt)

/-- The source of a pass (R209, R210): none after a fault. t is the output tensor whose bits stage 1 uses. -/
def State.source (s : State) (p n e : Nat) (c : StCmd) (sat sub : Bool) : State × Option Flow :=
  let st := 0x2000 + e
  match c.srcA with
  | 1 =>
    match s.roving p c.roving with
    | none => (s.tFault p n c 0x0304, none)
    | some r =>
      if !r.endsAt n st then (s.tFault p n c 0x0304, none)
      else match s.consume p n st c.roving c.tick c.pos with
        | (s, none) => (s, none)
        | (s, some q) =>
          let sh := shapeOf q.tile.format
          (s, some (flowOf sh.1 sh.2 c.wide sat sub q.tile.values.toArray (stage1Flags c.wide q.tile)))
  | 6 =>
    let x := s.whorl n c.whorl
    let b := x.bank c.tBank
    if !b.ready ∨ (b.long ∧ !c.wide) then (s.tFault p n c 0x0304, none)
    else if x.inUse c.tBank s.now then (s.tFault p n c 0x0504, none)
    else match s.readBank p n c.whorl c.tBank c.tick c.pos with
      | (s, false) => (s, none)
      | (s, true) =>
        let s := s.tellSticky n c.whorl c.tBank
        let vs := if b.long then (Array.range 4096).map fun i => (b.lElem i).value
          else (Array.range 16384).map fun i => s.bankFinal p b i
        (s, some (flowOf b.side b.side c.wide sat sub vs 0))
  | 7 =>
    match s.readBatt p n e c (c.a % 2 ^ 21 * 64) (passTime 128 128 c.wide) with
    | (s, none) => (s, none)
    | (s, some l) => (s, some (flowOf 128 128 c.wide sat sub (battValues l)
        (stage1Flags c.wide (tileOf 5 l) ||| stage1Flags c.wide (tileOf 5 (l.drop 33856)))))
  | k => (s, some (flowOfBuf ((s.twist n e).buf (k - 2)) c.wide))

/-! ### Output (R211, R217, R218) -/

/-- Formats a pass shape may write (R217). -/
def outputFits (rows cols : Nat) (wide : Bool) (fmt : Nat) : Bool :=
  formatValid fmt &&
  (if wide then rows == 64 && cols == 64 && fmt == 6
   else if cols = 128 then (decide (fmtType fmt ≤ 5))
   else rows == 128 && cols == 64 && fmt == 5)

/-- Places, in element order, of tile h of a pass: FP32 from 128 × 128 leaves as two tiles. -/
def tilePlaces (rows cols fmt h : Nat) : List Nat :=
  if cols = 128 ∧ fmt = 5 then (List.range 8192).map fun e => e / 64 * 128 + 64 * h + e % 64
  else List.range (rows * cols)

/-- Random bits of `t_conv` (R218). -/
def State.convDraw (s : State) (p tensor index e : Nat) : Nat :=
  (genDraw (s.odGet (0x4010 + p) 1) 3 tensor index e 0 (s.part p).epoch.toNat).toNat

/-- Add flags to an engine's sticky flags OD 0x3030 (R213); each set counts in OD 0x3031 (15 R502). -/
def State.twistFlags (s : State) (n e fl : Nat) : State :=
  if fl = 0 then s
  else
    let sub := 8 * n + e + 1
    let s := s.odSet 0x3030 sub (s.odGet 0x3030 sub ||| fl)
    (maskBits 5 fl).foldl (fun s b =>
      let c := s.odGet 0x3031 sub
      (s.odSet 0x3031 sub (setBits c (64 * b + 63) (64 * b) (bits c (64 * b + 63) (64 * b) + 1))).markW1c 0x3030 sub b) s

/-- Flags of the conversion of a pass's FP32 values to FP16 (04 R157); the other outputs are exact, or no IEEE conversion. -/
def outFlags (fmt : Nat) (rm : Nat → Rm) (vals : List Num) : Nat :=
  if fmt = 4 then ((List.range vals.length).zip vals).foldl (fun a e => a ||| (ieeeRound fp16 (rm e.1) e.2).2) 0 else 0

/-- Write one tile of a pass to an output roving: converted, counted, and ready at a time. -/
def State.writeTile (s : State) (p n e : Nat) (r : Nat) (v : Roving) (stoch : Bool) (x : Flow) (vals : Array Num)
    (direct : Bool) (ready h : Nat) : State :=
  let index := (v.firstIndex + fmGet (s.part p).made r 0) % 2 ^ 32
  let pl := tilePlaces x.rows x.cols v.format h
  let rm := fun e => if stoch then Rm.sr (s.convDraw p v.tensor index e) else .rne
  let extra := if direct then {} else pl.foldl (fun (a : Cnt) i => a.plus ((x.cnt[i]?).getD {})) {}
  let xs := pl.map fun i => (vals[i]?).getD .nan
  let s := if direct then s else s.twistFlags n e (outFlags v.format rm xs)
  let (s, m) := s.convertTile n v.tensor v.format index rm stoch extra xs
  (s.countTile p n m).produce p r ready m.tile

/-- Write a pass to an output roving in its format; a command whose roving or format does not fit is invalid. -/
def State.writeRoving (s : State) (p n e : Nat) (c : StCmd) (r fmt : Nat) (x : Flow) (vals : Array Num) (direct : Bool)
    (ready : Nat) : State :=
  match s.roving p r with
  | none => s.tFault p n c 0x0304
  | some v =>
    if !v.beginsAt n (0x2000 + e) ∨ v.format ≠ fmt ∨ !outputFits x.rows x.cols x.wide fmt then s.tFault p n c 0x0304
    else forN (if x.cols = 128 ∧ fmt = 5 then 2 else 1) s fun s h =>
      s.writeTile p n e r v (c.stoch && c.op == 0x6E) x vals direct ready h

/-- Values of a flow's elements. -/
def Flow.values (x : Flow) : Array Num := x.data.map x.flt.decode

/-- The output tensor of a pass: that of its `t_conv` roving. -/
def State.passTensor (s : State) (p : Nat) (cs : List StCmd) : Option Nat :=
  (cs.find? fun c => c.op == 0x6E).bind fun c => (s.roving p c.roving).map Roving.tensor

/-- Saturate and subnormal bits of an output tensor; 0 and 1 without one (04 R135). -/
def State.outBits (s : State) (n : Nat) (t : Option Nat) : Bool × Bool :=
  match t with
  | some t => (s.satBit n t, s.subBit n t)
  | none => (false, true)

/-- Engine state after a pass has entered: when stage 1 is free, what it wrote and when (R203). -/
def State.passEntered (s : State) (n e time : Nat) (wrote : List Nat) : State :=
  s.setTwist n e { s.twist n e with
    stage1Free := s.now + time * s.cycleUnits
    wrote := wrote
    lastWrite := s.now + (time + 31) * s.cycleUnits }

/-- Buffers the commands of a pass write. -/
def passWrites (cs : List StCmd) : List Nat := (cs.filter fun c => decide (2 ≤ c.dst)).map fun c => c.dst - 2

/-- An ordinary pass flows (R203, R204, R211). -/
def State.flowPass (s : State) (p n e : Nat) (cs : List StCmd) (c0 : StCmd) : State :=
  match cs.find? twistBad with
  | some c => s.tFault p n c 0x0304
  | none =>
    let (sat, sub) := s.outBits n (s.passTensor p cs)
    match s.source p n e c0 sat sub with
    | (s, none) => s
    | (s, some x) =>
      let old := s.twist n e
      let (tw, y) := cs.foldl (fun a c => stageStep old c a) (old, x)
      let time := passTime x.rows x.cols x.wide
      let direct := c0.op == 0x41 && cs.all fun c => twistStage c.op == 1 || twistStage c.op == 7
      let s := ((s.setTwist n e tw).twistFlags n e y.flags).passEntered n e time (passWrites cs)
      match cs.find? fun c => c.op == 0x6E with
      | none => s
      | some c =>
        s.writeRoving p n e c c.roving c.format y (if direct then x.raw else y.values) direct
          (s.now + (time + 32) * s.cycleUnits)

/-! ### Assembly (R202) -/

/-- A command may join a pass: an ordinary stage later than every stage in it, of a pass of stages. -/
def canJoin (pass : List StCmd) (c : StCmd) : Bool :=
  decide (twistStage c.op < 8) && pass.all fun d => decide (twistStage d.op < twistStage c.op)

/-- When assembly of the next pass begins (R202): its opener has come to the head of the queue, and stage 1 is free. -/
def Twist.openTime (x : Twist) : Option Nat :=
  match x.pass, x.queue with
  | [], c :: _ => some (max (max c.arrival x.headAt) x.stage1Free)
  | _, _ => none

/-- Open the pass at the head of the queue and let the commands behind it join, which leave the queue at once. Commands
that cannot join are returned, to be invalid. -/
def Twist.openNext (x : Twist) (now : Nat) : Twist × List StCmd :=
  match x.queue with
  | [] => (x, [])
  | c :: q =>
    let join := q.takeWhile fun d => d.srcA == 0
    let good := join.foldl (fun (a : List StCmd × List StCmd) d =>
      if canJoin a.1 d && d.wide == c.wide then (a.1 ++ [d], a.2) else (a.1, a.2 ++ [d])) ([c], [])
    ({ x with pass := good.1, queue := q.drop join.length, began := now }, good.2)

/-- Assembly of the next pass begins at an engine, now. -/
def State.openPass (s : State) (n e : Nat) : State :=
  let (y, bad) := (s.twist n e).openNext s.now
  bad.foldl (fun s c => s.atInvalid c) (s.setTwist n e y)

/-- A twist command arrives (R116, R117, R202): one whose `src_a` is 0 joins the pass in assembly, or is invalid; every
other, and every one behind a command that waits, joins the queue, in which at most four wait. -/
def State.twistArrive (s : State) (c : StCmd) : State :=
  let e := c.st % 64
  let x := s.twist c.n e
  if c.srcA = 0 ∧ x.queue.isEmpty then
    if !x.pass.isEmpty && decide (s.now < x.began + 8 * s.cycleUnits) && canJoin x.pass c &&
        (x.pass.all fun d => d.wide == c.wide) then
      s.setTwist c.n e { x with pass := x.pass ++ [c] }
    else s.atInvalid c
  else if 4 ≤ x.queue.length then s.atFault c 0x0305
  else s.setTwist c.n e { x with queue := x.queue ++ [c] }

end Sys2Proof.Machine
end

