-- ==== Sys2Proof/Machine/RowProg.lean ====
section
/-! DEFINITION. Machine/RowProg.lean: row programs of the twist engine (06 R219 to R223): soft maximum and
normalisation, forward and backward. -/

namespace Sys2Proof.Machine

/-- Statistics columns a program owns, with their starting values (Table 06-6). -/
def ownedCols (f : Flt) (op : Nat) (rms : Bool) : List (Nat × Nat) :=
  let minusOne := f.encode (.fin true 1 0)
  match op with
  | 0x70 => [(0, f.encode (.inf true)), (2, 0), (3, 0), (4, minusOne)]
  | 0x71 => [(1, 0)]
  | 0x73 => [(5, 0)]
  | 0x75 => [(0, 0), (3, 0), (4, minusOne)] ++ (if rms then [(1, 0)] else [])
  | 0x76 => [(1, 0)]
  | 0x78 => [(5, 0), (6, 0)]
  | _ => []

/-- The statistics of one row as a program works with them, columns 0 to 6. -/
abbrev RowSt := List Nat

/-- A row of a program: its statistics afterwards, its output elements, its flags. -/
structure RowOut where
  st : RowSt
  out : List Nat := []
  flags : Nat := 0

/-- The code of a count. -/
def countCode (f : Flt) (n : Nat) : Nat := f.encode (ieeeRound f .rne (.fin false n 0)).1
/-- A statistics code is at least 0: a position or count is held. -/
def nonNeg (f : Flt) (c : Nat) : Bool := !(f.decode c).lt Num.zero_
/-- A count is zero. -/
def isNil (f : Flt) (c : Nat) : Bool := (f.decode c).isZero

/-- Add with flags kept. -/
def addF (f : Flt) (a : Nat × Nat) (b : Nat × Nat) : Nat × Nat :=
  let r := fAdd f .rne a.1 b.1
  (r.1, r.2 ||| a.2 ||| b.2)

/-- The tree sum of some elements of a row (R215). -/
def treeSum (f : Flt) (l : List (Option (Nat × Nat))) : Nat × Nat :=
  let (v, fl) := treeFold (fAdd f .rne) 7 (l.map fun x => x.map (·.1))
  (v.getD 0, l.foldl (fun a x => match x with | some y => a ||| y.2 | none => a) fl)

/-- Record the first position of a row set where a condition holds (column 4). -/
def firstPos (f : Flt) (old base : Nat) (hits : List Bool) : Nat :=
  if nonNeg f old then old
  else match hits.findIdx? id with
    | some i => countCode f (base + i)
    | none => old

/-! ### Soft maximum (R220, Table 06-7) -/

/-- `t_smax_max` on one row: x after the prescale, mask. -/
def smaxMax (f : Flt) (base : Nat) (st : RowSt) (xs mask : List Nat) : RowOut :=
  let es := (xs.zip mask).map fun e => (f.decode e.1, e.1, !(f.decode e.2).isZero && e.1 != f.encode (.inf true))
  let m := es.foldl (fun m e => if e.2.2 && e.1.isFin then (fMax f m e.2.1).1 else m) (nth st 0 0)
  let k := fAdd f .rne (nth st 2 0) (countCode f (es.filter fun e => e.2.2 && e.1.isInf).length)
  let live := fAdd f .rne (nth st 3 0) (countCode f (es.filter fun e => e.2.2).length)
  let nan := firstPos f (nth st 4 0) base (es.map fun e => e.2.2 && e.1.isNan)
  { st := (((st.set 0 m).set 2 k.1).set 3 live.1).set 4 nan, flags := k.2 ||| live.2 }

/-- exp(x − m) with its flags; the same bits in `t_smax_sum` and `t_smax_out`. -/
def expShift (f : Flt) (wide : Bool) (x m : Nat) : Nat × Nat :=
  let d := fSub f .rne x m
  (funcCode 0 wide d.1, d.2)

/-- An ordinary row: no live NaN, at least one live entry, no +Inf. -/
def ordinaryRow (f : Flt) (st : RowSt) : Bool := !nonNeg f (nth st 4 0) && isNil f (nth st 2 0)

/-- `t_smax_sum` on one row. -/
def smaxSum (f : Flt) (wide : Bool) (st : RowSt) (xs mask : List Nat) : RowOut :=
  if !ordinaryRow f st then { st := st }
  else
    let es := (xs.zip mask).map fun e =>
      if !(f.decode e.2).isZero && (f.decode e.1).isFin then some (expShift f wide e.1 (nth st 0 0)) else none
    let r := addF f (nth st 1 0, 0) (treeSum f es)
    { st := st.set 1 r.1, flags := r.2 }

/-- `t_smax_out` on one row (Table 06-7). -/
def smaxOut (f : Flt) (wide : Bool) (st : RowSt) (xs mask : List Nat) : RowOut :=
  if nonNeg f (nth st 4 0) then { st := st, out := xs.map fun _ => f.nan }
  else if isNil f (nth st 3 0) then { st := st, out := xs.map fun _ => 0 }
  else if !isNil f (nth st 2 0) then
    let inv := fDiv f .rne (f.encode (.fin false 1 0)) (nth st 2 0)
    { st := st, flags := inv.2
      out := (xs.zip mask).map fun e =>
        if !(f.decode e.2).isZero && e.1 == f.encode (.inf false) then inv.1 else 0 }
  else
    let rs := (xs.zip mask).map fun e =>
      if !(f.decode e.2).isZero && e.1 != f.encode (.inf true) then
        let x := expShift f wide e.1 (nth st 0 0)
        let q := fDiv f .rne x.1 (nth st 1 0)
        (q.1, q.2 ||| x.2)
      else (0, 0)
    { st := st, out := rs.map (·.1), flags := rs.foldl (fun a r => a ||| r.2) 0 }

/-- `t_smax_dot` on one row: dy, y. -/
def smaxDot (f : Flt) (st : RowSt) (dy y : List Nat) : RowOut :=
  let r := addF f (nth st 5 0, 0) (treeSum f ((dy.zip y).map fun e => some (fMul f .rne e.2 e.1)))
  { st := st.set 5 r.1, flags := r.2 }

/-- `t_smax_bwd` on one row: dy, y. An element is dead where y is zero (log: the program sees no mask). -/
def smaxBwd (f : Flt) (st : RowSt) (dy y : List Nat) : RowOut :=
  if nonNeg f (nth st 4 0) then { st := st, out := dy.map fun _ => f.nan }
  else if isNil f (nth st 3 0) || !isNil f (nth st 2 0) then { st := st, out := dy.map fun _ => 0 }
  else
    let rs := (dy.zip y).map fun e =>
      if (f.decode e.2).isZero then (0, 0)
      else
        let d := fSub f .rne e.1 (nth st 5 0)
        let m := fMul f .rne e.2 d.1
        (m.1, m.2 ||| d.2)
    { st := st, out := rs.map (·.1), flags := rs.foldl (fun a r => a ||| r.2) 0 }

/-! ### Normalisation (R222) -/

/-- `t_norm_sum` on one row. -/
def normSum (f : Flt) (rms : Bool) (base : Nat) (st : RowSt) (xs : List Nat) : RowOut :=
  let col := if rms then 1 else 0
  let r := addF f (nth st col 0, 0) (treeSum f (xs.map fun x => some (if rms then fMul f .rne x x else (x, 0))))
  let n := fAdd f .rne (nth st 3 0) (countCode f xs.length)
  let pos := firstPos f (nth st 4 0) base (xs.map fun x => !(f.decode x).isFin)
  { st := ((st.set col r.1).set 3 n.1).set 4 pos, flags := r.2 ||| n.2 }

/-- μ of a row. -/
def rowMean (f : Flt) (rms : Bool) (st : RowSt) : Nat × Nat :=
  if rms then (0, 0) else fDiv f .rne (nth st 0 0) (nth st 3 0)

/-- `t_norm_var` on one row. -/
def normVar (f : Flt) (rms : Bool) (st : RowSt) (xs : List Nat) : RowOut :=
  let mu := rowMean f rms st
  let r := addF f (nth st 1 0, mu.2) (treeSum f (xs.map fun x =>
    let d := fSub f .rne x mu.1
    let q := fMul f .rne d.1 d.1
    some (q.1, q.2 ||| d.2)))
  { st := st.set 1 r.1, flags := r.2 }

/-- x̂ of an element. -/
def xHat (f : Flt) (mu r x : Nat) : Nat × Nat :=
  let d := fSub f .rne x mu
  let q := fMul f .rne d.1 r
  (q.1, q.2 ||| d.2)

/-- r of a row: computed by the first command of a row set, else as kept in column 2. -/
def rowScale (f : Flt) (wide first : Bool) (eps : Nat) (st : RowSt) : Nat × Nat :=
  if nonNeg f (nth st 4 0) then (f.nan, 0)
  else if first then
    let q := fDiv f .rne (nth st 1 0) (nth st 3 0)
    let a := fAdd f .rne q.1 eps
    (funcCode 4 wide a.1, q.2 ||| a.2)
  else (nth st 2 0, 0)

/-- `t_norm_out` on one row. -/
def normOut (f : Flt) (wide rms first : Bool) (eps : Nat) (st : RowSt) (xs gamma beta : List Nat) : RowOut :=
  let r := rowScale f wide first eps st
  let st' := if first then st.set 2 r.1 else st
  if nonNeg f (nth st 4 0) then { st := st', out := xs.map fun _ => f.nan }
  else
    let mu := rowMean f rms st
    let rs := (xs.zip (gamma.zip beta)).map fun e =>
      let h := xHat f mu.1 r.1 e.1
      let y := fFma f .rne h.1 e.2.1 e.2.2
      (y.1, y.2 ||| h.2)
    { st := st', out := rs.map (·.1), flags := rs.foldl (fun a r => a ||| r.2) (mu.2 ||| r.2) }

/-- `t_norm_dot` on one row: g, x. -/
def normDot (f : Flt) (rms : Bool) (st : RowSt) (gs xs : List Nat) : RowOut :=
  let mu := rowMean f rms st
  let r5 := addF f (nth st 5 0, mu.2) (treeSum f (gs.map fun g => some (g, 0)))
  let r6 := addF f (nth st 6 0, 0) (treeSum f ((gs.zip xs).map fun e =>
    let h := xHat f mu.1 (nth st 2 0) e.2
    let p := fMul f .rne e.1 h.1
    some (p.1, p.2 ||| h.2)))
  { st := (st.set 5 r5.1).set 6 r6.1, flags := r5.2 ||| r6.2 }

/-- `t_norm_bwd` on one row: g, x. -/
def normBwd (f : Flt) (rms : Bool) (st : RowSt) (gs xs : List Nat) : RowOut :=
  if nonNeg f (nth st 4 0) then { st := st, out := gs.map fun _ => f.nan }
  else
    let mu := rowMean f rms st
    let a := fDiv f .rne (nth st 5 0) (nth st 3 0)
    let b := fDiv f .rne (nth st 6 0) (nth st 3 0)
    let rs := (gs.zip xs).map fun e =>
      let h := xHat f mu.1 (nth st 2 0) e.2
      let d := fSub f .rne e.1 a.1
      let m := fFma f .rne (signCode f 1 h.1 0) b.1 d.1
      let x := fMul f .rne (nth st 2 0) m.1
      (x.1, x.2 ||| m.2 ||| d.2 ||| h.2)
    { st := st, out := rs.map (·.1), flags := rs.foldl (fun a r => a ||| r.2) (mu.2 ||| a.2 ||| b.2) }

/-! ### A program's pass -/

/-- One row of a program by its opcode; eps is s[`sreg_b`] of `t_norm_out`. -/
def rowProgram (f : Flt) (wide : Bool) (c : StCmd) (base : Nat) (st : RowSt) (a b gamma beta : List Nat) : RowOut :=
  let rms := bit c.sub 0
  match c.op with
  | 0x70 => smaxMax f base st a b
  | 0x71 => smaxSum f wide st a b
  | 0x72 => smaxOut f wide st a b
  | 0x73 => smaxDot f st a b
  | 0x74 => smaxBwd f st a b
  | 0x75 => normSum f rms base st a
  | 0x76 => normVar f rms st a
  | 0x77 => normOut f wide rms c.first (scalarOf wide c.b) st a gamma beta
  | 0x78 => normDot f rms st a b
  | _ => normBwd f rms st a b

/-- Whether a program writes an output. -/
def rowWrites (op : Nat) : Bool := op == 0x72 || op == 0x74 || op == 0x77 || op == 0x79

/-- Statistics columns a program changes: those it owns, and r of `t_norm_out` with `first`. -/
def rowChanges (f : Flt) (c : StCmd) : List Nat :=
  (ownedCols f c.op (bit c.sub 0)).map (·.1) ++ (if c.op = 0x77 ∧ c.first then [2] else [])

/-- A program names a buffer it also writes (R223), or `t_norm_out` no buffer of γ and β. -/
def rowBad (c : StCmd) : Bool :=
  twistBad c || (c.op == 0x77 && c.srcB == 1) ||
  (decide (2 ≤ c.dst) && rowWrites c.op && (c.dst == c.srcB || c.dst - 2 == c.aux)) ||
  (!(rowChanges fp32 c).isEmpty && needsB c.op c.sub && decide (2 ≤ c.srcB) && c.srcB - 2 == c.aux)

/-- Row events of Table 06-7: `MASKED_ROW` and `INF_IN_ROW`, notified once per kind, tensor and step (R221). -/
def State.rowEvents (s : State) (n e tensor : Nat) (masked infs : List Nat) : State :=
  let s := match masked with
    | [] => s
    | r :: _ =>
      let m := s.mark n tensor
      (s.setMark n tensor { m with masked := true }).eventN 0x0601 masked.length (!m.masked) (s.ofSlot n)
        [.half e, .half tensor, .half r]
  match infs with
  | [] => s
  | r :: _ =>
    let m := s.mark n tensor
    (s.setMark n tensor { m with infRow := true }).eventN 0x0602 infs.length (!m.infRow) (s.ofSlot n)
      [.half e, .half tensor, .half r]

/-- A row program flows (R219 to R223). -/
def State.flowRows (s : State) (p n e : Nat) (c : StCmd) : State :=
  if rowBad c then s.tFault p n c 0x0304
  else
    let tensor := if c.dst = 1 ∧ rowWrites c.op then (s.roving p c.rovingOut).map Roving.tensor else none
    let (sat, sub) := s.outBits n tensor
    match s.source p n e c sat sub with
    | (s, none) => s
    | (s, some x) =>
      let f := x.flt
      let x := if c.prescale ∧ c.op ≤ 0x72 then x.map fun _ v => fMul f .rne v (scalarOf x.wide c.a) else x
      let old := s.twist n e
      let t := if c.first then 0 else fmGet old.ords c.op 0
      let aux := old.buf c.aux
      let own := ownedCols f c.op (bit c.sub 0)
      let start := fun (r : Nat) => (List.range 7).map fun k =>
        match (if c.first then own.find? fun o => o.1 == k else none) with
        | some o => o.2
        | none => aux.get x.wide r k
      let gb := fun (row : Nat) => (List.range x.cols).map fun k => (old.buf (c.srcB - 2)).get x.wide row k
      let rows := (List.range x.rows).map fun r =>
        let a := (List.range x.cols).map fun k => x.get r k
        let b := (List.range x.cols).map fun k => operandB old c x (r * x.cols + k)
        rowProgram f x.wide c (t * x.cols) (start r) a b (if c.op = 0x77 then gb 0 else []) (if c.op = 0x77 then gb 1 else [])
      let changed := rowChanges f c
      let writes := ((List.range x.rows).zip rows).flatMap fun q => changed.map fun k => (q.1, k, nth q.2.st k 0)
      let outs := (rows.flatMap (·.out)).toArray
      let y : Flow := { x with data := outs, cnt := x.cnt }
      let tw := { old with ords := fmSet old.ords c.op (t + 1) }
      let tw := if changed.isEmpty then tw else tw.setBuf c.aux (aux.patch x.rows x.cols x.wide writes)
      let tw := if rowWrites c.op ∧ 2 ≤ c.dst then tw.setBuf (c.dst - 2) (TBuf.ofTile x.rows x.cols x.wide y.get) else tw
      let time := passTime x.rows x.cols x.wide
      let wrote := (if changed.isEmpty then [] else [c.aux]) ++ (if rowWrites c.op ∧ 2 ≤ c.dst then [c.dst - 2] else [])
      let fl := rows.foldl (fun a r => a ||| r.flags) x.flags
      let s := ((s.setTwist n e tw).twistFlags n e fl).passEntered n e time wrote
      let s := if rowWrites c.op ∧ c.dst = 1 then
          s.writeRoving p n e c c.rovingOut c.format y y.values false (s.now + (time + 32) * s.cycleUnits)
        else s
      if c.first ∧ (c.op = 0x72 ∨ c.op = 0x74) then
        let kind := fun (g : RowSt → Bool) => ((List.range x.rows).zip rows).filterMap fun q => if g q.2.st then some q.1 else none
        let masked := kind fun st => !nonNeg f (nth st 4 0) && isNil f (nth st 3 0)
        let infs := kind fun st => !nonNeg f (nth st 4 0) && !isNil f (nth st 3 0) && !isNil f (nth st 2 0)
        s.rowEvents n e (tensor.getD 0) masked infs
      else s

end Sys2Proof.Machine
end

