-- ==== Sys2Proof/Machine/Optimiser.lean ====
section
/-! DEFINITION. Machine/Optimiser.lean: the optimiser station (06 R224 to R229) and the flow of a twist pass (06 R202). -/

namespace Sys2Proof.Machine

/-! ### The layer record (06 Table 06-9) -/

/-- A layer record as its 16 words. -/
abbrev Layer := List Nat

def Layer.w (l : Layer) (i : Nat) : Nat := nth l i 0
def Layer.half (l : Layer) (i h : Nat) : Nat := bits (l.w i) (32 * h + 31) (32 * h)
def Layer.gradTensor (l : Layer) : Nat := bits (l.w 8) 15 0
def Layer.updTensor (l : Layer) : Nat := bits (l.w 8) 31 16
def Layer.adaptive (l : Layer) : Bool := bit (l.w 8) 32
def Layer.privileged (l : Layer) : Bool := bit (l.w 8) 33
def Layer.lrScaling (l : Layer) : Bool := bit (l.w 8) 34
def Layer.updFmt (l : Layer) : Nat := bits (l.w 8) 36 35
def Layer.gradFmt (l : Layer) : Nat := bits (l.w 8) 38 37
def Layer.gradFmtCur (l : Layer) : Nat := bits (l.w 8) 40 39
def Layer.s (l : Layer) : Int := toSigned 8 (bits (l.w 8) 48 41)
def Layer.updMargin (l : Layer) : Nat := bits (l.w 8) 50 49

/-- Format code of the update tiles: 0x05 FP32, 0x03 BF16, 0x04 FP16. -/
def updCode (u : Nat) : Nat := match u with | 1 => 3 | 2 => 4 | _ => 5

/-- Package-physical address of a record address: bit 48 chooses the stack, else the shared bobbin. -/
def layerAddr (n a : Nat) : Nat :=
  if bit a 48 then n * 2 ^ 36 + a % 2 ^ 48 else sramBase n + sharedOff + a % 2 ^ 48

/-- A range lies in a persistent range of the slot (13 R426). -/
def State.inPersist (s : State) (p n pa len : Nat) : Bool :=
  match s.key? pa, s.key? (pa + (len - 1)) with
  | some k, some _ => (s.persistKeys p n).any fun r => decide (r.1 ≤ k) && decide (k + len ≤ r.1 + r.2)
  | _, _ => false

/-! ### The element update (R226) -/

/-- An element's state: master, residue, moments; update element, its wide value, conversion counts, flags. -/
structure OptEl where
  w : Nat
  r : Int := 0
  m : Nat
  v : Nat
  q : Nat := 0
  wide : Num := .nan
  upd : Cnt := {}
  master : Cnt := {}
  flags : Nat := 0

/-- Constants of a command: 1 − beta1, 1 − beta2, 1 − p1, 1 − p2, each rounded once. -/
structure OptConst where
  c1 : Nat
  c2 : Nat
  k1 : Nat
  k2 : Nat
  flags : Nat

/-- FP32 1.0 -/
def one32 : Nat := 0x3F800000

def optConst (l : Layer) : OptConst :=
  let sub := fun v => fSub fp32 .rne one32 v
  let a := sub (l.half 4 1)
  let b := sub (l.half 5 0)
  let c := sub (l.half 6 1)
  let d := sub (l.half 7 0)
  ⟨a.1, b.1, c.1, d.1, a.2 ||| b.2 ||| c.2 ||| d.2⟩

/-- Exponent of the last place of an FP32 value: −149 for subnormals and zero. -/
def ulpExp (w : Nat) : Int :=
  let e := bits w 30 23
  if e = 0 then -149 else (e : Int) - 150

/-- Round an exact value to the nearest integer, ties to even. -/
def rneInt : Num → Int
  | .fin neg m e =>
    let q : Nat := if 0 ≤ e then m * 2 ^ e.toNat else (roundShift .rne neg m (-e).toNat).1
    if neg then -(q : Int) else q
  | _ => 0

/-- `residue_sub` (R226): new master, residue and conversion counts. -/
def residueSub (sat sub : Bool) (w : Nat) (r : Int) (d : Nat) : Nat × Int × Cnt :=
  let res : Num := .fin (decide (r < 0)) r.natAbs (ulpExp w - 16)
  let t := Num.addExact .rne (Num.addExact .rne (fp32.decode w) res) (fp32.decode d).negate
  let c := convertTo fp32 sat sub .rne false t
  let inRange := match t with
    | .fin neg m e =>
      let u := roundTo .rne 24 none neg m e
      !magLt fp32.maxFin.1 fp32.maxFin.2 u.1 u.2.1
    | _ => false
  if !inRange then (c.1, 0, c.2)
  else
    let rn := rneInt ((Num.addExact .rne t (fp32.decode c.1).negate).scale2 (16 - ulpExp c.1))
    (c.1, min rn 32767, c.2)

/-- u of `opt_element` with the new moments and flags. -/
def optMoments (l : Layer) (k : OptConst) (g m v : Nat) : Nat × Nat × Nat × Nat :=
  if !l.adaptive then
    let a := fFma fp32 .rne (l.half 4 1) m g
    (a.1, v, a.1, a.2)
  else
    let cg := fMul fp32 .rne k.c1 g
    let a := fFma fp32 .rne (l.half 4 1) m cg.1
    let gg := fMul fp32 .rne g g
    let cgg := fMul fp32 .rne k.c2 gg.1
    let b := fFma fp32 .rne (l.half 5 0) v cgg.1
    let x := fDiv fp32 .rne a.1 k.k1
    let y := fDiv fp32 .rne b.1 k.k2
    let z := fSqrt fp32 .rne y.1
    let q := fAdd fp32 .rne z.1 (l.half 5 1)
    let u := fDiv fp32 .rne x.1 q.1
    (a.1, b.1, u.1, cg.2 ||| a.2 ||| gg.2 ||| cgg.2 ||| b.2 ||| x.2 ||| y.2 ||| z.2 ||| q.2 ||| u.2)

/-- `opt_element` (R226). -/
def optElement (l : Layer) (k : OptConst) (satW subW subU : Bool) (g : Nat) (x : OptEl) : OptEl :=
  let (m, v, u, fl) := optMoments l k g x.m x.v
  let fw := fFma fp32 .rne (l.half 6 0) x.w u
  let d := fMul fp32 .rne (l.half 4 0) fw.1
  let fl := fl ||| fw.2 ||| d.2
  if l.privileged then
    let (w, r, c) := residueSub satW subW x.w x.r d.1
    { x with w := w, r := r, m := m, v := v, master := c, flags := fl }
  else
    let e : Int := if l.lrScaling ∧ l.updFmt ≠ 0 then l.s else 0
    let uf := fltOf (updCode l.updFmt)
    let ds := fMul fp32 .rne d.1 (fp32.encode (.fin false 1 e))
    let c := convertTo uf true subU .rne false (fp32.decode ds.1)
    let fl := if l.updFmt = 2 then fl ||| (ieeeRound fp16 .rne (fp32.decode ds.1)).2 else fl
    let qv := (finish fp32 .rne [] (uf.decode c.1)).1
    let w := fFma fp32 .rne (signCode fp32 1 qv 0) (fp32.encode (.fin false 1 (-e))) x.w
    { x with w := w.1, m := m, v := v, q := c.1, wide := fp32.decode ds.1, upd := c.2, flags := fl ||| ds.2 ||| w.2 }

/-! ### Records (R224) -/

/-- Place in element order 128 × 128 of element e of record h of a pair. -/
def pairPlace (h e : Nat) : Nat := e / 64 * 128 + 64 * h + e % 64

/-- The 128 × 128 codes of a pair of FP32 records. -/
def pairCodes (l : List Byte) : Array Nat :=
  let a := (tileOf 5 l).codes.toArray
  let b := (tileOf 5 (l.drop 33856)).codes.toArray
  (Array.range 16384).map fun i =>
    if i % 128 < 64 then (a[i / 128 * 64 + i % 128]?).getD 0 else (b[i / 128 * 64 + i % 128 - 64]?).getD 0

/-- Rewrite a pair of FP32 records at an address: payload, flag word with the tensor and index they hold, and
statistics (R146, R224). -/
def State.writePair (s : State) (p n e pa : Nat) (old : List Byte) (codes : Array Nat) (cnt : Array Cnt) : State :=
  forN 2 s fun s h =>
    let t := tileOf 5 (old.drop (33856 * h))
    let pl := (List.range 8192).map (pairPlace h)
    let cs := pl.map fun i => (codes[i]?).getD 0
    let c := pl.foldl (fun (a : Cnt) i => a.plus ((cnt[i]?).getD {})) {}
    let m := s.makeTile n (flagTensor t.flag) 5 (flagIndex t.flag) cs []
      { format := 5, index := flagIndex t.flag, sat := c.sat, under := c.under
        amax := (cs.map fp32.decode).foldl maxMag none }
    let (s, ok) := s.c0Store p n (0x2000 + e) (pa + 33856 * h) m.tile.record
    if ok then s.countTile p n m else s

/-- The residues of a tile, element by element (R224): rows 0 to 63 as the record holds them. DESIGN CHOICE (log 66): the
16,384 bytes of a RAW8 payload hold 8,192 of the 16,384 residues; those of rows 64 to 127 stand in the partition, by the
record's address, and read 0 until they are first written. -/
def State.residues (s : State) (p pa : Nat) (rec_ : List Byte) : Array Int :=
  let lo := rec_.toArray
  let hi := (fmGet (s.part p).resHigh pa []).toArray
  (Array.range 16384).map fun i =>
    if i < 8192 then toSigned 16 (((lo[2 * i]?).getD 0).toNat + 256 * ((lo[2 * i + 1]?).getD 0).toNat)
    else (hi[i - 8192]?).getD 0

/-- Rewrite a residue record: RAW8, its flag word with the tensor and index it holds and the `hist_base` of that tensor
(R99, R224). -/
def State.writeResidue (s : State) (p n e pa : Nat) (old : List Byte) (rs : Array Int) : State :=
  let t := tileOf 7 old
  let payload := (List.range 8192).flatMap fun i => bytesOf 2 (ofSigned 16 ((rs[i]?).getD 0))
  let x : Tile := ⟨7, payload, List.replicate 1024 0,
    flagWord none none 0 0 (s.histBase n (flagTensor t.flag)) 0 0 7 (flagIndex t.flag) (flagTensor t.flag)⟩
  let s := s.setPart p { s.part p with resHigh := fmSet (s.part p).resHigh pa (rs.toList.drop 8192) }
  (s.c0Store p n (0x2000 + e) pa x.record).1

/-- Several ranges read in turn; none after a fault. -/
def State.readAll (s : State) (p n e : Nat) (det : List EvField) : List (Nat × Nat) → State × Option (List (List Byte))
  | [] => (s, some [])
  | r :: rs =>
    match s.c0Read p n (0x2000 + e) r.1 r.2 det with
    | (s, none) => (s, none)
    | (s, some l) =>
      match s.readAll p n e det rs with
      | (s, none) => (s, none)
      | (s, some ls) => (s, some (l :: ls))

/-- The update tiles (R226): converted elements with their statistics, on the output roving when there is one. -/
def State.writeUpdate (s : State) (p n : Nat) (c : StCmd) (l : Layer) (j : Nat) (els : Array OptEl) (ready : Nat) : State :=
  let fmt := updCode l.updFmt
  let r := c.rovingOut
  forN (if fmt = 5 then 2 else 1) s fun s h =>
    let pl := tilePlaces 128 128 fmt h
    let at_ := fun i => els[i]?
    let index := match (if r = 0 then none else s.roving p r) with
      | some v => (v.firstIndex + fmGet (s.part p).made r 0) % 2 ^ 32
      | none => if fmt = 5 then 2 * j + h else j
    let cs := pl.map fun i => ((at_ i).map (·.q)).getD 0
    let cnt := pl.foldl (fun (a : Cnt) i => a.plus (((at_ i).map (·.upd)).getD {})) {}
    let m := s.makeTile n l.updTensor fmt (index % 2 ^ 32) cs []
      { format := fmt, index := index, sat := cnt.sat, under := cnt.under
        amax := (pl.map fun i => ((at_ i).map (·.wide)).getD .nan).foldl maxMag none }
    let s := s.countTile p n m
    if r = 0 then s else s.produce p r ready m.tile

/-- The layer record of an optimiser command: a multiple of 128 in a persistent range; none when invalid. -/
def State.layerAt (s : State) (p n : Nat) (c : StCmd) : Option Nat :=
  let o := c.a % 2 ^ 27
  let pa := sramBase n + sharedOff + o
  if o % 128 = 0 ∧ o + 128 ≤ 2 ^ 27 ∧ s.inPersist p n pa 128 then some pa else none

/-- Ranges an update reads: master, moments, residue of tile j (R224). -/
def layerRanges (n : Nat) (l : Layer) (j : Nat) : List (Nat × Nat) :=
  [(layerAddr n (l.w 0) + j * battBytes, battBytes), (layerAddr n (l.w 1) + j * battBytes, battBytes),
   (layerAddr n (l.w 2) + j * battBytes, battBytes)] ++
  (if l.privileged then [(layerAddr n (l.w 3) + j * 17472, 17472)] else [])

/-- `t_opt_step` (R224 to R226). -/
def State.optStep (s : State) (p n e : Nat) (c : StCmd) : State :=
  match s.layerAt p n c with
  | none => s.tFault p n c 0x0304
  | some pa =>
    match s.c0Read p n (0x2000 + e) pa 128 (s.cmdPlace p c.tick c.pos) with
    | (s, none) => s
    | (s, some lb) =>
      let l : Layer := wordsOf lb
      let j := c.b % 2 ^ 32
      let rs := layerRanges n l j
      let out := c.rovingOut
      let outBad := out ≠ 0 ∧ (l.privileged ∨ c.format ≠ updCode l.updFmt ∨
        !(match s.roving p out with | some v => v.beginsAt n (0x2000 + e) && v.format == updCode l.updFmt | none => false))
      if l.updFmt = 3 ∨ outBad ∨ !(rs.all fun r => s.inPersist p n r.1 r.2) then s.tFault p n c 0x0304
      else match s.readBatt p n e c (c.f 20 0 * 64) 1024 with
        | (s, none) => s
        | (s, some gb) =>
          match s.readAll p n e (s.cmdPlace p c.tick c.pos) rs with
          | (s, none) => s
          | (s, some old) =>
            let at_ := fun i => (nth rs i (0, 0)).1
            let wb := nth old 0 []
            let mb := nth old 1 []
            let vb := nth old 2 []
            let g := pairCodes gb
            let w := pairCodes wb
            let m := pairCodes mb
            let v := pairCodes vb
            let rp := if l.privileged then s.residues p (at_ 3) (nth old 3 []) else #[]
            let k := optConst l
            let wt := flagTensor (tileOf 5 wb).flag
            let satW := s.satBit n wt
            let subW := s.subBit n wt
            let subU := s.subBit n l.updTensor
            let els := (Array.range 16384).map fun i =>
              optElement l k satW subW subU ((g[i]?).getD 0)
                { w := (w[i]?).getD 0, r := (rp[i]?).getD 0, m := (m[i]?).getD 0, v := (v[i]?).getD 0 }
            let fl := els.foldl (fun a x => a ||| x.flags) k.flags
            let s := (s.twistFlags n e fl).passEntered n e 1024 []
            let s := s.writePair p n e (at_ 0) wb (els.map (·.w)) (els.map (·.master))
            let s := s.writePair p n e (at_ 1) mb (els.map (·.m)) #[]
            let s := s.writePair p n e (at_ 2) vb (els.map (·.v)) #[]
            if l.privileged then s.writeResidue p n e (at_ 3) (nth old 3 []) (els.map (·.r))
            else s.writeUpdate p n c l j els (s.now + (1024 + 32) * s.cycleUnits)

/-! ### Closing a layer's step (R227) -/

/-- `bins_cur` of a tensor's record. -/
def State.binsCur (s : State) (n t : Nat) : List Nat :=
  (List.range 64).map fun i => bits (s.recWord n t (i / 2)) (32 * (i % 2) + 31) (32 * (i % 2))

/-- Highest nonzero bin. -/
def topBin (bins : List Nat) : Option Nat := ((List.range 64).filter fun i => nth bins i 0 != 0).getLast?

/-- `next_s` (R227). -/
def nextS (bins : List Nat) (base s margin : Int) (fmt : Nat) : Int :=
  match topBin bins with
  | none => s
  | some hi =>
    let target := (if fmt = 2 then 14 else 126) - margin
    max (-64) (min 63 (s + target - (base + hi)))

/-- Bins skipped from below while their sum stays within the tail. -/
def skipTail (tail : Nat) : List Nat → Nat → Nat
  | [], _ => 0
  | b :: bs, acc => if acc + b ≤ tail then skipTail tail bs (acc + b) + 1 else 0

/-- `choose_grad_fmt` (R227). -/
def chooseGradFmt (bins : List Nat) (nan inf cur : Nat) : Nat :=
  let total := bins.sum
  if nan ≠ 0 ∨ total = 0 then cur
  else if inf ≠ 0 ∨ nth bins 0 0 ≠ 0 ∨ nth bins 63 0 ≠ 0 then 2
  else
    let hi := (topBin bins).getD 0
    let lo := skipTail (total / 1024) bins 0
    if hi + 1 ≤ 24 + lo then 0 else 1

/-- The records of some tensors read well (08 R280). -/
def State.recsCheck (s : State) (p n : Nat) (det : List EvField) (l : List Nat) : State × Bool :=
  l.foldl (fun (a : State × Bool) t => if a.2 then a.1.recCheck p n t det else a) (s, true)

/-- `t_opt_commit` (R227). -/
def State.optCommit (s : State) (p n e : Nat) (c : StCmd) : State :=
  match s.layerAt p n c with
  | none => s.tFault p n c 0x0304
  | some pa =>
    match s.c0Read p n (0x2000 + e) pa 128 (s.cmdPlace p c.tick c.pos) with
    | (s, none) => s
    | (s, some lb) =>
      let l : Layer := wordsOf lb
      let epoch := (s.part p).epoch.toNat
      if bits (l.w 10) 47 0 = epoch then s.tFault p n c 0x0603
      else match s.recsCheck p n (s.cmdPlace p c.tick c.pos) [l.updTensor, l.gradTensor] with
      | (s, false) => s
      | (s, true) =>
        let p1 := (fMul fp32 .rne (l.half 6 1) (l.half 4 1))
        let p2 := (fMul fp32 .rne (l.half 7 0) (l.half 5 0))
        let sc := if l.lrScaling ∧ l.updFmt ≠ 0 then
            nextS (s.binsCur n l.updTensor) (toSigned 16 (s.histBase n l.updTensor)) l.s l.updMargin l.updFmt
          else l.s
        let gf := chooseGradFmt (s.binsCur n l.gradTensor) (s.recWord n l.gradTensor 78) (s.recWord n l.gradTensor 79) l.gradFmt
        let w8 := setBits (setBits (l.w 8) 48 41 (ofSigned 8 sc)) 38 37 gf
        let l' := ((((l.set 6 (setBits (l.w 6) 63 32 p1.1)).set 7 (setBits (l.w 7) 31 0 p2.1)).set 8 w8).set 9
          (setBits (l.w 9) 31 0 (l.half 9 0 + 1))).set 10 (setBits (l.w 10) 47 0 epoch)
        let (s, ok) := (s.twistFlags n e (p1.2 ||| p2.2)).c0Store p n (0x2000 + e) pa (bytesOfWords l')
        if ok ∧ gf ≠ l.gradFmtCur then s.event 0x0604 (s.ofSlot n) [.half (c.a % 2 ^ 27), .half gf] else s

/-! ### TWIST_PASS_FLOW (R202, R203) -/

/-- Buffers a pass reads, the destination of a reduction with `accum` among them (R216). -/
def passReads (cs : List StCmd) : List Nat :=
  cs.flatMap fun c =>
    if 0x7C ≤ c.op then []
    else
      (if 2 ≤ c.srcA ∧ c.srcA ≤ 5 then [c.srcA - 2] else []) ++
      (if usesB c.op c.sub ∧ 2 ≤ c.srcB ∧ c.srcB ≤ 5 then [c.srcB - 2] else []) ++
      (if 0x68 ≤ c.op ∧ c.op < 0x6E ∧ c.accum ∧ 2 ≤ c.dst then [c.dst - 2] else []) ++
      (if twistStage c.op = 8 then [c.aux] else [])

/-- Time at which the flow of the pass in assembly starts (R202, R203). -/
def State.flowTime (s : State) (x : Twist) : Nat :=
  let a := x.began + 8 * s.cycleUnits
  if (passReads x.pass).any fun b => x.wrote.contains b then max a x.lastWrite else a

/-- The pass flows: ordinary stages, a row program or an optimiser command. A row program or optimiser command
with `src_a` 0 is invalid (R202). -/
def State.flow (s : State) (p n e : Nat) (cs : List StCmd) : State :=
  match cs with
  | [] => s
  | c :: _ =>
    if twistStage c.op < 8 then s.flowPass p n e cs c
    else if c.op < 0x7C then s.flowRows p n e c
    else if c.op = 0x7C then s.optStep p n e c
    else s.optCommit p n e c

/-- The pass in assembly at an engine flows, now (R202): its opener leaves the head of the queue. -/
def State.flowNow (s : State) (p n e : Nat) : State :=
  let x := s.twist n e
  (s.setTwist n e { x with pass := [], headAt := s.now }).flow p n e x.pass

end Sys2Proof.Machine
end

