-- ==== Sys2Proof/Machine/Roving.lean ====
section
/-! DEFINITION. Machine/Roving.lean: tiles on their rovings (03 R102 to R108): departure at the tile time, the way
across the fabric dies, arrival at queues and memories (08 R283), and tiles to and from other packages. -/

namespace Sys2Proof.Machine

/-! ### Memory endpoints (R103, R104; 08 R283) -/

/-- Offset of tile i of a roving. -/
def Roving.offset (r : Roving) (addr i : Nat) : Nat :=
  addr + (if r.ring = 0 then i else i % r.ring) * recordBytes r.format

/-- Address of tile i's record at a memory endpoint: none outside the memory (R103). -/
def State.tileAddr (s : State) (p n st : Nat) (r : Roving) (addr i : Nat) : Option Nat :=
  match s.endpointMem p n st with
  | some (base, size) =>
    if r.offset addr i + recordBytes r.format ≤ size then some (base + r.offset addr i) else none
  | none => none

/-- COMMAND_INVALID for a tile that its endpoint drops (R103). -/
def State.tileInvalid (s : State) (p n r i : Nat) : State :=
  (s.event 0x0304 (s.ofSlot n) [.half r, .half i]).detectedFault p (s.dieOfSlot n)

/-- ROVING_OVERRUN (R108). -/
def State.tileOverrun (s : State) (p n st r i : Nat) : State :=
  (s.event 0x0301 (s.ofSlot n) [.half st, .half r, .half i]).detectedFault p (s.dieOfSlot n)

/-- A station word names a station (03 R92, R93): a class that is not reserved, and an index it has. -/
def stationKnown (st : Nat) : Bool :=
  match st / 4096 with
  | 1 => decide (st % 4096 < 32)
  | 2 => decide (st % 4096 < 8)
  | 3 => decide (st % 4096 < 33)
  | 4 | 5 | 6 | 8 | 0 => st % 4096 == 0
  | 7 => decide (st % 4096 < 64)
  | _ => false

/-- A roving that its stations treat as invalid (R96, R117): its format is no valid one, or an end is no station. -/
def Roving.invalid (v : Roving) : Bool :=
  !formatValid v.format || !stationKnown v.srcStation || !stationKnown v.dstStation

/-- Cycles before its scheduled time at which an M or C station reads a source tile (08 R283). -/
def readAhead : Nat := 3072

/-- A tile's bytes as an M or C station read them 3,072 cycles before a time: writes of tiles that arrived later are
not seen (08 R283). -/
def State.unseen (s : State) (n k due : Nat) (l : List Byte) : List Byte :=
  ((s.station n 0x8000).recent.reverse.filter fun e => decide (due < e.1 + readAhead * s.cycleUnits)).foldl (fun l e =>
    (List.range l.length).map fun j =>
      if e.2.1 ≤ k + j ∧ k + j < e.2.1 + e.2.2.length then nth e.2.2 (k + j - e.2.1) 0 else nth l j 0) l

/-- Read a roving's tile from a memory endpoint (R101, R103). -/
def State.readTile (s : State) (p n st r i due : Nat) (v : Roving) : State × Option Tile :=
  match s.tileAddr p n st v v.srcAddr i with
  | none => (s.tileInvalid p n r i, none)
  | some pa =>
    match s.c0Read p n st pa (recordBytes v.format) with
    | (s, none) => (s, none)
    | (s, some l) =>
      let l := match s.key? pa with
        | some k => if st / 4096 = 3 then l else s.unseen n k due l
        | none => l
      let x := tileOf v.format l
      if st / 4096 = 7 then
        (s, some { x with flag := recomputedFlag v.format x.payload x.band (s.histBase n v.tensor) (v.firstIndex + i) v.tensor })
      else (s, some x)

/-! ### Departure (R105, R107) -/

/-- Time of tile i's departure in the running draft tick; none when its draft tick is another. -/
def State.departure (s : State) (p : Nat) (d : Draft) (v : Roving) (i : Nat) : Option Nat :=
  let x := s.part p
  let (k, c) := d.tileTime v i
  if k = x.stepTick ∧ !x.stepOver then some (x.tickBegan + c * s.cycleUnits) else none

/-- Fixed delay from departure to arrival in time units (R107). -/
def State.tileDelay (s : State) (v : Roving) : Option Nat :=
  let src := transferTime (v.srcStation / 4096) (v.srcStation % 64) v.format
  let dst := transferTime (v.dstStation / 4096) (v.dstStation % 64) v.format
  if v.srcSlot = v.dstSlot then some ((src + dst) * s.cycleUnits)
  else match s.dieOfSlot v.srcSlot, s.dieOfSlot v.dstSlot with
    | some a, some b => (s.switchPath a b).map fun l => (src + 16 * l.length + dst) * s.cycleUnits
    | _, _ => none

/-- A tile to another slot crosses the bridges on its way, as C0 (11 R386, R389). -/
def State.crossTile (s : State) (p : Nat) (v : Roving) (x : Tile) : State :=
  match s.dieOfSlot v.srcSlot, s.dieOfSlot v.dstSlot with
  | some a, some b => if v.srcSlot = v.dstSlot then s else s.crossSwitch a b 0 0 p (flitsOf x.record.length)
  | _, _ => s

/-- A roving whose tiles go to another package, or come from one. -/
def Roving.sendsAway (v : Roving) : Bool := v.dstStation == 0x4000 && v.remotePath != 0
def Roving.fromAway (v : Roving) : Bool := v.srcStation == 0x4000 && v.remotePath != 0

/-- A tile a station produced, when it is ready; else an underrun at its tile time (R108). -/
def State.takeOut (s : State) (p r i : Nat) (v : Roving) : State × Option Tile :=
  let x := s.part p
  match x.outs.find? fun o => o.1 == r && o.2.1 == i && decide (o.2.2.1 ≤ s.now) with
  | some o => (s.setPart p { x with outs := x.outs.erase o }, some o.2.2.2)
  | none =>
    ((s.event 0x0302 (s.ofSlot v.srcSlot) [.half v.srcStation, .half r, .half i]).detectedFault p (s.dieOfSlot v.srcSlot), none)

/-- The next tile of a roving that has come from another package; else an underrun (R108). -/
def State.takeAway (s : State) (p r i : Nat) (v : Roving) : State × Option Tile :=
  let y := s.station v.srcSlot 0x4000
  match y.queue.find? fun q => q.roving == r && q.index == i with
  | some q => (s.setStation v.srcSlot 0x4000 { y with queue := y.queue.erase q }, some q.tile)
  | none =>
    ((s.event 0x0302 (s.ofSlot v.srcSlot) [.half v.srcStation, .half r, .half i]).detectedFault p (s.dieOfSlot v.srcSlot), none)

/-- The tile that leaves a source. -/
def State.sourceTile (s : State) (p r i due : Nat) (v : Roving) : State × Option Tile :=
  let cls := v.srcStation / 4096
  if v.fromAway then s.takeAway p r i v
  else if cls = 3 ∨ cls = 7 ∨ cls = 8 then s.readTile p v.srcSlot v.srcStation r i due v
  else s.takeOut p r i v

/-- A tile leaves for another package: held like every output when the consumer stands outside the draft set (02 R88). -/
def State.sendAway (s : State) (p r i : Nat) (v : Roving) (x : Tile) : State :=
  if s.outsideSet p v.remotePath then
    s.setPart p { s.part p with
      heldTiles := (s.part p).heldTiles ++ [{
        roving := r, path := v.remotePath, slot := v.remoteSlot, remote := v.remoteRoving, index := i, bytes := x.record,
        tick := s.cad.tick.toNat, epoch := (s.part p).epoch.toNat, committed := none }] }
  else s.sendTile p v.remotePath v.remoteSlot v.remoteRoving i x.record

/-- The source transfer of a tile at M or C takes one of the memory's transfers (08 R283). DESIGN CHOICE (log 69): it begins
when one is free, so that never more than three run, and the tile comes that much later; the rule states this only of the
transfers into a memory. How much later. -/
def State.sourceLane (s : State) (p r due : Nat) (v : Roving) : State × Nat :=
  let st := v.srcStation
  if st / 4096 = 7 ∨ st / 4096 = 8 then
    let u := s.laneTime p v.srcSlot st due
    (s.takeLane p v.srcSlot st r u (transferTime (st / 4096) (st % 64) v.format), u - due)
  else (s, 0)

/-- Tile i of roving r leaves its source, due at a time (R105). -/
def State.depart (s : State) (p r i due : Nat) (v : Roving) : State :=
  let s := s.setPart p { s.part p with left := fmSet (s.part p).left r (i + 1) }
  if v.invalid then s.tileInvalid p v.srcSlot r i
  else match s.sourceTile p r i due v with
    | (s, none) => s
    | (s, some tile) =>
      let (s, wait) := s.sourceLane p r due v
      if v.sendsAway then s.sendAway p r i v tile
      else match s.tileDelay v with
        | some delay =>
          let s := s.crossTile p v tile
          s.setPart p { s.part p with flight := (s.part p).flight ++ [(r, i, due + wait + delay, tile)] }
        | none => s

/-! ### Arrival (R107, R108; 08 R283) -/

/-- Tiles of an input queue that a command has taken from the list early and that still wait for their time. -/
def Station.early (x : Station) (now : Nat) (mine : Nat → Bool) : Nat :=
  ((x.takes.filter fun k => mine k.roving).map fun k =>
    ((List.range k.tiles.length).filter fun j => decide (now < k.start + j * k.per)).length).sum

/-- Whether a station's input queue is full for a roving (Table 03-6). -/
def State.queueFull (s : State) (p n st r : Nat) : Bool :=
  let x := s.station n st
  let port := fun (q : Nat) => match (s.part p).draft with | some d => d.portB n st q | none => false
  let same := fun (q : Nat) => if st / 4096 = 1 then port q == port r else if st / 4096 = 4 then q == r else true
  let cap := if st / 4096 = 4 then 32 else 2
  decide (cap ≤ (x.queue.filter fun q => same q.roving).length + x.early s.now same)

/-- A tile enters an input queue, and the commands that wait for it take it. -/
def State.enqueueTile (s : State) (p n st r i : Nat) (x : Tile) : State :=
  if s.queueFull p n st r then s.tileOverrun p n st r i
  else
    let y := s.station n st
    let s := s.setStation n st { y with queue := y.queue ++ [⟨s.now, r, i, x⟩] }
    s.feed p n st (s.station n st).work

/-- Note the bytes a tile replaces at an M or C station. -/
def State.noteOld (s : State) (n st pa len : Nat) : State :=
  match s.key? pa with
  | some k =>
    if st / 4096 = 3 then s
    else
      let y := s.station n 0x8000
      let keep := y.recent.filter fun e => decide (s.now < e.1 + 2 * readAhead * s.cycleUnits)
      s.setStation n 0x8000 { y with recent := keep ++ [(s.now, k, Mem.readN s.mem k len)] }
  | none => s

/-- Tiles that wait for a transfer at a memory station: those of a roving at the shared bobbin (Table 03-6). -/
def Station.waitingTiles (x : Station) (st r : Nat) : Nat :=
  (x.queue.filter fun q => st != 0x3020 || q.roving == r).length

/-- Write a tile's record into a memory endpoint. -/
def State.putTile (s : State) (p n st pa : Nat) (x : Tile) : State :=
  ((s.noteOld n st pa x.record.length).c0Store p n st pa x.record).1

/-- A tile's transfer into a memory begins, now: a bobbin is written then (R108). -/
def State.beginTransfer (s : State) (p n st r i : Nat) (v : Roving) (x : Tile) : State :=
  let s := s.takeLane p n st r s.now (transferTime (st / 4096) (st % 64) v.format)
  if st / 4096 = 3 then
    match s.tileAddr p n st v v.dstAddr i with
    | none => s.tileInvalid p n r i
    | some pa => s.putTile p n st pa x
  else s

/-- The tile at the head of a memory station's queue begins its transfer. -/
def State.nextTransfer (s : State) (n st : Nat) : State :=
  let y := s.station n st
  match s.partOfSlot n, y.queue with
  | some p, q :: rest =>
    let s := s.setStation n st { y with queue := rest }
    match s.roving p q.roving with
    | some v => s.beginTransfer p n st q.roving q.index v q.tile
    | none => s
  | _, _ => s

/-- A tile arrives at a bobbin, a stack or a window (R103, R108). Its transfer begins at once when one is free, else the tile
waits in the station's input queue. A read of a stack sees it from its arrival on (08 R283), so that M and C write it now. -/
def State.storeTile (s : State) (p n st r i : Nat) (v : Roving) (x : Tile) : State :=
  match s.tileAddr p n st v v.dstAddr i with
  | none => s.tileInvalid p n r i
  | some pa =>
    let y := s.station n st
    if y.queue.isEmpty ∧ s.laneTime p n st s.now ≤ s.now then
      let s := if st / 4096 = 3 then s else s.putTile p n st pa x
      s.beginTransfer p n st r i v x
    else if 2 ≤ y.waitingTiles st r then s.tileOverrun p n st r i
    else
      let s := s.setStation n st { y with queue := y.queue ++ [⟨s.now, r, i, x⟩] }
      if st / 4096 = 3 then s else s.putTile p n st pa x

/-- A tile reaches its destination (R107, R108). -/
def State.land (s : State) (p r i : Nat) (v : Roving) (x : Tile) : State :=
  let st := v.dstStation
  let cls := st / 4096
  if (s.dieOfSlot v.dstSlot).isNone then s
  else if cls = 3 ∨ cls = 7 ∨ cls = 8 then s.storeTile p v.dstSlot st r i v x
  else s.enqueueTile p v.dstSlot st r i x

end Sys2Proof.Machine
end

