-- ==== Sys2Proof/Machine/Settle.lean ====
section
/-! DEFINITION. Machine/Settle.lean: what the stations do between two commands from outside: commands reach their
stations (03 R113), start there when the station is free (03 R116; 05 R165; 06 R202), tiles that wait enter their memory
(03 R108; 08 R283), and tiles that do not come are missed. Then the issue of a station command in its cycle (03 R111). -/

namespace Sys2Proof.Machine

/-- Something that happens at a station at a time of its own. -/
inductive Due
  /-- a command reaches its station -/
  | landing (c : StCmd)
  /-- the first command that waits at a station of class B, M, C, F, D or L starts -/
  | command (n st : Nat)
  /-- the command at the head of a whorl's queue starts -/
  | whorl (n w : Nat)
  /-- assembly of a pass begins at a twist engine -/
  | pass (n e : Nat)
  /-- the first tile that waits at a memory station begins its transfer -/
  | transfer (n st : Nat)
  /-- the tile a command consumes has not come -/
  | missed (n st : Nat)
  deriving DecidableEq, Repr

/-- The partition whose draft runs on a slot. -/
def State.runsOn (s : State) (n : Nat) : Option Nat :=
  (s.partOfSlot n).filter fun p => (s.part p).state == .running && !(s.part p).restoring

/-- When the first command that waits at a station starts: once it has arrived, the command before it has ended, and, at
M and C, a transfer is free. -/
def State.commandTime (s : State) (p n st : Nat) (x : Station) : Option Nat :=
  x.cmds.head?.map fun c =>
    let u := max c.arrival x.freeAt
    if st / 4096 = 7 ∨ st = 0x8000 then s.laneTime p n st u else u

/-- When the first tile that waits at a memory station begins its transfer. -/
def State.transferStart (s : State) (p n st : Nat) (x : Station) : Option Nat :=
  if st / 4096 = 3 ∨ st / 4096 = 7 ∨ st = 0x8000 then x.queue.head?.map fun q => s.laneTime p n st q.arrived else none

/-- When the first command that consumes tiles misses one: just after the time of a tile that is not there (R108). -/
def Station.missTime (x : Station) : Option Nat :=
  match x.takes with
  | [] => none
  | r :: _ =>
    if r.tiles.length < r.want ∧ !(x.queue.any fun q => q.roving == r.roving) then some (r.start + r.tiles.length * r.per + 1)
    else none

/-- What is due at the stations of running drafts, with its time; commands that start before those that arrive. -/
def State.dues (s : State) : List (Nat × Due) :=
  let stations := s.stations.flatMap fun e =>
    let n := e.1 / 65536
    let st := e.1 % 65536
    match s.runsOn n with
    | none => []
    | some p =>
      ((s.transferStart p n st e.2).map fun u => (u, Due.transfer n st)).toList ++
      ((s.commandTime p n st e.2).map fun u => (u, Due.command n st)).toList ++
      (e.2.missTime.map fun u => (u, Due.missed n st)).toList
  let whorls := s.whorls.flatMap fun e =>
    if (s.runsOn (e.1 / 32)).isNone then []
    else (e.2.headTime.map fun u => (u, Due.whorl (e.1 / 32) (e.1 % 32))).toList
  let twists := s.twists.flatMap fun e =>
    if (s.runsOn (e.1 / 8)).isNone then []
    else (e.2.openTime.map fun u => (u, Due.pass (e.1 / 8) (e.1 % 8))).toList
  let wire := s.wire.flatMap fun c => if (s.runsOn c.n).isNone then [] else [(c.arrival, Due.landing c)]
  stations ++ whorls ++ twists ++ wire

/-- The earliest of some dues, the first of equal ones. -/
def earliest : List (Nat × Due) → Option (Nat × Due)
  | [] => none
  | a :: l =>
    match earliest l with
    | none => some a
    | some b => some (if b.1 < a.1 then b else a)

/-- A command reaches its station (R113, R116). -/
def State.landCmd (s : State) (c : StCmd) : State :=
  let s := { s with wire := s.wire.erase c }
  if c.st / 4096 = 1 then s.whorlArrive c
  else if c.st / 4096 = 2 then s.twistArrive c
  else s.queueAt c

/-- The first command that waits at a station starts, now. -/
def State.startCmd (s : State) (n st : Nat) : State :=
  let x := s.station n st
  match x.cmds with
  | [] => s
  | c :: l =>
    let s := s.setStation n st { x with cmds := l }
    if c.op = 0x90 then s.startColl c
    else if c.op = 0x91 then s.startVote c
    else if c.op = 0xA0 then s.startShard c
    else if c.op = 0xA8 then s.startMark c
    else if c.op = 0xA9 then s.startDigest c
    else s.startMem c

/-- What is due happens, now. -/
def State.happen (s : State) : Due → State
  | .landing c => s.landCmd c
  | .command n st => s.startCmd n st
  | .whorl n w => s.startWhorl n w
  | .pass n e => s.openPass n e
  | .transfer n st => s.nextTransfer n st
  | .missed n st =>
    match s.partOfSlot n with
    | some p => s.feed p n st (s.station n st).work
    | none => s

/-- Everything due up to a time happens, each at its own time, in order of time. -/
def State.settleTo (s : State) (t : Nat) : Nat → State
  | 0 => { s with now := t }
  | k + 1 =>
    match earliest s.dues with
    | none => { s with now := t }
    | some (u, d) => if u ≤ t then ({ s with now := u }.happen d).settleTo t k else { s with now := t }

/-- More events than all that waits can make: each command arrives, starts and misses at most once. -/
def State.waitingWork (s : State) : Nat :=
  3 * s.wire.length + (s.stations.map fun e => 2 * e.2.cmds.length + e.2.queue.length + e.2.takes.length).sum +
    (s.whorls.map fun e => 3 * e.2.queue.length).sum + (s.twists.map fun e => e.2.queue.length).sum + 1

/-- The stations catch up with the present. -/
def State.settle (s : State) : State := s.settleTo s.now s.waitingWork

/-- A command from outside comes at a time: everything due at the stations has happened by then. -/
def State.arrive (s : State) (t : Nat) : State :=
  { s with out := [], ans := {} }.settleTo (max s.now t) s.waitingWork

/-! ### Issue of a station command (03 R111, R115, R117) -/

/-- The time comes at which a command issues: draft cycle base + `cycle_offset` of the running tick (R111). DESIGN CHOICE
(log 70): a command sent before that cycle issues in it, and the model's time moves there; one sent after it issues late. -/
def State.toIssue (s : State) (p : Nat) (c : Cmd) : State :=
  let u := s.cycleTime p ((s.flyer c.slot.val).base.toNat + c.offset)
  if s.now < u then s.settleTo u s.waitingWork else s

/-- A station command from the stream of a slot: it issues in its cycle when its flyer may issue, and then has its effect. -/
def State.run (s : State) (t : Nat) (c : Cmd) (op : Nat) (eff : State → Issued → State) : Host.Outcome State Fault Refusal :=
  let s := s.arrive t
  match s.partOfSlot c.slot.val with
  | none => .next s
  | some p =>
    let s := s.syncDraft p
    if !s.mayIssue p c.slot.val then .next s
    else
      let s := s.toIssue p c
      if !s.mayIssue p c.slot.val then .next s
      else match s.issueAt p c op with
        | (s, none) => .next s
        | (s, some i) => .next (eff s i)

end Sys2Proof.Machine
end

