-- ==== Sys2Proof/Machine/Bvx.lean ====
section
/-! DEFINITION. Machine/Bvx.lean: the vector extension of the solver cores (07 R236 to R252, R254): illegal-instruction
checks, element access, arithmetic, compares, masks, loads and stores, permutes and conversions. -/

namespace Sys2Proof.Machine

/-! ### Instruction words (07 Tables 07-3, 07-6, 07-7) -/

/-- funct6, and the fields at [24:20], [19:15], [14:12], [11:7] of a BVX word. -/
def bxF6 (w : Nat) : Nat := bits w 31 26
def bxMk (w : Nat) : Bool := bit w 25
def bxB (w : Nat) : Nat := bits w 24 20
def bxA (w : Nat) : Nat := bits w 19 15
def bxMsk (w : Nat) : Nat := bits w 14 12
def bxD (w : Nat) : Nat := bits w 11 7
/-- The scalar form of custom-0 (funct6 bit 5). -/
def bxScalar (w : Nat) : Bool := bit w 31

/-- A custom-0 word of an operation; a scalar form only where the table has one. -/
def custom0 (f6 : Nat) (scalar : Bool) (w : Nat) : Bool :=
  w % 128 == 0x0B && bits w 30 26 == f6 && (scalar || !bxScalar w)

/-- A custom-1 word of an operation; masked only where the table allows it. -/
def custom1 (f6 : Nat) (mk : Bool) (w : Nat) : Bool := w % 128 == 0x2B && bxF6 w == f6 && (mk || !bxMk w)

/-- An illegal-instruction exception. -/
def State.illegal (s : State) (h w : Nat) : State := s.trap h 2 w

/-! ### Vector state (R237 to R240) -/

/-- Element width in bits, group size, VLMAX. -/
def Hart.ew (x : Hart) : Nat := 8 * 2 ^ bits x.bxvtype.toNat 1 0
def Hart.group (x : Hart) : Nat := 2 ^ bits x.bxvtype.toNat 3 2
def Hart.vlmax (x : Hart) : Nat := x.group * 4096 / x.ew
def Hart.ill (x : Hart) : Bool := bit x.bxvtype.toNat 63
def Hart.vl (x : Hart) : Nat := x.bxvl.toNat

/-- A group of g registers as one number (R237). -/
def State.vGroup (s : State) (h r g : Nat) : Nat :=
  ((List.range g).map fun i => (fmGet (s.hart h).v (r + i) 0).toNat <<< (4096 * i)).sum

/-- Element i of width ew of a group. -/
def elemAt (v ew i : Nat) : Nat := (v >>> (ew * i)) % 2 ^ ew

/-- Write a group of registers; BVX state is dirty (R238). -/
def State.setGroupRegs (s : State) (h r g v : Nat) : State :=
  let x := s.hart h
  s.setHart h { x with
    bxbs := 3
    v := (List.range g).foldl (fun m i => fmSet m (r + i) (BitVec.ofNat 4096 (v >>> (4096 * i)))) x.v }

/-- Replace the listed elements of a number. -/
def putElems (v ew : Nat) (l : List (Nat × Nat)) : Nat :=
  l.foldl (fun v e => setBits v (ew * e.1 + ew - 1) (ew * e.1) e.2) v

/-- A mask register, and the write of one. -/
def State.maskReg (s : State) (h m : Nat) : Nat := (fmGet (s.hart h).m m 0).toNat
def State.setMask (s : State) (h m v : Nat) : State :=
  let x := s.hart h
  s.setHart h { x with bxbs := 3, m := fmSet x.m m (BitVec.ofNat 512 v) }

/-- Active elements (R240): bxstart to bxvl − 1, and with `mk` those whose bit in m[`msk`] is 1. -/
def State.active (s : State) (h w : Nat) : List Nat :=
  let x := s.hart h
  (List.range x.vl).filter fun i => decide (x.bxstart.toNat ≤ i) && (!bxMk w || bit (s.maskReg h (bxMsk w)) i)

/-- Every register operand is a multiple of its group size (R240). -/
def aligned (g : Nat) (l : List Nat) : Bool := l.all fun r => r % g == 0 && decide (r + g ≤ 32)

/-- Accrue flags into `fflags` (R236). -/
def State.accrue (s : State) (h fl : Nat) : State :=
  let x := s.hart h
  s.setHart h { x with fflags := x.fflags ||| BitVec.ofNat 5 fl }

/-- Rounding direction of `frm`; none for 5, 6 and 7 (R236). -/
def Hart.rm (x : Hart) : Option Rm :=
  match x.frm.toNat with
  | 0 => some .rne
  | 1 => some .rtz
  | 2 => some .rdn
  | 3 => some .rup
  | 4 => some .rmm
  | _ => none

/-- A BVX memory or conversion instruction leaves bxstart at k; a change of bxstart makes the BVX state dirty (Table 07-2,
R238). -/
def State.startAt (s : State) (h k : Nat) : State :=
  let x := s.hart h
  s.setHart h { x with bxstart := BitVec.ofNat 16 k, bxbs := if x.bxstart = BitVec.ofNat 16 k then x.bxbs else 3 }

/-- A BVX memory or conversion instruction completes: bxstart is 0 (Table 07-2). -/
def State.endStart (s : State) (h : Nat) : State := s.startAt h 0

/-- Run a BVX instruction: its word must be one of its own; `bs` is not off, and `ill` not set, except for
`bx.setvl` (R238, R239, R254). -/
def State.bvx (s : State) (t : Nat) (h : HartIdx) (w : BitVec 32) (own : Nat → Bool) (setvl : Bool)
    (eff : State → Nat → Nat → State) : Host.Outcome State Fault Refusal :=
  let s := s.arrive t
  let x := s.hart h.val
  .next (if s.hartGone h.val then s
    else if !own w.toNat || x.bxbs == 0 || (x.ill && !setvl) then s.illegal h.val w.toNat
    else eff s h.val w.toNat)

/-! ### Arithmetic (R245) -/

/-- Format of floating-point elements. -/
def fltOfEw (ew : Nat) : Flt := if ew = 32 then fp32 else fp64

/-- The floating-point scalar of a scalar form; an FP32 value that is not NaN-boxed reads as the canonical NaN. -/
def State.fScalar (s : State) (h r ew : Nat) : Nat :=
  let v := s.getF h r
  if ew = 32 then (if v / 2 ^ 32 = 2 ^ 32 - 1 then v % 2 ^ 32 else fp32.nan) else v

/-- The right operand of element i. -/
def State.rightElem (s : State) (h w : Nat) (fp : Bool) (i : Nat) : Nat :=
  let x := s.hart h
  if bxScalar w then (if fp then s.fScalar h (bxA w) x.ew else s.getX h (bxA w) % 2 ^ x.ew)
  else elemAt (s.vGroup h (bxA w) x.group) x.ew i

/-- Whether the word's operands are in order: widths for floating point, registers on their groups. -/
def State.operandsOk (s : State) (h w : Nat) (fp vd : Bool) : Bool :=
  let x := s.hart h
  (!fp || decide (32 ≤ x.ew)) &&
  aligned x.group ((if vd then [bxD w] else []) ++ [bxB w] ++ (if bxScalar w then [] else [bxA w]))

/-- Element-wise operation: width, direction, left (vs2), right (vs1 or scalar), old vd; result and flags. -/
def State.vectorOp (s : State) (h w : Nat) (fp usesRm : Bool) (f : Nat → Rm → Nat → Nat → Nat → Nat × Nat) : State :=
  let x := s.hart h
  match x.rm, usesRm with
  | none, true => s.illegal h w
  | rm, _ =>
    if !s.operandsOk h w fp true then s.illegal h w
    else if x.vl = 0 then s
    else
      let old := s.vGroup h (bxD w) x.group
      let left := s.vGroup h (bxB w) x.group
      let r := (s.active h w).map fun i =>
        (i, f x.ew (rm.getD .rne) (elemAt left x.ew i) (s.rightElem h w fp i) (elemAt old x.ew i))
      let s := s.setGroupRegs h (bxD w) x.group (putElems old x.ew (r.map fun e => (e.1, e.2.1)))
      if fp then s.accrue h (r.foldl (fun m e => m ||| e.2.2) 0) else s

/-- Compare into m[vd[2:0]] (R247). -/
def State.compareOp (s : State) (h w : Nat) (fp : Bool) (f : Nat → Nat → Nat → Bool × Nat) : State :=
  let x := s.hart h
  if 8 ≤ bxD w ∨ !s.operandsOk h w fp false then s.illegal h w
  else if x.vl = 0 then s
  else
    let left := s.vGroup h (bxB w) x.group
    let r := (s.active h w).map fun i => (i, f x.ew (elemAt left x.ew i) (s.rightElem h w fp i))
    let s := s.setMask h (bxD w) (r.foldl (fun m e => setBit m e.1 e.2.1) (s.maskReg h (bxD w)))
    if fp then s.accrue h (r.foldl (fun m e => m ||| e.2.2) 0) else s

/-- `fmin.d` and `fmax.d` of the D extension: a NaN operand yields the other operand. -/
def rvMin (f : Flt) (a b : Nat) : Nat × Nat :=
  let x := f.decode a
  let y := f.decode b
  let fl := snanFlag f [a, b]
  if x.isNan then (if y.isNan then f.nan else b, fl) else if y.isNan then (a, fl) else (if y.ltZ x then b else a, fl)
def rvMax (f : Flt) (a b : Nat) : Nat × Nat :=
  let x := f.decode a
  let y := f.decode b
  let fl := snanFlag f [a, b]
  if x.isNan then (if y.isNan then f.nan else b, fl) else if y.isNan then (a, fl) else (if x.ltZ y then b else a, fl)

/-- The sign bit of an element pattern changed. -/
def flipSign (ew v : Nat) : Nat := if bit v (ew - 1) then v - 2 ^ (ew - 1) else v + 2 ^ (ew - 1)

/-- Compares of the D extension, with flags: `feq` is quiet, `flt` and `fle` signal any NaN. -/
def fpEq (ew a b : Nat) : Bool × Nat :=
  let f := fltOfEw ew
  ((f.decode a).eq (f.decode b), snanFlag f [a, b])
def fpOrd (ew a b : Nat) (orEq : Bool) : Bool × Nat :=
  let f := fltOfEw ew
  let x := f.decode a
  let y := f.decode b
  if x.isNan || y.isNan then (false, 16) else (x.lt y || (orEq && x.eq y), 0)

/-- BX_FADD (R245): vd = vs2 + vs1. -/
def execBxFadd (t : Nat) (h : HartIdx) (w : BitVec 32) (s : State) : Host.Outcome State Fault Refusal :=
  s.bvx t h w (custom0 0x00 true) false fun s h w => s.vectorOp h w true true fun ew rm a b _ => fAdd (fltOfEw ew) rm a b
/-- BX_FSUB (R245): vd = vs2 − vs1. -/
def execBxFsub (t : Nat) (h : HartIdx) (w : BitVec 32) (s : State) : Host.Outcome State Fault Refusal :=
  s.bvx t h w (custom0 0x01 true) false fun s h w => s.vectorOp h w true true fun ew rm a b _ => fSub (fltOfEw ew) rm a b
/-- BX_FMUL (R245): vd = vs2 × vs1. -/
def execBxFmul (t : Nat) (h : HartIdx) (w : BitVec 32) (s : State) : Host.Outcome State Fault Refusal :=
  s.bvx t h w (custom0 0x02 true) false fun s h w => s.vectorOp h w true true fun ew rm a b _ => fMul (fltOfEw ew) rm a b
/-- BX_FDIV (R245): vd = vs2 / vs1. -/
def execBxFdiv (t : Nat) (h : HartIdx) (w : BitVec 32) (s : State) : Host.Outcome State Fault Refusal :=
  s.bvx t h w (custom0 0x03 true) false fun s h w => s.vectorOp h w true true fun ew rm a b _ => fDiv (fltOfEw ew) rm a b
/-- BX_FSQRT (R245): vd = √vs2; vs1 must be 0. -/
def execBxFsqrt (t : Nat) (h : HartIdx) (w : BitVec 32) (s : State) : Host.Outcome State Fault Refusal :=
  s.bvx t h w (fun w => custom0 0x04 false w && bxA w == 0) false fun s h w =>
    s.vectorOp h w true true fun ew rm a _ _ => fSqrt (fltOfEw ew) rm a
/-- BX_FMIN (R245): as `fmin.d`. -/
def execBxFmin (t : Nat) (h : HartIdx) (w : BitVec 32) (s : State) : Host.Outcome State Fault Refusal :=
  s.bvx t h w (custom0 0x05 true) false fun s h w => s.vectorOp h w true false fun ew _ a b _ => rvMin (fltOfEw ew) a b
/-- BX_FMAX (R245): as `fmax.d`. -/
def execBxFmax (t : Nat) (h : HartIdx) (w : BitVec 32) (s : State) : Host.Outcome State Fault Refusal :=
  s.bvx t h w (custom0 0x06 true) false fun s h w => s.vectorOp h w true false fun ew _ a b _ => rvMax (fltOfEw ew) a b
/-- BX_FSGNJ (R245): magnitude of vs2, sign of vs1. -/
def execBxFsgnj (t : Nat) (h : HartIdx) (w : BitVec 32) (s : State) : Host.Outcome State Fault Refusal :=
  s.bvx t h w (custom0 0x07 true) false fun s h w => s.vectorOp h w true false fun ew _ a b _ =>
    (setBit a (ew - 1) (bit b (ew - 1)), 0)
/-- BX_FMADD (R245): vd = vs1 × vs2 + vd, one rounding. -/
def execBxFmadd (t : Nat) (h : HartIdx) (w : BitVec 32) (s : State) : Host.Outcome State Fault Refusal :=
  s.bvx t h w (custom0 0x08 true) false fun s h w => s.vectorOp h w true true fun ew rm a b d => fFma (fltOfEw ew) rm b a d
/-- BX_FMSUB (R245): vd = vs1 × vs2 − vd. -/
def execBxFmsub (t : Nat) (h : HartIdx) (w : BitVec 32) (s : State) : Host.Outcome State Fault Refusal :=
  s.bvx t h w (custom0 0x09 true) false fun s h w => s.vectorOp h w true true fun ew rm a b d =>
    fFma (fltOfEw ew) rm b a (flipSign ew d)
/-- BX_FNMADD (R245): vd = −(vs1 × vs2) + vd. -/
def execBxFnmadd (t : Nat) (h : HartIdx) (w : BitVec 32) (s : State) : Host.Outcome State Fault Refusal :=
  s.bvx t h w (custom0 0x0A true) false fun s h w => s.vectorOp h w true true fun ew rm a b d =>
    fFma (fltOfEw ew) rm (flipSign ew b) a d

/-- BX_FREDOSUM (R246): element 0 of vs1, then elements 0 to bxvl − 1 of vs2 in ascending index. -/
def execBxFredosum (t : Nat) (h : HartIdx) (w : BitVec 32) (s : State) : Host.Outcome State Fault Refusal :=
  s.bvx t h w (custom0 0x0B false) false fun s h w =>
    let x := s.hart h
    match x.rm with
    | none => s.illegal h w
    | some rm =>
      if !s.operandsOk h w true true then s.illegal h w
      else if x.vl = 0 then s
      else
        let v2 := s.vGroup h (bxB w) x.group
        let idx := (List.range x.vl).filter fun i => !bxMk w || bit (s.maskReg h (bxMsk w)) i
        let r := idx.foldl (fun (a : Nat × Nat) i =>
          let q := fAdd (fltOfEw x.ew) rm a.1 (elemAt v2 x.ew i)
          (q.1, a.2 ||| q.2)) (elemAt (s.vGroup h (bxA w) x.group) x.ew 0, 0)
        (s.setGroupRegs h (bxD w) x.group (putElems (s.vGroup h (bxD w) x.group) x.ew [(0, r.1)])).accrue h r.2

/-- BX_FEQ (R247). -/
def execBxFeq (t : Nat) (h : HartIdx) (w : BitVec 32) (s : State) : Host.Outcome State Fault Refusal :=
  s.bvx t h w (custom0 0x0C true) false fun s h w => s.compareOp h w true fpEq
/-- BX_FLT (R247). -/
def execBxFlt (t : Nat) (h : HartIdx) (w : BitVec 32) (s : State) : Host.Outcome State Fault Refusal :=
  s.bvx t h w (custom0 0x0D true) false fun s h w => s.compareOp h w true fun ew a b => fpOrd ew a b false
/-- BX_FLE (R247). -/
def execBxFle (t : Nat) (h : HartIdx) (w : BitVec 32) (s : State) : Host.Outcome State Fault Refusal :=
  s.bvx t h w (custom0 0x0E true) false fun s h w => s.compareOp h w true fun ew a b => fpOrd ew a b true

/-- An integer operation, modulo 2^ew. -/
def State.intOp (s : State) (h w : Nat) (f : Nat → Nat → Nat → Nat) : State :=
  s.vectorOp h w false false fun ew _ a b _ => (f ew a b % 2 ^ ew, 0)

/-- BX_ADD (R245). -/
def execBxAdd (t : Nat) (h : HartIdx) (w : BitVec 32) (s : State) : Host.Outcome State Fault Refusal :=
  s.bvx t h w (custom0 0x10 true) false fun s h w => s.intOp h w fun _ a b => a + b
/-- BX_SUB (R245): vs2 − vs1. -/
def execBxSub (t : Nat) (h : HartIdx) (w : BitVec 32) (s : State) : Host.Outcome State Fault Refusal :=
  s.bvx t h w (custom0 0x11 true) false fun s h w => s.intOp h w fun ew a b => a + (2 ^ ew - b)
/-- BX_MUL (R245): the low ew bits. -/
def execBxMul (t : Nat) (h : HartIdx) (w : BitVec 32) (s : State) : Host.Outcome State Fault Refusal :=
  s.bvx t h w (custom0 0x12 true) false fun s h w => s.intOp h w fun _ a b => a * b
/-- BX_AND (R245). -/
def execBxAnd (t : Nat) (h : HartIdx) (w : BitVec 32) (s : State) : Host.Outcome State Fault Refusal :=
  s.bvx t h w (custom0 0x13 true) false fun s h w => s.intOp h w fun _ a b => a &&& b
/-- BX_OR (R245). -/
def execBxOr (t : Nat) (h : HartIdx) (w : BitVec 32) (s : State) : Host.Outcome State Fault Refusal :=
  s.bvx t h w (custom0 0x14 true) false fun s h w => s.intOp h w fun _ a b => a ||| b
/-- BX_XOR (R245). -/
def execBxXor (t : Nat) (h : HartIdx) (w : BitVec 32) (s : State) : Host.Outcome State Fault Refusal :=
  s.bvx t h w (custom0 0x15 true) false fun s h w => s.intOp h w fun _ a b => a ^^^ b
/-- BX_SLL (R245): vs2 shifted left by vs1 mod ew. -/
def execBxSll (t : Nat) (h : HartIdx) (w : BitVec 32) (s : State) : Host.Outcome State Fault Refusal :=
  s.bvx t h w (custom0 0x16 true) false fun s h w => s.intOp h w fun ew a b => a <<< (b % ew)
/-- BX_SRL (R245). -/
def execBxSrl (t : Nat) (h : HartIdx) (w : BitVec 32) (s : State) : Host.Outcome State Fault Refusal :=
  s.bvx t h w (custom0 0x17 true) false fun s h w => s.intOp h w fun ew a b => a >>> (b % ew)
/-- BX_SRA (R245). -/
def execBxSra (t : Nat) (h : HartIdx) (w : BitVec 32) (s : State) : Host.Outcome State Fault Refusal :=
  s.bvx t h w (custom0 0x18 true) false fun s h w => s.intOp h w fun ew a b => ofSigned ew (toSigned ew a / (2 ^ (b % ew) : Nat))
/-- BX_MINU (R245). -/
def execBxMinu (t : Nat) (h : HartIdx) (w : BitVec 32) (s : State) : Host.Outcome State Fault Refusal :=
  s.bvx t h w (custom0 0x19 true) false fun s h w => s.intOp h w fun _ a b => min a b
/-- BX_MAXU (R245). -/
def execBxMaxu (t : Nat) (h : HartIdx) (w : BitVec 32) (s : State) : Host.Outcome State Fault Refusal :=
  s.bvx t h w (custom0 0x1A true) false fun s h w => s.intOp h w fun _ a b => max a b
/-- BX_MIN (R245): signed. -/
def execBxMin (t : Nat) (h : HartIdx) (w : BitVec 32) (s : State) : Host.Outcome State Fault Refusal :=
  s.bvx t h w (custom0 0x1B true) false fun s h w => s.intOp h w fun ew a b => if toSigned ew a ≤ toSigned ew b then a else b
/-- BX_MAX (R245): signed. -/
def execBxMax (t : Nat) (h : HartIdx) (w : BitVec 32) (s : State) : Host.Outcome State Fault Refusal :=
  s.bvx t h w (custom0 0x1C true) false fun s h w => s.intOp h w fun ew a b => if toSigned ew a ≤ toSigned ew b then b else a
/-- BX_SEQ (R247). -/
def execBxSeq (t : Nat) (h : HartIdx) (w : BitVec 32) (s : State) : Host.Outcome State Fault Refusal :=
  s.bvx t h w (custom0 0x1D true) false fun s h w => s.compareOp h w false fun _ a b => (a == b, 0)
/-- BX_SLTU (R247). -/
def execBxSltu (t : Nat) (h : HartIdx) (w : BitVec 32) (s : State) : Host.Outcome State Fault Refusal :=
  s.bvx t h w (custom0 0x1E true) false fun s h w => s.compareOp h w false fun _ a b => (decide (a < b), 0)
/-- BX_SLT (R247). -/
def execBxSlt (t : Nat) (h : HartIdx) (w : BitVec 32) (s : State) : Host.Outcome State Fault Refusal :=
  s.bvx t h w (custom0 0x1F true) false fun s h w => s.compareOp h w false fun ew a b => (decide (toSigned ew a < toSigned ew b), 0)

/-! ### Loads and stores (R241 to R244) -/

/-- Address of element i: x[rs1] + i × ew / 8. -/
def State.elemAddr (s : State) (h w i : Nat) : Nat := (s.getX h (bxA w) + i * ((s.hart h).ew / 8)) % 2 ^ 64

/-- The parts of an access of n bytes that lie in one page each: address, offset, bytes. -/
def pageParts (a n : Nat) : List (Nat × Nat × Nat) :=
  let k := 4096 - a % 4096
  if n ≤ k then [(a, 0, n)] else [(a, 0, k), ((a + k) % 2 ^ 64, k, n - k)]

/-- A load of n bytes reaches a word of the control view: at offset 0x00 or 0x08 (09 R327). -/
def ctlWordAt (a n : Nat) : Bool := decide (n ≤ 8) && (a % 2 ^ 21 == 0 || a % 2 ^ 21 == 8)

/-- The exception of a part of an access: of translation or PMP (R231), or an access fault of the control view (09 R327). -/
def State.partFault (s : State) (h n : Nat) (store : Bool) (e : Nat × Nat × Nat) : Option (Nat × Nat) :=
  match s.reach h e.1 e.2.2 store with
  | .error c => some (c, e.1)
  | .ok a => if bit a 55 && (store || e.2.2 != n || !ctlWordAt a n) then some (accessCause store, e.1) else none

/-- The exception of element i, with the address of its first faulting byte: the one the command brings for it, or that of
its parts. -/
def State.elemFault (s : State) (h w : Nat) (store : Bool) (pf : Option PageFault) (i : Nat) : Option (Nat × Nat) :=
  let a := s.elemAddr h w i
  let n := (s.hart h).ew / 8
  match pf.filter fun f => f.elem == i with
  | some f => some (f.cause, (a + f.byte) % 2 ^ 64)
  | none => (pageParts a n).findSome? (s.partFault h n store)

/-- Load bytes off to off + len of an n-byte element from a physical address into their place in vd; false: it waits. -/
def State.loadBytes (s : State) (h n a off len : Nat) (rd place : Nat) : State × Bool :=
  let pa := a % 2 ^ 48
  let dl := Deliver.vreg h rd (place + off)
  if bit a 55 then (s.ctlLoad h a n dl, true)
  else if s.hartRoute h a = .here then
    match s.loadFrom (.hart h) (laneOf n) off pa len with
    | (s, none) => (s, false)
    | (s, some (l, c)) => ((s.deliver dl 0 0 l).localFault h 1 pa len (if c = 0 then 0 else 1) c, true)
  else if len = n ∧ pa % n = 0 then
    if s.unitFull (hartUnit h) 1 then (s, false) else (s.request (s.hartPacket h 1 1 pa n []) (s.hartPath h a) dl, true)
  else if s.unitFull (hartUnit h) len then (s, false)
  else ((List.range len).foldl (fun s j =>
    s.request { s.hartPacket h 1 1 (pa + j) 1 [] with lane := laneOf n } (s.hartPath h a)
      (.vreg h rd (place + off + j))) s, true)

/-- Do a part of an access at its physical address, when translation gives one. -/
def State.atPart (s : State) (h : Nat) (store : Bool) (e : Nat × Nat × Nat) (f : State → Nat → State × Bool) : State × Bool :=
  match s.reach h e.1 e.2.2 store with
  | .error _ => (s, true)
  | .ok a => f s a

/-- The parts of an access in order, until one waits. -/
def State.overParts (s : State) (f : State → Nat × Nat × Nat → State × Bool) : List (Nat × Nat × Nat) → State × Bool
  | [] => (s, true)
  | e :: l =>
    match f s e with
    | (s, true) => s.overParts f l
    | (s, false) => (s, false)

/-- Load element i into its place in vd; false: it waits. -/
def State.loadElem (s : State) (h w i : Nat) : State × Bool :=
  let n := (s.hart h).ew / 8
  s.overParts (fun s e => s.atPart h false e fun s a => s.loadBytes h n a e.2.1 e.2.2 (bxD w) (i * n))
    (pageParts (s.elemAddr h w i) n)

/-- Store element i of vs3. -/
def State.storeElem (s : State) (h w i : Nat) : State × Bool :=
  let x := s.hart h
  let n := x.ew / 8
  let l := bytesOf n (elemAt (s.vGroup h (bxD w) x.group) x.ew i)
  s.overParts (fun s e => s.atPart h true e fun s a =>
    let s' := s.solverStore h a (a % 2 ^ 48) ((l.drop e.2.1).take e.2.2)
    (s', s'.ans.status != stWait)) (pageParts (s.elemAddr h w i) n)

/-- Run elements in order until one faults or waits: the elements done, the first that faults with its exception, the
first that waits. -/
def State.elements (s : State) (h w : Nat) (store : Bool) (pf : Option PageFault) (f : State → Nat → State × Bool) :
    List Nat → State × Option (Nat × Nat × Nat) × Option Nat
  | [] => (s, none, none)
  | i :: l =>
    match s.elemFault h w store pf i with
    | some e => (s, some (i, e), none)
    | none =>
      match f s i with
      | (s, true) => s.elements h w store pf f l
      | (s, false) => (s, none, some i)

/-- Element-precise load or store (R242): at a fault, bxstart is the element and the exception is taken. -/
def State.preciseMem (s : State) (h w : Nat) (store : Bool) (pf : Option PageFault) : State :=
  let x := s.hart h
  if bxB w ≠ 0 ∨ !aligned x.group [bxD w] then s.illegal h w
  else if x.vl = 0 then s
  else match s.elements h w store pf (fun s i => if store then s.storeElem h w i else s.loadElem h w i) (s.active h w) with
    | (s, _, some i) => (s.startAt h i).answer stWait []
    | (s, some (k, cause, tval), _) =>
      let s := if store then s else s.setHart h { s.hart h with bxbs := 3 }
      (s.startAt h k).trap h cause tval
    | (s, none, _) => (if store then s else s.setHart h { s.hart h with bxbs := 3 }).endStart h

/-- BX_LD (R241, R242). `pf`: a page fault or access fault that the translation held outside the block's state finds (R231). -/
def execBxLd (t : Nat) (h : HartIdx) (w : BitVec 32) (pf : Option PageFault) (s : State) : Host.Outcome State Fault Refusal :=
  s.bvx t h w (custom1 0x00 true) false fun s h w => s.preciseMem h w false pf

/-- BX_ST (R241, R242). -/
def execBxSt (t : Nat) (h : HartIdx) (w : BitVec 32) (pf : Option PageFault) (s : State) : Host.Outcome State Fault Refusal :=
  s.bvx t h w (custom1 0x02 true) false fun s h w => s.preciseMem h w true pf

/-- BX_LDFF (R243): a fault past the first active element trims bxvl and sets `ff`. -/
def execBxLdff (t : Nat) (h : HartIdx) (w : BitVec 32) (pf : Option PageFault) (s : State) : Host.Outcome State Fault Refusal :=
  s.bvx t h w (custom1 0x01 true) false fun s h w =>
    let x := s.hart h
    if bxB w ≠ 0 ∨ !aligned x.group [bxD w] then s.illegal h w
    else if x.vl = 0 then s
    else
      let act := s.active h w
      match s.elements h w false pf (fun s i => s.loadElem h w i) act with
      | (s, _, some _) => s.answer stWait []
      | (s, some (k, cause, tval), _) =>
        if act.head? = some k then
          (s.startAt h k).trap h cause tval
        else
          (s.setHart h { s.hart h with bxbs := 3, bxvl := BitVec.ofNat 64 k, bxff := true }).endStart h
      | (s, none, _) => (s.setHart h { s.hart h with bxbs := 3 }).endStart h

/-! ### Permutes, masks, moves (R247, R248, R254) -/

/-- Two register blocks share a register. -/
def overlap (a n b m : Nat) : Bool := decide (a < b + m) && decide (b < a + n)

/-- BX_TPERM (R248): funct6 0x04 to 0x07, with 1, 2, 4 or 8 table registers. -/
def execBxTperm (t : Nat) (h : HartIdx) (w : BitVec 32) (s : State) : Host.Outcome State Fault Refusal :=
  s.bvx t h w (fun w => w % 128 == 0x2B && decide (0x04 ≤ bxF6 w ∧ bxF6 w ≤ 0x07)) false fun s h w =>
    let x := s.hart h
    let n := 2 ^ (bxF6 w - 4)
    if !aligned x.group [bxD w, bxA w] || !aligned n [bxB w] || overlap (bxB w) n (bxA w) x.group ||
        overlap (bxB w) n (bxD w) x.group || overlap (bxA w) x.group (bxD w) x.group then s.illegal h w
    else if x.vl = 0 then s
    else
      let table := s.vGroup h (bxB w) n
      let idx := s.vGroup h (bxA w) x.group
      let len := n * 4096 / x.ew
      let r := (s.active h w).map fun i =>
        let j := elemAt idx x.ew i
        (i, if j < len then elemAt table x.ew j else 0)
      s.setGroupRegs h (bxD w) x.group (putElems (s.vGroup h (bxD w) x.group) x.ew r)

/-- A mask operation on all 512 bits (R247). -/
def State.maskOp (s : State) (h w : Nat) (f : Nat → Nat → Nat) : State :=
  s.setMask h (bxD w % 8) (f (s.maskReg h (bxA w % 8)) (s.maskReg h (bxB w % 8)))

/-- BX_MAND (R247). -/
def execBxMand (t : Nat) (h : HartIdx) (w : BitVec 32) (s : State) : Host.Outcome State Fault Refusal :=
  s.bvx t h w (custom1 0x0C false) false fun s h w => s.maskOp h w fun a b => a &&& b
/-- BX_MOR (R247). -/
def execBxMor (t : Nat) (h : HartIdx) (w : BitVec 32) (s : State) : Host.Outcome State Fault Refusal :=
  s.bvx t h w (custom1 0x0D false) false fun s h w => s.maskOp h w fun a b => a ||| b
/-- BX_MXOR (R247). -/
def execBxMxor (t : Nat) (h : HartIdx) (w : BitVec 32) (s : State) : Host.Outcome State Fault Refusal :=
  s.bvx t h w (custom1 0x0E false) false fun s h w => s.maskOp h w fun a b => a ^^^ b
/-- BX_MANDN (R247): a AND NOT b. -/
def execBxMandn (t : Nat) (h : HartIdx) (w : BitVec 32) (s : State) : Host.Outcome State Fault Refusal :=
  s.bvx t h w (custom1 0x0F false) false fun s h w => s.maskOp h w fun a b => a &&& ((2 ^ 512 - 1) ^^^ b)

/-- BX_MRD (R254): 64 bits of a mask register into x[rd]. -/
def execBxMrd (t : Nat) (h : HartIdx) (w : BitVec 32) (s : State) : Host.Outcome State Fault Refusal :=
  s.bvx t h w (custom1 0x10 false) false fun s h w =>
    let c := bits w 22 20
    s.setX h (bxD w) (bits (s.maskReg h (bxA w % 8)) (64 * c + 63) (64 * c))

/-- BX_MWR (R254): x[rs1] into 64 bits of a mask register. -/
def execBxMwr (t : Nat) (h : HartIdx) (w : BitVec 32) (s : State) : Host.Outcome State Fault Refusal :=
  s.bvx t h w (custom1 0x11 false) false fun s h w =>
    let c := bits w 22 20
    s.setMask h (bxD w % 8) (setBits (s.maskReg h (bxD w % 8)) (64 * c + 63) (64 * c) (s.getX h (bxA w)))

/-- BX_EXT (R254): element x[rs1] of vs2, zero-extended; 0 at or beyond VLMAX. -/
def execBxExt (t : Nat) (h : HartIdx) (w : BitVec 32) (s : State) : Host.Outcome State Fault Refusal :=
  s.bvx t h w (custom1 0x12 false) false fun s h w =>
    let x := s.hart h
    let i := s.getX h (bxA w)
    if !aligned x.group [bxB w] then s.illegal h w
    else s.setX h (bxD w) (if i < x.vlmax then elemAt (s.vGroup h (bxB w) x.group) x.ew i else 0)

/-- BX_BCAST (R254): every active element = x[rs1] or f[rs1]. -/
def execBxBcast (t : Nat) (h : HartIdx) (w : BitVec 32) (s : State) : Host.Outcome State Fault Refusal :=
  s.bvx t h w (fun w => custom1 0x0B true w && decide (bxB w ≤ 1)) false fun s h w =>
    let x := s.hart h
    if !aligned x.group [bxD w] then s.illegal h w
    else if x.vl = 0 then s
    else
      let v := if bxB w = 0 then s.getX h (bxA w) else s.fScalar h (bxA w) x.ew
      s.setGroupRegs h (bxD w) x.group
        (putElems (s.vGroup h (bxD w) x.group) x.ew ((s.active h w).map fun i => (i, v % 2 ^ x.ew)))

/-- BX_SETVL (R239): `cfg` in [23:20]; [24] 0. -/
def execBxSetvl (t : Nat) (h : HartIdx) (w : BitVec 32) (s : State) : Host.Outcome State Fault Refusal :=
  s.bvx t h w (fun w => custom1 0x18 false w && !bit w 24) true fun s h w =>
    let cfg := bits w 23 20
    let vlmax := 2 ^ bits cfg 3 2 * 4096 / (8 * 2 ^ bits cfg 1 0)
    let ill := decide (512 < vlmax)
    let vl := if ill then 0 else min (s.getX h (bxA w)) vlmax
    (s.setHart h { s.hart h with
      bxvl := BitVec.ofNat 64 vl
      bxvtype := BitVec.ofNat 64 (cfg + (b2n ill <<< 63)) }).setX h (bxD w) vl

/-! ### Conversions (R249 to R252) -/

/-- `bxhank` fields (Table 07-4). -/
def Hart.cvFmt (x : Hart) : Nat := bits x.bxhank.toNat 2 0
def Hart.cvHank (x : Hart) : Nat := bits x.bxhank.toNat 5 3
/-- Values in a hank; 0 for a plain conversion. -/
def Hart.hankLen (x : Hart) : Nat := if x.cvHank = 0 then 0 else 8 * 2 ^ x.cvHank
/-- Bytes of a code. -/
def Hart.codeBytes (x : Hart) : Nat := if x.cvFmt = 3 then 2 else 1
/-- `fmt` and `hank` hold no reserved value. -/
def Hart.cvOk (x : Hart) : Bool := decide (1 ≤ x.cvFmt ∧ x.cvFmt ≤ 3) && decide (x.cvHank ≤ 4)
/-- Registers that the codes of bxvl elements take. -/
def Hart.codeRegs (x : Hart) : Nat := max 1 (ceilDiv (x.vl * x.codeBytes) 512)

/-- Element codes and scale bytes of values (R250). -/
def Hart.narrow (x : Hart) (vs : List Num) : List Nat × List Nat :=
  let f := fltOf x.cvFmt
  let sat := bit x.bxhank.toNat 7
  let H := x.hankLen
  if H = 0 then (vs.map fun v => (convertTo f sat (bit x.bxhank.toNat 8) .rne false v).1, [])
  else
    let given := if bit x.bxhank.toNat 6 then some (max (-127) (min 127 (toSigned 16 x.bxscale.toNat))) else none
    let hs := (chunksOf H (ceilDiv vs.length H) vs).map fun l => formHank f sat given (fun _ => .rne) false l
    (hs.flatMap (·.codes), hs.map (·.scale))

/-- BX_CVTN (R250). -/
def execBxCvtn (t : Nat) (h : HartIdx) (w : BitVec 32) (s : State) : Host.Outcome State Fault Refusal :=
  s.bvx t h w (custom1 0x08 false) false fun s h w =>
    let x := s.hart h
    let n := x.codeRegs
    if !x.cvOk || x.ew < 32 || x.bxstart != 0 || !aligned x.group [bxA w] || !aligned n [bxD w] ||
        overlap (bxD w) n (bxA w) x.group || overlap (bxD w) n (bxB w) 1 || overlap (bxB w) 1 (bxA w) x.group then s.illegal h w
    else if x.vl = 0 then s
    else
      let src := s.vGroup h (bxA w) x.group
      let (codes, scales) := x.narrow ((List.range x.vl).map fun i => (fltOfEw x.ew).decode (elemAt src x.ew i))
      let s := s.setVBytes h (bxD w) 0 (codes.flatMap (bytesOf x.codeBytes))
      let s := if scales.isEmpty then s else s.setVBytes h (bxB w) 0 (scales.map fun v => BitVec.ofNat 8 v)
      (s.setHart h { s.hart h with bxbs := 3 }).endStart h

/-- BX_CVTW (R251): the inverse. -/
def execBxCvtw (t : Nat) (h : HartIdx) (w : BitVec 32) (s : State) : Host.Outcome State Fault Refusal :=
  s.bvx t h w (custom1 0x09 false) false fun s h w =>
    let x := s.hart h
    let n := x.codeRegs
    if !x.cvOk || x.ew < 32 || !aligned n [bxA w] || !aligned x.group [bxD w] then s.illegal h w
    else if x.vl = 0 then s
    else
      let cw := 8 * x.codeBytes
      let src := s.vGroup h (bxA w) n
      let sc := s.vGroup h (bxB w) 1
      let f := fltOf x.cvFmt
      let value := fun (i : Nat) =>
        let v := f.decode (elemAt src cw i)
        if x.hankLen = 0 then v
        else
          let b := elemAt sc 8 (i / x.hankLen)
          if b = 0xFF then .nan else v.scale2 ((b : Int) - 127)
      let code := fun (i : Nat) =>
        if x.ew = 64 then fp64.encode (value i)
        else (convertTo fp32 (bit x.bxhank.toNat 7) (bit x.bxhank.toNat 8) .rne false (value i)).1
      let s := s.setGroupRegs h (bxD w) x.group
        (putElems (s.vGroup h (bxD w) x.group) x.ew ((s.active h w).map fun i => (i, code i)))
      s.endStart h

/-- Floating point to an integer of the same width, with flags; out of range or NaN the result is free (R252 states none). -/
def toInteger (signed : Bool) (ew : Nat) (rm : Rm) (c : Nat) : Nat × Nat :=
  match (fltOfEw ew).decode c with
  | .fin neg m e =>
    let (q, inexact) := if 0 ≤ e then (m * 2 ^ e.toNat, false) else roundShift rm neg m (-e).toNat
    let v : Int := if neg then -(q : Int) else q
    let lo : Int := if signed then -(2 ^ (ew - 1) : Nat) else 0
    let hi : Int := if signed then (2 ^ (ew - 1) : Nat) - 1 else (2 ^ ew : Nat) - 1
    if v < lo ∨ hi < v then (Config.fcvtOutside signed ew c % 2 ^ ew, 16) else (ofSigned ew v, b2n inexact)
  | _ => (Config.fcvtOutside signed ew c % 2 ^ ew, 16)

/-- An integer to floating point of the same width. -/
def fromInteger (signed : Bool) (ew : Nat) (rm : Rm) (v : Nat) : Nat × Nat :=
  let x : Int := if signed then toSigned ew v else v
  finish (fltOfEw ew) rm [] (.fin (decide (x < 0)) x.natAbs 0)

/-- One element of `bx.fcvt`, by sub (Table 07-7). -/
def fcvtElem (sub ew : Nat) (rm : Rm) (c : Nat) : Nat × Nat :=
  match sub with
  | 0 =>
    let r := finish fp32 rm [] (fp64.decode c)
    if (fp64.decode c).isNan then (fp32.nan, snanFlag fp64 [c]) else r
  | 1 =>
    let r := finish fp64 rm [] (fp32.decode c)
    if (fp32.decode c).isNan then (fp64.nan, snanFlag fp32 [c]) else r
  | 2 => fromInteger true ew rm c
  | 3 => toInteger true ew rm c
  | 4 => fromInteger false ew rm c
  | _ => toInteger false ew rm c

/-- BX_FCVT (R252): sub in [24:20], source vs1. -/
def execBxFcvt (t : Nat) (h : HartIdx) (w : BitVec 32) (s : State) : Host.Outcome State Fault Refusal :=
  s.bvx t h w (custom1 0x0A true) false fun s h w =>
    let x := s.hart h
    let sub := bxB w
    let dw := if sub = 0 then 32 else if sub = 1 then 64 else x.ew
    let dg := if sub = 0 then max 1 (x.group / 2) else if sub = 1 then 2 * x.group else x.group
    match x.rm with
    | none => s.illegal h w
    | some rm =>
      if 5 < sub ∨ x.ew < 32 ∨ (sub = 0 ∧ x.ew ≠ 64) ∨ (sub = 1 ∧ x.ew ≠ 32) ∨ !aligned x.group [bxA w] ∨ !aligned dg [bxD w] then s.illegal h w
      else if x.vl = 0 then s
      else
        let src := s.vGroup h (bxA w) x.group
        let r := (s.active h w).map fun i => (i, fcvtElem sub x.ew rm (elemAt src x.ew i))
        let s := s.setGroupRegs h (bxD w) dg (putElems (s.vGroup h (bxD w) dg) dw (r.map fun e => (e.1, e.2.1)))
        (s.accrue h (r.foldl (fun m e => m ||| e.2.2) 0)).endStart h

end Sys2Proof.Machine
end

