-- ==== Sys2Proof/Machine/Coupling.lean ====
section
/-! DEFINITION. Machine/Coupling.lean: coupling windows from the solver side (07 R255 to R263), the BVX CSRs a hart
writes (07 R238, R261), and the release quorum (07 R256). -/

namespace Sys2Proof.Machine

/-- The window a hart names, when its partition's draft has it (Table 07-8, code 4). -/
def State.hartWindow (s : State) (h w : Nat) : Option (Nat × WinDesc) :=
  match s.partOfHart h with
  | none => none
  | some p => ((s.part p).draft.bind fun d => d.wins[w]?).map fun x => (p, x)

/-- Release quorum in force of window w of partition p (R256; 13 R445). -/
def State.quorum (s : State) (p w : Nat) : Nat :=
  let cut := (s.win p w).quorumCut
  if cut = 0 then s.odGet (0x2024 + p) (w + 1) else cut

/-- The solver side owns window w and holds a buffer of it that it has not released (R260). -/
def State.solverHolds (s : State) (p w : Nat) : Bool :=
  let y := s.win p w
  y.owner == .solver && !y.flag && (y.heldBy .solver).isSome

/-- BX_WREL (R257): releases window x[rs1]; it waits for the hart's earlier requests, as FENCE RW,W would. -/
def execBxWrel (t : Nat) (h : HartIdx) (w : BitVec 32) (s : State) : Host.Outcome State Fault Refusal :=
  s.bvx t h w (custom1 0x19 false) false fun s h w =>
    let n := s.getX h (bxA w)
    let u := s.srcUnit (hartUnit h)
    if !u.outstanding.isEmpty || !u.held.isEmpty then s.answer stWait []
    else match s.hartWindow h n with
      | none => s.setX h (bxD w) 4
      | some (p, _) =>
        let y := s.win p n
        if !s.solverHolds p n then s.setX h (bxD w) 3
        else if y.writeBack then s.setX h (bxD w) 2
        else if y.counted.contains h then s.setX h (bxD w) 1
        else
          let c := y.counted ++ [h]
          (s.setWin p n { y with counted := c, writeBack := decide (s.quorum p n ≤ c.length) }).setX h (bxD w) 0

/-- The status word of Table 07-9. -/
def State.windowStatus (s : State) (h n : Nat) : Nat :=
  match s.hartWindow h n with
  | none => 0
  | some (p, x) =>
    let y := s.win p n
    y.owner.code + (b2n y.flag <<< 2) + (b2n x.double <<< 4) + (1 <<< 5) +
    ((if x.double then (y.heldBy .solver).getD 0 else 0) <<< 6) + (y.counted.length <<< 16) + ((y.epoch % 2 ^ 32) <<< 32)

/-- BX_WSTAT (R262). -/
def execBxWstat (t : Nat) (h : HartIdx) (w : BitVec 32) (s : State) : Host.Outcome State Fault Refusal :=
  s.bvx t h w (custom1 0x1A false) false fun s h w => s.setX h (bxD w) (s.windowStatus h (s.getX h (bxA w)))

/-- `mip` as it reads: bit 16 is the level of bxwpend AND bxwmask (R261). -/
def Hart.mipNow (x : Hart) : Nat := setBit x.mip.toNat 16 (x.bxwpend &&& x.bxwmask != 0)

/-- An interrupt is pending and enabled in a hart. -/
def Hart.irqReady (x : Hart) : Bool := x.mipNow &&& x.mie.toNat != 0

/-- What ends a `bx.wwait` (R263). Once the release flag is set, the solver side is a non-owner (R260). -/
def State.waitEnds (s : State) (h n : Nat) : Bool :=
  (s.hart h).irqReady || match s.hartWindow h n with
  | none => true
  | some (p, _) => (s.win p n).owner == .solver && !(s.win p n).flag

/-- BX_WWAIT (R263). `mstatus.TW` makes it trap as an illegal instruction and `hstatus.VTW` as a
virtual instruction, as WFI. -/
def execBxWwait (t : Nat) (h : HartIdx) (w : BitVec 32) (tw : WaitTrap) (s : State) : Host.Outcome State Fault Refusal :=
  s.bvx t h w (custom1 0x1B false) false fun s h w =>
    let n := s.getX h (bxA w)
    let x := s.hart h
    match tw with
    | .tw => s.illegal h w
    | .vtw => s.trap h 22 w
    | .none =>
      if x.mode ≠ .machine ∧ bit (x.getCsr 0x300) 21 then s.illegal h w
      else if x.mode.virtual ∧ bit (x.getCsr 0x600) 21 then s.trap h 22 w
      else if s.waitEnds h n then s.setX h (bxD w) (s.windowStatus h n)
      else s.setHart h { s.hart h with waiting := some (n, bxD w) }

/-- BX_WWAIT_WAKE (R263): the stalled hart resumes and writes the status word. -/
def execBxWwaitWake (t : Nat) (h : HartIdx) (s : State) : Host.Outcome State Fault Refusal :=
  let s := s.arrive t
  match (s.hart h.val).waiting with
  | none => .next s
  | some (n, rd) =>
    if s.hartGone h.val || !s.waitEnds h.val n then .next s
    else .next ((s.setHart h.val { s.hart h.val with waiting := none }).setX h.val rd (s.windowStatus h.val n))

/-- WINDOW_FLAG_SET (R258): the write-back of a complete quorum has ended; the flag is set, and the solver side holds
the buffer no more (R260). -/
def execWindowFlagSet (t : Nat) (p : PartIdx) (w : Nat) (s : State) : Host.Outcome State Fault Refusal :=
  let s := s.arrive t
  let y := s.win p.val w
  if !y.writeBack then .next s
  else .next (s.setWin p.val w { y with
    writeBack := false
    flag := true
    lastCounted := y.counted
    bufs := y.bufs.map fun b => if b = .held .solver then .released .solver else b })

/-- WINDOW_QUORUM_WRITE (R256): OD 0x2024+p, subindex w + 1. -/
def execWindowQuorumWrite (t : Nat) (q : Option Nat) (p : PartIdx) (sub : Nat) (v : BitVec 16) (s : State) :
    Host.Outcome State Fault Refusal :=
  let p := p.val
  .next ((s.arrive t).command q (0x2024 + p) sub fun s =>
    let st := (s.part p).state
    if st = .armed ∨ st = .running ∨ v.toNat < 1 ∨ 256 < v.toNat then (s.event 0x0701 (ofPart p) [], false)
    else (s.odSet (0x2024 + p) sub v.toNat, true))

/-! ### CSRs (R238, R261) -/

/-- Bits of `mip` and `mie` that are the package's local interrupts. -/
def localIrqs : Nat := 0xF0000

/-- Bits a write of `mip` or `sip` may clear: the edge-raised interrupts 17 to 19. -/
def edgeIrqs : Nat := 0xE0000

/-- A hart's cycle at a time: an access and an event of one cycle meet in it (00 R10). -/
def State.sameCycle (s : State) (t : Nat) : Bool := t / s.cycleUnits == s.now / s.cycleUnits

/-- Clear the edge-raised interrupts that a value written holds 0 for; one raised in this cycle stays. -/
def State.clearIrqs (s : State) (h may v : Nat) : State :=
  let x := s.hart h
  let keep := if s.sameCycle x.mipAt then x.mipSet else 0
  s.setHart h { x with mip := (x.mip &&& BitVec.ofNat 64 (2 ^ 64 - 1 - (may &&& (2 ^ 64 - 1 - v)))) ||| (x.mip &&& keep) }

/-- `bxwpend` takes a value; a bit set in this cycle stays (R261). -/
def State.writePend (s : State) (h : Nat) (v : BitVec 64) : State :=
  let x := s.hart h
  let keep := if s.sameCycle x.pendAt then x.pendSet else 0
  s.setHart h { x with bxwpend := v ||| (x.bxwpend &&& keep) }

/-- A CSR that the hart's mode reaches takes a value. -/
def State.csrWrite (s : State) (h c : Nat) (v : BitVec 64) : State :=
  let x := s.hart h
  match c with
  | 0x001 => s.setHart h { x with fflags := v.truncate 5 }
  | 0x002 => s.setHart h { x with frm := v.truncate 3 }
  | 0x003 => s.setHart h { x with fflags := v.truncate 5, frm := (v >>> 5).truncate 3 }
  | 0x800 => s.setHart h { x with bxstart := v.truncate 16 }
  | 0x801 =>
    s.setHart h { x with bxff := v.getLsbD 0, bxbs := if x.mode = .machine then (v >>> 1).truncate 2 else x.bxbs }
  | 0x802 => s.setHart h { x with bxhank := v &&& 0x1FF }
  | 0x803 => s.setHart h { x with bxscale := v.truncate 16 }
  | 0x804 => s.setHart h { x with bxwmask := v }
  | 0x805 => s.writePend h v
  | 0x344 => s.clearIrqs h edgeIrqs v.toNat
  | 0x144 => s.clearIrqs h (edgeIrqs &&& x.mideleg.toNat) v.toNat
  | 0x304 => s.setHart h { x with mie := v }
  | 0x104 => s.setHart h { x with mie := (x.mie &&& ~~~ x.mideleg) ||| (v &&& x.mideleg) }
  | 0x303 => s.setHart h { x with mideleg := v }
  | 0x100 =>
    s.setHart h (x.setCsr 0x300 ((x.getCsr 0x300 &&& (2 ^ 64 - 1 - sstatusBits)) ||| (v.toNat &&& sstatusBits)))
  | 0x3A0 | 0x3A2 => s.setHart h (x.setPmpCfg c v.toNat)
  | 0x180 | 0x280 | 0x680 => s.setHart h (x.setCsr c (atpValue c (x.getCsr c) v.toNat))
  | _ => if 0x3B0 ≤ c ∧ c < 0x3C0 then s.setHart h (x.setPmpAddr (c - 0x3B0) v.toNat) else s.setHart h (x.setCsr c v.toNat)

/-- BX_CSR_WRITE (R236 to R238, R261; R231): a hart in a mode (`priv`: 0 user, 1 supervisor, 3 machine, 4 virtual user, 5
virtual supervisor) writes a CSR, and reads what it held. A CSR that there is not, that is read-only, or that is off with
`bs` 0 gives an illegal-instruction exception. -/
def execBxCsrWrite (t : Nat) (h : HartIdx) (csr : Nat) (v : BitVec 64) (priv : Nat) (s : State) : Host.Outcome State Fault Refusal :=
  let s := s.arrive t
  let h := h.val
  if s.hartGone h then .next s
  else
    let m := modeOf priv
    let s := s.setHart h { s.hart h with mode := m }
    match m.csrFault csr with
    | some e => .next (s.trap h e 0)
    | none =>
      let c := if m.virtual then guestCsr csr else csr
      match s.csrRead h c with
      | none => .next (s.trap h 2 0)
      | some old =>
        if csr / 1024 = 3 then .next (s.trap h 2 0) else .next ((s.csrWrite h c v).answer stOk (bytesOf 8 old))

end Sys2Proof.Machine
end

