-- ==== Sys2Proof/Machine/Links.lean ====
section
/-! DEFINITION. Machine/Links.lean: Rhoum ports: codewords, lane sparing, training, compatibility mode (09 R291 to
R301, R305; 18 R570). -/

namespace Sys2Proof.Machine

/-- A port in compatibility mode (R300). -/
def State.compat (s : State) (n : Nat) : Bool := bit (s.odGet 0x6002 (n + 1)) 1
/-- Code of a port state. -/
def PortState.code : PortState → Nat
  | .disabled => 0 | .training => 1 | .up => 2 | .upSpared => 3 | .down => 4 | .failed => 5

/-- OD 0x6003 *port_status* (Table 09-12). -/
def State.portStatus (s : State) (n : Nat) : Nat :=
  let x := s.port n
  x.state.code + (b2n (s.compat n) <<< 3)
    + (b2n (x.state == .up && !s.compat n && x.erased.isNone) <<< 4)
    + (((x.spared.filter fun l => decide (l < 6)).getD 0) <<< 5) + (x.partnerTier <<< 8) + (x.bad <<< 16)

/-- Number of ports in UP_SPARED. -/
def State.sparedPorts (s : State) : Nat := ((List.range 16).filter fun n => (s.port n).state == .upSpared).length

/-- A port leaves service: its in-band time with it (R57), and the port sets (R305). -/
def State.leaveService (s : State) (n : Nat) : State :=
  let s := s.setCad { s.cad with inBand := { s.cad.inBand with
    ports := setBit s.cad.inBand.ports n false, delayReq := fmDel s.cad.inBand.delayReq n } }
  s.selectSource

/-- A port enters DOWN (R297): packets of which flits have gone are lost, those that wait go by another port (R305). -/
def State.portDown (s : State) (n : Nat) : State :=
  let x := s.port n
  if x.state.usable ∨ x.state = .training then
    let up := x.state.usable
    let s := s.setPort n { x with
      state := .down, downSince := s.now, erased := .none, spared := .none, badRecent := [], replayBuf := [], egress := [] }
    let s := if up then s.event 0x0903 noOne [.half n] else s
    let s := s.leaveService n
    (x.egress.filter fun e => e.heads.isEmpty).foldl (fun s e => s.sendPacket e.charge e.packet) s
  else s

/-- Count one uncorrectable codeword (R294); 16 within a microsecond take the port down (R297). -/
def State.badCodeword (s : State) (n : Nat) : State :=
  let x := s.port n
  let l := x.badRecent.filter (fun t => decide (s.now < t + unitsPerUs)) ++ [s.now]
  let s := s.setPort n { x with bad := min (2 ^ 32 - 1) (x.bad + 1), badRecent := l }
  let s := s.event 0x0901 noOne [.half n]
  let s := if s.compat n then s.send (.flit n 1 (x.rxSeq - 1).toNat) else s
  if 16 ≤ l.length then s.portDown n else s

/-- Flits of a good codeword are received: their buffers are freed for credit returns (R292), the credits they bring and, in
compatibility mode, the acknowledgement they bring take effect, and the flits are acknowledged (R300). -/
def State.takeFlits (s : State) (n : Nat) (vcs : List Nat) (credits : List (Nat × Nat)) (ack : Option (BitVec 8)) : State :=
  let x := s.port n
  let x := { x with
    rxSeq := x.rxSeq + BitVec.ofNat 8 vcs.length
    owed := vcs.foldl (fun m v => fmSet m v (fmGet m v 0 + 1)) x.owed
    credits := credits.foldl (fun m e => fmSet m e.1 (fmGet m e.1 0 + e.2)) x.credits }
  let x := match ack with
    | some a => if s.compat n then { x with acked := a, replayBuf := x.replayBuf.filter fun q => decide ((q - a - 1).toNat < 128) } else x
    | none => x
  let s := s.setPort n x
  let s := if s.compat n ∧ !vcs.isEmpty then s.send (.flit n 4 (x.rxSeq - 1).toNat) else s
  s.drainPort n

/-- CODEWORD_RECEIVE (R292 to R294, R300; 11 R388): a codeword with its flits' virtual channels, the credits they
return and the sequence number they acknowledge; not `ok`: uncorrectable, its flits discarded. -/
def execCodewordReceive (t : Nat) (n : PortIdx) (ok : Bool) (vcs : List Nat) (credits : List (Nat × Nat))
    (ack : Option (BitVec 8)) (s : State) : Host.Outcome State Fault Refusal :=
  let s := s.arrive t
  let n := n.val
  if !(s.port n).state.usable then .next s
  else if !ok then .next (s.badCodeword n)
  else
    .next ((vcs.filter fun v => decide (12 ≤ v)).foldl (fun s _ => s.badCodeword n)
      (s.takeFlits n (vcs.filter fun v => decide (v < 12)) credits ack))

/-- LANE_LOSS (R295, R297): a lane loses lock, or else shows more than 1,024 symbol errors within 1 µs. -/
def execLaneLoss (t : Nat) (n : PortIdx) (lane : Fin 7) (lock : Bool) (s : State) : Host.Outcome State Fault Refusal :=
  let s := s.arrive t
  let n := n.val
  let x := s.port n
  match x.state with
  | .up =>
    if s.compat n then .next (if lock ∧ lane.val < 6 then s.portDown n else s)
    else match x.erased with
      | none => .next (s.setPort n { x with erased := some lane.val })
      | some l => .next (if l ≠ lane.val ∧ lock then s.portDown n else s)
  | .upSpared => .next (if lock ∧ x.spared ≠ some lane.val then s.portDown n else s)
  | _ => .next s

/-- LANE_SPARE_REMAP (R296; 13 R448): lane 6 takes the erased data lane's stream, by lane-control management flits; without
lane 6 there is only its loss to tell (13 Table 13-1). -/
def execLaneSpareRemap (t : Nat) (n : PortIdx) (s : State) : Host.Outcome State Fault Refusal :=
  let s := s.arrive t
  let n := n.val
  let x := s.port n
  match x.state, x.erased with
  | .up, some l =>
    if 6 ≤ l then
      .next (if x.spared = some l then s else (s.setPort n { x with spared := some l }).event 0x0902 noOne [.half n, .half l])
    else
      let before := s.sparedPorts
      let s := s.setPort n { x with state := .upSpared, erased := .none, spared := some l }
      .next (((s.send (.flit n 3 l)).event 0x0902 noOne [.half n, .half l]).warnIfReached 4 before s.sparedPorts)
  | _, _ => .next s

/-- PORT_RETRAIN (R297): a DOWN port tries again 100 ms after it went down or last tried; one without its cable
waits (18 R570). -/
def execPortRetrain (t : Nat) (n : PortIdx) (s : State) : Host.Outcome State Fault Refusal :=
  let s := s.arrive t
  let n := n.val
  let x := s.port n
  if x.state = .down ∧ x.downSince + 100 * unitsPerMs ≤ s.now then
    .next (s.setPort n { x with downSince := s.now, state := if x.present then .training else .down })
  else .next s

/-- PORT_TRAINING (R298, R299): training of an enabled port completes. `failed`: lanes that failed; `tier`,
`isPackage`: what the partner reports. -/
def execPortTraining (t : Nat) (n : PortIdx) (failed : BitVec 7) (tier : Nat) (isPackage : Bool) (s : State) :
    Host.Outcome State Fault Refusal :=
  let s := s.arrive t
  let n := n.val
  let x := s.port n
  if x.state ≠ .training then .next s
  else
    let bad := maskBits 7 failed.toNat
    let told := tier ≠ s.portLevel n ∨ isPackage
    if !x.present then .next (s.setPort n { x with state := .down, downSince := s.now }).endStage7
    else if told then
      .next ((s.setPort n { x with state := .failed, partnerTier := tier % 8 }).event 0x0905 noOne [.half n]).endStage7
    else if 2 ≤ bad.length then
      .next (s.setPort n { x with state := .down, downSince := s.now, partnerTier := tier % 8 }).endStage7
    else
      let before := s.sparedPorts
      let lane := bad.find? fun l => decide (l < 6)
      let s := s.setPort n { x with
        state := if lane.isSome then .upSpared else .up
        erased := if bad.contains 6 then some 6 else .none
        spared := bad.head?, partnerTier := tier % 8, badRecent := [], replayBuf := [], credits := [], owed := [], downSince := 0 }
      let s := if x.downSince = 0 then s else s.event 0x0904 noOne [.half n]
      let s := match bad.head? with | some l => s.event 0x0902 noOne [.half n, .half l] | none => s
      .next (s.warnIfReached 4 before s.sparedPorts).endStage7

/-- LINK_NAK (R300): in compatibility mode the sender replays, in order, the flits after the last one acknowledged. -/
def execLinkNak (t : Nat) (n : PortIdx) (s : State) : Host.Outcome State Fault Refusal :=
  let s := s.arrive t
  let n := n.val
  if s.compat n ∧ (s.port n).state.usable then
    .next (((s.port n).replayBuf.foldl (fun s q => s.send (.flit n 2 q.toNat)) s).event 0x0906 noOne [.half n])
  else .next s

/-- FLYOVER_REMOVED (18 R570): FLY_PRES_N goes high, or low again with `present`. -/
def execFlyoverRemoved (t : Nat) (n : PortIdx) (present : Bool) (s : State) : Host.Outcome State Fault Refusal :=
  let s := s.arrive t
  let n := n.val
  let s := s.setPort n { s.port n with present := present }
  if present then .next s else .next ((s.portDown n).event 0x1202 noOne [.half n])

end Sys2Proof.Machine
end

