-- ==== Sys2Proof/Machine/Resil.lean ====
section
/-! DEFINITION. Machine/Resil.lean: loss of a die (13 R423, R438, R444 to R447; 01 R45, R46, R54; 16 R524; 17 R542)
and the acknowledgements of a doff (13 R453, R454). -/

namespace Sys2Proof.Machine

/-! ### Sessions end (14 R484) -/

/-- End a session: its subscriptions and its queued state go with it. -/
def State.endSession (s : State) (id : Nat) : State :=
  { s with aoap := { s.aoap with sessions := fmDel s.aoap.sessions id } }

/-- The host die a transport instance is served by; the mailbox runs on HX0 while it is present (17 R540). -/
def State.transportDie (s : State) : Transport → Nat
  | .ethernet p => if p then 31 else 30
  | .i3c b => if b then 31 else 30
  | .mailbox => if s.cfg.lost.contains 30 then 31 else 30

/-- End every session whose handshake a die ran (13 R447). -/
def State.endSessionsOf (s : State) (d : Nat) : State :=
  { s with aoap := { s.aoap with sessions := s.aoap.sessions.filter fun e => s.transportDie e.2.transport != d } }

/-! ### Solver, fabric and host dies (13 R444 to R447) -/

/-- A running draft goes on in a variant after the loss of a die, or halts (R444). -/
def State.lossRestart (s : State) (p v : Nat) (halts : Bool) : State :=
  let x := s.part p
  match x.draft with
  | none => s
  | some d =>
    if x.state ≠ .running then s
    else if halts || x.variant != 0 || x.variantNext.isSome || decide (d.variants ≤ v) then s.halt p
    else
      let s := s.withholdAndRollback p 4
      if (s.part p).state = .running then s.setPart p { s.part p with variantNext := some v } else s

/-- Quorums of p's windows lowered by the harts of a lost solver die that were counted at the last solver-side
release (R445). -/
def State.cutQuorums (s : State) (p n : Nat) : State :=
  let x := s.part p
  s.setPart p { x with wins := ((List.range x.wins.length).zip x.wins).map fun (e : Nat × WinSt) =>
    let q := if e.2.quorumCut = 0 then s.odGet (0x2024 + p) (e.1 + 1) else e.2.quorumCut
    let k := (e.2.lastCounted.filter fun h => h / 64 == n).length
    if k = 0 then e.2 else { e.2 with quorumCut := max 1 (q - k) } }

/-- Lines that a lost die's caches held modified are poisoned at their homes (R445). -/
def State.poisonDirty (s : State) (dirty : List Nat) : State :=
  let keys := (dirty.filterMap s.key?).map (· / 64)
  keys.foldl (fun s k => { s with lines := fmSet s.lines k .poisoned }) s

/-- The loss of PXn (R445). -/
def State.solverLost (s : State) (n : Nat) (dirty : List Nat) : State :=
  let d := 18 + n
  let s := { s with cfg := { s.cfg with lost := s.cfg.lost ++ [d] } }
  let s := s.event 0x0D02 (ofDie d) []
  let s := (s.poisonDirty dirty).event 0x0D0F (ofDie d) [.half dirty.length]
  let s := s.odSet 0x8007 0 (setBits (s.odGet 0x8007 0) (4 * n + 3) (4 * n) 0)
  let s := (s.setRail (dieRail d) 0).loseImages d
  forN 4 s fun s p =>
    let x := s.part p
    let here := (x.draft.any fun d' => d'.wins.any fun w => w.base / 2 ^ 36 == d) || x.persist.any fun r => keyDie r.1 == d
    if bits (s.desc p) (16 + 4 * n + 3) (16 + 4 * n) = 0 then
      if x.state = .running ∧ (here ∨ x.variant ≠ 0 ∨ x.variantNext.isSome) then s.halt p else s
    else
      (s.cutQuorums p n).lossRestart p (1 + n) here

/-- A port on a lost fabric die leaves service for good (R446, 09 R305). -/
def State.portGone (s : State) (n : Nat) : State :=
  let x := s.port n
  (s.setPort n { x with
    state := if x.state = .failed then .failed else .disabled, erased := .none, spared := .none, egress := [] }).leaveService n

/-- Dynamic collectives that hold a claim at this package end with reason CREEL_LOST (R446). -/
def State.creelLost (s : State) : State :=
  s.coll.colls.foldl (fun s e =>
    if !e.2.draft && e.2.stages.any (fun t => !t.2.granules.isEmpty) then s.nakAll e.1 6 else s) s

/-- Both FX0 and FX1 are lost: no more ticks, every draft halts (R446). -/
def State.cadenceDead (s : State) : State :=
  let s := s.setCad { s.cad with dead := true, state := .unlocked, source := .none, standbyReady := false }
  forN 4 s fun s p => if (s.part p).state = .running ∨ (s.part p).state = .armed then s.halt p else s

/-- The loss of FXf (R446). -/
def State.fabricLost (s : State) (f : Nat) : State :=
  let d := 22 + f
  let s := { s with cfg := { s.cfg with lost := s.cfg.lost ++ [d] } }
  let s := s.event 0x0D03 (ofDie d) []
  let s := ((s.setRail (dieRail d) 0).portGone (2 * f)).portGone (2 * f + 1)
  let s := s.creelLost.ordersLost
  if s.cfg.lost.contains 22 ∧ s.cfg.lost.contains 23 then s.cadenceDead
  else
    let s := if f = 0 then s.handover else if f = 1 then s.setCad { s.cad with standbyReady := false } else s
    forN 4 s fun s p => s.lossRestart p (5 + f) false

/-- An AVSBus interface falls silent: its rails are held (16 R524). -/
def State.holdInterface (s : State) (k d : Nat) : State :=
  let rails := (List.range 5).map fun i => k * 5 + i
  let s := rails.foldl (fun s r =>
    { s with pow := { s.pow with rails := fmSet s.pow.rails r { fmGet s.pow.rails r {} with heldSince := some s.now } } }) s
  let s := forN 32 s fun s e =>
    if dieRail e / 5 = k then s.odSet 0xA030 (e + 1) (setBit (s.odGet 0xA030 (e + 1)) 160 true) else s
  s.event 0x1003 (ofDie d) [.half k]

/-- The lanes of HXh leave the link (17 R542): without HX1 it goes on at ×8; without HX0 it goes down and HX1 trains its
own lanes. -/
def State.lanesGone (s : State) (h : Nat) : State :=
  let gone := setBit s.boot.lanesLost h true
  let s := { s with boot := { s.boot with lanesLost := gone } }
  if s.boot.cxlState = 0 then s
  else if gone = 3 then { s with boot := { s.boot with cxlState := 0, cxlWidth := 0 } }.event 0x1102 noOne []
  else if h = 0 then
    let s := { s with boot := { s.boot with cxlState := 1, cxlWidth := 8, cxlReversed := true, cxlTried := s.now } }
    ((s.event 0x1102 noOne []).event 0x1101 noOne []).send (.msix 6)
  else
    let s := { s with boot := { s.boot with cxlWidth := min 8 s.boot.cxlWidth } }
    (s.event 0x1101 noOne []).send (.msix 6)

/-- The loss of HXh (R447; 01 R54; 16 R524; 17 R542). -/
def State.hostLost (s : State) (h : Nat) : State :=
  let d := 30 + h
  let s := s.endSessionsOf d
  let s := { s with cfg := { s.cfg with lost := s.cfg.lost ++ [d] } }
  let s := s.event 0x0D04 (ofDie d) []
  let s := (s.odSet (0x1010 + h) 5 2).odSet 0x1020 (h + 1) 0
  let s : State := forN 4 s fun s i => s.holdInterface (4 * h + i) d
  s.lanesGone h

/-- A die is lost (R423); it stays lost until cold reset. -/
def State.dieLost (s : State) (d : Nat) (dirty : List Nat) : State :=
  if s.cfg.lost.contains d then s
  else if d < 18 then s.spindleLost d
  else if d < 22 then s.solverLost (d - 18) dirty
  else if d < 30 then s.fabricLost (d - 22)
  else s.hostLost (d - 30)

/-- The die a failed bridge counts as the loss of (01 R46); the bridge of the host dies has no such rule, and two dies
that Table 01-4 joins by no bridge lose none. -/
def bridgeLoss (a b : Nat) : Option Nat :=
  if !isBridge a b then none
  else if isFabric a && isFabric b then some (max a b) else if isFabric a then some a else if isFabric b then some b else none

/-- DIE_HEARTBEAT_LOSS (R423): the die has a rail fault, or passes its junction limit, or falls silent, or a bridge of it fails. `dirty`: the
lines that a solver die's caches held modified. -/
def execDieHeartbeatLoss (t : Nat) (d : DieIdx) (cause : LossCause) (dirty : List (BitVec 48)) (s : State) :
    Host.Outcome State Fault Refusal :=
  let s := s.arrive t
  match cause with
  | .bridge o => match bridgeLoss d.val o.val with
    | some x => .next (s.dieLost x [])
    | none => .next s
  | _ => .next (s.dieLost d.val (dirty.map (·.toNat)))

/-! ### Doff acknowledgements (13 R453, R454) -/

/-- No store of a doff of p to another package is outstanding. -/
def State.doffAcked (s : State) (p : Nat) : Bool :=
  (s.srcUnit stewardUnit).outstanding.all fun e => e.2.pkt.part != p

/-- Header and directory of a manifest (Table 13-9). -/
def State.manifest (s : State) (p : Nat) (r : DoffRun) : List Byte :=
  let d := (s.part p).draft
  let packages := (d.map Draft.packages).getD 1
  bytesOfWords [0x4D414E46 + (1 <<< 32), r.generation, r.epoch, packages + (s.pkgIndex p <<< 16) + (r.dir.length <<< 32)] ++
  s.identityKey ++ bytesOf 16 (s.odGet (0x4010 + p) 1) ++ bytesOf 64 (s.odGet (0x8050 + p) 8) ++
  (((d.map Draft.digest).getD (List.replicate 64 0)).take 32) ++ List.replicate 88 0 ++
  r.dir.flatMap bytesOfWords

/-- DOFF_SHARDS_ACK (R453 step 4): every shard is acknowledged in both areas. `failed`: one of the writes failed. -/
def execDoffShardsAck (t : Nat) (p : PartIdx) (failed : Bool) (s : State) : Host.Outcome State Fault Refusal :=
  let p := p.val
  let s := s.arrive t
  match (s.part p).doff with
  | none => .next s
  | some r =>
    if failed then .next (s.doffFail p)
    else if !r.slotState || r.manifest || !s.doffAcked p then .next s
    else
      let half := r.generation % 2
      let s := s.doffStoreBoth p half 0 (s.manifest p r)
      let s := s.setPart p { s.part p with
        doff := some { r with manifest := true }
        doffDirs := fmSet (s.part p).doffDirs half r.dir.length }
      .next (s.odSet (0x8050 + p) 4 2)

/-- DOFF_MANIFEST_ACK (R453 step 5): the commit record is written and the generation committed. -/
def execDoffManifestAck (t : Nat) (p : PartIdx) (failed : Bool) (s : State) : Host.Outcome State Fault Refusal :=
  let p := p.val
  let s := s.arrive t
  match (s.part p).doff with
  | none => .next s
  | some r =>
    if failed then .next (s.doffFail p)
    else if !r.manifest || !s.doffAcked p then .next s
    else
      let m := s.manifest p r
      let rec_ := bytesOfWords [0x434F4D54, r.generation, r.epoch, 0] ++ shake256 32 m
      let s := s.doffStoreBoth p (r.generation % 2) m.length rec_
      let s := s.setPart p { s.part p with doff := .none }
      let s := ((s.odSet (0x8050 + p) 3 r.generation).odSet (0x8050 + p) 9 r.epoch).odSet (0x8050 + p) 4 0
      .next (s.event 0x0D11 (ofPart p) [])

end Sys2Proof.Machine
end

