-- ==== Sys2Proof/Machine/Sharing.lean ====
section
/-! DEFINITION. Machine/Sharing.lean: arbitration points (11 R376 to R387), the command slots of a DRAM channel
(08 R271, R272, R284 to R286) and egress frames (11 R386, R387, R394). -/

namespace Sys2Proof.Machine

/-! ### Points and members (R377 to R379) -/

/-- Number of an arbitration point. -/
def arbKey : ArbPlace → Nat
  | .dram d ch => d.val * 64 + ch.val
  | .port n => 0x10000 + n.val
  | .bridge b => bridgePoint b
  | .hostLink => 0x8000000

def State.point (s : State) (pl : ArbPlace) : ArbPoint := fmGet s.arb (arbKey pl) {}
def State.setPoint (s : State) (pl : ArbPlace) (x : ArbPoint) : State := { s with arb := fmSet s.arb (arbKey pl) x }

/-- The quantum unit Q of a point (Table 11-2). -/
def arbQuantum : ArbPlace → Nat
  | .dram .. => 2
  | .hostLink => 4
  | _ => 17

/-- The members: the valid partitions, then the system (R377). -/
def State.members (s : State) : List Nat := (List.range 4).filter s.partValid ++ [4]

/-- Weight of a member at a point (R395). -/
def State.arbWeight (s : State) (pl : ArbPlace) (m : Nat) : Nat :=
  if m = 4 then s.odGet 0x3024 0
  else s.odGet (0x3020 + m) (match pl with | .dram .. => 1 | .hostLink => 3 | _ => 2)

/-- Offset in its stack of a line of a channel: the inverse of `stack_map` (08 R270). -/
def lineOff (ch line : Nat) : Nat :=
  let o := ((line * 64) >>> 8) <<< 14
  o + ((ch ^^^ (stackMap o).1) <<< 8) + line * 64 % 256

/-- The member a request to a line of a stack is charged to: the partition that holds its region, else the
system (R377). -/
def State.lineMember (s : State) (d ch line : Nat) : Nat :=
  match s.region? d (lineOff ch line / 2 ^ 21) with
  | some v => if bits v 38 37 = 0 ∧ s.partValid (bits v 31 30) then bits v 31 30 else 4
  | none => 4

/-- A dynamic arrival as a request of the point. -/
def State.arbReq (s : State) (pl : ArbPlace) (a : Arrival) (seq : Nat) : ArbReq :=
  let m := match pl with
    | .dram d ch => s.lineMember d.val ch.val a.line
    | _ => if s.partValid a.member ∧ a.member < 4 then a.member else 4
  { cls := a.cls, member := m, cost := max 1 (min (arbQuantum pl) a.cost), line := a.line, die := a.die, seq := seq,
    vc := if a.resp then 5 + a.cls else 1 + a.cls, hop := a.hop }

/-- Dynamic arrivals join the requests that wait upstream, in order. -/
def State.joinArb (s : State) (pl : ArbPlace) (arr : List Arrival) : State :=
  (arr.filter fun a => decide (1 ≤ a.cls) && decide (a.cls ≤ 4)).foldl (fun s a =>
    let x := s.point pl
    s.setPoint pl { x with seq := x.seq + 1, outside := x.outside ++ [s.arbReq pl a x.seq] }) s

/-- AVSBus interface, and so droop-alert input, of a die (16 R522). -/
def dieInterface (d : Nat) : Nat := dieRail d / 5

/-- Whether C2 to C4 of a die may be admitted now: not under a droop alert, and under a thermal throttle only in
one slot of four (16 R527, R529). -/
def State.dieAdmits (s : State) (fourth : Bool) (r : ArbReq) : Bool :=
  r.cls == 1 || (!(fmGet s.pow.droops (dieInterface r.die) {}).active &&
    (fourth || !(fmGet s.pow.dies r.die {}).throttled))

/-- Room in the queue of a request's member and class (R379). -/
def Arb.room (x : Arb) (r : ArbReq) : Bool :=
  decide ((x.reqs.filter fun q => q.member == r.member && q.cls == r.cls).length < 16)

/-- Admit one request, or leave it upstream. -/
def ArbPoint.admitOne (x : ArbPoint) (ok : Bool) (r : ArbReq) : ArbPoint :=
  if !ok then { x with outside := x.outside ++ [r] }
  else if r.cls = 1 then
    if x.c1.room r then { x with c1 := { x.c1 with reqs := x.c1.reqs ++ [r] } }
    else { x with outside := x.outside ++ [r] }
  else if x.c24.room r then { x with c24 := { x.c24 with reqs := x.c24.reqs ++ [r] } }
  else { x with outside := x.outside ++ [r] }

/-- Admit what its queue has room for (R379; 16 R527, R529). -/
def State.admitReqs (s : State) (pl : ArbPlace) (fourth : Bool) : State :=
  let x := s.point pl
  if x.outside.isEmpty then s
  else s.setPoint pl (x.outside.foldl (fun (y : ArbPoint) r => y.admitOne (s.dieAdmits fourth r) r) { x with outside := [] })

/-! ### Rounds (R380 to R383) -/

/-- An arbiter of a point. -/
def ArbPoint.arb (x : ArbPoint) (c1 : Bool) : Arb := if c1 then x.c1 else x.c24
def ArbPoint.setArb (x : ArbPoint) (c1 : Bool) (a : Arb) : ArbPoint := if c1 then { x with c1 := a } else { x with c24 := a }

/-- A request of an arbiter may be served: at a channel, no older dynamic request to its line waits (R380). -/
def eligible (pl : ArbPlace) (other : Arb) (a : Arb) (r : ArbReq) : Bool :=
  match pl with
  | .dram .. => !((a.reqs ++ other.reqs ++ other.granted).any fun q => q.line == r.line && decide (q.seq < r.seq))
  | _ => true

/-- The oldest request of the lowest class (R381). -/
def oldestOf (l : List ArbReq) : Option ArbReq :=
  ((l.find? fun r => r.cls == 1).orElse fun _ => l.find? fun r => r.cls == 2).orElse fun _ =>
    (l.find? fun r => r.cls == 3).orElse fun _ => l.find? fun r => r.cls == 4

/-- `pick` (R381): the head of the promoted list, else the oldest eligible request in class order. -/
def Arb.pick (a : Arb) (m : Nat) (may : Arb → ArbReq → Bool) : Option ArbReq :=
  let l := a.reqs.filter fun r => r.member == m && may a r
  (l.find? (·.promoted)).orElse fun _ => oldestOf l

/-- The loop of `drr_visit` (R381). -/
def Arb.serve (may : Arb → ArbReq → Bool) (m : Nat) : Nat → Arb → Arb
  | 0, a => a
  | n + 1, a =>
    match a.pick m may with
    | none => a
    | some r =>
      if fmGet a.deficit m 0 < r.cost then a
      else Arb.serve may m n { a with
        reqs := a.reqs.filter (fun q => q.seq != r.seq)
        granted := a.granted ++ [r]
        deficit := fmSet a.deficit m (fmGet a.deficit m 0 - r.cost) }

/-- A member has an admitted request in this arbiter. -/
def Arb.busy (a : Arb) (m : Nat) : Bool := a.reqs.any fun r => r.member == m

/-- `drr_visit` (R381). -/
def Arb.visit (may : Arb → ArbReq → Bool) (quantum m : Nat) (a : Arb) : Arb :=
  if !a.busy m then { a with deficit := fmDel a.deficit m }
  else
    let a := Arb.serve may m a.reqs.length { a with deficit := fmSet a.deficit m (fmGet a.deficit m 0 + quantum) }
    if a.busy m then a else { a with deficit := fmDel a.deficit m }

/-- The end of a round: every admitted request it did not serve ages by 1 (R382). -/
def Arb.endRound (a : Arb) : Arb := { a with rounds := a.rounds + 1, reqs := a.reqs.map fun r => { r with age := r.age + 1 } }

/-- A served request in the shares of its member: what it cost at this kind of point, and the rounds it waited (R395). -/
def State.countServed (s : State) (pl : ArbPlace) (units : Nat) (r : ArbReq) : State :=
  if 4 ≤ r.member then s
  else
    let i := 0x3028 + r.member
    let s := match pl with
      | .dram .. => s.odSet i 1 (s.odGet i 1 + units)
      | .bridge _ => s.odSet i 2 (s.odGet i 2 + units)
      | .hostLink => s.odSet i 3 (s.odGet i 3 + units)
      | .port _ => s
    if s.odGet i 5 < min 255 (r.age + 1) then s.odSet i 5 (min 255 (r.age + 1)) else s

/-- A packet that a link's arbiter sends counts in its frame (R386, R394), and takes its virtual channel of a bridge in its hop set (R389). -/
def State.carryServed (s : State) (pl : ArbPlace) (r : ArbReq) : State :=
  match pl with
  | .bridge _ => s.setPoint pl ((s.point pl).carry r.cls r.vc r.hop r.member r.cost)
  | .hostLink => s.setPoint pl { s.point pl with frameC1 := (s.point pl).frameC1 + (if r.cls = 1 then r.cost else 0) }
  | .port n => s.setPort n.val { s.port n.val with frameC1 := (s.port n.val).frameC1 + (if r.cls = 1 then r.cost else 0) }
  | .dram .. => s

/-- Promote what has aged 16 rounds (R382). -/
def State.promote (s : State) (pl : ArbPlace) (c1 : Bool) : State :=
  let x := s.point pl
  let a := x.arb c1
  let due := a.reqs.filter fun r => decide (16 ≤ r.age) && !r.promoted
  if due.isEmpty then s
  else
    let s := s.setPoint pl (x.setArb c1 { a with
      reqs := a.reqs.map (fun r => if 16 ≤ r.age then { r with promoted := true } else r) })
    due.foldl (fun s r =>
      if r.member < 4 then s.odSet (0x3028 + r.member) 4 (s.odGet (0x3028 + r.member) 4 + 1) else s) s

/-- Raise `ARBITRATION_BOUND` for what was not served by the end of its 64th round (R383; 13 R448). -/
def State.missedBound (s : State) (pl : ArbPlace) (c1 : Bool) : State :=
  let x := s.point pl
  let a := x.arb c1
  let due := a.reqs.filter fun r => decide (64 ≤ r.age) && !r.told
  if due.isEmpty then s
  else
    let s := s.setPoint pl (x.setArb c1 { a with
      reqs := a.reqs.map (fun r => if 64 ≤ r.age then { r with told := true } else r) })
    due.foldl (fun s r =>
      let who : EvWho := if r.member < 4 then ofPart r.member else noOne
      (s.event 0x0B01 who [.half (arbKey pl), .half r.member, .half r.cls]).failureWarning) s

/-- Package power stands above its first threshold: C3 gets one slot in four (16 R528). -/
def State.powerCapped (s : State) : Bool := s.pow.throttleSince.isSome

/-- C1 flits that a link has sent in its running frame (R386, R394). -/
def State.sentC1 (s : State) (pl : ArbPlace) : Nat :=
  match pl with
  | .port n => (s.port n.val).frameC1
  | _ => (s.point pl).frameC1

/-- On a link the other arbiter's traffic goes first: C1 while it has sent fewer than 64 flits in the frame, C2 to C4 after that
(Table 11-3, R394). A channel orders its slots by 08 Table 08-5. -/
def State.yields (s : State) (pl : ArbPlace) (c1 : Bool) : Bool :=
  match pl with
  | .dram .. => false
  | _ => !((s.point pl).arb !c1).reqs.isEmpty && (decide (s.sentC1 pl < 64) != c1)

/-- One round at a point (R381). At a channel what it serves waits for command slots and the round ends with the
last of them; elsewhere it is sent at once. -/
def State.round (s : State) (pl : ArbPlace) (c1 : Bool) : State :=
  let s := (s.missedBound pl c1).promote pl c1
  let x := s.point pl
  let a := x.arb c1
  if !a.granted.isEmpty ∨ s.yields pl c1 then s
  else
    let capped := s.powerCapped && a.rounds % 4 != 0 && (match pl with | .dram .. => false | _ => true)
    let may := fun (a : Arb) (r : ArbReq) => eligible pl (x.arb !c1) a r && !(capped && r.cls == 3)
    let a := s.members.foldl (fun a m => a.visit may (s.arbWeight pl m * arbQuantum pl) m) a
    match pl with
    | .dram .. => s.setPoint pl (x.setArb c1 (if a.granted.isEmpty then a.endRound else a))
    | _ =>
      let s := s.setPoint pl (x.setArb c1 { a with granted := [] }.endRound)
      a.granted.foldl (fun s r => (s.carryServed pl r).countServed pl r.cost r) s

/-- ARBITRATION_ROUND (R381): a round of one of the two arbiters of a point, after what has arrived is admitted. -/
def execArbitrationRound (t : Nat) (pl : ArbPlace) (c1 : Bool) (arr : List Arrival) (s : State) :
    Host.Outcome State Fault Refusal :=
  let s := (s.arrive t).joinArb pl arr
  .next ((s.admitReqs pl ((s.point pl).c24.rounds % 4 == 0)).round pl c1)

/-- REQUEST_PROMOTE (R382). -/
def execRequestPromote (t : Nat) (pl : ArbPlace) (c1 : Bool) (s : State) : Host.Outcome State Fault Refusal :=
  .next ((s.arrive t).promote pl c1)

/-- ARBITRATION_BOUND (R383). -/
def execArbitrationBound (t : Nat) (pl : ArbPlace) (c1 : Bool) (s : State) : Host.Outcome State Fault Refusal :=
  .next ((s.arrive t).missedBound pl c1)

/-! ### Traffic generators as requesters (08 R288, R289) -/

/-- Control record of a channel (Table 08-8). -/
def State.genCtl (s : State) (d ch : Nat) : Nat := s.odGet (0x5100 + d) (ch + 1)

/-- Fields of a control record. -/
def genPattern (c : Nat) : Nat := bits c 2 0
def genWalk (c : Nat) : Nat := bits c 4 3
def genMix (c : Nat) : Nat := bits c 6 5
def genBase (c : Nat) : Nat := bits c 87 64
def genCount (c : Nat) : Nat := bits c 120 96
def genSeed (c : Nat) : Nat := bits c 191 128
def genPasses (c : Nat) : Nat := bits c 223 192

/-- Lines a generator moves in all its passes; 0: it runs until stopped. -/
def genMoves (c : Nat) : Nat := genPasses c * genCount c * (if 2 ≤ genMix c then 2 else 1)

/-- Line of request i. -/
def genLine (c i : Nat) : Nat :=
  let n := genCount c
  match genWalk c with
  | 1 => genBase c + i * 0x9E3779B1 % n
  | 2 => genBase c + i % (n / 8192) * 8192 + i / (n / 8192)
  | _ => genBase c + i

/-- Line of the request a generator places after so many: each line twice in a row where it is written and read back at once. -/
def genNext (c i : Nat) : Nat := genLine c ((if genMix c = 3 then i / 2 else i) % max 1 (genCount c))

def State.gen (s : State) (d ch : Nat) : TrafficGen := fmGet s.gens (d * 64 + ch) {}
def State.setGen (s : State) (d ch : Nat) (x : TrafficGen) : State := { s with gens := fmSet s.gens (d * 64 + ch) x }

/-- A running generator places its next request, one line in its class, when its last has been admitted and its rate leaves it
a slot of the window. -/
def State.genRequest (s : State) (d : DieIdx) (ch : Fin 64) : State :=
  let x := s.gen d.val ch.val
  let c := s.genCtl d.val ch.val
  let y := s.point (.dram d ch)
  if x.running ∧ x.taken < bits c 20 10 ∧ (genMoves c = 0 ∨ x.placed < genMoves c) ∧ !y.outside.any (fun r => r.cls == bits c 8 7) then
    let a : Arrival := { cls := bits c 8 7, line := genNext c x.placed, die := d.val }
    (s.joinArb (.dram d ch) [a]).setGen d.val ch.val { x with placed := x.placed + 1, taken := x.taken + 1 }
  else s

/-! ### Command slots of a channel (08 R284 to R286, 11 R385) -/

/-- C0 budget of a partition in a window of a channel of die d's stack (11 R385). -/
def State.c0Budget (s : State) (d p : Nat) : Nat :=
  if d < 18 then
    match s.slotOfDie d with
    | some n => if s.partOfSlot n = some p then 819 else 0
    | none => 0
  else if d < 22 then
    819 * ((List.range 4).filter fun i => s.partOfGroup (4 * (d - 18) + i) == some p).length / 4
  else 0

/-- C0 arrivals at a channel: they wait in order and count in the window (R286). -/
def Channel.arriveC0 (c : Channel) (a : Arrival) : Channel :=
  let n := max 1 (min 2 a.cost)
  { c with c0 := c.c0 ++ [(a.member, a.line, n)], c0Received := fmSet c.c0Received a.member (fmGet c.c0Received a.member 0 + n) }

/-- Serve one slot of the first C0 request whose partition has budget left (11 R385). -/
def Channel.serveC0 (budget : Nat → Nat) (c : Channel) : Option Channel :=
  match c.c0.find? fun e => decide (fmGet c.c0ByPart e.1 0 < budget e.1) && c.half != some e.2.1 with
  | none => none
  | some e => some { c with
      c0 := if e.2.2 ≤ 1 then c.c0.erase e else c.c0.map (fun f => if f = e then (e.1, e.2.1, e.2.2 - 1) else f)
      c0Served := c.c0Served + 1
      c0ByPart := fmSet c.c0ByPart e.1 (fmGet c.c0ByPart e.1 0 + 1) }

/-- Give a slot to an arbiter of a channel: the next request of its round, one slot of it. -/
def State.serveArb (s : State) (d : DieIdx) (ch : Fin 64) (c1 : Bool) : State × Bool :=
  let pl := ArbPlace.dram d ch
  let s := if ((s.point pl).arb c1).granted.isEmpty && !((s.point pl).arb c1).reqs.isEmpty then s.round pl c1 else s
  let c := s.channel d.val ch.val
  let x := s.point pl
  let a := x.arb c1
  match a.granted.find? fun r =>
      !(s.powerCapped && r.cls == 3 && c.slotNo % 4 != 0) &&
      (c.half == some r.line || (c.half.isNone && !c.c0.any fun e => e.2.1 == r.line)) with
  | none => (s, false)
  | some r =>
    let s := s.countServed pl 1 r
    if r.cost ≤ 1 then
      let a := { a with granted := a.granted.filter (fun q => q.seq != r.seq) }
      let s := s.setPoint pl (x.setArb c1 (if a.granted.isEmpty then a.endRound else a))
      (s.setChannel d.val ch.val { c with half := .none, c1Served := c.c1Served + b2n c1 }, true)
    else
      let s := s.setPoint pl (x.setArb c1 { a with
        granted := a.granted.map (fun q => if q.seq = r.seq then { q with cost := q.cost - 1 } else q) })
      (s.setChannel d.val ch.val { c with half := some r.line, c1Served := c.c1Served + b2n c1 }, true)

/-- The dynamic order of Table 08-5; a hot stack serves no C2 to C4 in odd general slots (16 R530). -/
def State.serveDynamic (s : State) (d : DieIdx) (ch : Fin 64) : State × Bool :=
  let c := s.channel d.val ch.val
  let barred := (s.stackOf d.val).throttle && decide (c.slotNo < 944) && c.slotNo % 2 == 1
  let a := if c.c1Served < s.odGet 0x5010 3 then s.serveArb d ch true else (s, false)
  if a.2 then a
  else
    let b := if barred then (a.1, false) else a.1.serveArb d ch false
    if b.2 then b else b.1.serveArb d ch true

/-- CHANNEL_COMMAND_SLOT (08 R285): one slot of the running window; `arr`: the requests that have arrived;
`upkeep`: scrub or a bond-lane check wants the slot. -/
def execChannelCommandSlot (t : Nat) (d : DieIdx) (ch : Fin 64) (arr : List Arrival) (upkeep : Bool) (s : State) :
    Host.Outcome State Fault Refusal :=
  let s := s.arrive t
  let pl := ArbPlace.dram d ch
  let s := s.setChannel d.val ch.val ((arr.filter fun a => a.cls == 0).foldl Channel.arriveC0 (s.channel d.val ch.val))
  let s := (s.joinArb pl arr).genRequest d ch
  let c := s.channel d.val ch.val
  let s := s.admitReqs pl (c.slotNo % 4 == 0)
  if 1024 ≤ c.slotNo then .next s
  else
    let s :=
      if c.slotNo < 944 then
        match (if c.c0Served < 819 then c.serveC0 (s.c0Budget d.val) else none) with
        | some c => s.setChannel d.val ch.val c
        | none => (s.serveDynamic d ch).1
      else if c.refreshed < (if (s.stackOf d.val).hot then 64 else 32) then
        s.setChannel d.val ch.val { c with refreshed := c.refreshed + 1 }
      else if upkeep ∧ c.scrubbed < 16 then s.setChannel d.val ch.val { c with scrubbed := c.scrubbed + 1 }
      else (s.serveDynamic d ch).1
    let c := s.channel d.val ch.val
    .next (s.setChannel d.val ch.val { c with slotNo := c.slotNo + 1 })

/-- A channel's window ends: a partition that asked for more C0 than its budget overran its reservation (R286, 11 R385). -/
def State.endWindow (s : State) (d ch : Nat) : State :=
  let c := s.channel d ch
  let bad := (List.range 4).filter fun p => decide (s.c0Budget d p < fmGet c.c0Received p 0)
  let s := s.setChannel d ch { c with
    slotNo := 0, c0Served := 0, c1Served := 0, refreshed := 0, scrubbed := 0, c0Received := [], c0ByPart := [] }
  bad.foldl (fun s p =>
    (s.event 0x080D { part := some p, die := some d } []).detectedFault p (if d < 18 then some d else none)) s

/-- A window begins for the traffic generators of a stack: those that a start has made due run (R288), and each has its rate. -/
def State.startGens (s : State) (d : Nat) : State :=
  { s with gens := s.gens.map fun (e : Nat × TrafficGen) =>
      if e.1 / 64 ≠ d then e
      else if e.2.due then (e.1, { running := true, startedAt := s.now, due := false })
      else (e.1, { e.2 with taken := 0 }) }

/-- Region entries that were written wait for the window boundary of their stack (14 R463). -/
def State.applyEntries (s : State) (d : Nat) : State :=
  let mine := s.entryWaits.filter fun e => e.1 / 256 == d
  mine.foldl (fun s e => s.odSet (0x9100 + d) (e.1 % 256) e.2) { s with entryWaits := s.entryWaits.filter fun e => e.1 / 256 != d }

/-- CHANNEL_SLOT_WINDOW (08 R284): all channels of a stack begin a window of 1,024 slots. -/
def execChannelSlotWindow (t : Nat) (d : DieIdx) (s : State) : Host.Outcome State Fault Refusal :=
  let s := s.arrive t
  let chs := (s.channels.filter fun e => e.1 / 64 == d.val).map fun e => e.1 % 64
  .next (((chs.foldl (fun s ch => s.endWindow d.val ch) s).startGens d.val).applyEntries d.val)

/-! ### Egress frames (R386, R387, R394) -/

/-- C0 flits of a frame, with those of an operand. -/
def addFlits (l : List (Nat × Nat)) (m : Fm Nat) : Fm Nat := l.foldl (fun m e => fmSet m e.1 (fmGet m e.1 0 + e.2)) m

/-- C0 flits of each partition that wait at a port. -/
def Port.waitingC0 (x : Port) : List (Nat × Nat) :=
  (x.egress.filter fun e => e.cls == 0).map fun e => (e.charge.getD 0, e.left)

/-- LINK_FRAME (R386, R387): the running frame of a link ends; `c0`: C0 flits by partition that reached it beyond
those the model has sent itself. A partition beyond its budget overruns, and its excess goes in the next frames. -/
def execLinkFrame (t : Nat) (pl : ArbPlace) (c0 : List (Nat × Nat)) (s : State) : Host.Outcome State Fault Refusal :=
  let s := s.arrive t
  match pl with
  | .dram .. => .next s
  | .hostLink =>
    let x := s.point pl
    .next (s.setPoint pl { x with frameC1 := 0, frames := x.frames + 1 })
  | _ =>
   if (match pl with | .bridge b => !isBridge (b / 32) (b % 32) | _ => false) then .next s
   else
    let sent := addFlits c0 (match pl with | .port n => (s.port n.val).frameC0 | _ => (s.point pl).frameC0)
    let held := addFlits (match pl with | .port n => (s.port n.val).waitingC0 | _ => []) sent
    let excess := (List.range 4).filter fun p => decide (s.frameBudget p < fmGet held p 0)
    let carry := (excess.map fun p => (p, fmGet sent p 0 - s.frameBudget p)).filter fun e => decide (0 < e.2)
    let s := match pl with
      | .port n => (s.setPort n.val { s.port n.val with
          frameC0 := carry, frameMgmt := 0, frameC1 := 0, frames := (s.port n.val).frames + 1 }).drainPort n.val
      | _ => s.setPoint pl { s.point pl with frameC0 := carry, frameC1 := 0, vcs := [], frames := (s.point pl).frames + 1 }
    .next (excess.foldl (fun s p => (s.event 0x0B02 (ofPart p) [.half (arbKey pl)]).detectedFault p none) s)

end Sys2Proof.Machine
end

