-- ==== Sys2Proof/Machine/MemRows.lean ====
section
/-! DEFINITION. Machine/MemRows.lean: patrol scrub, bond lanes, stack temperature, SRAM columns (08 R275, R276, R278,
R280, R281; 16 R530) and the traffic generators (08 R288, R289). -/

namespace Sys2Proof.Machine

/-! ### Scrub (R276, R280) -/

/-- Package-physical address of a stack offset of a die, by the aperture it serves. -/
def State.stackPa (s : State) (d o : Nat) : Nat :=
  if d < 18 then
    match s.slotOfDie d with
    | some n => n * 2 ^ 36 + o
    | none => (if s.spareDie 16 = some d then 16 else 17) * 2 ^ 36 + o
  else d * 2 ^ 36 + o

/-- The stack of a die is in the address map (01 R40). -/
def State.mapped (s : State) (d : Nat) : Bool :=
  decide (d < 22) && !s.cfg.lost.contains d && (decide (18 ≤ d) || s.role d == 0 || s.role d == 1)

/-- An error that has arisen in die d's memories. -/
def State.arise (s : State) (d : Nat) : Upset → State
  | .line o a b => { s with lines := fmSet s.lines ((stackKey d 0) / 64 + o) (.symbols a b) }
  | .word o col dbl => { s with sramErr := fmSet s.sramErr (sramKey d (o / 8 * 8)) ((if dbl then 2 else 1) + 4 * col) }
  | .sreg n r dbl => s.setFlyer n.val { s.flyer n.val with sregErr := fmSet (s.flyer n.val).sregErr r (if dbl then 2 else 1) }
  | .bank n w b i dbl =>
    let x := s.whorl n.val (w % 32)
    s.setWhorl n.val (w % 32) (x.setBank b { x.bank b with err := fmSet (x.bank b).err i (if dbl then 2 else 1) })

/-- Scrub reads one line in error: corrected and written back, or poisoned (R276, R277). -/
def State.scrubLine (s : State) (d line : Nat) : State :=
  let (s, bad) := s.readLine line
  if bad then
    let s := { s with lines := fmSet s.lines line .poisoned }
    s.dramBad d none [.word (s.stackPa d (line * 64 - stackKey d 0))]
  else { s with lines := fmDel s.lines line }

/-- Scrub reads one SRAM word in error (R280): corrected, or a detected control fault of the slot's partition (13
Table 13-1). -/
def State.scrubWord (s : State) (d k e : Nat) : State :=
  if e % 4 = 1 then { s.sramCorrected k (e / 4) with sramErr := fmDel s.sramErr k }
  else
    match s.slotOfDie d with
    | some n =>
      let p := s.partOfSlot n
      let s := match p with
        | some p => s.setPart p { s.part p with badLines := ((s.part p).badLines ++ [k / 64]).eraseDups }
        | none => s
      let s := s.event 0x080A (s.ofSlot n) []
      match p with
      | some p => s.detectedFault p (some d)
      | none => s
    | none => s.event 0x080A (ofDie d) []

/-- SCRUB_PASS (R276, R280): the patrol reads n lines of die d's stack from line lo, and sn bytes of its SRAM from
offset so. `arisen`: the errors that have arisen in its memories. -/
def execScrubPass (t : Nat) (d : DieIdx) (arisen : List Upset) (lo n so sn : Nat) (s : State) :
    Host.Outcome State Fault Refusal :=
  let d := d.val
  let s := arisen.foldl (fun s u => s.arise d u) (s.arrive t)
  if !s.mapped d then .next s
  else
    let base := stackKey d 0 / 64
    let hit := (s.lines.filter fun e => decide (base + lo ≤ e.1) && decide (e.1 < base + lo + n)).map (·.1)
    let words := s.sramErr.filter fun e => decide (sramKey d so ≤ e.1) && decide (e.1 < sramKey d so + sn)
    let s := hit.foldl (fun s l => s.scrubLine d l) s
    .next (words.foldl (fun s e => s.scrubWord d e.1 e.2) s)

/-! ### Bonds, temperature, columns (R275, R278, R281) -/

/-- Spare bonds used in a stack (Table 08-11). -/
def State.sparesUsed (s : State) (d : Nat) : Nat :=
  ((s.channels.filter fun e => e.1 / 64 == d).map fun (e : Nat × Channel) => e.2.spares.length).sum

/-- Replace a bond of a channel by the spare of its group. With that spare taken the bond lane has failed, and its DRAM die is
erased in the channel (R274). -/
def State.spareBond (s : State) (d ch bond : Nat) : State :=
  let c := s.channel d ch
  let g := bond / 72
  if !s.mapped d ∨ fmGet? c.spares g = some bond then s
  else if fmHas c.spares g then s.eraseDie d ch (bond / 32)
  else
    let before := s.sparesUsed d
    let s := s.setChannel d ch { c with spares := fmSet c.spares g bond }
    (s.event 0x0805 (ofDie d) []).warnIfReached 3 before (before + 1)

/-- BOND_LANE_REPLACE (R275): bond `bond` of a channel crossed its limit. -/
def execBondLaneReplace (t : Nat) (d : DieIdx) (ch : Fin 64) (bond : Nat) (s : State) : Host.Outcome State Fault Refusal :=
  let s := s.arrive t
  .next (if 576 ≤ bond then s else s.spareBond d.val ch.val bond)

/-- Refresh rate (R278): twice above 85 °C, back after a second below 82 °C. -/
def State.refreshRate (s : State) (d temp : Nat) : State :=
  let x := s.stackOf d
  let cool := if temp < 82 then some (x.coolSince.getD s.now) else none
  if 85 < temp ∧ ¬ x.hot then (s.setStack d { x with hot := true, coolSince := cool }).event 0x0807 (ofDie d) []
  else
    let back := match cool with | some c => decide (c + unitsPerSec ≤ s.now) | none => false
    s.setStack d { x with hot := x.hot && !back, coolSince := cool }

/-- The limit of 95 °C and its throttle (R278; 16 R530), which ends after a second below 93 °C. -/
def State.hotLimit (s : State) (d temp : Nat) : State :=
  let x := s.stackOf d
  let cool := if temp < 93 then some (x.below93.getD s.now) else none
  if 95 ≤ temp then
    let s := s.setStack d { x with below93 := cool, limit := true, throttle := true }
    let s := if x.limit then s else s.event 0x0808 (ofDie d) []
    if x.throttle then s else s.event 0x1007 (ofDie d) []
  else
    let back := match cool with | some c => decide (c + unitsPerSec ≤ s.now) | none => false
    s.setStack d { x with below93 := cool, limit := false, throttle := x.throttle && !back }

/-- DRAM_TEMP_SAMPLE (R278; 16 R530): the highest temperature of a stack's DRAM dies, in °C. A second above 100 °C is
the loss of the die. -/
def execDramTempSample (t : Nat) (d : DieIdx) (temp : Nat) (s : State) : Host.Outcome State Fault Refusal :=
  let d := d.val
  let s := s.arrive t
  if !s.mapped d then .next s
  else
    let s := s.setStack d { s.stackOf d with temp := temp }
    let s := (s.refreshRate d temp).hotLimit d temp
    let x := s.stackOf d
    if 100 < temp then
      let since := x.above100.getD s.now
      let s := s.setStack d { x with above100 := some since }
      .next (if since + unitsPerSec ≤ s.now then s.dieLost d [] else s)
    else .next (s.setStack d { x with above100 := .none })

/-- Repair the marked columns of a die's SRAM banks (R281). -/
def State.repairColumns (s : State) (d : Nat) : State :=
  let marked := (s.banks.filter fun e => e.1 / 4096 == d).flatMap fun (e : Nat × SramBank) => e.2.marked.map fun c => (e.1, c)
  let s := { s with
    banks := s.banks.map fun (e : Nat × SramBank) =>
      if e.1 / 4096 = d then (e.1, { used := e.2.used + e.2.marked.length }) else e
    sramErr := s.sramErr.filter fun e =>
      !marked.any fun m => keyDie e.1 == d && (e.1 - sramKey d 0) / 2 ^ 18 == m.1 % 4096 && e.2 / 4 == m.2 && e.2 % 4 == 1 }
  marked.foldl (fun s _ =>
    s.event 0x080B (match s.slotOfDie d with | some n => s.ofSlot n | none => ofDie d) []) s

/-- SRAM_COLUMN_REPAIR (R281): it takes effect while no draft of the slot's partition is ARMED or RUNNING. -/
def execSramColumnRepair (t : Nat) (d : DieIdx) (s : State) : Host.Outcome State Fault Refusal :=
  let d := d.val
  let s := s.arrive t
  let busy : Bool := match (s.slotOfDie d).bind s.partOfSlot with
    | some p => (s.part p).state == .armed || (s.part p).state == .running
    | none => false
  .next (if busy then s else s.repairColumns d)

/-! ### Traffic generators (R288, R289) -/

/-- A control record that a start accepts. -/
def genOk (c : Nat) : Bool :=
  let n := genCount c
  genPattern c != 7 && genWalk c != 3 && bits c 8 7 != 0 && decide (1 ≤ bits c 20 10) && decide (bits c 20 10 ≤ 1024) &&
  decide (1 ≤ n) && decide (n ≤ 0x1000000) && decide (genBase c + n ≤ 0x1000000) &&
  (genWalk c != 1 || 2 ^ Nat.log2 n == n) && (genWalk c != 2 || n % 8192 == 0)

/-- n bits of PRBS31, x^31 + x^28 + 1, from a register; the bits first to last, and the register after. -/
def prbs : Nat → Nat → List Bool × Nat
  | 0, r => ([], r)
  | n + 1, r =>
    let b := bit r 30 != bit r 27
    let (l, r') := prbs n ((r * 2 + b2n b) % 2 ^ 31)
    (b :: l, r')

/-- A number from its bits, least significant first. -/
def ofBits : List Bool → Nat
  | [] => 0
  | b :: l => b2n b + 2 * ofBits l

/-- 64-bit word w of line L of a pattern other than PRBS31. -/
def genWord (c line w : Nat) : Nat :=
  match genPattern c with
  | 0 => 0
  | 1 => ones64
  | 2 => line * 64 + 8 * w
  | 3 => (genSeed c + 8 * line + w) % 2 ^ 64
  | 5 => 2 ^ ((8 * line + w) % 64)
  | _ => if line % 2 = 0 then 0xAAAAAAAAAAAAAAAA else 0x5555555555555555

/-- Write the first n lines of a generator's walk, from request i on; r: the PRBS register. -/
def State.genWrites (s : State) (d ch c : Nat) : Nat → Nat → Nat → State
  | 0, _, _ => s
  | n + 1, i, r =>
    let line := genLine c i
    let k := stackKey d (lineOff ch line)
    if genPattern c = 4 then
      let (l, r) := prbs 512 r
      (s.store k (bytesOf 64 (ofBits l))).genWrites d ch c n (i + 1) r
    else (s.store k ((List.range 8).flatMap fun w => bytesOf 8 (genWord c line w))).genWrites d ch c n (i + 1) r

/-- Distinct lines a generator has written after it has moved some lines. -/
def genWritten (c moved : Nat) : Nat :=
  match genMix c with
  | 0 => 0
  | 3 => min (genCount c) ((moved + 1) / 2)
  | _ => min (genCount c) moved

/-- What a generator leaves in memory after moving some lines. -/
def State.genStore (s : State) (d ch moved : Nat) : State :=
  let c := s.genCtl d ch
  s.genWrites d ch c (genWritten c moved) 0 (genSeed c % 2 ^ 31)

/-- Write a status record (Table 08-9): state, die mask, first failure, lines moved, mismatches. -/
def State.genStatus (s : State) (d ch state moved : Nat) (dies : Nat) (first : Option GenMiss) (bad : Nat) : State :=
  let w0 := state + ((dies % 2 ^ 18) <<< 3) + (b2n first.isSome <<< 21)
  let w1 := match first with | some m => m.line % 2 ^ 24 + ((m.word % 8) <<< 24) | none => 0
  let w2 := match first with | some m => m.xor.toNat | none => 0
  let el := if state = 4 then 0 else (s.now - (s.gen d ch).startedAt) / unitsPerNs
  s.odSet (0x5120 + d) (ch + 1)
    (w0 + w1 * 2 ^ 64 + w2 * 2 ^ 128 + moved * 2 ^ 192 + el * 2 ^ 256 + min bad (2 ^ 32 - 1) * 2 ^ 320)

/-- A region of the stack is assigned to a partition (14 R462). -/
def State.stackAssigned (s : State) (d : Nat) : Bool :=
  (List.range 256).any fun e => bit (s.regionEntry d e) 35 && bits (s.regionEntry d e) 38 37 == 0

/-- Channels a traffic generator command names. -/
def genChannels (v : Nat) : List Nat := if bit v 5 then List.range 64 else [bits v 11 6]

/-- A command word names an operation and a die whose stack is in the map; its reserved bits do not count (00 R11). -/
def State.genNames (s : State) (v op : Nat) : Bool := bits v 13 12 == op && decide (bits v 4 0 < 22) && s.mapped (bits v 4 0)

/-- TRAFFIC_GEN_START (R288, R289): OD 0x5140.00 with operation 1. With all channels, they start in one slot window. -/
def execTrafficGenStart (t : Nat) (q : Option Nat) (v : BitVec 32) (s : State) : Host.Outcome State Fault Refusal :=
  .next ((s.arrive t).command q 0x5140 0 fun s =>
    let v := v.toNat
    let d := bits v 4 0
    let chs := genChannels v
    if !s.genNames v 1 then (s.event 0x080E noOne [], false)
    else
      let allowed := !s.stackAssigned d || s.sec.life == .maker || s.sec.life == .returned || s.boot.stage == 5
      if !allowed || !chs.all (fun ch => genOk (s.genCtl d ch)) then
        ((chs.foldl (fun s ch => s.genStatus d ch 4 0 0 none 0) s).event 0x080E (ofDie d) [], false)
      else
        (chs.foldl (fun s ch =>
          (s.setGen d ch { running := !bit v 5, startedAt := s.now, due := bit v 5 }).genStatus d ch 1 0 0 none 0) s, true))

/-- DRAM dies that a raw checker has found wrong in some lines. -/
def missDies (c : Nat) (miss : List GenMiss) : Nat := if bit c 9 then miss.foldl (fun m e => m ||| e.dies) 0 else 0

/-- TRAFFIC_GEN_STOP (R288): OD 0x5140.00 with operation 2; `moved`: lines each channel has moved, `miss`: the lines that each
channel's checker has found wrong. -/
def execTrafficGenStop (t : Nat) (q : Option Nat) (v : BitVec 32) (moved : Nat) (miss : List (Fin 64 × List GenMiss)) (s : State) :
    Host.Outcome State Fault Refusal :=
  .next ((s.arrive t).command q 0x5140 0 fun s =>
    let v := v.toNat
    let d := bits v 4 0
    if !s.genNames v 2 then (s, false)
    else
      ((genChannels v).foldl (fun s ch =>
        let x := s.gen d ch
        if x.running || x.due then
          let m := if x.running then moved else 0
          let l := if x.running then ((miss.find? fun e => e.1.val == ch).map (·.2)).getD [] else []
          ((s.genStore d ch m).genStatus d ch 3 m (missDies (s.genCtl d ch) l) l.head? l.length).setGen d ch
            { x with running := false, due := false }
        else s) s, true))

/-- TRAFFIC_GEN_DONE (R288): a running generator finishes its passes. `miss`: the lines its checker found wrong. -/
def execTrafficGenDone (t : Nat) (d : DieIdx) (ch : Fin 64) (miss : List GenMiss) (s : State) :
    Host.Outcome State Fault Refusal :=
  let s := s.arrive t
  let d := d.val
  let ch := ch.val
  let x := s.gen d ch
  let c := s.genCtl d ch
  if !x.running || genPasses c == 0 then .next s
  else
    let moved := genMoves c
    .next (((s.genStore d ch moved).genStatus d ch 2 moved (missDies c miss) miss.head? miss.length).setGen d ch
      { x with running := false })

end Sys2Proof.Machine
end

