-- ==== Sys2Proof/Machine/Restore.lean ====
section
/-! DEFINITION. Machine/Restore.lean: restore from doffs (13 R455 to R457). -/

namespace Sys2Proof.Machine

/-- An area of a restore: skein path, address, size, and its bytes when it lies on another package. -/
structure RArea where
  path : Nat
  addr : Nat
  size : Nat
  remote : List Byte
  deriving DecidableEq, Repr

/-- A committed manifest found in a half of an area. -/
structure RMan where
  area : Nat
  half : Nat
  gen : Nat
  epoch : Nat
  count : Nat
  pkg : Nat
  head : List Byte
  /-- directory: shard offset, tensor, kind, row and column offsets -/
  dir : List (List Nat)
  committed : Bool
  deriving DecidableEq, Repr

/-- A map entry (Table 13-10). -/
structure RMap where
  tensor : Nat
  format : Nat
  layout : Bool
  slot : Nat
  rowOff : Nat
  colOff : Nat
  rows : Nat
  cols : Nat
  dest : Nat
  deriving DecidableEq, Repr

/-- A shard with its header fields and data. -/
structure RShard where
  tensor : Nat
  kind : Nat
  format : Nat
  orig : Nat
  layout : Bool
  pkg : Nat
  slot : Nat
  rowOff : Nat
  colOff : Nat
  rows : Nat
  cols : Nat
  gen : Nat
  epoch : Nat
  data : List Byte
  good : Bool
  deriving DecidableEq, Repr

/-! ### Reading areas -/

/-- Bytes of an area at an offset. -/
def State.areaRead (s : State) (a : RArea) (off n : Nat) : List Byte :=
  if a.path = s.ownPath then s.readPa (a.addr + off) n else (a.remote.drop off).take n

/-- The areas a descriptor lists; `remote`: bytes of those on other packages, by index. -/
def State.areasOf (s : State) (list count : Nat) (remote : List (Nat × List Byte)) : List RArea :=
  (List.range count).map fun i =>
    let w := wordsOf (s.readPa (list + 32 * i) 32)
    ⟨nth w 0 0 % 2 ^ 48, nth w 1 0 % 2 ^ 48, nth w 2 0, fmGet remote i []⟩

/-- The map entries a descriptor lists. -/
def State.mapsOf (s : State) (list count : Nat) : List RMap :=
  (List.range count).map fun i =>
    let w := wordsOf (s.readPa (list + 32 * i) 32)
    let g := fun k => nth w k 0
    ⟨bits (g 0) 15 0, bits (g 0) 21 16, bit (g 0) 22, bits (g 0) 26 23, bits (g 1) 31 0, bits (g 1) 63 32,
      bits (g 2) 31 0, bits (g 2) 63 32, bits (g 3) 47 0⟩

/-- The manifest of a half, when one stands there: committed when its record matches (R456). -/
def State.manifestAt (s : State) (as : List RArea) (i h : Nat) : Option RMan :=
  match as[i]? with
  | none => none
  | some a =>
    let base := h * (a.size / 2)
    let head := s.areaRead a base 256
    let w := wordsOf head
    let g := fun k => nth w k 0
    let n := bits (g 3) 63 32
    if g 0 % 2 ^ 48 ≠ 0x4D414E46 + (1 <<< 32) ∨ 32758 < n then none
    else
      let dirBytes := s.areaRead a (base + 256) (32 * n)
      let c := s.areaRead a (base + 256 + 32 * n) 64
      let cw := wordsOf c
      let ok := nth cw 0 0 == 0x434F4D54 && nth cw 1 0 == g 1 && nth cw 2 0 == g 2 &&
        c.drop 32 == shake256 32 (head ++ dirBytes)
      let dir := (chunksOf 32 n dirBytes).map fun e =>
        let d := wordsOf e
        [bits (nth d 0 0) 47 0, bits (nth d 1 0) 15 0, bits (nth d 1 0) 17 16, bits (nth d 2 0) 31 0, bits (nth d 2 0) 63 32]
      some ⟨i, h, g 1, g 2 % 2 ^ 48, bits (g 3) 15 0, bits (g 3) 31 16, head, dir, ok⟩

/-- A shard read from an area's half: header of Table 13-8 and data. -/
def State.shardAt (s : State) (a : RArea) (h off : Nat) : Option RShard :=
  let base := h * (a.size / 2) + off
  let hd := s.areaRead a base 128
  let w := wordsOf hd
  let g := fun k => nth w k 0
  if g 0 % 2 ^ 48 ≠ 0x53484452 + (1 <<< 32) then none
  else
    let data := s.areaRead a (base + 128) (bits (g 6) 31 0 * 64)
    some ⟨bits (g 1) 15 0, bits (g 0) 49 48, bits (g 0) 55 50, bits (g 0) 61 56, bit (g 0) 62, bits (g 1) 31 16,
      bits (g 1) 35 32, bits (g 2) 31 0, bits (g 2) 63 32, bits (g 3) 31 0, bits (g 3) 63 32, g 4, bits (g 5) 47 0,
      data, (hd.drop 64).take 32 == shake256 32 data⟩

/-- A shard matches a directory entry of a manifest. -/
def RShard.fits (x : RShard) (m : RMan) (e : List Nat) : Bool :=
  x.tensor == nth e 1 0 && x.kind == nth e 2 0 && x.rowOff == nth e 3 0 && x.colOff == nth e 4 0 &&
  x.gen == m.gen && x.epoch == m.epoch && x.pkg == m.pkg && x.good

/-- A copy of a directory entry's shard, primary or buddy. -/
def State.shardCopy (s : State) (as : List RArea) (m : RMan) (e : List Nat) : Option RShard :=
  as.findSome? fun a => ([0, 1].filterMap fun h => s.shardAt a h (nth e 0 0)).find? fun x => x.fits m e

/-- `all_shards_ok` (R456). -/
def State.shardsOk (s : State) (as : List RArea) (m : RMan) : Bool := m.dir.all fun e => (s.shardCopy as m e).isSome

/-- A manifest into a list of descending epochs. -/
def insertMan (m : RMan) : List RMan → List RMan
  | [] => [m]
  | x :: l => if x.epoch < m.epoch then m :: x :: l else x :: insertMan m l

/-- `restore_select` (R456) over manifests of descending epochs: those of the first epoch whose set is complete. -/
def State.restoreSelect (s : State) (as : List RArea) : Nat → List RMan → Option (List RMan)
  | 0, _ => none
  | _ + 1, [] => none
  | k + 1, m :: l =>
    let same := (m :: l).filter fun x => x.epoch == m.epoch
    let rest := l.filter fun x => x.epoch != m.epoch
    if same.all (fun x => x.count == m.count) &&
        (List.range m.count).all (fun i => same.any fun x => x.pkg == i && s.shardsOk as x) then some same
    else s.restoreSelect as k rest

/-! ### Elements (R457) -/

/-- Tile and element index of a local coordinate of a grid of tiles. -/
def gridPlace (fmt : Nat) (colMajor : Bool) (rows cols r c : Nat) : Nat × Nat :=
  let nr := ceilDiv rows (tileRows fmt)
  let nc := ceilDiv cols (tileCols fmt)
  let i := r / tileRows fmt
  let j := c / tileCols fmt
  (if colMajor then j * nr + i else i * nc + j, r % tileRows fmt * tileCols fmt + c % tileCols fmt)

/-- Element of a shard at global coordinates, in its original format: its code and its hank's scale. -/
def RShard.elem (x : RShard) (gr gc : Nat) : Nat × Nat :=
  let q := gridPlace x.format x.layout x.rows x.cols (gr - x.rowOff) (gc - x.colOff)
  let t := tileOf x.format ((x.data.drop (q.1 * recordBytes x.format)).take (recordBytes x.format))
  if x.format = x.orig then (t.code q.2, if hankSize x.format = 0 then 0 else (nth t.band (q.2 / hankSize x.format) 0).toNat)
  else
    let f := fltOf (fmtType x.format)
    let sc := (nth t.band (q.2 / hankSize x.format) 0).toNat
    (fp32.encode (if sc = 0xFF then .nan else (f.decode (t.code q.2)).scale2 ((sc : Int) - 127)), 0)

/-- A shard covers global coordinates of a tensor. -/
def RShard.covers (x : RShard) (tensor gr gc : Nat) : Bool :=
  x.tensor == tensor && x.kind != 3 && decide (x.rowOff ≤ gr) && decide (gr < x.rowOff + x.rows) &&
  decide (x.colOff ≤ gc) && decide (gc < x.colOff + x.cols)

/-- Every element of a map entry has a shard. -/
def RMap.covered (m : RMap) (l : List RShard) : Bool :=
  (List.range m.rows).all fun r => (List.range m.cols).all fun c =>
    l.any fun x => x.covers m.tensor (m.rowOff + r) (m.colOff + c)

/-- The shards of a map entry have its format. -/
def RMap.fits (m : RMap) (l : List RShard) : Bool :=
  formatValid m.format && l.all fun x => x.tensor != m.tensor || x.kind == 3 || x.orig == m.format

/-- One tile of a destination: each element from the shard that covers it; codes outside the extents, and a hank
whose elements come from hanks of different scales, are free. -/
def RMap.tile (m : RMap) (l : List RShard) (free ti tj : Nat) : Tile :=
  let f := m.format
  let n := tileRows f * tileCols f
  let elems := (List.range n).map fun i =>
    let r := ti * tileRows f + i / tileCols f
    let c := tj * tileCols f + i % tileCols f
    if r < m.rows ∧ c < m.cols then
      (l.find? fun x => x.covers m.tensor (m.rowOff + r) (m.colOff + c)).map fun x => x.elem (m.rowOff + r) (m.colOff + c)
    else none
  let h := hankSize f
  let torn := (List.range (hankCount f)).filter fun k =>
    1 < (((elems.drop (k * h)).take h).filterMap fun e => e.map (·.2)).eraseDups.length
  let codes := ((List.range n).zip elems).map fun e =>
    let loose := (Config.freeWord (free + e.1)).toNat % 2 ^ (8 * elemBytes f)
    if h ≠ 0 ∧ torn.contains (e.1 / h) then loose else (e.2.map (·.1)).getD loose
  let band := (List.range 1024).map fun k =>
    if hankCount f ≤ k then (0 : Byte)
    else if torn.contains k then BitVec.ofNat 8 (Config.freeWord (free + n + k)).toNat
    else BitVec.ofNat 8 (((((elems.drop (k * h)).take h).filterMap fun e => e.map (·.2)).head?).getD 0)
  let payload := codes.flatMap (bytesOf (elemBytes f))
  let index := ti * ceilDiv m.cols (tileCols f) + tj
  { format := f, payload := payload, band := band, flag := recomputedFlag f payload band 0xFFFF index m.tensor }

/-- Fill the destination of a map entry. -/
def State.fillMap (s : State) (l : List RShard) (m : RMap) : State :=
  let nr := ceilDiv m.rows (tileRows m.format)
  let nc := ceilDiv m.cols (tileCols m.format)
  (List.range (nr * nc)).foldl (fun s k =>
    let ti := if m.layout then k % nr else k / nc
    let tj := if m.layout then k / nr else k % nc
    let t := m.tile l s.freeCtr ti tj
    { s with freeCtr := s.freeCtr + 32768 }.storePa (m.dest + k * recordBytes m.format) t.record) s

/-- Restore a slot-state shard into a slot: registers, histogram space, batt, persistent SRAM ranges. -/
def State.fillSlot (s : State) (n : Nat) (data : List Byte) : State :=
  match s.dieOfSlot n with
  | none => s
  | some d =>
    let regs := sregOf (data.take 512)
    let s := s.setFlyer n { s.flyer n with sreg := regs, sregCommit := regs, sregErr := [] }
    let s := s.store (sramKey d histOff) ((data.drop 512).take 0x200000)
    let s := s.store (sramKey d battOff) ((data.drop (512 + 0x200000)).take (histOff - battOff))
    let p := (s.partOfSlot n).getD 0
    let ranges := ((s.declaredRanges p).filterMap fun r => (s.rangeKey p r.1 r.2).map fun k => (k, r.2)).filter fun r =>
      decide (sramKey d 0 ≤ r.1) && decide (r.1 < sramKey d sramEnd)
    (ranges.foldl (fun (a : State × List Byte) r => (a.1.store r.1 (a.2.take r.2), a.2.drop r.2))
      (s, data.drop (512 + 0x200000 + (histOff - battOff)))).1

/-! ### The commands -/

/-- Partitions a restore's destinations belong to. -/
def State.affected (s : State) (maps : List RMap) : List Nat :=
  (maps.filterMap fun m =>
    if m.tensor = 0xFFFF then s.partOfSlot m.slot
    else match s.place m.dest with
      | .stack d o => (s.region? d (o / 2 ^ 21)).map fun v => bits v 31 30
      | .sram n _ _ => s.partOfSlot n
      | _ => none).eraseDups

/-- The words of the descriptor are well formed (Table 13-10). -/
def restoreDescOk (w : List Nat) : Bool :=
  let ac := bits (nth w 0 0) 63 48
  decide (1 ≤ ac) && decide (ac ≤ 256) && decide (1 ≤ bits (nth w 1 0) 63 48) && bits (nth w 2 0) 63 48 == 0 &&
  (w.drop 3).all (· == 0)

/-- RESTORE_REQUEST (R455): OD 0x8060.01. A second request while a restore runs is refused. -/
def execRestoreRequest (t : Nat) (q : Option Nat) (v : BitVec 64) (s : State) : Host.Outcome State Fault Refusal :=
  .next ((s.arrive t).command q 0x8060 1 fun s =>
    let s := if s.res.restoring.isSome then s else s.scanned v.toNat 64
    if s.res.restoring.isSome then (s, false)
    else if !restoreDescOk (wordsOf (s.readPa v.toNat 64)) then (s.odSet 0x8060 2 4, true)
    else ({ s with res := { s.res with restoring := some v.toNat } }.odSet 0x8060 2 1, true))

/-- Entries of the ignored-shard report (Table 13-10). -/
def reportOf (mans : List RMan) (bad : RMan → List Nat → Bool) (S : Nat) : List (Nat × Nat × Nat) :=
  mans.flatMap fun m => m.dir.filterMap fun e =>
    if !m.committed then some (m.area, nth e 0 0, 3)
    else if m.epoch ≠ S then some (m.area, nth e 0 0, 1)
    else if bad m e then some (m.area, nth e 0 0, 2)
    else none

/-- Write the report: a count, then 16 bytes an entry: area, offset, reason. -/
def State.writeReport (s : State) (addr : Nat) (l : List (Nat × Nat × Nat)) : State :=
  s.storePa addr (bytesOf 4 l.length ++ l.flatMap fun e => bytesOf 4 e.1 ++ bytesOf 8 e.2.1 ++ bytesOf 4 e.2.2)

/-- The end of a restore with a status. -/
def State.endRestore (s : State) (status : Nat) : State :=
  { s with res := { s.res with restoring := none } }.odSet 0x8060 2 status

/-- What the steward reads of this package's memory in a restore: the descriptor and its lists, and of each area its manifests,
their directories and commit records, and the shards they list. -/
def State.restoreReads (s : State) (d : Nat) (w : List Nat) (as : List RArea) (mans : List RMan) : List (Nat × Nat) :=
  [(d, 64), (bits (nth w 0 0) 47 0, 32 * bits (nth w 0 0) 63 48), (bits (nth w 1 0) 47 0, 32 * bits (nth w 1 0) 63 48)] ++
  ((as.filter fun a => a.path == s.ownPath).flatMap fun a => [(a.addr, 256), (a.addr + a.size / 2, 256)]) ++
  mans.flatMap fun m => match as[m.area]? with
    | some a =>
      if a.path = s.ownPath then
        let base := a.addr + m.half * (a.size / 2)
        [(base + 256, 32 * m.dir.length + 64)] ++ m.dir.filterMap fun e =>
          (s.shardAt a m.half (nth e 0 0)).map fun x => (base + nth e 0 0, 128 + x.data.length)
      else []
    | none => []

/-- RESTORE_FINISH (R456, R457): the steward chooses S, checks coverage and formats, and fills the destinations.
`areas`: bytes of the areas on other packages. -/
def execRestoreFinish (t : Nat) (areas : List (Nat × List Byte)) (s : State) : Host.Outcome State Fault Refusal :=
  let s := s.arrive t
  match s.res.restoring with
  | none => .next s
  | some d =>
    let w := wordsOf (s.readPa d 64)
    let as := s.areasOf (bits (nth w 0 0) 47 0) (bits (nth w 0 0) 63 48) areas
    let maps := s.mapsOf (bits (nth w 1 0) 47 0) (bits (nth w 1 0) 63 48)
    let ps := s.affected maps
    if ps.any fun p => (s.part p).state == .armed || (s.part p).state == .running then .next s
    else
      let mans := (List.range as.length).flatMap fun i => [0, 1].filterMap fun h => s.manifestAt as i h
      let s := (s.restoreReads d w as mans).foldl (fun s e => s.scanned e.1 e.2) s
      let good := (mans.filter (·.committed)).foldr insertMan []
      match s.restoreSelect as (good.length + 1) good with
      | none => .next (s.endRestore 3)
      | some set =>
        let S := (set.head?.map (·.epoch)).getD 0
        let shards := set.flatMap fun m => m.dir.filterMap fun e => s.shardCopy as m e
        let data := maps.filter fun m => m.tensor != 0xFFFF
        let slots := (maps.filter fun m => m.tensor == 0xFFFF).map fun m =>
          (m, shards.find? fun x => x.kind == 3 && x.pkg == m.rowOff && x.slot == m.colOff)
        let bad := fun (m : RMan) (e : List Nat) =>
          match as[m.area]?.bind fun a => s.shardAt a m.half (nth e 0 0) with
          | some x => !x.fits m e
          | none => true
        if !data.all (fun m => m.fits shards) then .next (s.endRestore 4)
        else if !data.all (fun m => m.covered shards) || slots.any (fun e => e.2.isNone) then .next (s.endRestore 3)
        else
          let s := data.foldl (fun s m => s.fillMap shards m) s
          let s := slots.foldl (fun s e => match e.2 with | some x => s.fillSlot e.1.slot x.data | none => s) s
          let s := s.writeReport (bits (nth w 2 0) 47 0) (reportOf mans bad S)
          let head := (set.head?.map (·.head)).getD []
          let s := ps.foldl (fun s p =>
            let s := (s.odSet (0x4010 + p) 1 (natOf ((head.drop 56).take 16))).odSet (0x8050 + p) 8
              (natOf ((head.drop 72).take 64))
            (s.setPart p { s.part p with keyEntropy := false }).seedRecord p) s
          .next (((s.odSet 0x8060 3 S).endRestore 2).event 0x0D15 noOne [])

end Sys2Proof.Machine
end

