-- ==== Sys2Proof/Machine/Setup.lean ====
section
/-! DEFINITION. Machine/Setup.lean: configuration before and at partition commit: role map (01 R22 to R26), shares (11
R395 to R397), region tables (14 R462 to R464, R466), partition commit (01 R49 to R51; 12 R412; 13 R432; 14 R461,
R478, R485), generator keys (12 R406), *reel_read* (12 R412) and recorded fabric inputs (12 R419). -/

namespace Sys2Proof.Machine

/-! ### The seal pair (14 R485, R486) -/

/-- One of the host dies is lost: a single seal processor decides (R486). -/
def State.singleSeal (s : State) : Bool := s.cfg.lost.contains 30 || s.cfg.lost.contains 31

/-- A critical decision: it takes effect when all results agree; after the third disagreement since cold reset every
one is refused (R485). -/
def State.critical (s : State) (agree : Bool) : State × Bool :=
  if 3 ≤ s.sec.disagreements then (s, false)
  else if agree then (s, true)
  else (({ s with sec := { s.sec with disagreements := s.sec.disagreements + 1 } }).event 0x0E08 noOne [], false)

/-! ### Role map (01 R24) -/

/-- Setpoint of a spindle die of a role: SPARE idles at 620 mV (16 R523). -/
def State.roleSetpoint (s : State) (d role : Nat) : Nat :=
  if role = 1 then 620 else if role = 0 then s.activeSetpoint d else 0

/-- The steward moves a rail toward a setpoint (16 R525), unless it is held (R524). -/
def State.aimRail (s : State) (r mv : Nat) : State :=
  let x := fmGet s.pow.rails r {}
  if x.heldSince.isSome then s else { s with pow := { s.pow with rails := fmSet s.pow.rails r { x with target := mv } } }

/-- Set a die's role entry, and its rail's target with it. -/
def State.setRole (s : State) (d v : Nat) : State :=
  let role := bits v 5 4
  let old := s.role d
  let s := s.odSet 0x3001 (d + 1) (v % 64)
  if role = old then s else s.aimRail (dieRail d) (s.roleSetpoint d role)

/-- A role-map write is ignored (R24). -/
def State.roleRefused (s : State) (d v : Nat) : Bool :=
  decide (2 ≤ bits v 5 4) || decide (2 ≤ s.role d) || (bits v 5 4 == 0 && decide (s.cfg.slots ≤ bits v 3 0))

/-- ROLE_MAP_WRITE (R24): OD 0x3001. -/
def execRoleMapWrite (t : Nat) (q : Option Nat) (die : DieIdx) (v : BitVec 16) (s : State) :
    Host.Outcome State Fault Refusal :=
  let d := die.val
  .next ((s.arrive t).commandEv q 0x3001 (d + 1) 0x0101 (ofDie d) fun s =>
    if s.roleRefused d v.toNat then (s, false) else (s.setRole d v.toNat, true))

/-! ### Shares (11 R396) -/

/-- Sum over the four share records of a subindex, with one record's value replaced. -/
def State.shareSum (s : State) (sub p v : Nat) : Nat :=
  ((List.range 4).map fun i => if i = p then v else s.odGet (0x3020 + i) sub).sum

/-- A share write is in range and keeps its sum (R396). -/
def State.shareOk (s : State) (p sub v : Nat) : Bool :=
  if p = 4 ∨ sub ≤ 3 then decide (1 ≤ v) && decide (v ≤ 255)
  else if sub = 4 then decide (v ≤ 1023) && decide (s.shareSum 4 p v ≤ 1023)
  else decide (v ≤ 100) && decide (s.shareSum 5 p v ≤ 100)

/-- SHARE_WRITE (R396): OD 0x3020 to 0x3023, and *system_weight* OD 0x3024 as part 4. -/
def execShareWrite (t : Nat) (q : Option Nat) (part : Fin 5) (sub : Nat) (v : BitVec 16) (s : State) :
    Host.Outcome State Fault Refusal :=
  let p := part.val
  .next ((s.arrive t).commandEv q (0x3020 + p) sub 0x0B03 (if p = 4 then noOne else ofPart p) fun s =>
    if s.shareOk p sub v.toNat then (s.odSet (0x3020 + p) sub v.toNat, true) else (s, false))

/-! ### Region tables (14 R462, R463) -/

/-- Fields of a region entry that a write carries: all but `lock` and reserved bits. -/
def regionMask : Nat := 2 ^ 36 - 1 + 2 ^ 37 + 2 ^ 38

/-- Entry e of die d's table, counting a write that waits for its window boundary. -/
def State.regionNext (s : State) (d e : Nat) : Nat := fmGet s.entryWaits (d * 256 + e) (s.regionEntry d e)

/-- Two valid entries cover a granule in common. -/
def regionsOverlap (a b : Nat) : Bool :=
  bit a 35 && bit b 35 && decide (bits a 14 0 ≤ bits b 14 0 + bits b 29 15) && decide (bits b 14 0 ≤ bits a 14 0 + bits a 29 15)

/-- A region write the package ignores (R463). `owner`: the requester is an owner session. -/
def State.regionRefused (s : State) (owner : Bool) (d e v : Nat) : Bool :=
  let old := s.regionNext d e
  s.cfg.locked || decide (32767 < bits v 14 0 + bits v 29 15)
  || ((List.range 256).any fun i => i != e && regionsOverlap v (s.regionNext d i))
  || bits v 38 37 != bits old 38 37
  || ((bit v 32 || (bit v 33 && bit old 32)) && !owner)

/-- REGION_ENTRY_WRITE (R463): OD 0x9100+d; it takes effect at the stack's next slot-window boundary. -/
def execRegionEntryWrite (t : Nat) (q : Option Nat) (die : DieIdx) (e : BitVec 8) (v : BitVec 64) (s : State) :
    Host.Outcome State Fault Refusal :=
  let d := die.val
  let v := v.toNat &&& regionMask
  .next ((s.arrive t).commandEv q (0x9100 + d) e.toNat 0x0E01 (ofDie d) fun s =>
    let owner := (s.sessionOf q).any fun x => x.role == .owner
    if s.regionRefused owner d e.toNat v then (s, false)
    else ({ s with entryWaits := fmSet s.entryWaits (d * 256 + e.toNat) v }, true))

/-! ### Checks of partition commit (01 Table 01-6) -/

/-- The role map is valid (01 R25). -/
def State.roleMapValid (s : State) : Bool :=
  ((List.range s.cfg.slots).all fun n =>
    ((List.range 18).filter fun d => s.role d == 0 && s.roleSlot d == n).length == 1) &&
  decide (s.spareDies.length ≤ 2)

/-- The valid partitions. -/
def State.validParts (s : State) : List Nat := (List.range 4).filter s.partValid

/-- Number of valid partitions that own a bit of the descriptor. -/
def State.ownersOf (s : State) (b : Nat) : Nat := (s.validParts.filter fun p => bit (s.desc p) b).length

/-- Bits of a descriptor that stand for slots and groups of this part. -/
def State.ownableBits (s : State) : List Nat := List.range s.cfg.slots ++ (List.range 16).map (· + 16)

/-- Outcome of the commit checks, in the order of Table 01-6; 1 when none fails. DEDUCED (log 59): check 0x07 looks, as
0x03 to 0x06 do, at valid descriptors; 14 R472 says 'a descriptor with `world` 1' and names no `valid`. -/
def State.commitCheck (s : State) : Nat :=
  if !s.roleMapValid then 2
  else if s.validParts.any fun p => (s.partSlots p).any fun n => decide (s.cfg.slots ≤ n) then 3
  else if s.ownableBits.any fun b => decide (1 < s.ownersOf b) then 4
  else if s.ownableBits.any fun b => s.ownersOf b == 0 then 5
  else if s.validParts.any fun p => bits (s.desc p) 31 0 == 0 then 6
  else if s.sec.life != .field && s.validParts.any s.partWorld then 7
  else 1

/-! ### What a successful commit does -/

/-- Tenant entries of invalid partitions, or of another world than their partition's, lose `valid` (14 R464). -/
def State.dropEntries (s : State) : State :=
  forN 22 s fun s d => forN 256 s fun s e =>
    let v := s.regionEntry d e
    let p := bits v 31 30
    if bit v 35 && bits v 38 37 == 0 && (!s.partValid p || bit v 32 != s.partWorld p) then
      (s.odSet (0x9100 + d) e (setBit v 35 false)).event 0x0E01 (ofDie d) []
    else s

/-- The images the buddy map lists: slot, whether secondary, target and place. -/
def State.mapImages (s : State) : List (Nat × Bool × Nat × Nat) :=
  (List.range s.cfg.slots).flatMap fun n =>
    let e := s.odGet 0x8002 (n + 1)
    (if bit e 11 then [(n, false, bits e 4 0, bits e 10 5)] else []) ++
    (if bit e 23 then [(n, true, bits e 16 12, bits e 22 17)] else [])

/-- An image fails the checks of 13 R432. -/
def State.imageBad (s : State) (i : Nat × Bool × Nat × Nat) : Bool :=
  let (n, sec, a, pl) := i
  let lo := pl * s.buddyBytes
  let hi := lo + s.buddyBytes
  (s.apertureDie a).isNone
  || decide ((if a = 16 ∨ a = 17 then 2 ^ 36 else 2 ^ 36 - s.journalBytes) < hi)
  || (sec && (a == n || a == 16 || a == 17))
  || (s.mapImages.any fun j => (j.1 != n || j.2.1 != sec) && j.2.2.1 == a && j.2.2.2 == pl)
  || ((List.range 4).any fun p => (s.declaredRanges p).any fun r =>
      r.1 / 2 ^ 36 == a && decide (r.1 % 2 ^ 36 < hi) && decide (lo < r.1 % 2 ^ 36 + r.2))

/-- Clear the valid bit of an image, with BUDDY_CONFIG_REJECT (13 R432). -/
def State.rejectImage (s : State) (i : Nat × Bool × Nat × Nat) : State :=
  let n := i.1
  (s.odSet 0x8002 (n + 1) (setBit (s.odGet 0x8002 (n + 1)) (if i.2.1 then 23 else 11) false)).event 0x0D07
    (s.slotOnly n) []

/-- Bind the spare apertures to the SPARE dies (08 R266). -/
def State.bindSpares (s : State) : State :=
  { s with cfg := { s.cfg with spare16 := s.spareDies[0]?, spare17 := s.spareDies[1]? } }

/-- First free entry of a stack's table. -/
def State.freeEntry (s : State) (d : Nat) : Option Nat := (List.range 256).find? fun e => !bit (s.regionEntry d e) 35

/-- Write a package-held entry: base and count in granules, partition and world (14 R466). -/
def State.packageEntry (s : State) (d base count p : Nat) (world : Bool) : State × Bool :=
  match s.freeEntry d with
  | none => (s, false)
  | some e =>
    (s.odSet (0x9100 + d) e (base + ((count - 1) <<< 15) + (p <<< 30) + (b2n world <<< 32) + 2 ^ 35 + 2 ^ 37), true)

/-- Package-held entries for every journal, then for every image (14 R466). -/
def State.packageEntries (s : State) : State :=
  let granules := s.journalBytes / 2 ^ 21
  let actives := (List.range 22).filter fun d => s.mapped d && (decide (18 ≤ d) || s.role d == 0)
  let s := actives.foldl (fun s d => (s.packageEntry d (2 ^ 15 - granules) granules 0 true).1) s
  s.mapImages.foldl (fun s i =>
    match s.apertureDie i.2.2.1 with
    | none => s
    | some d =>
      let p := (s.partOfSlot i.1).getD 0
      let g := s.buddyBytes / 2 ^ 21
      match s.packageEntry d (i.2.2.2 * g) g p (s.partWorld p) with
      | (s, true) => s
      | (s, false) => s.rejectImage i) s

/-- Worlds of dies and solver groups, locked (14 R461). -/
def State.setWorlds (s : State) : State :=
  let slotWorld := fun n => (s.partOfSlot n).any s.partWorld
  let groupWorld := fun g => (s.partOfGroup g).any s.partWorld
  let dieWorld := fun d =>
    if d < 18 then (if s.role d = 0 then slotWorld (s.roleSlot d) else s.role d == 1)
    else if d < 22 then (List.range 4).any fun i => groupWorld (4 * (d - 18) + i)
    else false
  let s := forN 32 s fun s d => s.odSet 0x9010 (d + 1) (b2n (dieWorld d) + 2)
  forN 16 s fun s g => s.odSet 0x9011 (g + 1) (b2n (groupWorld g) + 2)

/-- Creel bases (11 R397). -/
def State.setCreelBases (s : State) : State :=
  forN 4 s fun s p => s.odSet (0x3028 + p) 6 ((List.range p).map fun i => s.odGet (0x3020 + i) 4).sum

/-- Regions of part p of the reel log (12 R412). -/
def State.reelRegions (s : State) (p : Nat) : Nat := s.odGet 0x2030 2 * s.odGet (0x3020 + p) 5 / 100

/-- Lay out part p of the reel log; a part outside its partition's regions is disabled (12 R412), any other begins with
an OPEN record (Table 12-7). -/
def State.openReel (s : State) (p : Nat) : State :=
  let n := s.reelRegions p
  let base := s.odGet 0x2030 1 + ((List.range p).map s.reelRegions).sum * 2 ^ 21
  let bad := (List.range n).any fun i => !s.inRegions p (base + i * 2 ^ 21) (2 ^ 21)
  let s := { s with reels := fmSet s.reels p { base := base, size := n * 2 ^ 21, disabled := bad } }
  let s := if bad then s.event 0x0C04 (ofPart p) [] else s
  s.reel p 1 3 ([2 + (s.odGet 0x4002 0 <<< 16), s.ownPath] ++ wordsOf s.identityKey)

/-- A region entry as it reads: `lock` stands once the configuration is locked (14 R464). -/
def State.regionRead (s : State) (d e : Nat) : Nat := s.regionEntry d e + (if s.cfg.locked then 2 ^ 36 else 0)

/-- The digest of all 22 region tables (14 Table 14-7). -/
def State.regionTablesDigest (s : State) : List Byte :=
  shake256 64 ((List.range 22).flatMap fun d => (List.range 256).flatMap fun e => bytesOf 8 (s.regionRead d e))

/-- Extend MR10 (14 Table 14-7), and keep the digest for attestation. -/
def State.measureCommit (s : State) : State :=
  let dg := s.regionTablesDigest
  let s := s.extendMr 10 ((List.range 4).flatMap (fun p => bytesOf 8 (s.desc p)) ++ bytesOf 1 (s.odGet 0x4002 0) ++ dg)
  { s with sec := { s.sec with regionDigest := dg.take 32 } }

/-- A commit whose checks passed takes effect. -/
def State.commitPartitions (s : State) : State :=
  let s := (forN 22 s fun s d => s.applyEntries d).dropEntries
  let s := s.bindSpares
  let s := (s.mapImages.filter s.imageBad).foldl State.rejectImage s
  let s := s.packageEntries
  let s := { s with cfg := { s.cfg with locked := true } }
  let s := s.setWorlds.setCreelBases.measureCommit
  let s := forN 4 s State.openReel
  (s.odSet 0x3012 0 1).endStartup 9

/-- PARTITION_COMMIT (R49): OD 0x3011.00. `agree`: the results of the seal processors agree. The write answers OK whenever
the checks run. DESIGN CHOICE (log 60): where the seal processors disagree nothing is committed and *partition_status*
keeps its value; SEAL_DISAGREE tells of it (14 R485). -/
def execPartitionCommit (t : Nat) (q : Option Nat) (v : BitVec 8) (agree : Bool) (s : State) :
    Host.Outcome State Fault Refusal :=
  let s := s.arrive t
  match s.refusal q 0x3011 0 true with
  | some st => .next (s.answer st [])
  | none =>
    if v ≠ 1 then .next (s.answer stRange [])
    else
      let c := s.commitCheck
      if c ≠ 1 then .next ((s.odSet 0x3012 0 c).answer stOk [])
      else match s.critical agree with
        | (s, true) => .next (s.commitPartitions.answer stOk [])
        | (s, false) => .next (s.answer stOk [])

/-! ### Generator keys (12 R406) -/

/-- A draft of partition p is ARMED or RUNNING. -/
def State.partBusy (s : State) (p : Nat) : Bool := (s.part p).state == .armed || (s.part p).state == .running

/-- Set a generator key, and record it. -/
def State.setKey (s : State) (p v : Nat) (entropy : Bool) : State :=
  ((s.odSet (0x4010 + p) 1 v).setPart p { s.part p with keyEntropy := entropy }).seedRecord p

/-- RNG_KEY_WRITE (R406): OD 0x4010+p.01. -/
def execRngKeyWrite (t : Nat) (q : Option Nat) (p : PartIdx) (v : BitVec 128) (s : State) :
    Host.Outcome State Fault Refusal :=
  let p := p.val
  .next ((s.arrive t).commandEv q (0x4010 + p) 1 0x0C01 (ofPart p) fun s =>
    if s.partBusy p then (s, false) else (s.setKey p v.toNat false, true))

/-- RNG_KEY_ENTROPY (R406): OD 0x4010+p.02. -/
def execRngKeyEntropy (t : Nat) (q : Option Nat) (p : PartIdx) (v : BitVec 8) (s : State) :
    Host.Outcome State Fault Refusal :=
  let p := p.val
  let s := s.arrive t
  match s.refusal q (0x4010 + p) 2 true with
  | some st => .next (s.answer st [])
  | none =>
    if v ≠ 1 then .next (s.answer stRange [])
    else if s.partBusy p then .next ((s.event 0x0C01 (ofPart p) []).answer stRejected [])
    else if s.odGet 0x4002 0 = 1 then .next ((s.event 0x0C02 (ofPart p) []).answer stRejected [])
    else
      let (key, s) := s.freeBytes 16
      .next ((s.setKey p (natOf key) true).answer stOk [])

/-! ### The reel log's reader (12 R412) -/

/-- REEL_READ_WRITE (R412): OD 0x2034+p.02 takes the start of a record kept, or *reel_write*. -/
def execReelReadWrite (t : Nat) (q : Option Nat) (p : PartIdx) (v : BitVec 64) (s : State) :
    Host.Outcome State Fault Refusal :=
  let p := p.val
  .next ((s.arrive t).commandEv q (0x2034 + p) 2 0x0C05 (ofPart p) fun s =>
    if (fmGet s.reels p {}).starts.contains v.toNat || v.toNat == s.odGet (0x2034 + p) 1 then
      (s.odSet (0x2034 + p) 2 v.toNat, true)
    else (s, false))

/-! ### Recorded fabric inputs (12 R419) -/

/-- Perform a recorded store or atomic on memory, with its data from the stream. -/
def State.replayInput (s : State) (p : Nat) (k : Packet) : State :=
  let s := if k.op = 0x02 then s.storePa k.addr k.data
    else
      let n := k.len
      let s := s.scanned k.addr n
      let old := natOf (s.readPa k.addr n)
      s.storePa k.addr (bytesOf n (amoValue k.op n old (natOf (k.data.take n)) (natOf ((k.data.drop n).take n))))
  (s.breakRes 256 k.addr k.len).fabricRecord p k

/-- REPLAY_FABRIC_INPUT (R419): the next FABRIC_IN of the stream whose tick and cycle have come is performed. -/
def execReplayFabricInput (t : Nat) (p : PartIdx) (s : State) : Host.Outcome State Fault Refusal :=
  let p := p.val
  let s := s.arrive t
  let x := s.part p
  if !x.replay.on || x.state != .running then .next s
  else match s.replayFind p 7 none replayFuel x.replay.fabNext with
  | none => .next s
  | some o =>
    let at_ := s.odGet (0x2034 + p) 4 + o
    let ts := s.readPa64 (at_ + 8)
    let cyc := bits (s.readPa64 (at_ + 16)) 31 0
    let now := s.tickOf (some p)
    if now < ts ∨ (now = ts ∧ s.cycleInTick < cyc) then .next s
    else
      let w0 := s.replayWord p o 0
      let w1 := s.replayWord p o 1
      let len := bits w1 57 48
      let op := bits w0 55 48
      let ref := s.replayFind p 0x0F none 1 (o + 96)
      let data := match ref with
        | some r => s.readPa (bits (s.replayWord p r 0) 47 0) (if op = 0x12 then 2 * len else len)
        | none => []
      let s := s.scanned at_ 96
      let s := match ref with
        | some r => (s.scanned (s.odGet (0x2034 + p) 4 + r) 64).scanned (bits (s.replayWord p r 0) 47 0) (if op = 0x12 then 2 * len else len)
        | none => s
      let s := s.setPart p { x with replay := { x.replay with fabNext := o + 96 } }
      let k : Packet := { dst := s.ownPath, op := op, addr := bits w1 47 0, len := len, src := bits w0 47 0, unit := 0, data := data }
      .next (s.replayInput p k)

end Sys2Proof.Machine
end

