-- ==== Sys2Proof/Machine/Warm.lean ====
section
/-! DEFINITION. Machine/Warm.lean: what a warm reset does at once (17 R557 to R559, Table 17-6), and zeroing of the SRAM
tiers (14 R471). -/

namespace Sys2Proof.Machine

/-- Places of a die's statistics records whose unlisted value is not zero. -/
def histPlaces (d : Nat) : List Nat :=
  (List.range 2048).flatMap fun t => histSpecials.map fun o => sramKey d (histOff + 1024 * t + o)

/-- Zeros in every byte of bobbins, batts, histogram space and creel; scalar and tile state with them. -/
def State.zeroSram (s : State) : State :=
  let m := s.mem.filter fun c => decide (c.1 < 2 ^ 41)
  { s with
    mem := ((List.range 18).flatMap histPlaces).foldl (fun m k => Mem.write m k 0) m
    lines := s.lines.filter fun e => decide (e.1 * 64 < 2 ^ 41)
    sramErr := [], stats := [], flyers := [], stations := [], whorls := [], twists := [], harts := [] }

/-- Abort and unload every draft (Table 17-6; 02 R76; 09 R330). -/
def State.dropDrafts (s : State) : State :=
  forN 4 s fun s p =>
    match (s.part p).state with
    | .empty => s
    | .loaded => s.emptyDraft p
    | _ => (s.abortDraft p).emptyDraft p

/-- End every dynamic collective with status FAILED_MEMBER (R558). -/
def State.endColls (s : State) : State :=
  s.coll.colls.foldl (fun s e => if e.2.draft then s else s.completeColl e.1 3 (s.group e.2.part e.2.group).ownRank) s

/-- A restore ends with status 0, and a doff writes no commit record (R559). -/
def State.endTransfers (s : State) : State :=
  let s := if s.res.restoring.isSome then { s with res := { s.res with restoring := none } }.odSet 0x8060 2 0 else s
  forN 4 s fun s p =>
    if (s.part p).doff.isSome then (s.setPart p { s.part p with doff := none }).odSet (0x8050 + p) 4 0 else s

/-- A warm reset begins (R558 steps 1 to 3): stage 6 runs again. -/
def State.beginWarm (s : State) (cause : Nat) : State :=
  let s := s.endTransfers.dropDrafts.endColls.zeroSram
  { s with
    boot := { s.boot with warm := true, warmWaits := false, warmCause := cause, stage := 6 }
    sec := { s.sec with debugMask := 0, debugCaps := [] }
    fab := { s.fab with sources := [], ordering := [], own := [], gathers := [], issued := false } }

end Sys2Proof.Machine
end

