-- ==== Sys2Proof/Machine/Security.lean ====
section
/-! DEFINITION. Machine/Security.lean: life cycle (14 R467 to R473), debug grants (R474), security version (R477),
identity and attestation (R479, R480). -/

namespace Sys2Proof.Machine

/-! ### Life cycle (14 R467 to R471) -/

/-- Code of a life-cycle state (Table 14-3). -/
def LifeCycle.code : LifeCycle → Nat
  | .maker => 1 | .provisioned => 2 | .field => 3 | .returned => 4 | .scrapped => 5

/-- The state of a code. -/
def lifeOf : Nat → Option LifeCycle
  | 1 => some .maker | 2 => some .provisioned | 3 => some .field | 4 => some .returned | 5 => some .scrapped
  | _ => none

/-- The identity public key, OD 0x9020.00 (R479). -/
def State.identityPk (s : State) : Option (List Byte) := s.sec.seed.map Config.dsaPublic

/-- The part's identity digest, OD 0x9022.00. -/
def State.pid (s : State) : Option (List Byte) := s.identityPk.map digest32

/-- A list cut or filled with zeros to n bytes. -/
def fitTo (n : Nat) (l : List Byte) : List Byte := (l ++ List.replicate (n - l.length) 0).take n

/-- A signature by the identity key; without an identity its bytes are free (R479). -/
def State.identitySign (s : State) (ctx m : List Byte) : List Byte × State :=
  match s.sec.seed with
  | some k => (fitTo 3309 (Config.dsaSign k ctx m), s)
  | none => s.freeBytes 3309

/-- Bytes lo up to hi of a record. -/
def cut (l : List Byte) (lo hi : Nat) : List Byte := (l.drop lo).take (hi - lo)

/-- A key matches a fused maker root that is not revoked (R469). -/
def State.makerRoot (s : State) (pk : List Byte) : Bool :=
  (List.range 4).any fun i => !bit s.sec.makerRevoked i && digest32 pk == digest32 (Config.makerKey i)

/-- A signature by a maker key verifies. -/
def State.makerSigned (s : State) (ctx m sig : List Byte) : Bool :=
  (List.range 4).any fun i => !bit s.sec.makerRevoked i && Config.dsaVerify (Config.makerKey i) ctx m sig

/-- The signatures a transition asks for (Table 14-4). -/
def State.transitionSigned (s : State) (dest : LifeCycle) (r : List Byte) : Bool :=
  let body := cut r 0 2064
  let pk := cut r 112 2064
  let ok := Config.dsaVerify pk (ascii "CLP-LCTR") body (cut r 2064 5373)
  match s.sec.life, dest with
  | .provisioned, .field =>
    ok && cut r 72 104 == digest32 pk && s.makerSigned (ascii "CLP-LCTR") body (cut r 5373 8682)
  | .field, .returned => ok && digest32 pk == s.sec.ownerDigest
  | .field, .scrapped => ok && digest32 pk == s.sec.ownerDigest
  | .returned, .provisioned => ok && s.makerRoot pk && decide (s.sec.refurb < 3)
  | .maker, .scrapped | .provisioned, .scrapped | .returned, .scrapped => ok && s.makerRoot pk
  | _, _ => false

/-- Fixed fields of a transition record (Table 14-5); `from` is the present state. -/
def State.recordShaped (s : State) (dest : LifeCycle) (r : List Byte) : Bool :=
  natOf (cut r 0 4) == 0x4C435452 && natOf (cut r 4 6) == 1 && natOf (cut r 6 7) == s.sec.life.code &&
  natOf (cut r 108 112) == 0 && (dest == .field || natOf (cut r 72 104) == 0)

/-- A transition record is accepted (R468, R469): MAKER to PROVISIONED asks for a maker session only. -/
def State.recordOk (s : State) (q : Option Nat) (r : List Byte) : Option LifeCycle :=
  match lifeOf (natOf (cut r 7 8)) with
  | none => none
  | some dest =>
    if s.sec.transition.isSome ∨ !s.recordShaped dest r then none
    else if s.sec.life = .maker ∧ dest = .provisioned then
      if (s.sessionOf q).any fun x => x.role == .maker then some dest else none
    else if some (cut r 8 40) = s.pid ∧ cut r 40 72 = s.sec.lcChallenge ∧ s.transitionSigned dest r then some dest
    else none

/-- A new challenge of 32 fresh bytes. -/
def State.renewLc (s : State) : State :=
  let (c, s) := s.freeBytes 32
  { s with sec := { s.sec with lcChallenge := c } }

/-- The transition erases tenant data first (R471). -/
def erasing (life dest : LifeCycle) : Bool := life == .field && (dest == .returned || dest == .scrapped)

/-- Erasures and writes of a transition other than the zeroing of memory (R470 step 3, Table 14-4). -/
def State.transitionWrites (s : State) (dest : LifeCycle) (owner pk : List Byte) (cosign : Bool) : State :=
  let (k, s) := s.freeWord
  { s with sec :=
    match s.sec.life, dest with
    | .maker, .provisioned => { s.sec with seed := some k.toNat }
    | .provisioned, .field => { s.sec with ownerDigest := owner, ownerPk := pk, cosign := cosign, ownerKey := true }
    | .returned, .provisioned => { s.sec with refurb := s.sec.refurb + 1 }
    | .field, .returned =>
      { s.sec with
        ownerKey := false, ownerDigest := List.replicate 32 0, ownerPk := [], tenantDigests := [], cosign := false
        debugMask := 0
        debugCaps := [] }
    | .field, .scrapped =>
      { s.sec with
        ownerKey := false, ownerDigest := List.replicate 32 0, ownerPk := [], tenantDigests := [], cosign := false
        debugMask := 0
        debugCaps := [], seed := .none }
    | _, .scrapped => { s.sec with ownerKey := false, seed := .none }
    | _, _ => s.sec }

/-- Zeros over stacks, SRAM and creel (R471). -/
def State.zeroMemory (s : State) : State := { s with mem := [], lines := [] }.zeroSram

/-- The fuse of the new state is blown and the transition complete (R470 steps 4 and 5); a warm reset that waited
begins (17 R559). -/
def State.finishTransition (s : State) (dest : LifeCycle) : State :=
  let s := { s with sec := { s.sec with
    life := dest, intent := .none, transition := .none, erasePassFailed := false, sealedUntilReset := true } }
  let s := s.event 0x0E04 noOne []
  if s.boot.warmWaits then s.beginWarm 6 else s

/-- Carry out an accepted transition (R470): one that erases memory ends at LC_ERASE_DONE. -/
def State.carryOut (s : State) (q : Option Nat) (dest : LifeCycle) (r : List Byte) : State :=
  let s := forN 4 s fun s p =>
    match (s.part p).state with
    | .armed | .running | .halted => s.abortDraft p
    | _ => s
  let s := { s with
    aoap := { s.aoap with sessions := s.aoap.sessions.filter fun e => some e.1 == q }
    sec := { s.sec with intent := some dest } }
  let s := s.transitionWrites dest (cut r 72 104) (cut r 112 2064) (bit (natOf (cut r 104 108)) 0)
  if erasing s.sec.life dest then { s with sec := { s.sec with transition := some (dest, q) } }
  else s.finishTransition dest

/-- LC_REQUEST (R469, R470): OD 0x9002.00. `agree`: the seal processors' results agree. -/
def execLcRequest (t : Nat) (q : Option Nat) (record : List Byte) (agree : Bool) (s : State) :
    Host.Outcome State Fault Refusal :=
  let s := s.arrive t
  match s.refusal q 0x9002 0 true with
  | some st => .next (s.answer st [])
  | none =>
    if record.length ≠ 8682 then .next (s.answer stLength [])
    else if s.singleSeal then .next ((s.renewLc.event 0x0E09 noOne []).answer stRejected [])
    else match s.recordOk q record with
      | none => .next ((s.renewLc.event 0x0E03 noOne []).answer stRejected [])
      | some dest =>
        match s.renewLc.critical agree with
        | (s, true) => .next ((s.carryOut q dest record).answer stOk [])
        | (s, false) => .next (s.answer stRejected [])

/-- LC_ERASE_DONE (R471): zeroing and readback of a transition finish; after a mismatch a further full pass follows. -/
def execLcEraseDone (t : Nat) (mismatch : Bool) (s : State) : Host.Outcome State Fault Refusal :=
  let s := s.arrive t
  match s.sec.transition with
  | none => .next s
  | some (dest, _) =>
    if mismatch then
      .next ({ s with sec := { s.sec with erasePassFailed := true } }.event 0x0E05 noOne [])
    else .next (s.zeroMemory.finishTransition dest)

/-! ### Test port (R473) -/

/-- A die belongs to non-secure partitions only, one of them open to debug with instruments (Table 14-3, R474). -/
def State.debugDie (s : State) (d : Nat) : Bool :=
  let opened := fun p => bit s.sec.debugMask p && bit (fmGet s.sec.debugCaps p 0) 0 && !s.partWorld p
  if d < 18 then ((s.slotOfDie d).bind s.partOfSlot).any opened
  else if d < 22 then
    let ps := (List.range 4).filterMap fun i => s.partOfGroup (4 * (d - 18) + i)
    ps.any opened && ps.all fun p => !s.partWorld p
  else false

/-- The instruments of a die are reached (Table 14-3). -/
def State.instrumentReached (s : State) (d : Nat) : Bool :=
  match s.sec.life with
  | .maker => true
  | .provisioned | .scrapped => false
  | .field => s.debugDie d
  | .returned => s.aoap.sessions.any fun e => e.2.open_ && e.2.role == .maker

/-- What the test port does: 0 BYPASS, 1 IDCODE, 2 SAMPLE/PRELOAD, 3 EXTEST, 4 the instrument, 5 a segment of length
zero; none in SCRAPPED, and none once HX0, by which the port enters, is lost (01 R52). -/
def State.testEffect (s : State) (op : TestOp) : Option Nat :=
  if s.sec.life = .scrapped ∨ s.cfg.lost.contains 30 then none
  else match op with
  | .bypass => some 0
  | .idcode => some 1
  | .sample => some (if s.sec.inBootRom then 2 else 0)
  | .extest => some (if s.sec.inBootRom then 3 else 0)
  | .ieee1687 d => some (if s.instrumentReached d.val then 4 else 5)

/-- TEST_PORT_INSTRUCTION (R473). -/
def execTestPortInstruction (t : Nat) (op : TestOp) (s : State) : Host.Outcome State Fault Refusal :=
  let s := s.arrive t
  match s.testEffect op with
  | none => .next s
  | some e => .next { s with sec := { s.sec with testInstr := e } }

/-! ### Debug grants (R474) -/

/-- A grant is accepted: an owner session in FIELD, this part, the present challenge, no bit of a secure partition, the
owner's signature. -/
def State.grantOk (s : State) (q : Option Nat) (g : List Byte) : Bool :=
  let mask := natOf (cut g 64 65)
  match s.sessionOf q with
  | none => false
  | some x =>
    s.sec.life == .field && x.role == .owner && some (cut g 0 32) == s.pid && cut g 32 64 == s.sec.dbgChallenge &&
    (List.range 4).all (fun p => !bit mask p || !s.partWorld p) &&
    Config.dsaVerify x.clientPk (ascii "CLP-DBUG") (cut g 0 80) (cut g 80 3389)

/-- Open debug for the valid partitions of an accepted grant; MR11 takes it, and the challenge is renewed. -/
def State.openDebug (s : State) (g : List Byte) : State :=
  let ps := (maskBits 4 (natOf (cut g 64 65))).filter s.partValid
  let caps := natOf (cut g 65 69)
  let s := s.extendMr 11 g
  let (c, s) := s.freeBytes 32
  { s with sec := { s.sec with
    dbgChallenge := c
    debugMask := ps.foldl (fun m p => setBit m p true) s.sec.debugMask
    debugCaps := ps.foldl (fun m p => fmSet m p caps) s.sec.debugCaps } }

/-- DEBUG_GRANT (R474, R485, R486): OD 0x9006.00. -/
def execDebugGrant (t : Nat) (q : Option Nat) (grant : List Byte) (agree : Bool) (s : State) :
    Host.Outcome State Fault Refusal :=
  let s := s.arrive t
  match s.refusal q 0x9006 0 true with
  | some st => .next (s.answer st [])
  | none =>
    if grant.length ≠ 3389 then .next (s.answer stLength [])
    else if s.singleSeal then .next ((s.event 0x0E09 noOne []).answer stRejected [])
    else if !s.grantOk q grant then .next ((s.event 0x0E06 noOne []).answer stRejected [])
    else match s.critical agree with
      | (s, true) => .next ((s.openDebug grant).answer stOk [])
      | (s, false) => .next (s.answer stRejected [])

/-! ### Security version (R477) -/

/-- The requester may raise the fused version: an owner session, or a maker session in MAKER, PROVISIONED and
RETURNED. -/
def State.mayRaiseSvn (s : State) (q : Option Nat) : Bool :=
  match (s.sessionOf q).map Session.role with
  | some .owner => true
  | some .maker => s.sec.life == .maker || s.sec.life == .provisioned || s.sec.life == .returned
  | _ => false

/-- SVN_COMMIT (R477, R486): OD 0x9005.00. -/
def execSvnCommit (t : Nat) (q : Option Nat) (v : BitVec 32) (s : State) : Host.Outcome State Fault Refusal :=
  .next ((s.arrive t).command q 0x9005 0 fun s =>
    if s.singleSeal then (s.event 0x0E09 noOne [], false)
    else if s.mayRaiseSvn q ∧ s.sec.svn < v.toNat ∧ v.toNat ≤ s.sec.imageSvn then
      ({ s with sec := { s.sec with svn := v.toNat } }, true)
    else (s, false))

/-! ### Attestation (R480) -/

/-- Write a session. -/
def State.setSession (s : State) (id : Nat) (x : Session) : State :=
  { s with aoap := { s.aoap with sessions := fmSet s.aoap.sessions id x } }

/-- ATTEST_NONCE_WRITE (R480): OD 0x9030.01, private to the session. -/
def execAttestNonceWrite (t : Nat) (q : Option Nat) (nonce : List Byte) (s : State) : Host.Outcome State Fault Refusal :=
  let s := s.arrive t
  match s.refusal q 0x9030 1 true, q, s.sessionOf q with
  | some st, _, _ => .next (s.answer st [])
  | none, some id, some x =>
    if nonce.length ≠ 32 then .next (s.answer stLength [])
    else .next ((s.setSession id { x with attestNonce := some nonce }).answer stOk [])
  | none, _, _ => .next (s.answer stNoSession [])

/-- Flags of a report (Table 14-8). -/
def State.reportFlags (s : State) : Nat :=
  b2n s.singleSeal + (s.odGet 0x4002 0 <<< 1) + (b2n s.sec.cosign <<< 2) + ((s.sec.debugMask % 16) <<< 4) +
  (b2n s.cfg.locked <<< 8)

/-- Bytes 0 to 1,231 of a report. -/
def State.reportBody (s : State) (nonce : List Byte) : List Byte :=
  bytesOf 4 0x41545354 ++ bytesOf 2 1 ++ bytesOf 1 s.sec.life.code ++ bytesOf 1 s.sec.refurb ++ bytesOf 4 s.sec.svn ++
  bytesOf 4 s.reportFlags ++ bytesOf 8 s.cad.tick.toNat ++ nonce ++ fitTo 32 (s.pid.getD []) ++
  (if s.sec.life = .field then s.sec.ownerDigest else List.replicate 32 0) ++ fitTo 24 s.identityKey ++
  (List.range 4).flatMap (fun p => bytesOf 8 (s.desc p)) ++ s.sec.regionDigest ++
  (List.range 16).flatMap fun k => fmGet s.sec.mr k (List.replicate 64 0)

/-- A read of the report: freshly signed over the session's nonce, or its status. -/
def State.attestRead (s : State) (q : Option Nat) (agree : Bool) : State :=
  match s.refusal q 0x9030 2 false with
  | some st => s.answer st []
  | none =>
    match (s.sessionOf q).bind Session.attestNonce with
    | none => s.answer stNotReady []
    | some n =>
      match s.critical agree with
      | (s, true) =>
        let body := s.reportBody n
        let (sig, s) := s.identitySign (ascii "CLP-ATST") body
        s.answer stOk (body ++ sig)
      | (s, false) => s.answer stRejected []

/-- ATTEST_REPORT_READ (R480, R485): OD 0x9030.02. -/
def execAttestReportRead (t : Nat) (q : Option Nat) (agree : Bool) (s : State) : Host.Outcome State Fault Refusal :=
  .next ((s.arrive t).attestRead q agree)

end Sys2Proof.Machine
end

