-- ==== Sys2Proof/Machine/Od.lean ====
section
/-! DEFINITION. Machine/Od.lean: the value an object reads (15 R488 to R502, R517; 17 R560; 08 Table 08-11; 10 Table 10-11;
14 Table 14-10), what a read, a write and a DESCRIBE answer. -/

namespace Sys2Proof.Machine

/-! ### Live values -/

/-- Code of a draft state (02 Table 02-6). -/
def DraftState.code : DraftState → Nat
  | .empty => 0 | .loaded => 1 | .armed => 2 | .running => 3 | .halted => 4

/-- OD 0x1000.03 *ordering_code*. -/
def Cfg.orderingCode (c : Cfg) : List Byte :=
  ascii ("CLP-48" ++ (if c.ss12 then "12" else "16") ++ "-" ++ (if c.grade28 then "28" else "30") ++ "-"
    ++ (if c.steppingA0 then "A0" else "B0"))

/-- OD 0x1001.00 *uptime*: ns since cold reset, in steps of 10 ns. -/
def State.uptime (s : State) : Nat := (s.now - s.boot.released) / unitsPer10ns * 10

/-- OD 0x1002.03 *stage_times*: ms from the release of package reset to the end of stages 1 to 11. -/
def State.stageTimes (s : State) : List Byte :=
  (List.range 11).flatMap fun i => bytesOf 4 ((fmGet s.boot.times (i + 1) s.boot.released - s.boot.released) / unitsPerMs)

/-- OD 0x1105.01 *cxl_status*. -/
def State.cxlStatus (s : State) : Nat :=
  let b := s.boot
  b.cxlWidth + (b.cxlState <<< 5) + (b.cxlRate <<< 8) + (b2n b.cxlReversed <<< 16)

/-- State field of *stack_status* (08 Table 08-11). -/
def State.stackState (s : State) (d : Nat) : Nat :=
  if d < 18 ∧ s.role d = 3 then 0
  else if s.cfg.lost.contains d ∨ (d < 18 ∧ s.role d = 2) then 4
  else
    let x := s.stackOf d
    if x.state = 2 ∧ ((s.channels.any fun e => e.1 / 64 == d && e.2.erased.isSome) ∨ x.lostDie.isSome) then 3 else x.state

/-- OD 0x5001 *stack_status* (08 Table 08-11). -/
def State.stackStatus (s : State) (d : Nat) : Nat :=
  let x := s.stackOf d
  let erased := (s.channels.filter fun e => e.1 / 64 == d && e.2.erased.isSome).length
  let bad := s.lines.any fun e => e.2 == .poisoned && decide (e.1 * 64 < 2 ^ 41) && keyDie (e.1 * 64) == d
  s.stackState d + (b2n bad <<< 13) + (b2n x.hot <<< 14) + (b2n x.lostDie.isSome <<< 15) + ((x.lostDie.getD 0) <<< 16)
    + (erased <<< 21) + (s.sparesUsed d <<< 28) + ((x.temp % 256) <<< 48)

/-- OD 0x7010+p *group_record*: what software wrote, and word 2 of the membership in force (10 Table 10-1). -/
def State.groupRecord (s : State) (p g : Nat) : Nat :=
  let x := s.group p g
  s.odGet (0x7010 + p) (g + 1) % 2 ^ 128 + ((x.mgen + (x.ownRank <<< 16) + (b2n x.formed <<< 27)) <<< 128)

/-- Claims of partition p that wait for admission, OD 0x7021. -/
def State.creelWaiting (s : State) (p : Nat) : Nat :=
  ((s.coll.colls.filter fun e => e.2.part == p).map fun (e : Nat × Collective) =>
    (e.2.stages.filter fun t => t.2.waiting).length).sum

/-- An event log's 6,144 bytes. -/
def EvLog.bytes (l : EvLog) : List Byte := (List.range 128).flatMap fun i => bytesOfWords (fmGet l.recs i (List.replicate 6 0))

/-- The bytes of a variable-length object held in the store with its length: 0 stands for the empty string. -/
def unpackVar (v : Nat) : List Byte :=
  if v = 0 then [] else
    let n := Nat.log2 v / 8
    bytesOf n v

/-- The number that holds a variable-length object. -/
def packVar (l : List Byte) : Nat := natOf (l ++ [1])

/-- A whole-dictionary value that is not simply the stored one: its number. -/
def State.liveNumber (s : State) (i u : Nat) : Option Nat :=
  let p := i % 4
  let x := s.part p
  let reg := fun lo => decide (lo ≤ i) && decide (i < lo + 4)
  if i = 0x1001 then some s.uptime
  else if i = 0x1002 ∧ u = 1 then some s.boot.stage
  else if i = 0x1002 ∧ u = 2 then some s.boot.source
  else if i = 0x1003 ∧ u = 1 then some s.boot.cause
  else if i = 0x1105 then some s.cxlStatus
  else if i = 0x2002 ∧ u = 1 then some s.cadenceStatus
  else if i = 0x2003 then some s.cad.tick.toNat
  else if reg 0x2020 then
    if u = 4 then some x.state.code else if u = 8 then some x.epoch.toNat else if u = 9 then some (x.slip % 2 ^ 64)
    else if u = 10 then some (x.lag % 2 ^ 32) else if u = 12 then some x.variant else none
  else if i = 0x5001 then some (s.stackStatus (u - 1))
  else if i = 0x6003 then some (s.portStatus (u - 1))
  else if reg 0x7010 then some (s.groupRecord p (u - 1))
  else if i = 0x7020 then some (s.creelFree (u - 1)).length
  else if i = 0x7021 then some (s.creelWaiting (u - 1))
  else if i = 0x7022 then some (s.part (u - 1)).creel.length
  else if i = 0x9001 then some (if u = 1 then s.sec.life.code else if u = 2 then s.sec.refurb else s.sec.svn)
  else if i = 0x9007 then some s.sec.debugMask
  else if i = 0x9045 then some (b2n s.sec.cosign)
  else if i = 0x9050 then some s.aoap.sessions.length
  else if 0x9100 ≤ i ∧ i ≤ 0x9115 then some (s.regionRead (i - 0x9100) u)
  else if 0xB030 ≤ i ∧ i ≤ 0xB034 ∧ u = 2 then some (fmGet s.logs (i - 0xB030) {}).head
  else none

/-- A value that is a byte string of the state; `some none`: it does not exist yet (R500). -/
def State.liveBytes (s : State) (i u : Nat) : Option (Option (List Byte)) :=
  if i = 0x1000 then
    if u = 1 then some (some (ascii "Fenhisar")) else if u = 2 then some (some (ascii "Brelys"))
    else if u = 3 then some (some s.cfg.orderingCode) else if u = 4 then some (some s.cfg.serial) else none
  else if i = 0x1002 ∧ u = 3 then some (some s.stageTimes)
  else if (i = 0x1010 ∨ i = 0x1011) ∧ u = 1 then some (some (bytesOf 6 (fmGet s.cfg.macs (i - 0x1010) 0)))
  else if (i = 0x3030 ∨ i = 0x3031) ∧ s.boot.stage < 7 then some none
  else if i = 0x9003 then some (some (fitTo 32 s.sec.lcChallenge))
  else if i = 0x9004 then some (some (fitTo 32 s.sec.dbgChallenge))
  else if i = 0x9020 then some (s.identityPk.map (fitTo 1952))
  else if i = 0x9021 then some (some (unpackVar (s.odGet i 0)))
  else if i = 0x9022 then some s.pid
  else if i = 0x9031 then some (some (fmGet s.sec.mr (u - 1) (List.replicate 64 0)))
  else if i = 0x9040 then some (some s.sec.ownerDigest)
  else if 0x9041 ≤ i ∧ i ≤ 0x9044 then some (some (fmGet s.sec.tenantDigests (i - 0x9041) (List.replicate 32 0)))
  else if 0xB030 ≤ i ∧ i ≤ 0xB034 ∧ u = 1 then some (some (fmGet s.logs (i - 0xB030) {}).bytes)
  else none

/-- The value an object reads in its encoding; none: not ready. A write-only object reads zeros (R491). -/
def State.odBytes (s : State) (i u : Nat) (r : OdRow) : Option (List Byte) :=
  if r.acc = .wo then some (List.replicate r.bytes 0)
  else match s.liveBytes i u with
  | some v => v
  | none => some (bytesOf r.bytes ((s.liveNumber i u).getD (s.odGet i u)))

/-! ### Reading (R497) -/

/-- The bytes of the record OD 0x4001 as a whole (R488; 12 Table 12-1). -/
def wholeRecord (i : Nat) : Bool := i == 0x4001

/-- A read request: status and data. An attestation report is signed by its own command. -/
def State.odRead (s : State) (q : Option Nat) (idx sub : Nat) (whole : Bool) : Nat × List Byte :=
  if !s.boot.live then (stSilent, [])
  else if whole then
    if !wholeRecord idx then (stNoObject, [])
    else match s.refusal q idx 1 false with
    | some st => (st, [])
    | none => (stOk, s.identityKey)
  else match globalOf idx sub with
  | none => (stNoObject, [])
  | some (i, u) =>
    match s.refusal q i u false, odRow? i u with
    | some st, _ => (st, [])
    | none, none => (stNoObject, [])
    | none, some r =>
      match s.odBytes i u r with
      | some l => (stOk, l)
      | none => (stNotReady, [])

/-- Serve a read request; an attestation report is signed for it. -/
def State.readObject (s : State) (q : Option Nat) (idx sub : Nat) (whole agree : Bool) : State :=
  if !whole ∧ idx = 0x9030 ∧ sub = 2 then s.attestRead q agree
  else
    let (st, l) := s.odRead q idx sub whole
    s.answer st l

/-- OD_READ (R497): a READ request of an object. -/
def execOdRead (t : Nat) (q : Option Nat) (idx : BitVec 16) (sub : BitVec 8) (whole : Bool) (s : State) :
    Host.Outcome State Fault Refusal :=
  .next ((s.arrive t).readObject q idx.toNat sub.toNat whole true)

/-! ### DESCRIBE (15 Table 15-8) -/

/-- Right codes of Table 15-8. -/
def OdAcc.code : OdAcc → Nat
  | .ro => 1 | .rw => 2 | .wo => 3 | .w1c => 4 | .rwl => 5

/-- The effective right of a requester (R491). -/
def State.rightCode (s : State) (q : Option Nat) (i u : Nat) (r : OdRow) : Nat :=
  let right := if s.secureObject i u && !s.secureReq q then 0 else s.right q i u
  if right = 0 then 0
  else if right = 2 then r.acc.code
  else if r.acc = .wo then 0 else 1

/-- Highest subindex of an index; a partition-local copy of a descriptor has the subindex 0x00 alone (R495). -/
def highestSub (idx i : Nat) : Nat :=
  if idx ≠ i ∧ i = 0x3010 then 0 else
  if i / 256 = 0xB1 ∨ i / 256 = 0xB2 then evGroup (i % 256)
  else ((odRows1 ++ odRows2 ++ odRows3 ++ odRows4).filter fun r => decide (r.lo ≤ i) && decide (i ≤ r.hi)).foldl
    (fun m r => max m r.shi) 0

/-- The 16 bytes DESCRIBE answers; the record OD 0x4001 as a whole answers its size. -/
def State.describe (s : State) (q : Option Nat) (i u : Nat) (r : OdRow) (ty size top : Nat) : List Byte :=
  bytesOf 1 ty ++ bytesOf 1 (s.rightCode q i u r) ++
  bytesOf 1 (b2n (s.lockedNow r) + (b2n (i == 0x9030) <<< 1) + (b2n (s.secureObject i u) <<< 2)) ++ bytesOf 1 0 ++
  bytesOf 4 size ++ bytesOf 1 top ++ List.replicate 7 0

/-- Serve a DESCRIBE request. -/
def State.describeObject (s : State) (q : Option Nat) (idx sub : Nat) (whole : Bool) : State :=
  let absent := s.answer (if s.boot.live then stNoObject else stSilent) []
  match globalOf idx (if whole then 1 else sub) with
  | none => absent
  | some (i, u) =>
    match odRow? i u with
    | none => absent
    | some r =>
      if !s.boot.live then absent
      else if q.isNone && !s.plainObject i then s.answer stNoSession []
      else if whole then
        (if wholeRecord i then s.answer stOk (s.describe q i u r 13 24 (highestSub idx i)) else s.answer stNoObject [])
      else s.answer stOk (s.describe q i u r r.ty.code r.bytes (highestSub idx i))

/-- OD_DESCRIBE (R511): type, right, flags and size. -/
def execOdDescribe (t : Nat) (q : Option Nat) (idx : BitVec 16) (sub : BitVec 8) (whole : Bool) (s : State) :
    Host.Outcome State Fault Refusal :=
  .next ((s.arrive t).describeObject q idx.toNat sub.toNat whole)

end Sys2Proof.Machine
end

