-- ==== Sys2Proof/Machine/Power.lean ====
section
/-! DEFINITION. Machine/Power.lean: rails, droop alerts, power and thermal limits, wear, margin re-plan and the lower clock
(16 R520 to R539). -/

namespace Sys2Proof.Machine

/-- A quotient in whole units that the manual does not say how to round: exact, or one of its two neighbours. -/
def roundOpen (n d : Nat) : Nat := n / d + b2n (n % d != 0 && Config.roundUp n d)

/-- Write the power manager's state. -/
def State.setPow (s : State) (x : Power) : State := { s with pow := x }

/-- A re-plan is asked for (R534). -/
def State.askReplan (s : State) : State := s.setPow { s.pow with replanAsked := true }

/-! ### Power limit (R528) -/

/-- Sum of the samples of the last 10 ms. -/
def Power.total (x : Power) : Nat := x.samples.sum

/-- The 10 ms mean stands above so many percent of the limit. -/
def State.meanAbove (s : State) (percent : Nat) : Bool :=
  decide (percent * s.odGet 0xA001 2 * s.pow.samples.length < 100 * s.pow.total)

/-- The 10 ms mean stands below so many percent of the limit. -/
def State.meanBelow (s : State) (percent : Nat) : Bool :=
  decide (100 * s.pow.total < percent * s.odGet 0xA001 2 * s.pow.samples.length)

/-- Pause draft issue on every partition for 10 µs. -/
def State.pauseAll (s : State) : State :=
  forN 4 s fun s p =>
    if (s.part p).state = .running then s.pauseIssue p (10 * unitsPerUs / s.cycleUnits) else s

/-- Record a sample: the mean and its peak. -/
def State.recordPower (s : State) (watts : Nat) : State :=
  let s := s.setPow { s.pow with samples := (watts :: s.pow.samples).take 100 }
  let mean := roundOpen s.pow.total s.pow.samples.length
  (s.odSet 0xA001 1 mean).odSet 0xA001 3 (max mean (s.odGet 0xA001 3))

/-- Begin or end the measures of step 1, and end those of step 2. -/
def State.holdPower (s : State) : State :=
  let s := if s.pow.paused && s.meanBelow 100 then s.setPow { s.pow with paused := false } else s
  if s.pow.throttleSince.isNone then
    if s.meanAbove 97 then (s.setPow { s.pow with throttleSince := some s.now }).event 0x1001 noOne [] else s
  else if s.meanBelow 90 then s.setPow { s.pow with throttleSince := .none } else s

/-- POWER_SAMPLE (R528): the sum over all rails in W, and the rail currents read with it in mA. -/
def execPowerSample (t : Nat) (watts : Nat) (currents : List (Fin 40 × Nat)) (s : State) :
    Host.Outcome State Fault Refusal :=
  let s := s.arrive t
  if !s.boot.live then .next s
  else
    let s := currents.foldl (fun s (c : Fin 40 × Nat) => s.odSet 0xA003 (c.1.val + 1) c.2) s
    let s := (s.recordPower watts).holdPower
    .next (if s.pow.paused then s.pauseAll else s)

/-- POWER_LIMIT_ESCALATE (R528 step 2): 1 ms after step 1 the mean is still above the limit. -/
def execPowerLimitEscalate (t : Nat) (s : State) : Host.Outcome State Fault Refusal :=
  let s := s.arrive t
  match s.pow.throttleSince with
  | none => .next s
  | some x =>
    if x + unitsPerMs ≤ s.now ∧ s.meanAbove 100 ∧ ¬ s.pow.paused then
      .next (s.setPow { s.pow with paused := true }).pauseAll
    else .next s

/-! ### Thermal limits (R529) -/

/-- State of a die's temperature and wear. -/
def State.dieHealth (s : State) (d : Nat) : DieHealth := fmGet s.pow.dies d {}
def State.setDieHealth (s : State) (d : Nat) (x : DieHealth) : State := s.setPow { s.pow with dies := fmSet s.pow.dies d x }

/-- The die is powered: neither lost nor, as a spindle die, retired or fused. -/
def State.diePowered (s : State) (d : Nat) : Bool := !s.cfg.lost.contains d && (decide (18 ≤ d) || decide (s.role d < 2))

/-- `THERMAL_WARNING`, once per die until its hottest sensor has fallen 5 °C below *thermal_warn*. -/
def State.thermalWarn (s : State) (d : Nat) (temp : Int) : State :=
  let x := s.dieHealth d
  let warn : Int := 1000 * (s.odGet 0xA021 0 : Nat)
  if warn < temp then
    if x.warned then s else (s.setDieHealth d { x with warned := true }).event 0x1004 noOne []
  else if temp ≤ warn - 5000 then s.setDieHealth d { x with warned := false } else s

/-- Throttle above 100 °C until below 97 °C. -/
def State.thermalThrottle (s : State) (d : Nat) (temp : Int) : State :=
  let x := s.dieHealth d
  if 100000 < temp ∧ ¬ x.throttled then ((s.setDieHealth d { x with throttled := true }).event 0x1005 (ofDie d) []).askReplan
  else if temp < 97000 then s.setDieHealth d { x with throttled := false } else s

/-- The die passes its junction limit: its rail goes off and it is lost. -/
def State.junctionLimit (s : State) (d : Nat) (dirty : List Nat) : State :=
  (((s.event 0x1006 (ofDie d) []).setRail (dieRail d) 0).dieLost d dirty).askReplan

/-- THERMAL_SAMPLE (R529): the hottest sensor of a die, in m°C. `dirty`: the lines a solver die's caches hold modified. -/
def execThermalSample (t : Nat) (d : DieIdx) (temp : Int) (dirty : List (BitVec 48)) (s : State) :
    Host.Outcome State Fault Refusal :=
  let d := d.val
  let s := s.arrive t
  if !s.boot.live || !s.diePowered d then .next s
  else
    let s := s.odSet 0xA020 (d + 1) (ofSigned 32 temp)
    let s := (s.thermalWarn d temp).thermalThrottle d temp
    let x := s.dieHealth d
    let since := if 105000 < temp then some (x.overSince.getD s.now) else none
    let s := s.setDieHealth d { x with overSince := since }
    let spent := match since with | some a => decide (a + unitsPerMs ≤ s.now) | none => false
    .next (if spent || decide (112000 < temp) then s.junctionLimit d (dirty.map BitVec.toNat) else s)

/-! ### Droop alerts (R527) -/

/-- Host die that serves AVSBus interface and droop-alert input k (R522, 18 Table 18-5). -/
def interfaceDie (k : Nat) : Nat := if k < 4 then 30 else 31

/-- DROOP_ALERT (R527): input k goes low. -/
def execDroopAlert (t : Nat) (k : Fin 8) (s : State) : Host.Outcome State Fault Refusal :=
  let k := k.val
  let s := s.arrive t
  if s.cfg.lost.contains (interfaceDie k) then .next s
  else
    let x := fmGet s.pow.droops k {}
    let tell := match x.lastNotify with | some n => decide (n + unitsPerSec ≤ s.now) | none => true
    let y := { x with
      asserted := true, assertedAt := s.now, active := true, count := x.count + 1
      lastNotify := if tell then some s.now else x.lastNotify }
    let s := s.setPow { s.pow with droops := fmSet s.pow.droops k y }
    let s := s.eventN 0x1002 1 tell (ofDie (interfaceDie k)) []
    .next (if y.count % 1000 = 0 then s.askReplan else s)

/-- DROOP_RELEASE (R527): 2 µs after the release of input k at a time, unless it was asserted again. -/
def execDroopRelease (t : Nat) (k : Fin 8) (released : Nat) (s : State) : Host.Outcome State Fault Refusal :=
  let s := s.arrive t
  let x := fmGet s.pow.droops k.val {}
  if x.assertedAt ≤ released ∧ released + 2 * unitsPerUs ≤ s.now ∧ x.asserted then
    .next (s.setPow { s.pow with
      droops := fmSet s.pow.droops k.val { x with asserted := false, active := false, releasedAt := some released } })
  else .next s

/-! ### Margin re-plan (R534, R536) -/

/-- REPLAN_NOW (R534): OD 0xA007.00. -/
def execReplanNow (t : Nat) (q : Option Nat) (v : BitVec 8) (s : State) : Host.Outcome State Fault Refusal :=
  let s := s.arrive t
  match s.refusal q 0xA007 0 true with
  | some st => .next (s.answer st [])
  | none => .next (if v = 1 then s.askReplan.answer stOk [] else s.answer stRange [])

/-- Maximum current of a die's core rail, in mA (Table 16-1). -/
def railMax (d : Nat) : Nat := if d < 18 then 450000 else if d < 22 then 260000 else if d < 30 then 100000 else 40000

/-- Replica sensitivity in ps per V; zero cannot be fused. -/
def replicaSlope (d : Nat) : Nat := max 1 (Config.sensitivity d)

/-- V_load in nV: the setpoint less the load-line drop (R534). -/
def State.loadNv (s : State) (d mA : Nat) : Int :=
  (s.odGet 0xA002 (dieRail d + 1) * 1000000 : Nat) - (mA * s.odGet 0xA004 1 : Nat)

/-- Vmin × slope in nV: V_load − S / k, S in 0.1 ps. -/
def State.vminScaled (s : State) (m : Margin) : Int :=
  s.loadNv m.die.val m.mA * (replicaSlope m.die.val : Nat) - m.slack * 100000000

/-- The new setpoint in mV, rounded up, before the range is applied (R534). -/
def State.plannedMv (s : State) (m : Margin) : Nat :=
  let d := m.die.val
  let k := replicaSlope d
  let n := (s.vminScaled m + ((s.odGet 0xA005 0 * 1000000 + railMax d * s.odGet 0xA004 1) * k : Nat)).toNat
  ceilDiv n (k * 1000000)

/-- A rail's hold has lasted 30 days (R524). -/
def State.heldLong (s : State) (r : Nat) : Bool :=
  match (fmGet s.pow.rails r {}).heldSince with
  | some x => decide (x + 30 * 86400 * unitsPerSec ≤ s.now)
  | none => false

/-- What the steward writes into a die's ageing record at a re-plan (Table 16-4). -/
def State.planRecord (s : State) (m : Margin) (vmin setpoint : Nat) (drift : Int) (left : Nat) : State :=
  let d := m.die.val
  let v := s.odGet 0xA030 (d + 1)
  let v := setBits (setBits (setBits v 15 0 vmin) 31 16 setpoint) 47 32 (ofSigned 16 m.slack)
  let v := setBits (setBits v 143 128 (ofSigned 16 drift)) 159 144 left
  s.odSet 0xA030 (d + 1) (setBits v 255 192 s.cad.tick.toNat)

/-- A planned setpoint above the ceiling (R536). -/
def State.exhaust (s : State) (d : Nat) : State :=
  let s := (s.odSet 0xA030 (d + 1) (setBit (s.odGet 0xA030 (d + 1)) 161 true)).event 0x1009 (ofDie d) []
  if s.clockMhz = 3000 then s.odSet 0xA011 0 2800 else s.failureWarning

/-- Re-plan the rail of one die from what its monitors read. -/
def State.replanDie (s : State) (m : Margin) : State :=
  let d := m.die.val
  if !s.diePowered d then s
  else
    let r := dieRail d
    let held := (fmGet s.pow.rails r {}).heldSince.isSome
    let vmin := roundOpen (s.vminScaled m).toNat (replicaSlope d * 1000000)
    let plan := s.plannedMv m
    let mv := max 600 (min 850 plan)
    let x := s.dieHealth d
    let points := (x.vmins ++ [(s.now / (86400 * unitsPerSec), vmin)]).drop (x.vmins.length + 1 - 30)
    let fit := Config.marginFit points
    let left := min 0xFFFF fit.2
    let old := bits (s.odGet 0xA030 (d + 1)) 31 16
    let s := (s.setDieHealth d { x with vmins := points }).planRecord m vmin (if held then old else mv) fit.1 left
    let low := decide (left ≤ s.odGet 0xA022 0) || m.low || (held && s.heldLong r)
    let s := if low then s.event 0x1008 (ofDie d) [.half left] else s
    if held then s
    else
      let s := s.odSet 0xA030 (d + 1) (setBit (s.odGet 0xA030 (d + 1)) 161 false)
      let s := if 850 < plan then s.exhaust d else s
      if d < 18 ∧ s.role d = 1 then s else s.aimRail r mv

/-- A re-plan is due: asked for, or *replan_period* has passed since the last. -/
def State.replanDue (s : State) : Bool :=
  s.boot.live && (s.pow.replanAsked ||
    (decide (9 ≤ s.boot.stage) && decide (s.pow.lastReplan + s.odGet 0xA006 0 * unitsPerSec ≤ s.now)))

/-- MARGIN_REPLAN (R534, R536; R524): what the monitors of each die read. -/
def execMarginReplan (t : Nat) (ms : List Margin) (s : State) : Host.Outcome State Fault Refusal :=
  let s := s.arrive t
  if s.replanDue then
    let s := s.setPow { s.pow with replanAsked := false, lastReplan := s.now }
    .next (ms.foldl State.replanDie s)
  else .next s

/-- AVS_SETPOINT_STEP (R525): the next step of at most 10 mV toward a rail's setpoint, 1 ms after the last command and,
after a droop alert, 1 ms after its release. -/
def execAvsSetpointStep (t : Nat) (r : Fin 40) (s : State) : Host.Outcome State Fault Refusal :=
  let r := r.val
  let s := s.arrive t
  let x := fmGet s.pow.rails r {}
  let v := s.odGet 0xA002 (r + 1)
  let k := fmGet s.pow.droops (r / 5) {}
  let quiet := !k.asserted && match k.releasedAt with | some a => decide (a + unitsPerMs ≤ s.now) | none => true
  if !s.boot.live || x.heldSince.isSome || x.target == v || !quiet || decide (s.now < x.lastCmd + unitsPerMs) then .next s
  else
    let mv := if v < x.target then min x.target (v + 10) else max x.target (v - 10)
    let s := s.setPow { s.pow with rails := fmSet s.pow.rails r { x with lastCmd := s.now } }
    .next ((s.odSet 0xA002 (r + 1) mv).send (.avs r mv))

/-! ### Wear (R535) -/

/-- Accrue one second of a die's wear. -/
def State.accrueDie (s : State) (d : Nat) : State :=
  let r := dieRail d
  if !s.diePowered d || s.odGet 0xA002 (r + 1) == 0 then s
  else
    let x := s.dieHealth d
    let e := x.eqHours + Config.ageingPerSecond (toSigned 32 (s.odGet 0xA020 (d + 1))) ((s.loadNv d (s.odGet 0xA003 (r + 1))).toNat / 1000)
    let s := s.setDieHealth d { x with eqHours := e }
    let ppm := roundOpen e 87600
    let v := setBits (setBits (s.odGet 0xA030 (d + 1)) 95 64 (roundOpen e 10000)) 127 96 ppm
    (s.odSet 0xA030 (d + 1) v).odSet 0xA031 0 (max ppm (s.odGet 0xA031 0))

/-- AGEING_ACCRUE (R535): a second has passed. -/
def execAgeingAccrue (t : Nat) (s : State) : Host.Outcome State Fault Refusal :=
  let s := s.arrive t
  if s.boot.live ∧ s.pow.lastAccrue + unitsPerSec ≤ s.now then
    .next (forN 32 (s.setPow { s.pow with lastAccrue := s.now }) fun s d => s.accrueDie d)
  else .next s

/-! ### The lower clock (R537) -/

/-- The accepted clock takes effect when no draft is ARMED or RUNNING. -/
def State.applyClock (s : State) : State :=
  if !s.pow.accepted || (List.range 4).any (fun p => (s.part p).state == .armed || (s.part p).state == .running) then s
  else
    let s := forN 4 s fun s p =>
      match (s.part p).draft with
      | some d =>
        if (s.part p).state = .loaded ∧ d.clockMhz = 3000 then ((s.emptyDraft p).draftReject p 0x06).1 else s
      | none => s
    let s := ((s.odSet 0xA010 0 2800).odSet 0xA011 0 0).event 0x100A noOne []
    (s.setPow { s.pow with accepted := false }).askReplan

/-- The requester may accept an offer. -/
def State.mayAcceptClock (s : State) (q : Option Nat) : Bool :=
  match (s.sessionOf q).map Session.role with
  | some .owner => true
  | some .maker => s.sec.life == .maker || s.sec.life == .returned
  | _ => false

/-- CLOCK_ACCEPT (R537): OD 0xA012.00. -/
def execClockAccept (t : Nat) (q : Option Nat) (v : BitVec 16) (s : State) : Host.Outcome State Fault Refusal :=
  .next ((s.arrive t).command q 0xA012 0 fun s =>
    if s.mayAcceptClock q ∧ v = 2800 ∧ s.odGet 0xA011 0 ≠ 0 then
      ((s.setPow { s.pow with accepted := true, slow := true }).applyClock, true)
    else (s, false))

/-- CLOCK_CHANGE_APPLY (R537). -/
def execClockChangeApply (t : Nat) (s : State) : Host.Outcome State Fault Refusal := .next (s.arrive t).applyClock

end Sys2Proof.Machine
end

