-- ==== Sys2Proof/Machine/Boot.lean ====
section
/-! DEFINITION. Machine/Boot.lean: start-up (17 R553 to R556, 14 R475, R476), cold and warm resets (17 R557 to R559, 14
R470), the link's training (17 R553), and the reset, clock and status pins (18 R571 to R576). -/

namespace Sys2Proof.Machine

/-- Write the start-up state. -/
def State.setBoot (s : State) (b : Boot) : State := { s with boot := b }

/-- Drive FAULT_N low; only a cold reset releases it (18 R573). -/
def State.driveFault (s : State) : State := { s with pins := { s.pins with faultN := false } }

/-- A stage ends and the next one runs. -/
def State.nextStage (s : State) (k : Nat) : State :=
  s.setBoot { s.boot with stage := k + 1, times := fmSet s.boot.times k s.now }

/-! ### Cold reset (R557, Table 17-6) -/

/-- Objects a cold reset keeps: the identity certificate, and of the ageing records what flash keeps (16 R538). -/
def State.keptOd (s : State) : Fm Nat :=
  let cert := (fmGet? s.od (odKey 0x9021 0)).toList.map fun v => (odKey 0x9021 0, v)
  let clock := if s.pow.slow then [(odKey 0xA010 0, 2800)] else []
  let ages := (List.range 32).filterMap fun d =>
    (fmGet? s.od (odKey 0xA030 (d + 1))).map fun v =>
      (odKey 0xA030 (d + 1), setBits (odDefault s.cfg 0xA030 (d + 1)) 127 64 (bits v 127 64))
  let top := (fmGet? s.od (odKey 0xA031 0)).toList.map fun v => (odKey 0xA031 0, v)
  cert ++ clock ++ ages ++ top

/-- What the fuses, the OTP and the flash parts keep of the seal processors' state (R557; 14 R470, R479). -/
def Security.kept (x : Security) : Security :=
  { life := x.intent.getD x.life, refurb := x.refurb, svn := x.svn, makerRevoked := x.makerRevoked
    fwRevoked := x.fwRevoked, ownerKey := x.ownerKey, seed := x.seed, ownerDigest := x.ownerDigest
    ownerPk := x.ownerPk, tenantDigests := x.tenantDigests, cosign := x.cosign }

/-- The machine after a cold reset for a cause: everything at its reset value but what Table 17-6 keeps; a life-cycle
transition whose intent fuse is blown is completed (14 R470). -/
def State.cold (s : State) (cause : Nat) : State :=
  let c := s.cfg
  { State.reset with
    pending := s.pending, now := s.now, freeCtr := s.freeCtr
    cfg :=
      { ss12 := c.ss12, fused := c.fused, grade28 := c.grade28, steppingA0 := c.steppingA0, serial := c.serial
        macs := c.macs }
    od := s.keptOd
    ports := s.ports.map fun (e : Nat × Port) => (e.1, { present := e.2.present })
    sec := s.sec.kept
    pow :=
      { slow := s.pow.slow, lastAccrue := s.now
        dies := s.pow.dies.map fun (e : Nat × DieHealth) => (e.1, { eqHours := e.2.eqHours, vmins := e.2.vmins }) }
    boot := { cause := cause, released := s.now, perstAt := s.boot.perstAt }
    pins := { straps := s.pins.straps, thermtripN := s.pins.thermtripN } }

/-- RESET_REQUEST_COLD (R557): OD 0x1003.00, effective 10 ms after the response. -/
def execResetRequestCold (t : Nat) (q : Option Nat) (s : State) : Host.Outcome State Fault Refusal :=
  .next ((s.arrive t).command q 0x1003 0 fun s =>
    (s.setBoot { s.boot with coldAt := some (s.boot.coldAt.getD (s.now + 10 * unitsPerMs)) }, true))

/-- COLD_RESET_DELAY_EXPIRY (R557). -/
def execColdResetDelayExpiry (t : Nat) (s : State) : Host.Outcome State Fault Refusal :=
  let s := s.arrive t
  match s.boot.coldAt with
  | some a => .next (if a ≤ s.now then s.cold 4 else s)
  | none => .next s

/-- The package is held in reset: nothing runs until its release. -/
def State.hold0 (s : State) (cause : Nat) : State :=
  let s := s.cold cause
  s.setBoot { s.boot with stage := 1, inReset := true }

/-- RAIL_OUT_OF_RANGE (R557; 16 R532): the package stops, and its memory tiers lose their contents. -/
def execRailOutOfRange (t : Nat) (s : State) : Host.Outcome State Fault Refusal := .next ((s.arrive t).hold0 3)

/-- A low pulse of PKG_RESET_N resets: below 1 µs never, from 10 µs always (18 R573). -/
def resetPulse (ns : Nat) : Bool := if ns < 1000 then false else if 10000 ≤ ns then true else Config.shortReset ns

/-- PKG_RESET_ASSERT (18 R573; R557): PKG_RESET_N has been low for so many nanoseconds; THERMTRIP_N is released. A rail
fault that the reset follows stays the cause. -/
def execPkgResetAssert (t : Nat) (ns : Nat) (s : State) : Host.Outcome State Fault Refusal :=
  let s := s.arrive t
  if resetPulse ns then
    let s := s.hold0 (if s.boot.inReset then s.boot.cause else 2)
    .next { s with pins := { s.pins with thermtripN := true } }
  else .next s

/-- PKG_RESET_RELEASE (R553; 18 R572): the straps are sampled and stage 2 starts. -/
def execPkgResetRelease (t : Nat) (straps : BitVec 4) (s : State) : Host.Outcome State Fault Refusal :=
  let s := s.arrive t
  if s.boot.inReset then
    .next ({ s with pins := { s.pins with straps := straps.toNat } }.setBoot { s.boot with
      inReset := false, stage := 2, released := s.now })
  else .next s

/-! ### Stages 2 to 4 (R553 to R555) -/

/-- PLL_LOCK (R553): all PLLs lock, or fail to. -/
def execPllLock (t : Nat) (ok : Bool) (s : State) : Host.Outcome State Fault Refusal :=
  let s := s.arrive t
  if s.boot.stage ≠ 2 then .next s else .next (if ok then s.nextStage 2 else s.driveFault)

/-- A component of an image (14 Table 14-6). -/
structure ImageComp where
  type : Nat
  bytes : List Byte
  digest : List Byte
  deriving DecidableEq, Repr

/-- The components an image's header lists; none: an entry does not fit. -/
def imageComps (img : List Byte) : Option (List ImageComp) :=
  let n := natOf (cut img 6 8)
  let entry := fun i => cut img (24 + 64 * i) (88 + 64 * i)
  let ok := (List.range 16).all fun i =>
    let e := entry i
    let off := natOf (cut e 8 16)
    let len := natOf (cut e 16 24)
    if i < n then
      decide (1 ≤ natOf (cut e 0 2)) && decide (natOf (cut e 0 2) ≤ 8) && natOf (cut e 2 8) == 0 &&
      natOf (cut e 24 32) == 0 && decide (8192 ≤ off) && decide (off + len ≤ natOf (cut img 16 24))
    else natOf e == 0
  if ok then
    some ((List.range n).map fun i =>
      let e := entry i
      let off := natOf (cut e 8 16)
      ⟨natOf (cut e 0 2), cut img off (off + natOf (cut e 16 24)), cut e 32 64⟩)
  else none

/-- Security version of an image. -/
def imageSvn (img : List Byte) : Nat := natOf (cut img 8 12)

/-- The header of an image verifies (14 R475, R476). -/
def State.headerOk (s : State) (img : List Byte) : Bool :=
  let n := natOf (cut img 6 8)
  let body := cut img 0 1048
  let signed := fun key sig => Config.dsaVerify key (ascii "CLP-FWIM") body sig
  decide (8192 ≤ img.length) && natOf (cut img 0 4) == 0x4657494D && natOf (cut img 4 6) == 1 &&
  decide (1 ≤ n) && decide (n ≤ 16) && decide (imageSvn img ≤ 64) && decide (natOf (cut img 12 16) ≤ 1) &&
  decide (natOf (cut img 16 24) ≤ img.length) && natOf (cut img 7666 8192) == 0 &&
  ((List.range 4).any fun i => !bit s.sec.fwRevoked i && signed (Config.firmwareKey i) (cut img 1048 4357)) &&
  (!(s.sec.life == .field && s.sec.cosign) || signed s.sec.ownerPk (cut img 4357 7666))

/-- An image is accepted (14 R476): its components, when header, digests and security version are right. -/
def State.imageOk (s : State) (img : List Byte) : Option (List ImageComp) :=
  if s.headerOk img && decide (s.sec.svn ≤ imageSvn img) then
    match imageComps img with
    | some cs => if cs.all fun c => digest32 c.bytes == c.digest then some cs else none
    | none => none
  else none

/-- Digest of an image's component of a type, empty when there is none. -/
def compDigest (cs : List ImageComp) (type : Nat) : List Byte :=
  ((cs.find? fun c => c.type == type).map ImageComp.digest).getD []

/-- The seal firmware of an accepted image runs: MR0 and MR1 are extended (14 Table 14-7), the challenges drawn, and
stage 4 starts. -/
def State.runImage (s : State) (part : Nat) (img : List Byte) (cs : List ImageComp) : State :=
  let x := s.sec
  let fuses := bytesOf 1 x.life.code ++ bytesOf 1 x.refurb ++ bytesOf 4 x.svn ++
    bytesOf 1 (x.makerRevoked % 16 + (x.fwRevoked % 16) * 16)
  let s := (s.extendMr 0 Config.bootRomDigest).extendMr 0 fuses
  let s := (s.extendMr 1 (cut img 0 1048)).extendMr 1 (compDigest cs 1)
  let (c1, s) := s.freeBytes 32
  let (c2, s) := s.freeBytes 32
  let code := ((cs.find? fun c => c.type == 4).map fun c => natOf (cut c.bytes 0 4)).getD 0
  let s := { s with sec := { s.sec with
    lcChallenge := c1, dbgChallenge := c2, imageSvn := imageSvn img, inBootRom := false } }
  (s.setBoot { s.boot with
    source := part, seals := true, began4 := s.now, microcode := code
    functions := natOf (cut (compDigest cs 6) 0 16)
    comps := (List.range 8).map fun i => (i + 1, compDigest cs (i + 1)) }).nextStage 3

/-- Try the images of the flash parts in order: the first accepted one runs; none: the package stays in stage 3 (R554). -/
def State.tryImages (s : State) : List (Nat × List Byte × Bool) → State
  | [] => (s.setBoot { s.boot with stuck := true }).driveFault
  | (part, img, agree) :: rest =>
    match s.imageOk img with
    | none => (s.event 0x1105 noOne [.half part]).tryImages rest
    | some cs =>
      match s.critical agree with
      | (s, true) => s.runImage part img cs
      | (s, false) => (s.event 0x1105 noOne [.half part]).tryImages rest

/-- Order of the flash parts (R554, R555): the higher `svn` of the headers that verify, part A on a tie; after a
fallback the other part only; with one host die its own part only. -/
def State.imageOrder (s : State) (a b : List Byte) (agreeA agreeB : Bool) : List (Nat × List Byte × Bool) :=
  let first := s.headerOk b && (!s.headerOk a || decide (imageSvn a < imageSvn b))
  let both := [(0, a, agreeA), (1, b, agreeB)]
  let l := if first then both.reverse else both
  let l := if s.boot.fellBack then l.filter fun e => e.1 != s.boot.source else l
  l.filter fun e => !s.cfg.lost.contains (30 + e.1)

/-- SEAL_BOOT (R554, R555; 14 R476, R485): the images the flash parts hold, whether the seal processors' results on each
agree, and the host dies whose boot ROM self-test fails. -/
def execSealBoot (t : Nat) (a b : List Byte) (agreeA agreeB failA failB : Bool) (s : State) :
    Host.Outcome State Fault Refusal :=
  let s := s.arrive t
  if s.boot.stage ≠ 3 ∨ s.boot.stuck then .next s
  else
    let s := if failA then s.dieLost 30 [] else s
    let s := if failB then s.dieLost 31 [] else s
    .next (s.tryImages (s.imageOrder a b agreeA agreeB))

/-- Rails from stage 4 on (16 R523): SPARE dies idle, FUSED ones are off. -/
def State.settleRails (s : State) : State :=
  forN 18 s fun s d =>
    if s.role d = 1 then s.aimRail (dieRail d) 620 else if s.role d = 3 then s.setRail (dieRail d) 0 else s

/-- Stage 5 begins: every stack in the map trains (08 Table 08-11). -/
def State.trainStacks (s : State) : State :=
  forN 22 s fun s d => if s.mapped d then s.setStack d { s.stackOf d with state := 1 } else s

/-- STEWARD_START (R553, R555): the dictionary is live. -/
def execStewardStart (t : Nat) (s : State) : Host.Outcome State Fault Refusal :=
  let s := s.arrive t
  if s.boot.stage ≠ 4 ∨ s.boot.stuck then .next s
  else
    let s := ((s.setBoot { s.boot with live := true }).nextStage 4).trainStacks
    let s := (s.extendMr 2 (fmGet s.boot.comps 2 [])).settleRails
    .next (if s.boot.fellBack then s.event 0x1106 noOne [] else s)

/-- STEWARD_START_TIMEOUT (R555): the first overrun of stage 4 restarts from stage 3, the second leaves it there. -/
def execStewardStartTimeout (t : Nat) (s : State) : Host.Outcome State Fault Refusal :=
  let s := s.arrive t
  if s.boot.stage ≠ 4 ∨ s.boot.stuck ∨ s.now < s.boot.began4 + 300 * unitsPerMs then .next s
  else if s.boot.fellBack then .next (s.setBoot { s.boot with stuck := true }).driveFault
  else .next ({ s with sec := { s.sec with inBootRom := true } }.setBoot { s.boot with
    fellBack := true, stage := 3, seals := false })

/-! ### Stages 5 to 7 (R553, R556) -/

/-- DRAM_TRAINING (R553; 08 R275): training and zeroing end; the bonds that failed are spared, and the dies of stacks that stay
offline are lost. -/
def execDramTraining (t : Nat) (bonds : List (DieIdx × Fin 64 × Fin 576)) (offline : List DieIdx) (s : State) : Host.Outcome State Fault Refusal :=
  let s := s.arrive t
  if s.boot.stage ≠ 5 then .next s
  else
    let bad := (offline.map Fin.val).filter fun d => decide (d < 22)
    let s := { s with mem := s.mem.filter (fun c => decide (2 ^ 41 ≤ c.1)), lines := s.lines.filter (fun e => decide (2 ^ 41 ≤ e.1 * 64)) }
    let s := forN 22 s fun s d =>
      if s.mapped d then s.setStack d { s.stackOf d with state := if bad.contains d then 4 else 2 } else s
    let s := bonds.foldl (fun s (b : DieIdx × Fin 64 × Fin 576) => s.spareBond b.1.val b.2.1.val b.2.2.val) s
    let s := bad.foldl (fun s d => s.dieLost d []) s
    .next ((s.extendMr 5 (fmGet s.boot.comps 7 [] ++ fmGet s.boot.comps 8 [])).nextStage 5)

/-- A spindle die that fails its tests is RETIRED; the lowest-numbered SPARE die takes its slot (01 R26). -/
def State.retireDie (s : State) (d : Nat) : State :=
  match s.slotOfDie d with
  | some n =>
    match s.spareDies.head? with
    | some new =>
      let ap := if s.spareDie 16 = some new then 16 else 17
      ((s.moveSlot n d new).loseImages n).loseImages ap
    | none => ((s.odSet 0x3001 (d + 1) (0x20 + n)).setRail (dieRail d) 0).loseImages n
  | none =>
    if s.role d = 1 then
      let ap := if s.spareDie 16 = some d then 16 else 17
      ((s.odSet 0x3001 (d + 1) 0x20).setRail (dieRail d) 0).loseImages ap
    else s

/-- A die fails its tests of stage 6 (R556). -/
def State.testFailed (s : State) (d : Nat) : State := if d < 18 then s.retireDie d else s.dieLost d []

/-- Firmware of stage 6 is loaded and measured; every SRAM column marked, or found failing, is repaired (R553; 14 Table 14-7; 08
R281). -/
def State.loadStage6 (s : State) (columns : List (DieIdx × Nat × Nat)) : State :=
  let c := fun i => fmGet s.boot.comps i []
  let s := (s.extendMr 3 (c 3 ++ c 4 ++ c 6)).extendMr 4 (c 5)
  let s := (s.odSet 0x4001 3 s.boot.microcode).odSet 0x4001 4 s.boot.functions
  let s := columns.foldl (fun s (e : DieIdx × Nat × Nat) => s.markColumn e.1.val e.2.1 e.2.2) s
  forN 18 s fun s d => s.repairColumns d

/-- DIE_SELF_TEST (R556): stage 6 ends with the SRAM columns (die, bank, column) found failing; the dies that failed are retired or lost, and stage 7 starts. -/
def execDieSelfTest (t : Nat) (columns : List (DieIdx × Nat × Nat)) (failed : List DieIdx) (s : State) : Host.Outcome State Fault Refusal :=
  let s := s.arrive t
  if s.boot.stage ≠ 6 ∨ s.boot.warm then .next s
  else
    let s := failed.foldl (fun s (d : DieIdx) => s.testFailed d.val) (s.loadStage6 columns)
    let s := s.nextStage 6
    .next ((s.setBoot { s.boot with began7 := s.now }).startTraining).selectSource

/-- Budget of stage 7: 3,000 ms, and 32 treadle periods with a treadle source. -/
def State.stage7Budget (s : State) : Nat :=
  3000 * unitsPerMs + if bit (s.odGet 0x2001 1) 2 then 32 * s.treadleNominal else 0

/-- STARTUP_UNLOCKED (R553): the budget of stage 7 is spent; the stage ends and acquisition goes on. -/
def execStartupUnlocked (t : Nat) (s : State) : Host.Outcome State Fault Refusal :=
  let s := s.arrive t
  if s.boot.stage ≠ 7 ∨ s.now < s.boot.began7 + s.stage7Budget then .next s
  else .next (s.event 0x1107 noOne []).closeStage7

/-! ### The link (R553, R542) -/

/-- CXL_PERST_RELEASE (R553): the host port leaves reset; from stage 8 on link training begins. -/
def execCxlPerstRelease (t : Nat) (s : State) : Host.Outcome State Fault Refusal :=
  let s := s.arrive t
  let s := s.setBoot { s.boot with perstAt := some s.now }
  if 8 ≤ s.boot.stage ∧ s.boot.cxlState = 0 ∧ s.boot.lanesLost ≠ 3 then
    .next (s.setBoot { s.boot with cxlState := 1, cxlTried := s.now })
  else .next s

/-- Stage 8 ends, and with it start-up; the first re-plan is due (16 R534; R557). -/
def State.endStage8 (s : State) : State :=
  if s.boot.stage = 8 then
    let s := s.nextStage 8
    let s := s.setBoot { s.boot with reached9 := true }
    (s.setPow { s.pow with lastReplan := s.now }).askReplan
  else s

/-- The link reaches L0 with a width and rate, its lanes reversed when HX0 is lost; a change of width is an event (R542). -/
def State.linkUp (s : State) (width rate : Nat) : State :=
  let old := s.boot.cxlWidth
  let w := if s.boot.lanesLost = 0 then min 16 width else min 8 width
  let s := s.setBoot { s.boot with cxlState := 2, cxlWidth := w, cxlRate := rate % 256, cxlReversed := bit s.boot.lanesLost 0 }
  let s := if old ≠ 0 ∧ old ≠ w then (s.event 0x1101 noOne []).send (.msix 6) else s
  s.endStage8

/-- CXL_TRAINING (R553): an attempt reaches L0, or is not there after 100 ms and is made again. -/
def execCxlTraining (t : Nat) (ok : Bool) (width rate : Nat) (s : State) : Host.Outcome State Fault Refusal :=
  let s := s.arrive t
  if s.boot.cxlState ≠ 1 then .next s
  else if ok then .next (s.linkUp width rate)
  else if s.boot.cxlTried + 100 * unitsPerMs ≤ s.now then
    .next ((s.setBoot { s.boot with cxlTried := s.now }).event 0x1102 noOne []).endStage8
  else .next s

/-! ### Warm reset (R557 to R559) -/

/-- A warm-reset request is refused: before stage 9 was first reached, during a warm reset, and during a transition. -/
def State.warmRefused (s : State) : Bool := !s.boot.reached9 || s.boot.warm || s.sec.transition.isSome

/-- RESET_REQUEST_WARM (R557, R559): OD 0x1003.00. -/
def execResetRequestWarm (t : Nat) (q : Option Nat) (s : State) : Host.Outcome State Fault Refusal :=
  .next ((s.arrive t).command q 0x1003 0 fun s => if s.warmRefused then (s, false) else (s.beginWarm 5, true))

/-- WARM_RESET_INPUT (18 R573; R559): WARM_RESET_N has been low for so many nanoseconds. -/
def execWarmResetInput (t : Nat) (ns : Nat) (s : State) : Host.Outcome State Fault Refusal :=
  let s := s.arrive t
  if ns < 10000 ∨ !s.boot.reached9 ∨ s.boot.warm then .next s
  else if s.sec.transition.isSome then .next (s.setBoot { s.boot with warmWaits := true })
  else .next (s.beginWarm 6)

/-- WARM_RESET_COMPLETE (R558): stage 6 has run again; the dies that failed are retired or lost. -/
def execWarmResetComplete (t : Nat) (columns : List (DieIdx × Nat × Nat)) (failed : List DieIdx) (s : State) : Host.Outcome State Fault Refusal :=
  let s := s.arrive t
  if !s.boot.warm then .next s
  else
    let s := failed.foldl (fun s (d : DieIdx) => s.testFailed d.val) (s.loadStage6 columns)
    let s := s.setBoot { s.boot with warm := false, stage := 9, cause := s.boot.warmCause }
    .next (s.event 0x1108 noOne [])

/-! ### Pins and clocks (18 R573, R576) -/

/-- THERMTRIP (18 R573): from stage 2 on a hardware comparator drives THERMTRIP_N low. -/
def execThermtrip (t : Nat) (s : State) : Host.Outcome State Fault Refusal :=
  let s := s.arrive t
  .next (if 2 ≤ s.boot.stage then { s with pins := { s.pins with thermtripN := false } } else s)

/-- Number of a clock in `REFCLK_LOST`: its place in 18 Table 18-6, ports counted apart. -/
def refClockCode : RefClock → Nat
  | .sys => 0
  | .sd n => 1 + b2n n
  | .cxl n => 3 + b2n n

/-- REFCLK_SYS is lost after stage 2: every draft halts, the Ethernet ports stop, the dictionary answers over I3C only. -/
def State.sysLost (s : State) : State :=
  let s := forN 4 s fun s p =>
    match (s.part p).state with
    | .armed | .running => s.halt p
    | _ => s
  let s := forN 2 s fun s e => if s.odGet (0x1010 + e) 5 = 2 then s else s.odSet (0x1010 + e) 5 0
  { s with pins := { s.pins with sysRefLost := true }, cad := { s.cad with dead := true } }

/-- REFCLK_LOST (18 R576). -/
def execRefclkLost (t : Nat) (c : RefClock) (s : State) : Host.Outcome State Fault Refusal :=
  let s := s.arrive t
  match c with
  | .sys =>
    if s.boot.stage ≤ 2 then .next s.driveFault
    else .next ((s.sysLost.event 0x1201 noOne [.half (refClockCode c)]).driveFault)
  | .sd n =>
    let s := forN 8 s fun s i => s.portDown (8 * b2n n + i)
    .next ((s.event 0x1201 noOne [.half (refClockCode c)]).driveFault)
  | .cxl n => .next (((s.lanesGone (b2n n)).event 0x1201 noOne [.half (refClockCode c)]).driveFault)

end Sys2Proof.Machine
end

