-- ==== Sys2Proof/Machine/DraftRows.lean ====
section
/-! DEFINITION. Machine/DraftRows.lean: the rows of the draft sequencer: load, start, stop, abort and unload (02 R73 to
R76), gates and their re-tests (02 R79 to R87), step commits, releases, re-runs and signatures (02 R67, R88; 03 R126;
13 R424, R427). -/

namespace Sys2Proof.Machine

/-! ### Draft control (02 R73 to R76) and gates -/

/-- DRAFT_LOAD (R73, R74). -/
def execDraftLoad (t : Nat) (q : Option Nat) (p : PartIdx) (s : State) : Host.Outcome State Fault Refusal :=
  let p := p.val
  .next ((s.arrive t).command q (0x2020 + p) 3 fun s =>
    if (s.part p).state ≠ .empty then s.draftReject p 0x10
    else
      let s := if s.imageThere p then s.scanned (s.odGet (0x2020 + p) 1) (s.odGet (0x2020 + p) 2) else s
      let r := s.loadReason p
      if r.1 ≠ 0 then s.draftReject p r.1 else ((s.installDraft p r.2).endStartup 10, true))

/-- DRAFT_START (R63, R73, R74; 13 R435): the draft is ARMED and every slot with a valid image seeds. -/
def execDraftStart (t : Nat) (q : Option Nat) (p : PartIdx) (s : State) : Host.Outcome State Fault Refusal :=
  let p := p.val
  .next ((s.arrive t).command q (0x2020 + p) 3 fun s =>
    let r := s.startReason p
    if r ≠ 0 then s.draftReject p r
    else
      let s := s.setPart p { s.part p with state := .armed }
      ((s.partSlots p).foldl (fun s n =>
        if (s.images n).isEmpty then s.odSet 0x8005 (n + 1) 0 else s.odSet 0x8005 (n + 1) 1) s, true))

/-- DRAFT_STOP (R74, R76): the running draft returns to LOADED at the next step commit. -/
def execDraftStop (t : Nat) (q : Option Nat) (p : PartIdx) (s : State) : Host.Outcome State Fault Refusal :=
  let p := p.val
  .next ((s.arrive t).command q (0x2020 + p) 3 fun s =>
    if (s.part p).state ≠ .running then s.draftReject p 0x10
    else (s.setPart p { s.part p with stopPending := true }, true))

/-- DRAFT_ABORT (R74, R76): LOADED at once; outputs not yet released are discarded, and the windows stand as those of a
LOADED draft. -/
def execDraftAbort (t : Nat) (q : Option Nat) (p : PartIdx) (s : State) : Host.Outcome State Fault Refusal :=
  let p := p.val
  .next ((s.arrive t).command q (0x2020 + p) 3 fun s =>
    let x := s.part p
    match x.state with
    | .armed | .running | .halted =>
      (s.abortDraft p, true)
    | _ => s.draftReject p 0x10)

/-- DRAFT_UNLOAD (R74). -/
def execDraftUnload (t : Nat) (q : Option Nat) (p : PartIdx) (s : State) : Host.Outcome State Fault Refusal :=
  let p := p.val
  .next ((s.arrive t).command q (0x2020 + p) 3 fun s =>
    if (s.part p).state ≠ .loaded then s.draftReject p 0x10
    else (s.emptyDraft p, true))

/-- DRAFT_START_TICK (R74): the armed draft enters RUNNING. `seeding`: slots whose images are still
being seeded. -/
def execDraftStartTick (t : Nat) (p : PartIdx) (seeding : Nat) (s : State) : Host.Outcome State Fault Refusal :=
  let s := s.arrive t
  let p := p.val
  let x := s.part p
  match x.state, x.draft with
  | .armed, some d =>
    if s.cad.tick.toNat < s.odGet (0x2020 + p) 5 then .next s
    else
      let wins := d.initWins x.held
      let variant := match s.lossVariant with | some v => if v < d.variants then some v else none | none => none
      let s := s.setPart p { x with
        state := .running, epoch := 0, slip := 0, slipCommit := 0, lag := 0, stepsDone := 0,
        variant := variant.getD 0, variantNext := .none, stopPending := false, stalled := [], waiting := [],
        stallSlip := 0, lateRolls := 0, faultRolls := [], taintRolls := 0, reused := 0,
        tainted := false, restoring := false, restoreCause := 0, spares := [],
        pauseUntil := .none, wins := wins, winsCommit := wins, voteSent := false, voteResult := .none,
        undo := [], undoOver := false, badLines := [], buddy := [], doffStep := false, doffNext := false,
        flight := [], left := [], taken := [], made := [], outs := [], stepOver := false, sched := s.cad.tick.toNat }
      let s := d.slots.foldl (fun s n => (s.clearSlot n).setFlyer n { x := (s.flyer n).x }) (s.clearMarks p)
      let s := s.startBuddies p seeding d
      let s := if 1 < d.packages ∧ s.cad.state ≠ .locked then s.event 0x0C03 (ofPart p) [] else s
      let s := s.creelAbort p
      let s := s.startReplay p
      let s := s.reel p 4 4 (s.odGet (0x2020 + p) 5 :: wordsOf d.digest)
      let s := (s.seedRecord p).endStartup 11
      .next (if variant = none then s.halt p else s.beginDraftTick p 0 s.now 0)
  | _, _ => .next s

/-- GATE (R79, R87): the gates of gate g's instant. -/
def execGate (t : Nat) (p : PartIdx) (g : Nat) (s : State) : Host.Outcome State Fault Refusal :=
  let p := p.val
  let s := (s.arrive t).syncDraft p
  let x := s.part p
  match x.draft with
  | none => .next s
  | some d =>
    match d.gates[g]? with
    | none => .next s
    | some gd =>
      if !x.issuing || gd.tick != x.stepTick || x.stepOver || x.gatesDone.contains g then .next s
      else
        let l := d.numbered ((List.range d.gates.length).filter fun i =>
          match d.gates[i]? with | some h => h.tick == gd.tick && h.cycle == gd.cycle | none => false)
        .next (if x.replay.on then s.replayGates p d l else s.gates p d l)

/-- GATE_RETEST (R84): a stalled gate is tested again. -/
def execGateRetest (t : Nat) (p : PartIdx) (s : State) : Host.Outcome State Fault Refusal :=
  let p := p.val
  let s := s.arrive t
  let x := s.part p
  match x.draft with
  | none => .next s
  | some d =>
    if x.state ≠ .running ∨ x.restoring ∨ (x.stalled.isEmpty ∧ x.waiting.isEmpty) then .next s
    else .next (if x.replay.on then s.replayRetest p d else s.retest p d)

/-! ### Commit, release, re-run and signatures -/

/-- STEP_COMMIT (R427): the commit takes effect once its conditions hold. A tainted step of a draft that
holds no vote rolls back instead (10 R353). A statistics record that does not read well holds it (08 R280). -/
def execStepCommit (t : Nat) (p : PartIdx) (s : State) : Host.Outcome State Fault Refusal :=
  let p := p.val
  let s := (s.arrive t).syncDraft p
  let x := s.part p
  match x.draft with
  | none => .next s
  | some d =>
    if !s.atCommit p d then .next s
    else if d.packages = 1 ∧ x.tainted then .next (s.rollback p 2)
    else if !s.checksPassed d || !(d.slots.all fun n => x.sigOk.contains n) || (decide (1 < d.packages) && x.voteResult != some true) then
      .next s
    else match s.statsCheck p with
      | (s, true) => .next ((s.commitStep p d).afterCommit p d)
      | (s, false) => .next s

/-- COMMIT_VOTE_LOST (10 R358): no result 20 µs after the commit cycle. -/
def execCommitVoteLost (t : Nat) (p : PartIdx) (s : State) : Host.Outcome State Fault Refusal :=
  let p := p.val
  let s := s.arrive t
  let x := s.part p
  match x.draft with
  | none => .next s
  | some d =>
    if s.atCommit p d && decide (1 < d.packages) && x.voteResult.isNone &&
        decide (s.commitTime p d + 20 * unitsPerUs ≤ s.now) then
      .next ((s.event 0x0A04 (ofPart p) []).halt p)
    else .next s

/-- OUTPUT_RELEASE (R67, R88): at a release instant, the held outputs of a partition that are due, or a
treadle pulse whose step has committed. -/
def execOutputRelease (t : Nat) (p : PartIdx) (pulse : Option Pulse) (s : State) : Host.Outcome State Fault Refusal :=
  let p := p.val
  let s := s.arrive t
  match pulse with
  | none => .next ((s.releaseBuffers p).releaseTiles p)
  | some u =>
    match s.pulseDue p u with
    | some c => .next (s.drivePulse.lateRelease p u.tick c)
    | none => .next s

/-- TREADLE_PULSE_END (18 R574): 1 µs after the latest pulse the pin falls. -/
def execTreadlePulseEnd (t : Nat) (s : State) : Host.Outcome State Fault Refusal :=
  let s := s.arrive t
  if s.pins.treadleOut ∧ s.pins.treadleEnd ≤ s.now ∧ ¬ s.cad.dead then
    .next { s with pins := { s.pins with treadleOut := false } }
  else .next s

/-- RERUN_START (13 R424): the restored step runs again from its first draft tick, at a boundary; spare
activations and a variant switch take effect with it. -/
def execRerunStart (t : Nat) (p : PartIdx) (s : State) : Host.Outcome State Fault Refusal :=
  let p := p.val
  let s := s.arrive t
  let x := s.part p
  match x.draft with
  | none => .next s
  | some d =>
    if x.state ≠ .running ∨ ¬ x.restoring then .next s
    else
      let s := s.setPart p { x with
        restoring := false, restoreCause := 0, spares := [], variant := x.variantNext.getD x.variant,
        variantNext := .none }
      let s := if x.variantNext.isSome then s.event 0x0D0E (ofPart p) [] else s
      let s := x.spares.foldl (fun s a => s.spareActivated p a) s
      .next (s.beginDraftTick p 0 s.now ((s.cad.tick.toNat - x.sched) * d.cycles))

/-- SIGNATURE_COMPARE (R126): a delivered signature of a slot's draft tick against the draft's: the full
one, or the prefix at the first failed test of a stall-capable gate (its place among those of the
tick). `missing`: it has not arrived 2 µs after its due cycle. -/
def execSignatureCompare (t : Nat) (slot : Slot) (tick : Nat) (gate : Option Nat) (missing : Bool) (s : State) :
    Host.Outcome State Fault Refusal :=
  let n := slot.val
  let s := s.arrive t
  match s.partOfSlot n with
  | none => .next s
  | some p =>
    let x := s.part p
    match x.draft with
    | none => .next s
    | some d =>
      if x.state ≠ .running ∨ x.restoring ∨ !bit d.slotMask n then .next s
      else
        let f := s.flyer n
        let m := if x.stepTick = tick then f.msg else f.prev
        let want := d.signature x.variant n tick (gate.getD (d.stallGates tick).length)
        if missing ∨ shake256 32 m ≠ want then .next (s.signatureFault p n tick)
        else if gate = none ∧ tick + 1 = d.stepTicks ∧ x.stepTick = tick then
          .next (s.setPart p { x with sigOk := x.sigOk ++ [n] })
        else .next s

end Sys2Proof.Machine
end

