-- ==== Sys2Proof/Machine/FabricRows.lean ====
section
/-! DEFINITION. Machine/FabricRows.lean: the rows of the Rhoum fabric and of the collectives: the harts' loads, stores,
fences, ownership commands and gathers, requests and responses of other packages (09), and the collectives' packets,
rounds and re-forming (10). -/

namespace Sys2Proof.Machine

/-! ### Solver accesses and packets (09) -/

/-- SOLVER_LOAD (R326, R327; LR under R310): x[rd] or f[rd] receives the data, or the slub word of its lane. -/
def execSolverLoad (t : Nat) (h : HartIdx) (a : BitVec 56) (size rd : Nat) (signed fp lr : Bool) (s : State) :
    Host.Outcome State Fault Refusal :=
  let s := s.arrive t
  let h := h.val
  let a := a.toNat
  let pa := a % 2 ^ 48
  let dl := if fp then Deliver.freg h rd size else Deliver.xreg h rd size signed
  if s.hartGone h then .next s
  else if s.pmpStops h a size false || (lr && !s.coherent a) then .next (s.trap h 5 a)
  else if lr ∧ pa % size ≠ 0 then .next (s.trap h 4 a)
  else if bit a 55 then .next (s.ctlLoad h a size dl)
  else if s.hartRoute h a = .here then
    match s.loadLocal (.hart h) (laneOf size) pa size with
    | (s, none) => .next (s.answer stWait [])
    | (s, some (l, c)) =>
      let s := if lr then s.setHart h { s.hart h with reserved := some pa } else s
      .next ((s.deliver dl 0 0 l).localFault h 1 pa size (if c = 0 then 0 else 1) c)
  else if s.unitFull (hartUnit h) (if pa % size = 0 then 1 else size) then .next (s.answer stWait [])
  else if pa % size = 0 then .next (s.request (s.hartPacket h 1 1 pa size []) (s.hartPath h a) dl)
  else .next ((List.range size).foldl (fun s i =>
    s.request { s.hartPacket h 1 1 (pa + i) 1 [] with lane := laneOf size } (s.hartPath h a)
      (.part h rd i size signed fp)) s)

/-- SOLVER_FENCE (R323): a FENCE whose predecessor set holds W or O. -/
def execSolverFence (t : Nat) (h : HartIdx) (s : State) : Host.Outcome State Fault Refusal :=
  let s := s.arrive t
  .next (if s.hartGone h.val then s else s.pushFence (hartUnit h.val) none [] false)

/-- FENCE_COMPLETE (R323, R324). -/
def execFenceComplete (t : Nat) (h : HartIdx) (s : State) : Host.Outcome State Fault Refusal :=
  .next ((s.arrive t).fenceDone h.val)

/-- OWN_ACQUIRE (R329): answers at once. -/
def execOwnAcquire (t : Nat) (h : HartIdx) (a : BitVec 56) (rd : Nat) (word : BitVec 64) (s : State) :
    Host.Outcome State Fault Refusal :=
  .next ((s.arrive t).ownIssue h.val a.toNat rd word.toNat)

/-- OWN_RELEASE (R329): sent when the earlier stores and atomics have completed. -/
def execOwnRelease (t : Nat) (h : HartIdx) (a : BitVec 56) (rd : Nat) (word : BitVec 64) (s : State) :
    Host.Outcome State Fault Refusal :=
  .next ((s.arrive t).ownIssue h.val a.toNat rd word.toNat)

/-- OWN_HANDOVER (R329): as a release, to a new owner. -/
def execOwnHandover (t : Nat) (h : HartIdx) (a : BitVec 56) (rd : Nat) (word : BitVec 64) (s : State) :
    Host.Outcome State Fault Refusal :=
  .next ((s.arrive t).ownIssue h.val a.toNat rd word.toNat)

/-- GATHER_DOORBELL (R332). -/
def execGatherDoorbell (t : Nat) (h : HartIdx) (rd : Nat) (desc : BitVec 64) (s : State) : Host.Outcome State Fault Refusal :=
  .next ((s.arrive t).gatherStart h.val rd (desc.toNat % 2 ^ 48))

/-- SOLVER_STORE (R326, R327; 07 R232): a store, an atomic, or a store-conditional under R310. -/
def execSolverStore (t : Nat) (h : HartIdx) (a : BitVec 56) (size rs2 rd : Nat) (kind : StoreKind) (s : State) :
    Host.Outcome State Fault Refusal :=
  let s := s.arrive t
  let h := h.val
  let a := a.toNat
  let pa := a % 2 ^ 48
  if s.hartGone h then .next s
  else if s.pmpStops h a size true then .next (s.trap h 7 a)
  else match kind with
    | .int => .next (if bit a 55 then s.trap h 7 a else s.solverStore h a pa (bytesOf size (s.getX h rs2)))
    | .fp => .next (if bit a 55 then s.trap h 7 a else s.solverStore h a pa (bytesOf size (s.getF h rs2)))
    | .cond =>
      if !s.coherent a then .next (s.trap h 7 a)
      else if pa % size ≠ 0 then .next (s.trap h 6 a)
      else
        let free := s.setHart h { s.hart h with reserved := none }
        if (s.hart h).reserved ≠ some pa then .next (free.setX h rd 1)
        else
          let u := free.solverStore h a pa (bytesOf size (s.getX h rs2))
          .next (if u.ans.status = stWait then u.setHart h { u.hart h with reserved := some pa } else u.setX h rd 0)
    | .amo op =>
      if pa % size ≠ 0 then .next (s.trap h 6 a)
      else if bit a 55 then .next (s.ctlAmo h a size rd op (s.getX h rs2))
      else .next (s.solverAmo h a pa size rd op (bytesOf size (s.getX h rs2)))

/-- GATHER_COMPLETE (R333): every element has completed. -/
def execGatherComplete (t : Nat) (h : HartIdx) (j : Nat) (s : State) : Host.Outcome State Fault Refusal :=
  let s := s.arrive t
  let h := h.val
  match s.gather h j with
  | none => .next s
  | some g =>
    if g.done.length < g.count then .next s
    else
      match s.storeLocal (.hart h) g.cmpl (gatherRecord g) with
      | (s, none) => .next (s.answer stWait [])
      | (s, some _) =>
        let s := { s with fab := { s.fab with gathers := fmDel s.fab.gathers (h * 16 + j) } }
        match g.failed.head? with
        | none => .next s
        | some (i, st, c) =>
          let e := nth g.elems i (0, 0)
          let p := (s.partOfHart h).getD 0
          .next ((s.faultRecord p e.1 c st (nth g.paths i noPath) 0xF1 0 (hartUnit h)).event 0x090C
            { part := s.partOfHart h } [])

/-- LD (R311, R318): served without regard to order. -/
def execLd (t : Nat) (k : Packet) (s : State) : Host.Outcome State Fault Refusal :=
  let s := (s.arrive t).heard k
  if !wellMade k then .next (s.respond k 1 7 (slubData k .none 7))
  else match s.loadLocal (.remote k.src k.unit k.part k.world) k.lane k.addr k.len with
    | (s, some (l, c)) => .next (s.respond k (if c = 0 then 0 else 1) c l)
    | (s, none) => .next (s.answer stWait [])

/-- ST (R317): passes the ordering die. -/
def execSt (t : Nat) (k : Packet) (s : State) : Host.Outcome State Fault Refusal :=
  .next ((s.arrive t).ordered { k with op := 0x02 })

/-- AMO_ADD (R319). -/
def execAmoAdd (t : Nat) (k : Packet) (s : State) : Host.Outcome State Fault Refusal :=
  .next ((s.arrive t).ordered { k with op := 0x10 })
/-- AMO_SWAP (R319). -/
def execAmoSwap (t : Nat) (k : Packet) (s : State) : Host.Outcome State Fault Refusal :=
  .next ((s.arrive t).ordered { k with op := 0x11 })
/-- AMO_CAS (R319): compare value, then new value. -/
def execAmoCas (t : Nat) (k : Packet) (s : State) : Host.Outcome State Fault Refusal :=
  .next ((s.arrive t).ordered { k with op := 0x12 })
/-- AMO_AND (R319). -/
def execAmoAnd (t : Nat) (k : Packet) (s : State) : Host.Outcome State Fault Refusal :=
  .next ((s.arrive t).ordered { k with op := 0x13 })
/-- AMO_OR (R319). -/
def execAmoOr (t : Nat) (k : Packet) (s : State) : Host.Outcome State Fault Refusal :=
  .next ((s.arrive t).ordered { k with op := 0x14 })
/-- AMO_XOR (R319). -/
def execAmoXor (t : Nat) (k : Packet) (s : State) : Host.Outcome State Fault Refusal :=
  .next ((s.arrive t).ordered { k with op := 0x15 })
/-- AMO_MINU (R319). -/
def execAmoMinu (t : Nat) (k : Packet) (s : State) : Host.Outcome State Fault Refusal :=
  .next ((s.arrive t).ordered { k with op := 0x16 })
/-- AMO_MAXU (R319). -/
def execAmoMaxu (t : Nat) (k : Packet) (s : State) : Host.Outcome State Fault Refusal :=
  .next ((s.arrive t).ordered { k with op := 0x17 })
/-- AMO_MIN (R319). -/
def execAmoMin (t : Nat) (k : Packet) (s : State) : Host.Outcome State Fault Refusal :=
  .next ((s.arrive t).ordered { k with op := 0x18 })
/-- AMO_MAX (R319). -/
def execAmoMax (t : Nat) (k : Packet) (s : State) : Host.Outcome State Fault Refusal :=
  .next ((s.arrive t).ordered { k with op := 0x19 })
/-- AMO_FADD (R312): refused in strict mode. -/
def execAmoFadd (t : Nat) (k : Packet) (s : State) : Host.Outcome State Fault Refusal :=
  .next ((s.arrive t).ordered { k with op := 0x1A })
/-- OWN_CMD (R329): a command, or (with no data) a read of the entry by the control view of another package (R327). -/
def execOwnCmd (t : Nat) (k : Packet) (s : State) : Host.Outcome State Fault Refusal :=
  let k := { k with op := 0x28 }
  if k.isWrite then .next ((s.arrive t).ordered k)
  else
    let s := (s.arrive t).heard k
    if !wellMade k then .next (s.respond k 1 7 (slubData k .none 7))
    else
      let r := s.ownServe (.remote k.src k.unit k.part k.world) k.src k.part k.addr []
      .next (r.1.respond k r.2.2.1 r.2.2.2 (r.2.1.take k.len))

/-- LEDGER_ENTRY_AGE_OUT (R319): a held atomic of the source may be applied. -/
def execLedgerEntryAgeOut (t : Nat) (path unit : Nat) (s : State) : Host.Outcome State Fault Refusal :=
  .next ((s.arrive t).drainHeld (ordKey path unit) 64)

/-- RESPONSE (R313, R322): the request it answers completes; STALE becomes OUTCOME_UNKNOWN (R319). -/
def execResponse (t : Nat) (k : Packet) (s : State) : Host.Outcome State Fault Refusal :=
  let s := (s.arrive t).heard k
  match fmGet? (s.srcUnit k.unit).outstanding k.tag with
  | none => .next s
  | some r =>
    if k.op ≠ r.pkt.op + 0x80 ∨ k.gen ≠ r.pkt.gen then .next s
    else
      match s.slotWaits r.deliver with
      | (s, true) => .next (s.answer stWait [])
      | (s, false) =>
        let unknown := k.status == 5 && r.pkt.isWrite
        let s := if unknown then s.deadEvent r.pkt else s
        .next ((s.endGiving r.pkt).complete k.unit k.tag (if unknown then 3 else k.status) k.cause k.data)

/-- REQUEST_REISSUE (R320): at 4, 8, 12 and 16 µs, by the port of that moment. -/
def execRequestReissue (t : Nat) (u tag : Nat) (s : State) : Host.Outcome State Fault Refusal :=
  let s := s.arrive t
  let x := s.srcUnit u
  match fmGet? x.outstanding tag with
  | none => .next s
  | some r =>
    if 4 ≤ r.reissues ∨ s.now < r.first + 4 * unitsPerUs * (r.reissues + 1) then .next s
    else
      let s := s.setSrcUnit u { x with outstanding := fmSet x.outstanding tag { r with reissues := r.reissues + 1 } }
      .next (s.sendPacket (chargeOf r.pkt) { r.pkt with retry := true })

/-- REQUEST_DEAD_TIMEOUT (R320): 20 µs after the first issue. -/
def execRequestDeadTimeout (t : Nat) (u tag : Nat) (s : State) : Host.Outcome State Fault Refusal :=
  let s := s.arrive t
  let x := s.srcUnit u
  match fmGet? x.outstanding tag with
  | none => .next s
  | some r =>
    if s.now < r.first + 20 * unitsPerUs then .next s
    else match s.slotWaits r.deliver with
    | (s, true) => .next (s.answer stWait [])
    | (s, false) =>
      let s := if r.pkt.isWrite then s.setSrcUnit u (x.spoilFences r.pkt.dst) else s
      let s := (s.markDead r.pkt.dst).deadEvent r.pkt
      .next ((s.endGiving r.pkt).complete u tag (deadStatus r.pkt) 1 (slubData r.pkt r.deliver 1))

/-- HEARTBEAT_FLIT (R321): the dead mark of the path clears. -/
def execHeartbeatFlit (t : Nat) (port : PortIdx) (path : BitVec 48) (s : State) : Host.Outcome State Fault Refusal :=
  let s := s.arrive t
  .next (if (s.port port.val).state.usable then s.clearDead path.toNat else s)

/-- DEAD_CLEAR (R321): OD 0x6020.00. -/
def execDeadClear (t : Nat) (q : Option Nat) (v : BitVec 64) (s : State) : Host.Outcome State Fault Refusal :=
  .next ((s.arrive t).command q 0x6020 0 fun s => (s.clearDead (v.toNat % 2 ^ 48), true))

/-- OWN_FORCE_OPEN (R331): OD 0x6030.00; an address outside this package's stacks is rejected. -/
def execOwnForceOpen (t : Nat) (q : Option Nat) (v : BitVec 64) (s : State) : Host.Outcome State Fault Refusal :=
  .next ((s.arrive t).command q 0x6030 0 fun s =>
    match s.place (v.toNat % 2 ^ 48) with
    | .stack .. => (s.forceOpen (v.toNat % 2 ^ 48 / 2 ^ 21), true)
    | _ => (s, false))

/-! ### Collectives (10) -/

/-- ADMIT_ROUND (R365): in strict mode, one round every 1 µs. -/
def execAdmitRound (t : Nat) (s : State) : Host.Outcome State Fault Refusal :=
  let s := s.arrive t
  if s.odGet 0x4002 0 = 1 ∧ s.now < s.coll.lastRound + unitsPerUs then .next s
  else
    let s := { s with coll := { s.coll with lastRound := s.now } }
    let s := s.admitRound
    .next (s.coll.colls.foldl (fun s e => if e.2.draft then s else s.pump e.1) s)

/-- COLL_LAUNCH_DOORBELL (R363, R370): an AMOSWAP.D at a creel window; x[rd] receives the answer. -/
def execCollLaunchDoorbell (t : Nat) (h : HartIdx) (rd : Nat) (desc : BitVec 64) (s : State) : Host.Outcome State Fault Refusal :=
  let s := s.arrive t
  let h := h.val
  if s.hartGone h then .next s
  else match s.partOfHart h with
    | none => .next (s.setX h rd 1)
    | some p =>
      let pa := desc.toNat % 2 ^ 48
      if pa % 64 ≠ 0 then .next (s.setX h rd 1)
      else match s.loadLocal (.hart h) 0 pa 64 with
        | (s, none) => .next (s.answer stWait [])
        | (s, some (l, c)) =>
          if c ≠ 0 then .next (s.setX h rd 1)
          else
            let r := s.launchColl p (wordsOf l)
            .next (r.1.setX h rd r.2)

/-- COLL_LAUNCH (R364, R392): a child's launch at a head, or a head's grant at a child. -/
def execCollLaunch (t : Nat) (k : Packet) (s : State) : Host.Outcome State Fault Refusal :=
  let s := (s.arrive t).heard k
  match s.collCheck k with
  | (s, none) => .next s
  | (s, some h) =>
    let draft := k.cls == 0
    let key := h.key draft
    let g := s.group h.part h.group
    let ws := wordsOf (k.data.drop 16)
    if h.down then
      .next ((s.modColl key fun c => { c with granted := c.granted ++ [stageKey h.chunk h.depth] }).pump key)
    else match s.myNode g h.depth with
      | none => .next (s.nak k 1)
      | some _ =>
        let s := s.openColl h draft
        let c := s.collOf key
        let sent : Collective := Collective.learn {} ws
        if c.known && !c.agrees sent && !draft then .next (s.mismatch key)
        else
          let c := if draft then c else c.learn ws
          let c := { c with folds := (readFolds ((ws.drop 5).take (nth ws 4 0))).foldl (fun m e => fmSet m e.1 e.2) c.folds }
          let s := s.setColl key c
          let pos := g.pos h.rank
          let l := fmSet c.launches (h.depth * 64 + digit pos h.depth) (nth ws 1 0)
          let s := s.setColl key { c with launches := l }
          let kids := g.kids pos h.depth
          if draft ∨ !(kids.all fun d => fmHas l (h.depth * 64 + d)) then .next s
          else
            let tick := (kids.map fun d => fmGet l (h.depth * 64 + d) 0).foldl max 0
            .next (((s.claimFirst key h.depth tick).launchUp key tick 9 pos h.depth).pump key)

/-- COLL_CHUNK (R347). `cr`: what the creel's code finds in the chunk. -/
def execCollChunk (t : Nat) (k : Packet) (cr : CreelCheck) (s : State) : Host.Outcome State Fault Refusal :=
  let s := (s.arrive t).heard k
  match s.collCheck k with
  | (s, none) => .next s
  | (s, some h) => .next (if k.cls = 0 then s.draftChunk k h cr else s.dynChunk k h cr)

/-- COLL_ACK (R354): at the root head. -/
def execCollAck (t : Nat) (k : Packet) (s : State) : Host.Outcome State Fault Refusal :=
  let s := (s.arrive t).heard k
  match s.collCheck k with
  | (s, none) => .next s
  | (s, some h) =>
    let w := natOf ((k.data.drop 16).take 8)
    .next ((s.acked (h.key false) h.chunk h.rank (bit w 0) (bit w 1)).endColl (h.key false))

/-- COLL_TAINT_PACKET (R354). -/
def execCollTaintPacket (t : Nat) (k : Packet) (s : State) : Host.Outcome State Fault Refusal :=
  let s := (s.arrive t).heard k
  match s.collCheck k with
  | (s, none) => .next s
  | (s, some h) => .next ((s.toldTaint h (natOf ((k.data.drop 16).take 128))).endColl (h.key false))

/-- COLL_NAK (R351, R352, R355, R366; 13 R446): what the sender of the chunk does about it. -/
def execCollNak (t : Nat) (k : Packet) (s : State) : Host.Outcome State Fault Refusal :=
  let s := (s.arrive t).heard k
  let h := readHead k.data
  let reason := natOf ((k.data.drop 16).take 8)
  if k.tag ≠ 0 ∨ k.ord ≠ 0 then .next (s.respond k 2 7 [])
  else if k.cls = 0 then
    .next (if (s.coll? (h.key true)).isSome then s.taint (h.key true) h.chunk h.depth else s)
  else
    let key := h.key false
    match s.coll? key with
    | none => .next s
    | some c =>
      match reason with
      | 1 => .next s
      | 3 => .next (s.setColl key { c with
          aheadAt := c.aheadAt.or (some s.now)
          kept := c.kept.map fun x => if x.is k.src h.depth h.down h.chunk then { x with ahead := true } else x })
      | 4 => .next (s.resend key fun x => x.op == 0x31 && x.is k.src h.depth h.down h.chunk)
      | _ => .next (s.completeColl key (nakStatus reason) 0x7FF)

/-- GEN_AHEAD_EXPIRY (R351): 1 ms after the first GEN_AHEAD, a collective whose last sendings are still answered so ends. -/
def execGenAheadExpiry (t : Nat) (p : PartIdx) (g cseq : Nat) (s : State) : Host.Outcome State Fault Refusal :=
  let s := s.arrive t
  match s.coll? (collKey p.val g cseq) with
  | some c =>
    match c.aheadAt with
    | some a =>
      .next (if s.now < a + unitsPerMs then s
        else if c.kept.any fun x => x.ahead then s.completeColl (collKey p.val g cseq) 5 0x7FF
        else s.setColl (collKey p.val g cseq) { c with aheadAt := .none })
    | none => .next s
  | none => .next s

/-- CHUNK_RESEND_TIMEOUT (R351, R355): a receiver asks a peer for a chunk (`ask`); a sender sends it again 4, 8, 12 and 16 µs
after it was first sent (`tries` 1 to 4) and marks the receiver dead at 20 µs (5), or every 4 µs after GEN_AHEAD. -/
def execChunkResendTimeout (t : Nat) (p : PartIdx) (g cseq : Nat) (peer : BitVec 48) (depth : Nat) (down : Bool) (chunk : Nat)
    (ask : Bool) (tries : Nat) (s : State) : Host.Outcome State Fault Refusal :=
  let s := s.arrive t
  let key := collKey p.val g cseq
  match s.coll? key with
  | none => .next s
  | some c =>
    if ask then
      .next (if !s.asksFor c peer.toNat depth down chunk then s else s.sendColl p.val peer.toNat 0x34 3 (chunkHeader p.val c depth down chunk 0x7FF ++ bytesOf 8 4))
    else
      let hit := fun (x : Kept) => x.is peer.toNat depth down chunk
      let period := 4 * unitsPerUs
      if c.kept.any fun x => hit x && x.ahead then
        .next (s.resend key fun x => hit x && x.ahead && decide (x.last + period ≤ s.now))
      else if !c.kept.any fun x => x.op == 0x31 && hit x && decide (x.first + period * min 5 tries ≤ s.now) then .next s
      else if 5 ≤ tries then .next (s.markDead peer.toNat)
      else .next (s.resend key fun x => x.op == 0x31 && hit x)

/-- Q_CHUNK (R584): the collective engine of a fabric die performs its part of a chunk at its compiled cycle. -/
def execQChunk (t : Nat) (p : PartIdx) (f : Fin 8) (e : Nat) (s : State) : Host.Outcome State Fault Refusal :=
  let p := p.val
  let s := (s.arrive t).syncDraft p
  match s.seqEntry p f.val e 1 with
  | none => .next s
  | some (w, d) =>
    let (s, k) := s.seqColl p (bits w 119 99 * 64) d
    let j := bits w 98 95
    .next (if bit w 94 then s.seqDown k j (bits w 63 32) else s.seqUp k j (bits w 63 32))

/-- Q_NOP (R584): nothing. -/
def execQNop (t : Nat) (p : PartIdx) (_f : Fin 8) (_e : Nat) (s : State) : Host.Outcome State Fault Refusal :=
  .next ((s.arrive t).syncDraft p.val)

/-- COMMIT_VOTE (R356): a child's contribution enters the stage of this package it belongs to. -/
def execCommitVote (t : Nat) (k : Packet) (s : State) : Host.Outcome State Fault Refusal :=
  let s := (s.arrive t).heard k
  let g := s.group k.part 63
  if k.tag ≠ 0 ∨ k.ord ≠ 0 then .next (s.respond k 2 7 [])
  else
    let hit := (s.nodeDepths g).reverse.findSome? fun j =>
      let pos := s.stagePos g j
      ((g.kids pos j).find? fun d => s.childPath g (g.childPos pos j d) j == k.src).map fun d => (j, g.childPos pos j d)
    match hit with
    | some (j, pos) => .next (s.voteUp k.part g (votePacket k) true 9 pos (some j))
    | none => .next s

/-- COMMIT_RESULT (R357): goes on down the tree, and decides this package's commit. -/
def execCommitResult (t : Nat) (k : Packet) (s : State) : Host.Outcome State Fault Refusal :=
  let s := (s.arrive t).heard k
  let g := s.group k.part 63
  if k.tag ≠ 0 ∨ k.ord ≠ 0 then .next (s.respond k 2 7 [])
  else
    let hit := (s.nodeDepths g).find? fun j =>
      match g.up (s.stagePos g j) j with
      | some u => g.heads (s.stagePos g j) u k.src
      | none => false
    match hit with
    | some j => .next (s.voteDown k.part g (votePacket k) 8 (s.stagePos g j) j)
    | none => .next (s.voteResult k.part (votePacket k))

/-- The reads of a re-form: the member list and the node table, once their places are good. -/
def State.reformReads (s : State) (p g : Nat) : State :=
  let r := s.odGet (0x7010 + p) (g + 1)
  match s.reform p g with
  | .error 4 | .error 5 => s
  | _ => (s.scanned (bits r 47 0) (16 * bits r 58 48)).scanned (bits r 111 64) (32 * bits r 119 112)

/-- GROUP_REFORM (R349): OD 0x7014+p.00. -/
def execGroupReform (t : Nat) (q : Option Nat) (p : PartIdx) (g : BitVec 8) (s : State) : Host.Outcome State Fault Refusal :=
  let p := p.val
  let g := g.toNat
  let s := s.arrive t
  if 64 ≤ g then .next (match s.refusal q (0x7014 + p) 0 true with | some st => s.answer st [] | none => s.answer stRange [])
  else .next (s.command q (0x7014 + p) 0 fun s =>
    let s := s.reformReads p g
    match s.reform p g with
    | .error c => (s.odSet (0x7018 + p) 0 (c + (g <<< 8)), false)
    | .ok x => (((s.staleGroup p g).setGroup p g x).odSet (0x7018 + p) 0 (1 + (g <<< 8)), true))

end Sys2Proof.Machine
end

