-- ==== Sys2Proof/Machine/Host.lean ====
section
/-! DEFINITION. Machine/Host.lean: the host attachment: HDM map and decoder (17 R543, R544), reads and writes of the host
(R545), back-invalidation (R546), host windows and doorbells (R547 to R550), and the mailbox commands other than AOAP
(R551, R552). -/

namespace Sys2Proof.Machine

/-- Write the host attachment. -/
def State.setHost (s : State) (x : HostIf) : State := { s with host := x }

/-- The host reaches the package: the link is in L0. -/
def State.linked (s : State) : Bool := s.boot.cxlState == 2

/-! ### HDM window (R543, R544) -/

/-- The map entry of a segment. -/
def State.hdmEntry (s : State) (seg : Nat) : Nat := s.odGet (0x1100 + seg / 256) (seg % 256)

/-- Clear `valid` in every entry from a segment on. -/
def State.clearHdm (s : State) (seg : Nat) : State :=
  forN 1024 s fun s i =>
    if seg ≤ i ∧ bit (s.hdmEntry i) 31 then
      s.odSet (0x1100 + i / 256) (i % 256) (setBit (s.hdmEntry i) 31 false)
    else s

/-- HDM_SIZE_WRITE (R543, R544): OD 0x1104.01. -/
def execHdmSizeWrite (t : Nat) (q : Option Nat) (v : BitVec 16) (s : State) : Host.Outcome State Fault Refusal :=
  let s := s.arrive t
  match s.refusal q 0x1104 1 true with
  | some st => .next (s.answer st [])
  | none =>
    if 1024 < v.toNat then .next (s.answer stRange [])
    else
      let s := if v.toNat < s.odGet 0x1104 1 then s.clearHdm v.toNat else s
      .next ((s.odSet 0x1104 1 v.toNat).answer stOk [])

/-- HDM_DECODER_COMMIT (R543): the host commits a decoder of so many GiB. -/
def execHdmDecoderCommit (t : Nat) (gib : Nat) (s : State) : Host.Outcome State Fault Refusal :=
  let s := s.arrive t
  if !s.linked then .next s
  else if gib = s.odGet 0x1104 1 then .next (s.setHost { s.host with decoder := some gib, commitError := false })
  else .next (s.setHost { s.host with decoder := .none, commitError := true })

/-- The offset lies in the committed window. -/
def State.decodes (s : State) (o : Nat) : Bool :=
  s.linked && match s.host.decoder with
    | some n => decide (o < n * 2 ^ 30)
    | none => false

/-- Package-physical address of an offset; none: the segment is not mapped. -/
def State.hdmAddr (s : State) (o : Nat) : Option Nat :=
  let v := s.hdmEntry (o / 2 ^ 30)
  if bit v 31 then some (bits v 10 0 * 2 ^ 30 + o % 2 ^ 30) else none

/-- A request through a segment that is not mapped (R545; 15 R583). -/
def State.hdmMiss (s : State) (o : Nat) : State :=
  s.event 0x0801 noOne [.half (reqWord s.hostDie 0 false false true), .word o]

/-! ### Host requests (R545) -/

/-- The host may hold a line of a region from now on (R546). -/
def State.hold (s : State) (pa : Nat) : State :=
  if s.host.held.contains (pa / 2 ^ 21) then s else s.setHost { s.host with held := s.host.held ++ [pa / 2 ^ 21] }

/-- HOST_READ (R545): the line at an offset from the decoder base. The answer's status is the cause; a refused line is
slub words, poisoned. -/
def execHostRead (t : Nat) (o : Nat) (s : State) : Host.Outcome State Fault Refusal :=
  let s := s.arrive t
  let o := o / 64 * 64
  if !s.decodes o then .next s
  else match s.hdmAddr o with
  | none => .next ((s.hdmMiss o).answer 3 (slubBytes 0 3 0 64))
  | some pa =>
    match s.loadLocal .host 0 pa 64 with
    | (s, some (l, c)) => .next ((if c = 0 then s.hold pa else s).answer c l)
    | (s, none) => .next s

/-- Write enabled bytes of a line after its checks; a partial write to an uncorrectable line is dropped (08 R277). -/
def State.hostStore (s : State) (pa : Nat) (l : List Byte) (mask : Nat) : State :=
  match s.verdict .host .wr pa with
  | (s, .ok k) =>
    if mask % 2 ^ 64 = 2 ^ 64 - 1 then s.store k (fitTo 64 l)
    else
      let (s, bad) := s.readCheck k 64
      if bad.isEmpty then
        (maskBits 64 mask).foldl (fun s i => s.store (k + i) [nth l i 0]) s
      else s.dramBad (keyDie k) none []
  | (s, .refused ..) => s

/-- HOST_WRITE (R545): a line, or some bytes of it; a refused write is dropped. -/
def execHostWrite (t : Nat) (o : Nat) (data : List Byte) (mask : BitVec 64) (s : State) :
    Host.Outcome State Fault Refusal :=
  let s := s.arrive t
  let o := o / 64 * 64
  if !s.decodes o then .next s
  else match s.hdmAddr o with
  | none => .next (s.hdmMiss o)
  | some pa => .next (s.hostStore pa data mask.toNat)

/-! ### Back-invalidation (R546) -/

/-- Snoop the regions of a range that the host may hold: whether there is one. -/
def State.backInvalidate (s : State) (pa n : Nat) : State × Bool := s.snoopFor (.remote 0 0 0 false) pa n

/-- Answer a mailbox command: its return code and payload, and MSI-X vector 0. -/
def State.mbDone (s : State) (code : Nat) (payload : List Byte) : State := (s.answer code payload).send (.msix 0)

/-- Serve the host's ownership command at its region's home here (09 R328, R329): the host is domain 4. -/
def State.hostOwn (s : State) (pa word : Nat) : State :=
  let target := if bits word 14 8 = 0 then s.ownPath else noPath
  let r := s.ownServe .host s.ownPath 4 pa (bytesOf 8 word ++ bytesOf 8 target)
  r.1.mbDone 0 r.2.1

/-- Ownership commands that waited for a region's lines go on. -/
def State.ownResume (s : State) : State :=
  let ready := s.host.ownWait.filter fun e => !s.host.held.contains (e.1 / 2 ^ 21)
  let s := s.setHost { s.host with ownWait := s.host.ownWait.filter fun e => s.host.held.contains (e.1 / 2 ^ 21) }
  ready.foldl (fun s (e : Nat × Nat) => s.hostOwn e.1 e.2) s

/-- The host no longer holds a line of a region. -/
def State.letGo (s : State) (region : Nat) : State :=
  (s.setHost { s.host with
    held := s.host.held.filter fun r => r != region, snoops := fmDel s.host.snoops (region * 2 ^ 21) }).ownResume

/-- BI_SNOOP_RESPONSE (R546): the host answers the snoop of a region, with the lines it writes back. -/
def execBiSnoopResponse (t : Nat) (region : Nat) (dirty : List (Fin 32768 × List Byte)) (s : State) :
    Host.Outcome State Fault Refusal :=
  let s := s.arrive t
  if fmHas s.host.snoops (region * 2 ^ 21) then
    let s := dirty.foldl (fun s (e : Fin 32768 × List Byte) =>
      s.storePa (region * 2 ^ 21 + 64 * e.1.val) (fitTo 64 e.2)) s
    .next (s.letGo region)
  else .next s

/-- Poison the line at a package-physical address (08 R277). -/
def State.poisonLine (s : State) (pa : Nat) : State :=
  match s.key? pa with
  | some k => { s with lines := fmSet s.lines (k / 64) .poisoned }
  | none => s

/-- CXL_BI_TIMEOUT (R546): lines of a region whose snoops are unanswered after 20 µs are poisoned. -/
def execCxlBiTimeout (t : Nat) (region : Nat) (lines : List (Fin 32768)) (s : State) : Host.Outcome State Fault Refusal :=
  let s := s.arrive t
  match fmGet? s.host.snoops (region * 2 ^ 21) with
  | none => .next s
  | some at_ =>
    if s.now < at_ + 20 * unitsPerUs ∨ lines.isEmpty then .next s
    else
      let s := lines.foldl (fun s i =>
        (s.event 0x1103 noOne []).poisonLine (region * 2 ^ 21 + 64 * i.val)) s
      .next (s.letGo region)

/-! ### Host windows (R548, R549) -/

/-- WIN_PEND_CLEAR (R548): a bit set in the same cycle stays set. -/
def execWinPendClear (t : Nat) (p : PartIdx) (v : BitVec 64) (s : State) : Host.Outcome State Fault Refusal :=
  let p := p.val
  let s := s.arrive t
  if !s.linked then .next s
  else
    let pend := fmGet s.host.winPend p 0
    let gone := (maskBits 64 v.toNat).filter fun w => decide (fmGet s.host.winPendAt (64 * p + w) (s.now + 1) ≠ s.now)
    let new := gone.foldl (fun x w => setBit x w false) pend.toNat
    .next (s.setHost { s.host with winPend := fmSet s.host.winPend p (BitVec.ofNat 64 new) })

/-- Window w of partition p, when its draft has it. -/
def State.windowDesc (s : State) (p w : Nat) : Option WinDesc := (s.part p).draft.bind fun d => d.wins[w]?

/-- Buffers of a window granted to the host, not released and not being released, oldest first. -/
def State.releasable (s : State) (p w : Nat) : List Nat :=
  let busy := (s.host.releases.filter fun r => r.1 == p && r.2.1 == w).length
  (((s.win p w).queue.filter fun e => e.granted && !e.released).map QEnt.buf).drop busy

/-- A write of 1 to bit w of *win_release*: it counts, or is rejected. -/
def State.releaseBit (s : State) (p w : Nat) : State :=
  match s.windowDesc p w, s.releasable p w with
  | some d, b :: _ =>
    let s := s.setHost { s.host with releases := s.host.releases ++ [(p, w, b)] }
    (s.backInvalidate (d.bufBase b) d.bytes).1
  | _, _ => s.event 0x1104 (ofPart p) []

/-- WIN_RELEASE_WRITE (R549). -/
def execWinReleaseWrite (t : Nat) (p : PartIdx) (v : BitVec 64) (s : State) : Host.Outcome State Fault Refusal :=
  let s := s.arrive t
  .next (if s.linked then (maskBits 64 v.toNat).foldl (fun s w => s.releaseBit p.val w) s else s)

/-- Mark the oldest granted entry of a buffer released. -/
def markReleased (b : Nat) : List QEnt → List QEnt
  | [] => []
  | e :: es => if e.buf = b ∧ e.granted ∧ ¬ e.released then { e with released := true } :: es else e :: markReleased b es

/-- HOST_RELEASE_DONE (R549): the lines of the oldest buffer under release are back. -/
def execHostReleaseDone (t : Nat) (p : PartIdx) (w : Fin 64) (s : State) : Host.Outcome State Fault Refusal :=
  let p := p.val
  let w := w.val
  let s := s.arrive t
  match s.host.releases.find? (fun r => r.1 == p && r.2.1 == w) with
  | none => .next s
  | some r =>
    let done := s.setHost { s.host with releases := s.host.releases.erase r }
    match s.windowDesc p w with
    | none => .next done
    | some d =>
      match s.backInvalidate (d.bufBase r.2.2) d.bytes with
      | (s', true) => .next s'
      | (_, false) =>
        let y := done.win p w
        let s := done.setWin p w { y with queue := markReleased r.2.2 y.queue }
        .next (s.setPart p { s.part p with
          winsCommit := (s.part p).winsCommit.modify w fun y => { y with queue := markReleased r.2.2 y.queue } })

/-! ### Host doorbell (R550) -/

/-- HOST_DOORBELL_WRITE (R550). -/
def execHostDoorbellWrite (t : Nat) (p : PartIdx) (v : BitVec 64) (s : State) : Host.Outcome State Fault Refusal :=
  let p := p.val
  let s := s.arrive t
  if !s.linked then .next s
  else
    let s := s.reel p 5 2 [v.toNat]
    let base := s.odGet (0x1108 + p) 0
    if s.inRegions p base 1024 then
      let n := s.odGet (0x110C + p) 0
      let s := s.storePa (base + 16 * (n % 64)) (bytesOfWords [v.toNat, s.cad.tick.toNat])
      .next ((s.odSet (0x110C + p) 0 (n + 1)).raiseIrqPart 19 p)
    else .next (s.event 0x1104 (ofPart p) [])

/-! ### Mailbox (R551, R552) -/

/-- `mb_ready`: the dictionary is live and no command is being carried out. -/
def State.mbReady (s : State) : Bool := s.boot.live && s.host.copy.isNone && s.host.ownWait.isEmpty

/-- Run a mailbox command: Busy (6) while the mailbox accepts none, Invalid Input (2) when its payload is malformed. -/
def State.mailbox (s : State) (good : Bool) (run : State → State) : State :=
  if !s.linked then s
  else if !s.mbReady then s.mbDone 6 []
  else if !good then s.mbDone 2 []
  else run s

/-- MB_IDENTIFY (R551). -/
def execMbIdentify (t : Nat) (s : State) : Host.Outcome State Fault Refusal :=
  .next ((s.arrive t).mailbox true fun s => s.mbDone 0 (fitTo 69 Config.deviceIdentity))

/-- Opcodes the mailbox implements. -/
def mbOpcodes : List Nat := [0x0400, 0x0401, 0x4000, 0xC100, 0xC101, 0xC102, 0xC103, 0xC104]

/-- Identifier of the Command Effects Log. -/
def celUuid : List Byte :=
  [0x0D, 0xA9, 0xC0, 0xB5, 0xBF, 0x41, 0x4B, 0x78, 0x8F, 0x79, 0x96, 0xB1, 0x62, 0x3B, 0x3F, 0x17]

/-- The Command Effects Log. -/
def celLog : List Byte := mbOpcodes.flatMap fun o => bytesOf 2 o ++ bytesOf 2 (Config.commandEffect o)

/-- MB_GET_SUPPORTED_LOGS (R551): one entry. -/
def execMbGetSupportedLogs (t : Nat) (s : State) : Host.Outcome State Fault Refusal :=
  .next ((s.arrive t).mailbox true fun s =>
    s.mbDone 0 (bytesOf 2 1 ++ List.replicate 6 0 ++ celUuid ++ bytesOf 4 celLog.length))

/-- MB_GET_LOG (R551): bytes of the Command Effects Log. -/
def execMbGetLog (t : Nat) (uuid : List Byte) (off len : BitVec 32) (s : State) : Host.Outcome State Fault Refusal :=
  .next ((s.arrive t).mailbox (uuid == celUuid && decide (off.toNat + len.toNat ≤ celLog.length)) fun s =>
    s.mbDone 0 (cut celLog off.toNat (off.toNat + len.toNat)))

/-- MB_HOST_COPY (R552): it goes on in the background (return code 1). -/
def execMbHostCopy (t : Nat) (hostAddr pkgAddr : BitVec 64) (len : BitVec 32) (dir : BitVec 8) (s : State) :
    Host.Outcome State Fault Refusal :=
  let good := len.toNat % 64 == 0 && decide (len.toNat ≤ 2 ^ 30) && decide (dir.toNat ≤ 1) &&
    hostAddr.toNat % 64 == 0 && pkgAddr.toNat % 64 == 0
  .next ((s.arrive t).mailbox good fun s =>
    (s.setHost { s.host with copy := some ⟨hostAddr.toNat, pkgAddr.toNat, len.toNat, dir == 1⟩ }).answer 1 [])

/-- Copy one line: the status of a refusal, 0 when it went. -/
def State.copyLine (s : State) (c : HostCopy) (off : Nat) (line : Option (List Byte)) : State × Nat :=
  if c.toHost then
    match s.loadPiece .host 0 0 (c.pkgAddr + off) 64, line with
    | (s, l, 0), some _ => (s.send (.hostLine (c.hostAddr + off) l), 0)
    | (s, _, 0), none => (s, 2)
    | (s, _, _), _ => (s, 1)
  else
    match line with
    | none => (s, 2)
    | some l =>
      match s.storePiece .host .wr (c.pkgAddr + off) (fitTo 64 l) with
      | (s, 0, _) => (s, 0)
      | (s, _) => (s, 1)

/-- Copy lines until one fails: the state, the status, and the offset of the line that failed. -/
def State.copyLines (s : State) (c : HostCopy) (host : List (Option (List Byte))) : Nat → Nat → State × Nat × Nat
  | 0, _ => (s, 0, 0)
  | n + 1, off =>
    match s.copyLine c off (nth host (off / 64) (some [])) with
    | (s, 0) => s.copyLines c host n (off + 64)
    | (s, st) => (s, st, off)

/-- HOST_COPY_DONE (R552): the copy that runs completes or stops. `host`: for each line what host memory answered: its
bytes, or none for a host memory error. -/
def execHostCopyDone (t : Nat) (host : List (Option (List Byte))) (s : State) : Host.Outcome State Fault Refusal :=
  let s := s.arrive t
  match s.host.copy with
  | none => .next s
  | some c =>
    if c.len = 0 then .next ((s.setHost { s.host with copy := .none }).mbDone 0 (List.replicate 5 0))
    else match s.backInvalidate c.pkgAddr c.len with
    | (s, true) => .next (s.answer stWait [])
    | (s, false) =>
      let (s, st, off) := s.copyLines c host (c.len / 64) 0
      .next ((s.setHost { s.host with copy := .none }).mbDone 0 (bytesOf 1 st ++ bytesOf 4 off))

/-- MB_OWNERSHIP_CMD (R551; 09 R328, R329): a release or handover waits for the region's lines that the host holds. -/
def execMbOwnershipCmd (t : Nat) (region word : BitVec 64) (s : State) : Host.Outcome State Fault Refusal :=
  let pa := region.toNat
  .next ((s.arrive t).mailbox true fun s =>
    if bits word.toNat 3 0 = 2 ∨ bits word.toNat 3 0 = 3 then
      match s.backInvalidate (pa / 2 ^ 21 * 2 ^ 21) (2 ^ 21) with
      | (s, true) => (s.setHost { s.host with ownWait := s.host.ownWait ++ [(pa, word.toNat)] }).answer stWait []
      | (s, false) => s.hostOwn pa word.toNat
    else s.hostOwn pa word.toNat)

/-- n bytes lie wholly in regions of partition p that have `host` 1 (R552). -/
def State.inHostRegions (s : State) (p pa n : Nat) : Bool :=
  s.inRegions p pa n && (n == 0 || match s.place pa with
    | .stack d o => (List.range ((o + n - 1) / 2 ^ 21 - o / 2 ^ 21 + 1)).all fun i => s.granuleOk .host d (o / 2 ^ 21 + i)
    | _ => false)

/-- A collective's buffers lie in such regions. -/
def State.hostBuffers (s : State) (c : Collective) : Bool :=
  (c.op == 5 || s.inHostRegions c.part c.src c.size) &&
  s.inHostRegions c.part c.dst (c.destBytes (s.groupOf c)) && s.inHostRegions c.part c.cmpl 256

/-- MB_COLL_LAUNCH (R552; 10 R370): the value of the launch. -/
def execMbCollLaunch (t : Nat) (p : BitVec 8) (desc : BitVec 64) (s : State) : Host.Outcome State Fault Refusal :=
  .next ((s.arrive t).mailbox (decide (p.toNat < 4)) fun s =>
    let pa := desc.toNat
    if pa % 64 ≠ 0 ∨ !s.inHostRegions p.toNat pa 64 then s.mbDone 0 [1]
    else
      match s.backInvalidate pa 64 with
      | (s, true) => s.answer stWait []
      | (s, false) =>
        match s.loadPiece .host 0 0 pa 64 with
        | (s, l, 0) =>
          let w := wordsOf l
          if !s.hostBuffers (readDesc p.toNat w) then s.mbDone 0 [1]
          else
            let r := s.launchColl p.toNat w
            r.1.mbDone 0 (bytesOf 1 r.2)
        | (s, _) => s.mbDone 0 [1])

end Sys2Proof.Machine
end

