-- ==== Sys2Proof/Machine/Session.lean ====
section
/-! DEFINITION. Machine/Session.lean: sessions with a client: handshake (14 R481, R482, R485), keys and sealing (14 R483,
15 R509), and their end (14 R484). -/

namespace Sys2Proof.Machine

/-! ### Messages (15 Table 15-6) -/

/-- The header of a message. -/
def aoapHeader (type id seq : Nat) : List Byte :=
  bytesOf 2 0x4F41 ++ bytesOf 1 1 ++ bytesOf 1 type ++ bytesOf 4 id ++ bytesOf 8 seq

/-- A handshake message. -/
def handMsg (type id : Nat) (body : List Byte) : List Byte := aoapHeader type id 0 ++ body

/-- A message the package can read: its length, identification and version are right (15 R509). -/
def aoapShaped (m : List Byte) : Bool :=
  decide (16 ≤ m.length) && decide (m.length ≤ 12288) && natOf (cut m 0 2) == 0x4F41 && natOf (cut m 2 3) == 1

/-- The package answers on a transport instance: the dictionary is live, the instance's host die present, and after the
loss of REFCLK_SYS it is an I3C bus (18 R576). -/
def State.answersOn (s : State) (tr : Transport) : Bool :=
  s.boot.live && !s.cfg.lost.contains (s.transportDie tr) &&
  (!s.pins.sysRefLost || match tr with
    | .i3c _ => true
    | _ => false)

/-! ### Keys (14 R483) -/

/-- The 88 bytes both sides derive. -/
def sessionKeys (secret t2 : List Byte) : List Byte := shake256 88 (ascii "CLP-KEYS" ++ secret ++ t2)

/-- Keys and IV bases: client to package, package to client. -/
def Session.rxKey (x : Session) : List Byte := cut x.keys 0 32
def Session.txKey (x : Session) : List Byte := cut x.keys 32 64
def Session.rxIv (x : Session) : List Byte := cut x.keys 64 76
def Session.txIv (x : Session) : List Byte := cut x.keys 76 88

/-- The nonce of a sequence number: the IV base XOR the number, placed in the last 8 bytes. -/
def sessionNonce (iv : List Byte) (seq : Nat) : List Byte :=
  iv.take 4 ++ List.zipWith (fun a b => a ^^^ b) (iv.drop 4) (bytesOf 8 seq)

/-- Seal a body to the client of a session under its next sequence number. -/
def Session.sealBody (x : Session) (id : Nat) (body : List Byte) : List Byte × Session :=
  let hdr := aoapHeader 0x11 id x.txSeq
  (hdr ++ Config.gcmSeal x.txKey (sessionNonce x.txIv x.txSeq) hdr body, { x with txSeq := x.txSeq + 1 })

/-- A sequence number is acceptable: within 64 of the highest accepted, and new. -/
def Session.seqOk (x : Session) (seq : Nat) : Bool :=
  decide (1 ≤ seq) && decide (seq ≤ x.rxTop + 64) && decide (x.rxTop ≤ seq + 64) && !x.rxSeen.contains seq

/-- Accept a sequence number. -/
def Session.take (x : Session) (seq now : Nat) : Session :=
  let top := max x.rxTop seq
  { x with
    rxTop := top, rxSeen := (seq :: x.rxSeen).filter fun n => decide (top ≤ n + 64), rxCount := x.rxCount + 1
    lastMsg := now }

/-- Open a sealed or close message of a session: its plaintext, when sequence and tag are right. -/
def Session.openBody (x : Session) (hdr body : List Byte) : Option (List Byte) :=
  let seq := natOf (cut hdr 8 16)
  if x.open_ && x.seqOk seq then Config.gcmOpen x.rxKey (sessionNonce x.rxIv seq) hdr body else none

/-- 2^32 messages have been sent in one direction (14 R484). -/
def Session.spent (x : Session) : Bool := decide (2 ^ 32 ≤ x.rxCount) || decide (2 ^ 32 < x.txSeq)

/-- A session ends when its messages are spent. -/
def State.endSpent (s : State) (id : Nat) : State :=
  match fmGet? s.aoap.sessions id with
  | some x => if x.spent then s.endSession id else s
  | none => s

/-! ### Handshake (14 R482) -/

/-- Role of a code (R481). -/
def roleOf : Nat → Option Role
  | 0 => some .anonymous | 1 => some .tenant | 2 => some .owner | 3 => some .maker | 4 => some .enrolling | _ => none

/-- `device_finished`: a status, and the tag over T2. -/
def Session.finished (x : Session) (id status : Nat) (t2 : List Byte) : List Byte :=
  handMsg 4 id (bytesOf 1 status ++ fitTo 16 (Config.gcmSeal x.txKey (sessionNonce x.txIv 0) t2 []))

/-- A refusal before any key exists: the status with a tag that nothing states. -/
def State.refuseHello (s : State) (status : Nat) : State × List (List Byte) :=
  let (tag, s) := s.freeBytes 16
  (s.event 0x0E07 noOne [.half status], [handMsg 4 0 (bytesOf 1 status ++ tag)])

/-- Answer an acceptable `client_hello`: key establishment, T1, and for an anonymous session the end of the handshake. -/
def State.greet (s : State) (tr : Transport) (role : Role) (part : Nat) (body : List Byte) : State × List (List Byte) :=
  let id := s.aoap.nextSession
  let (dn, s) := s.freeBytes 32
  let (rnd, s) := s.freeBytes 32
  let ek := cut body 36 1220
  let m2 := bytesOf 4 id ++ dn ++ fitTo 1088 (Config.kemCipher ek rnd)
  let t1 := shake256 64 (ascii "CLP-SESS" ++ body ++ m2)
  let (sig, s) := s.identitySign [] t1
  let secret := Config.kemSecret ek rnd
  let anon := role == .anonymous
  let x : Session :=
    { role := role, part := part, transport := tr, open_ := anon, clientNonce := cut body 4 36, t1 := t1
      secret := secret, keys := if anon then sessionKeys secret t1 else [], lastMsg := s.now, began := s.now }
  let s := { s with aoap := { s.aoap with
    sessions := fmSet s.aoap.sessions id x, nextSession := id + 1 } }
  (s, handMsg 2 id (m2 ++ sig) :: if anon then [x.finished id 0 t1] else [])

/-- Serve a `client_hello`: the package's messages. -/
def State.hello (s : State) (tr : Transport) (body : List Byte) (agree : Bool) : State × List (List Byte) :=
  if s.sec.life = .scrapped ∨ body.length ≠ 1220 ∨ natOf (cut body 0 2) ≠ 1 then (s, [])
  else if 32 ≤ s.aoap.sessions.length then s.refuseHello 4
  else match roleOf (natOf (cut body 2 3)) with
  | none => s.refuseHello 3
  | some role =>
    if role = .tenant ∧ 4 ≤ natOf (cut body 3 4) then s.refuseHello 3
    else match s.critical agree with
    | (s, true) => s.greet tr role (natOf (cut body 3 4)) body
    | (s, false) => (s, [])

/-- A role is allowed in the present life-cycle state (R481). -/
def State.roleAllowed (s : State) : Role → Bool
  | .anonymous => true
  | .tenant | .owner => s.sec.life == .field
  | .maker => s.sec.life != .scrapped
  | .enrolling => s.sec.life == .provisioned

/-- A client key is accepted for a role (R481). -/
def State.keyAccepted (s : State) (x : Session) (pk : List Byte) : Bool :=
  match x.role with
  | .anonymous => false
  | .tenant => digest32 pk == fmGet s.sec.tenantDigests x.part (List.replicate 32 0)
  | .owner => digest32 pk == s.sec.ownerDigest
  | .maker => s.makerRoot pk
  | .enrolling => true

/-- The status of `device_finished` for a `client_auth`, and the state after the seal pair's decision. -/
def State.authStatus (s : State) (x : Session) (pk sig t2 : List Byte) (agree : Bool) : State × Nat :=
  if !s.roleAllowed x.role then (s, 3)
  else if !s.keyAccepted x pk then (s, 1)
  else if !Config.dsaVerify pk [] t2 sig then (s, 2)
  else match s.critical agree with
  | (s, true) => (s, 0)
  | (s, false) => (s, 1)

/-- Serve a `client_auth` of a handshake under way on the same transport. -/
def State.auth (s : State) (tr : Transport) (id : Nat) (body : List Byte) (agree : Bool) : State × List (List Byte) :=
  match fmGet? s.aoap.sessions id with
  | none => (s, [])
  | some x =>
    if x.open_ ∨ x.transport ≠ tr ∨ body.length ≠ 5261 then (s, [])
    else
      let pk := cut body 0 1952
      let t2 := shake256 64 (x.t1 ++ pk)
      let y := { x with keys := sessionKeys x.secret t2 }
      match s.authStatus x pk (cut body 1952 5261) t2 agree with
      | (s, 0) =>
        (s.setSession id { y with open_ := true, clientPk := pk, lastMsg := s.now, began := s.now }, [y.finished id 0 t2])
      | (s, st) => ((s.endSession id).event 0x0E07 noOne [.half st], [y.finished id st t2])

/-- Put answers on their way to a requester. -/
def State.reply (s : State) (id : Nat) (ms : List (List Byte)) : State := ms.foldl (fun s m => s.send (.aoap id m)) s

/-- CLIENT_HELLO (R482): `body` is the contents of message 1, `agree` whether the seal processors' results agree. -/
def execClientHello (t : Nat) (tr : Transport) (body : List Byte) (agree : Bool) (s : State) :
    Host.Outcome State Fault Refusal :=
  let s := s.arrive t
  if s.answersOn tr then
    let (s, ms) := s.hello tr body agree
    .next (s.reply 0 ms)
  else .next s

/-- CLIENT_AUTH (R482): message 3 of session `id`. -/
def execClientAuth (t : Nat) (tr : Transport) (id : Nat) (body : List Byte) (agree : Bool) (s : State) :
    Host.Outcome State Fault Refusal :=
  let s := s.arrive t
  if s.answersOn tr then
    let (s, ms) := s.auth tr id body agree
    .next (s.reply id ms)
  else .next s

/-! ### End of a session (14 R484) -/

/-- A close message of a session on its transport ends it when sequence and tag are right. -/
def State.closeMsg (s : State) (tr : Transport) (id seq : Nat) (tag : List Byte) : State :=
  match fmGet? s.aoap.sessions id with
  | none => s
  | some x =>
    if x.transport = tr ∧ x.openBody (aoapHeader 0x12 id seq) tag = some [] then s.endSession id else s

/-- SESSION_CLOSE (R484). -/
def execSessionClose (t : Nat) (tr : Transport) (id seq : Nat) (tag : List Byte) (s : State) :
    Host.Outcome State Fault Refusal :=
  let s := s.arrive t
  .next (if s.answersOn tr then s.closeMsg tr id seq tag else s)

/-- SESSION_IDLE_TIMEOUT (R484): 600 s without a message. -/
def execSessionIdleTimeout (t : Nat) (id : Nat) (s : State) : Host.Outcome State Fault Refusal :=
  let s := s.arrive t
  match fmGet? s.aoap.sessions id with
  | some x => .next (if x.lastMsg + 600 * unitsPerSec ≤ s.now then s.endSession id else s)
  | none => .next s

/-- SESSION_LIFETIME_EXPIRY (R484): 24 h from the handshake. -/
def execSessionLifetimeExpiry (t : Nat) (id : Nat) (s : State) : Host.Outcome State Fault Refusal :=
  let s := s.arrive t
  match fmGet? s.aoap.sessions id with
  | some x => .next (if x.began + 86400 * unitsPerSec ≤ s.now then s.endSession id else s)
  | none => .next s

end Sys2Proof.Machine
end

