-- ==== Sys2Proof/Machine/Aoap.lean ====
section
/-! DEFINITION. Machine/Aoap.lean: writes of objects (15 R488 to R501), subscriptions (R507, R508), AOAP messages (R509 to
R512) and their transports (R513 to R517). -/

namespace Sys2Proof.Machine

/-! ### Writes (R497 to R501) -/

/-- Run a command inside another: what both send is kept. -/
def State.nested (s : State) (f : State → Host.Outcome State Fault Refusal) : State :=
  match f s with
  | .next s' => { s' with out := s.out ++ s'.out }
  | _ => s

/-- The command an object's write is, for an object with behaviour of its own (15 Table 15-12 and the chapters it
names); none: a plain object, or a value that is no command. -/
def objectCommand (q : Option Nat) (i u : Nat) (data : List Byte) (o : Outside) (t : Nat) :
    Option (State → Host.Outcome State Fault Refusal) :=
  let v := natOf data
  let p : PartIdx := Fin.ofNat 4 i
  if i = 0x1003 then
    if v = 1 then some (execResetRequestCold t q) else if v = 2 then some (execResetRequestWarm t q) else none
  else if i = 0x1104 then some (execHdmSizeWrite t q (BitVec.ofNat 16 v))
  else if 0x2020 ≤ i ∧ i ≤ 0x2023 ∧ u = 3 then
    if v = 1 then some (execDraftLoad t q p) else if v = 2 then some (execDraftStart t q p)
    else if v = 3 then some (execDraftStop t q p) else if v = 4 then some (execDraftAbort t q p)
    else if v = 5 then some (execDraftUnload t q p) else none
  else if 0x2024 ≤ i ∧ i ≤ 0x2027 then some (execWindowQuorumWrite t q p u (BitVec.ofNat 16 v))
  else if 0x2034 ≤ i ∧ i ≤ 0x2037 ∧ u = 2 then some (execReelReadWrite t q p (BitVec.ofNat 64 v))
  else if i = 0x3001 then some (execRoleMapWrite t q (Fin.ofNat 32 (u - 1)) (BitVec.ofNat 16 v))
  else if i = 0x3011 then some (execPartitionCommit t q (BitVec.ofNat 8 v) o.agree)
  else if 0x3020 ≤ i ∧ i ≤ 0x3024 then some (execShareWrite t q (Fin.ofNat 5 (i - 0x3020)) u (BitVec.ofNat 16 v))
  else if 0x4010 ≤ i ∧ i ≤ 0x4013 then
    if u = 1 then some (execRngKeyWrite t q p (BitVec.ofNat 128 v)) else some (execRngKeyEntropy t q p (BitVec.ofNat 8 v))
  else if i = 0x5140 then
    if bits v 13 12 = 2 then some (execTrafficGenStop t q (BitVec.ofNat 32 v) o.moved o.miss)
    else some (execTrafficGenStart t q (BitVec.ofNat 32 v))
  else if i = 0x6020 then some (execDeadClear t q (BitVec.ofNat 64 v))
  else if i = 0x6030 then some (execOwnForceOpen t q (BitVec.ofNat 64 v))
  else if 0x7014 ≤ i ∧ i ≤ 0x7017 then some (execGroupReform t q p (BitVec.ofNat 8 v))
  else if i = 0x8060 ∧ u = 1 then some (execRestoreRequest t q (BitVec.ofNat 64 v))
  else if i = 0x9002 then some (execLcRequest t q data o.agree)
  else if i = 0x9005 then some (execSvnCommit t q (BitVec.ofNat 32 v))
  else if i = 0x9006 then some (execDebugGrant t q data o.agree)
  else if i = 0x9030 ∧ u = 1 then some (execAttestNonceWrite t q data)
  else if 0x9100 ≤ i ∧ i ≤ 0x9115 then
    some (execRegionEntryWrite t q (Fin.ofNat 32 (i - 0x9100)) (BitVec.ofNat 8 u) (BitVec.ofNat 64 v))
  else if i = 0xA007 then some (execReplanNow t q (BitVec.ofNat 8 v))
  else if i = 0xA012 then some (execClockAccept t q (BitVec.ofNat 16 v))
  else none

/-- Bits of a plain object that a write changes; the others are reserved or RO. -/
def writableBits (i u : Nat) (r : OdRow) : Nat :=
  if 0x1100 ≤ i ∧ i ≤ 0x1103 then 2 ^ 31 + 0x7FF
  else if i = 0x2001 ∧ u = 1 then 7
  else if (i = 0x2001 ∧ u = 8) ∨ i = 0x6001 then 2 ^ 48 - 1
  else if i = 0x3010 then 2 ^ 34 - 1
  else if 0x5100 ≤ i ∧ i ≤ 0x5115 then
    (2 ^ 21 - 1) + (2 ^ 24 - 1) * 2 ^ 64 + (2 ^ 25 - 1) * 2 ^ 96 + (2 ^ 64 - 1) * 2 ^ 128 + (2 ^ 32 - 1) * 2 ^ 192
  else if i = 0x6002 then 0x3F
  else if 0x7010 ≤ i ∧ i ≤ 0x7013 then (2 ^ 59 - 1) + (2 ^ 56 - 1) * 2 ^ 64
  else if i = 0x8002 then 2 ^ 24 - 1
  else if 0x8010 ≤ i ∧ i ≤ 0x8013 then (2 ^ 48 - 1) + (2 ^ 33 - 1) * 2 ^ 64
  else 2 ^ (8 * r.bytes) - 1

/-- A written value is in its object's range (15 R491 and the object's own rule). -/
def State.inRange (s : State) (i u v : Nat) (r : OdRow) : Bool :=
  decide (r.rmin ≤ v) && (match r.rmax with | some m => decide (v ≤ m) | none => true) &&
  (r.ty != .bool || decide (v ≤ 1)) &&
  (if 0x1100 ≤ i ∧ i ≤ 0x1103 then
    let b := bits v 10 0
    (decide (b ≤ 0x3FF) || (decide (0x480 ≤ b) && decide (b ≤ 0x57F))) &&
    (!bit v 31 || decide ((i - 0x1100) * 256 + u < s.odGet 0x1104 1))
  else if 0x1108 ≤ i ∧ i ≤ 0x110B then v % 16 == 0
  else if i = 0x6001 then pathNames (v % 2 ^ 48)
  else if i = 0x2001 ∧ u = 5 then decide (v ≤ s.odGet 0x2001 2)
  else if i = 0x2030 ∧ u = 1 then v % 2 ^ 21 == 0
  else if i = 0x8003 then v == 2 || v == 4 || v == 8 || v == 16
  else if i = 0x8004 then v % 4 == 0
  else if i = 0xA001 ∧ u = 2 then decide (v ≤ odDefault s.cfg i u)
  else if 0x8010 ≤ i ∧ i ≤ 0x8013 then bits v 47 0 % 64 == 0
  else if 0x8050 ≤ i ∧ i ≤ 0x8053 ∧ u = 7 then v % 2 ^ 22 == 0
  else true)

/-- A write of a W1C object: the bits written 1 clear, but those the package sets in the same cycle stay (R501). -/
def State.clearBits (s : State) (i u v : Nat) : State :=
  let keep := fun b => decide (fmGet s.w1cAt (odKey i u * 8 + b) (s.now + 1) = s.now)
  s.odSet i u ((List.range 8).foldl (fun x b => if bit v b && !keep b then setBit x b false else x) (s.odGet i u))

/-- Tenant sessions of a partition whose descriptor changes `valid` or `world` end (14 R484). -/
def State.descChanged (s : State) (p old : Nat) : State :=
  if bits old 33 32 = bits (s.desc p) 33 32 then s
  else { s with aoap := { s.aoap with
    sessions := s.aoap.sessions.filter fun e => !(e.2.role == .tenant && e.2.part == p) } }

/-- What follows the write of a plain object. -/
def State.afterWrite (s : State) (i u old : Nat) : State :=
  if i = 0x2001 then
    let s := if u = 1 ∧ bit (s.odGet i u) 2 ∧ !bit old 2 then
      s.setCad { s.cad with treadle := { s.cad.treadle with last := .none } } else s
    s.selectSource
  else if i = 0x3010 then s.descChanged (u - 1) old
  else s

/-- Apply a checked write of a plain object. -/
def State.applyWrite (s : State) (i u : Nat) (r : OdRow) (data : List Byte) : State :=
  let v := natOf data
  if r.acc = .w1c then s.clearBits i u v
  else if i = 0x9021 then s.odSet i u (packVar data)
  else if 0x9041 ≤ i ∧ i ≤ 0x9044 then
    { s with sec := { s.sec with tenantDigests := fmSet s.sec.tenantDigests (i - 0x9041) data } }
  else
    let m := writableBits i u r
    if 0x5100 ≤ i ∧ i ≤ 0x5115 ∧ u = 0x41 then
      forN 65 s fun s ch => s.odSet i (ch + 1) (s.odGet i (ch + 1) - (s.odGet i (ch + 1) &&& m) + (v &&& m))
    else
    let old := s.odGet i u
    (s.odSet i u ((old - (old &&& m)) + (v &&& m))).afterWrite i u old

/-- A plain object that its chapter holds for a while: the partition of a persistent range runs (13 R433); a doff is
being written (13 R454). -/
def State.heldObject (s : State) (i u : Nat) : Option State :=
  if 0x8010 ≤ i ∧ i ≤ 0x8013 ∧ s.partBusy (i - 0x8010) then some s
  else if 0x8050 ≤ i ∧ i ≤ 0x8053 ∧ 5 ≤ u ∧ u ≤ 7 ∧ s.odGet i 4 ≠ 0 then some (s.event 0x0D14 (ofPart (i - 0x8050)) [])
  else none

/-- Serve a write request. -/
def State.writeObject (s : State) (q : Option Nat) (idx sub : Nat) (whole : Bool) (data : List Byte) (o : Outside) : State :=
  if !s.boot.live then s.answer stSilent []
  else if whole then s.answer (if wholeRecord idx then stReadOnly else stNoObject) []
  else match globalOf idx sub with
  | none => s.answer stNoObject []
  | some (i, u) =>
    match odRow? i u with
    | none => s.answer stNoObject []
    | some r =>
      let st := s.refusal q i u true
      let fits := if r.var then decide (data.length ≤ r.bytes) else data.length == r.bytes
      if !fits then s.answer (st.getD stLength) []
      else match objectCommand q i u data o s.now with
      | some f => s.nested f
      | none =>
        if st.isSome then s.answer (st.getD 0) []
        else if !s.inRange i u (natOf data) r ∨ r.acc = .wo then s.answer stRange []
        else match s.heldObject i u with
        | some s' => s'.answer stRejected []
        | none => (s.applyWrite i u r data).answer stOk []

/-- OD_WRITE (R497): a WRITE request of an object. -/
def execOdWrite (t : Nat) (q : Option Nat) (idx : BitVec 16) (sub : BitVec 8) (whole : Bool) (data : List Byte)
    (o : Outside) (s : State) : Host.Outcome State Fault Refusal :=
  .next ((s.arrive t).writeObject q idx.toNat sub.toNat whole data o)

/-! ### Subscriptions (R507, R508) -/

/-- A subscription a request's data describe; the status of one that cannot be. -/
def State.subKind (s : State) (q : Option Nat) (idx sub : Nat) (d : List Byte) : Except Nat SubKind :=
  if d.length ≠ 8 ∨ natOf (cut d 1 2) ≠ 0 then .error stMalformed
  else if natOf (cut d 0 1) = 0 then .ok (.event (natOf (cut d 2 4)) (natOf (cut d 4 6)))
  else if natOf (cut d 0 1) = 1 then
    let period := natOf (cut d 2 6)
    match globalOf idx sub with
    | none => .error stNoObject
    | some (i, u) =>
      match s.refusal q i u false with
      | some st => .error st
      | none => if 1 ≤ period ∧ period ≤ 60000 then .ok (.value idx sub period) else .error stRange
  else .error stMalformed

/-- Serve a SUBSCRIBE request. -/
def State.subscribe (s : State) (q : Option Nat) (idx sub : Nat) (d : List Byte) : State :=
  if !s.boot.live then s.answer stSilent []
  else match q, s.sessionOf q with
  | some id, some x =>
    match s.subKind q idx sub d with
    | .error st => s.answer st []
    | .ok k =>
      if 16 ≤ x.subs.length then s.answer stTooMany []
      else
        let due := match k with | .value _ _ period => s.now + period * unitsPerMs | .event .. => 0
        let n := x.nextSub % 65536
        (s.setSession id { x with subs := x.subs ++ [⟨n, k, due⟩], nextSub := n + 1 }).answer stOk (bytesOf 2 n)
  | _, _ => s.answer stNoSession []

/-- OD_SUBSCRIBE (R507): `data` is the request's eight bytes. -/
def execOdSubscribe (t : Nat) (q : Option Nat) (idx : BitVec 16) (sub : BitVec 8) (data : List Byte) (s : State) :
    Host.Outcome State Fault Refusal :=
  .next ((s.arrive t).subscribe q idx.toNat sub.toNat data)

/-- Serve an UNSUBSCRIBE request. -/
def State.unsubscribe (s : State) (q : Option Nat) (d : List Byte) : State :=
  if !s.boot.live then s.answer stSilent []
  else match q, s.sessionOf q with
  | some id, some x =>
    if d.length ≠ 2 then s.answer stMalformed []
    else if x.subs.any fun b => b.id == natOf d then
      (s.setSession id { x with subs := x.subs.filter fun b => b.id != natOf d }).answer stOk []
    else s.answer stRange []
  | _, _ => s.answer stNoSession []

/-- OD_UNSUBSCRIBE (R507): `data` is the subscription id. -/
def execOdUnsubscribe (t : Nat) (q : Option Nat) (data : List Byte) (s : State) : Host.Outcome State Fault Refusal :=
  .next ((s.arrive t).unsubscribe q data)

/-- VALUE_NOTIFY (R507, R508): the period of a value subscription is over. -/
def execValueNotify (t : Nat) (id sid : Nat) (s : State) : Host.Outcome State Fault Refusal :=
  let s := s.arrive t
  match fmGet? s.aoap.sessions id with
  | none => .next s
  | some x =>
    match x.subs.find? fun b => b.id == sid with
    | some ⟨_, .value idx sub period, due⟩ =>
      if s.now < due ∨ !s.boot.live ∨ !x.open_ then .next s
      else
        let subs := x.subs.map fun b => if b.id = sid then { b with due := due + period * unitsPerMs } else b
        let r := (s.setSession id { x with subs := subs }).readObject (some id) idx sub false true
        let s := { r with ans := {} }
        .next (if r.ans.status = stOk then (s.notify id 0x81 idx sub sid r.ans.data).endSpent id else s)
    | _ => .next s

/-! ### Requests (R511, R512) -/

/-- A request of a message (Table 15-7). -/
structure AoapReq where
  op : Nat
  sub : Nat
  idx : Nat
  rid : Nat
  status : Nat
  flags : Nat
  data : List Byte
  deriving DecidableEq, Repr

/-- The requests of a body, when it holds 1 to 64 whole ones. -/
def parseReqs : Nat → List Byte → Option (List AoapReq)
  | 0, l => if l.isEmpty then some [] else none
  | n + 1, l =>
    if l.isEmpty then some []
    else
      let len := natOf (cut l 8 12)
      if l.length < 12 + len then none
      else
        let r : AoapReq := ⟨natOf (cut l 0 1), natOf (cut l 1 2), natOf (cut l 2 4), natOf (cut l 4 6), natOf (cut l 6 7), natOf (cut l 7 8), cut l 12 (12 + len)⟩
        (parseReqs n (l.drop (12 + len))).map fun rs => r :: rs

/-- A response (R511). -/
def response (op sub idx rid status flags : Nat) (data : List Byte) : List Byte :=
  bytesOf 1 op ++ bytesOf 1 sub ++ bytesOf 2 idx ++ bytesOf 2 rid ++ bytesOf 1 status ++ bytesOf 1 flags ++
  bytesOf 4 data.length ++ data

/-- A request of a plain message is served without a session (R510). -/
def State.plainServed (s : State) (r : AoapReq) : Bool := s.plainObject r.idx && decide (r.op ≤ 3)

/-- Serve one request: the answer stands in `ans`. -/
def State.serveReq (s : State) (q : Option Nat) (plain : Bool) (o : Outside) (r : AoapReq) : State :=
  let whole := bit r.flags 0
  if r.status ≠ 0 ∨ 2 ≤ r.flags ∨ r.op = 0 ∨ 5 < r.op then s.answer stMalformed []
  else if plain && !s.plainServed r then s.answer stNoSession []
  else match r.op with
  | 1 => if r.data.isEmpty then s.readObject q r.idx r.sub whole o.agree else s.answer stMalformed []
  | 2 => s.writeObject q r.idx r.sub whole r.data o
  | 3 => if r.data.isEmpty then s.describeObject q r.idx r.sub whole else s.answer stMalformed []
  | 4 => s.subscribe q r.idx r.sub r.data
  | _ => s.unsubscribe q r.data

/-- Serve requests in order; `room` bytes are left for responses, and once one does not fit the rest are not applied. -/
def State.serveReqs (q : Option Nat) (plain : Bool) (o : Outside) : Nat → State → List AoapReq → State × List Byte
  | _, s, [] => (s, [])
  | room, s, r :: rs =>
    let s' := s.serveReq q plain o r
    let l := response (r.op + 0x40) r.sub r.idx r.rid s'.ans.status r.flags (if s'.ans.status = stOk then s'.ans.data else [])
    if l.length ≤ room then
      let (s, m) := State.serveReqs q plain o (room - l.length) s' rs
      (s, l ++ m)
    else (s, (r :: rs).flatMap fun r => response (r.op + 0x40) r.sub r.idx r.rid stTooLarge r.flags [])

/-- Serve the body of a plain or sealed message: the body of the answer, of at most `room` bytes. -/
def State.serveBody (s : State) (q : Option Nat) (plain : Bool) (o : Outside) (room : Nat) (body : List Byte) :
    State × List Byte :=
  match parseReqs 64 body with
  | some (r :: rs) =>
    let (s, l) := State.serveReqs q plain o room s (r :: rs)
    ({ s with ans := {} }, l)
  | _ => (s, response 0x40 0 0 0 stMalformed 0 [])

/-! ### Messages (R509, R510) -/

/-- Serve a sealed message of a session: dropped when its transport, sequence or tag is wrong. -/
def State.serveSealed (s : State) (tr : Transport) (m : List Byte) (o : Outside) : State × List (List Byte) :=
  let id := natOf (cut m 4 8)
  let seq := natOf (cut m 8 16)
  match fmGet? s.aoap.sessions id with
  | none => (s, [])
  | some x =>
    if x.transport ≠ tr then (s, [])
    else match x.openBody (m.take 16) (m.drop 16) with
    | none => (s, [])
    | some body =>
      let x := x.take seq s.now
      let (s, l) := (s.setSession id x).serveBody (some id) false o 12256 body
      match fmGet? s.aoap.sessions id with
      | some y =>
        let (ans, y) := y.sealBody id l
        ((s.setSession id y).endSpent id, [ans])
      | none => (s, [(x.sealBody id l).1])

/-- Serve a message that arrives on a transport instance: the package's answers. -/
def State.serve (s : State) (tr : Transport) (m : List Byte) (o : Outside) : State × List (List Byte) :=
  if !s.answersOn tr || !aoapShaped m then (s, [])
  else
    let id := natOf (cut m 4 8)
    let body := m.drop 16
    match natOf (cut m 3 4) with
    | 0x01 => s.hello tr body o.agree
    | 0x03 => s.auth tr id body o.agree
    | 0x10 =>
      let (s, l) := s.serveBody none true o 12272 body
      (s, [aoapHeader 0x10 0 0 ++ l])
    | 0x11 => s.serveSealed tr m o
    | 0x12 => (s.closeMsg tr id (natOf (cut m 8 16)) body, [])
    | _ => (s, [])

/-- AOAP_MESSAGE (R496, R509 to R511): a message reaches the steward. -/
def execAoapMessage (t : Nat) (tr : Transport) (m : List Byte) (o : Outside) (s : State) :
    Host.Outcome State Fault Refusal :=
  let (s, ms) := (s.arrive t).serve tr m o
  .next (s.reply (natOf (cut m 4 8)) ms)

/-! ### Transports (R513 to R517) -/

/-- Write the transports' state. -/
def State.setAoap (s : State) (a : Aoap) : State := { s with aoap := a }

/-- A segment header fits its message and its data (Table 15-10). -/
def segmentOk (seg nseg total rsv len : Nat) : Bool :=
  rsv == 0 && decide (seg < nseg) && decide (nseg ≤ 12) && decide (16 ≤ total) && decide (total ≤ 12288) &&
  nseg == ceilDiv total 1024 && len == (if seg + 1 = nseg then total - 1024 * (nseg - 1) else 1024)

/-- The whole message of a reassembly. -/
def Reasm.whole (r : Reasm) : Option (List Byte) :=
  if r.segs.length = r.nseg then some (r.segs.flatMap fun e => e.2) else none

/-- Serve a reassembled message, and answer in segments with its message id. -/
def State.serveUdp (s : State) (port : Bool) (src msgId : Nat) (m : List Byte) (o : Outside) : State :=
  let (s, ms) := s.serve (.ethernet port) m o
  ms.foldl (fun s a => s.send (.udp port src msgId a)) s

/-- UDP_SEGMENT (R513, R514): from the source address and port named `src`. -/
def execUdpSegment (t : Nat) (port : Bool) (src msgId seg nseg total rsv : Nat) (data : List Byte) (o : Outside)
    (s : State) : Host.Outcome State Fault Refusal :=
  let s := s.arrive t
  let key := 2 * src + b2n port
  let mine := fun (r : Reasm) => r.source == key && r.msgId == msgId
  let rest := s.aoap.reasm.filter fun r => !mine r
  if !s.answersOn (.ethernet port) then .next s
  else match s.aoap.reasm.find? mine with
  | some r =>
    if r.nseg ≠ nseg ∨ r.total ≠ total then .next (s.setAoap { s.aoap with reasm := rest })
    else if fmHas r.segs seg ∨ !segmentOk seg nseg total rsv data.length then .next s
    else
      let r := { r with segs := fmSet r.segs seg data }
      match r.whole with
      | some m => .next ((s.setAoap { s.aoap with reasm := rest }).serveUdp port src msgId m o)
      | none => .next (s.setAoap { s.aoap with reasm := rest ++ [r] })
  | none =>
    if !segmentOk seg nseg total rsv data.length then .next s
    else if nseg = 1 then .next (s.serveUdp port src msgId data o)
    else if 16 ≤ (s.aoap.reasm.filter fun r => r.source == key).length then .next s
    else .next (s.setAoap { s.aoap with reasm := s.aoap.reasm ++ [⟨key, msgId, nseg, total, s.now, [(seg, data)]⟩] })

/-- UDP_REASSEMBLY_TIMEOUT (R514): 100 ms after the first segment. -/
def execUdpReassemblyTimeout (t : Nat) (port : Bool) (src msgId : Nat) (s : State) : Host.Outcome State Fault Refusal :=
  let s := s.arrive t
  .next (s.setAoap { s.aoap with
    reasm := s.aoap.reasm.filter fun r =>
      !(r.source == 2 * src + b2n port && r.msgId == msgId && decide (r.first + 100 * unitsPerMs ≤ s.now)) })

/-- MCTP_MESSAGE (R515): the body of a message of type 0x7F on an I3C bus. -/
def execMctpMessage (t : Nat) (bus : Bool) (body : List Byte) (o : Outside) (s : State) : Host.Outcome State Fault Refusal :=
  let s := s.arrive t
  if 12292 < body.length ∨ body.length < 4 ∨ natOf (body.take 4) ≠ 0x1E7B4 then .next s
  else
    let (s, ms) := s.serve (.i3c bus) (body.drop 4) o
    .next (ms.foldl (fun s a => s.send (.mctp bus (bytesOf 4 0x1E7B4 ++ a))) s)

/-- MB_AOAP_MESSAGE (R516; 17 R551): mailbox command 0xC100. -/
def execMbAoapMessage (t : Nat) (m : List Byte) (o : Outside) (s : State) : Host.Outcome State Fault Refusal :=
  .next ((s.arrive t).mailbox (decide (m.length ≤ 12288)) fun s =>
    let (s, ms) := s.serve .mailbox m o
    s.mbDone 0 ms.flatten)

/-- MB_NOTIFY_DRAIN (R516): mailbox command 0xC101. A notification of a session that has ended is gone. -/
def execMbNotifyDrain (t : Nat) (s : State) : Host.Outcome State Fault Refusal :=
  .next ((s.arrive t).mailbox true fun s =>
    match s.aoap.mbQueue.filter fun e => fmHas s.aoap.sessions e.1 with
    | [] => (s.setAoap { s.aoap with mbQueue := [] }).mbDone 0 []
    | (id, l) :: rest =>
      let s := s.setAoap { s.aoap with mbQueue := rest }
      match fmGet? s.aoap.sessions id with
      | none => s.mbDone 0 []
      | some x =>
        let (m, x) := x.sealBody id l
        ((s.setSession id x).endSpent id).mbDone 0 m)

/-- ETH_LINK_CHANGE (R517): a management Ethernet link goes up or down. -/
def execEthLinkChange (t : Nat) (port up : Bool) (s : State) : Host.Outcome State Fault Refusal :=
  let s := s.arrive t
  if s.cfg.lost.contains (30 + b2n port) ∨ s.pins.sysRefLost then .next s
  else .next (s.odSet (0x1010 + b2n port) 5 (b2n up))

/-- MCTP_EID_ASSIGN (R515): the bus owner assigns the endpoint id of an I3C bus. -/
def execMctpEidAssign (t : Nat) (bus : Bool) (eid : BitVec 8) (s : State) : Host.Outcome State Fault Refusal :=
  let s := s.arrive t
  if s.cfg.lost.contains (30 + b2n bus) then .next s
  else .next (s.odSet 0x1020 (1 + b2n bus) eid.toNat)

end Sys2Proof.Machine
end

