-- ==== Sys2Proof/Machine/CadenceRows.lean ====
section
/-! DEFINITION. Machine/CadenceRows.lean: the rows of the cadence unit (02 R55 to R66; 12 R410; 18 R577). -/

namespace Sys2Proof.Machine

/-- TICK_BOUNDARY (R60, R62): the tick that runs ends at its instant; before it nothing happens. -/
def execTickBoundary (t : Nat) (s : State) : Host.Outcome State Fault Refusal :=
  let s := s.arrive t
  if s.cad.ticks ∧ s.cad.due ≤ s.now then .next (s.tickCore s.cad.due) else .next s

/-- CAD_1PPS_EDGE (R58, 18 R577): a rising edge that passes the 500 ns filter. -/
def execCad1ppsEdge (t : Nat) (pulseNs : Nat) (ref10mOk : Bool) (s : State) : Host.Outcome State Fault Refusal :=
  let s := s.arrive t
  if pulseNs < 500 then .next s
  else .next (s.setCad { s.cad with pps := s.cad.pps.edge s.now ref10mOk }).selectSource

/-- CAD_1PPS_TIMEOUT (R58): no rising edge within 1 s + 1 ms of the previous one. -/
def execCad1ppsTimeout (t : Nat) (s : State) : Host.Outcome State Fault Refusal :=
  let s := s.arrive t
  let overdue := match s.cad.pps.last with
    | some x => decide (unitsPerSec + unitsPerMs ≤ s.now - x)
    | none => true
  if overdue then .next (s.setCad { s.cad with pps := { s.cad.pps with good := 0, healthy := false } }).selectSource
  else .next s

/-- CAD_REF10M_TIMEOUT (R58). -/
def execCadRef10mTimeout (t : Nat) (s : State) : Host.Outcome State Fault Refusal := .next (s.arrive t).ref10mBad

/-- CAD_REF10M_OUT_OF_RANGE (R58, 18 Table 18-6). -/
def execCadRef10mOutOfRange (t : Nat) (s : State) : Host.Outcome State Fault Refusal := .next (s.arrive t).ref10mBad

/-- TREADLE_EDGE (R59, 18 R577): an edge of TREADLE_IN that passes the filter; only the selected edge counts. -/
def execTreadleEdge (t : Nat) (falling : Bool) (pulseNs : Nat) (s : State) : Host.Outcome State Fault Refusal :=
  let s := s.arrive t
  if pulseNs < 500 ∨ s.odGet 0x2001 3 ≠ b2n falling then .next s
  else
    let q := s.cad.treadle
    let enabled := bit (s.odGet 0x2001 1) 2
    match q.last with
    | none =>
      let s := s.setCad { s.cad with treadle := { q with last := some s.now } }
      .next (if enabled then s.reelAll 3 2 [0] else s)
    | some x =>
      let period := s.now - x
      let p10 := (2 * period + unitsPer10ns) / (2 * unitsPer10ns)
      let nom := s.treadleNominal
      let ok := decide (95 * nom ≤ 100 * period) && decide (100 * period ≤ 105 * nom)
      let s := s.odSet 0x2002 3 (min p10 0xFFFFFFFF)
      let s := s.setCad { s.cad with treadle := { q with last := some s.now, period := period } }
      let s := if enabled then s.reelAll 3 2 [min p10 0xFFFFFFFF] else s
      if ok then
        let n := min 16 (q.good + 1)
        .next (s.setCad { s.cad with treadle :=
          { last := some s.now, period := period, good := n, inRange := true, healthy := q.healthy || n == 16 } }).selectSource
      else .next s.treadleBad

/-- TREADLE_TIMEOUT (R59): no selected edge 1.05 × K × tick_period after the previous one. -/
def execTreadleTimeout (t : Nat) (s : State) : Host.Outcome State Fault Refusal :=
  let s := s.arrive t
  let overdue := match s.cad.treadle.last with
    | some x => decide (105 * s.treadleNominal ≤ 100 * (s.now - x))
    | none => false
  .next (if overdue then s.treadleBad else s)

/-- PTP_MESSAGE (R57, R62, 12 R410): a message of the delay request-response mechanism on a port, with the master's tick
counter and period and the measured offset in ps: by how much the package's boundaries come after the master's. -/
def execPtpMessage (t : Nat) (port : PortIdx) (kind : PtpKind) (src : BitVec 48) (tick : BitVec 64)
    (period : BitVec 32) (offsetPs : Int) (s : State) : Host.Outcome State Fault Refusal :=
  let s := s.arrive t
  let n := port.val
  if !s.ptpPort n then .next s
  else match kind with
  | .delayReq => .next (s.send (.ptp n 3 s.cad.tick.toNat s.tickPeriod))
  | _ =>
    let offset := offsetPs - toSigned 32 (s.odGet 0x2006 (n + 1)) / 2
    let s := s.odSet 0x2007 (n + 1) (ofSigned 32 offset)
    let master := s.odGet 0x2001 8 % 2 ^ 48
    if src.toNat ≠ master ∨ master = noPath then .next s
    else
      let s := s.setCad { s.cad with
        inBand := s.cad.inBand.hear s.now n tick.toNat period.toNat kind s.cad.tick.toNat offset }
      .next (s.adoptPeriod period.toNat).selectSource

/-- DELAY_REQ_SEND (R57): a follower measures the path delay on its in-band port. -/
def execDelayReqSend (t : Nat) (s : State) : Host.Outcome State Fault Refusal :=
  let s := s.arrive t
  match s.cad.inBand.port with
  | some n =>
    .next ((s.setCad { s.cad with inBand := { s.cad.inBand with
      delayReq := fmSet s.cad.inBand.delayReq n s.now } }).send (.ptp n 2 0 0))
  | none => .next s

/-- CADENCE_HOLDOVER_LIMIT (R61): holdover has lasted longer than holdover_limit. -/
def execCadenceHoldoverLimit (t : Nat) (s : State) : Host.Outcome State Fault Refusal :=
  let s := s.arrive t
  match s.cad.holdSince with
  | some x =>
    if s.cad.state = .holdover ∧ ¬ s.cad.holdRaised ∧ s.odGet 0x2001 9 * unitsPerMs < s.now - x then
      .next ((s.setCad { s.cad with holdRaised := true }).event 0x0205 noOne [])
    else .next s
  | none => .next s

/-- CADENCE_MASTER_HANDOVER (R64): FX0's broadcast has not arrived 100 ns after the boundary; FX1 issues that boundary
itself, 100 ns late, and becomes master. DEDUCED (log 56): the boundary is measured and counted like any other. -/
def execCadenceMasterHandover (t : Nat) (s : State) : Host.Outcome State Fault Refusal :=
  let s := s.arrive t
  let late := s.cad.due + 100 * unitsPerNs
  if s.cad.masterFx1 ∨ s.cad.dead ∨ ¬ s.cad.everLocked ∨ s.cfg.lost.contains 23 ∨ s.now < late then .next s
  else .next (s.handover.tickCore late)

end Sys2Proof.Machine
end

