-- ==== Sys2Proof/Machine/StationRows.lean ====
section
/-! DEFINITION. Machine/StationRows.lean: the station commands (03 R113 to R119; 05; 06; 08 R282; 10 R373; 12 R417; 13 R451):
issue, and the way to their station. What they do there stands with the stations; Settle.lean starts them. Then the engines'
own events: tile steps, passes, tiles on their rovings. -/

namespace Sys2Proof.Machine

/-! ### The issue unit and the scalar unit (R114, R119) -/

/-- NOP (R114): a signed marker. -/
def execNop (t : Nat) (c : Cmd) (s : State) : Host.Outcome State Fault Refusal :=
  s.run t c 0x00 fun s _ => s

/-- SET_BASE (R114): the segment base of the commands after it. -/
def execSetBase (t : Nat) (c : Cmd) (s : State) : Host.Outcome State Fault Refusal :=
  s.run t c 0x01 fun s i => s.setBase i c

/-- S_SET_LO (R119): the low half of s[a]. -/
def execSSetLo (t : Nat) (c : Cmd) (s : State) : Host.Outcome State Fault Refusal :=
  s.run t c 0x10 fun s i => s.landSreg i c (c.operand % 2 ^ 32) (2 ^ 32 - 1)

/-- S_SET_HI (R119): the high half of s[a]. -/
def execSSetHi (t : Nat) (c : Cmd) (s : State) : Host.Outcome State Fault Refusal :=
  s.run t c 0x11 fun s i => s.landSreg i c ((c.operand % 2 ^ 32) <<< 32) (2 ^ 64 - 2 ^ 32)

/-- S_LOAD (R119): 8 bytes of the shared bobbin into s[a]. -/
def execSLoad (t : Nat) (c : Cmd) (s : State) : Host.Outcome State Fault Refusal :=
  s.run t c 0x12 fun s i => s.sLoad i c

/-- S_STORE (R119): s[b] into 8 bytes of the shared bobbin. -/
def execSStore (t : Nat) (c : Cmd) (s : State) : Host.Outcome State Fault Refusal :=
  s.run t c 0x13 fun s i => s.sStore i c

/-- S_INT (R119): a 64-bit integer operation. -/
def execSInt (t : Nat) (c : Cmd) (s : State) : Host.Outcome State Fault Refusal :=
  s.run t c 0x14 fun s i => s.sOp i c fun a b =>
    (sInt (c.mod % 16) (BitVec.ofNat 64 a) (BitVec.ofNat 64 b)).map BitVec.toNat

/-- S_FP64 (R119, R120): an FP64 operation without flags. -/
def execSFp64 (t : Nat) (c : Cmd) (s : State) : Host.Outcome State Fault Refusal :=
  s.run t c 0x15 fun s i => s.sOp i c (sFp64 (c.mod % 16))

/-! ### Whorl commands (05) -/

/-- W_SETUP (R164, Table 05-3). -/
def execWSetup (t : Nat) (c : Cmd) (s : State) : Host.Outcome State Fault Refusal :=
  s.run t c 0x20 fun s i => s.dispatch1 i c
/-- W_MMA (R160, R165): one tile step; `TILE_STEP_START` is the cycle in which it starts. -/
def execWMma (t : Nat) (c : Cmd) (s : State) : Host.Outcome State Fault Refusal :=
  s.run t c 0x21 fun s i => s.dispatch0 i c
/-- W_BATT (R186). -/
def execWBatt (t : Nat) (c : Cmd) (s : State) : Host.Outcome State Fault Refusal :=
  s.run t c 0x22 fun s i => s.dispatch1 i c
/-- W_ACC_OUT (R189). -/
def execWAccOut (t : Nat) (c : Cmd) (s : State) : Host.Outcome State Fault Refusal :=
  s.run t c 0x23 fun s i => s.dispatch0 i c
/-- W_ACC_IN (R190). -/
def execWAccIn (t : Nat) (c : Cmd) (s : State) : Host.Outcome State Fault Refusal :=
  s.run t c 0x24 fun s i => s.dispatch0 i c

/-! ### Twist commands (06) -/

/-- Send a twist command with the scalars it uses (R206, Table 06-3). -/
def State.dispatchT (s : State) (i : Issued) (c : Cmd) : State :=
  match readsA c, readsB c with
  | false, false => s.dispatch0 i c
  | true, false => s.dispatch1 i c
  | true, true => s.dispatch2 i c
  | false, true =>
    match s.readSreg i c.sb with
    | (s, some b) => s.dispatch i c 0 b.toNat
    | (s, none) => s

/-- T_LOAD (R209). -/
def execTLoad (t : Nat) (c : Cmd) (s : State) : Host.Outcome State Fault Refusal :=
  s.run t c 0x40 fun s i => s.dispatchT i c
/-- T_ACC (R210). -/
def execTAcc (t : Nat) (c : Cmd) (s : State) : Host.Outcome State Fault Refusal :=
  s.run t c 0x41 fun s i => s.dispatchT i c
/-- T_SCALE (R207, 03 R121). -/
def execTScale (t : Nat) (c : Cmd) (s : State) : Host.Outcome State Fault Refusal :=
  s.run t c 0x48 fun s i => s.dispatchT i c
/-- T_ADD (R207). -/
def execTAdd (t : Nat) (c : Cmd) (s : State) : Host.Outcome State Fault Refusal :=
  s.run t c 0x50 fun s i => s.dispatchT i c
/-- T_SUB (R207). -/
def execTSub (t : Nat) (c : Cmd) (s : State) : Host.Outcome State Fault Refusal :=
  s.run t c 0x51 fun s i => s.dispatchT i c
/-- T_MUL (R207). -/
def execTMul (t : Nat) (c : Cmd) (s : State) : Host.Outcome State Fault Refusal :=
  s.run t c 0x52 fun s i => s.dispatchT i c
/-- T_DIV (R207). -/
def execTDiv (t : Nat) (c : Cmd) (s : State) : Host.Outcome State Fault Refusal :=
  s.run t c 0x53 fun s i => s.dispatchT i c
/-- T_MIN (R207). -/
def execTMin (t : Nat) (c : Cmd) (s : State) : Host.Outcome State Fault Refusal :=
  s.run t c 0x54 fun s i => s.dispatchT i c
/-- T_MAX (R207). -/
def execTMax (t : Nat) (c : Cmd) (s : State) : Host.Outcome State Fault Refusal :=
  s.run t c 0x55 fun s i => s.dispatchT i c
/-- T_FMA (R207). -/
def execTFma (t : Nat) (c : Cmd) (s : State) : Host.Outcome State Fault Refusal :=
  s.run t c 0x56 fun s i => s.dispatchT i c
/-- T_SQRT (R207). -/
def execTSqrt (t : Nat) (c : Cmd) (s : State) : Host.Outcome State Fault Refusal :=
  s.run t c 0x57 fun s i => s.dispatchT i c
/-- T_SIGN (R207). -/
def execTSign (t : Nat) (c : Cmd) (s : State) : Host.Outcome State Fault Refusal :=
  s.run t c 0x58 fun s i => s.dispatchT i c
/-- T_FUNC (R214). -/
def execTFunc (t : Nat) (c : Cmd) (s : State) : Host.Outcome State Fault Refusal :=
  s.run t c 0x60 fun s i => s.dispatchT i c
/-- T_CMP (R207). -/
def execTCmp (t : Nat) (c : Cmd) (s : State) : Host.Outcome State Fault Refusal :=
  s.run t c 0x64 fun s i => s.dispatchT i c
/-- T_LIVE (R207). -/
def execTLive (t : Nat) (c : Cmd) (s : State) : Host.Outcome State Fault Refusal :=
  s.run t c 0x65 fun s i => s.dispatchT i c
/-- T_TRI (R207). -/
def execTTri (t : Nat) (c : Cmd) (s : State) : Host.Outcome State Fault Refusal :=
  s.run t c 0x66 fun s i => s.dispatchT i c
/-- T_SEL (R207). -/
def execTSel (t : Nat) (c : Cmd) (s : State) : Host.Outcome State Fault Refusal :=
  s.run t c 0x67 fun s i => s.dispatchT i c
/-- T_RSUM (R215). -/
def execTRsum (t : Nat) (c : Cmd) (s : State) : Host.Outcome State Fault Refusal :=
  s.run t c 0x68 fun s i => s.dispatchT i c
/-- T_RMAX (R215). -/
def execTRmax (t : Nat) (c : Cmd) (s : State) : Host.Outcome State Fault Refusal :=
  s.run t c 0x69 fun s i => s.dispatchT i c
/-- T_RMIN (R215). -/
def execTRmin (t : Nat) (c : Cmd) (s : State) : Host.Outcome State Fault Refusal :=
  s.run t c 0x6A fun s i => s.dispatchT i c
/-- T_CSUM (R215). -/
def execTCsum (t : Nat) (c : Cmd) (s : State) : Host.Outcome State Fault Refusal :=
  s.run t c 0x6B fun s i => s.dispatchT i c
/-- T_CMAX (R215). -/
def execTCmax (t : Nat) (c : Cmd) (s : State) : Host.Outcome State Fault Refusal :=
  s.run t c 0x6C fun s i => s.dispatchT i c
/-- T_CMIN (R215). -/
def execTCmin (t : Nat) (c : Cmd) (s : State) : Host.Outcome State Fault Refusal :=
  s.run t c 0x6D fun s i => s.dispatchT i c
/-- T_CONV (R217). -/
def execTConv (t : Nat) (c : Cmd) (s : State) : Host.Outcome State Fault Refusal :=
  s.run t c 0x6E fun s i => s.dispatchT i c
/-- T_SMAX_MAX (R220). -/
def execTSmaxMax (t : Nat) (c : Cmd) (s : State) : Host.Outcome State Fault Refusal :=
  s.run t c 0x70 fun s i => s.dispatchT i c
/-- T_SMAX_SUM (R220). -/
def execTSmaxSum (t : Nat) (c : Cmd) (s : State) : Host.Outcome State Fault Refusal :=
  s.run t c 0x71 fun s i => s.dispatchT i c
/-- T_SMAX_OUT (R220). -/
def execTSmaxOut (t : Nat) (c : Cmd) (s : State) : Host.Outcome State Fault Refusal :=
  s.run t c 0x72 fun s i => s.dispatchT i c
/-- T_SMAX_DOT (R220). -/
def execTSmaxDot (t : Nat) (c : Cmd) (s : State) : Host.Outcome State Fault Refusal :=
  s.run t c 0x73 fun s i => s.dispatchT i c
/-- T_SMAX_BWD (R220). -/
def execTSmaxBwd (t : Nat) (c : Cmd) (s : State) : Host.Outcome State Fault Refusal :=
  s.run t c 0x74 fun s i => s.dispatchT i c
/-- T_NORM_SUM (R222). -/
def execTNormSum (t : Nat) (c : Cmd) (s : State) : Host.Outcome State Fault Refusal :=
  s.run t c 0x75 fun s i => s.dispatchT i c
/-- T_NORM_VAR (R222). -/
def execTNormVar (t : Nat) (c : Cmd) (s : State) : Host.Outcome State Fault Refusal :=
  s.run t c 0x76 fun s i => s.dispatchT i c
/-- T_NORM_OUT (R222). -/
def execTNormOut (t : Nat) (c : Cmd) (s : State) : Host.Outcome State Fault Refusal :=
  s.run t c 0x77 fun s i => s.dispatchT i c
/-- T_NORM_DOT (R222). -/
def execTNormDot (t : Nat) (c : Cmd) (s : State) : Host.Outcome State Fault Refusal :=
  s.run t c 0x78 fun s i => s.dispatchT i c
/-- T_NORM_BWD (R222). -/
def execTNormBwd (t : Nat) (c : Cmd) (s : State) : Host.Outcome State Fault Refusal :=
  s.run t c 0x79 fun s i => s.dispatchT i c
/-- T_OPT_STEP (R224). -/
def execTOptStep (t : Nat) (c : Cmd) (s : State) : Host.Outcome State Fault Refusal :=
  s.run t c 0x7C fun s i => s.dispatchT i c
/-- T_OPT_COMMIT (R227). -/
def execTOptCommit (t : Nat) (c : Cmd) (s : State) : Host.Outcome State Fault Refusal :=
  s.run t c 0x7D fun s i => s.dispatchT i c

/-! ### Bobbin, stack and window commands (08 R282; 02 R82) -/

/-- MEM_FILL (08 R282). -/
def execMemFill (t : Nat) (c : Cmd) (s : State) : Host.Outcome State Fault Refusal :=
  s.run t c 0x80 fun s i => s.dispatch2 i c
/-- MEM_COPY (08 R282). -/
def execMemCopy (t : Nat) (c : Cmd) (s : State) : Host.Outcome State Fault Refusal :=
  s.run t c 0x81 fun s i => s.dispatch2 i c
/-- C_FILL (02 R82). -/
def execCFill (t : Nat) (c : Cmd) (s : State) : Host.Outcome State Fault Refusal :=
  s.run t c 0xB0 fun s i => s.dispatch2 i c
/-- C_COPY (02 R82). -/
def execCCopy (t : Nat) (c : Cmd) (s : State) : Host.Outcome State Fault Refusal :=
  s.run t c 0xB1 fun s i => s.dispatch2 i c

/-! ### Fabric, doff and reel commands (10 R372, R373; 13 R451; 12 R417) -/

/-- F_COLL (10 R372, R373): a slot contributes the tiles of its input roving. -/
def execFColl (t : Nat) (c : Cmd) (s : State) : Host.Outcome State Fault Refusal :=
  s.run t c 0x90 fun s i => s.dispatch0 i c
/-- F_VOTE (10 R356, R358, R372): the lowest slot of the draft, once per step. -/
def execFVote (t : Nat) (c : Cmd) (s : State) : Host.Outcome State Fault Refusal :=
  s.run t c 0x91 fun s i => s.dispatch0 i c
/-- D_SHARD (13 R451, R452): consumes the tiles of its descriptor; in a doff step it writes them as a shard. -/
def execDShard (t : Nat) (c : Cmd) (s : State) : Host.Outcome State Fault Refusal :=
  s.run t c 0xA0 fun s i => s.dispatch1 i c
/-- L_MARK (12 R417): a MARK record holding s[a]. -/
def execLMark (t : Nat) (c : Cmd) (s : State) : Host.Outcome State Fault Refusal :=
  s.run t c 0xA8 fun s i => s.dispatch1 i c
/-- L_DIGEST (12 R417): consumes the next tile of a roving that ends at SPnn.L. -/
def execLDigest (t : Nat) (c : Cmd) (s : State) : Host.Outcome State Fault Refusal :=
  s.run t c 0xA9 fun s i => s.dispatch0 i c

/-! ### Tile steps and passes (05 R165, R194, R195; 06 R202) -/

/-- TILE_STEP_START (05 R165): the `w_mma` at the head of a whorl's queue starts, once it has arrived and the step before has
had its last product cycle; then the commands behind it reach the head. -/
def execTileStepStart (t : Nat) (slot : Slot) (w : Nat) (s : State) : Host.Outcome State Fault Refusal :=
  let n := slot.val
  let s := s.arrive t
  let x := s.whorl n w
  match s.runsOn n, x.queue with
  | some _, c :: _ =>
    if c.op = 0x21 ∧ max c.arrival x.nextStep ≤ s.now then .next (((s.popWhorl n w).startMma c).settle)
    else .next s
  | _, _ => .next s

/-- TILE_STEP_CHECK (05 R194, R195): 24 cycles after the last product cycle of the oldest tile step its checks decide whether
the working copy becomes the bank. `r`: an error that arose in the step. -/
def execTileStepCheck (t : Nat) (slot : Slot) (w : Nat) (r : StepCheck) (s : State) :
    Host.Outcome State Fault Refusal :=
  let n := slot.val
  let s := s.arrive t
  match s.runsOn n, (s.whorl n w).steps with
  | some p, e :: es =>
    if s.now < e.start + (e.cycles + 23) * s.cycleUnits then .next s else .next (s.endStep p n w e es r)
  | _, _ => .next s

/-- RERUN_PAUSE_END (05 R194, R196): issue resumes; the cycles paused outside a stall add to lag. -/
def execRerunPauseEnd (t : Nat) (p : PartIdx) (s : State) : Host.Outcome State Fault Refusal :=
  let p := p.val
  let s := s.arrive t
  let x := s.part p
  match x.pauseUntil with
  | none => .next s
  | some u =>
    if s.now < u then .next s
    else if x.stalled.isEmpty then
      .next (s.setPart p { x with
        pauseUntil := none
        tickBegan := x.tickBegan + (u - x.pauseFrom)
        lag := x.lag + (u - x.pauseFrom) / s.cycleUnits })
    else .next (s.setPart p { x with pauseUntil := none })

/-- TWIST_PASS_FLOW (06 R202): assembly is over and flow starts; then the next pass may open. -/
def execTwistPassFlow (t : Nat) (slot : Slot) (e : Nat) (s : State) : Host.Outcome State Fault Refusal :=
  let n := slot.val
  let s := s.arrive t
  let x := s.twist n e
  match s.runsOn n with
  | none => .next s
  | some p =>
    if x.pass.isEmpty ∨ s.now < s.flowTime x then .next s else .next (s.flowNow p n e).settle

/-! ### Tiles on their rovings (03 R105, R107; 10 R374) -/

/-- ROVING_TILE_SEND (R105): tile i of roving r leaves its source at its tile time. -/
def execRovingTileSend (t : Nat) (p : PartIdx) (r i : Nat) (s : State) : Host.Outcome State Fault Refusal :=
  let p := p.val
  let s := (s.arrive t).syncDraft p
  let x := s.part p
  match x.draft, s.roving p r with
  | some d, some v =>
    match s.departure p d v i with
    | none => .next s
    | some due =>
      if !x.issuing || decide (s.now < due) || fmGet x.left r 0 != i || decide (v.count ≤ i) then .next s
      else .next (s.depart p r i due v)
  | _, _ => .next s

/-- ROVING_TILE_ARRIVE (R107, R108): a tile under way reaches its destination. -/
def execRovingTileArrive (t : Nat) (p : PartIdx) (r i : Nat) (s : State) : Host.Outcome State Fault Refusal :=
  let p := p.val
  let s := (s.arrive t).syncDraft p
  let x := s.part p
  match x.flight.find? fun e => e.1 == r && e.2.1 == i && decide (e.2.2.1 ≤ s.now), s.roving p r with
  | some e, some v => .next ((s.setPart p { x with flight := x.flight.erase e }).land p r i v e.2.2.2)
  | _, _ => .next s

/-- ROVING_TILE (10 R374; R108): a tile from another package, as slot, roving, tile number and record, enters the
receiving roving's queue. -/
def execRovingTile (t : Nat) (k : Packet) (s : State) : Host.Outcome State Fault Refusal :=
  let s := (s.arrive t).heard k
  if k.tag ≠ 0 ∨ k.ord ≠ 0 then .next (s.respond k 2 7 [])
  else
    let w := natOf (k.data.take 8)
    let n := bits w 3 0
    let r := bits w 15 4
    let i := bits w 63 16
    match s.runsOn n with
    | none => .next s
    | some p =>
      match s.roving p r with
      | none => .next s
      | some v =>
        if (s.dieOfSlot n).isNone ∨ !v.fromAway ∨ v.srcSlot ≠ n then .next s
        else if v.invalid then .next (s.tileInvalid p n r i)
        else if s.queueFull p n 0x4000 r then .next (s.tileOverrun p n 0x4000 r i)
        else
          let y := s.station n 0x4000
          .next (s.setStation n 0x4000 { y with queue := y.queue ++ [⟨s.now, r, i, tileOf v.format (k.data.drop 8)⟩] })

end Sys2Proof.Machine
end

