-- ==== Sys2Proof/Machine/Dispatch.lean ====
section
/-! DEFINITION. Machine/Dispatch.lean: the meaning of every command, one arm per constructor. -/

namespace Sys2Proof.Machine

/-- The effect of one command on everything but the queue. -/
def exec (i : Instr) (s : State) : Host.Outcome State Fault Refusal :=
  match i with
  | .tickBoundary t => Sys2Proof.Machine.execTickBoundary t s
  | .cad1ppsEdge t pulseNs ref10mOk => Sys2Proof.Machine.execCad1ppsEdge t pulseNs ref10mOk s
  | .cad1ppsTimeout t => Sys2Proof.Machine.execCad1ppsTimeout t s
  | .cadRef10mTimeout t => Sys2Proof.Machine.execCadRef10mTimeout t s
  | .treadleEdge t falling pulseNs => Sys2Proof.Machine.execTreadleEdge t falling pulseNs s
  | .treadleTimeout t => Sys2Proof.Machine.execTreadleTimeout t s
  | .ptpMessage t port kind src tick period offsetPs => Sys2Proof.Machine.execPtpMessage t port kind src tick period offsetPs s
  | .cadenceHoldoverLimit t => Sys2Proof.Machine.execCadenceHoldoverLimit t s
  | .cadenceMasterHandover t => Sys2Proof.Machine.execCadenceMasterHandover t s
  | .draftLoad t q p => Sys2Proof.Machine.execDraftLoad t q p s
  | .draftStart t q p => Sys2Proof.Machine.execDraftStart t q p s
  | .draftStop t q p => Sys2Proof.Machine.execDraftStop t q p s
  | .draftAbort t q p => Sys2Proof.Machine.execDraftAbort t q p s
  | .draftUnload t q p => Sys2Proof.Machine.execDraftUnload t q p s
  | .draftStartTick t p seeding => Sys2Proof.Machine.execDraftStartTick t p seeding s
  | .gate t p g => Sys2Proof.Machine.execGate t p g s
  | .gateRetest t p => Sys2Proof.Machine.execGateRetest t p s
  | .stepCommit t p => Sys2Proof.Machine.execStepCommit t p s
  | .commitVoteLost t p => Sys2Proof.Machine.execCommitVoteLost t p s
  | .outputRelease t p pulse => Sys2Proof.Machine.execOutputRelease t p pulse s
  | .treadlePulseEnd t => Sys2Proof.Machine.execTreadlePulseEnd t s
  | .rerunStart t p => Sys2Proof.Machine.execRerunStart t p s
  | .nop t c => Sys2Proof.Machine.execNop t c s
  | .setBase t c => Sys2Proof.Machine.execSetBase t c s
  | .sSetLo t c => Sys2Proof.Machine.execSSetLo t c s
  | .sSetHi t c => Sys2Proof.Machine.execSSetHi t c s
  | .sLoad t c => Sys2Proof.Machine.execSLoad t c s
  | .sStore t c => Sys2Proof.Machine.execSStore t c s
  | .sInt t c => Sys2Proof.Machine.execSInt t c s
  | .sFp64 t c => Sys2Proof.Machine.execSFp64 t c s
  | .signatureCompare t slot tick gate missing => Sys2Proof.Machine.execSignatureCompare t slot tick gate missing s
  | .rovingTileSend t p r j => Sys2Proof.Machine.execRovingTileSend t p r j s
  | .rovingTileArrive t p r j => Sys2Proof.Machine.execRovingTileArrive t p r j s
  | .wSetup t c => Sys2Proof.Machine.execWSetup t c s
  | .wMma t c => Sys2Proof.Machine.execWMma t c s
  | .tileStepStart t slot w => Sys2Proof.Machine.execTileStepStart t slot w s
  | .tileStepCheck t slot w r => Sys2Proof.Machine.execTileStepCheck t slot w r s
  | .rerunPauseEnd t p => Sys2Proof.Machine.execRerunPauseEnd t p s
  | .wBatt t c => Sys2Proof.Machine.execWBatt t c s
  | .wAccOut t c => Sys2Proof.Machine.execWAccOut t c s
  | .wAccIn t c => Sys2Proof.Machine.execWAccIn t c s
  | .tLoad t c => Sys2Proof.Machine.execTLoad t c s
  | .tAcc t c => Sys2Proof.Machine.execTAcc t c s
  | .tScale t c => Sys2Proof.Machine.execTScale t c s
  | .tAdd t c => Sys2Proof.Machine.execTAdd t c s
  | .tSub t c => Sys2Proof.Machine.execTSub t c s
  | .tMul t c => Sys2Proof.Machine.execTMul t c s
  | .tDiv t c => Sys2Proof.Machine.execTDiv t c s
  | .tMin t c => Sys2Proof.Machine.execTMin t c s
  | .tMax t c => Sys2Proof.Machine.execTMax t c s
  | .tFma t c => Sys2Proof.Machine.execTFma t c s
  | .tSqrt t c => Sys2Proof.Machine.execTSqrt t c s
  | .tSign t c => Sys2Proof.Machine.execTSign t c s
  | .tFunc t c => Sys2Proof.Machine.execTFunc t c s
  | .tCmp t c => Sys2Proof.Machine.execTCmp t c s
  | .tLive t c => Sys2Proof.Machine.execTLive t c s
  | .tTri t c => Sys2Proof.Machine.execTTri t c s
  | .tSel t c => Sys2Proof.Machine.execTSel t c s
  | .tRsum t c => Sys2Proof.Machine.execTRsum t c s
  | .tRmax t c => Sys2Proof.Machine.execTRmax t c s
  | .tRmin t c => Sys2Proof.Machine.execTRmin t c s
  | .tCsum t c => Sys2Proof.Machine.execTCsum t c s
  | .tCmax t c => Sys2Proof.Machine.execTCmax t c s
  | .tCmin t c => Sys2Proof.Machine.execTCmin t c s
  | .tConv t c => Sys2Proof.Machine.execTConv t c s
  | .twistPassFlow t slot e => Sys2Proof.Machine.execTwistPassFlow t slot e s
  | .tSmaxMax t c => Sys2Proof.Machine.execTSmaxMax t c s
  | .tSmaxSum t c => Sys2Proof.Machine.execTSmaxSum t c s
  | .tSmaxOut t c => Sys2Proof.Machine.execTSmaxOut t c s
  | .tSmaxDot t c => Sys2Proof.Machine.execTSmaxDot t c s
  | .tSmaxBwd t c => Sys2Proof.Machine.execTSmaxBwd t c s
  | .tNormSum t c => Sys2Proof.Machine.execTNormSum t c s
  | .tNormVar t c => Sys2Proof.Machine.execTNormVar t c s
  | .tNormOut t c => Sys2Proof.Machine.execTNormOut t c s
  | .tNormDot t c => Sys2Proof.Machine.execTNormDot t c s
  | .tNormBwd t c => Sys2Proof.Machine.execTNormBwd t c s
  | .tOptStep t c => Sys2Proof.Machine.execTOptStep t c s
  | .tOptCommit t c => Sys2Proof.Machine.execTOptCommit t c s
  | .memFill t c => Sys2Proof.Machine.execMemFill t c s
  | .memCopy t c => Sys2Proof.Machine.execMemCopy t c s
  | .cFill t c => Sys2Proof.Machine.execCFill t c s
  | .cCopy t c => Sys2Proof.Machine.execCCopy t c s
  | .fColl t c => Sys2Proof.Machine.execFColl t c s
  | .fVote t c => Sys2Proof.Machine.execFVote t c s
  | .dShard t c => Sys2Proof.Machine.execDShard t c s
  | .lMark t c => Sys2Proof.Machine.execLMark t c s
  | .lDigest t c => Sys2Proof.Machine.execLDigest t c s
  | .qChunk t p f e => Sys2Proof.Machine.execQChunk t p f e s
  | .qNop t p f e => Sys2Proof.Machine.execQNop t p f e s
  | .bxFadd t h w => Sys2Proof.Machine.execBxFadd t h w s
  | .bxFsub t h w => Sys2Proof.Machine.execBxFsub t h w s
  | .bxFmul t h w => Sys2Proof.Machine.execBxFmul t h w s
  | .bxFdiv t h w => Sys2Proof.Machine.execBxFdiv t h w s
  | .bxFsqrt t h w => Sys2Proof.Machine.execBxFsqrt t h w s
  | .bxFmin t h w => Sys2Proof.Machine.execBxFmin t h w s
  | .bxFmax t h w => Sys2Proof.Machine.execBxFmax t h w s
  | .bxFsgnj t h w => Sys2Proof.Machine.execBxFsgnj t h w s
  | .bxFmadd t h w => Sys2Proof.Machine.execBxFmadd t h w s
  | .bxFmsub t h w => Sys2Proof.Machine.execBxFmsub t h w s
  | .bxFnmadd t h w => Sys2Proof.Machine.execBxFnmadd t h w s
  | .bxFredosum t h w => Sys2Proof.Machine.execBxFredosum t h w s
  | .bxFeq t h w => Sys2Proof.Machine.execBxFeq t h w s
  | .bxFlt t h w => Sys2Proof.Machine.execBxFlt t h w s
  | .bxFle t h w => Sys2Proof.Machine.execBxFle t h w s
  | .bxAdd t h w => Sys2Proof.Machine.execBxAdd t h w s
  | .bxSub t h w => Sys2Proof.Machine.execBxSub t h w s
  | .bxMul t h w => Sys2Proof.Machine.execBxMul t h w s
  | .bxAnd t h w => Sys2Proof.Machine.execBxAnd t h w s
  | .bxOr t h w => Sys2Proof.Machine.execBxOr t h w s
  | .bxXor t h w => Sys2Proof.Machine.execBxXor t h w s
  | .bxSll t h w => Sys2Proof.Machine.execBxSll t h w s
  | .bxSrl t h w => Sys2Proof.Machine.execBxSrl t h w s
  | .bxSra t h w => Sys2Proof.Machine.execBxSra t h w s
  | .bxMinu t h w => Sys2Proof.Machine.execBxMinu t h w s
  | .bxMaxu t h w => Sys2Proof.Machine.execBxMaxu t h w s
  | .bxMin t h w => Sys2Proof.Machine.execBxMin t h w s
  | .bxMax t h w => Sys2Proof.Machine.execBxMax t h w s
  | .bxSeq t h w => Sys2Proof.Machine.execBxSeq t h w s
  | .bxSltu t h w => Sys2Proof.Machine.execBxSltu t h w s
  | .bxSlt t h w => Sys2Proof.Machine.execBxSlt t h w s
  | .bxLd t h w pf => Sys2Proof.Machine.execBxLd t h w pf s
  | .bxLdff t h w pf => Sys2Proof.Machine.execBxLdff t h w pf s
  | .bxSt t h w pf => Sys2Proof.Machine.execBxSt t h w pf s
  | .bxTperm t h w => Sys2Proof.Machine.execBxTperm t h w s
  | .bxCvtn t h w => Sys2Proof.Machine.execBxCvtn t h w s
  | .bxCvtw t h w => Sys2Proof.Machine.execBxCvtw t h w s
  | .bxFcvt t h w => Sys2Proof.Machine.execBxFcvt t h w s
  | .bxBcast t h w => Sys2Proof.Machine.execBxBcast t h w s
  | .bxMand t h w => Sys2Proof.Machine.execBxMand t h w s
  | .bxMor t h w => Sys2Proof.Machine.execBxMor t h w s
  | .bxMxor t h w => Sys2Proof.Machine.execBxMxor t h w s
  | .bxMandn t h w => Sys2Proof.Machine.execBxMandn t h w s
  | .bxMrd t h w => Sys2Proof.Machine.execBxMrd t h w s
  | .bxMwr t h w => Sys2Proof.Machine.execBxMwr t h w s
  | .bxExt t h w => Sys2Proof.Machine.execBxExt t h w s
  | .bxSetvl t h w => Sys2Proof.Machine.execBxSetvl t h w s
  | .bxWrel t h w => Sys2Proof.Machine.execBxWrel t h w s
  | .bxWstat t h w => Sys2Proof.Machine.execBxWstat t h w s
  | .bxWwait t h w tw => Sys2Proof.Machine.execBxWwait t h w tw s
  | .bxWwaitWake t h => Sys2Proof.Machine.execBxWwaitWake t h s
  | .windowFlagSet t p w => Sys2Proof.Machine.execWindowFlagSet t p w s
  | .solverLoad t h a size rd signed fp lr => Sys2Proof.Machine.execSolverLoad t h a size rd signed fp lr s
  | .solverStore t h a size rs2 rd kind => Sys2Proof.Machine.execSolverStore t h a size rs2 rd kind s
  | .solverFence t h => Sys2Proof.Machine.execSolverFence t h s
  | .fenceComplete t h => Sys2Proof.Machine.execFenceComplete t h s
  | .ownAcquire t h a rd word => Sys2Proof.Machine.execOwnAcquire t h a rd word s
  | .ownRelease t h a rd word => Sys2Proof.Machine.execOwnRelease t h a rd word s
  | .ownHandover t h a rd word => Sys2Proof.Machine.execOwnHandover t h a rd word s
  | .gatherDoorbell t h rd desc => Sys2Proof.Machine.execGatherDoorbell t h rd desc s
  | .gatherComplete t h j => Sys2Proof.Machine.execGatherComplete t h j s
  | .collLaunchDoorbell t h rd desc => Sys2Proof.Machine.execCollLaunchDoorbell t h rd desc s
  | .ld t k => Sys2Proof.Machine.execLd t k s
  | .st t k => Sys2Proof.Machine.execSt t k s
  | .amoAdd t k => Sys2Proof.Machine.execAmoAdd t k s
  | .amoSwap t k => Sys2Proof.Machine.execAmoSwap t k s
  | .amoCas t k => Sys2Proof.Machine.execAmoCas t k s
  | .amoAnd t k => Sys2Proof.Machine.execAmoAnd t k s
  | .amoOr t k => Sys2Proof.Machine.execAmoOr t k s
  | .amoXor t k => Sys2Proof.Machine.execAmoXor t k s
  | .amoMinu t k => Sys2Proof.Machine.execAmoMinu t k s
  | .amoMaxu t k => Sys2Proof.Machine.execAmoMaxu t k s
  | .amoMin t k => Sys2Proof.Machine.execAmoMin t k s
  | .amoMax t k => Sys2Proof.Machine.execAmoMax t k s
  | .amoFadd t k => Sys2Proof.Machine.execAmoFadd t k s
  | .ownCmd t k => Sys2Proof.Machine.execOwnCmd t k s
  | .response t k => Sys2Proof.Machine.execResponse t k s
  | .requestReissue t u tag => Sys2Proof.Machine.execRequestReissue t u tag s
  | .requestDeadTimeout t u tag => Sys2Proof.Machine.execRequestDeadTimeout t u tag s
  | .collLaunch t k => Sys2Proof.Machine.execCollLaunch t k s
  | .collChunk t k cr => Sys2Proof.Machine.execCollChunk t k cr s
  | .collAck t k => Sys2Proof.Machine.execCollAck t k s
  | .collTaintPacket t k => Sys2Proof.Machine.execCollTaintPacket t k s
  | .collNak t k => Sys2Proof.Machine.execCollNak t k s
  | .commitVote t k => Sys2Proof.Machine.execCommitVote t k s
  | .commitResult t k => Sys2Proof.Machine.execCommitResult t k s
  | .rovingTile t k => Sys2Proof.Machine.execRovingTile t k s
  | .chunkResendTimeout t p g cseq peer depth down chunk ask tries => Sys2Proof.Machine.execChunkResendTimeout t p g cseq peer depth down chunk ask tries s
  | .genAheadExpiry t p g cseq => Sys2Proof.Machine.execGenAheadExpiry t p g cseq s
  | .admitRound t => Sys2Proof.Machine.execAdmitRound t s
  | .channelSlotWindow t d => Sys2Proof.Machine.execChannelSlotWindow t d s
  | .channelCommandSlot t d ch arr upkeep => Sys2Proof.Machine.execChannelCommandSlot t d ch arr upkeep s
  | .linkFrame t pl c0 => Sys2Proof.Machine.execLinkFrame t pl c0 s
  | .arbitrationRound t pl c1 arr => Sys2Proof.Machine.execArbitrationRound t pl c1 arr s
  | .requestPromote t pl c1 => Sys2Proof.Machine.execRequestPromote t pl c1 s
  | .arbitrationBound t pl c1 => Sys2Proof.Machine.execArbitrationBound t pl c1 s
  | .codewordReceive t n ok vcs credits ack => Sys2Proof.Machine.execCodewordReceive t n ok vcs credits ack s
  | .laneLoss t n lane lock => Sys2Proof.Machine.execLaneLoss t n lane lock s
  | .laneSpareRemap t n => Sys2Proof.Machine.execLaneSpareRemap t n s
  | .portRetrain t n => Sys2Proof.Machine.execPortRetrain t n s
  | .portTraining t n failed tier isPackage => Sys2Proof.Machine.execPortTraining t n failed tier isPackage s
  | .linkNak t n => Sys2Proof.Machine.execLinkNak t n s
  | .flyoverRemoved t n present => Sys2Proof.Machine.execFlyoverRemoved t n present s
  | .scrubPass t d arisen lo n so sn => Sys2Proof.Machine.execScrubPass t d arisen lo n so sn s
  | .bondLaneReplace t d ch bond => Sys2Proof.Machine.execBondLaneReplace t d ch bond s
  | .dramTempSample t d temp => Sys2Proof.Machine.execDramTempSample t d temp s
  | .sramColumnRepair t d => Sys2Proof.Machine.execSramColumnRepair t d s
  | .trafficGenStart t q v => Sys2Proof.Machine.execTrafficGenStart t q v s
  | .trafficGenStop t q v moved miss => Sys2Proof.Machine.execTrafficGenStop t q v moved miss s
  | .trafficGenDone t d ch miss => Sys2Proof.Machine.execTrafficGenDone t d ch miss s
  | .dieHeartbeatLoss t d cause dirty => Sys2Proof.Machine.execDieHeartbeatLoss t d cause dirty s
  | .doffShardsAck t p failed => Sys2Proof.Machine.execDoffShardsAck t p failed s
  | .doffManifestAck t p failed => Sys2Proof.Machine.execDoffManifestAck t p failed s
  | .restoreRequest t q v => Sys2Proof.Machine.execRestoreRequest t q v s
  | .restoreFinish t areas => Sys2Proof.Machine.execRestoreFinish t areas s
  | .replayFabricInput t p => Sys2Proof.Machine.execReplayFabricInput t p s
  | .roleMapWrite t q die v => Sys2Proof.Machine.execRoleMapWrite t q die v s
  | .partitionCommit t q v agree => Sys2Proof.Machine.execPartitionCommit t q v agree s
  | .windowQuorumWrite t q p sub v => Sys2Proof.Machine.execWindowQuorumWrite t q p sub v s
  | .shareWrite t q part sub v => Sys2Proof.Machine.execShareWrite t q part sub v s
  | .rngKeyWrite t q p v => Sys2Proof.Machine.execRngKeyWrite t q p v s
  | .rngKeyEntropy t q p v => Sys2Proof.Machine.execRngKeyEntropy t q p v s
  | .reelReadWrite t q p v => Sys2Proof.Machine.execReelReadWrite t q p v s
  | .groupReform t q p g => Sys2Proof.Machine.execGroupReform t q p g s
  | .deadClear t q v => Sys2Proof.Machine.execDeadClear t q v s
  | .ownForceOpen t q v => Sys2Proof.Machine.execOwnForceOpen t q v s
  | .regionEntryWrite t q die e v => Sys2Proof.Machine.execRegionEntryWrite t q die e v s
  | .lcRequest t q record agree => Sys2Proof.Machine.execLcRequest t q record agree s
  | .debugGrant t q grant agree => Sys2Proof.Machine.execDebugGrant t q grant agree s
  | .svnCommit t q v => Sys2Proof.Machine.execSvnCommit t q v s
  | .attestNonceWrite t q nonce => Sys2Proof.Machine.execAttestNonceWrite t q nonce s
  | .attestReportRead t q agree => Sys2Proof.Machine.execAttestReportRead t q agree s
  | .replanNow t q v => Sys2Proof.Machine.execReplanNow t q v s
  | .clockAccept t q v => Sys2Proof.Machine.execClockAccept t q v s
  | .clockChangeApply t => Sys2Proof.Machine.execClockChangeApply t s
  | .hdmSizeWrite t q v => Sys2Proof.Machine.execHdmSizeWrite t q v s
  | .resetRequestCold t q => Sys2Proof.Machine.execResetRequestCold t q s
  | .resetRequestWarm t q => Sys2Proof.Machine.execResetRequestWarm t q s
  | .odWrite t q idx sub whole data o => Sys2Proof.Machine.execOdWrite t q idx sub whole data o s
  | .odRead t q idx sub whole => Sys2Proof.Machine.execOdRead t q idx sub whole s
  | .odDescribe t q idx sub whole => Sys2Proof.Machine.execOdDescribe t q idx sub whole s
  | .odSubscribe t q idx sub data => Sys2Proof.Machine.execOdSubscribe t q idx sub data s
  | .odUnsubscribe t q data => Sys2Proof.Machine.execOdUnsubscribe t q data s
  | .valueNotify t id sid => Sys2Proof.Machine.execValueNotify t id sid s
  | .aoapMessage t tr m o => Sys2Proof.Machine.execAoapMessage t tr m o s
  | .clientHello t tr body agree => Sys2Proof.Machine.execClientHello t tr body agree s
  | .clientAuth t tr id body agree => Sys2Proof.Machine.execClientAuth t tr id body agree s
  | .sessionClose t tr id seq tag => Sys2Proof.Machine.execSessionClose t tr id seq tag s
  | .sessionIdleTimeout t id => Sys2Proof.Machine.execSessionIdleTimeout t id s
  | .sessionLifetimeExpiry t id => Sys2Proof.Machine.execSessionLifetimeExpiry t id s
  | .udpSegment t port src msgId seg nseg total rsv data o => Sys2Proof.Machine.execUdpSegment t port src msgId seg nseg total rsv data o s
  | .udpReassemblyTimeout t port src msgId => Sys2Proof.Machine.execUdpReassemblyTimeout t port src msgId s
  | .mctpMessage t bus body o => Sys2Proof.Machine.execMctpMessage t bus body o s
  | .mbAoapMessage t m o => Sys2Proof.Machine.execMbAoapMessage t m o s
  | .mbNotifyDrain t => Sys2Proof.Machine.execMbNotifyDrain t s
  | .mbHostCopy t hostAddr pkgAddr len dir => Sys2Proof.Machine.execMbHostCopy t hostAddr pkgAddr len dir s
  | .hostCopyDone t host => Sys2Proof.Machine.execHostCopyDone t host s
  | .mbOwnershipCmd t region word => Sys2Proof.Machine.execMbOwnershipCmd t region word s
  | .mbCollLaunch t p desc => Sys2Proof.Machine.execMbCollLaunch t p desc s
  | .mbIdentify t => Sys2Proof.Machine.execMbIdentify t s
  | .mbGetSupportedLogs t => Sys2Proof.Machine.execMbGetSupportedLogs t s
  | .mbGetLog t uuid off len => Sys2Proof.Machine.execMbGetLog t uuid off len s
  | .hostRead t o => Sys2Proof.Machine.execHostRead t o s
  | .hostWrite t o data mask => Sys2Proof.Machine.execHostWrite t o data mask s
  | .biSnoopResponse t region dirty => Sys2Proof.Machine.execBiSnoopResponse t region dirty s
  | .cxlBiTimeout t region lines => Sys2Proof.Machine.execCxlBiTimeout t region lines s
  | .winReleaseWrite t p v => Sys2Proof.Machine.execWinReleaseWrite t p v s
  | .hostReleaseDone t p w => Sys2Proof.Machine.execHostReleaseDone t p w s
  | .hostDoorbellWrite t p v => Sys2Proof.Machine.execHostDoorbellWrite t p v s
  | .powerSample t watts currents => Sys2Proof.Machine.execPowerSample t watts currents s
  | .powerLimitEscalate t => Sys2Proof.Machine.execPowerLimitEscalate t s
  | .thermalSample t d temp dirty => Sys2Proof.Machine.execThermalSample t d temp dirty s
  | .thermtrip t => Sys2Proof.Machine.execThermtrip t s
  | .droopAlert t k => Sys2Proof.Machine.execDroopAlert t k s
  | .droopRelease t k released => Sys2Proof.Machine.execDroopRelease t k released s
  | .marginReplan t ms => Sys2Proof.Machine.execMarginReplan t ms s
  | .ageingAccrue t => Sys2Proof.Machine.execAgeingAccrue t s
  | .pkgResetAssert t ns => Sys2Proof.Machine.execPkgResetAssert t ns s
  | .railOutOfRange t => Sys2Proof.Machine.execRailOutOfRange t s
  | .pkgResetRelease t straps => Sys2Proof.Machine.execPkgResetRelease t straps s
  | .pllLock t ok => Sys2Proof.Machine.execPllLock t ok s
  | .sealBoot t a b agreeA agreeB failA failB => Sys2Proof.Machine.execSealBoot t a b agreeA agreeB failA failB s
  | .stewardStart t => Sys2Proof.Machine.execStewardStart t s
  | .stewardStartTimeout t => Sys2Proof.Machine.execStewardStartTimeout t s
  | .dramTraining t bonds offline => Sys2Proof.Machine.execDramTraining t bonds offline s
  | .dieSelfTest t columns failed => Sys2Proof.Machine.execDieSelfTest t columns failed s
  | .startupUnlocked t => Sys2Proof.Machine.execStartupUnlocked t s
  | .cxlTraining t ok width rate => Sys2Proof.Machine.execCxlTraining t ok width rate s
  | .warmResetInput t ns => Sys2Proof.Machine.execWarmResetInput t ns s
  | .warmResetComplete t columns failed => Sys2Proof.Machine.execWarmResetComplete t columns failed s
  | .refclkLost t c => Sys2Proof.Machine.execRefclkLost t c s
  | .cadRef10mOutOfRange t => Sys2Proof.Machine.execCadRef10mOutOfRange t s
  | .delayReqSend t => Sys2Proof.Machine.execDelayReqSend t s
  | .ledgerEntryAgeOut t path unit => Sys2Proof.Machine.execLedgerEntryAgeOut t path unit s
  | .heartbeatFlit t port path => Sys2Proof.Machine.execHeartbeatFlit t port path s
  | .bxCsrWrite t h csr v priv => Sys2Proof.Machine.execBxCsrWrite t h csr v priv s
  | .winPendClear t p v => Sys2Proof.Machine.execWinPendClear t p v s
  | .hdmDecoderCommit t gib => Sys2Proof.Machine.execHdmDecoderCommit t gib s
  | .cxlPerstRelease t => Sys2Proof.Machine.execCxlPerstRelease t s
  | .ethLinkChange t port up => Sys2Proof.Machine.execEthLinkChange t port up s
  | .mctpEidAssign t bus eid => Sys2Proof.Machine.execMctpEidAssign t bus eid s
  | .testPortInstruction t op => Sys2Proof.Machine.execTestPortInstruction t op s
  | .avsSetpointStep t r => Sys2Proof.Machine.execAvsSetpointStep t r s
  | .coldResetDelayExpiry t => Sys2Proof.Machine.execColdResetDelayExpiry t s
  | .lcEraseDone t mismatch => Sys2Proof.Machine.execLcEraseDone t mismatch s

end Sys2Proof.Machine
end

