-- ==== Sys2Proof/Safety.lean ====
section
/-! DEFINITION. Safety.lean: what counts as a safe run of the block, and the terms the statements use. -/

namespace Sys2Proof.Machine

/-- A command has an effect or an answer: it neither faults nor is refused. -/
def Answers (o : Host.Outcome State Fault Refusal) : Prop := ∃ s, o = .next s

/-- A run of a state is safe: for as many steps as one likes it never faults and is never refused. -/
def SafeFor : Nat → State → Prop
  | 0, _ => True
  | n + 1, s => ∃ s', step s = .next s' ∧ SafeFor n s'

/-- The command completes in the state, and the state after it is one that P describes. -/
def Does (c : Instr) (s : State) (P : State → Prop) : Prop := ∃ u, exec c s = .next u ∧ P u

/-- The state after a command, with what every command may change put back as it was: the time, the answer and what
was sent. -/
def State.bare (u s : State) : State :=
  { u with
    now := s.now
    ans := s.ans
    out := s.out }

/-- With what raising an event changes put back as well: counters and flags, logs, times of sets, and the notifications
of sessions (15 R504 to R508). -/
def State.unsaid (u s : State) : State :=
  { u.bare s with
    od := s.od
    logs := s.logs
    w1cAt := s.w1cAt
    aoap := s.aoap }

/-- Every object keeps its value but the event counters and flags of 15 R504. -/
def State.ObjectsKept (s u : State) : Prop :=
  ∀ idx sub, sub < 256 → idx < 0xB100 ∨ 0xB300 ≤ idx → u.odGet idx sub = s.odGet idx sub

/-- A hart of a die that is not lost, with the vector extension on and no reserved setting (07 R238, R239). -/
def State.BxReady (s : State) (h : Nat) : Prop :=
  s.hartGone h = false ∧ (s.hart h).bxbs ≠ 0 ∧ (s.hart h).ill = false

/-- Nothing but hart h has changed. -/
def State.OnlyHart (s u : State) (h : Nat) : Prop :=
  { u.bare s with harts := s.harts } = s ∧ ∀ k, k ≠ h → u.hart k = s.hart k

/-- Element i, of the hart's width, of its register group from r on (07 R237, R239). -/
def State.elem (s : State) (h r i : Nat) : Nat := elemAt (s.vGroup h r (s.hart h).group) (s.hart h).ew i

/-- Of hart h only g vector registers from r on, the floating-point flags and the `bs` field (now dirty) have changed. -/
def State.OnlyVector (s u : State) (h r g : Nat) : Prop :=
  s.OnlyHart u h ∧ (u.hart h).bxbs = 3 ∧ (∀ k, k < r ∨ r + g ≤ k → fmGet (u.hart h).v k 0 = fmGet (s.hart h).v k 0) ∧
  { u.hart h with v := (s.hart h).v, bxbs := (s.hart h).bxbs, fflags := (s.hart h).fflags } = s.hart h

/-- Hart h takes an exception: cause and value stand in the registers of the mode that takes it, the mode before in its status,
and nothing else of the machine changes (07 R230, R238, R242). -/
def State.Traps (s u : State) (h cause tval : Nat) : Prop :=
  let x := s.hart h
  let y := u.hart h
  let r := x.trapRegs cause
  y.trap = some ⟨cause, tval⟩ ∧ y.mode = r.mode ∧ y.getCsr r.cause = cause ∧ y.getCsr r.tval = tval ∧
  bits (y.getCsr r.status) r.ppHi r.ppLo = x.mode.level % 2 ^ (r.ppHi + 1 - r.ppLo) ∧
  bit (y.getCsr r.status) r.ie = false ∧ { y with trap := x.trap, mode := x.mode, csr := x.csr } = x ∧ s.OnlyHart u h

/-! ### Packets -/

/-- A packet charged to a member can leave at once: a native port leads to its destination, nothing waits there, its channel
has a credit for each of its flits (09 R293, R304), and as C0 it fits in its partition's part of the frame (11 R387). -/
def State.Leaves (s : State) (charge : Option Nat) (m : Packet) : Prop :=
  ∃ n, s.portFor (m.cls == 0) m.dst m.unit = some n ∧ (s.port n).egress = [] ∧
    bit (s.odGet 0x6002 (n + 1)) 1 = false ∧ flitsOf m.data.length ≤ fmGet (s.port n).credits (vcOf m) 0 ∧
    (m.cls = 0 → fmGet (s.port n).frameC0 (charge.getD 0) 0 + flitsOf m.data.length ≤ s.frameBudget (charge.getD 0))

/-- Beside what was sent before, the packet is sent, with its header, where it can leave at once. -/
def State.Sends (s u : State) (charge : Option Nat) (m : Packet) : Prop :=
  s.Leaves charge m → ∃ m', u.out = s.out ++ [.packet m'] ∧ m'.words = m.header ∧
    { m' with port := m.port, words := m.words, flits := m.flits } = m

/-- The response to a request (09 R311, R313): source and destination exchanged. -/
def State.response (s : State) (k : Packet) (status cause : Nat) (l : List Byte) : Packet :=
  { k with
    dst := k.src, src := s.ownPath, op := k.op + 0x80, retry := false, resync := false, data := l
    status := status, cause := cause, len := 0 }

/-! ### Station commands -/

/-- The state in which a station command issues: all that was due has happened, and its draft cycle has come (03 R111). -/
def State.atIssue (r0 : State) (t p : Nat) (c : Cmd) : State := ((r0.arrive t).syncDraft p).toIssue p c

/-- The flyer of the command's slot may issue it for partition p: its draft runs there, and issue is not stopped (02 R75,
R84; 03 R111). -/
def State.CanIssue (r0 : State) (t p : Nat) (c : Cmd) : Prop :=
  (r0.arrive t).partOfSlot c.slot.val = some p ∧ ((r0.arrive t).syncDraft p).mayIssue p c.slot.val = true ∧
  (r0.atIssue t p c).mayIssue p c.slot.val = true

/-- The command issues with its row's opcode, as i: s is the state just after (03 R111, R115, R117). -/
def State.IssuesAs (r0 : State) (t : Nat) (c : Cmd) (op : Nat) (i : Issued) (s : State) : Prop :=
  r0.CanIssue t i.p c ∧ (r0.atIssue t i.p c).issueAt i.p c op = (s, some i)

/-- u is s with the command on its way to its station, which it reaches so many cycles from now with scalars a and b
(03 R113, R118). -/
def State.Sent (s u : State) (i : Issued) (c : Cmd) (cycles a b : Nat) : Prop :=
  u = { s with wire := s.wire ++ [{
    p := i.p, n := i.n, st := c.station, word := c.word.toNat, arrival := s.now + cycles * s.cycleUnits
    tick := (s.part i.p).stepTick, pos := i.pos, a := a, b := b }] }

/-- Value of a scalar register that a command reads at issue, and whether the register holds no error (03 R118, R123). -/
def State.sreg (s : State) (n r : Nat) : Nat := (fmGet (s.flyer n).sreg r 0).toNat
def State.SregGood (s : State) (n r : Nat) : Prop := fmGet (s.flyer n).sregErr r 0 = 0

/-- A detected control fault of partition p on a die rolls its step back once more: the draft runs, no limit is reached,
and its package is alone (13 R424, R425). -/
def State.RollsBack (s : State) (p : Nat) : Prop :=
  (∀ d, (s.part p).draft = some d → d.packages ≤ 1) ∧ (s.part p).undoOver = false ∧ (s.part p).tainted = false ∧
  (s.part p).state = .running ∧ (s.part p).restoring = false ∧ (s.part p).faultRolls = [] ∧ 2 ≤ s.odGet 0x8001 0

/-- Nothing is due at the stations now. -/
def State.Quiet (s : State) : Prop := ∀ e ∈ s.dues, s.now < e.1

end Sys2Proof.Machine
end

