-- ==== Sys2Proof/Certificates/Slice0/Obligations.lean ====
section
/-! DEFINITION. Obligations.lean: what is to be proved of the model: what the commands do, what they leave alone, and what
every step keeps. Unless a docstring says otherwise a clause describes every state and all operands. -/

open Sys2Proof Sys2Proof.Machine

/-- A step whose queue begins with command c is c performed on the state that keeps the rest of the queue; a step on an
empty queue changes nothing (the model's choice, log entry 1). -/
def Obligations.StepPerformsFront : Prop :=
  (∀ (c : Instr) (rest : List Instr) (s : State), s.pending = c :: rest → step s = exec c { s with pending := rest }) ∧
  (∀ s : State, s.pending = [] → step s = .next s)

/-- Every command of the table, whatever its operands, answers a next state in every state: no command faults and none is
refused. So a run of any length, with any queue, neither faults nor is refused. -/
def Obligations.EveryCommandAnswers : Prop :=
  (∀ (c : Instr) (s : State), Answers (exec c s)) ∧ ∀ (n : Nat) (s : State), SafeFor n s

/-- Memory is held in one canonical form: places rise strictly, and no cell repeats what its place reads as unlisted. From
every state whose memory has that form, every step gives a state whose memory has it, so equal memories stay equal data. -/
def Obligations.StepKeepsMemoryForm : Prop :=
  ∀ s u : State, Mem.wf s.mem = true → step s = .next u → Mem.wf u.mem = true

/-- Every command leaves the queue of commands that wait as it was, so commands are performed first in, first out; and the
time of the state never goes back: after the command it is the later of the time before and the command's own time or
later. -/
def Obligations.QueueAndTimeKept : Prop :=
  ∀ (c : Instr) (s u : State), exec c s = .next u → u.pending = s.pending ∧ s.now ≤ u.now

/-- After reset the queue is empty, memory lists nothing and so has its canonical form, the tick counter holds 0 and the
cadence unit reports UNLOCKED with no source, every partition's draft is EMPTY, the configuration is not locked, and
start-up stands in stage 2, with no session open and the object dictionary not yet live. -/
def Obligations.ResetState : Prop :=
  State.reset.pending = [] ∧ State.reset.mem = [] ∧ Mem.wf State.reset.mem = true ∧ State.reset.cad.tick = 0 ∧
  State.reset.cad.state = .unlocked ∧ State.reset.cad.source = .none ∧
  (∀ p : PartIdx, (State.reset.part p.val).state = .empty) ∧ State.reset.cfg.locked = false ∧
  State.reset.boot.stage = 2 ∧ State.reset.boot.live = false ∧ State.reset.aoap.sessions = []

/-- Rows TICK_BOUNDARY and CADENCE_MASTER_HANDOVER. While the tick that runs has not ended, both change nothing. At its end,
once the first LOCKED tick has passed, the boundary stands at the instant the tick ends and adds exactly 1 to the counter.
Before that, the 16th tick in a row within 50 ns of the source locks: the counter takes the in-band master's value, or
tick_preset from any other source. A tick outside 50 ns leaves the counter as it is and starts the count again, and nothing
outside the cadence unit and its reported phase error changes. When FX0's broadcast is missing 100 ns after the boundary, FX1
issues it: the counter goes on, and FX1 is master with no standby. -/
def Obligations.TickCounterRules : Prop :=
  ∀ (t : Nat) (r0 : State), let s := r0.arrive t; s.cad.dead = false →
  (s.now < s.cad.due → exec (.tickBoundary t) r0 = .next s ∧ exec (.cadenceMasterHandover t) r0 = .next s) ∧
  (s.cad.due ≤ s.now →
    (s.cad.everLocked = true → Does (.tickBoundary t) r0 fun u =>
      u.cad.tick = s.cad.tick + 1 ∧ u.cad.everLocked = true ∧ u.cad.tickStart = s.cad.due) ∧
    (s.cad.everLocked = false → s.cad.state = .acquiring → 15 ≤ s.cad.lockCount →
      (s.phaseAt s.cad.due).natAbs ≤ 50 * unitsPerNs → Does (.tickBoundary t) r0 fun u =>
        u.cad.everLocked = true ∧ u.cad.state = .locked ∧ u.cad.tick =
          BitVec.ofNat 64 (if s.cad.source = .inBand then s.masterCount s.cad.due else s.odGet 0x2001 7)) ∧
    (s.cad.everLocked = false → s.cad.state = .acquiring → s.cad.freeRun = false →
      50 * unitsPerNs < (s.phaseAt s.cad.due).natAbs → Does (.tickBoundary t) r0 fun u =>
        u.cad.lockCount = 0 ∧ u.cad.tick = s.cad.tick ∧ u.cad.everLocked = false ∧ u.cad.state = .acquiring ∧
        u.cad.tickStart = s.cad.due ∧ u.odGet 0x2002 2 = ofSigned 32 (s.phaseAt s.cad.due / unitsPerNs) ∧
        (∀ idx sub, sub < 256 → ¬(idx = 0x2002 ∧ sub = 2) → u.odGet idx sub = s.odGet idx sub) ∧
        { u with cad := s.cad, od := s.od } = s)) ∧
  (s.cad.everLocked = true → s.cad.masterFx1 = false → s.cfg.lost.contains 23 = false →
    s.cad.due + 100 * unitsPerNs ≤ s.now → Does (.cadenceMasterHandover t) r0 fun u =>
      u.cad.masterFx1 = true ∧ u.cad.standbyReady = false ∧ u.cad.tick = s.cad.tick + 1 ∧
      u.cad.tickStart = s.cad.due + 100 * unitsPerNs)

/-- Rows CAD_1PPS_EDGE, CAD_1PPS_TIMEOUT, CAD_REF10M_TIMEOUT and CAD_REF10M_OUT_OF_RANGE. A rising edge of CAD_1PPS at least
500 ns wide, between 1 s - 1 ms and 1 s + 1 ms after the one before and with CAD_REF10M in range, counts toward the 16 that
make the source healthy; an earlier one starts the count again; a later one, and one with CAD_REF10M out of range, make the
source unhealthy, and a shorter one changes nothing. No edge for 1 s + 1 ms, a silent CAD_REF10M and one out of its range
make the source unhealthy at once, whatever is enabled. The tick counter and every object but event records keep their
values, and nothing outside the cadence unit changes but what raising an event changes. -/
def Obligations.PpsSourceHealth : Prop :=
  ∀ (t : Nat) (r0 : State), let s := r0.arrive t
  let kept := fun u : State => u.cad.tick = s.cad.tick ∧ s.ObjectsKept u ∧ { u.unsaid s with cad := s.cad } = s
  let unhealthy := fun u : State => u.cad.pps.good = 0 ∧ u.cad.pps.healthy = false ∧ u.sourceHealthy .pps = false ∧ kept u
  (∀ (w x : Nat), 500 ≤ w → s.cad.pps.last = some x →
    (unitsPerSec - unitsPerMs ≤ s.now - x → s.now - x ≤ unitsPerSec + unitsPerMs → Does (.cad1ppsEdge t w true) r0 fun u =>
      u.cad.pps = ⟨some s.now, min 16 (s.cad.pps.good + 1), s.cad.pps.healthy || decide (15 ≤ s.cad.pps.good), true⟩ ∧
      kept u) ∧
    (s.now - x < unitsPerSec - unitsPerMs → Does (.cad1ppsEdge t w true) r0 fun u =>
      u.cad.pps = ⟨some s.now, 0, s.cad.pps.healthy, true⟩ ∧ kept u) ∧
    (unitsPerSec + unitsPerMs < s.now - x → Does (.cad1ppsEdge t w true) r0 fun u =>
      u.cad.pps.last = some s.now ∧ unhealthy u)) ∧
  (∀ w, 500 ≤ w → Does (.cad1ppsEdge t w false) r0 fun u => u.cad.pps.last = some s.now ∧ unhealthy u) ∧
  (∀ w ok, w < 500 → exec (.cad1ppsEdge t w ok) r0 = .next s) ∧
  (∀ x, s.cad.pps.last = some x → unitsPerSec + unitsPerMs ≤ s.now - x → Does (.cad1ppsTimeout t) r0 fun u =>
    u.cad.pps.last = some x ∧ unhealthy u) ∧
  (∀ x, s.cad.pps.last = some x → s.now - x < unitsPerSec + unitsPerMs → exec (.cad1ppsTimeout t) r0 = .next s) ∧
  (Does (.cadRef10mTimeout t) r0 fun u => u.cad.pps.ref10m = false ∧ unhealthy u) ∧
  (Does (.cadRef10mOutOfRange t) r0 fun u => u.cad.pps.ref10m = false ∧ unhealthy u)

/-- Rows TREADLE_EDGE and TREADLE_TIMEOUT. With K and the tick period as configured, a selected treadle edge at least 500 ns
wide gives the period since the edge before: inside 5% of K x tick_period it counts toward the 16 that make the source
healthy, outside it the source is unhealthy at once. A shorter pulse and an edge of the other kind change nothing; the first
edge only starts a period. When no selected edge has come 1.05 x K x tick_period after the last, the period is out of range
at that instant. The tick counter does not change. -/
def Obligations.TreadleHealth : Prop :=
  ∀ (t : Nat) (r0 : State), let s := r0.arrive t
  (∀ (f : Bool) (w : Nat), w < 500 ∨ s.odGet 0x2001 3 ≠ b2n f → exec (.treadleEdge t f w) r0 = .next s) ∧
  (∀ (f : Bool) (w : Nat), 500 ≤ w → s.odGet 0x2001 3 = b2n f → s.cad.treadle.last = none →
    Does (.treadleEdge t f w) r0 fun u => u.cad = { s.cad with treadle := { s.cad.treadle with last := some s.now } }) ∧
  (∀ x : Nat, s.cad.treadle.last = some x →
  let period := s.now - x
  let nom := s.odGet 0x2001 4 * s.odGet 0x2001 2 * unitsPer10ns
  (∀ (f : Bool) (w : Nat), 500 ≤ w → s.odGet 0x2001 3 = b2n f → 95 * nom ≤ 100 * period → 100 * period ≤ 105 * nom →
    Does (.treadleEdge t f w) r0 fun u =>
      u.cad.treadle = ⟨some s.now, period, min 16 (s.cad.treadle.good + 1), true,
        s.cad.treadle.healthy || decide (15 ≤ s.cad.treadle.good)⟩ ∧ u.cad.tick = s.cad.tick) ∧
  (∀ (f : Bool) (w : Nat), 500 ≤ w → s.odGet 0x2001 3 = b2n f → 100 * period < 95 * nom ∨ 105 * nom < 100 * period →
    Does (.treadleEdge t f w) r0 fun u =>
      u.cad.treadle = ⟨some s.now, period, 0, false, false⟩ ∧ u.sourceHealthy .treadle = false ∧
      u.cad.tick = s.cad.tick) ∧
  (105 * nom ≤ 100 * period → Does (.treadleTimeout t) r0 fun u =>
    u.cad.treadle.inRange = false ∧ u.sourceHealthy .treadle = false ∧ u.cad.tick = s.cad.tick ∧ s.ObjectsKept u ∧
    { u.unsaid s with cad := s.cad } = s) ∧
  (100 * period < 105 * nom → exec (.treadleTimeout t) r0 = .next s))

/-- Rows PTP_MESSAGE, DELAY_REQ_SEND and CADENCE_HOLDOVER_LIMIT. On a port that carries in-band time, a Delay_Req is
answered with a Delay_Resp of the package's counter and period; any other message records the port's offset, and one from the
configured master makes the port one in use and gives the master's tick and period, which the package adopts as its tick
period while in-band time is enabled and not refused. The counter keeps its value. A port that carries none changes nothing.
A follower sends Delay_Req on its lowest in-band port. Holdover longer than holdover_limit raises its event once and changes
neither the reported state nor the counter. -/
def Obligations.InBandTimeAndHoldover : Prop :=
  (∀ (t : Nat) (n : PortIdx) (src : BitVec 48) (tick : BitVec 64) (per : BitVec 32) (off : Int) (r0 : State),
    let s := r0.arrive t
    (∀ k : PtpKind, s.ptpPort n.val = false → exec (.ptpMessage t n k src tick per off) r0 = .next s) ∧
    (s.ptpPort n.val = true →
    (Does (.ptpMessage t n .delayReq src tick per off) r0 fun u =>
      u.out = s.out ++ [.ptp n.val 3 s.cad.tick.toNat (s.odGet 0x2001 2)] ∧ u.bare s = s) ∧
    (∀ k : PtpKind, k ≠ .delayReq →
      (src.toNat ≠ s.odGet 0x2001 8 % 2 ^ 48 ∨ src.toNat = noPath → Does (.ptpMessage t n k src tick per off) r0 fun u =>
        u.cad = s.cad ∧ { u with od := s.od } = s) ∧
      (src.toNat = s.odGet 0x2001 8 % 2 ^ 48 → src.toNat ≠ noPath →
      Does (.ptpMessage t n k src tick per off) r0 fun u =>
        u.cad.inBand.masterTick = tick.toNat ∧ u.cad.inBand.masterPeriod = per.toNat ∧ u.cad.inBand.masterAt = s.now ∧
        u.cad.inBand.ports.testBit n.val = true ∧ u.cad.tick = s.cad.tick ∧
        (u.cad.inBand.refused = true ↔ s.cad.inBand.refused = true ∧ tick ≠ s.cad.tick) ∧
        (bit (s.odGet 0x2001 1) 0 = true → u.cad.inBand.refused = false → 1000 ≤ per.toNat → per.toNat ≤ 10000000 →
          u.odGet 0x2001 2 = per.toNat) ∧
        (∀ idx sub, sub < 256 → idx < 0xB100 → ¬(idx = 0x2001 ∧ sub = 2) → ¬(idx = 0x2007 ∧ sub = n.val + 1) →
          u.odGet idx sub = s.odGet idx sub) ∧
        { u.unsaid s with cad := s.cad } = s)))) ∧
  (∀ (t n : Nat) (r0 : State), let s := r0.arrive t; s.cad.inBand.port = some n → Does (.delayReqSend t) r0 fun u =>
    u.out = s.out ++ [.ptp n 2 0 0] ∧ fmGet? u.cad.inBand.delayReq n = some s.now ∧ u.cad.tick = s.cad.tick ∧
    { u.bare s with cad := s.cad } = s) ∧
  (∀ (t x : Nat) (r0 : State), let s := r0.arrive t
    s.cad.holdSince = some x → s.cad.state = .holdover → s.cad.holdRaised = false →
    s.odGet 0x2001 9 * unitsPerMs < s.now - x → Does (.cadenceHoldoverLimit t) r0 fun u =>
      u.cad = { s.cad with holdRaised := true } ∧ u.odGet 0xB102 5 = s.odGet 0xB102 5 + 1 ∧ s.ObjectsKept u ∧
      { u.unsaid s with cad := s.cad } = s)
/-- Rows DRAFT_LOAD, DRAFT_START, DRAFT_STOP, DRAFT_ABORT and DRAFT_UNLOAD, for a requester who may write draft_command: a
load in state EMPTY reads the image, and when its checks all pass gives LOADED with the image's draft; a failing check is
its reason. A start in LOADED with a running counter, a start tick at least 2 ahead and no second package gives ARMED; a stop in
RUNNING lets the step finish; an abort in ARMED, RUNNING or HALTED gives LOADED and holds no output of this draft any more; an
unload in LOADED gives EMPTY. Each answers OK and leaves draft_reject and the other partitions' drafts as they were. In any other state the
command is refused with reason 0x10 and DRAFT_REJECTED, and every partition stays as it was. -/
def Obligations.DraftControlCommands : Prop :=
  ∀ (t : Nat) (q : Option Nat) (p : PartIdx) (r0 : State), let s := r0.arrive t; s.refusal q (0x2020 + p.val) 3 true = none →
  let x := s.part p.val
  let done := fun u : State => u.ans.status = stOk ∧ u.odGet (0x2020 + p.val) 6 = s.odGet (0x2020 + p.val) 6 ∧
    ∀ r, r ≠ p.val → u.part r = s.part r
  let refused := fun u : State => u.ans.status = stRejected ∧ u.odGet (0x2020 + p.val) 6 = 0x10 ∧
    u.odGet 0xB102 8 = s.odGet 0xB102 8 + 1 ∧ u.parts = s.parts ∧ u.mem = s.mem ∧ u.cad = s.cad
  (x.state = .empty →
    let read := if s.imageThere p.val then s.scanned (s.odGet (0x2020 + p.val) 1) (s.odGet (0x2020 + p.val) 2) else s
    let res := read.loadReason p.val
    (res.1 = 0 → Does (.draftLoad t q p) r0 fun u =>
      (u.part p.val).state = .loaded ∧ (u.part p.val).draft = some res.2 ∧ (u.part p.val).epoch = 0 ∧ done u) ∧
    (res.1 ≠ 0 → Does (.draftLoad t q p) r0 fun u =>
      u.ans.status = stRejected ∧ u.odGet (0x2020 + p.val) 6 = res.1 ∧ u.parts = s.parts ∧ u.mem = s.mem)) ∧
  (x.state ≠ .empty → Does (.draftLoad t q p) r0 refused) ∧
  (∀ d, x.state = .loaded → x.draft = some d → s.cad.everLocked = true → s.cad.dead = false → d.packages ≤ 1 →
    s.cad.tick.toNat + 2 ≤ s.odGet (0x2020 + p.val) 5 → Does (.draftStart t q p) r0 fun u =>
      u.part p.val = { x with state := .armed } ∧ u.mem = s.mem ∧ done u) ∧
  (x.state ≠ .loaded → Does (.draftStart t q p) r0 refused) ∧
  (x.state = .running → Does (.draftStop t q p) r0 fun u =>
    u.part p.val = { x with stopPending := true } ∧ { u.bare s with parts := s.parts, od := s.od } = s ∧ done u) ∧
  (x.state ≠ .running → Does (.draftStop t q p) r0 refused) ∧
  (∀ d, x.state = .armed ∨ x.state = .running ∨ x.state = .halted → x.draft = some d → Does (.draftAbort t q p) r0 fun u =>
    (u.part p.val).state = .loaded ∧ (u.part p.val).draft = some d ∧
    (u.part p.val).held = x.held.filter (fun h => h.gone) ∧
    (u.part p.val).heldTiles = x.heldTiles.filter (fun h => h.gone) ∧ u.mem = s.mem ∧ done u) ∧
  (x.state = .empty ∨ x.state = .loaded → Does (.draftAbort t q p) r0 refused) ∧
  (∀ d, x.state = .loaded → x.draft = some d → Does (.draftUnload t q p) r0 fun u =>
    (u.part p.val).state = .empty ∧ (u.part p.val).draft = none ∧ (u.part p.val).creel = [] ∧
    u.odGet (0x2020 + p.val) 7 = 0 ∧ done u) ∧
  (x.state ≠ .loaded → Does (.draftUnload t q p) r0 refused)

/-- Rows DRAFT_START_TICK and RERUN_START. When the tick counter has reached start_tick, an ARMED draft whose loss variant the image holds enters RUNNING: step
epoch, slip and step count are 0 and draft tick 0 begins now. Before that tick nothing happens. A restored step that waits
for its re-run begins again at its draft tick 0, with the variant the losses call for, and no other partition changes. -/
def Obligations.DraftStartsAndReruns : Prop :=
  ∀ (t : Nat) (p : PartIdx) (d : Draft) (r0 : State), let s := r0.arrive t; (s.part p.val).draft = some d →
  let x := s.part p.val
  (∀ (seeding v : Nat), x.state = .armed → s.odGet (0x2020 + p.val) 5 ≤ s.cad.tick.toNat → s.lossVariant = some v →
    v < d.variants → Does (.draftStartTick t p seeding) r0 fun u =>
      (u.part p.val).state = .running ∧ (u.part p.val).epoch = 0 ∧ (u.part p.val).slip = 0 ∧
      (u.part p.val).stepsDone = 0 ∧ (u.part p.val).variant = v ∧ (u.part p.val).stepTick = 0 ∧
      (u.part p.val).tickBegan = s.now ∧
      ∀ r, r ≠ p.val → (u.part r).state = (s.part r).state ∧ (u.part r).epoch = (s.part r).epoch) ∧
  (∀ seeding, x.state = .armed → s.cad.tick.toNat < s.odGet (0x2020 + p.val) 5 →
    exec (.draftStartTick t p seeding) r0 = .next s) ∧
  (x.state = .running → x.restoring = true → Does (.rerunStart t p) r0 fun u =>
    (u.part p.val).restoring = false ∧ (u.part p.val).stepTick = 0 ∧ (u.part p.val).tickBegan = s.now ∧
    (u.part p.val).variant = x.variantNext.getD x.variant ∧ (u.part p.val).epoch = x.epoch ∧ u.mem = s.mem ∧
    ∀ r, r ≠ p.val → u.part r = s.part r)

/-- Rows GATE and GATE_RETEST. At a gate of the running draft tick that no other gate shares its instant with, outside replay: from the spindle side
to the solver side ownership passes whatever the release flag says, and the flag is clear after. From the solver side
with the flag clear the gate is late and LATE_GATE is raised: under the stall policy issue stops and slip grows by 1; under
the reuse policy the window passes all the same and its reused bit is set. At a retest of a gate that is still late slip
grows by 1 again, and of one whose flag is set meanwhile issue resumes. -/
def Obligations.GatesPassStallOrReuse : Prop :=
  ∀ (t g : Nat) (p : PartIdx) (d : Draft) (gd : GateDesc) (x : WinDesc) (r0 : State), let s := r0.arrive t;
  (s.part p.val).draft = some d → d.gates[g]? = some gd → d.wins[gd.window]? = some x →
  (s.part p.val).replay.on = false → gd.window < (s.part p.val).wins.length →
  (s.part p.val).state = .running → (s.part p.val).restoring = false →
  let w := s.win p.val gd.window
  (s.syncDraft p.val = s → (s.part p.val).issuing = true → gd.tick = (s.part p.val).stepTick →
    (s.part p.val).stepOver = false → (s.part p.val).gatesDone.contains g = false →
    (∀ i h, d.gates[i]? = some h → h.tick = gd.tick → h.cycle = gd.cycle → i = g) →
    (gd.src = .spindle → gd.dst = .solver → (w.heldBy .spindle).isSome = true → Does (.gate t p g) r0 fun u =>
      (u.win p.val gd.window).owner = .solver ∧ (u.win p.val gd.window).flag = false ∧
      (u.part p.val).gatesDone = (s.part p.val).gatesDone ++ [g] ∧ u.mem = s.mem ∧ ∀ r, r ≠ p.val → u.part r = s.part r) ∧
    (gd.src = .solver → w.flag = false → gd.policy = 0 → 1 ≤ gd.stallLimit → Does (.gate t p g) r0 fun u =>
      (u.part p.val).stalled = [g] ∧ (u.part p.val).slip = (s.part p.val).slip + 1 ∧
      (u.part p.val).wins = (s.part p.val).wins ∧ u.odGet 0xB102 10 = s.odGet 0xB102 10 + 1 ∧ u.mem = s.mem) ∧
    (gd.src = .solver → gd.dst = .spindle → w.flag = false → gd.policy = 1 → gd.window < 64 →
      Does (.gate t p g) r0 fun u =>
        (u.part p.val).reused = (s.part p.val).reused ||| (1 <<< gd.window) ∧ (u.part p.val).slip = (s.part p.val).slip ∧
        ((∃ b, w.bufs.findIdx? (fun b => b == .spare) = some b) → (u.win p.val gd.window).owner = .spindle) ∧
        u.odGet 0xB102 10 = s.odGet 0xB102 10 + 1) ∧
    (gd.src = .solver → w.flag = false → gd.policy = 2 → (s.part p.val).undoOver = false →
      (s.part p.val).lateRolls + 1 < s.odGet (0x2020 + p.val) 11 → (s.part p.val).tainted = false → d.packages ≤ 1 →
      Does (.gate t p g) r0 fun u => (u.part p.val).restoring = true ∧ (u.part p.val).slip = (s.part p.val).slipCommit ∧
        (u.part p.val).state = .running ∧ u.odGet 0xB102 11 = s.odGet 0xB102 11 + 1)) ∧
  ((s.part p.val).stalled = [g] → (s.part p.val).waiting = [] → gd.src = .solver → gd.policy = 0 →
    (w.flag = false → (s.part p.val).stallSlip + 1 ≤ gd.stallLimit → Does (.gateRetest t p) r0 fun u =>
      (u.part p.val).slip = (s.part p.val).slip + 1 ∧ (u.part p.val).stalled = [g] ∧ u.mem = s.mem) ∧
    (w.flag = true → gd.dst = .spindle → (w.passable .solver).isSome = true → Does (.gateRetest t p) r0 fun u =>
      (u.win p.val gd.window).owner = .spindle ∧ (u.part p.val).stalled = [] ∧ (u.part p.val).slip = (s.part p.val).slip))

/-- Rows STEP_COMMIT and COMMIT_VOTE_LOST. A draft of one package whose step stands at its commit cycle, not tainted, with
every tile check passed, every slot's signature equal and its statistics records read well, commits: the step epoch and the count of steps grow by 1, the windows and the slip become those a
rollback returns to, the reused mask, the undo journal and the retry counts are empty. While a signature is missing the
commit waits and the epoch stays. A commit vote whose result is still missing 20 us after the commit cycle halts the
draft with its event. -/
def Obligations.StepCommitEffect : Prop :=
  ∀ (t : Nat) (p : PartIdx) (d : Draft) (r0 : State), let s := r0.arrive t; (s.part p.val).draft = some d →
  let x := s.part p.val
  (s.syncDraft p.val = s → s.atCommit p.val d = true → d.packages = 1 → x.tainted = false →
    (s.checksPassed d = true → d.slots.all (fun n => x.sigOk.contains n) = true → (s.statsCheck p.val).2 = true →
      Does (.stepCommit t p) r0 fun u =>
      (u.part p.val).epoch = x.epoch + 1 ∧ (u.part p.val).stepsDone = x.stepsDone + 1 ∧
      (u.part p.val).winsCommit = x.wins ∧ (u.part p.val).slipCommit = x.slip ∧ (u.part p.val).reused = 0 ∧
      (u.part p.val).undo = [] ∧ (u.part p.val).lateRolls = 0 ∧ (u.part p.val).faultRolls = [] ∧ u.cad = s.cad) ∧
    (d.slots.all (fun n => x.sigOk.contains n) = false → exec (.stepCommit t p) r0 = .next s)) ∧
  (s.atCommit p.val d = true → 1 < d.packages → x.voteResult = none →
    s.commitTime p.val d + 20 * unitsPerUs ≤ s.now → Does (.commitVoteLost t p) r0 fun u =>
      (u.part p.val).state = .halted ∧ u.odGet 0xB10A 4 = s.odGet 0xB10A 4 + 1 ∧ (u.part p.val).epoch = x.epoch ∧
      u.mem = s.mem)

/-- Rows OUTPUT_RELEASE and TREADLE_PULSE_END. An output scheduled in tick T whose step committed in tick C is released when the tick counter has reached
max(T + release_delay, C + 1): then the host buffer is held no more and the window's bit of win_pend is set; every other
held output stays held. A treadle pulse of a committed step, at tick T of that step, drives the pin for 1 us: at its own
cycle of tick T + release_delay when its step committed before that tick, else from the boundary after the commit on, with
RELEASE_LATE; unless an abort has discarded it. One of a step not committed changes nothing; when 1 us has passed the pin
falls. -/
def Obligations.OutputReleaseRules : Prop :=
  (∀ (t : Nat) (p : PartIdx) (r0 : State), let s := r0.arrive t; Does (.outputRelease t p none) r0 fun u =>
    (∀ h, h ∈ (u.part p.val).held ↔ h ∈ (s.part p.val).held ∧
      ¬∃ c, h.committed = some c ∧ max (h.tick + s.odGet 0x2004 0) (c + 1) ≤ s.cad.tick.toNat) ∧
    (∀ h c, h ∈ (s.part p.val).held → h.committed = some c → h.window < 64 →
      max (h.tick + s.odGet 0x2004 0) (c + 1) ≤ s.cad.tick.toNat →
      (fmGet u.host.winPend p.val 0).toNat.testBit h.window = true) ∧
    u.mem = s.mem ∧ u.cad = s.cad ∧ ∀ r, r ≠ p.val → u.part r = s.part r) ∧
  (∀ (t : Nat) (p : PartIdx) (v : Pulse) (r0 : State), let s := r0.arrive t
    let due := v.tick + s.odGet 0x2004 0
    let now := s.cad.tick.toNat
    (∀ c : StepRec, (s.part p.val).pulseStep v = some c → s.cad.dead = false →
      (c.committed < due → due < now ∨ due = now ∧ v.cycle ≤ s.cycleInTick) → (due ≤ c.committed → c.committed + 1 ≤ now) →
      (c.gone = true ∨ ∀ a, (s.part p.val).dropTick = some a → a < v.tick) →
      Does (.outputRelease t p (some v)) r0 fun u =>
        u.pins = { s.pins with treadleOut := true, treadleEnd := s.now + unitsPerUs } ∧
        u.odGet 0xB102 13 = s.odGet 0xB102 13 + (if due ≤ c.committed then 1 else 0) ∧
        { u.unsaid s with pins := s.pins } = s) ∧
    ((s.part p.val).pulseStep v = none → exec (.outputRelease t p (some v)) r0 = .next s)) ∧
  (∀ (t : Nat) (r0 : State), let s := r0.arrive t; s.pins.treadleOut = true → s.pins.treadleEnd ≤ s.now → s.cad.dead = false →
    Does (.treadlePulseEnd t) r0 fun u =>
      u.pins = { s.pins with treadleOut := false } ∧ { u.bare s with pins := s.pins } = s)

/-- Row SIGNATURE_COMPARE. For a slot of a running draft: the full signature of the step's last draft tick that equals the draft's counts the slot
as checked and changes nothing else; one that differs, or has not arrived, raises SIGNATURE_MISMATCH and, when no limit is
reached, the draft rolls back to its last commit and waits for its re-run. -/
def Obligations.SignatureComparison : Prop :=
  ∀ (t : Nat) (n : Slot) (p k : Nat) (d : Draft) (r0 : State), let s := r0.arrive t; s.partOfSlot n.val = some p → (s.part p).draft = some d →
  (s.part p).state = .running → (s.part p).restoring = false → bit d.slotMask n.val = true → (s.part p).stepTick = k →
  (shake256 32 (s.flyer n.val).msg = d.signature (s.part p).variant n.val k (d.stallGates k).length →
    k + 1 = d.stepTicks → Does (.signatureCompare t n k none false) r0 fun u =>
      u.part p = { s.part p with sigOk := (s.part p).sigOk ++ [n.val] } ∧ { u.bare s with parts := s.parts } = s ∧
      ∀ r, r ≠ p → u.part r = s.part r) ∧
  (∀ gate, d.packages ≤ 1 → (s.part p).undoOver = false → (s.part p).tainted = false → (s.part p).faultRolls = [] →
    2 ≤ s.odGet 0x8001 0 → Does (.signatureCompare t n k gate true) r0 fun u =>
      (u.part p).restoring = true ∧ (u.part p).faultRolls = [s.dieOfSlot n.val] ∧ (u.part p).epoch = (s.part p).epoch ∧
      u.odGet 0xB103 8 = s.odGet 0xB103 8 + 1)

/-- Row NOP, and the issue of every station command. A flyer that may issue a command takes it in the current draft cycle:
its 16 bytes and that cycle join the signature string, and it takes the next place of the tick's stream. It issues when
its own cycle, base + cycle_offset, does not lie before the last command's, its cycle has room for it, and its opcode is the
row's, its station one of the opcode's range, its format valid and its rovings at the station. A nop that issues does
nothing else. A command before the last one's cycle, or third in a cycle, raises ISSUE_ORDER and one that fails the other
checks COMMAND_INVALID; each is a detected control fault, which here rolls the step back. -/
def Obligations.CommandIssueRules : Prop :=
  ∀ (t p : Nat) (c : Cmd) (r0 : State), r0.CanIssue t p c → let s := r0.atIssue t p c
  let dc := s.draftCycle p
  let f := (s.flyer c.slot.val).land dc
  let order := f.last ≤ f.base.toNat + c.offset ∧ (f.last ≠ dc ∨ f.inCycle = 0 ∨ f.inCycle = 1 ∧ f.scalars = 0)
  let heard := fun (u : State) => let g := u.flyer c.slot.val
    g.last = dc ∧ g.pos = f.pos + 1 ∧ g.msg = f.msg ++ bytesOf 16 c.word.toNat ++ bytesOf 4 dc ∧ g.sreg = f.sreg ∧ g.base = f.base ∧
    ∀ n, n ≠ c.slot.val → u.flyer n = s.flyer n
  (∀ op, order → c.opcode = op → stationFits op c.station = true → c.format = 0 ∨ formatValid c.format = true →
    (∀ r ∈ usedRovings c, s.touches p c.slot.val c.station r = true) →
    ∃ u, s.issueAt p c op = (u, some ⟨p, c.slot.val, f.pos, dc⟩) ∧ heard u ∧ { u with flyers := s.flyers } = s) ∧
  (order → c.opcode = 0 → c.station = 0 → c.format = 0 → Does (.nop t c) r0 fun u =>
    heard u ∧ { u with flyers := s.flyers } = s) ∧
  (s.RollsBack p →
    (c.offset + f.base.toNat < f.last ∨ (f.last = dc ∧ 2 ≤ f.inCycle) → Does (.nop t c) r0 fun u =>
      (u.part p).restoring = true ∧ u.odGet 0xB103 3 = s.odGet 0xB103 3 + 1 ∧ (u.part p).epoch = (s.part p).epoch) ∧
    (order → c.opcode ≠ 0 ∨ c.station ≠ 0 → Does (.nop t c) r0 fun u =>
      (u.part p).restoring = true ∧ u.odGet 0xB103 4 = s.odGet 0xB103 4 + 1 ∧ (u.part p).epoch = (s.part p).epoch))

/-- Rows SET_BASE, S_SET_LO, S_SET_HI, S_LOAD, S_STORE, S_INT and S_FP64. Given that the command issues (s is the state just
after issue) and that the scalar registers it reads hold no error: set_base sets the segment base; s_set_lo and s_set_hi bring
their operand into one half of s[a], s_load 8 bytes of the shared bobbin, s_int and s_fp64 their result, each 4 draft cycles
after issue, with nothing else changed; s_store puts s[b] into 8 bytes of the shared bobbin and changes no other byte. -/
def Obligations.ScalarCommands : Prop :=
  ∀ (t : Nat) (c : Cmd) (i : Issued) (r0 s : State),
  let f := s.flyer i.n
  let lands := fun (v mask : Word) (u : State) =>
    u.flyer i.n = { f with landing := f.landing ++ [(i.dc + 4, c.sa, v, mask)] } ∧
    { u with flyers := s.flyers } = s ∧ ∀ n, n ≠ i.n → u.flyer n = s.flyer n
  (r0.IssuesAs t c 0x01 i s → ∀ d, (s.part i.p).draft = some d → c.operand % 2 ^ 32 < d.span →
    Does (.setBase t c) r0 fun u => u.flyer i.n = { f with base := BitVec.ofNat 32 c.operand } ∧
      { u with flyers := s.flyers } = s) ∧
  (r0.IssuesAs t c 0x10 i s → Does (.sSetLo t c) r0
    (lands (BitVec.ofNat 64 (c.operand % 2 ^ 32)) 0x00000000FFFFFFFF)) ∧
  (r0.IssuesAs t c 0x11 i s → Does (.sSetHi t c) r0
    (lands (BitVec.ofNat 64 (c.operand % 2 ^ 32 * 2 ^ 32)) 0xFFFFFFFF00000000)) ∧
  (r0.IssuesAs t c 0x12 i s → c.operand % 2 ^ 27 % 8 = 0 → ∀ l,
    s.c0Read i.p i.n 0 (sramBase i.n + sharedOff + c.operand % 2 ^ 27) 8
      (s.cmdPlace i.p (s.part i.p).stepTick i.pos) = (s, some l) →
    Does (.sLoad t c) r0 (lands (BitVec.ofNat 64 (natOf l)) (2 ^ 64 - 1))) ∧
  (r0.IssuesAs t c 0x13 i s → c.operand % 2 ^ 27 % 8 = 0 → s.SregGood i.n c.sb → Mem.wf s.mem = true → ∀ k,
    s.stationKey i.p (sramBase i.n + sharedOff + c.operand % 2 ^ 27) 8 = .ok k →
    Does (.sStore t c) r0 fun u => Mem.readN u.mem k 8 = bytesOf 8 (s.sreg i.n c.sb) ∧
      (∀ a, a < k ∨ k + 8 ≤ a → Mem.read u.mem a = Mem.read s.mem a) ∧ u.flyers = s.flyers) ∧
  (s.SregGood i.n c.sa → s.SregGood i.n c.sb →
    let a : Word := fmGet f.sreg c.sa 0
    let b : Word := fmGet f.sreg c.sb 0
    (r0.IssuesAs t c 0x14 i s →
      let gives := fun (m : Nat) (v : Word) => c.mod % 16 = m → Does (.sInt t c) r0 (lands v (2 ^ 64 - 1))
      gives 0 (a + b) ∧ gives 1 (a - b) ∧ gives 2 (a &&& b) ∧ gives 3 (a ||| b) ∧ gives 4 (a ^^^ b) ∧
      (b.toNat < 64 → gives 5 (a <<< b.toNat) ∧ gives 6 (a >>> b.toNat)) ∧
      gives 7 (if a ≤ b then a else b) ∧ gives 8 (if a ≤ b then b else a)) ∧
    (r0.IssuesAs t c 0x15 i s → ∀ v, sFp64 (c.mod % 16) a.toNat b.toNat = some v →
      Does (.sFp64 t c) r0 (lands (BitVec.ofNat 64 v) (2 ^ 64 - 1))))

/-- Rows MEM_FILL, MEM_COPY, C_FILL, C_COPY, D_SHARD, L_MARK, L_DIGEST, F_COLL and F_VOTE. Each, when it issues and the
registers it reads hold no error, is on its way with their values, for 4 cycles to a bobbin and 12 to any other of these
stations. On arrival it waits there in its turn. When it starts: mem_fill and c_fill write s[b] over operand x 64 bytes from
offset s[a] of the station's memory or of the window buffer that the spindle side then holds, mem_copy and c_copy move
operand x 64 bytes between two ranges that lie apart, and no other byte changes; a length of 0 writes nothing. l_mark puts a
record of s[a] into the partition's reel. l_digest and d_shard begin to take the tiles of their roving: a digest one tile, a
shard as many as its descriptor counts. -/
def Obligations.MemoryAndReelStations : Prop :=
  (∀ row ∈ ([(.memFill, 0x80, 2), (.memCopy, 0x81, 2), (.cFill, 0xB0, 2), (.cCopy, 0xB1, 2), (.dShard, 0xA0, 1),
      (.lMark, 0xA8, 1), (.lDigest, 0xA9, 0), (.fColl, 0x90, 0), (.fVote, 0x91, 0)] : List ((Nat → Cmd → Instr) × Nat × Nat)),
    ∀ (t : Nat) (c : Cmd) (i : Issued) (r0 s : State), r0.IssuesAs t c row.2.1 i s →
    (1 ≤ row.2.2 → s.SregGood i.n c.sa) → (row.2.2 = 2 → s.SregGood i.n c.sb) →
    Does (row.1 t c) r0 fun u => s.Sent u i c (if c.station / 4096 = 3 then 4 else 12)
      (if 1 ≤ row.2.2 then s.sreg i.n c.sa else 0) (if row.2.2 = 2 then s.sreg i.n c.sb else 0)) ∧
  (∀ (c : StCmd) (s : State), 3 ≤ c.st / 4096 → (s.station c.n c.st).cmds.length < 4 →
    let u := s.happen (.landing c)
    (u.station c.n c.st) = { s.station c.n c.st with cmds := (s.station c.n c.st).cmds ++ [c] } ∧ u.wire = s.wire.erase c ∧
    { { u with stations := s.stations } with wire := s.wire } = s) ∧
  (∀ (c : StCmd) (l : List StCmd) (s : State), (s.station c.n c.st).cmds = c :: l →
    let u := s.happen (.command c.n c.st)
    let s2 := s.setStation c.n c.st { s.station c.n c.st with cmds := l }
    let len := c.operand % 2 ^ 32 * 64
    let a := c.a % 2 ^ 48
    let b := c.b % 2 ^ 48
    (∀ base size, s.endpointMem c.p c.n c.st = some (base, size) → a % 64 = 0 → a + len ≤ size →
      (∀ k, c.op = 0x80 ∨ c.op = 0xB0 → Mem.wf s.mem = true → 0 < len → s.stationKey c.p (base + a) len = .ok k →
        (∀ o, o < len → Mem.read u.mem (k + o) = nth (bytesOf 8 c.b) (o % 8) 0) ∧
        ∀ j, j < k ∨ k + len ≤ j → Mem.read u.mem j = Mem.read s.mem j) ∧
      (∀ k m, c.op = 0x81 ∨ c.op = 0xB1 → Mem.wf s.mem = true → 0 < len → b % 64 = 0 → b + len ≤ size → apart a b len = true →
        s.c0Read c.p c.n c.st (base + a) len (s.cmdPlace c.p c.tick c.pos) = (s, some m) →
        s.stationKey c.p (base + b) len = .ok k →
        (∀ o, o < len → Mem.read u.mem (k + o) = nth m o 0) ∧
        ∀ j, j < k ∨ k + len ≤ j → Mem.read u.mem j = Mem.read s.mem j) ∧
      (c.op = 0x80 ∨ c.op = 0xB0 → len = 0 → u.mem = s.mem)) ∧
    (c.op = 0xA8 → u = (s2.occupy c 1).reel c.p 0x0C 2 [c.a]) ∧
    (∀ v, s.roving c.p c.roving = some v → v.endsAt c.n c.st = true → (s.station c.n c.st).takes = [] →
      ((s.station c.n c.st).queue.find? fun q => q.roving == c.roving) = none →
      (c.op = 0xA9 → ((u.station c.n c.st).takes.map fun k => (k.roving, k.want, k.start)) = [(c.roving, 1, s.now)] ∧
        { u with stations := s.stations } = s) ∧
      (∀ m, c.op = 0xA0 → c.a % 2 ^ 27 % 64 = 0 →
        s.c0Read c.p c.n c.st (sramBase c.n + sharedOff + c.a % 2 ^ 27) 64 (s.cmdPlace c.p c.tick c.pos) = (s, some m) →
        bits (nth (wordsOf m) 0 0) 17 16 ≠ 3 → bits (nth (wordsOf m) 0 0) 19 18 = 0 → 0 < bits (nth (wordsOf m) 3 0) 31 0 →
        ((u.station c.n c.st).takes.map fun k => (k.roving, k.want, k.start)) =
          [(c.roving, bits (nth (wordsOf m) 3 0) 31 0, s.now)] ∧ { u with stations := s.stations } = s)))

/-- Rows ROVING_TILE_SEND and ROVING_TILE_ARRIVE. A tile that a station has produced leaves its source at its tile time: it is
then under way to its destination, where it arrives a fixed delay after it was due, and the count of tiles that have left
grows by 1; before that time nothing leaves. On arrival at a station with an input queue that has room and that no command
waits at, the tile stands in the queue. -/
def Obligations.RovingTilesMove : Prop :=
  ∀ (t r j : Nat) (p : PartIdx) (d : Draft) (v : Roving) (r0 : State), let s := (r0.arrive t).syncDraft p.val
  (s.part p.val).draft = some d → d.rovs[r]? = some v →
  let x := s.part p.val
  (∀ due : Nat, s.departure p.val d v j = some due → x.issuing = true → fmGet x.left r 0 = j → j < v.count →
    (s.now < due → exec (.rovingTileSend t p r j) r0 = .next s) ∧
    (∀ (delay : Nat) (o : Nat × Nat × Nat × Tile), due ≤ s.now → v.invalid = false → v.fromAway = false →
      v.sendsAway = false → v.srcStation / 4096 ≠ 3 → v.srcStation / 4096 ≠ 7 → v.srcStation / 4096 ≠ 8 →
      s.tileDelay v = some delay → x.outs.find? (fun o => o.1 == r && o.2.1 == j && decide (o.2.2.1 ≤ s.now)) = some o →
      Does (.rovingTileSend t p r j) r0 fun u =>
        (u.part p.val).flight = x.flight ++ [(r, j, due + delay, o.2.2.2)] ∧ fmGet (u.part p.val).left r 0 = j + 1 ∧
        { { u with parts := s.parts } with arb := s.arb } = s ∧ ∀ q, q ≠ p.val → u.part q = s.part q)) ∧
  (∀ (e : Nat × Nat × Nat × Tile) (die : Nat),
    x.flight.find? (fun e => e.1 == r && e.2.1 == j && decide (e.2.2.1 ≤ s.now)) = some e →
    s.dieOfSlot v.dstSlot = some die → v.dstStation / 4096 ≠ 3 → v.dstStation / 4096 ≠ 7 → v.dstStation / 4096 ≠ 8 →
    s.queueFull p.val v.dstSlot v.dstStation r = false → (s.station v.dstSlot v.dstStation).takes = [] →
    Does (.rovingTileArrive t p r j) r0 fun u =>
      (u.station v.dstSlot v.dstStation).queue = (s.station v.dstSlot v.dstStation).queue ++
        [⟨s.now, r, j, e.2.2.2⟩] ∧ (u.part p.val).flight = x.flight.erase e ∧ u.mem = s.mem ∧
      { { u with parts := s.parts } with stations := s.stations } = s)

/-- Rows W_SETUP, W_MMA, W_BATT, W_ACC_OUT and W_ACC_IN. Each, when it issues and the scalar it reads holds no error, is on its
way to its whorl for 4 cycles, with that scalar. On arrival it joins the whorl's queue, in which at most four wait. When it
starts at the head of the queue, its bank not in use: w_setup empties the bank with its path, coordinates and chunk length,
and leaves the other. For a bank that is set up: w_acc_out produces eight RAW8 tiles on its roving, w_acc_in begins to take
eight, and w_batt, its area read without an error, uses that area for 128 cycles and leaves the bank's elements. -/
def Obligations.WhorlCommands : Prop :=
  (∀ row ∈ ([(.wSetup, 0x20, true), (.wMma, 0x21, false), (.wBatt, 0x22, true), (.wAccOut, 0x23, false),
      (.wAccIn, 0x24, false)] : List ((Nat → Cmd → Instr) × Nat × Bool)),
    ∀ (t : Nat) (c : Cmd) (i : Issued) (r0 s : State), r0.IssuesAs t c row.2.1 i s →
    (row.2.2 = true → s.SregGood i.n c.sa) →
    Does (row.1 t c) r0 fun u => s.Sent u i c 4 (if row.2.2 then s.sreg i.n c.sa else 0) 0) ∧
  (∀ (c : StCmd) (s : State), c.st / 4096 = 1 → s.waitingAt (s.whorl c.n (c.st % 64)) s.now < 4 →
    let u := s.happen (.landing c)
    u.whorl c.n (c.st % 64) = { s.whorl c.n (c.st % 64) with queue := (s.whorl c.n (c.st % 64)).queue ++ [c] } ∧
    u.wire = s.wire.erase c ∧ { { u with whorls := s.whorls } with wire := s.wire } = s) ∧
  (∀ (c : StCmd) (l : List StCmd) (s : State), c.st / 4096 = 1 → (s.whorl c.n (c.st % 64)).queue = c :: l →
    let w := c.st % 64
    let x := s.whorl c.n w
    let u := s.happen (.whorl c.n w)
    let y := u.whorl c.n w
    (x.inUse c.wBank s.now = false →
    (c.op = 0x20 → y.queue = l ∧
      y.bank c.wBank = {
        ready := true, path := c.f 66 65, tensor := c.a % 65536, keySwap := c.f 67 67 == 1, rowTile := c.f 15 0
        colTile := c.f 31 16, chunkLog2 := c.f 35 32, outUntil := (x.bank c.wBank).outUntil } ∧
      y.bank (1 - c.wBank) = x.bank (1 - c.wBank) ∧ { u with whorls := s.whorls } = s) ∧
    ((x.bank c.wBank).ready = true →
      (∀ r, c.op = 0x23 → s.roving c.p c.roving = some r → r.beginsAt c.n c.st = true → r.format = 7 → c.format = 7 →
        c.f 65 65 = 0 → (x.bank c.wBank).long = false → (x.bank c.wBank).err = [] →
        fmGet (u.part c.p).made c.roving 0 = fmGet (s.part c.p).made c.roving 0 + 8 ∧
        (u.part c.p).outs.length = (s.part c.p).outs.length + 8 ∧ y.queue = l ∧
        y.outFree = s.now + 256 * s.cycleUnits ∧ u.mem = s.mem) ∧
      (∀ r d, c.op = 0x24 → s.roving c.p c.roving = some r → (s.part c.p).draft = some d → r.endsAt c.n c.st = true →
        r.format = 7 → c.format = 0 → c.f 65 65 = 0 → d.portB c.n c.st c.roving = false →
        (s.station c.n c.st).takes = [] → (s.station c.n c.st).queue = [] →
        ((u.station c.n c.st).takes.map fun k => (k.roving, k.want, k.start)) = [(c.roving, 8, s.now)] ∧
        y.queue = l ∧ u.mem = s.mem) ∧
      (∀ m k, c.op = 0x22 → (x.bank c.wBank).long = false → (x.bank c.wBank).err = [] → c.format = 5 →
        c.f 20 0 * 64 + 67712 ≤ 96 * 2 ^ 20 → s.battReader c.n (c.f 20 0 * 64) = none →
        s.c0Read c.p c.n c.st (sramBase c.n + battOff + c.f 20 0 * 64) 67712 (s.cmdPlace c.p c.tick c.pos) = (s, some m) →
        s.stationKey c.p (sramBase c.n + battOff + c.f 20 0 * 64) 67712 = .ok k →
        y.queue = l ∧ y.battArea = c.f 20 0 * 64 ∧ y.battUntil = s.now + 128 * s.cycleUnits ∧
        (y.bank c.wBank).w = (x.bank c.wBank).w ∧ u.flyers = s.flyers))))

/-- Rows TILE_STEP_START, TILE_STEP_CHECK and RERUN_PAUSE_END. A w_mma at the head of its queue that has arrived, whose bank is
set up and free and whose port tiles are held, starts as a tile step of its path's cycles; before the step in front has had
its last product cycle nothing starts. 24 cycles after its last product cycle: when the guards and residues agree the working
copy becomes the bank and the step is over; when they see an error before the third attempt the bank is unchanged, the step
runs again, TILE_RERUN is raised and the partition's issue pauses. A pause that has ended lets issue resume, and its cycles
add to lag. -/
def Obligations.TileStepsAndReruns : Prop :=
  (∀ (t w p : Nat) (n : Slot) (c : StCmd) (l : List StCmd) (r0 : State), let s := r0.arrive t
    let x := s.whorl n.val w
    let k := x.bank c.wBank
    s.runsOn n.val = some p → x.queue = c :: l → c.op = 0x21 →
    (s.now < max c.arrival x.nextStep → exec (.tileStepStart t n w) r0 = .next s) ∧
    (∀ a b : Tile, l = [] → c.n = n.val → c.st % 64 = w → max c.arrival x.nextStep ≤ s.now → s.Quiet → k.ready = true →
      k.outUntil ≤ s.now → k.kLast = none → k.path = 0 → c.f 65 65 = 1 → c.f 66 66 = 1 → x.heldA = [a] → x.heldB = [b] →
      pathTakes 0 a b = true → Does (.tileStepStart t n w) r0 fun u =>
        ((u.whorl n.val w).steps.map fun e => (e.bank, e.kTile, e.start, e.attempt)) =
          (x.steps.map fun e => (e.bank, e.kTile, e.start, e.attempt)) ++ [(c.wBank, c.f 39 12, s.now, 1)] ∧
        (u.whorl n.val w).queue = [] ∧ ((u.whorl n.val w).bank c.wBank).kLast = some (c.f 39 12) ∧
        { u with whorls := s.whorls } = s)) ∧
  (∀ (t w p : Nat) (n : Slot) (e : TileStep) (es : List TileStep) (r0 : State), let s := r0.arrive t
    let x := s.whorl n.val w
    s.runsOn n.val = some p → x.steps = e :: es →
    (∀ r, s.now < e.start + (e.cycles + 23) * s.cycleUnits → exec (.tileStepCheck t n w r) r0 = .next s) ∧
    (e.start + (e.cycles + 23) * s.cycleUnits ≤ s.now → (x.bank e.bank).err = [] → e.bank < 2 →
      (Does (.tileStepCheck t n w .pass) r0 fun u =>
        (u.whorl n.val w).steps = es ∧ (u.whorl n.val w).bank e.bank = s.applyStep p (x.bank e.bank) e none ∧
        { u with whorls := s.whorls } = s) ∧
      (∀ r, r ≠ .bankError → stepChecked (x.bank e.bank) e r = none → e.attempt < 3 →
        Does (.tileStepCheck t n w r) r0 fun u =>
          (u.whorl n.val w).bank0 = x.bank0 ∧ (u.whorl n.val w).bank1 = x.bank1 ∧
          ((u.whorl n.val w).steps.map fun e => e.attempt) = (e.attempt + 1) :: es.map (fun e => e.attempt) ∧
          u.odGet 0xB105 2 = s.odGet 0xB105 2 + 1 ∧ (u.part p).pauseUntil.isSome = true ∧ u.mem = s.mem))) ∧
  (∀ (t v : Nat) (p : PartIdx) (r0 : State), let s := r0.arrive t; (s.part p.val).pauseUntil = some v → v ≤ s.now →
    (s.part p.val).stalled = [] → Does (.rerunPauseEnd t p) r0 fun u =>
      u.part p.val = { s.part p.val with
        pauseUntil := none
        tickBegan := (s.part p.val).tickBegan + (v - (s.part p.val).pauseFrom)
        lag := (s.part p.val).lag + (v - (s.part p.val).pauseFrom) / s.cycleUnits } ∧
      { u with parts := s.parts } = s)

/-- Rows T_LOAD, T_ACC, T_SCALE, T_ADD, T_SUB, T_MUL, T_DIV, T_MIN, T_MAX, T_FMA, T_SQRT, T_SIGN, T_FUNC, T_CMP, T_LIVE, T_TRI,
T_SEL, T_RSUM, T_RMAX, T_RMIN, T_CSUM, T_CMAX, T_CMIN, T_CONV, T_SMAX_MAX, T_SMAX_SUM, T_SMAX_OUT, T_SMAX_DOT, T_SMAX_BWD,
T_NORM_SUM, T_NORM_VAR, T_NORM_OUT, T_NORM_DOT, T_NORM_BWD, T_OPT_STEP and T_OPT_COMMIT. Each, when it issues and the scalars it
reads hold no error, is on its way to its engine for 4 cycles with those scalars. On arrival: a command that names a source
waits in the queue when fewer than four wait; with none waiting, a command without a source joins the pass in assembly within
its eight cycles when its stage is later than every stage there and the internal type is the same, and else raises
COMMAND_INVALID. When stage 1 is free for the command at the head, it opens a pass of its own. -/
def Obligations.TwistCommandsAssemble : Prop :=
  (∀ row ∈ ([(.tLoad, 0x40), (.tAcc, 0x41), (.tScale, 0x48), (.tAdd, 0x50), (.tSub, 0x51), (.tMul, 0x52), (.tDiv, 0x53),
    (.tMin, 0x54), (.tMax, 0x55), (.tFma, 0x56), (.tSqrt, 0x57), (.tSign, 0x58), (.tFunc, 0x60), (.tCmp, 0x64),
    (.tLive, 0x65), (.tTri, 0x66), (.tSel, 0x67), (.tRsum, 0x68), (.tRmax, 0x69), (.tRmin, 0x6A), (.tCsum, 0x6B),
    (.tCmax, 0x6C), (.tCmin, 0x6D), (.tConv, 0x6E), (.tSmaxMax, 0x70), (.tSmaxSum, 0x71), (.tSmaxOut, 0x72),
    (.tSmaxDot, 0x73), (.tSmaxBwd, 0x74), (.tNormSum, 0x75), (.tNormVar, 0x76), (.tNormOut, 0x77), (.tNormDot, 0x78),
    (.tNormBwd, 0x79), (.tOptStep, 0x7C), (.tOptCommit, 0x7D)] : List ((Nat → Cmd → Instr) × Nat)),
    ∀ (t : Nat) (c : Cmd) (i : Issued) (r0 s : State), r0.IssuesAs t c row.2 i s →
    (readsA c = true → s.SregGood i.n c.sa) → (readsB c = true → s.SregGood i.n c.sb) →
    Does (row.1 t c) r0 fun u =>
      s.Sent u i c 4 (if readsA c then s.sreg i.n c.sa else 0) (if readsB c then s.sreg i.n c.sb else 0)) ∧
  (∀ (c : StCmd) (s : State), c.st / 4096 = 2 →
    let e := c.st % 64
    let x := s.twist c.n e
    let u := s.happen (.landing c)
    let joins := x.pass ≠ [] ∧ s.now < x.began + 8 * s.cycleUnits ∧ canJoin x.pass c = true ∧
      x.pass.all (fun d => d.wide == c.wide) = true
    (c.srcA ≠ 0 → x.queue.length < 4 → u.twist c.n e = { x with queue := x.queue ++ [c] } ∧
      u.wire = s.wire.erase c ∧ { { u with twists := s.twists } with wire := s.wire } = s) ∧
    (c.srcA = 0 → x.queue = [] → joins → u.twist c.n e = { x with pass := x.pass ++ [c] } ∧
      u.wire = s.wire.erase c ∧ { { u with twists := s.twists } with wire := s.wire } = s) ∧
    (c.srcA = 0 → x.queue = [] → ¬joins → s.RollsBack c.p → u.odGet 0xB103 4 = s.odGet 0xB103 4 + 1 ∧
      (u.part c.p).restoring = true)) ∧
  (∀ (n e : Nat) (c : StCmd) (s : State), (s.twist n e).pass = [] → (s.twist n e).queue = [c] →
    let u := s.happen (.pass n e)
    u.twist n e = { s.twist n e with pass := [c], queue := [], began := s.now } ∧ { u with twists := s.twists } = s)

/-- Row TWIST_PASS_FLOW. One command of a pass, applied to the pass's data: t_scale gives fma(x, s[a], s[b]) and stage 3 its
operation with operand B, element by element; the comparisons keep an element live only where their condition holds and
change no value; t_sel replaces dead elements by operand B; a reduction changes no element. A command without a buffer as
destination leaves the engine's buffers alone, and every stage keeps the pass's shape and internal type.
Eight cycles after assembly began, or later when it reads a buffer of the pass before, a pass of ordinary commands whose
source is a tile buffer and that writes no roving flows: the buffers are those its commands give, one after another, each
reading the engine as it stood when flow started, and the pass is over. Before that nothing happens. -/
def Obligations.TwistStagesAndPasses : Prop :=
  (∀ (old tw : Twist) (c : StCmd) (x : Flow) (k : Nat), k < x.size →
    let y := (stageStep old c (tw, x)).2
    let b := operandB old c x k
    let sa := scalarOf x.wide c.a
    let sb := scalarOf x.wide c.b
    (c.op = 0x48 → y.at_ k = (fFma x.flt c.rm (x.at_ k) sa sb).1) ∧
    (c.op = 0x50 → y.at_ k = (fAdd x.flt c.rm (x.at_ k) b).1) ∧
    (c.op = 0x51 → y.at_ k = (fSub x.flt c.rm (x.at_ k) b).1) ∧
    (c.op = 0x52 → y.at_ k = (fMul x.flt c.rm (x.at_ k) b).1) ∧
    (c.op = 0x53 → y.at_ k = (fDiv x.flt c.rm (x.at_ k) b).1) ∧
    (c.op = 0x54 → y.at_ k = (fMin x.flt (x.at_ k) b).1) ∧
    (c.op = 0x55 → y.at_ k = (fMax x.flt (x.at_ k) b).1) ∧
    (c.op = 0x56 → y.at_ k = (fFma x.flt c.rm (x.at_ k) b sa).1) ∧
    (c.op = 0x57 → y.at_ k = (fSqrt x.flt c.rm (x.at_ k)).1) ∧
    (c.op = 0x58 → y.at_ k = signCode x.flt c.sub (x.at_ k) b) ∧
    (c.op = 0x60 → y.at_ k = funcCode c.sub x.wide (x.at_ k)) ∧
    (c.op = 0x64 → y.alive k = (x.alive k && cmpCode x.flt c.sub (x.at_ k) b) ∧ y.data = x.data) ∧
    (c.op = 0x65 → y.alive k = (x.alive k && !(x.flt.decode b).isZero) ∧ y.data = x.data) ∧
    (c.op = 0x67 → y.at_ k = if x.alive k then x.at_ k else b) ∧
    (0x68 ≤ c.op → c.op < 0x6E → y.data = x.data ∧ y.live = x.live) ∧
    (c.dst < 2 → (stageStep old c (tw, x)).1 = tw) ∧
    y.rows = x.rows ∧ y.cols = x.cols ∧ y.wide = x.wide) ∧
  (∀ (t p e : Nat) (n : Slot) (c0 : StCmd) (cs : List StCmd) (r0 : State), let s := r0.arrive t
    let x := s.twist n.val e
    s.runsOn n.val = some p → x.pass = c0 :: cs →
    (s.now < s.flowTime x → exec (.twistPassFlow t n e) r0 = .next s) ∧
    (s.flowTime x ≤ s.now → 2 ≤ c0.srcA → c0.srcA ≤ 5 → s.Quiet →
      (∀ c ∈ c0 :: cs, twistStage c.op < 7 ∧ twistBad c = false) → x.queue = [] →
      Does (.twistPassFlow t n e) r0 fun u =>
        (∀ j, j < 4 → (u.twist n.val e).buf j =
          (((c0 :: cs).foldl (fun a c => stageStep { x with pass := [], headAt := s.now } c a)
            ({ x with pass := [], headAt := s.now }, flowOfBuf (x.buf (c0.srcA - 2)) c0.wide)).1).buf j) ∧
        (u.twist n.val e).pass = [] ∧ u.mem = s.mem ∧ u.flyers = s.flyers ∧ u.parts = s.parts))

/-- Rows BX_FADD, BX_FSUB, BX_FMUL, BX_FDIV, BX_FSQRT, BX_FMIN, BX_FMAX, BX_FSGNJ, BX_FMADD, BX_FMSUB and BX_FNMADD. For every floating-point operation of Table 07-6, on a hart whose extension is on, with its operands in order, a width of
32 or 64, vl above 0 and a valid rounding direction where the operation rounds: every active element of vd is the result of
the operation (bx.fmadd, fmsub and fnmadd round once), every other element keeps its value, the flags of all active elements
accrue into fflags, `bs` is dirty, and nothing else changes. -/
def Obligations.BvxFloatOperations : Prop :=
  ∀ row ∈ ([(.bxFadd, custom0 0x00 true, true, fun ew rm a b _ => fAdd (fltOfEw ew) rm a b),
  (.bxFsub, custom0 0x01 true, true, fun ew rm a b _ => fSub (fltOfEw ew) rm a b),
  (.bxFmul, custom0 0x02 true, true, fun ew rm a b _ => fMul (fltOfEw ew) rm a b),
  (.bxFdiv, custom0 0x03 true, true, fun ew rm a b _ => fDiv (fltOfEw ew) rm a b),
  (.bxFsqrt, fun w => custom0 0x04 false w && bxA w == 0, true, fun ew rm a _ _ => fSqrt (fltOfEw ew) rm a),
  (.bxFmin, custom0 0x05 true, false, fun ew _ a b _ => rvMin (fltOfEw ew) a b),
  (.bxFmax, custom0 0x06 true, false, fun ew _ a b _ => rvMax (fltOfEw ew) a b),
  (.bxFsgnj, custom0 0x07 true, false, fun ew _ a b _ => (setBit a (ew - 1) (bit b (ew - 1)), 0)),
  (.bxFmadd, custom0 0x08 true, true, fun ew rm a b d => fFma (fltOfEw ew) rm b a d),
  (.bxFmsub, custom0 0x09 true, true, fun ew rm a b d => fFma (fltOfEw ew) rm b a (flipSign ew d)),
  (.bxFnmadd, custom0 0x0A true, true, fun ew rm a b d => fFma (fltOfEw ew) rm (flipSign ew b) a d)] :
    List ((Nat → HartIdx → BitVec 32 → Instr) × (Nat → Bool) × Bool × (Nat → Rm → Nat → Nat → Nat → Nat × Nat))),
  ∀ (t : Nat) (h : HartIdx) (w : BitVec 32) (r0 : State), let s := r0.arrive t;
  let x := s.hart h.val
  let v := w.toNat
  s.BxReady h.val → row.2.1 v = true → s.operandsOk h.val v true true = true → 0 < x.vl →
  (row.2.2.1 = true → x.rm.isSome = true) →
  let r := fun i => row.2.2.2 x.ew (x.rm.getD .rne) (s.elem h.val (bxB v) i) (s.rightElem h.val v true i) (s.elem h.val (bxD v) i)
  Does (row.1 t h w) r0 fun u =>
    (∀ i, i < x.vlmax → u.elem h.val (bxD v) i =
      if i ∈ s.active h.val v then (r i).1 % 2 ^ x.ew else s.elem h.val (bxD v) i) ∧
    (u.hart h.val).fflags = x.fflags ||| BitVec.ofNat 5 ((s.active h.val v).foldl (fun m i => m ||| (r i).2) 0) ∧
    s.OnlyVector u h.val (bxD v) x.group

/-- Row BX_FREDOSUM. On a hart whose extension is on, with a valid frm, operands in order and vl above 0: the sum starts at element 0 of vs1
and takes elements 0 to vl - 1 of vs2 in ascending index, one addition each, rounded under frm, without the masked-off ones.
It is element 0 of vd; the other elements keep their value. -/
def Obligations.FredosumInOrder : Prop :=
  ∀ (t : Nat) (h : HartIdx) (w : BitVec 32) (rm : Rm) (r0 : State), let s := r0.arrive t;
  let x := s.hart h.val
  let v := w.toNat
  s.BxReady h.val → custom0 0x0B false v = true → s.operandsOk h.val v true true = true → 0 < x.vl → x.rm = some rm →
  let taken := (List.range x.vl).filter fun i => !bxMk v || bit (s.maskReg h.val (bxMsk v)) i
  let sum := taken.foldl (fun a i => (fAdd (fltOfEw x.ew) rm a (s.elem h.val (bxB v) i)).1) (s.elem h.val (bxA v) 0)
  Does (.bxFredosum t h w) r0 fun u =>
    (∀ i, i < x.vlmax → u.elem h.val (bxD v) i = if i = 0 then sum % 2 ^ x.ew else s.elem h.val (bxD v) i) ∧
    s.OnlyVector u h.val (bxD v) x.group

/-- Rows BX_ADD, BX_SUB, BX_MUL, BX_AND, BX_OR, BX_XOR, BX_SLL, BX_SRL, BX_SRA, BX_MINU, BX_MAXU, BX_MIN and BX_MAX. For every integer operation of Table 07-6, on a hart whose extension is on, with its operands in order and vl above 0:
every active element of vd is the operation of the elements of vs2 and vs1 (or the scalar) modulo 2^ew, shifts take the
amount modulo ew, sra, min and max are signed; every other element and fflags keep their value, and nothing else changes. -/
def Obligations.BvxIntegerOperations : Prop :=
  ∀ row ∈ ([(.bxAdd, 0x10, fun _ a b => a + b), (.bxSub, 0x11, fun ew a b => a + (2 ^ ew - b)), (.bxMul, 0x12, fun _ a b => a * b),
    (.bxAnd, 0x13, fun _ a b => a &&& b), (.bxOr, 0x14, fun _ a b => a ||| b), (.bxXor, 0x15, fun _ a b => a ^^^ b),
    (.bxSll, 0x16, fun ew a b => a <<< (b % ew)), (.bxSrl, 0x17, fun ew a b => a >>> (b % ew)),
    (.bxSra, 0x18, fun ew a b => ofSigned ew (toSigned ew a / (2 ^ (b % ew) : Nat))),
    (.bxMinu, 0x19, fun _ a b => min a b), (.bxMaxu, 0x1A, fun _ a b => max a b),
    (.bxMin, 0x1B, fun ew a b => if toSigned ew a ≤ toSigned ew b then a else b),
    (.bxMax, 0x1C, fun ew a b => if toSigned ew a ≤ toSigned ew b then b else a)] :
      List ((Nat → HartIdx → BitVec 32 → Instr) × Nat × (Nat → Nat → Nat → Nat))),
  ∀ (t : Nat) (h : HartIdx) (w : BitVec 32) (r0 : State), let s := r0.arrive t;
  let x := s.hart h.val
  let v := w.toNat
  s.BxReady h.val → custom0 row.2.1 true v = true → s.operandsOk h.val v false true = true → 0 < x.vl →
  Does (row.1 t h w) r0 fun u =>
    (∀ i, i < x.vlmax → u.elem h.val (bxD v) i =
      if i ∈ s.active h.val v then row.2.2 x.ew (s.elem h.val (bxB v) i) (s.rightElem h.val v false i) % 2 ^ x.ew
      else s.elem h.val (bxD v) i) ∧
    (u.hart h.val).fflags = x.fflags ∧ s.OnlyVector u h.val (bxD v) x.group

/-- Rows BX_FEQ, BX_FLT, BX_FLE, BX_SEQ, BX_SLTU, BX_SLT, BX_MAND, BX_MOR, BX_MXOR and BX_MANDN. A compare with its operands in order writes bit i of m[vd] for every active element i and leaves the other bits of that
register, and every other mask register, as they are; the floating-point ones accrue their flags. bx.mand, mor, mxor and
mandn combine two mask registers bit by bit. A compare into a register above m7 is an illegal instruction that changes
nothing but the exception taken. -/
def Obligations.BvxComparesAndMasks : Prop :=
  (∀ row ∈ ([(.bxFeq, 0x0C, true, fpEq), (.bxFlt, 0x0D, true, fun ew a b => fpOrd ew a b false),
    (.bxFle, 0x0E, true, fun ew a b => fpOrd ew a b true), (.bxSeq, 0x1D, false, fun _ a b => (a == b, 0)),
    (.bxSltu, 0x1E, false, fun _ a b => (decide (a < b), 0)),
    (.bxSlt, 0x1F, false, fun ew a b => (decide (toSigned ew a < toSigned ew b), 0))] :
      List ((Nat → HartIdx → BitVec 32 → Instr) × Nat × Bool × (Nat → Nat → Nat → Bool × Nat))),
    ∀ (t : Nat) (h : HartIdx) (w : BitVec 32) (r0 : State), let s := r0.arrive t;
    let x := s.hart h.val
    let v := w.toNat
    s.BxReady h.val → custom0 row.2.1 true v = true →
    (bxD v < 8 → s.operandsOk h.val v row.2.2.1 false = true → 0 < x.vl →
      let r := fun i => row.2.2.2 x.ew (s.elem h.val (bxB v) i) (s.rightElem h.val v row.2.2.1 i)
      Does (row.1 t h w) r0 fun u =>
        (∀ i, i < 512 → bit (u.maskReg h.val (bxD v)) i =
          if i ∈ s.active h.val v then (r i).1 else bit (s.maskReg h.val (bxD v)) i) ∧
        (∀ k, k ≠ bxD v → u.maskReg h.val k = s.maskReg h.val k) ∧
        (u.hart h.val).fflags = x.fflags ||| BitVec.ofNat 5
          (if row.2.2.1 then (s.active h.val v).foldl (fun m i => m ||| (r i).2) 0 else 0) ∧
        { u.hart h.val with m := x.m, bxbs := x.bxbs, fflags := x.fflags } = x ∧ s.OnlyHart u h.val) ∧
    (8 ≤ bxD v → Does (row.1 t h w) r0 fun u =>
      s.Traps u h.val 2 v)) ∧
  (∀ row ∈ ([(.bxMand, 0x0C, fun a b => a && b), (.bxMor, 0x0D, fun a b => a || b), (.bxMxor, 0x0E, fun a b => a != b),
    (.bxMandn, 0x0F, fun a b => a && !b)] : List ((Nat → HartIdx → BitVec 32 → Instr) × Nat × (Bool → Bool → Bool))),
    ∀ (t : Nat) (h : HartIdx) (w : BitVec 32) (r0 : State), let s := r0.arrive t;
    let x := s.hart h.val
    let v := w.toNat
    s.BxReady h.val → custom1 row.2.1 false v = true → Does (row.1 t h w) r0 fun u =>
      (∀ i, i < 512 → bit (u.maskReg h.val (bxD v % 8)) i =
        row.2.2 (bit (s.maskReg h.val (bxA v % 8)) i) (bit (s.maskReg h.val (bxB v % 8)) i)) ∧
      (∀ k, k ≠ bxD v % 8 → u.maskReg h.val k = s.maskReg h.val k) ∧
      { u.hart h.val with m := x.m, bxbs := x.bxbs } = x ∧ s.OnlyHart u h.val)

/-- Rows BX_SETVL, BX_MRD, BX_MWR, BX_EXT, BX_BCAST and BX_TPERM. bx.setvl sets vtype and vl to the smaller of x[rs1] and VLMAX, and x[rd] to it; a group that would hold more than 512
elements sets the ill bit and vl 0. bx.mrd and bx.ext bring a chunk of a mask register or an element to x[rd], bx.mwr a
register to a chunk; bx.bcast writes a scalar to every active element and bx.tperm the table element each index names, 0 for
an index outside the table. Nothing else changes. -/
def Obligations.BvxMovesAndPermutes : Prop :=
  ∀ (t : Nat) (h : HartIdx) (w : BitVec 32) (r0 : State), let s := r0.arrive t;
  let x := s.hart h.val
  let v := w.toNat
  let put := fun (n : Nat) (u : State) =>
    u.getX h.val (bxD v) = (if bxD v = 0 then 0 else n) ∧ (∀ r, r ≠ bxD v → u.getX h.val r = s.getX h.val r)
  (s.hartGone h.val = false → x.bxbs ≠ 0 → custom1 0x18 false v = true → bit v 24 = false →
    let vlmax := 2 ^ bits v 23 22 * 4096 / (8 * 2 ^ bits v 21 20)
    let vl := if 512 < vlmax then 0 else min (s.getX h.val (bxA v)) vlmax
    Does (.bxSetvl t h w) r0 fun u =>
      (u.hart h.val).vl = vl ∧ (u.hart h.val).ill = decide (512 < vlmax) ∧ bits (u.hart h.val).bxvtype.toNat 62 0 = bits v 23 20 ∧
      put vl u ∧ { u.hart h.val with x := x.x, bxvl := x.bxvl, bxvtype := x.bxvtype } = x ∧ s.OnlyHart u h.val) ∧
  (s.BxReady h.val →
    (custom1 0x10 false v = true → Does (.bxMrd t h w) r0 fun u =>
      put (bits (s.maskReg h.val (bxA v % 8)) (64 * bits v 22 20 + 63) (64 * bits v 22 20)) u ∧
      { u.hart h.val with x := x.x } = x ∧ s.OnlyHart u h.val) ∧
    (custom1 0x11 false v = true → Does (.bxMwr t h w) r0 fun u =>
      (∀ i, i < 512 → bit (u.maskReg h.val (bxD v % 8)) i =
        if i / 64 = bits v 22 20 then bit (s.getX h.val (bxA v)) (i % 64) else bit (s.maskReg h.val (bxD v % 8)) i) ∧
      (∀ k, k ≠ bxD v % 8 → u.maskReg h.val k = s.maskReg h.val k) ∧
      { u.hart h.val with m := x.m, bxbs := x.bxbs } = x ∧ s.OnlyHart u h.val) ∧
    (custom1 0x12 false v = true → aligned x.group [bxB v] = true → Does (.bxExt t h w) r0 fun u =>
      put (if s.getX h.val (bxA v) < x.vlmax then s.elem h.val (bxB v) (s.getX h.val (bxA v)) else 0) u ∧
      { u.hart h.val with x := x.x } = x ∧ s.OnlyHart u h.val) ∧
    (custom1 0x0B true v = true → bxB v ≤ 1 → aligned x.group [bxD v] = true → 0 < x.vl → Does (.bxBcast t h w) r0 fun u =>
      (∀ i, i < x.vlmax → u.elem h.val (bxD v) i = if i ∈ s.active h.val v
        then (if bxB v = 0 then s.getX h.val (bxA v) else s.fScalar h.val (bxA v) x.ew) % 2 ^ x.ew
        else s.elem h.val (bxD v) i) ∧ (u.hart h.val).fflags = x.fflags ∧ s.OnlyVector u h.val (bxD v) x.group) ∧
    (∀ n, v % 128 = 0x2B → 4 ≤ bxF6 v → bxF6 v ≤ 7 → n = 2 ^ (bxF6 v - 4) → aligned x.group [bxD v, bxA v] = true →
      aligned n [bxB v] = true → overlap (bxB v) n (bxA v) x.group = false → overlap (bxB v) n (bxD v) x.group = false →
      overlap (bxA v) x.group (bxD v) x.group = false → 0 < x.vl → Does (.bxTperm t h w) r0 fun u =>
        (∀ i, i < x.vlmax → u.elem h.val (bxD v) i = if i ∈ s.active h.val v
          then (if s.elem h.val (bxA v) i < n * 4096 / x.ew
            then elemAt (s.vGroup h.val (bxB v) n) x.ew (s.elem h.val (bxA v) i) else 0)
          else s.elem h.val (bxD v) i) ∧ (u.hart h.val).fflags = x.fflags ∧ s.OnlyVector u h.val (bxD v) x.group))

/-- Rows BX_FCVT, BX_CVTN and BX_CVTW. bx.fcvt converts every active element between the widths and kinds its sub names and accrues the flags; a result outside
the range of an integer is a free value of Config. bx.cvtn writes one code per element, converted with the rounding and
saturation of bxhank, and with hanks their scale bytes into the other register; bx.cvtw widens every active element from its
code (times its hank's scale). bxstart is 0 after each, and only the destination changes. A reserved format or hank
length is an illegal instruction. -/
def Obligations.BvxConversions : Prop :=
  ∀ (t : Nat) (h : HartIdx) (w : BitVec 32) (r0 : State), let s := r0.arrive t; s.BxReady h.val →
  let x := s.hart h.val
  let v := w.toNat
  (∀ rm, custom1 0x0A true v = true → 2 ≤ bxB v → bxB v ≤ 5 → 32 ≤ x.ew → aligned x.group [bxA v] = true →
    aligned x.group [bxD v] = true → 0 < x.vl → x.rm = some rm → x.bxstart = 0 → Does (.bxFcvt t h w) r0 fun u =>
      (∀ i, i < x.vlmax → u.elem h.val (bxD v) i = if i ∈ s.active h.val v
        then (fcvtElem (bxB v) x.ew rm (s.elem h.val (bxA v) i)).1 % 2 ^ x.ew else s.elem h.val (bxD v) i) ∧
      (u.hart h.val).fflags = x.fflags ||| BitVec.ofNat 5 ((s.active h.val v).foldl
        (fun m i => m ||| (fcvtElem (bxB v) x.ew rm (s.elem h.val (bxA v) i)).2) 0) ∧
      s.OnlyVector u h.val (bxD v) x.group) ∧
  (custom1 0x08 false v = true → x.cvOk = true → 32 ≤ x.ew → x.bxstart = 0 → x.cvHank = 0 → aligned x.group [bxA v] = true →
    aligned x.codeRegs [bxD v] = true → overlap (bxD v) x.codeRegs (bxA v) x.group = false →
    overlap (bxD v) x.codeRegs (bxB v) 1 = false → overlap (bxB v) 1 (bxA v) x.group = false → 0 < x.vl → x.vl ≤ x.vlmax →
    Does (.bxCvtn t h w) r0 fun u =>
      (∀ i, i < x.vl → elemAt (u.vGroup h.val (bxD v) x.codeRegs) (8 * x.codeBytes) i =
        (convertTo (fltOf x.cvFmt) (bit x.bxhank.toNat 7) (bit x.bxhank.toNat 8) .rne false
          ((fltOfEw x.ew).decode (s.elem h.val (bxA v) i))).1 % 2 ^ (8 * x.codeBytes)) ∧
      (u.hart h.val).fflags = x.fflags ∧ s.OnlyVector u h.val (bxD v) x.codeRegs) ∧
  (custom1 0x09 false v = true → x.cvOk = true → x.ew = 64 → x.bxstart = 0 → aligned x.codeRegs [bxA v] = true →
    aligned x.group [bxD v] = true → 0 < x.vl → Does (.bxCvtw t h w) r0 fun u =>
      let code := fun i => (fltOf x.cvFmt).decode (elemAt (s.vGroup h.val (bxA v) x.codeRegs) (8 * x.codeBytes) i)
      let scale := fun i => elemAt (s.vGroup h.val (bxB v) 1) 8 (i / x.hankLen)
      (∀ i, i < x.vlmax → u.elem h.val (bxD v) i = if i ∈ s.active h.val v
        then (fp64.encode (if x.hankLen = 0 then code i else if scale i = 0xFF then .nan
          else (code i).scale2 ((scale i : Int) - 127))) % 2 ^ 64
        else s.elem h.val (bxD v) i) ∧ (u.hart h.val).fflags = x.fflags ∧ s.OnlyVector u h.val (bxD v) x.group) ∧
  (custom1 0x08 false v = true ∨ custom1 0x09 false v = true → x.cvOk = false →
    Does (if custom1 0x08 false v then .bxCvtn t h w else .bxCvtw t h w) r0 fun u =>
      s.Traps u h.val 2 v)

/-- Rows BX_LD, BX_LDFF and BX_ST. When all active elements complete, a load or store ends with bxstart 0. At the first
element that faults a load or store takes the exception with that element in bxstart, the elements before it done; bx.ldff
takes it only at the first active element, and at a later one ends with vl trimmed to the element and `ff` set. An element
for which the hart's 4,096 requests leave no room makes the command wait, to go on from that element. With vl 0 nothing
happens. -/
def Obligations.BvxLoadsAndStores : Prop :=
  ∀ (t : Nat) (h : HartIdx) (w : BitVec 32) (pf : Option PageFault) (r0 : State), let s := r0.arrive t; s.BxReady h.val →
  let x := s.hart h.val
  let v := w.toNat
  bxB v = 0 → aligned x.group [bxD v] = true →
  (∀ row ∈ ([(.bxLd, 0x00, false), (.bxLdff, 0x01, false), (.bxSt, 0x02, true)] :
      List ((Nat → HartIdx → BitVec 32 → Option PageFault → Instr) × Nat × Bool)), custom1 row.2.1 true v = true →
    (x.vl = 0 → exec (row.1 t h w pf) r0 = .next s) ∧
    (0 < x.vl → ∀ (s1 : State) (fault : Option (Nat × Nat × Nat)) (wait : Option Nat),
      s.elements h.val v row.2.2 pf (fun s i => if row.2.2 then s.storeElem h.val v i else s.loadElem h.val v i)
        (s.active h.val v) = (s1, fault, wait) →
      (fault = none → wait = none → Does (row.1 t h w pf) r0 fun u =>
        u.hart h.val = { s1.hart h.val with
          bxstart := 0, bxbs := if row.2.2 ∧ (s1.hart h.val).bxstart = 0 then (s1.hart h.val).bxbs else 3 } ∧
        { u with harts := s1.harts } = s1) ∧
      (∀ k cause tval, fault = some (k, cause, tval) → wait = none → cause < 64 → tval < 2 ^ 64 →
        (row.2.1 = 1 → (s.active h.val v).head? = some k) → Does (row.1 t h w pf) r0 fun u =>
        (u.hart h.val).bxstart = BitVec.ofNat 16 k ∧ (u.hart h.val).bxvl = (s1.hart h.val).bxvl ∧
        (u.hart h.val).v = (s1.hart h.val).v ∧ (u.hart h.val).trap = some ⟨cause, tval⟩ ∧
        (u.hart h.val).getCsr ((s1.hart h.val).trapRegs cause).cause = cause ∧
        (u.hart h.val).getCsr ((s1.hart h.val).trapRegs cause).tval = tval ∧ { u with harts := s1.harts } = s1) ∧
      (∀ i, wait = some i → Does (row.1 t h w pf) r0 fun u =>
        u.ans.status = stWait ∧ (row.2.1 ≠ 1 → (u.hart h.val).bxstart = BitVec.ofNat 16 i) ∧ { u with harts := s1.harts, ans := s1.ans } = s1))) ∧
  (∀ s1 k cause tval, custom1 0x01 true v = true → 0 < x.vl →
    s.elements h.val v false pf (fun s i => s.loadElem h.val v i) (s.active h.val v) = (s1, some (k, cause, tval), none) →
    (s.active h.val v).head? ≠ some k → Does (.bxLdff t h w pf) r0 fun u =>
    u.hart h.val = { s1.hart h.val with bxbs := 3, bxvl := BitVec.ofNat 64 k, bxff := true, bxstart := 0 } ∧
    { u with harts := s1.harts } = s1)

/-- Rows BX_WREL, BX_WSTAT, BX_WWAIT, BX_WWAIT_WAKE and WINDOW_FLAG_SET. bx.wrel, when no earlier access of the hart is outstanding, writes the code of Table 07-8 to x[rd]; only under code 0 is the
hart counted, and the release that completes the quorum starts the write-back. bx.wstat writes the status word. bx.wwait
writes it at once when the wait is over, waits otherwise, and traps where WFI would; a hart whose wait has ended resumes. The
end of the write-back sets the release flag and the solver side holds the window no more. -/
def Obligations.CouplingWindows : Prop :=
  ∀ (t : Nat) (h : HartIdx) (w : BitVec 32) (r0 : State), let s := r0.arrive t;
  let x := s.hart h.val
  let v := w.toNat
  let n := s.getX h.val (bxA v)
  let put := fun (r k : Nat) (u : State) => u.getX h.val r = (if r = 0 then 0 else k % 2 ^ 64) ∧
    (∀ j, j ≠ r → u.getX h.val j = s.getX h.val j) ∧ ∀ k, k ≠ h.val → u.hart k = s.hart k
  (s.BxReady h.val →
    (custom1 0x19 false v = true → (s.srcUnit (hartUnit h.val)).outstanding = [] → (s.srcUnit (hartUnit h.val)).held = [] →
      (s.hartWindow h.val n = none → Does (.bxWrel t h w) r0 fun u => put (bxD v) 4 u ∧ s.OnlyHart u h.val) ∧
      (∀ p d, s.hartWindow h.val n = some (p, d) → n < (s.part p).wins.length →
        let y := s.win p n
        (s.solverHolds p n = false → Does (.bxWrel t h w) r0 fun u => put (bxD v) 3 u ∧ s.OnlyHart u h.val) ∧
        (s.solverHolds p n = true → y.writeBack = true → Does (.bxWrel t h w) r0 fun u => put (bxD v) 2 u ∧ s.OnlyHart u h.val) ∧
        (s.solverHolds p n = true → y.writeBack = false → h.val ∈ y.counted →
          Does (.bxWrel t h w) r0 fun u => put (bxD v) 1 u ∧ s.OnlyHart u h.val) ∧
        (s.solverHolds p n = true → y.writeBack = false → h.val ∉ y.counted → Does (.bxWrel t h w) r0 fun u =>
          put (bxD v) 0 u ∧ u.win p n =
            { y with counted := y.counted ++ [h.val], writeBack := decide (s.quorum p n ≤ y.counted.length + 1) } ∧
          (∀ k, k ≠ n → u.win p k = s.win p k) ∧ (∀ q, q ≠ p → u.part q = s.part q) ∧
          { u.bare s with harts := s.harts, parts := s.parts } = s))) ∧
    (custom1 0x1A false v = true → Does (.bxWstat t h w) r0 fun u =>
      put (bxD v) (s.windowStatus h.val n) u ∧ s.OnlyHart u h.val) ∧
    (∀ tw, custom1 0x1B false v = true →
      let tW := x.mode ≠ .machine ∧ bit (x.getCsr 0x300) 21 = true
      let vtW := x.mode.virtual = true ∧ bit (x.getCsr 0x600) 21 = true
      (tw = .tw ∨ tw = .none ∧ tW → Does (.bxWwait t h w tw) r0 fun u => s.Traps u h.val 2 v) ∧
      (tw = .vtw ∨ tw = .none ∧ ¬tW ∧ vtW → Does (.bxWwait t h w tw) r0 fun u => s.Traps u h.val 22 v) ∧
      (tw = .none → ¬tW → ¬vtW →
        (s.waitEnds h.val n = true → Does (.bxWwait t h w tw) r0 fun u =>
          put (bxD v) (s.windowStatus h.val n) u ∧ s.OnlyHart u h.val) ∧
        (s.waitEnds h.val n = false → Does (.bxWwait t h w tw) r0 fun u =>
          u.hart h.val = { x with waiting := some (n, bxD v) } ∧ s.OnlyHart u h.val)))) ∧
  (∀ k r, x.waiting = some (k, r) → s.hartGone h.val = false → s.waitEnds h.val k = true → Does (.bxWwaitWake t h) r0 fun u =>
    put r (s.windowStatus h.val k) u ∧ (u.hart h.val).waiting = none ∧ s.OnlyHart u h.val) ∧
  (∀ (p : PartIdx) (k : Nat), k < (s.part p.val).wins.length → (s.win p.val k).writeBack = true →
    Does (.windowFlagSet t p k) r0 fun u =>
      let y := s.win p.val k
      u.win p.val k = { y with
        writeBack := false
        flag := true
        lastCounted := y.counted
        bufs := y.bufs.map fun b => if b = .held .solver then .released .solver else b } ∧
      u.solverHolds p.val k = false ∧ (∀ j, j ≠ k → u.win p.val j = s.win p.val j) ∧
      { u.bare s with parts := s.parts } = s ∧ ∀ q, q ≠ p.val → u.part q = s.part q)

/-- Rows WINDOW_QUORUM_WRITE and BX_CSR_WRITE. For a requester who may write it, a window quorum from 1 to 256 is stored while
the partition's draft is neither ARMED nor RUNNING; any other write is rejected, raises WINDOW_QUORUM_REJECT and stores nothing.
A hart's CSR write answers what the CSR held and changes that CSR and nothing else: bxstart, bxstat (whose `bs` only machine
mode changes), bxhank, bxscale, bxwmask, bxwpend (a bit set in the same cycle stays), and the clearing of edge-raised interrupts
in mip. It is an illegal instruction for the first four while BVX is off, for a read-only CSR, and for a machine CSR outside
machine mode. -/
def Obligations.QuorumAndCsrWrites : Prop :=
  (∀ (t : Nat) (q : Option Nat) (p : PartIdx) (sub : Nat) (v : BitVec 16) (r0 : State), let s := r0.arrive t; sub < 256 →
    s.refusal q (0x2024 + p.val) sub true = none →
    ((s.part p.val).state ≠ .armed → (s.part p.val).state ≠ .running → 1 ≤ v.toNat → v.toNat ≤ 256 →
      Does (.windowQuorumWrite t q p sub v) r0 fun u =>
        u.ans.status = stOk ∧ u.odGet (0x2024 + p.val) sub = v.toNat ∧
        (∀ i j, j < 256 → (i, j) ≠ (0x2024 + p.val, sub) → u.odGet i j = s.odGet i j) ∧ { u.bare s with od := s.od } = s) ∧
    ((s.part p.val).state = .armed ∨ (s.part p.val).state = .running ∨ v.toNat = 0 ∨ 256 < v.toNat →
      Does (.windowQuorumWrite t q p sub v) r0 fun u =>
        u.ans.status = stRejected ∧ u.odGet 0xB107 1 = s.odGet 0xB107 1 + 1 ∧ s.ObjectsKept u)) ∧
  (∀ (t : Nat) (h : HartIdx) (v : BitVec 64) (priv : Nat) (r0 : State), let s := r0.arrive t; s.hartGone h.val = false →
    let x := { s.hart h.val with mode := modeOf priv }
    let s1 := s.setHart h.val x
    let gives := fun (csr : Nat) (y : Hart) => Does (.bxCsrWrite t h csr v priv) r0 fun u =>
      u.hart h.val = y ∧ s.OnlyHart u h.val ∧ u.ans.status = stOk ∧ u.ans.data = bytesOf 8 ((s1.csrRead h.val csr).getD 0)
    let traps := fun csr => Does (.bxCsrWrite t h csr v priv) r0 fun u => s1.Traps u h.val 2 0
    (x.bxbs ≠ 0 → gives 0x800 { x with bxstart := v.truncate 16 } ∧
      gives 0x801 { x with bxff := v.getLsbD 0, bxbs := if x.mode = .machine then (v >>> 1).truncate 2 else x.bxbs } ∧
      gives 0x802 { x with bxhank := v &&& 0x1FF } ∧ gives 0x803 { x with bxscale := v.truncate 16 }) ∧
    (x.bxbs = 0 → ∀ csr, 0x800 ≤ csr → csr ≤ 0x803 → traps csr) ∧
    gives 0x804 { x with bxwmask := v } ∧
    (s.sameCycle x.pendAt = false → gives 0x805 { x with bxwpend := v }) ∧
    (s.sameCycle x.pendAt = true → gives 0x805 { x with bxwpend := v ||| (x.bxwpend &&& x.pendSet) }) ∧
    (∀ csr, 0xCC0 ≤ csr → csr ≤ 0xCC4 → traps csr) ∧
    (x.mode = .machine → s.sameCycle x.mipAt = false → Does (.bxCsrWrite t h 0x344 v priv) r0 fun u =>
      (∀ i, i < 64 → (u.hart h.val).mip.getLsbD i = (x.mip.getLsbD i && (v.getLsbD i || !decide (17 ≤ i ∧ i ≤ 19)))) ∧
      s.OnlyHart u h.val) ∧
    (x.mode = .user ∨ x.mode = .supervisor → traps 0x344))

/-- Rows SOLVER_LOAD and SOLVER_STORE. For an aligned access of 1, 2, 4 or 8 bytes to a stack address of the package itself that
PMP and the checks let pass, that finds no error and that the host does not hold: a load brings the bytes, extended, to x[rd]
and changes no memory; LR also reserves the address; a store writes exactly its bytes; an atomic returns the old value,
sign-extended, and stores the result of its operation; a store-conditional stores and writes 0 while the reservation stands, and
otherwise writes 1 and stores nothing. An access that PMP forbids, and an LR or atomic that is not aligned, takes the exception
of its kind and does nothing else. -/
def Obligations.HartMemoryAccesses : Prop :=
  ∀ (t k d o size rd rs : Nat) (h : HartIdx) (a : BitVec 56) (r0 : State), let s := r0.arrive t;
  let pa := a.toNat % 2 ^ 48
  let clear := fun (c : Acc) => s.verdict (.hart h.val) c pa = (s, .ok k)
  let outside := fun (u : State) => ∀ b, b < k ∨ k + size ≤ b → Mem.read u.mem b = Mem.read s.mem b
  s.hartGone h.val = false → (∀ w, s.pmpStops h.val a.toNat size w = false) → bit a.toNat 55 = false → s.hartRoute h.val a.toNat = .here → s.host.held = [] →
  size = 1 ∨ size = 2 ∨ size = 4 ∨ size = 8 → pa % size = 0 → s.place pa = .stack d o → s.readCheck k size = (s, []) →
  Mem.wf s.mem = true →
  (clear .rd → ∀ sg, Does (.solverLoad t h a size rd sg false false) r0 fun u =>
    u.getX h.val rd = (if rd = 0 then 0 else extendTo size sg (natOf (Mem.readN s.mem k size))) ∧
    (∀ r, r ≠ rd → u.getX h.val r = s.getX h.val r) ∧ s.OnlyHart u h.val) ∧
  (clear .rd → s.coherent a.toNat = true → Does (.solverLoad t h a size rd true false true) r0 fun u =>
    u.getX h.val rd = (if rd = 0 then 0 else extendTo size true (natOf (Mem.readN s.mem k size))) ∧
    (u.hart h.val).reserved = some pa ∧ s.OnlyHart u h.val) ∧
  (clear .wr → Does (.solverStore t h a size rs rd .int) r0 fun u =>
    Mem.readN u.mem k size = bytesOf size (s.getX h.val rs) ∧ outside u ∧
    (∀ r, u.getX h.val r = s.getX h.val r) ∧ u.flyers = s.flyers ∧ u.fab = s.fab) ∧
  (let s2 := s.setHart h.val { s.hart h.val with reserved := none }
   s2.verdict (.hart h.val) .wr pa = (s2, .ok k) → s2.readCheck k size = (s2, []) → s.coherent a.toNat = true →
    (s.hart h.val).reserved = some pa → Does (.solverStore t h a size rs rd .cond) r0 fun u =>
      Mem.readN u.mem k size = bytesOf size (s.getX h.val rs) ∧ outside u ∧
      u.getX h.val rd = 0 ∧ (u.hart h.val).reserved = none) ∧
  (s.coherent a.toNat = true → (s.hart h.val).reserved ≠ some pa → Does (.solverStore t h a size rs rd .cond) r0 fun u =>
      u.mem = s.mem ∧ u.getX h.val rd = (if rd = 0 then 0 else 1) ∧ (u.hart h.val).reserved = none ∧ s.OnlyHart u h.val) ∧
  (clear .amo → 4 ≤ size → ∀ op, 0x10 ≤ op → op ≤ 0x19 → op ≠ 0x12 →
    Does (.solverStore t h a size rs rd (.amo op)) r0 fun u =>
      let old := natOf (Mem.readN s.mem k size)
      u.getX h.val rd = (if rd = 0 then 0 else extendTo size true old) ∧
      Mem.readN u.mem k size = bytesOf size (amoValue op size old (natOf (bytesOf size (s.getX h.val rs))) 0) ∧ outside u) ∧
  (∀ (b : BitVec 56) (op : Nat),
    (s.pmpStops h.val b.toNat size false = true → ∀ sg fp lr, Does (.solverLoad t h b size rd sg fp lr) r0 fun u =>
      s.Traps u h.val 5 b.toNat) ∧
    (s.pmpStops h.val b.toNat size true = true → ∀ kind, Does (.solverStore t h b size rs rd kind) r0 fun u =>
      s.Traps u h.val 7 b.toNat) ∧
    ((b.toNat % 2 ^ 48) % size ≠ 0 → (∀ w, s.pmpStops h.val b.toNat size w = false) →
      (s.coherent b.toNat = true → Does (.solverLoad t h b size rd true false true) r0 fun u => s.Traps u h.val 4 b.toNat) ∧
      Does (.solverStore t h b size rs rd (.amo op)) r0 fun u => s.Traps u h.val 6 b.toNat))

/-- Rows SOLVER_FENCE, FENCE_COMPLETE, OWN_ACQUIRE, OWN_RELEASE, OWN_HANDOVER, GATHER_DOORBELL and GATHER_COMPLETE. A fence
records the stores and atomics its hart has issued to every destination. While one of them is unanswered and its
destination alive, FENCE_COMPLETE changes nothing; when all are answered the oldest fence is over and nothing else changes;
one that ends at a dead destination raises FENCE_ERROR.
An acquire of an OPEN region of the package makes the hart's partition its owner, counts own_gen and returns status 0 with
it; a foreign owner's region stays as it is and the status is 0x10. A release or handover becomes a fence that sends the
command once the hart's earlier writes have completed. A gather doorbell returns 2 with 16 gathers outstanding, 1 for
an invalid descriptor, and 0 when the gather has started. A gather whose elements have all completed without failure
writes its completion record and is over. -/
def Obligations.FencesOwnershipAndGathers : Prop :=
  (∀ (t : Nat) (h : HartIdx) (r0 : State), let s := r0.arrive t;
    let n := hartUnit h.val
    let x := s.srcUnit n
    (s.hartGone h.val = false → Does (.solverFence t h) r0 fun u =>
      u.srcUnit n = { x with fences := x.fences ++ [{ marks := x.issued, thenSend := none }] } ∧
      (∀ m, m ≠ n → u.srcUnit m = s.srcUnit m) ∧ { u.bare s with fab := s.fab } = s) ∧
    (∀ f fs, x.fences = f :: fs →
      (f.marks.any (fun e => decide (fmGet x.answered e.1 0 < e.2) && !s.fab.dead.contains e.1) = true →
        exec (.fenceComplete t h) r0 = .next s) ∧
      (f.marks.all (fun e => decide (e.2 ≤ fmGet x.answered e.1 0)) = true → f.peers = [] → f.err = none → f.thenSend = none →
        Does (.fenceComplete t h) r0 fun u =>
          u.srcUnit n = { x with fences := fs } ∧ (∀ m, m ≠ n → u.srcUnit m = s.srcUnit m) ∧
          { u.bare s with fab := s.fab } = s) ∧
      (∀ d, f.marks.all (s.fenceMet x) = true → f.peers = [] → f.err = some d → f.thenSend = none → Does (.fenceComplete t h) r0 fun u =>
          u.srcUnit n = { x with fences := fs } ∧ u.odGet 0xB109 10 = s.odGet 0xB109 10 + 1 ∧
          u.odGet (0x6044 + (s.partOfHart h.val).getD 0) 0 = (s.odGet (0x6044 + (s.partOfHart h.val).getD 0) 0 + 1) % 2 ^ 32))) ∧
  (∀ (t rd : Nat) (h : HartIdx) (a : BitVec 56) (w : BitVec 64) (r0 : State), let s := r0.arrive t; s.hartGone h.val = false →
    let pa := a.toNat % 2 ^ 48
    let g := pa / 2 ^ 21
    let p := (s.partOfHart h.val).getD 0
    let n := hartUnit h.val
    (pa % 2 ^ 21 = 0 → s.pmpStops h.val a.toNat 8 true = false → s.unitFull n 1 = false →
      (w.toNat = 1 → s.hartRoute h.val a.toNat = .here → s.ctlCheck (.hart h.val) pa = (s, 0) →
        ((s.ownEnt g).state = 0 → Does (.ownAcquire t h a rd w) r0 fun u =>
          u.ownEnt g = { state := 1, domain := p, gen := (s.ownEnt g).gen + 1, path := s.ownPath } ∧
          u.getX h.val rd = (if rd = 0 then 0 else ((s.ownEnt g).gen + 1).toNat <<< 16) ∧
          (∀ r, r ≠ g → u.ownEnt r = s.ownEnt r) ∧ u.mem = s.mem) ∧
        ((s.ownEnt g).state = 1 → (s.ownEnt g).path ≠ s.ownPath → Does (.ownAcquire t h a rd w) r0 fun u =>
          u.fab.own = s.fab.own ∧ u.getX h.val rd = (if rd = 0 then 0 else 0x10 + (s.ownEnt g).gen.toNat <<< 16))) ∧
      (∀ row ∈ ([(.ownRelease, 2), (.ownHandover, 3)] : List ((Nat → HartIdx → BitVec 56 → Nat → BitVec 64 → Instr) × Nat)),
        bits w.toNat 3 0 = row.2 → Does (row.1 t h a rd w) r0 fun u =>
          (u.srcUnit n).fences.length = (s.srcUnit n).fences.length + 1 ∧
          (((u.srcUnit n).fences.getLast?).bind fun f => f.thenSend.map fun e => (f.marks, e.1.op, e.1.addr, e.1.data.take 8)) =
            some ((s.srcUnit n).issued, 0x28, pa, bytesOf 8 w.toNat) ∧
          u.fab.own = s.fab.own ∧ { u.bare s with fab := s.fab } = s)) ∧
    ((∀ j, j < 16 → (s.gather h.val j).isSome = true) → Does (.gatherDoorbell t h rd w) r0 fun u =>
      u.getX h.val rd = (if rd = 0 then 0 else 2) ∧ s.OnlyHart u h.val) ∧
    (s.gather h.val 0 = none → w.toNat % 64 ≠ 0 → Does (.gatherDoorbell t h rd w) r0 fun u =>
      u.getX h.val rd = (if rd = 0 then 0 else 1) ∧ s.OnlyHart u h.val) ∧
    (∀ l e, s.gather h.val 0 = none → s.gatherDesc h.val (w.toNat % 2 ^ 48) = (s, some l) → bits (nth l 0 0) 54 48 = 1 →
      s.gatherList h.val (bits (nth l 0 0) 47 0) 1 = (s, some [e]) → s.coll.colls = [] → s.host.held = [] →
      s.hartRoute h.val (e.2 * 2 ^ 48) ≠ .here → Does (.gatherDoorbell t h rd w) r0 fun u =>
        u.getX h.val rd = 0 ∧ ∃ x, u.gather h.val 0 = some x ∧
          (x.count, x.lane, x.dest, x.cmpl, x.elems) = (1, bits (nth l 0 0) 56 55, nth l 1 0, nth l 2 0, [e])) ∧
    (∀ j x s1 r, s.gather h.val j = some x → x.count ≤ x.done.length → x.failed = [] →
      s.storeLocal (.hart h.val) x.cmpl (bytesOfWords [3 + 0x7F <<< 3, 0, 0, 0, 0, 0, 0, 0]) = (s1, some r) →
      Does (.gatherComplete t h j) r0 fun u =>
        u.gather h.val j = none ∧ { u with fab := { u.fab with gathers := s1.fab.gathers } } = s1))

/-- Rows ST, AMO_ADD, AMO_SWAP, AMO_CAS, AMO_AND, AMO_OR, AMO_XOR, AMO_MINU, AMO_MAXU, AMO_MIN, AMO_MAX and AMO_FADD. For a
well-made store or atomic from another package whose ordering die or its mirror is there, that is next in its source's order, with nothing held behind it, the
ledger not full, and the checks of its address passed: memory holds the bytes stored, or the result of the operation
on the old value, at exactly that address; the next request in order is awaited; and the ledger's newest entry is the
atomic's tag with the old value. One of an older generation is answered STALE and changes no memory, nor does one that
is ahead of its turn, which is held. -/
def Obligations.IncomingStoresAndAtomics : Prop :=
  ∀ row ∈ ([(.st, 0x02), (.amoAdd, 0x10), (.amoSwap, 0x11), (.amoCas, 0x12), (.amoAnd, 0x13), (.amoOr, 0x14), (.amoXor, 0x15),
    (.amoMinu, 0x16), (.amoMaxu, 0x17), (.amoMin, 0x18), (.amoMax, 0x19), (.amoFadd, 0x1A)] : List ((Nat → Packet → Instr) × Nat)),
  ∀ (t a d o : Nat) (k : Packet) (r0 : State), let s := r0.arrive t; s.fab.dead.contains k.src = false →
  (s.orderHome k.src k.unit).isSome = true →
  let key := ordKey k.src k.unit
  let k' := { k with op := row.2 }
  let y := orderAccept (s.ordSrc key) k.gen k.ord k.resync
  let s2 := s.setOrd key y.1
  let who := Who.remote k.src k.unit k.part k.world
  (y.2 = .apply → y.1.held = [] → y.1.ledgerFull (s.now) = false → wellMade k' = true → k.len ≤ 8 →
    (row.2 = 0x1A → s.odGet 0x4002 0 ≠ 1) → s2.fabricIn k' = none → s.host.held = [] → s.place k.addr = .stack d o →
    s2.verdict who (if row.2 = 0x02 then .wr else .amo) k.addr = (s2, .ok a) → s2.readCheck a k.len = (s2, []) →
    Mem.wf s.mem = true → Does (row.1 t k) r0 fun u =>
      let old := natOf (Mem.readN s.mem a k.len)
      let new := amoValue row.2 k.len old (natOf (k.data.take k.len)) (natOf ((k.data.drop k.len).take k.len))
      Mem.readN u.mem a k.len = (if row.2 = 0x02 then k.data else bytesOf k.len new) ∧
      (∀ b, b < a ∨ a + k.len ≤ b → Mem.read u.mem b = Mem.read s.mem b) ∧
      (u.ordSrc key).next = (k.ord + 1) % 65536 ∧
      (row.2 ≠ 0x02 → ((u.ordSrc key).ledger.getLast?.map fun e => (e.tag, e.old)) = some (k.tag, Mem.readN s.mem a k.len))) ∧
  (y.2 = .stale → Does (row.1 t k) r0 fun u =>
    u.mem = s.mem ∧ u.ordSrc key = s.ordSrc key ∧
    s.Sends u (s.regionPart k'.addr) (s.response k' 5 0 (slubData k' .none 0))) ∧
  (y.2 = .hold → y.1.held.length < 64 → y.1.held.any (fun q => q.ord == k.ord) = false → Does (row.1 t k) r0 fun u =>
    u.mem = s.mem ∧ u.ordSrc key = { y.1 with held := y.1.held ++ [k'] })

/-- Rows LD, OWN_CMD and LEDGER_ENTRY_AGE_OUT. A well-made load from another package is answered at once with its bytes or slub words, whatever the order of stores, and
changes no memory. An acquire from another package of an OPEN region, next in its source's order, makes that package and
partition the owner. When ledger entries have aged, the held atomic that is next in order is applied. -/
def Obligations.IncomingLoadsAndOwnership : Prop :=
  ∀ (t : Nat) (k : Packet) (r0 : State), let s := r0.arrive t;
  let key := ordKey k.src k.unit
  let g := k.addr / 2 ^ 21
  (∀ s1 l c, s.fab.dead.contains k.src = false → wellMade k = true →
    s.loadLocal (.remote k.src k.unit k.part k.world) k.lane k.addr k.len = (s1, some (l, c)) →
    Does (.ld t k) r0 fun u => u.mem = s1.mem ∧ u.harts = s1.harts ∧
      s1.Sends u (s1.regionPart k.addr) (s1.response k (if c = 0 then 0 else 1) c l)) ∧
  (let k' := { k with op := 0x28 }
   let y := orderAccept (s.ordSrc key) k.gen k.ord k.resync
   let s2 := s.setOrd key y.1
   s.fab.dead.contains k.src = false → (s.orderHome k.src k.unit).isSome = true → k.len = 8 → y.2 = .apply → y.1.held = [] → y.1.ledgerFull (s.now) = false →
   k.data = bytesOf 8 1 ++ List.replicate 8 0 →
   s2.ctlCheck (.remote k.src k.unit k.part k.world) k.addr = (s2, 0) → (s.ownEnt g).state = 0 → Does (.ownCmd t k) r0 fun u =>
     u.ownEnt g = { state := 1, domain := k.part, gen := (s.ownEnt g).gen + 1, path := k.src } ∧
     (∀ r, r ≠ g → u.ownEnt r = s.ownEnt r) ∧ (u.ordSrc key).next = (k'.ord + 1) % 65536 ∧ u.mem = s.mem) ∧
  (∀ s1 l st c, (s.ordSrc key).held = [k] → k.ord = (s.ordSrc key).next → 0x10 ≤ k.op →
    (s.ordSrc key).ledgerFull (s.now) = false → s.perform k = (s1, some (l, st, c)) →
    s1.ordSrc key = s.ordSrc key → Does (.ledgerEntryAgeOut t k.src k.unit) r0 fun u =>
      u.mem = s1.mem ∧ (u.ordSrc key).held = [] ∧ (u.ordSrc key).next = (k.ord + 1) % 65536)

/-- Rows RESPONSE, REQUEST_REISSUE, REQUEST_DEAD_TIMEOUT, HEARTBEAT_FLIT and DEAD_CLEAR. A response that matches its request completes it with status OK: the loaded value reaches its register and the request is
over; one that matches none changes nothing but the dead mark of its sender. A request unanswered for another 4 µs is sent
again with its retry mark, at most four times; 20 µs after the first issue its destination is dead and it completes. A heartbeat
on a usable port, and a write of dead_clear, end the dead mark of that path only. -/
def Obligations.ResponsesAndDeadTargets : Prop :=
  (∀ (t n tag h rd : Nat) (k : Packet) (r : Request) (r0 : State), let s := r0.arrive t; k.unit = n → k.tag = tag → s.fab.dead.contains k.src = false →
    let x := s.srcUnit n
    (fmGet? x.outstanding tag = none → exec (.response t k) r0 = .next s) ∧
    (fmGet? x.outstanding tag = some r → k.op = r.pkt.op + 0x80 → k.gen = r.pkt.gen → k.status = 0 → r.pkt.len = 8 → x.held = [] →
      r.deliver = .xreg h rd 8 false → Does (.response t k) r0 fun u =>
        u.getX h rd = (if rd = 0 then 0 else natOf (k.data.take 8)) ∧ fmGet? (u.srcUnit n).outstanding tag = none ∧
        (u.srcUnit n).answered = (if r.pkt.isWrite
          then fmSet x.answered r.pkt.dst (fmGet x.answered r.pkt.dst 0 + 1) else x.answered) ∧
        u.mem = s.mem ∧ u.od = s.od)) ∧
  (∀ (t n tag : Nat) (r : Request) (r0 : State), let s := r0.arrive t; fmGet? (s.srcUnit n).outstanding tag = some r →
    (r.reissues < 4 → r.first + 4 * unitsPerUs * (r.reissues + 1) ≤ s.now → Does (.requestReissue t n tag) r0 fun u =>
      fmGet? (u.srcUnit n).outstanding tag = some { r with reissues := r.reissues + 1 } ∧ u.mem = s.mem ∧
      s.Sends u (chargeOf r.pkt) { r.pkt with retry := true }) ∧
    (s.now < r.first + 4 * unitsPerUs * (r.reissues + 1) → exec (.requestReissue t n tag) r0 = .next s) ∧
    (r.first + 20 * unitsPerUs ≤ s.now → s.coll.colls = [] → (s.srcUnit n).held = [] → r.deliver = .none →
      Does (.requestDeadTimeout t n tag) r0 fun u =>
        u.fab.dead.contains r.pkt.dst = true ∧ fmGet? (u.srcUnit n).outstanding tag = none ∧ u.mem = s.mem) ∧
    (s.now < r.first + 20 * unitsPerUs → exec (.requestDeadTimeout t n tag) r0 = .next s)) ∧
  (∀ (t : Nat) (p : PortIdx) (path : BitVec 48) (r0 : State), let s := r0.arrive t; (s.port p.val).state.usable = true →
    Does (.heartbeatFlit t p path) r0 fun u =>
      (∀ d, u.fab.dead.contains d = (s.fab.dead.contains d && d != path.toNat)) ∧ s.ObjectsKept u ∧
      { u.unsaid s with fab := s.fab } = s) ∧
  (∀ (t : Nat) (q : Option Nat) (v : BitVec 64) (r0 : State), let s := r0.arrive t; s.refusal q 0x6020 0 true = none →
    Does (.deadClear t q v) r0 fun u => u.ans.status = stOk ∧
      (∀ d, u.fab.dead.contains d = (s.fab.dead.contains d && d != v.toNat % 2 ^ 48)) ∧ s.ObjectsKept u ∧
      { u.unsaid s with fab := s.fab } = s)

/-- Row OWN_FORCE_OPEN. For a requester who may write the object: writing an address of a region of this package's stacks sets that region OPEN,
increases its own_gen by 1 (16 bits) and raises OWNERSHIP_FORCED; memory, the lines the host may hold, every other region,
and everything else outside event records are unchanged. -/
def Obligations.ForceOpen : Prop :=
  ∀ (t d o : Nat) (q : Option Nat) (v : BitVec 64) (r0 : State), let s := r0.arrive t; s.refusal q 0x6030 0 true = none →
  s.place (v.toNat % 2 ^ 48) = .stack d o →
  let g := v.toNat % 2 ^ 48 / 2 ^ 21
  Does (.ownForceOpen t q v) r0 fun u =>
    (u.ownEnt g).state = 0 ∧ (u.ownEnt g).gen = (s.ownEnt g).gen + 1 ∧ u.odGet 0xB109 11 = s.odGet 0xB109 11 + 1 ∧
    (∀ r, r ≠ g → u.ownEnt r = s.ownEnt r) ∧ u.mem = s.mem ∧ u.host.held = s.host.held ∧ s.ObjectsKept u ∧
    { u.unsaid s with fab := s.fab } = s

/-- Rows COLL_LAUNCH, COLL_ACK, COLL_TAINT_PACKET, COLL_NAK, GEN_AHEAD_EXPIRY and CHUNK_RESEND_TIMEOUT. For a packet whose
generation is the group's and that carries no tag: a child's launch at a head is noted with its exports, and the head waits
while a child is missing; an acknowledgement is noted at the root head until the last one comes; coll_taint marks the chunk and
its consumers and raises COLL_TAINT; a coll_nak of STALE_GEN ends the collective with status 5 in its record, and one of an
unknown node changes nothing. A GEN_AHEAD that lasts 1 ms and is still answered so ends the collective in the same way. A
missing chunk is asked for again from the peer; a kept one is sent again when 4 µs have passed for each earlier try, and at
20 µs its receiver is marked dead. -/
def Obligations.CollectivePackets : Prop :=
  ∀ (t : Nat) (k : Packet) (hd : ChunkHead) (c : Collective) (r0 : State), let s := r0.arrive t; s.fab.dead.contains k.src = false →
  s.collCheck k = (s, some hd) → s.coll? (hd.key false) = some c → k.tag = 0 → k.ord = 0 →
  hd = readHead k.data →
  let key := hd.key false
  let g := s.group hd.part hd.group
  let ws := wordsOf (k.data.drop 16)
  let word := natOf ((k.data.drop 16).take 8)
  let working := c.part = hd.part ∧ c.group = hd.group ∧ c.memberDone = false ∧ c.allDone 15 = false ∧ g.ownRank ≠ 0x7FF
  let record := fun (u : State) (a : Nat) => u.coll? key = none ∧ Mem.readN u.mem a 256 = completionRecord c 5 0x7FF s.cad.tick.toNat ∧
    ∀ b, b < a ∨ a + 256 ≤ b → Mem.read u.mem b = Mem.read s.mem b
  let member := c.launchedHere = true ∧ c.draft = false ∧ c.memberDone = false ∧ c.stages = [] ∧ Mem.wf s.mem = true
  (∀ pos, hd.down = false → k.cls ≠ 0 → s.myNode g hd.depth = some pos →
    (c.known = true → c.agrees (Collective.learn {} ws) = true) →
    let l := fmSet c.launches (hd.depth * 64 + digit (g.pos hd.rank) hd.depth) (nth ws 1 0)
    (g.kids (g.pos hd.rank) hd.depth).all (fun d => fmHas l (hd.depth * 64 + d)) = false → Does (.collLaunch t k) r0 fun u =>
      u.collOf key = { c.learn ws with
        launches := l
        folds := (readFolds ((ws.drop 5).take (nth ws 4 0))).foldl (fun m e => fmSet m e.1 e.2) c.folds } ∧
      { u.bare s with coll := s.coll } = s) ∧
  (working → (fmGet c.acks hd.chunk []).all (fun e => e.1 != hd.rank) = true →
    (fmGet c.acks hd.chunk []).length + 1 < (g.present.filter fun m => c.receives g m.1 hd.chunk).length →
    Does (.collAck t k) r0 fun u =>
      fmGet (u.collOf key).acks hd.chunk [] = fmGet c.acks hd.chunk [] ++ [(hd.rank, bit word 1)] ∧
      (∀ i, i ∈ (u.collOf key).tainted ↔ i ∈ c.tainted ∨ (i = hd.chunk ∧ bit word 0 = false)) ∧
      { u.bare s with coll := s.coll } = s) ∧
  (working → c.draft = false → Does (.collTaintPacket t k) r0 fun u =>
    u.collOf key = c.tell hd.chunk (natOf ((k.data.drop 16).take 128)) ∧ hd.chunk ∈ (u.collOf key).toldTaint ∧
    u.odGet 0x7030 0 = s.odGet 0x7030 0 + 1 ∧ u.odGet 0xB10A 2 = s.odGet 0xB10A 2 + 1 ∧ u.mem = s.mem) ∧
  (k.cls ≠ 0 → word = 1 → exec (.collNak t k) r0 = .next s) ∧
  (∀ a, k.cls ≠ 0 → word = 2 → member → s.key? c.cmpl = some a → a % 64 = 0 →
    Does (.collNak t k) r0 fun u => record u a) ∧
  (∀ (p : PartIdx) (gr cs since a : Nat), key = collKey p.val gr cs → c.aheadAt = some since →
    (s.now < since + unitsPerMs → exec (.genAheadExpiry t p gr cs) r0 = .next s) ∧
    (since + unitsPerMs ≤ s.now → (c.kept.any fun x => x.ahead) = true → member → s.key? c.cmpl = some a → a % 64 = 0 →
      Does (.genAheadExpiry t p gr cs) r0 fun u => record u a) ∧
    (since + unitsPerMs ≤ s.now → (c.kept.any fun x => x.ahead) = false → Does (.genAheadExpiry t p gr cs) r0 fun u =>
      u.collOf key = { c with aheadAt := .none } ∧ { u with coll := s.coll } = s)) ∧
  (∀ (p : PartIdx) (gr cs depth chunk tries : Nat) (peer : BitVec 48) (down : Bool) (x : Kept), key = collKey p.val gr cs →
    let again := fun (ask : Bool) => Instr.chunkResendTimeout t p gr cs peer depth down chunk ask tries
    let packet := s.collPacket c.part x.dst 0x31 3 (chunkPacket c depth down chunk x.rank x.bytes x.taint)
    (s.asksFor c peer.toNat depth down chunk = false → exec (again true) r0 = .next s) ∧
    (s.asksFor c peer.toNat depth down chunk = true → Does (again true) r0 (fun u => u.coll = s.coll ∧ u.mem = s.mem ∧
      s.Sends u (some p.val) (s.collPacket p.val peer.toNat 0x34 3 (chunkHeader p.val c depth down chunk 0x7FF ++ bytesOf 8 4)))) ∧
    (c.kept = [x] → x.is peer.toNat depth down chunk = true → x.op = 0x31 → c.draft = false →
      (x.ahead = false → s.now < x.first + 4 * unitsPerUs * min 5 tries → exec (again false) r0 = .next s) ∧
      (x.ahead = false → x.first + 4 * unitsPerUs * tries ≤ s.now → tries < 5 → Does (again false) r0 fun u =>
        u.collOf key = { c with kept := [{ x with last := s.now }] } ∧ u.mem = s.mem ∧ s.Sends u (some c.part) packet) ∧
      (x.ahead = false → x.first + 20 * unitsPerUs ≤ s.now → 5 ≤ tries → Does (again false) r0 fun u =>
        u.fab.dead.contains peer.toNat = true) ∧
      (x.ahead = true → x.last + 4 * unitsPerUs ≤ s.now → Does (again false) r0 fun u =>
        u.collOf key = { c with kept := [{ x with last := s.now, ahead := false }] } ∧ u.mem = s.mem ∧ s.Sends u (some c.part) packet)))

/-- Rows COLL_LAUNCH_DOORBELL, ADMIT_ROUND and GROUP_REFORM. A launch doorbell returns 1 for an invalid descriptor, 3 when the
group is not formed or this package is no member, and 2 with eight collectives of the group outstanding, and changes nothing
else; otherwise what the launch returns. In an admission round, which strict mode holds every 1 µs, a waiting claim that fits
takes its granules from the partition's free pool, lowest first, and one that does not fit waits. A re-form whose checks pass
puts the next generation in force with status 1; a failed one records its code and leaves the group as it was; s1 is the state
once the member list and the node table have been read. -/
def Obligations.LaunchAdmissionAndGroups : Prop :=
  (∀ (t rd p : Nat) (h : HartIdx) (desc : BitVec 64) (l : List Byte) (r0 : State), let s := r0.arrive t; s.hartGone h.val = false →
    s.partOfHart h.val = some p → desc.toNat % 64 = 0 →
    s.loadLocal (.hart h.val) 0 (desc.toNat % 2 ^ 48) 64 = (s, some (l, 0)) →
    let c := readDesc p (wordsOf l)
    let g := s.group p c.group
    let gives := fun (v : Nat) (u : State) => u.getX h.val rd = (if rd = 0 then 0 else v) ∧ s.OnlyHart u h.val
    (s.dynValid c (wordsOf l) = false → Does (.collLaunchDoorbell t h rd desc) r0 (gives 1)) ∧
    (s.dynValid c (wordsOf l) = true → g.formed = false ∨ g.ownRank = 0x7FF →
      Does (.collLaunchDoorbell t h rd desc) r0 (gives 3)) ∧
    (s.dynValid c (wordsOf l) = true → g.formed = true → g.ownRank ≠ 0x7FF → 8 ≤ (s.coll.colls.filter fun e =>
        e.2.part == p && e.2.group == c.group && !e.2.draft && e.2.launchedHere && !e.2.memberDone).length →
      Does (.collLaunchDoorbell t h rd desc) r0 (gives 2)) ∧
    (∀ s1, s.launchColl p (wordsOf l) = (s1, 0) → Does (.collLaunchDoorbell t h rd desc) r0 fun u =>
      u.getX h.val rd = 0 ∧ { u with harts := s1.harts } = s1)) ∧
  (∀ (t key seg up : Nat) (c : Collective) (w : Stage) (r0 : State), let s := r0.arrive t
    (s.odGet 0x4002 0 = 1 → s.now < s.coll.lastRound + unitsPerUs → exec (.admitRound t) r0 = .next s) ∧
    (s.coll.colls = [(key, c)] → c.draft = false →
      c.stages = [(stageKey seg 15, w)] → w.waiting = true → w.admitted = false → w.sent = [] → w.downIn = [] →
      c.memberDone = false → c.finished = [] → 0 < c.segs → c.granted = [] →
      (s.groupOf c).nodes = [] → (s.groupOf c).parent (s.stagePos (s.groupOf c) 15) 15 = some up →
      c.upList (s.groupOf c) (s.stagePos (s.groupOf c) 15) 15 seg ≠ [] → (s.groupOf c).ownRank ≠ 0x7FF →
      s.odGet 0x4002 0 ≠ 1 ∨ s.coll.lastRound + unitsPerUs ≤ s.now →
      (w.need ≤ (s.creelFree c.part).length → Does (.admitRound t) r0 fun u =>
        (u.collOf key).stages = [(stageKey seg 15,
          { w with waiting := false, admitted := true, granules := (s.creelFree c.part).take w.need })] ∧
        u.coll.lastRound = s.now ∧ { u.bare s with coll := s.coll } = s) ∧
      ((s.creelFree c.part).length < w.need → Does (.admitRound t) r0 fun u =>
        u.coll = { s.coll with lastRound := s.now } ∧ { u.bare s with coll := s.coll } = s))) ∧
  (∀ (t : Nat) (q : Option Nat) (p : PartIdx) (g : BitVec 8) (r0 : State), let s := r0.arrive t
    s.refusal q (0x7014 + p.val) 0 true = none → g.toNat < 64 →
    let s1 := s.reformReads p.val g.toNat
    (∀ x, s1.reform p.val g.toNat = .ok x → s1.coll.colls = [] → Does (.groupReform t q p g) r0 fun u =>
      u.ans.status = stOk ∧ u.group p.val g.toNat = x ∧ x.mgen = ((s1.group p.val g.toNat).mgen + 1) % 65536 ∧
      u.odGet (0x7018 + p.val) 0 = 1 + g.toNat <<< 8 ∧
      (∀ j, j ≠ p.val * 64 + g.toNat → fmGet u.coll.groups j {} = fmGet s1.coll.groups j {}) ∧
      { u.bare s1 with coll := s1.coll, od := s1.od } = s1) ∧
    (∀ e, s1.reform p.val g.toNat = .error e → Does (.groupReform t q p g) r0 fun u =>
      u.ans.status = stRejected ∧ u.odGet (0x7018 + p.val) 0 = e + g.toNat <<< 8 ∧ { u.bare s1 with od := s1.od } = s1) ∧
    ((s.part p.val).state = .running → Does (.groupReform t q p g) r0 fun u =>
      u.ans.status = stRejected ∧ u.odGet (0x7018 + p.val) 0 = 5 + g.toNat <<< 8 ∧ { u.bare s with od := s.od } = s))

/-- Rows F_COLL and F_VOTE where they start at their station, and rows COLL_CHUNK, Q_CHUNK, Q_NOP, COMMIT_VOTE, COMMIT_RESULT and
ROVING_TILE. f_coll with a valid descriptor joins its draft collective and begins to take the slot's tiles; f_vote of a draft
on one package notes the vote. A chunk whose trailer is good waits at its stage, and one whose crc is wrong taints the step; a
dynamic chunk that comes before its stage is admitted is answered with a coll_nak. q_chunk at its cycle delivers the member's
chunk, and q_nop does nothing. A vote contribution waits for the other children; a result that commits this epoch is the step's
vote, and one that does not reach a running draft changes nothing. A tile from another package enters its roving's queue. -/
def Obligations.DraftCollectivesAndVotes : Prop :=
  (∀ (c : StCmd) (rest : List StCmd) (s : State), (s.station c.n c.st).cmds = c :: rest →
    let s1 := s.setStation c.n c.st { s.station c.n c.st with cmds := rest }
    let u := s.happen (.command c.n c.st)
    (∀ r o l key e, c.op = 0x90 → s1.roving c.p c.roving = some r →
      s1.roving c.p (c.f 38 27) = some o → r.endsAt c.n c.st = true → o.beginsAt c.n c.st = true → r.remotePath = 0 →
      o.remotePath = 0 → c.f 26 0 % 64 = 0 →
      s1.c0Read c.p c.n c.st (sramBase c.n + sharedOff + c.f 26 0) 64 (s1.cmdPlace c.p c.tick c.pos) = (s1, some l) →
      let d := readDesc c.p (wordsOf l)
      let bytes := d.size * (if d.red = 0 then recordBytes r.format else payloadBytes r.format)
      d.op ≠ 5 → 0 < d.size → s1.draftDescOk c.p c.n r.format bytes (wordsOf l) = true →
      (s1.draftColls c.p).find? (fun e => e.2.desc == c.f 26 0 && !fmHas e.2.outs c.n) = some (key, e) →
      s1.coll? key = some e → ((s1.station c.n c.st).queue.find? fun q => q.roving == c.roving) = none →
      (s1.station c.n c.st).takes = [] →
        u.collOf key = { e with outs := fmSet e.outs c.n (c.f 38 27), size := bytes } ∧
        ((u.station c.n c.st).takes.map fun k => (k.roving, k.want, k.start, k.desc)) = [(c.roving, d.size, s.now, [key])] ∧
        { u with coll := s.coll, stations := s.stations } = s) ∧
    (∀ d, c.op = 0x91 → (s.part c.p).draft = some d → d.slots.head? = some c.n → (s.part c.p).voteSent = false →
      d.packages = 1 → u.part c.p = { s.part c.p with voteSent := true } ∧
        { u with parts := s.parts, stations := s.stations } = s)) ∧
  (∀ (t : Nat) (k : Packet) (hd : ChunkHead) (c : Collective) (pos : Nat) (r0 : State), let s := r0.arrive t; s.fab.dead.contains k.src = false →
    s.collCheck k = (s, some hd) → hd.down = false → s.myNode (s.group hd.part hd.group) hd.depth = some pos →
    let body := (k.data.drop 16).take 4096
    let trailer := natOf ((k.data.drop 4112).take 8)
    let place := digit ((s.group hd.part hd.group).pos hd.rank) hd.depth * 2 ^ 32 + hd.chunk
    (k.cls = 0 → s.coll? (hd.key true) = some c → c.draft = true → c.part = hd.part →
      (bits trailer 31 0 = (crc32c body).toNat → bit trailer 32 = false → Does (.collChunk t k .ok) r0 fun u =>
        fmGet? ((u.collOf (hd.key true)).stage 0 hd.depth).ins place = some (body, false) ∧
        { u.bare s with coll := s.coll } = s) ∧
      (bits trailer 31 0 ≠ (crc32c body).toNat → Does (.collChunk t k .ok) r0 fun u =>
        fmGet? ((u.collOf (hd.key true)).stage 0 hd.depth).ins place = some (body, true) ∧
        (u.part hd.part).tainted = true ∧ u.odGet 0xB10A 2 = s.odGet 0xB10A 2 + 1 ∧ u.mem = s.mem)) ∧
    (∀ cr, k.cls ≠ 0 → s.coll? (hd.key false) = some c → c.finished = [] → c.stages = [] → Does (.collChunk t k cr) r0 fun u =>
      u.coll = s.coll ∧ u.mem = s.mem ∧ s.Sends u (some k.part) (s.collPacket k.part k.src 0x34 k.cls (k.data.take 16 ++ bytesOf 8 4)))) ∧
  (∀ (t e key : Nat) (p : PartIdx) (f : Fin 8) (r0 : State), let s := (r0.arrive t).syncDraft p.val
    exec (.qNop t p f e) r0 = .next s ∧
    (∀ w d c l, s.seqEntry p.val f.val e 1 = some (w, d) → bit w 94 = true → bits w 98 95 = 15 →
      ((s.draftColls p.val).filter fun x => x.2.desc == bits w 119 99 * 64).getLast? = some (key, c) → s.coll? key = some c →
      c.outs = [] → fmGet? (c.stage 0 15).downIn (bits w 63 32) = some (l, false) → Does (.qChunk t p f e) r0 fun u =>
        u.collOf key = c.setStage 0 15 { c.stage 0 15 with
          downIn := fmSet (c.stage 0 15).downIn (bits w 63 32) (l, false)
          sentDown := (c.stage 0 15).sentDown ++ [bits w 63 32] } ∧ { u.bare s with coll := s.coll } = s)) ∧
  (∀ (t j pos : Nat) (k : Packet) (r0 : State), let s := r0.arrive t; s.fab.dead.contains k.src = false → k.tag = 0 → k.ord = 0 →
    let g := s.group k.part 63
    let w := votePacket k
    let v := fmGet s.coll.votes k.part {}
    ((s.nodeDepths g).reverse.findSome? (fun j => ((g.kids (s.stagePos g j) j).find? fun d =>
        s.childPath g (g.childPos (s.stagePos g j) j d) j == k.src).map fun d => (j, g.childPos (s.stagePos g j) j d)) =
        some (j, pos) →
      (g.kids pos j).all (fun d => fmHas (fmSet v.ins (j * 64 + digit pos j) w) (j * 64 + d)) = false →
      Does (.commitVote t k) r0 fun u =>
        (fmGet u.coll.votes k.part {}).ins = fmSet v.ins (j * 64 + digit pos j) w ∧ { u.bare s with coll := s.coll } = s) ∧
    ((∀ i ∈ s.nodeDepths g, ∀ up, g.up (s.stagePos g i) i = some up → g.heads (s.stagePos g i) up k.src = false) →
      ((s.part k.part).state = .running → (s.part k.part).restoring = false →
        w = voteWords true (s.part k.part).epoch.toNat → Does (.commitResult t k) r0 fun u =>
          u.part k.part = { s.part k.part with voteResult := some true } ∧ { u.bare s with parts := s.parts } = s) ∧
      ((s.part k.part).state ≠ .running → exec (.commitResult t k) r0 = .next s))) ∧
  (∀ (t p : Nat) (k : Packet) (v : Roving) (r0 : State), let s := r0.arrive t; s.fab.dead.contains k.src = false → k.tag = 0 → k.ord = 0 →
    let w := natOf (k.data.take 8)
    let n := bits w 3 0
    s.runsOn n = some p → s.roving p (bits w 15 4) = some v → (s.dieOfSlot n).isSome = true → v.fromAway = true →
    v.srcSlot = n → v.invalid = false → s.queueFull p n 0x4000 (bits w 15 4) = false →
    Does (.rovingTile t k) r0 fun u =>
      (u.station n 0x4000).queue = (s.station n 0x4000).queue ++
        [⟨s.now, bits w 15 4, bits w 63 16, tileOf v.format (k.data.drop 8)⟩] ∧
      { u.bare s with stations := s.stations } = s)
/-- Rows ARBITRATION_ROUND, REQUEST_PROMOTE, ARBITRATION_BOUND and LINK_FRAME. A round at a bridge at which one request of a valid
partition waits: with a deficit that covers its cost it is served, takes its virtual channel in its hop set, is counted in its
partition's shares, and the deficit does not carry over; with too small a deficit it waits, one round older, and the deficit
stays. Promotion marks exactly the requests that have aged 16 rounds, and the bound tells of exactly those that have aged 64,
raising ARBITRATION_BOUND once for each; neither changes anything else of the point. A round whose arbiter must let the other
go first (C1 within 64 flits of the frame, C2 to C4 beyond them) serves nothing. A frame of a link in which no partition
exceeds its budget starts the next one with no C0 carried over. -/
def Obligations.ArbitrationRules : Prop :=
  (∀ (t b m : Nat) (c1 : Bool) (r : ArbReq) (r0 : State), let s := r0.arrive t;
    let pl := ArbPlace.bridge b
    let x := s.point pl
    let a := x.arb c1
    let gain := s.arbWeight pl m * 17
    m < 4 → s.partValid m = true → s.powerCapped = false → x.outside = [] → a.reqs = [r] → a.granted = [] → a.deficit = [] →
    r.member = m → 1 ≤ r.cls → r.cls ≤ 4 → r.age < 16 → s.yields pl c1 = false →
    (r.cost ≤ gain → Does (.arbitrationRound t pl c1 []) r0 fun u =>
      u.point pl = (x.setArb c1 { a with reqs := [], rounds := a.rounds + 1 }).carry r.cls r.vc r.hop m r.cost ∧
      u.odGet (0x3028 + m) 2 = s.odGet (0x3028 + m) 2 + r.cost ∧
      { u.bare s with arb := s.arb, od := s.od } = s) ∧
    (gain < r.cost → Does (.arbitrationRound t pl c1 []) r0 fun u =>
      u.point pl = x.setArb c1 { a with reqs := [{ r with age := r.age + 1 }], rounds := a.rounds + 1, deficit := [(m, gain)] } ∧
      { u.bare s with arb := s.arb } = s)) ∧
  (∀ (t : Nat) (pl : ArbPlace) (c1 : Bool) (r0 : State), let s := r0.arrive t;
    let x := s.point pl
    let a := x.arb c1
    (Does (.requestPromote t pl c1) r0 fun u =>
      u.point pl = x.setArb c1 { a with reqs := a.reqs.map fun r => if 16 ≤ r.age then { r with promoted := true } else r } ∧
      (∀ k, k ≠ arbKey pl → fmGet u.arb k {} = fmGet s.arb k {}) ∧ { u.bare s with arb := s.arb, od := s.od } = s) ∧
    (Does (.arbitrationBound t pl c1) r0 fun u =>
      u.point pl = x.setArb c1 { a with reqs := a.reqs.map fun r => if 64 ≤ r.age then { r with told := true } else r } ∧
      u.odGet 0xB10B 1 = s.odGet 0xB10B 1 + (a.reqs.filter fun r => decide (64 ≤ r.age) && !r.told).length ∧
      (∀ k, k ≠ arbKey pl → fmGet u.arb k {} = fmGet s.arb k {}) ∧ u.mem = s.mem ∧ u.parts = s.parts)) ∧
  (∀ (t b : Nat) (c1 : Bool) (r0 : State), let s := r0.arrive t; let x := s.point (.bridge b)
    x.outside = [] → (x.arb c1).reqs.all (fun r => decide (r.age < 16)) = true → s.yields (.bridge b) c1 = true →
      exec (.arbitrationRound t (.bridge b) c1 []) r0 = .next s) ∧
  (∀ (t : Nat) (n : PortIdx) (r0 : State), let s := r0.arrive t; (s.port n.val).egress = [] → (∀ p, p < 4 → fmGet (s.port n.val).frameC0 p 0 ≤ s.frameBudget p) →
    Does (.linkFrame t (.port n) []) r0 fun u =>
      u.port n.val = { s.port n.val with frameC0 := [], frameMgmt := 0, frameC1 := 0, frames := (s.port n.val).frames + 1 } ∧
      (∀ k, k ≠ n.val → u.port k = s.port k) ∧ { u.bare s with ports := s.ports } = s)

/-- Rows CODEWORD_RECEIVE, LANE_LOSS, LANE_SPARE_REMAP, PORT_RETRAIN, PORT_TRAINING, LINK_NAK and FLYOVER_REMOVED. A good codeword
on a usable port brings credits and flits, whose buffers are owed back; on a compatibility port it also acknowledges flits and
is acknowledged. An uncorrectable one is counted and raises FEC_UNCORRECTABLE, and the sixteenth within a microsecond takes the
port DOWN. A lane that shows errors on a native UP port is erased, and the remap puts lane 6 in its place with a lane-control
flit: UP_SPARED with LANE_SPARED. A DOWN port tries again after 100 ms when its cable is there. Training with all lanes good
and the right tier gives UP, with one failed data lane UP_SPARED, with two failed lanes DOWN, with a wrong tier or a package
as partner FAILED with PORT_TOPOLOGY whatever its lanes, and without the cable DOWN. A link_nak on a compatibility port
replays the flits that are not acknowledged, in order. A removed cable takes the port DOWN. -/
def Obligations.PortRules : Prop :=
  ∀ (t : Nat) (n : PortIdx) (r0 : State), let s := r0.arrive t;
  let x := s.port n.val
  let keeps := fun u : State => (x.egress = [] → ∀ k, k ≠ n.val → u.port k = s.port k) ∧ u.mem = s.mem ∧ u.fab.sources = s.fab.sources
  (∀ vcs credits, x.state.usable = true → x.egress = [] → (∀ v ∈ vcs, v < 12) →
    let y := { x with
      rxSeq := x.rxSeq + BitVec.ofNat 8 vcs.length
      owed := vcs.foldl (fun m v => fmSet m v (fmGet m v 0 + 1)) x.owed
      credits := credits.foldl (fun m e => fmSet m e.1 (fmGet m e.1 0 + e.2)) x.credits }
    (s.compat n.val = false → ∀ ack, Does (.codewordReceive t n true vcs credits ack) r0 fun u =>
      u.port n.val = y ∧ keeps u ∧ { u.bare s with ports := s.ports } = s) ∧
    (∀ a, s.compat n.val = true → vcs ≠ [] → Does (.codewordReceive t n true vcs credits (some a)) r0 fun u =>
      u.port n.val = { y with acked := a, replayBuf := x.replayBuf.filter fun q => decide ((q - a - 1).toNat < 128) } ∧
      u.out = s.out ++ [.flit n.val 4 (y.rxSeq - 1).toNat] ∧ keeps u ∧ { u.bare s with ports := s.ports } = s)) ∧
  (x.state.usable = true →
    let recent := x.badRecent.filter (fun b => decide (s.now < b + unitsPerUs)) ++ [s.now]
    Does (.codewordReceive t n false [] [] none) r0 fun u =>
      (u.port n.val).bad = min (2 ^ 32 - 1) (x.bad + 1) ∧ u.odGet 0xB109 1 = s.odGet 0xB109 1 + 1 ∧ keeps u ∧
      (recent.length < 16 → u.port n.val = { x with bad := min (2 ^ 32 - 1) (x.bad + 1), badRecent := recent }) ∧
      (16 ≤ recent.length → (u.port n.val).state = .down)) ∧
  (∀ lane lock, x.state = .up → s.compat n.val = false → x.erased = none → Does (.laneLoss t n lane lock) r0 fun u =>
    u.port n.val = { x with erased := some lane.val } ∧ keeps u ∧ { u.bare s with ports := s.ports } = s) ∧
  (∀ l, x.state = .up → x.erased = some l →
    (l < 6 → Does (.laneSpareRemap t n) r0 fun u =>
      u.port n.val = { x with state := .upSpared, erased := none, spared := some l } ∧ .flit n.val 3 l ∈ u.out ∧
      u.odGet 0xB109 2 = s.odGet 0xB109 2 + 1 ∧ keeps u ∧ u.cad = s.cad) ∧
    (6 ≤ l → x.spared ≠ some l → Does (.laneSpareRemap t n) r0 fun u =>
      u.port n.val = { x with spared := some l } ∧ u.odGet 0xB109 2 = s.odGet 0xB109 2 + 1 ∧ keeps u ∧ s.ObjectsKept u ∧
      { u.unsaid s with ports := s.ports } = s)) ∧
  (x.state = .down →
    (x.downSince + 100 * unitsPerMs ≤ s.now → Does (.portRetrain t n) r0 fun u =>
      u.port n.val = { x with downSince := s.now, state := if x.present then .training else .down } ∧
      keeps u ∧ { u.bare s with ports := s.ports } = s) ∧
    (s.now < x.downSince + 100 * unitsPerMs → exec (.portRetrain t n) r0 = .next s)) ∧
  (x.state = .training → s.boot.stage ≠ 7 →
    (x.present = true → Does (.portTraining t n 0 (s.portLevel n.val) false) r0 fun u =>
      (u.port n.val).state = .up ∧ (u.port n.val).erased = none ∧ (u.port n.val).spared = none ∧
      u.odGet 0xB109 4 = s.odGet 0xB109 4 + (if x.downSince = 0 then 0 else 1) ∧ keeps u) ∧
    (∀ lane : Fin 6, x.present = true → Does (.portTraining t n (1 <<< lane.val) (s.portLevel n.val) false) r0 fun u =>
      (u.port n.val).state = .upSpared ∧ (u.port n.val).spared = some lane.val ∧
      u.odGet 0xB109 2 = s.odGet 0xB109 2 + 1 ∧ keeps u) ∧
    (∀ bad, x.present = true → 2 ≤ (maskBits 7 bad.toNat).length → Does (.portTraining t n bad (s.portLevel n.val) false) r0 fun u =>
      (u.port n.val).state = .down ∧ (u.port n.val).downSince = s.now ∧ { u.bare s with ports := s.ports } = s) ∧
    (∀ bad tier pkg, x.present = true → tier ≠ s.portLevel n.val ∨ pkg = true → Does (.portTraining t n bad tier pkg) r0 fun u =>
      (u.port n.val).state = .failed ∧ u.odGet 0xB109 5 = s.odGet 0xB109 5 + 1 ∧ keeps u) ∧
    (∀ bad tier pkg, x.present = false → Does (.portTraining t n bad tier pkg) r0 fun u =>
      u.port n.val = { x with state := .down, downSince := s.now } ∧ keeps u)) ∧
  (∀ bad tier pkg, x.state ≠ .training → exec (.portTraining t n bad tier pkg) r0 = .next s) ∧
  (s.compat n.val = true → x.state.usable = true → Does (.linkNak t n) r0 fun u =>
    (∃ more, u.out = s.out ++ x.replayBuf.map (fun q => .flit n.val 2 q.toNat) ++ more) ∧
    u.odGet 0xB109 6 = s.odGet 0xB109 6 + 1 ∧ s.ObjectsKept u ∧ u.unsaid s = s) ∧
  (s.compat n.val = false → exec (.linkNak t n) r0 = .next s) ∧
  (x.state.usable = true → Does (.flyoverRemoved t n false) r0 fun u =>
    (u.port n.val).state = .down ∧ (u.port n.val).present = false ∧ u.odGet 0xB109 3 = s.odGet 0xB109 3 + 1 ∧
    u.odGet 0xB112 2 = s.odGet 0xB112 2 + 1 ∧ keeps u) ∧
  (Does (.flyoverRemoved t n true) r0 fun u => u.port n.val = { x with present := true } ∧ keeps u ∧
    { u.bare s with ports := s.ports } = s)

/-- Rows SCRUB_PASS, BOND_LANE_REPLACE, DRAM_TEMP_SAMPLE and SRAM_COLUMN_REPAIR. Over a mapped stack, scrub of a line whose errors the code corrects clears the error; an uncorrectable line becomes poisoned,
is counted and raises DRAM_UNCORRECTABLE, and no memory byte changes in either case. A bond whose group's spare is free is
replaced with BOND_LANE_SPARED, and with the spare taken its DRAM die is erased in the channel. A stack that grows hotter than 85 °C refreshes twice as fast and returns after a second
below 82 °C, at 95 °C it raises DRAM_TEMP_LIMIT and is throttled. Marked columns are repaired while no draft of the slot's
partition is ARMED or RUNNING, and not otherwise. -/
def Obligations.MemoryUpkeep : Prop :=
  (∀ (t line : Nat) (d : DieIdx) (e : LineSt) (r0 : State), let s := r0.arrive t; s.mapped d.val = true →
    let key := stackKey d.val 0 / 64 + line
    s.lines = [(key, e)] → s.sramErr = [] →
    (∀ s1, s.readLine key = (s1, false) → Does (.scrubPass t d [] line 1 0 0) r0 fun u =>
      u.lines = [] ∧ { u with lines := s1.lines } = s1) ∧
    (s.readLine key = (s, true) → Does (.scrubPass t d [] line 1 0 0) r0 fun u =>
      u.lines = [(key, .poisoned)] ∧ u.odGet 0x5003 (d.val + 1) = s.odGet 0x5003 (d.val + 1) + 1 ∧
      u.odGet 0xB108 6 = s.odGet 0xB108 6 + 1 ∧ u.mem = s.mem)) ∧
  (∀ (t bond : Nat) (d : DieIdx) (ch : Fin 64) (r0 : State), let s := r0.arrive t; s.mapped d.val = true → bond < 576 →
    let c := s.channel d.val ch.val
    (fmHas c.spares (bond / 72) = false → Does (.bondLaneReplace t d ch bond) r0 fun u =>
      (u.channel d.val ch.val).spares = fmSet c.spares (bond / 72) bond ∧ (u.channel d.val ch.val).erased = c.erased ∧
      u.odGet 0xB108 5 = s.odGet 0xB108 5 + 1 ∧ u.mem = s.mem) ∧
    (∀ b, fmGet? c.spares (bond / 72) = some b → b ≠ bond → c.erased = none → Does (.bondLaneReplace t d ch bond) r0 fun u =>
      (u.channel d.val ch.val).erased = some (bond / 32) ∧ (u.channel d.val ch.val).spares = c.spares ∧ u.mem = s.mem)) ∧
  (∀ (t temp : Nat) (d : DieIdx) (r0 : State), let s := r0.arrive t; s.mapped d.val = true → temp ≤ 100 →
    let x := s.stackOf d.val
    (85 < temp → temp < 93 → x.hot = false → Does (.dramTempSample t d temp) r0 fun u =>
      (u.stackOf d.val).temp = temp ∧ (u.stackOf d.val).hot = true ∧ u.odGet 0xB108 7 = s.odGet 0xB108 7 + 1 ∧
      s.ObjectsKept u ∧ { u.unsaid s with stackSt := s.stackSt } = s) ∧
    (∀ c, temp < 82 → x.hot = true → x.coolSince = some c → c + unitsPerSec ≤ s.now → Does (.dramTempSample t d temp) r0 fun u =>
      (u.stackOf d.val).hot = false ∧ { u.bare s with stackSt := s.stackSt } = s) ∧
    (95 ≤ temp → x.limit = false → Does (.dramTempSample t d temp) r0 fun u =>
      (u.stackOf d.val).limit = true ∧ (u.stackOf d.val).throttle = true ∧ u.odGet 0xB108 8 = s.odGet 0xB108 8 + 1 ∧
      s.ObjectsKept u ∧ { u.unsaid s with stackSt := s.stackSt } = s)) ∧
  (∀ (t p n : Nat) (d : DieIdx) (r0 : State), let s := r0.arrive t; s.slotOfDie d.val = some n → s.partOfSlot n = some p →
    ((s.part p).state ≠ .armed → (s.part p).state ≠ .running → Does (.sramColumnRepair t d) r0 fun u =>
      (∀ b, b / 4096 = d.val → (fmGet u.banks b {}).marked = [] ∧
        (fmHas s.banks b = true → (fmGet u.banks b {}).used = (fmGet s.banks b {}).used + (fmGet s.banks b {}).marked.length)) ∧
      (∀ b, b / 4096 ≠ d.val → fmGet u.banks b {} = fmGet s.banks b {}) ∧ s.ObjectsKept u ∧
      { u.unsaid s with banks := s.banks, sramErr := s.sramErr } = s) ∧
    ((s.part p).state = .running → exec (.sramColumnRepair t d) r0 = .next s))

/-- Rows CHANNEL_COMMAND_SLOT, CHANNEL_SLOT_WINDOW, TRAFFIC_GEN_START, TRAFFIC_GEN_STOP and TRAFFIC_GEN_DONE. In a general slot a
channel serves the C0 request at the head of its queue while its partition has budget left; in a maintenance slot it refreshes
first; a running generator places its next request. A window starts every channel of the stack at slot 0 with empty counts and
puts the region entries that waited for it in force. A generator of a stack in the map starts only with a valid record and
where R289 allows it; a start that is not accepted is rejected with TRAFFIC_GEN_REJECT. When it has moved its passes, or is
stopped, its status says so and it no longer runs; one that runs without end goes on. -/
def Obligations.ChannelsAndGenerators : Prop :=
  (∀ (t p line cost : Nat) (rest : List (Nat × Nat × Nat)) (d : DieIdx) (ch : Fin 64) (up : Bool) (r0 : State), let s := r0.arrive t;
    let c := s.channel d.val ch.val
    let x := s.gen d.val ch.val
    let ctl := s.genCtl d.val ch.val
    (s.point (.dram d ch)).outside = [] → c.slotNo < 1024 →
    (c.slotNo < 944 → x.running = false → c.c0 = (p, line, cost) :: rest → c.half = none → c.c0Served < 819 →
      fmGet c.c0ByPart p 0 < s.c0Budget d.val p → Does (.channelCommandSlot t d ch [] up) r0 fun u =>
        (u.channel d.val ch.val).slotNo = c.slotNo + 1 ∧ (u.channel d.val ch.val).c0Served = c.c0Served + 1 ∧
        (cost ≤ 1 → (u.channel d.val ch.val).c0 = rest) ∧
        fmGet (u.channel d.val ch.val).c0ByPart p 0 = fmGet c.c0ByPart p 0 + 1 ∧ { u.bare s with channels := s.channels } = s) ∧
    (944 ≤ c.slotNo → x.running = false → c.refreshed < 32 → Does (.channelCommandSlot t d ch [] up) r0 fun u =>
      u.channel d.val ch.val = { c with refreshed := c.refreshed + 1, slotNo := c.slotNo + 1 } ∧
      { u.bare s with channels := s.channels } = s) ∧
    (x.running = true → x.taken < bits ctl 20 10 → genMoves ctl = 0 ∨ x.placed < genMoves ctl →
      Does (.channelCommandSlot t d ch [] up) r0 fun u =>
        u.gen d.val ch.val = { x with placed := x.placed + 1, taken := x.taken + 1 } ∧
        (u.channel d.val ch.val).slotNo = c.slotNo + 1 ∧ u.mem = s.mem)) ∧
  (∀ (t e v : Nat) (d : DieIdx) (r0 : State), let s := r0.arrive t; s.channels.all (fun x => x.1 / 64 != d.val ||
      (List.range 4).all fun p => decide (fmGet x.2.c0Received p 0 ≤ s.c0Budget d.val p)) = true →
    s.entryWaits = [(d.val * 256 + e, v)] → e < 256 → Does (.channelSlotWindow t d) r0 fun u =>
      u.odGet (0x9100 + d.val) e = v ∧ u.entryWaits = [] ∧
      (∀ ch, ch < 64 → fmHas s.channels (d.val * 64 + ch) = true → (u.channel d.val ch).slotNo = 0 ∧
        (u.channel d.val ch).c0Served = 0 ∧ (u.channel d.val ch).c0 = (s.channel d.val ch).c0) ∧
      u.mem = s.mem ∧ u.parts = s.parts) ∧
  (∀ (t : Nat) (q : Option Nat) (v : BitVec 32) (d : DieIdx) (ch : Fin 64) (r0 : State), let s := r0.arrive t;
    let status := fun (u : State) => u.odGet (0x5120 + d.val) (ch.val + 1)
    let allowed := s.stackAssigned d.val = false ∨ s.sec.life = .maker ∨ s.sec.life = .returned ∨ s.boot.stage = 5
    s.refusal q 0x5140 0 true = none → bits v.toNat 4 0 = d.val → bit v.toNat 5 = false → bits v.toNat 11 6 = ch.val →
    (bits v.toNat 13 12 = 1 → s.mapped d.val = true → genOk (s.genCtl d.val ch.val) = true → allowed →
      Does (.trafficGenStart t q v) r0 fun u => u.ans.status = stOk ∧
        u.gen d.val ch.val = { running := true, startedAt := s.now, due := false } ∧ bits (status u) 2 0 = 1 ∧
        { u.bare s with gens := s.gens, od := s.od } = s) ∧
    (bits v.toNat 13 12 = 1 → s.mapped d.val = true → genOk (s.genCtl d.val ch.val) = false ∨ ¬ allowed →
      Does (.trafficGenStart t q v) r0 fun u => u.ans.status = stRejected ∧ bits (status u) 2 0 = 4 ∧
        u.odGet 0xB108 14 = s.odGet 0xB108 14 + 1 ∧ u.gens = s.gens ∧ u.mem = s.mem) ∧
    (s.mapped d.val = false → Does (.trafficGenStart t q v) r0 fun u => u.ans.status = stRejected ∧
        u.odGet 0xB108 14 = s.odGet 0xB108 14 + 1 ∧ s.ObjectsKept u ∧ u.unsaid s = s) ∧
    (∀ moved miss, bits v.toNat 13 12 = 2 → s.mapped d.val = true → (s.gen d.val ch.val).running = true →
      genMix (s.genCtl d.val ch.val) = 0 → moved < 2 ^ 64 → Does (.trafficGenStop t q v moved miss) r0 fun u =>
        u.ans.status = stOk ∧ u.gen d.val ch.val = { s.gen d.val ch.val with running := false, due := false } ∧
        bits (status u) 2 0 = 3 ∧ bits (status u) 255 192 = moved ∧
        { u.bare s with gens := s.gens, od := s.od } = s)) ∧
  (∀ (t : Nat) (d : DieIdx) (ch : Fin 64) (miss : List GenMiss) (r0 : State), let s := r0.arrive t
    (s.gen d.val ch.val).running = true →
    (genPasses (s.genCtl d.val ch.val) = 0 → exec (.trafficGenDone t d ch miss) r0 = .next s) ∧
    (genPasses (s.genCtl d.val ch.val) = 1 → genCount (s.genCtl d.val ch.val) = 1 → genMix (s.genCtl d.val ch.val) = 1 →
      genPattern (s.genCtl d.val ch.val) = 0 → genWalk (s.genCtl d.val ch.val) = 0 → Mem.wf s.mem = true →
      Does (.trafficGenDone t d ch miss) r0 fun u =>
        let k := stackKey d.val (lineOff ch.val (genBase (s.genCtl d.val ch.val)))
        (u.gen d.val ch.val).running = false ∧ bits (u.odGet (0x5120 + d.val) (ch.val + 1)) 2 0 = 2 ∧
        Mem.readN u.mem k 64 = List.replicate 64 0 ∧ ∀ a, a < k ∨ k + 64 ≤ a → Mem.read u.mem a = Mem.read s.mem a))
/-- Rows DIE_HEARTBEAT_LOSS, DOFF_SHARDS_ACK, DOFF_MANIFEST_ACK, RESTORE_REQUEST and RESTORE_FINISH. A die already lost is lost
only once, and a failed bridge of the host dies, or between dies that no bridge joins, loses none. The loss of HX1 marks it lost, raises HOST_DIE_LOST, ends the sessions its handshakes
ran, and disturbs no partition and no memory. When every shard of a doff is acknowledged its manifest is written; when that is
acknowledged the generation is committed, the doff is over and DOFF_DONE is raised. A restore request with a well-formed
descriptor starts a restore; a second one is refused. It waits while a partition it touches is ARMED or RUNNING, ends with
status 3 when no set of manifests is complete, and with status 2 and its epoch when all is covered; s1 is the state once the
steward has read the descriptor, and once it has read what the restore needs. -/
def Obligations.LossDoffAndRestore : Prop :=
  (∀ (t : Nat) (d o : DieIdx) (dirty : List (BitVec 48)) (r0 : State), let s := r0.arrive t;
    (∀ c, c = .heartbeat ∨ c = .rail ∨ c = .junction → s.cfg.lost.contains d.val = true →
      exec (.dieHeartbeatLoss t d c dirty) r0 = .next s) ∧
    (d.val = 31 → s.cfg.lost.contains 31 = false → Does (.dieHeartbeatLoss t d .heartbeat dirty) r0 fun u =>
      u.cfg = { s.cfg with lost := s.cfg.lost ++ [31] } ∧ u.odGet 0xB10D 4 = s.odGet 0xB10D 4 + 1 ∧
      (∀ e, e ∈ u.aoap.sessions → s.transportDie e.2.transport ≠ 31) ∧
      u.parts = s.parts ∧ u.flyers = s.flyers ∧ u.mem = s.mem) ∧
    (30 ≤ d.val ∧ 30 ≤ o.val ∨ isBridge d.val o.val = false → exec (.dieHeartbeatLoss t d (.bridge o) dirty) r0 = .next s) ∧
    (isBridge d.val o.val = true → isFabric d.val = false → isFabric o.val = true → s.cfg.lost.contains d.val = true →
      exec (.dieHeartbeatLoss t d (.bridge o) dirty) r0 = .next s)) ∧
  (∀ (t : Nat) (p : PartIdx) (r : DoffRun) (r0 : State), let s := r0.arrive t; (s.part p.val).doff = some r → s.doffAcked p.val = true →
    (r.slotState = true → r.manifest = false → Does (.doffShardsAck t p false) r0 fun u =>
      (u.part p.val).doff = some { r with manifest := true } ∧ u.odGet (0x8050 + p.val) 4 = 2) ∧
    (r.manifest = true → Does (.doffManifestAck t p false) r0 fun u =>
      (u.part p.val).doff = none ∧ u.odGet (0x8050 + p.val) 3 = r.generation ∧ u.odGet (0x8050 + p.val) 9 = r.epoch ∧
      u.odGet (0x8050 + p.val) 4 = 0)) ∧
  (∀ (t : Nat) (p : PartIdx) (failed : Bool) (r0 : State), let s := r0.arrive t; (s.part p.val).doff = none →
    exec (.doffShardsAck t p failed) r0 = .next s ∧ exec (.doffManifestAck t p failed) r0 = .next s) ∧
  (∀ (t : Nat) (q : Option Nat) (v : BitVec 64) (r0 : State), let s := r0.arrive t; s.refusal q 0x8060 1 true = none →
    let s1 := s.scanned v.toNat 64
    (s.res.restoring = none → restoreDescOk (wordsOf (s1.readPa v.toNat 64)) = true → Does (.restoreRequest t q v) r0 fun u =>
      u.ans.status = stOk ∧ u.res = { s1.res with restoring := some v.toNat } ∧ u.odGet 0x8060 2 = 1 ∧
      { u.bare s1 with res := s1.res, od := s1.od } = s1) ∧
    (s.res.restoring = none → restoreDescOk (wordsOf (s1.readPa v.toNat 64)) = false → Does (.restoreRequest t q v) r0 fun u =>
      u.res = s1.res ∧ u.odGet 0x8060 2 = 4 ∧ { u.bare s1 with od := s1.od } = s1) ∧
    (∀ d, s.res.restoring = some d → Does (.restoreRequest t q v) r0 fun u => u.ans.status = stRejected ∧ u.bare s = s)) ∧
  (∀ (t d : Nat) (areas : List (Nat × List Byte)) (r0 : State), let s := r0.arrive t; s.res.restoring = some d →
    let w := wordsOf (s.readPa d 64)
    let as := s.areasOf (bits (nth w 0 0) 47 0) (bits (nth w 0 0) 63 48) areas
    let maps := s.mapsOf (bits (nth w 1 0) 47 0) (bits (nth w 1 0) 63 48)
    let busy := (s.affected maps).any fun p => (s.part p).state == .armed || (s.part p).state == .running
    let mans := (List.range as.length).flatMap fun i => [0, 1].filterMap fun h => s.manifestAt as i h
    let good := (mans.filter (·.committed)).foldr insertMan []
    let s1 := (s.restoreReads d w as mans).foldl (fun s e => s.scanned e.1 e.2) s
    (busy = true → exec (.restoreFinish t areas) r0 = .next s) ∧
    (busy = false → s1.restoreSelect as (good.length + 1) good = none → Does (.restoreFinish t areas) r0 fun u =>
      u.res.restoring = none ∧ u.odGet 0x8060 2 = 3 ∧ { u.bare s1 with res := s1.res, od := s1.od } = s1) ∧
    (∀ m ms, maps = [] → s1.restoreSelect as (good.length + 1) good = some (m :: ms) →
      Does (.restoreFinish t areas) r0 fun u => u.res.restoring = none ∧ u.odGet 0x8060 2 = 2 ∧ u.odGet 0x8060 3 = m.epoch ∧
        u.odGet 0xB10D 21 = s1.odGet 0xB10D 21 + 1)) ∧
  (∀ (t : Nat) (areas : List (Nat × List Byte)) (r0 : State), let s := r0.arrive t; s.res.restoring = none →
    exec (.restoreFinish t areas) r0 = .next s)
/-- Rows ROLE_MAP_WRITE, SHARE_WRITE, REGION_ENTRY_WRITE and PARTITION_COMMIT. For a requester who may write: a role-map, share or region write that its rule takes is stored (a region entry waits for its
window boundary), and one that it ignores raises the rule's event and stores nothing. A commit reports the first check that
fails and changes nothing else; when all pass and the seal pair agrees the status is 1 and the configuration is locked; a
disagreement is counted and nothing is locked (what the status then holds is the model's choice, log 60). -/
def Obligations.ConfigurationWrites : Prop :=
  (∀ (t : Nat) (q : Option Nat) (d : DieIdx) (v : BitVec 16) (r0 : State), let s := r0.arrive t; s.refusal q 0x3001 (d.val + 1) true = none →
    (s.roleRefused d.val v.toNat = false → Does (.roleMapWrite t q d v) r0 fun u =>
      u.ans.status = stOk ∧ u.odGet 0x3001 (d.val + 1) = v.toNat % 64 ∧
      (∀ i j, j < 256 → (i, j) ≠ (0x3001, d.val + 1) → u.odGet i j = s.odGet i j) ∧
      { u.bare s with od := s.od, pow := s.pow } = s) ∧
    (s.roleRefused d.val v.toNat = true → Does (.roleMapWrite t q d v) r0 fun u =>
      u.ans.status = stRejected ∧ u.odGet 0xB101 1 = s.odGet 0xB101 1 + 1 ∧ s.ObjectsKept u ∧ u.unsaid s = s)) ∧
  (∀ (t sub : Nat) (q : Option Nat) (p : Fin 5) (v : BitVec 16) (r0 : State), let s := r0.arrive t; sub < 256 →
    s.refusal q (0x3020 + p.val) sub true = none →
    (s.shareOk p.val sub v.toNat = true → Does (.shareWrite t q p sub v) r0 fun u =>
      u.ans.status = stOk ∧ u.odGet (0x3020 + p.val) sub = v.toNat ∧
      (∀ i j, j < 256 → (i, j) ≠ (0x3020 + p.val, sub) → u.odGet i j = s.odGet i j) ∧ { u.bare s with od := s.od } = s) ∧
    (s.shareOk p.val sub v.toNat = false → Does (.shareWrite t q p sub v) r0 fun u =>
      u.ans.status = stRejected ∧ u.odGet 0xB10B 3 = s.odGet 0xB10B 3 + 1 ∧ s.ObjectsKept u ∧ u.unsaid s = s)) ∧
  (∀ (t : Nat) (q : Option Nat) (d : DieIdx) (e : BitVec 8) (v : BitVec 64) (r0 : State), let s := r0.arrive t;
    s.refusal q (0x9100 + d.val) e.toNat true = none →
    let owner := (s.sessionOf q).any fun x => x.role == .owner
    let w := v.toNat &&& regionMask
    (s.regionRefused owner d.val e.toNat w = false → Does (.regionEntryWrite t q d e v) r0 fun u =>
      u.ans.status = stOk ∧ u.entryWaits = fmSet s.entryWaits (d.val * 256 + e.toNat) w ∧
      { u.bare s with entryWaits := s.entryWaits } = s) ∧
    (s.regionRefused owner d.val e.toNat w = true → Does (.regionEntryWrite t q d e v) r0 fun u =>
      u.ans.status = stRejected ∧ u.odGet 0xB10E 1 = s.odGet 0xB10E 1 + 1 ∧ s.ObjectsKept u ∧ u.unsaid s = s)) ∧
  (∀ (t : Nat) (q : Option Nat) (agree : Bool) (r0 : State), let s := r0.arrive t; s.refusal q 0x3011 0 true = none →
    (s.commitCheck ≠ 1 → Does (.partitionCommit t q 1 agree) r0 fun u =>
      u.ans.status = stOk ∧ u.odGet 0x3012 0 = s.commitCheck ∧ { u.bare s with od := s.od } = s) ∧
    (s.commitCheck = 1 → s.sec.disagreements < 3 → Does (.partitionCommit t q 1 true) r0 fun u =>
      u.ans.status = stOk ∧ u.odGet 0x3012 0 = 1 ∧ u.cfg.locked = true ∧ u.cfg.lost = s.cfg.lost ∧
      u.sec.life = s.sec.life ∧ u.coll = s.coll) ∧
    (s.commitCheck = 1 → s.sec.disagreements < 3 → Does (.partitionCommit t q 1 false) r0 fun u =>
      u.ans.status = stOk ∧ u.sec = { s.sec with disagreements := s.sec.disagreements + 1 } ∧ u.cfg = s.cfg ∧
      u.odGet 0xB10E 8 = s.odGet 0xB10E 8 + 1 ∧ s.ObjectsKept u ∧ { u.unsaid s with sec := s.sec } = s) ∧
    (∀ v : BitVec 8, v ≠ 1 → Does (.partitionCommit t q v agree) r0 fun u => u.ans.status = stRange ∧ u.bare s = s))

/-- Rows RNG_KEY_WRITE, RNG_KEY_ENTROPY, REEL_READ_WRITE and REPLAY_FABRIC_INPUT. While no draft of the partition is ARMED or RUNNING its generator key is written, or drawn from entropy when strict mode is
off; otherwise the write is ignored with RNG_KEY_REJECT, and entropy in strict mode raises its own event. reel_read takes the
start of a kept record and nothing else. In a replay the next recorded fabric input is performed once its tick and cycle
have come, and not before. -/
def Obligations.KeysReelAndReplay : Prop :=
  (∀ (t : Nat) (q : Option Nat) (p : PartIdx) (v : BitVec 128) (r0 : State), let s := r0.arrive t; s.refusal q (0x4010 + p.val) 1 true = none →
    (s.partBusy p.val = false → Does (.rngKeyWrite t q p v) r0 fun u =>
      u.ans.status = stOk ∧ u.odGet (0x4010 + p.val) 1 = v.toNat ∧ (u.part p.val).keyEntropy = false ∧
      (∀ r, r ≠ p.val → u.part r = s.part r)) ∧
    (s.partBusy p.val = true → Does (.rngKeyWrite t q p v) r0 fun u =>
      u.ans.status = stRejected ∧ u.odGet 0xB10C 1 = s.odGet 0xB10C 1 + 1 ∧ s.ObjectsKept u ∧ u.unsaid s = s)) ∧
  (∀ (t : Nat) (q : Option Nat) (p : PartIdx) (r0 : State), let s := r0.arrive t; s.refusal q (0x4010 + p.val) 2 true = none →
    (s.partBusy p.val = false → s.odGet 0x4002 0 ≠ 1 → Does (.rngKeyEntropy t q p 1) r0 fun u =>
      u.ans.status = stOk ∧ (u.part p.val).keyEntropy = true ∧ ∀ r, r ≠ p.val → u.part r = s.part r) ∧
    (s.partBusy p.val = false → s.odGet 0x4002 0 = 1 → Does (.rngKeyEntropy t q p 1) r0 fun u =>
      u.ans.status = stRejected ∧ u.odGet 0xB10C 2 = s.odGet 0xB10C 2 + 1 ∧ s.ObjectsKept u ∧ u.unsaid s = s) ∧
    (∀ v : BitVec 8, v ≠ 1 → Does (.rngKeyEntropy t q p v) r0 fun u => u.ans.status = stRange ∧ u.bare s = s)) ∧
  (∀ (t : Nat) (q : Option Nat) (p : PartIdx) (v : BitVec 64) (r0 : State), let s := r0.arrive t; s.refusal q (0x2034 + p.val) 2 true = none →
    let known := (fmGet s.reels p.val {}).starts.contains v.toNat || v.toNat == s.odGet (0x2034 + p.val) 1
    (known = true → Does (.reelReadWrite t q p v) r0 fun u =>
      u.ans.status = stOk ∧ u.odGet (0x2034 + p.val) 2 = v.toNat ∧ { u.bare s with od := s.od } = s) ∧
    (known = false → Does (.reelReadWrite t q p v) r0 fun u =>
      u.ans.status = stRejected ∧ u.odGet 0xB10C 5 = s.odGet 0xB10C 5 + 1 ∧ s.ObjectsKept u ∧ u.unsaid s = s)) ∧
  (∀ (t o : Nat) (p : PartIdx) (r0 : State), let s := r0.arrive t;
    let x := s.part p.val
    let here := s.odGet (0x2034 + p.val) 4 + o
    let tick := s.readPa64 (here + 8)
    let cycle := bits (s.readPa64 (here + 16)) 31 0
    x.replay.on = true → x.state = .running → s.replayFind p.val 7 none replayFuel x.replay.fabNext = some o →
    (tick < s.tickOf (some p.val) ∨ tick = s.tickOf (some p.val) ∧ cycle ≤ s.cycleInTick → Does (.replayFabricInput t p) r0 fun u =>
      (u.part p.val).replay = { x.replay with fabNext := o + 96 } ∧ (u.part p.val).epoch = x.epoch) ∧
    (s.tickOf (some p.val) < tick ∨ tick = s.tickOf (some p.val) ∧ s.cycleInTick < cycle →
      exec (.replayFabricInput t p) r0 = .next s))

/-- Rows LC_REQUEST, LC_ERASE_DONE, TEST_PORT_INSTRUCTION, DEBUG_GRANT, SVN_COMMIT, ATTEST_NONCE_WRITE and ATTEST_REPORT_READ.
While both seal processors are there: a maker session's shaped record takes the part from MAKER to PROVISIONED, ends every other
session, gives it an identity and raises LC_TRANSITION; any other record is judged by the rules of its transition, and a refusal
renews the challenge and leaves the state. The end of the erasure of a transition zeroes memory and enters the new state;
a mismatch reports it and erases again. A grant opens debug only for valid partitions of its mask and only when it
meets every condition. The security version only rises, and not beyond the running image's. A nonce belongs to its session, and
a report is read over it. With one seal processor lost, none of the critical requests is granted. -/
def Obligations.LifeCycleDebugAttestation : Prop :=
  (∀ (t : Nat) (q : Option Nat) (r : List Byte) (r0 : State), let s := r0.arrive t; s.refusal q 0x9002 0 true = none → r.length = 8682 →
    (s.singleSeal = true → ∀ a, Does (.lcRequest t q r a) r0 fun u => u.ans.status = stRejected ∧ u.sec.life = s.sec.life ∧
      u.odGet 0xB10E 9 = s.odGet 0xB10E 9 + 1 ∧ u.mem = s.mem) ∧
    (s.singleSeal = false → s.recordOk q r = none → ∀ a, Does (.lcRequest t q r a) r0 fun u =>
      u.ans.status = stRejected ∧ u.sec.life = s.sec.life ∧ u.odGet 0xB10E 3 = s.odGet 0xB10E 3 + 1 ∧ u.mem = s.mem) ∧
    (s.singleSeal = false → s.sec.life = .maker → s.recordOk q r = some .provisioned → s.sec.disagreements < 3 →
      s.boot.warmWaits = false → (∀ p, p < 4 → (s.part p).state = .empty) → Does (.lcRequest t q r true) r0 fun u =>
      u.ans.status = stOk ∧ u.sec.life = .provisioned ∧ u.sec.seed.isSome = true ∧ u.sec.sealedUntilReset = true ∧
      (∀ e, e ∈ u.aoap.sessions → some e.1 = q) ∧ u.odGet 0xB10E 4 = s.odGet 0xB10E 4 + 1 ∧ u.mem = s.mem)) ∧
  (∀ (t : Nat) (dest : LifeCycle) (q : Option Nat) (r0 : State), let s := r0.arrive t; s.sec.transition = some (dest, q) → s.boot.warmWaits = false →
    (Does (.lcEraseDone t false) r0 fun u => u.sec.life = dest ∧ u.sec.transition = none ∧ u.sec.intent = none ∧ u.mem = [] ∧
      u.odGet 0xB10E 4 = s.odGet 0xB10E 4 + 1) ∧
    (Does (.lcEraseDone t true) r0 fun u => u.sec = { s.sec with erasePassFailed := true } ∧ u.mem = s.mem ∧
      u.odGet 0xB10E 5 = s.odGet 0xB10E 5 + 1 ∧ s.ObjectsKept u)) ∧
  (∀ (t : Nat) (op : TestOp) (r0 : State), let s := r0.arrive t;
    Does (.testPortInstruction t op) r0 fun u => u.sec.testInstr = (s.testEffect op).getD s.sec.testInstr ∧
      { u.bare s with sec := { u.sec with testInstr := s.sec.testInstr } } = s) ∧
  (∀ (t : Nat) (q : Option Nat) (g : List Byte) (r0 : State), let s := r0.arrive t; s.refusal q 0x9006 0 true = none → g.length = 3389 →
    s.singleSeal = false → s.sec.disagreements < 3 → Does (.debugGrant t q g true) r0 fun u =>
      if s.grantOk q g then u.ans.status = stOk ∧
        (∀ p, p < 4 → bit u.sec.debugMask p = (bit s.sec.debugMask p || (bit (natOf (cut g 64 65)) p && s.partValid p))) ∧
        (∀ p, p < 4 → bit (natOf (cut g 64 65)) p = true → s.partValid p = true →
          fmGet u.sec.debugCaps p 0 = natOf (cut g 65 69)) ∧ u.sec.life = s.sec.life ∧ u.mem = s.mem
      else u.ans.status = stRejected ∧ u.sec = s.sec ∧ u.odGet 0xB10E 6 = s.odGet 0xB10E 6 + 1) ∧
  (∀ (t : Nat) (q : Option Nat) (v : BitVec 32) (r0 : State), let s := r0.arrive t; s.refusal q 0x9005 0 true = none → s.singleSeal = false →
    (s.mayRaiseSvn q = true → s.sec.svn < v.toNat → v.toNat ≤ s.sec.imageSvn → Does (.svnCommit t q v) r0 fun u =>
      u.ans.status = stOk ∧ u.sec = { s.sec with svn := v.toNat } ∧ { u.bare s with sec := s.sec } = s) ∧
    (v.toNat ≤ s.sec.svn ∨ s.sec.imageSvn < v.toNat ∨ s.mayRaiseSvn q = false → Does (.svnCommit t q v) r0 fun u =>
      u.ans.status = stRejected ∧ u.bare s = s)) ∧
  (∀ (t id : Nat) (n : List Byte) (x : Session) (r0 : State), let s := r0.arrive t; s.refusal (some id) 0x9030 1 true = none → n.length = 32 →
    s.sessionOf (some id) = some x → Does (.attestNonceWrite t (some id) n) r0 fun u =>
      u.ans.status = stOk ∧ fmGet? u.aoap.sessions id = some { x with attestNonce := some n } ∧
      (∀ k, k ≠ id → fmGet? u.aoap.sessions k = fmGet? s.aoap.sessions k) ∧ { u.bare s with aoap := s.aoap } = s) ∧
  (∀ (t id : Nat) (n : List Byte) (x : Session) (r0 : State), let s := r0.arrive t; s.refusal (some id) 0x9030 2 false = none →
    s.sessionOf (some id) = some x →
    (x.attestNonce = none → ∀ a, Does (.attestReportRead t (some id) a) r0 fun u =>
      u.ans.status = stNotReady ∧ u.bare s = s) ∧
    (x.attestNonce = some n → s.sec.disagreements < 3 → Does (.attestReportRead t (some id) true) r0 fun u =>
      u.ans.status = stOk ∧ u.ans.data.take (s.reportBody n).length = s.reportBody n ∧
      u.ans.data.length = (s.reportBody n).length + 3309 ∧ { u.bare s with freeCtr := s.freeCtr } = s))

/-- Rows CLIENT_HELLO, CLIENT_AUTH, SESSION_CLOSE, SESSION_IDLE_TIMEOUT and SESSION_LIFETIME_EXPIRY. Where the package answers:
an anonymous client_hello opens a session on its transport under the next number, with
messages 2 and 4; with 32 sessions held a hello is refused with status 4 and no session opens. A client_auth opens its session
when role, key and signature are accepted, and otherwise ends it with a refusal event. A close message that opens under the
session's key ends the session, and no other. 600 s without a message, or 24 h, end it, and no shorter time does. -/
def Obligations.SessionRules : Prop :=
  (∀ (t : Nat) (tr : Transport) (body : List Byte) (r0 : State), let s := r0.arrive t; s.answersOn tr = true → s.sec.life ≠ .scrapped →
    body.length = 1220 → natOf (cut body 0 2) = 1 →
    (s.aoap.sessions.length < 32 → natOf (cut body 2 3) = 0 → s.sec.disagreements < 3 →
      Does (.clientHello t tr body true) r0 fun u =>
        u.aoap.nextSession = s.aoap.nextSession + 1 ∧ u.out.length = 2 ∧
        (∃ x, fmGet? u.aoap.sessions s.aoap.nextSession = some x ∧ x.role = .anonymous ∧ x.open_ = true ∧ x.transport = tr ∧
          x.began = s.now) ∧
        (∀ k, k ≠ s.aoap.nextSession → fmGet? u.aoap.sessions k = fmGet? s.aoap.sessions k) ∧
        { u.bare s with aoap := s.aoap, freeCtr := s.freeCtr } = s) ∧
    (32 ≤ s.aoap.sessions.length → ∀ a, Does (.clientHello t tr body a) r0 fun u =>
      u.odGet 0xB10E 7 = s.odGet 0xB10E 7 + 1 ∧ u.aoap.nextSession = s.aoap.nextSession ∧
      (∀ k, (fmGet? u.aoap.sessions k).isSome = (fmGet? s.aoap.sessions k).isSome) ∧ s.ObjectsKept u)) ∧
  (∀ (t id : Nat) (tr : Transport) (body : List Byte) (x : Session) (r0 : State), let s := r0.arrive t; s.answersOn tr = true →
    fmGet? s.aoap.sessions id = some x → x.transport = tr →
    (x.open_ = false → body.length = 5261 → s.sec.disagreements < 3 → Does (.clientAuth t tr id body true) r0 fun u =>
      if s.roleAllowed x.role && s.keyAccepted x (cut body 0 1952) &&
          Config.dsaVerify (cut body 0 1952) [] (shake256 64 (x.t1 ++ cut body 0 1952)) (cut body 1952 5261)
      then (∃ y, fmGet? u.aoap.sessions id = some y ∧ y.open_ = true ∧ y.role = x.role ∧ y.clientPk = cut body 0 1952) ∧
        { u.bare s with aoap := s.aoap } = s
      else fmGet? u.aoap.sessions id = none ∧ u.odGet 0xB10E 7 = s.odGet 0xB10E 7 + 1) ∧
    (∀ seq tag, Does (.sessionClose t tr id seq tag) r0 fun u =>
      (x.openBody (aoapHeader 0x12 id seq) tag = some [] → fmGet? u.aoap.sessions id = none) ∧
      (x.openBody (aoapHeader 0x12 id seq) tag ≠ some [] → u.bare s = s) ∧
      (∀ k, k ≠ id → fmGet? u.aoap.sessions k = fmGet? s.aoap.sessions k) ∧ { u.bare s with aoap := s.aoap } = s)) ∧
  (∀ (t id : Nat) (x : Session) (r0 : State), let s := r0.arrive t; fmGet? s.aoap.sessions id = some x →
    let ends := fun u : State => fmGet? u.aoap.sessions id = none ∧
      (∀ k, k ≠ id → fmGet? u.aoap.sessions k = fmGet? s.aoap.sessions k) ∧ { u.bare s with aoap := s.aoap } = s
    (x.lastMsg + 600 * unitsPerSec ≤ s.now → Does (.sessionIdleTimeout t id) r0 ends) ∧
    (s.now < x.lastMsg + 600 * unitsPerSec → exec (.sessionIdleTimeout t id) r0 = .next s) ∧
    (x.began + 86400 * unitsPerSec ≤ s.now → Does (.sessionLifetimeExpiry t id) r0 ends) ∧
    (s.now < x.began + 86400 * unitsPerSec → exec (.sessionLifetimeExpiry t id) r0 = .next s))

/-- Rows OD_READ, OD_WRITE and OD_DESCRIBE. While the dictionary is live: a READ of an object the requester may read answers its value, NOT_READY for one that does not
exist yet, and the status of the first refusal otherwise; a WRITE of a plain object that passes every check changes its writable
bits and no other object, but a write of subindex 0x41 of a generator's control record writes every channel's; a W1C object loses exactly the bits written 1 that are not set in the same cycle; a write of
another length, out of range or refused changes nothing; a write of a command object is that command. DESCRIBE answers the
type, effective right and size, or NO_SESSION to a requester without a session who may not reach the object. Before the dictionary is live nothing answers. -/
def Obligations.ObjectAccesses : Prop :=
  ∀ (t : Nat) (q : Option Nat) (idx : BitVec 16) (sub : BitVec 8) (data : List Byte) (o : Outside) (r0 : State), let s := r0.arrive t;
  let s0 := s
  (s.boot.live = false → (idx, sub) ≠ (0x9030, 2) → ∀ w,
    (Does (.odRead t q idx sub w) r0 fun u => u.ans.status = stSilent ∧ u.bare s = s) ∧
    (Does (.odWrite t q idx sub w data o) r0 fun u => u.ans.status = stSilent ∧ u.bare s = s) ∧
    (Does (.odDescribe t q idx sub w) r0 fun u => u.ans.status = stSilent ∧ u.bare s = s)) ∧
  (s.boot.live = true → globalOf idx.toNat sub.toNat = none →
    (Does (.odRead t q idx sub false) r0 fun u => (idx, sub) ≠ (0x9030, 2) → u.ans.status = stNoObject ∧ u.bare s = s) ∧
    (Does (.odWrite t q idx sub false data o) r0 fun u => u.ans.status = stNoObject ∧ u.bare s = s) ∧
    (Does (.odDescribe t q idx sub false) r0 fun u => u.ans.status = stNoObject ∧ u.bare s = s)) ∧
  (∀ i n r, s.boot.live = true → globalOf idx.toNat sub.toNat = some (i, n) → odRow? i n = some r →
    let v := natOf data
    let old := s.odGet i n
    let m := writableBits i n r
    let fits := if r.var then decide (data.length ≤ r.bytes) else data.length == r.bytes
    let plain := objectCommand q i n data o s0.now = none ∧ s.refusal q i n true = none ∧ fits = true
    ((idx, sub) ≠ (0x9030, 2) →
      (∀ st, s.refusal q i n false = some st → Does (.odRead t q idx sub false) r0 fun u =>
        u.ans.status = st ∧ u.bare s = s) ∧
      (∀ l, s.refusal q i n false = none → s0.odBytes i n r = some l → Does (.odRead t q idx sub false) r0 fun u =>
        u.ans.status = stOk ∧ u.ans.data = l ∧ u.bare s = s) ∧
      (s.refusal q i n false = none → s0.odBytes i n r = none → Does (.odRead t q idx sub false) r0 fun u =>
        u.ans.status = stNotReady ∧ u.bare s = s)) ∧
    (∀ st, objectCommand q i n data o s0.now = none → s.refusal q i n true = some st →
      Does (.odWrite t q idx sub false data o) r0 fun u => u.ans.status = st ∧ u.bare s = s) ∧
    (s.refusal q i n true = none → fits = false → Does (.odWrite t q idx sub false data o) r0 fun u =>
      u.ans.status = stLength ∧ u.bare s = s) ∧
    (plain → s.inRange i n v r = false ∨ r.acc = .wo → Does (.odWrite t q idx sub false data o) r0 fun u =>
      u.ans.status = stRange ∧ u.bare s = s) ∧
    (plain → s.inRange i n v r = true → s.heldObject i n = none →
      (r.acc = .rw ∨ r.acc = .rwl → 0x5100 ≤ i → i ≤ 0x5115 → n = 0x41 → Does (.odWrite t q idx sub false data o) r0 fun u =>
          u.ans.status = stOk ∧ (∀ c, 1 ≤ c → c ≤ 0x41 → u.odGet i c = (s.odGet i c - (s.odGet i c &&& m)) + (v &&& m)) ∧
          { u.bare s with od := s.od } = s) ∧
      (r.acc = .rw ∨ r.acc = .rwl → ¬ (0x5100 ≤ i ∧ i ≤ 0x5115 ∧ n = 0x41) → i ≠ 0x2001 → i ≠ 0x3010 → i ≠ 0x9021 →
        (i < 0x9041 ∨ 0x9044 < i) →
        Does (.odWrite t q idx sub false data o) r0 fun u =>
          u.ans.status = stOk ∧ u.odGet i n = (old - (old &&& m)) + (v &&& m) ∧
          (∀ k, k ≠ odKey i n → fmGet? u.od k = fmGet? s.od k) ∧ { u.bare s with od := s.od } = s) ∧
      (r.acc = .w1c → (∀ b, b < 8 → fmGet? s.w1cAt (odKey i n * 8 + b) ≠ some s0.now) →
        Does (.odWrite t q idx sub false data o) r0 fun u =>
          u.ans.status = stOk ∧ (∀ b, b < 8 → bit (u.odGet i n) b = (bit old b && !bit v b)) ∧
          (∀ k, k ≠ odKey i n → fmGet? u.od k = fmGet? s.od k) ∧ { u.bare s with od := s.od } = s)) ∧
    (∀ f s1, fits = true → objectCommand q i n data o s0.now = some f → f s0 = .next s1 →
      Does (.odWrite t q idx sub false data o) r0 fun u => u = s1) ∧
    (q ≠ none ∨ s.plainObject i = true → Does (.odDescribe t q idx sub false) r0 fun u =>
      u.ans.status = stOk ∧ u.ans.data.length = 16 ∧ cut u.ans.data 0 1 = bytesOf 1 r.ty.code ∧
      cut u.ans.data 1 2 = bytesOf 1 (s.rightCode q i n r) ∧ cut u.ans.data 4 8 = bytesOf 4 r.bytes ∧ u.bare s = s) ∧
    (q = none → s.plainObject i = false → Does (.odDescribe t q idx sub false) r0 fun u =>
      u.ans.status = stNoSession ∧ u.bare s = s))

/-- Rows OD_SUBSCRIBE, OD_UNSUBSCRIBE and VALUE_NOTIFY. A session that holds fewer than 16 subscriptions gets an event subscription over a range of codes, or a value subscription of
an object it may read with a period of 1 to 60,000 ms, under the next number; a 17th, a period out of range and a requester
without a session are refused and nothing changes. UNSUBSCRIBE removes the numbered subscription and no other. When a value
subscription is due the session is sent the object's value under its number, and the next one is due a period later; before that
nothing happens. -/
def Obligations.SubscriptionsAndNotifications : Prop :=
  ∀ (t id : Nat) (x : Session) (r0 : State), let s := r0.arrive t; s.boot.live = true → s.sessionOf (some id) = some x →
  let s0 := s
  let n := x.nextSub % 65536
  let others := fun u : State => (∀ k, k ≠ id → fmGet? u.aoap.sessions k = fmGet? s.aoap.sessions k) ∧
    { u.bare s with aoap := s.aoap } = s
  (∀ (idx : BitVec 16) (sub : BitVec 8) (lo hi : BitVec 16),
    let data := bytesOf 2 0 ++ bytesOf 2 lo.toNat ++ bytesOf 2 hi.toNat ++ bytesOf 2 0
    (x.subs.length < 16 → Does (.odSubscribe t (some id) idx sub data) r0 fun u =>
      u.ans.status = stOk ∧ u.ans.data = bytesOf 2 n ∧
      fmGet? u.aoap.sessions id =
        some { x with subs := x.subs ++ [⟨n, .event lo.toNat hi.toNat, 0⟩], nextSub := n + 1 } ∧ others u) ∧
    (16 ≤ x.subs.length → Does (.odSubscribe t (some id) idx sub data) r0 fun u =>
      u.ans.status = stTooMany ∧ u.bare s = s)) ∧
  (∀ (idx : BitVec 16) (sub : BitVec 8) (period : BitVec 32) (i n' : Nat), globalOf idx.toNat sub.toNat = some (i, n') →
    s.refusal (some id) i n' false = none → x.subs.length < 16 →
    let data := bytesOf 2 1 ++ bytesOf 4 period.toNat ++ bytesOf 2 0
    (1 ≤ period.toNat → period.toNat ≤ 60000 → Does (.odSubscribe t (some id) idx sub data) r0 fun u =>
      u.ans.status = stOk ∧ u.ans.data = bytesOf 2 n ∧
      fmGet? u.aoap.sessions id = some { x with
        subs := x.subs ++ [⟨n, .value idx.toNat sub.toNat period.toNat, s0.now + period.toNat * unitsPerMs⟩]
        nextSub := n + 1 } ∧ others u) ∧
    (period.toNat = 0 ∨ 60000 < period.toNat → Does (.odSubscribe t (some id) idx sub data) r0 fun u =>
      u.ans.status = stRange ∧ u.bare s = s)) ∧
  (∀ (k : BitVec 16),
    ((x.subs.any fun b => b.id == k.toNat) = true → Does (.odUnsubscribe t (some id) (bytesOf 2 k.toNat)) r0 fun u =>
      u.ans.status = stOk ∧
      fmGet? u.aoap.sessions id = some { x with subs := x.subs.filter fun b => b.id != k.toNat } ∧ others u) ∧
    ((x.subs.any fun b => b.id == k.toNat) = false → Does (.odUnsubscribe t (some id) (bytesOf 2 k.toNat)) r0 fun u =>
      u.ans.status = stRange ∧ u.bare s = s)) ∧
  (∀ (r : Option Nat) (idx : BitVec 16) (sub : BitVec 8) (data : List Byte), s.sessionOf r = none →
    (Does (.odSubscribe t r idx sub data) r0 fun u => u.ans.status = stNoSession ∧ u.bare s = s) ∧
    (Does (.odUnsubscribe t r data) r0 fun u => u.ans.status = stNoSession ∧ u.bare s = s)) ∧
  (∀ sid idx sub period due, fmGet? s.aoap.sessions id = some x → (idx, sub) ≠ (0x9030, 2) →
    (x.subs.find? fun b => b.id == sid) = some ⟨sid, .value idx sub period, due⟩ →
    let y := { x with subs := x.subs.map fun b => if b.id = sid then { b with due := due + period * unitsPerMs } else b }
    let s1 := s0.setSession id y
    (s0.now < due → exec (.valueNotify t id sid) r0 = .next s) ∧
    (∀ l, due ≤ s0.now → x.open_ = true → x.transport ≠ .mailbox → x.mayNotify s0.now = true → x.spent = false →
      x.txSeq < 2 ^ 32 → s1.odRead (some id) idx sub false = (stOk, l) → Does (.valueNotify t id sid) r0 fun u =>
        u.out = [.notify id 0x81 idx sub sid l] ∧ fmGet? u.aoap.sessions id = some (y.countSent s0.now) ∧ others u) ∧
    (∀ st, due ≤ s0.now → x.open_ = true → st ≠ stOk → (s1.odRead (some id) idx sub false).1 = st →
      Does (.valueNotify t id sid) r0 fun u => u.out = [] ∧ fmGet? u.aoap.sessions id = some y ∧ others u))
/-- Rows AOAP_MESSAGE, UDP_SEGMENT, UDP_REASSEMBLY_TIMEOUT, MCTP_MESSAGE, MB_AOAP_MESSAGE, MB_NOTIFY_DRAIN, MCTP_EID_ASSIGN and
ETH_LINK_CHANGE. A message on a transport that does not answer, or that is not of AOAP, changes nothing. A plain message is answered: a READ
request of an open object with its status and value, one of another object with NO_SESSION, a malformed body with MALFORMED.
A UDP datagram of one segment, an MCTP body after its vendor id and a mailbox payload reach the same service, and its answers
leave the way the message came. The first segment of several is kept, the last one brings the whole message to the
service, and after 100 ms, not before, what is incomplete is dropped. The mailbox answers the oldest notification of a
session, sealed, or nothing. Link and endpoint changes are recorded while their host die is there. -/
def Obligations.AoapTransports : Prop :=
  (∀ (t : Nat) (tr : Transport) (m : List Byte) (o : Outside) (r0 : State), let s := r0.arrive t;
    (s.answersOn tr = false ∨ aoapShaped m = false → Does (.aoapMessage t tr m o) r0 fun u => u.bare s = s) ∧
    (∀ body, m = aoapHeader 0x10 0 0 ++ body → s.answersOn tr = true → aoapShaped m = true →
      let hd := aoapHeader 0x10 0 0
      (∀ r st l, parseReqs 64 body = some [r] → (r.op, r.status, r.flags, r.data) = (1, 0, 0, []) →
        (r.idx, r.sub) ≠ (0x9030, 2) → s.odRead none r.idx r.sub false = (st, l) → l.length ≤ 12260 →
        Does (.aoapMessage t tr m o) r0 fun u =>
          u.out = [.aoap 0 (hd ++ if s.plainServed r
            then response 0x41 r.sub r.idx r.rid st 0 (if st = stOk then l else [])
            else response 0x41 r.sub r.idx r.rid stNoSession 0 [])] ∧ u.bare s = s) ∧
      (parseReqs 64 body = none ∨ body = [] → Does (.aoapMessage t tr m o) r0 fun u =>
        u.out = [.aoap 0 (hd ++ response 0x40 0 0 0 stMalformed 0 [])] ∧ u.bare s = s))) ∧
  (∀ (t src msgId seg nseg total rsv : Nat) (port : Bool) (data : List Byte) (o : Outside) (r0 : State), let s := r0.arrive t;
    let mine := fun r : Reasm => r.source == 2 * src + b2n port && r.msgId == msgId
    let s0 := s
    s.answersOn (.ethernet port) = true →
    (s.aoap.reasm.find? mine = none → segmentOk seg nseg total rsv data.length = true →
      (nseg = 1 → ∀ v ms, s0.serve (.ethernet port) data o = (v, ms) →
        Does (.udpSegment t port src msgId seg nseg total rsv data o) r0 fun u =>
          u.out = v.out ++ ms.map (.udp port src msgId) ∧ { u with out := v.out } = v) ∧
      (nseg ≠ 1 → (s.aoap.reasm.filter fun r => r.source == 2 * src + b2n port).length < 16 →
        Does (.udpSegment t port src msgId seg nseg total rsv data o) r0 fun u =>
          u.aoap.reasm = s.aoap.reasm ++ [⟨2 * src + b2n port, msgId, nseg, total, s0.now, [(seg, data)]⟩] ∧
          u.out = [] ∧ { u.bare s with aoap := s.aoap } = s)) ∧
    (s.aoap.reasm.find? mine = none → segmentOk seg nseg total rsv data.length = false →
      Does (.udpSegment t port src msgId seg nseg total rsv data o) r0 fun u => u.out = [] ∧ u.bare s = s) ∧
    (∀ r m v ms, s.aoap.reasm.find? mine = some r → r.nseg = nseg → r.total = total → fmHas r.segs seg = false →
      segmentOk seg nseg total rsv data.length = true → Reasm.whole { r with segs := fmSet r.segs seg data } = some m →
      State.serve { s0 with aoap := { s.aoap with reasm := s.aoap.reasm.filter fun r => !mine r } } (.ethernet port) m o = (v, ms) →
      Does (.udpSegment t port src msgId seg nseg total rsv data o) r0 fun u =>
        u.out = v.out ++ ms.map (.udp port src msgId) ∧ { u with out := v.out } = v) ∧
    (Does (.udpReassemblyTimeout t port src msgId) r0 fun u =>
      (∀ r, r ∈ u.aoap.reasm ↔ r ∈ s.aoap.reasm ∧ (mine r = false ∨ s0.now < r.first + 100 * unitsPerMs)) ∧
      { u.bare s with aoap := s.aoap } = s)) ∧
  (∀ (t : Nat) (bus : Bool) (body : List Byte) (o : Outside) (r0 : State), let s := r0.arrive t;
    (body.length < 4 ∨ 12292 < body.length ∨ natOf (body.take 4) ≠ 0x1E7B4 → Does (.mctpMessage t bus body o) r0 fun u =>
      u.out = [] ∧ u.bare s = s) ∧
    (∀ v ms m, m.length ≤ 12288 → body = bytesOf 4 0x1E7B4 ++ m → s.serve (.i3c bus) m o = (v, ms) →
      Does (.mctpMessage t bus body o) r0 fun u =>
        u.out = v.out ++ ms.map (fun a => .mctp bus (bytesOf 4 0x1E7B4 ++ a)) ∧ { u with out := v.out } = v)) ∧
  (∀ (t : Nat) (m : List Byte) (o : Outside) (r0 : State), let s := r0.arrive t; s.linked = true → s.mbReady = true →
    (12288 < m.length → Does (.mbAoapMessage t m o) r0 fun u => u.ans.status = 2 ∧ u.out = [.msix 0] ∧ u.bare s = s) ∧
    (∀ v ms, m.length ≤ 12288 → s.serve .mailbox m o = (v, ms) → Does (.mbAoapMessage t m o) r0 fun u =>
      u.ans.status = 0 ∧ u.ans.data = ms.flatten ∧ u.out = v.out ++ [.msix 0] ∧
      { u with ans := v.ans, out := v.out } = v) ∧
    (s.aoap.mbQueue = [] → Does (.mbNotifyDrain t) r0 fun u =>
      u.ans.status = 0 ∧ u.ans.data = [] ∧ u.out = [.msix 0] ∧ u.bare s = s) ∧
    (∀ id l rest x, s.aoap.mbQueue = (id, l) :: rest → fmGet? s.aoap.sessions id = some x →
      (∀ e, e ∈ rest → fmHas s.aoap.sessions e.1 = true) → Does (.mbNotifyDrain t) r0 fun u =>
        u.ans.status = 0 ∧ u.ans.data = (x.sealBody id l).1 ∧ u.out = [.msix 0] ∧ u.aoap.mbQueue = rest ∧
        fmGet? u.aoap.sessions id = (if (x.sealBody id l).2.spent then none else some (x.sealBody id l).2) ∧
        (∀ k, k ≠ id → fmGet? u.aoap.sessions k = fmGet? s.aoap.sessions k) ∧ { u.bare s with aoap := s.aoap } = s)) ∧
  (∀ (t : Nat) (b up : Bool) (eid : BitVec 8) (r0 : State), let s := r0.arrive t;
    (s.cfg.lost.contains (30 + b2n b) = false →
      (Does (.mctpEidAssign t b eid) r0 fun u => u.odGet 0x1020 (1 + b2n b) = eid.toNat ∧
        (∀ k, k ≠ odKey 0x1020 (1 + b2n b) → fmGet? u.od k = fmGet? s.od k) ∧ { u.bare s with od := s.od } = s) ∧
      (s.pins.sysRefLost = false → Does (.ethLinkChange t b up) r0 fun u => u.odGet (0x1010 + b2n b) 5 = b2n up ∧
        (∀ k, k ≠ odKey (0x1010 + b2n b) 5 → fmGet? u.od k = fmGet? s.od k) ∧ { u.bare s with od := s.od } = s)) ∧
    (s.cfg.lost.contains (30 + b2n b) = true →
      (Does (.mctpEidAssign t b eid) r0 fun u => u.bare s = s) ∧ (Does (.ethLinkChange t b up) r0 fun u => u.bare s = s)))
/-- Rows MB_IDENTIFY, MB_GET_SUPPORTED_LOGS, MB_GET_LOG, MB_HOST_COPY, MB_OWNERSHIP_CMD, MB_COLL_LAUNCH and HOST_COPY_DONE.
Without the link no mailbox command has an effect, and one sent while another runs answers Busy (6). Otherwise Identify
and the log commands answer their data, a malformed payload is Invalid Input (2), and each completion signals MSI-X 0. A
host copy is accepted in the background (1) and later moves its line, ends at the first line that is refused, or reports a
host memory error, with its status and the offset. An ownership command acts for domain 4 at once, but waits while
the host may hold a line of its region. A collective launch outside the host's regions answers 1, and one inside them
performs the launch. -/
def Obligations.MailboxCommands : Prop :=
  ∀ (t : Nat) (uuid m : List Byte) (off len cl : BitVec 32) (ha pa desc region word : BitVec 64) (dir p : BitVec 8)
    (o : Outside) (r0 : State), let s := r0.arrive t;
  let s0 := s
  let done := fun (u : State) (code : Nat) (l : List Byte) => u.ans = ⟨code, l⟩ ∧ u.out = [.msix 0]
  let copy : Instr := .mbHostCopy t ha pa cl dir
  let own : Instr := .mbOwnershipCmd t region word
  let good := cl.toNat % 64 = 0 ∧ cl.toNat ≤ 2 ^ 30 ∧ dir.toNat ≤ 1 ∧ ha.toNat % 64 = 0 ∧ pa.toNat % 64 = 0
  (∀ c ∈ [.mbIdentify t, .mbGetSupportedLogs t, .mbGetLog t uuid off len, copy, own, .mbCollLaunch t p desc, .mbAoapMessage t m o,
      .mbNotifyDrain t],
    (s.linked = false → Does c r0 fun u => u.out = [] ∧ u.bare s = s) ∧
    (s.linked = true → s.mbReady = false → Does c r0 fun u => done u 6 [] ∧ u.bare s = s)) ∧
  (s.linked = true → s.mbReady = true →
    (Does (.mbIdentify t) r0 fun u => done u 0 (fitTo 69 Config.deviceIdentity) ∧ u.bare s = s) ∧
    (Does (.mbGetSupportedLogs t) r0 fun u =>
      done u 0 (bytesOf 2 1 ++ List.replicate 6 0 ++ celUuid ++ bytesOf 4 celLog.length) ∧ u.bare s = s) ∧
    (uuid = celUuid → off.toNat + len.toNat ≤ celLog.length → Does (.mbGetLog t uuid off len) r0 fun u =>
      done u 0 (cut celLog off.toNat (off.toNat + len.toNat)) ∧ u.bare s = s) ∧
    (uuid ≠ celUuid ∨ celLog.length < off.toNat + len.toNat → Does (.mbGetLog t uuid off len) r0 fun u =>
      done u 2 [] ∧ u.bare s = s) ∧
    (good → Does copy r0 fun u => u.ans.status = 1 ∧ u.out = [] ∧
      u.host = { s.host with copy := some ⟨ha.toNat, pa.toNat, cl.toNat, dir == 1⟩ } ∧ { u.bare s with host := s.host } = s) ∧
    (¬ good → Does copy r0 fun u => done u 2 [] ∧ u.bare s = s) ∧
    (s.host.held.contains (region.toNat / 2 ^ 21) = false → s0.ctlCheck .host region.toNat = (s0, 0) →
      let g := region.toNat / 2 ^ 21
      let e := s.ownEnt g
      (word = 1 → e.state = 0 → Does own r0 fun u =>
        u.ownEnt g = ⟨1, 4, e.gen + 1, s.ownPath⟩ ∧ done u 0 (bytesOf 8 ((e.gen + 1).toNat <<< 16)) ∧
        (∀ r, r ≠ g → u.ownEnt r = s.ownEnt r) ∧ { u.bare s with fab := s.fab } = s) ∧
      (word = 2 → e.state = 1 → e.path = s.ownPath → e.domain = 4 → Does own r0 fun u =>
        (u.ownEnt g).state = 0 ∧ done u 0 (bytesOf 8 ((e.gen + 1).toNat <<< 16)) ∧
        (∀ r, r ≠ g → u.ownEnt r = s.ownEnt r) ∧ { u.bare s with fab := s.fab } = s) ∧
      (word = 2 → e.state = 1 → e.domain ≠ 4 → Does own r0 fun u =>
        done u 0 (bytesOf 8 (0x11 + e.gen.toNat <<< 16)) ∧ u.bare s = s)) ∧
    (s.host.held = [region.toNat / 2 ^ 21] → word = 2 → Does own r0 fun u =>
      u.ans.status = stWait ∧ u.host.ownWait = s.host.ownWait ++ [(region.toNat, 2)] ∧ u.fab = s.fab ∧ u.mem = s.mem) ∧
    (4 ≤ p.toNat → Does (.mbCollLaunch t p desc) r0 fun u => done u 2 [] ∧ u.bare s = s) ∧
    (p.toNat < 4 → desc.toNat % 64 ≠ 0 ∨ s.inHostRegions p.toNat desc.toNat 64 = false →
      Does (.mbCollLaunch t p desc) r0 fun u => done u 0 [1] ∧ u.bare s = s) ∧
    (∀ l v n, p.toNat < 4 → desc.toNat % 64 = 0 → s.inHostRegions p.toNat desc.toNat 64 = true → s.host.held = [] →
      s0.loadPiece .host 0 0 desc.toNat 64 = (s0, l, 0) → s.hostBuffers (readDesc p.toNat (wordsOf l)) = true →
      s0.launchColl p.toNat (wordsOf l) = (v, n) → Does (.mbCollLaunch t p desc) r0 fun u =>
        u.ans = ⟨0, bytesOf 1 n⟩ ∧ u.out = v.out ++ [.msix 0] ∧ { u with ans := v.ans, out := v.out } = v)) ∧
  (∀ host, s.host.copy = none → Does (.hostCopyDone t host) r0 fun u => u.out = [] ∧ u.bare s = s) ∧
  (∀ (c : HostCopy) (l : List Byte) (d a k : Nat), s.host.copy = some c → c.len = 64 → s.host.held = [] →
    s.place c.pkgAddr = .stack d a → l.length = 64 → Mem.wf s.mem = true →
    (s0.verdict .host .wr c.pkgAddr = (s0, .ok k) → c.toHost = false →
      (Does (.hostCopyDone t [some l]) r0 fun u =>
        u.ans = ⟨0, List.replicate 5 0⟩ ∧ u.host = { s.host with copy := none } ∧ Mem.readN u.mem k 64 = l ∧
        ∀ b, b < k ∨ k + 64 ≤ b → Mem.read u.mem b = Mem.read s.mem b) ∧
      (Does (.hostCopyDone t [none]) r0 fun u =>
        done u 0 (2 :: List.replicate 4 0) ∧ u.host = { s.host with copy := none } ∧ u.mem = s.mem)) ∧
    (s0.verdict .host .rd c.pkgAddr = (s0, .ok k) → s0.readCheck k 64 = (s0, []) → c.toHost = true →
      Does (.hostCopyDone t [some l]) r0 fun u =>
        u.ans = ⟨0, List.replicate 5 0⟩ ∧ u.out = [.hostLine c.hostAddr (Mem.readN s.mem k 64), .msix 0] ∧
        { u.bare s with host := s.host } = s ∧ u.host = { s.host with copy := none }) ∧
    (∀ v st c', s0.verdict .host .wr c.pkgAddr = (v, .refused st c') → st ≠ 0 → c.toHost = false →
      Does (.hostCopyDone t [some l]) r0 fun u =>
        u.ans = ⟨0, 1 :: List.replicate 4 0⟩ ∧ u.host = { s.host with copy := none } ∧ u.mem = s.mem))
/-- Rows HDM_SIZE_WRITE and HDM_DECODER_COMMIT. hdm_size takes every size from 0 to 1,024 GiB and no other, and is refused as LOCKED once the partitions are committed. Over
the host's link, a decoder commit of exactly hdm_size succeeds, and from then on exactly the offsets below that many GiB are
decoded; a commit of any other size leaves the commit error set and decodes nothing, so that a host read or write at
any offset has no effect. A smaller size also makes the map entries beyond it invalid and leaves every other entry. -/
def Obligations.HdmWindow : Prop :=
  (∀ (t : Nat) (q : Option Nat) (v : BitVec 16) (r0 : State), let s := r0.arrive t; s.refusal q 0x1104 1 true = none →
    (v.toNat ≤ 1024 → Does (.hdmSizeWrite t q v) r0 fun u =>
      u.ans.status = stOk ∧ u.odGet 0x1104 1 = v.toNat ∧
      (∀ seg, seg < 1024 → u.hdmEntry seg =
        if v.toNat < s.odGet 0x1104 1 ∧ v.toNat ≤ seg ∧ bit (s.hdmEntry seg) 31 = true then setBit (s.hdmEntry seg) 31 false
        else s.hdmEntry seg) ∧
      (∀ i j, j < 256 → (i, j) ≠ (0x1104, 1) → i < 0x1100 ∨ 0x1103 < i → u.odGet i j = s.odGet i j) ∧
      { u.bare s with od := s.od } = s) ∧
    (1024 < v.toNat → Does (.hdmSizeWrite t q v) r0 fun u => u.ans.status = stRange ∧ u.bare s = s)) ∧
  (∀ (t : Nat) (q : Option Nat) (v : BitVec 16) (r0 : State), let s := r0.arrive t; s.cfg.locked = true →
    State.refusal { s with cfg := { s.cfg with locked := false } } q 0x1104 1 true = none →
    Does (.hdmSizeWrite t q v) r0 fun u => u.ans.status = stLocked ∧ u.bare s = s) ∧
  (∀ (t gib : Nat) (r0 : State), let s := r0.arrive t; s.linked = true →
    (gib = s.odGet 0x1104 1 → Does (.hdmDecoderCommit t gib) r0 fun u =>
      u.host = { s.host with decoder := some gib, commitError := false } ∧
      (∀ o, u.decodes o = decide (o < gib * 2 ^ 30)) ∧ { u.bare s with host := s.host } = s) ∧
    (gib ≠ s.odGet 0x1104 1 → Does (.hdmDecoderCommit t gib) r0 fun u =>
      u.host = { s.host with decoder := none, commitError := true } ∧ (∀ o, u.decodes o = false) ∧
      (∀ t' o m d, (Does (.hostRead t' o) u fun w => w.bare u = u) ∧ (Does (.hostWrite t' o d m) u fun w => w.bare u = u)) ∧
      { u.bare s with host := s.host } = s))

/-- Rows HOST_READ, HOST_WRITE, BI_SNOOP_RESPONSE and CXL_BI_TIMEOUT. At an offset of the window that is mapped, of the form its checks pass: a read answers the 64 bytes with cause 0, changes no
memory, and from then on the host may hold the line's region; a write stores exactly the enabled bytes of the line. A read
that a check refuses answers the slub words of its cause, and the host holds nothing for it. An offset of an unmapped
segment raises ADDRESS_UNMAPPED; a read there answers cause 3. The answer of a snoop writes its lines back and ends the host's
hold of that region and of no other. After 20 µs without an answer, not before, each unanswered line raises
CXL_BI_TIMEOUT and is poisoned, and the hold ends. -/
def Obligations.HostReadsWritesAndSnoops : Prop :=
  ∀ (t o : Nat) (r0 : State), let s := r0.arrive t;
  let s0 := s
  let line := o / 64 * 64
  (s.decodes line = false → ∀ d m, (Does (.hostRead t o) r0 fun u => u.bare s = s) ∧
    (Does (.hostWrite t o d m) r0 fun u => u.bare s = s)) ∧
  (s.decodes line = true → s.hdmAddr line = none → ∀ d m,
    (Does (.hostRead t o) r0 fun u => u.ans = ⟨3, slubBytes 0 3 0 64⟩ ∧ u.odGet 0xB108 1 = s.odGet 0xB108 1 + 1 ∧
      s.ObjectsKept u ∧ u.unsaid s = s) ∧
    (Does (.hostWrite t o d m) r0 fun u => u.odGet 0xB108 1 = s.odGet 0xB108 1 + 1 ∧ s.ObjectsKept u ∧ u.unsaid s = s)) ∧
  (∀ pa, s.decodes line = true → s.hdmAddr line = some pa →
    (∀ k, s0.verdict .host .rd pa = (s0, .ok k) → s0.readCheck k 64 = (s0, []) → Does (.hostRead t o) r0 fun u =>
      u.ans = ⟨0, Mem.readN s.mem k 64⟩ ∧ u.host.held.contains (pa / 2 ^ 21) = true ∧
      (∀ r, r ≠ pa / 2 ^ 21 → u.host.held.contains r = s.host.held.contains r) ∧ { u.bare s with host := s.host } = s) ∧
    (∀ v st c, s0.verdict .host .rd pa = (v, .refused st c) → c ≠ 0 → Does (.hostRead t o) r0 fun u =>
      u.ans = ⟨c, slubBytes 0 c 0 64⟩ ∧ u.host = s.host ∧ u.mem = s.mem) ∧
    (∀ (k : Nat) (d : List Byte) (m : BitVec 64), s0.verdict .host .wr pa = (s0, .ok k) → d.length = 64 → Mem.wf s.mem = true →
      m = BitVec.allOnes 64 ∨ s0.readCheck k 64 = (s0, []) → Does (.hostWrite t o d m) r0 fun u =>
        (∀ i, i < 64 → Mem.read u.mem (k + i) = if bit m.toNat i then nth d i 0 else Mem.read s.mem (k + i)) ∧
        (∀ b, b < k ∨ k + 64 ≤ b → Mem.read u.mem b = Mem.read s.mem b) ∧ u.host = s.host) ∧
    (∀ v st c d m, s0.verdict .host .wr pa = (v, .refused st c) → Does (.hostWrite t o d m) r0 fun u => u.mem = s.mem)) ∧
  (∀ g, s.host.ownWait = [] →
    (fmHas s.host.snoops (g * 2 ^ 21) = false → ∀ dirty, Does (.biSnoopResponse t g dirty) r0 fun u => u.bare s = s) ∧
    (fmHas s.host.snoops (g * 2 ^ 21) = true →
      (Does (.biSnoopResponse t g []) r0 fun u =>
        (∀ r, r ∈ u.host.held ↔ r ∈ s.host.held ∧ r ≠ g) ∧ fmHas u.host.snoops (g * 2 ^ 21) = false ∧
        (∀ a, a ≠ g * 2 ^ 21 → fmGet? u.host.snoops a = fmGet? s.host.snoops a) ∧ { u.bare s with host := s.host } = s) ∧
      (∀ (i : Fin 32768) (d : List Byte) (k : Nat), s.key? (g * 2 ^ 21 + 64 * i.val) = some k → k % 64 = 0 → d.length = 64 →
        Mem.wf s.mem = true → Does (.biSnoopResponse t g [(i, d)]) r0 fun u =>
          Mem.readN u.mem k 64 = d ∧ (∀ b, b < k ∨ k + 64 ≤ b → Mem.read u.mem b = Mem.read s.mem b) ∧
          (∀ r, r ∈ u.host.held ↔ r ∈ s.host.held ∧ r ≠ g))) ∧
    (∀ since i, fmGet? s.host.snoops (g * 2 ^ 21) = some since →
      (s0.now < since + 20 * unitsPerUs → Does (.cxlBiTimeout t g [i]) r0 fun u => u.bare s = s) ∧
      (∀ k, since + 20 * unitsPerUs ≤ s0.now → s.key? (g * 2 ^ 21 + 64 * i.val) = some k → Does (.cxlBiTimeout t g [i]) r0 fun u =>
        fmGet? u.lines (k / 64) = some .poisoned ∧ u.odGet 0xB111 3 = s.odGet 0xB111 3 + 1 ∧
        (∀ r, r ∈ u.host.held ↔ r ∈ s.host.held ∧ r ≠ g) ∧ u.mem = s.mem ∧ s.ObjectsKept u)))

/-- Rows WIN_PEND_CLEAR, WIN_RELEASE_WRITE, HOST_RELEASE_DONE and HOST_DOORBELL_WRITE. Over the host's link: a write clears exactly the win_pend bits written 1 that were not set in the same cycle. A win_release
of a window with a granted buffer that is not yet under release starts the release of the oldest such buffer; of any other it
is ignored with HOST_RELEASE_REJECT. Once the host's lines of the buffer are back, its entry is marked released and the
release is over. A doorbell counts and stands in the next entry of the ring with the tick counter, when the ring lies
in the partition's regions; otherwise it raises HOST_RELEASE_REJECT and is not counted. -/
def Obligations.HostWindowsAndDoorbells : Prop :=
  ∀ (t : Nat) (p : PartIdx) (r0 : State), let s := r0.arrive t;
  let s0 := s
  (s.linked = false → ∀ v, (Does (.winPendClear t p v) r0 fun u => u.bare s = s) ∧
    (Does (.winReleaseWrite t p v) r0 fun u => u.bare s = s) ∧ (Does (.hostDoorbellWrite t p v) r0 fun u => u.bare s = s)) ∧
  (s.linked = true →
    (∀ v : BitVec 64, Does (.winPendClear t p v) r0 fun u =>
      (∀ w, w < 64 → bit (fmGet u.host.winPend p.val 0).toNat w = (bit (fmGet s.host.winPend p.val 0).toNat w &&
        (!bit v.toNat w || decide (fmGet? s.host.winPendAt (64 * p.val + w) = some s0.now)))) ∧
      (∀ r, r ≠ p.val → fmGet? u.host.winPend r = fmGet? s.host.winPend r) ∧
      { u.bare s with host := { u.host with winPend := s.host.winPend } } = s) ∧
    (∀ w d b bs, w < 64 → s.windowDesc p.val w = some d → s.releasable p.val w = b :: bs → s.host.held = [] →
      Does (.winReleaseWrite t p (BitVec.ofNat 64 (2 ^ w))) r0 fun u =>
        u.host = { s.host with releases := s.host.releases ++ [(p.val, w, b)] } ∧ { u.bare s with host := s.host } = s) ∧
    (∀ w, w < 64 → s.windowDesc p.val w = none ∨ s.releasable p.val w = [] →
      Does (.winReleaseWrite t p (BitVec.ofNat 64 (2 ^ w))) r0 fun u =>
        u.odGet 0xB111 4 = s.odGet 0xB111 4 + 1 ∧ s.ObjectsKept u ∧ u.unsaid s = s) ∧
    (∀ v : BitVec 64,
      let s1 := s0.reel p.val 5 2 [v.toNat]
      let base := s1.odGet (0x1108 + p.val) 0
      let n := s1.odGet (0x110C + p.val) 0
      (s1.inRegions p.val base 1024 = false → Does (.hostDoorbellWrite t p v) r0 fun u =>
        u.odGet 0xB111 4 = s1.odGet 0xB111 4 + 1 ∧ u.odGet (0x110C + p.val) 0 = n ∧ u.mem = s1.mem ∧ u.harts = s1.harts) ∧
      (∀ k, s1.inRegions p.val base 1024 = true → s1.key? (base + 16 * (n % 64)) = some k → s1.partBad k 16 = [] → Mem.wf s1.mem = true →
        Does (.hostDoorbellWrite t p v) r0 fun u =>
          u.odGet (0x110C + p.val) 0 = n + 1 ∧ Mem.readN u.mem k 16 = bytesOfWords [v.toNat, s1.cad.tick.toNat] ∧
          (∀ b, b < k ∨ k + 16 ≤ b → Mem.read u.mem b = Mem.read s1.mem b) ∧
          (∀ h, h ∈ s.partHarts p.val → bit (s.hart h).mie.toNat 19 = true → bit (u.hart h).mip.toNat 19 = true) ∧
          (∀ h, h ∉ s.partHarts p.val → u.hart h = s.hart h)))) ∧
  (∀ w : Fin 64,
    ((s.host.releases.find? fun r => r.1 == p.val && r.2.1 == w.val) = none → Does (.hostReleaseDone t p w) r0 fun u =>
      u.bare s = s) ∧
    (∀ b d, (s.host.releases.find? fun r => r.1 == p.val && r.2.1 == w.val) = some (p.val, w.val, b) → s.host.held = [] →
      s.windowDesc p.val w.val = some d → Does (.hostReleaseDone t p w) r0 fun u =>
        u.host = { s.host with releases := s.host.releases.erase (p.val, w.val, b) } ∧
        (u.win p.val w.val).queue = markReleased b (s.win p.val w.val).queue ∧
        (∀ r, r ≠ p.val → u.part r = s.part r) ∧ { u.bare s with host := s.host, parts := s.parts } = s))
/-- While the dictionary is live: a power sample enters the 10 ms mean and its peak; the mean above 97 % of the limit begins the first
measure with its event and below 90 % ends it; 1 ms later, still above the limit, every running partition pauses. A die's
temperature is recorded; it warns, throttles above 100 °C, and above 112 °C, or 1 ms above 105 °C, is lost. A droop alert is
counted; its release ends it after 2 µs. A re-plan happens only when it is asked for or due, and aims a rail that is not held
at the planned setpoint; the rail moves toward it by at most 10 mV each 1 ms. Each second adds every powered die's wear. An offered lower
clock is applied when accepted and no draft is ARMED or RUNNING. (Roundings the manual leaves open, the monitor fit and the
wear rate are free values: log entries 3, 4.) Rows POWER_SAMPLE, POWER_LIMIT_ESCALATE, THERMAL_SAMPLE, DROOP_ALERT,
DROOP_RELEASE, REPLAN_NOW, MARGIN_REPLAN, AVS_SETPOINT_STEP, AGEING_ACCRUE, CLOCK_ACCEPT, CLOCK_CHANGE_APPLY. -/
def Obligations.PowerThermalAndWear : Prop :=
  ∀ (t : Nat) (r0 : State), let s := r0.arrive t;
  let s0 := s
  let x := s.pow
  (∀ watts, s.boot.live = true → x.paused = false →
    let smp := (watts :: x.samples).take 100
    let mean := roundOpen smp.sum smp.length
    let above := 97 * s.odGet 0xA001 2 * smp.length < 100 * smp.sum
    let below := 100 * smp.sum < 90 * s.odGet 0xA001 2 * smp.length
    Does (.powerSample t watts []) r0 fun u =>
      u.odGet 0xA001 1 = mean ∧ u.odGet 0xA001 3 = max mean (s.odGet 0xA001 3) ∧
      u.pow = { x with
        samples := smp
        throttleSince := if x.throttleSince = none then (if above then some s0.now else none)
          else if below then none else x.throttleSince } ∧
      u.odGet 0xB110 1 = s.odGet 0xB110 1 + (if x.throttleSince = none ∧ above then 1 else 0) ∧
      { u.unsaid s with pow := x } = s) ∧
  (∀ since, x.throttleSince = some since →
    (since + unitsPerMs ≤ s0.now → s.meanAbove 100 = true → x.paused = false → Does (.powerLimitEscalate t) r0 fun u =>
      u.pow = { x with paused := true } ∧ { u.bare s with pow := x, parts := s.parts } = s ∧
      ∀ p, p < 4 → if (s.part p).state = .running then (u.part p).pauseUntil.isSome = true else u.part p = s.part p) ∧
    (s0.now < since + unitsPerMs ∨ s.meanAbove 100 = false → exec (.powerLimitEscalate t) r0 = .next s)) ∧
  (∀ (d : DieIdx) (temp : Int) (dirty : List (BitVec 48)), s.boot.live = true →
    let h := s.dieHealth d.val
    let warn : Int := 1000 * (s.odGet 0xA021 0 : Nat)
    (s.diePowered d.val = false → exec (.thermalSample t d temp dirty) r0 = .next s) ∧
    (s.diePowered d.val = true →
      (temp ≤ 105000 → Does (.thermalSample t d temp dirty) r0 fun u =>
        u.odGet 0xA020 (d.val + 1) = ofSigned 32 temp ∧
        u.odGet 0xB110 4 = s.odGet 0xB110 4 + (if warn < temp ∧ h.warned = false then 1 else 0) ∧
        u.odGet 0xB110 5 = s.odGet 0xB110 5 + (if 100000 < temp ∧ h.throttled = false then 1 else 0) ∧
        (u.dieHealth d.val).throttled = (if 100000 < temp then true else if temp < 97000 then false else h.throttled) ∧
        (∀ k, k ≠ d.val → u.dieHealth k = s.dieHealth k) ∧ { u.unsaid s with pow := x } = s) ∧
      (112000 < temp ∨ (105000 < temp ∧ ∃ a, h.overSince = some a ∧ a + unitsPerMs ≤ s0.now) →
        Does (.thermalSample t d temp dirty) r0 fun u => u.cfg.lost.contains d.val = true ∧ u.pow.replanAsked = true))) ∧
  (∀ k : Fin 8,
    let y := fmGet x.droops k.val {}
    (s.cfg.lost.contains (interfaceDie k.val) = false → (y.count + 1) % 1000 ≠ 0 → Does (.droopAlert t k) r0 fun u =>
      (fmGet u.pow.droops k.val {}).count = y.count + 1 ∧ (fmGet u.pow.droops k.val {}).asserted = true ∧
      (fmGet u.pow.droops k.val {}).assertedAt = s0.now ∧ (∀ j, j ≠ k.val → fmGet u.pow.droops j {} = fmGet x.droops j {}) ∧
      u.odGet 0xB110 2 = s.odGet 0xB110 2 + 1 ∧ s.ObjectsKept u ∧ { u.unsaid s with pow := x } = s) ∧
    (∀ r, y.asserted = true → y.assertedAt ≤ r → r + 2 * unitsPerUs ≤ s0.now → Does (.droopRelease t k r) r0 fun u =>
      u.pow = { x with droops := fmSet x.droops k.val { y with asserted := false, active := false, releasedAt := some r } } ∧
      { u.bare s with pow := x } = s) ∧
    (∀ r, r < y.assertedAt ∨ s0.now < r + 2 * unitsPerUs → exec (.droopRelease t k r) r0 = .next s)) ∧
  (∀ (q : Option Nat) (v : BitVec 8), s.refusal q 0xA007 0 true = none → Does (.replanNow t q v) r0 fun u =>
    u.ans.status = (if v = 1 then stOk else stRange) ∧
    u.pow = { x with replanAsked := x.replanAsked || v == 1 } ∧ { u.bare s with pow := x } = s) ∧
  (s0.replanDue = false → ∀ ms, exec (.marginReplan t ms) r0 = .next s) ∧
  (∀ m : Margin, s0.replanDue = true →
    let r := dieRail m.die.val
    let plan := s.plannedMv m
    s.diePowered m.die.val = true → (fmGet x.rails r {}).heldSince = none →
    (18 ≤ m.die.val ∨ s.role m.die.val ≠ 1) →
    (plan ≤ 850 → Does (.marginReplan t [m]) r0 fun u =>
      (fmGet u.pow.rails r {}).target = max 600 plan ∧ u.pow.lastReplan = s0.now ∧ u.pow.replanAsked = false ∧
      bits (u.odGet 0xA030 (m.die.val + 1)) 31 16 = max 600 plan ∧ u.odGet 0xA002 (r + 1) = s.odGet 0xA002 (r + 1) ∧
      { u.unsaid s with pow := x } = s) ∧
    (850 < plan → s.clockMhz = 3000 → Does (.marginReplan t [m]) r0 fun u =>
      (fmGet u.pow.rails r {}).target = 850 ∧ u.odGet 0xA011 0 = 2800 ∧ u.odGet 0xB110 9 = s.odGet 0xB110 9 + 1 ∧
      { u.unsaid s with pow := x } = s)) ∧
  (∀ r : Fin 40,
    let y := fmGet x.rails r.val {}
    let k := fmGet x.droops (r.val / 5) {}
    let v := s.odGet 0xA002 (r.val + 1)
    let mv := if v < y.target then min y.target (v + 10) else max y.target (v - 10)
    (s.boot.live = true → y.heldSince = none → y.target ≠ v → k.asserted = false → k.releasedAt = none →
      y.lastCmd + unitsPerMs ≤ s0.now → Does (.avsSetpointStep t r) r0 fun u =>
        u.odGet 0xA002 (r.val + 1) = mv ∧ u.out = [.avs r.val mv] ∧
        (∀ i, i ≠ odKey 0xA002 (r.val + 1) → fmGet? u.od i = fmGet? s.od i) ∧
        u.pow = { x with rails := fmSet x.rails r.val { y with lastCmd := s0.now } } ∧
        { u.bare s with od := s.od, pow := x } = s) ∧
    (y.heldSince ≠ none ∨ k.asserted = true ∨ s0.now < y.lastCmd + unitsPerMs → exec (.avsSetpointStep t r) r0 = .next s)) ∧
  (s.boot.live = true → x.lastAccrue + unitsPerSec ≤ s0.now → Does (.ageingAccrue t) r0 fun u =>
    u.pow.lastAccrue = s0.now ∧ { u.bare s with od := s.od, pow := x } = s ∧
    ∀ d, d < 32 → (u.dieHealth d).eqHours = (s.dieHealth d).eqHours + (
      if s.diePowered d = true ∧ s.odGet 0xA002 (dieRail d + 1) ≠ 0 then
        Config.ageingPerSecond (toSigned 32 (s.odGet 0xA020 (d + 1)))
          ((s.loadNv d (s.odGet 0xA003 (dieRail d + 1))).toNat / 1000)
      else 0)) ∧
  (s0.now < x.lastAccrue + unitsPerSec → exec (.ageingAccrue t) r0 = .next s) ∧
  (let busy := (List.range 4).any fun p => (s.part p).state == .armed || (s.part p).state == .running
   let offered := (∀ p, p < 4 → (s.part p).state = .empty)
   let slow := fun u : State => u.odGet 0xA010 0 = 2800 ∧ u.odGet 0xA011 0 = 0 ∧ u.odGet 0xB110 10 = s.odGet 0xB110 10 + 1 ∧
     u.pow.accepted = false ∧ u.pow.replanAsked = true ∧ { u.unsaid s with pow := x } = s
   (∀ q, s.refusal q 0xA012 0 true = none → s.mayAcceptClock q = true → s.odGet 0xA011 0 ≠ 0 →
     (busy = true → Does (.clockAccept t q 2800) r0 fun u => u.ans.status = stOk ∧
       u.pow = { x with accepted := true, slow := true } ∧ { u.bare s with pow := x } = s) ∧
     (offered → Does (.clockAccept t q 2800) r0 fun u => u.ans.status = stOk ∧ slow u) ∧
     (∀ v, v ≠ 2800 → Does (.clockAccept t q v) r0 fun u => u.ans.status = stRejected ∧ u.bare s = s)) ∧
   (x.accepted = false ∨ busy = true → exec (.clockChangeApply t) r0 = .next s) ∧
   (x.accepted = true → offered → Does (.clockChangeApply t) r0 slow))
/-- Each stage ends as its rule says, and a command of another stage changes nothing: PLL lock ends stage 2 and a failure drives
FAULT_N; stage 3 runs the first image, in order, that is accepted, with an event for each refused before it, and without one
stays for good with FAULT_N low; the steward's start makes the dictionary live; a missed 300 ms budget goes back to
stage 3 once, and the second time stays. Memory training zeroes every stack and puts the mapped ones online. Stage 7 ends
by its budget with STARTUP_UNLOCKED. Link training starts at PERST release from stage 8 on, reaches L0 at the width the lanes
allow, and is tried again with CXL_LINK_DOWN after 100 ms, not before; either way stage 8 ends. Rows PLL_LOCK, SEAL_BOOT,
STEWARD_START, STEWARD_START_TIMEOUT, DRAM_TRAINING, DIE_SELF_TEST, STARTUP_UNLOCKED, CXL_PERST_RELEASE, CXL_TRAINING. -/
def Obligations.StartUpStages : Prop :=
  ∀ (t : Nat) (r0 : State), let s := r0.arrive t;
  let s0 := s
  let b := s.boot
  (∀ ok, (b.stage ≠ 2 → exec (.pllLock t ok) r0 = .next s) ∧
    (b.stage = 2 → Does (.pllLock t ok) r0 fun u => if ok then
        u.boot = { b with stage := 3, times := fmSet b.times 2 s0.now } ∧ { u.bare s with boot := b } = s
      else u.pins = { s.pins with faultN := false } ∧ { u.bare s with pins := s.pins } = s)) ∧
  (∀ x y, let order := s.imageOrder x y true true
    (b.stage ≠ 3 ∨ b.stuck = true → ∀ a₁ a₂ f₁ f₂, exec (.sealBoot t x y a₁ a₂ f₁ f₂) r0 = .next s) ∧
    (b.stage = 3 → b.stuck = false → s.sec.disagreements < 3 → Does (.sealBoot t x y true true false false) r0 fun u =>
      match order.find? fun e => (s.imageOk e.2.1).isSome with
      | some (part, img, _) => u.boot.stage = 4 ∧ u.boot.source = part ∧ u.boot.seals = true ∧ u.boot.began4 = s0.now ∧
          u.sec.imageSvn = imageSvn img ∧ u.sec.life = s.sec.life ∧ u.sec.svn = s.sec.svn ∧ u.mem = s.mem ∧
          u.odGet 0xB111 5 = s.odGet 0xB111 5 + (order.takeWhile fun e => (s.imageOk e.2.1).isNone).length
      | none => u.boot = { b with stuck := true } ∧ u.pins.faultN = false ∧ u.sec = s.sec ∧ u.mem = s.mem ∧
          u.odGet 0xB111 5 = s.odGet 0xB111 5 + order.length)) ∧
  (b.stage ≠ 4 ∨ b.stuck = true → exec (.stewardStart t) r0 = .next s ∧ exec (.stewardStartTimeout t) r0 = .next s) ∧
  (b.stage = 4 → b.stuck = false →
    (Does (.stewardStart t) r0 fun u => u.boot = { b with live := true, stage := 5, times := fmSet b.times 4 s0.now } ∧
      u.odGet 0xB111 6 = s.odGet 0xB111 6 + (if b.fellBack then 1 else 0) ∧ u.mem = s.mem ∧ u.parts = s.parts) ∧
    (s0.now < b.began4 + 300 * unitsPerMs → exec (.stewardStartTimeout t) r0 = .next s) ∧
    (b.began4 + 300 * unitsPerMs ≤ s0.now → Does (.stewardStartTimeout t) r0 fun u => if b.fellBack then
        u.boot = { b with stuck := true } ∧ u.pins.faultN = false ∧ { u.bare s with boot := b, pins := s.pins } = s
      else u.boot = { b with fellBack := true, stage := 3, seals := false } ∧ u.sec = { s.sec with inBootRom := true } ∧
        { u.bare s with boot := b, sec := s.sec } = s)) ∧
  (b.stage ≠ 5 → ∀ bonds off, exec (.dramTraining t bonds off) r0 = .next s) ∧
  (b.stage = 5 → (∀ bonds off, Does (.dramTraining t bonds off) r0 fun u => u.boot.stage = 6 ∧ u.boot.live = b.live) ∧
    (Mem.wf s.mem = true → Does (.dramTraining t [] []) r0 fun u =>
      (∀ k, k < 2 ^ 41 → Mem.read u.mem k = 0) ∧ (∀ k, 2 ^ 41 ≤ k → Mem.read u.mem k = Mem.read s.mem k) ∧
      (∀ d, d < 22 → s.mapped d = true → (u.stackOf d).state = 2) ∧ u.od = s.od ∧ u.parts = s.parts ∧ u.cfg = s.cfg)) ∧
  (b.stage ≠ 6 ∨ b.warm = true → ∀ cols f, exec (.dieSelfTest t cols f) r0 = .next s) ∧
  (b.stage = 6 → b.warm = false → Does (.dieSelfTest t [] []) r0 fun u =>
    u.boot = { b with stage := 7, times := fmSet b.times 6 s0.now, began7 := s0.now } ∧
    u.odGet 0x4001 3 = b.microcode ∧ u.odGet 0x4001 4 = b.functions ∧ u.mem = s.mem ∧ u.parts = s.parts ∧
    ∀ n, n < 16 → s.portEnabled n = true → s.cfg.lost.contains (22 + n / 2) = false → (s.port n).state = .disabled →
      (u.port n).state = .training) ∧
  (b.stage ≠ 7 ∨ s0.now < b.began7 + s.stage7Budget → exec (.startupUnlocked t) r0 = .next s) ∧
  (b.stage = 7 → b.began7 + s.stage7Budget ≤ s0.now → Does (.startupUnlocked t) r0 fun u =>
    u.boot.stage = 8 ∧ u.odGet 0xB111 7 = s.odGet 0xB111 7 + 1 ∧ s.ObjectsKept u ∧
    u.cad = (if s.odGet 0x2001 1 = 0 ∧ s.cad.everLocked = false ∧ s.cad.freeRun = false then
      { s.cad with freeRun := true, tickStart := s0.now, tickLen := s.tickPeriod } else s.cad) ∧
    { u.unsaid s with boot := b, cad := s.cad } = s) ∧
  (Does (.cxlPerstRelease t) r0 fun u => { u.bare s with boot := b } = s ∧ u.boot = { b with
    perstAt := some s0.now
    cxlState := if 8 ≤ b.stage ∧ b.cxlState = 0 ∧ b.lanesLost ≠ 3 then 1 else b.cxlState
    cxlTried := if 8 ≤ b.stage ∧ b.cxlState = 0 ∧ b.lanesLost ≠ 3 then s0.now else b.cxlTried }) ∧
  (b.cxlState ≠ 1 → ∀ ok w r, exec (.cxlTraining t ok w r) r0 = .next s) ∧
  (b.cxlState = 1 →
    let ended := fun u : State => (b.stage = 8 → u.boot.stage = 9 ∧ u.boot.reached9 = true ∧ u.pow.replanAsked = true) ∧
      (b.stage ≠ 8 → u.boot.stage = b.stage ∧ u.pow = s.pow) ∧ { u.unsaid s with boot := b, pow := s.pow } = s
    (∀ w r, Does (.cxlTraining t true w r) r0 fun u => u.boot.cxlState = 2 ∧ u.boot.cxlRate = r % 256 ∧
      u.boot.cxlWidth = (if b.lanesLost = 0 then min 16 w else min 8 w) ∧
      u.odGet 0xB111 1 = s.odGet 0xB111 1 + (if b.cxlWidth ≠ 0 ∧ b.cxlWidth ≠ u.boot.cxlWidth then 1 else 0) ∧ ended u) ∧
    (∀ w r, s0.now < b.cxlTried + 100 * unitsPerMs → exec (.cxlTraining t false w r) r0 = .next s) ∧
    (∀ w r, b.cxlTried + 100 * unitsPerMs ≤ s0.now → Does (.cxlTraining t false w r) r0 fun u =>
      u.boot.cxlState = 1 ∧ u.boot.cxlTried = s0.now ∧ u.odGet 0xB111 2 = s.odGet 0xB111 2 + 1 ∧ ended u))

/-- A cold-reset request is answered and takes effect 10 ms later, not before; a rail fault and a low PKG_RESET_N of 10 µs or more
reset at once and hold the package until the pin's release, which samples the straps; a pulse below 1 µs does nothing. After
each, memory lists nothing, no session and no draft is there, the cause is recorded, and what fuses and flash keep stands.
A warm reset that is not refused empties every draft, zeroes the SRAM and runs stage 6 again; its completion returns to stage 9
with its cause and event. A WARM_RESET_N pulse below 10 µs does nothing. THERMTRIP_N goes low from stage 2 on. The loss of
the system clock halts every draft that is ARMED or RUNNING, that of a port clock takes its ports down, each with FAULT_N low.
Rows RESET_REQUEST_COLD, RESET_REQUEST_WARM, COLD_RESET_DELAY_EXPIRY, RAIL_OUT_OF_RANGE, PKG_RESET_ASSERT, PKG_RESET_RELEASE,
WARM_RESET_INPUT, WARM_RESET_COMPLETE, THERMTRIP, REFCLK_LOST. -/
def Obligations.ResetsAndPins : Prop :=
  ∀ (t : Nat) (r0 : State), let s := r0.arrive t;
  let s0 := s
  let b := s.boot
  let fresh := fun (u : State) (cause : Nat) => u.mem = [] ∧ u.parts = [] ∧ u.aoap.sessions = [] ∧ u.boot.live = false ∧
    u.boot.cause = cause ∧ u.cfg.lost = [] ∧ u.cfg.locked = false ∧ u.pending = s.pending ∧ u.pins.faultN = true ∧
    u.sec.life = s.sec.intent.getD s.sec.life ∧ u.sec.svn = s.sec.svn ∧ u.sec.seed = s.sec.seed ∧
    u.sec.ownerDigest = s.sec.ownerDigest ∧ u.sec.debugMask = 0 ∧ u.cad = {} ∧ u.cfg.serial = s.cfg.serial
  let warm := fun (u : State) (cause : Nat) => u.boot.stage = 6 ∧ u.boot.warm = true ∧ u.boot.warmCause = cause ∧
    u.boot.live = b.live ∧ (∀ p, p < 4 → (u.part p).state = .empty) ∧ u.flyers = [] ∧ u.stations = [] ∧ u.whorls = [] ∧
    u.twists = [] ∧ u.harts = [] ∧ u.coll.colls = [] ∧ u.sec.debugMask = 0 ∧ u.sec.life = s.sec.life ∧
    ∀ d o, d < 18 → o < 2 ^ 30 → Mem.read u.mem (sramKey d o) = 0
  let loaded := (∀ p, p < 4 → (s.part p).state = .empty ∨ (s.part p).draft.isSome = true) ∧ Mem.wf s.mem = true ∧
    ∀ e, e ∈ s.coll.colls → e.2.draft = false
  (∀ q, s.refusal q 0x1003 0 true = none →
    (Does (.resetRequestCold t q) r0 fun u => u.ans.status = stOk ∧
      u.boot = { b with coldAt := some (b.coldAt.getD (s0.now + 10 * unitsPerMs)) } ∧ { u.bare s with boot := b } = s) ∧
    (s.warmRefused = true → Does (.resetRequestWarm t q) r0 fun u => u.ans.status = stRejected ∧ u.bare s = s) ∧
    (s.warmRefused = false → loaded → Does (.resetRequestWarm t q) r0 fun u => u.ans.status = stOk ∧ warm u 5)) ∧
  (∀ a, b.coldAt = some a →
    (a ≤ s0.now → Does (.coldResetDelayExpiry t) r0 fun u => fresh u 4 ∧ u.boot.stage = 2 ∧ u.boot.released = s0.now ∧
      u.pins.straps = s.pins.straps) ∧
    (s0.now < a → exec (.coldResetDelayExpiry t) r0 = .next s)) ∧
  (Does (.railOutOfRange t) r0 fun u => fresh u 3 ∧ u.boot.stage = 1 ∧ u.boot.inReset = true) ∧
  (∀ ns, (ns < 1000 → exec (.pkgResetAssert t ns) r0 = .next s) ∧
    (10000 ≤ ns → Does (.pkgResetAssert t ns) r0 fun u => fresh u (if b.inReset then b.cause else 2) ∧ u.boot.stage = 1 ∧
      u.boot.inReset = true ∧ u.pins.thermtripN = true)) ∧
  (∀ straps : BitVec 4, (b.inReset = false → exec (.pkgResetRelease t straps) r0 = .next s) ∧
    (b.inReset = true → Does (.pkgResetRelease t straps) r0 fun u =>
      u.boot = { b with inReset := false, stage := 2, released := s0.now } ∧
      u.pins = { s.pins with straps := straps.toNat } ∧ { u.bare s with boot := b, pins := s.pins } = s)) ∧
  (∀ ns, (ns < 10000 ∨ b.reached9 = false ∨ b.warm = true → exec (.warmResetInput t ns) r0 = .next s) ∧
    (10000 ≤ ns → b.reached9 = true → b.warm = false →
      (s.sec.transition.isSome = true → Does (.warmResetInput t ns) r0 fun u =>
        u.boot = { b with warmWaits := true } ∧ { u.bare s with boot := b } = s) ∧
      (s.sec.transition = none → loaded → Does (.warmResetInput t ns) r0 fun u => warm u 6))) ∧
  (b.warm = false → ∀ cols f, exec (.warmResetComplete t cols f) r0 = .next s) ∧
  (b.warm = true → Does (.warmResetComplete t [] []) r0 fun u =>
    u.boot = { b with warm := false, stage := 9, cause := b.warmCause } ∧ u.odGet 0xB111 8 = s.odGet 0xB111 8 + 1 ∧
    u.mem = s.mem ∧ u.parts = s.parts) ∧
  (Does (.thermtrip t) r0 fun u => u.pins = { s.pins with thermtripN := s.pins.thermtripN && decide (b.stage < 2) } ∧
    { u.bare s with pins := s.pins } = s) ∧
  (b.stage ≤ 2 → Does (.refclkLost t .sys) r0 fun u =>
    u.pins = { s.pins with faultN := false } ∧ { u.bare s with pins := s.pins } = s) ∧
  (2 < b.stage → Does (.refclkLost t .sys) r0 fun u => u.pins = { s.pins with faultN := false, sysRefLost := true } ∧
    u.cad = { s.cad with dead := true } ∧ u.odGet 0xB112 1 = s.odGet 0xB112 1 + 1 ∧ u.mem = s.mem ∧
    (∀ p, p < 4 → (u.part p).state =
      if (s.part p).state = .armed ∨ (s.part p).state = .running then .halted else (s.part p).state) ∧
    (∀ e, e < 2 → u.odGet (0x1010 + e) 5 = if s.odGet (0x1010 + e) 5 = 2 then 2 else 0)) ∧
  (∀ n : Bool, Does (.refclkLost t (.sd n)) r0 fun u => u.pins = { s.pins with faultN := false } ∧
    (∀ i, i < 8 → (s.port (8 * b2n n + i)).state.usable = true ∨ (s.port (8 * b2n n + i)).state = .training →
      (u.port (8 * b2n n + i)).state = .down) ∧ u.odGet 0xB112 1 = s.odGet 0xB112 1 + 1 ∧ u.mem = s.mem) ∧
  (∀ n : Bool, Does (.refclkLost t (.cxl n)) r0 fun u => u.pins = { s.pins with faultN := false } ∧
    u.boot.lanesLost = setBit b.lanesLost (b2n n) true ∧ u.odGet 0xB112 1 = s.odGet 0xB112 1 + 1 ∧ u.mem = s.mem)
end

