-- ==== Sys2Proof/Laws/Mem.lean ====
section
/-! SUPPORT. Laws/Mem.lean: sparse maps and memory: what is read after a write, and that every memory operation keeps the
canonical form. -/

namespace Sys2Proof.Machine

/-! ### Sparse maps -/

@[simp] theorem fmGet?_fmSet_same {α : Type} (m : Fm α) (k : Nat) (a : α) : fmGet? (fmSet m k a) k = some a := by
  induction m with
  | nil => simp [fmSet, fmGet?]
  | cons e m ih =>
    obtain ⟨j, b⟩ := e
    simp only [fmSet]
    split
    · simp [fmGet?]
    · split
      · simp [fmGet?]
      · simp [fmGet?, *]

theorem fmGet?_fmSet_other {α : Type} (m : Fm α) (k j : Nat) (a : α) (h : j ≠ k) :
    fmGet? (fmSet m k a) j = fmGet? m j := by
  induction m with
  | nil => simp [fmSet, fmGet?, h]
  | cons e m ih =>
    obtain ⟨i, b⟩ := e
    simp only [fmSet]
    split
    · simp [fmGet?, h]
    · split
      · subst_vars
        simp [fmGet?, h]
      · simp [fmGet?, ih]

@[simp] theorem fmGet?_fmDel_same {α : Type} (m : Fm α) (k : Nat) : fmGet? (fmDel m k) k = none := by
  induction m with
  | nil => rfl
  | cons e m ih =>
    obtain ⟨j, b⟩ := e
    by_cases h : j = k
    · simpa [fmDel, List.filter_cons, h] using ih
    · have h' : ¬ k = j := fun x => h x.symm
      simpa [fmDel, List.filter_cons, h, fmGet?, h'] using ih

theorem fmGet?_fmDel_other {α : Type} (m : Fm α) (k j : Nat) (h : j ≠ k) : fmGet? (fmDel m k) j = fmGet? m j := by
  induction m with
  | nil => rfl
  | cons e m ih =>
    obtain ⟨i, b⟩ := e
    by_cases h' : i = k
    · subst h'
      simpa [fmDel, List.filter_cons, fmGet?, h] using ih
    · simp only [fmDel, List.filter_cons, bne_iff_ne, ne_eq, h', not_false_eq_true, if_true, fmGet?] at ih ⊢
      split
      · rfl
      · simpa using ih

@[simp] theorem fmGet_fmSet_same {α : Type} (m : Fm α) (k : Nat) (a d : α) : fmGet (fmSet m k a) k d = a := by
  simp [fmGet]

theorem fmGet_fmSet_other {α : Type} (m : Fm α) (k j : Nat) (a d : α) (h : j ≠ k) :
    fmGet (fmSet m k a) j d = fmGet m j d := by
  simp [fmGet, fmGet?_fmSet_other m k j a h]

/-- An object that is written reads as written. -/
@[simp] theorem State.odGet_odSet_same (s : State) (i j v : Nat) : (s.odSet i j v).odGet i j = v := by
  simp [State.odGet, State.odSet]

/-- Writing one object leaves the others. -/
theorem State.odGet_odSet_other (s : State) (i j v i' j' : Nat) (h : odKey i' j' ≠ odKey i j) :
    (s.odSet i j v).odGet i' j' = s.odGet i' j' := by
  simp [State.odGet, State.odSet, fmGet?_fmSet_other _ _ _ _ h]

/-! ### Reads after writes -/

theorem Mem.read_write_same (m : Mem) (k : Nat) (b : Byte) (h : m.wf = true) : (m.write k b).read k = b := by
  suffices ∀ lo, lo ≤ k → Mem.wfFrom lo m = true → (m.write k b).read k = b from this 0 (Nat.zero_le _) h
  clear h
  induction m with
  | nil =>
    intro lo _ _
    simp only [Mem.write]
    split
    · rename_i hb; simp [Mem.read, hb]
    · simp [Mem.read]
  | cons e m ih =>
    obtain ⟨j, c⟩ := e
    intro lo hlo hw
    simp only [Mem.wfFrom, Bool.and_eq_true, decide_eq_true_eq] at hw
    simp only [Mem.write]
    split
    · split
      · rename_i h1 hb
        simp only [Mem.read, if_neg (by omega : k ≠ j), if_pos h1, hb]
      · simp [Mem.read]
    · split
      · rename_i h1 h2
        subst h2
        split
        · rename_i hb
          rw [hb]
          cases m with
          | nil => rfl
          | cons e m =>
            obtain ⟨i, d⟩ := e
            have := hw.2
            simp only [Mem.wfFrom, Bool.and_eq_true, decide_eq_true_eq] at this
            simp only [Mem.read, if_neg (by omega : k ≠ i), if_pos (by omega : k < i)]
        · simp [Mem.read]
      · rename_i h1 h2
        simp only [Mem.read, if_neg h2, if_neg h1]
        exact ih (j + 1) (by omega) hw.2

theorem Mem.read_below (m : Mem) (lo k : Nat) (hw : Mem.wfFrom lo m = true) (hk : k < lo) : m.read k = memDefault k := by
  cases m with
  | nil => rfl
  | cons e m =>
    obtain ⟨i, d⟩ := e
    simp only [Mem.wfFrom, Bool.and_eq_true, decide_eq_true_eq] at hw
    simp only [Mem.read, if_neg (by omega : k ≠ i), if_pos (by omega : k < i)]

theorem Mem.read_write_other (m : Mem) (k j : Nat) (b : Byte) (hw : m.wf = true) (h : j ≠ k) :
    (m.write k b).read j = m.read j := by
  suffices ∀ lo, Mem.wfFrom lo m = true → (m.write k b).read j = m.read j from this 0 hw
  clear hw
  induction m with
  | nil =>
    intro lo _
    simp only [Mem.write]
    split
    · rfl
    · simp [Mem.read, h]
  | cons e m ih =>
    obtain ⟨i, c⟩ := e
    intro lo hw
    simp only [Mem.wfFrom, Bool.and_eq_true, decide_eq_true_eq] at hw
    simp only [Mem.write]
    split
    · split
      · rfl
      · by_cases hj : j < k
        · simp only [Mem.read, if_neg h, if_pos hj, if_neg (by omega : j ≠ i), if_pos (by omega : j < i)]
        · simp only [Mem.read, if_neg h, if_neg hj]
    · split
      · rename_i h2
        subst h2
        have hb := Mem.read_below m (k + 1) j hw.2
        by_cases hj : j < k
        · split
          · simp only [Mem.read, if_neg h, if_pos hj]
            exact hb (by omega)
          · simp only [Mem.read, if_neg h, if_pos hj]
        · split
          · simp only [Mem.read, if_neg h, if_neg hj]
          · simp only [Mem.read, if_neg h, if_neg hj]
      · simp only [Mem.read, ih (i + 1) hw.2]

/-! ### The canonical form is kept -/

theorem Mem.wfFrom_mono (m : Mem) (lo lo' : Nat) (h : lo' ≤ lo) (hw : Mem.wfFrom lo m = true) :
    Mem.wfFrom lo' m = true := by
  cases m with
  | nil => rfl
  | cons e m =>
    obtain ⟨i, d⟩ := e
    simp only [Mem.wfFrom, Bool.and_eq_true, decide_eq_true_eq] at hw ⊢
    exact ⟨⟨by omega, hw.1.2⟩, hw.2⟩

theorem Mem.write_wfFrom (m : Mem) (lo k : Nat) (b : Byte) (h : lo ≤ k) (hw : Mem.wfFrom lo m = true) :
    Mem.wfFrom lo (m.write k b) = true := by
  induction m generalizing lo with
  | nil =>
    simp only [Mem.write]
    split
    · rfl
    · rename_i hb
      simp [Mem.wfFrom, h, hb]
  | cons e m ih =>
    obtain ⟨i, c⟩ := e
    have hw' := hw
    simp only [Mem.wfFrom, Bool.and_eq_true, decide_eq_true_eq] at hw
    simp only [Mem.write]
    split
    · split
      · exact hw'
      · rename_i h1 hb
        simp only [Mem.wfFrom, Bool.and_eq_true, decide_eq_true_eq]
        exact ⟨⟨h, hb⟩, ⟨by omega, hw.1.2⟩, hw.2⟩
    · split
      · rename_i h1 h2
        subst h2
        split
        · exact Mem.wfFrom_mono m _ _ (by omega) hw.2
        · rename_i hb
          simp only [Mem.wfFrom, Bool.and_eq_true, decide_eq_true_eq]
          exact ⟨⟨h, hb⟩, hw.2⟩
      · rename_i h1 h2
        simp only [Mem.wfFrom, Bool.and_eq_true, decide_eq_true_eq]
        exact ⟨hw.1, ih (i + 1) (by omega) hw.2⟩

theorem Mem.write_wf (m : Mem) (k : Nat) (b : Byte) (h : m.wf = true) : (m.write k b).wf = true :=
  Mem.write_wfFrom m 0 k b (Nat.zero_le k) h

theorem Mem.writeN_wf (m : Mem) (k : Nat) (l : List Byte) (h : m.wf = true) : (m.writeN k l).wf = true := by
  induction l generalizing m k with
  | nil => exact h
  | cons b l ih => exact ih _ _ (Mem.write_wf m k b h)

theorem Mem.apply_wf (m : Mem) (l : List Host.Cell) (h : m.wf = true) : (m.apply l).wf = true := by
  induction l generalizing m with
  | nil => exact h
  | cons c l ih => exact ih _ (Mem.write_wf m c.1 c.2 h)

theorem Mem.filter_wfFrom (m : Mem) (f : Host.Cell → Bool) (lo : Nat) (h : Mem.wfFrom lo m = true) :
    Mem.wfFrom lo (m.filter f) = true := by
  induction m generalizing lo with
  | nil => rfl
  | cons e m ih =>
    obtain ⟨i, c⟩ := e
    simp only [Mem.wfFrom, Bool.and_eq_true, decide_eq_true_eq] at h
    by_cases hf : f (i, c) = true
    · rw [List.filter_cons_of_pos hf]
      simp only [Mem.wfFrom, Bool.and_eq_true, decide_eq_true_eq]
      exact ⟨h.1, ih (i + 1) h.2⟩
    · rw [List.filter_cons_of_neg hf]
      exact Mem.wfFrom_mono _ _ _ (by omega) (ih (i + 1) h.2)

theorem Mem.clear_wf (m : Mem) (lo n : Nat) (h : m.wf = true) : (m.clear lo n).wf = true :=
  Mem.filter_wfFrom m _ 0 h

theorem Mem.copy_wf (m : Mem) (src dst n : Nat) (h : m.wf = true) : (m.copy src dst n).wf = true :=
  Mem.apply_wf _ _ (Mem.clear_wf m dst n h)

/-! ### Reads after writes of several bytes -/

theorem Mem.read_writeN_outside (m : Mem) (k j : Nat) (l : List Byte) (hw : m.wf = true)
    (h : j < k ∨ k + l.length ≤ j) : (m.writeN k l).read j = m.read j := by
  induction l generalizing m k with
  | nil => rfl
  | cons b l ih =>
    simp only [List.length_cons] at h
    simp only [Mem.writeN]
    rw [ih _ _ (Mem.write_wf m k b hw) (by omega), Mem.read_write_other m k j b hw (by omega)]

theorem Mem.readN_writeN (m : Mem) (k : Nat) (l : List Byte) (hw : m.wf = true) :
    (m.writeN k l).readN k l.length = l := by
  induction l generalizing m k with
  | nil => rfl
  | cons b l ih =>
    have hw' := Mem.write_wf m k b hw
    simp only [Mem.writeN, List.length_cons, Mem.readN]
    rw [ih _ _ hw', Mem.read_writeN_outside _ _ _ _ hw' (by omega), Mem.read_write_same m k b hw]

end Sys2Proof.Machine
end

