-- ==== Sys2Proof/Laws/State.lean ====
section
/-! SUPPORT. Laws/State.lean: what each plain update of the state leaves alone, field by field. -/

namespace Sys2Proof.Machine

/-! ### begin -/

@[simp] theorem State.begin_pending (s : State) (t : Nat) : (s.begin t).pending = s.pending := rfl
@[simp] theorem State.begin_freeCtr (s : State) (t : Nat) : (s.begin t).freeCtr = s.freeCtr := rfl
@[simp] theorem State.begin_cfg (s : State) (t : Nat) : (s.begin t).cfg = s.cfg := rfl
@[simp] theorem State.begin_od (s : State) (t : Nat) : (s.begin t).od = s.od := rfl
@[simp] theorem State.begin_cad (s : State) (t : Nat) : (s.begin t).cad = s.cad := rfl
@[simp] theorem State.begin_parts (s : State) (t : Nat) : (s.begin t).parts = s.parts := rfl
@[simp] theorem State.begin_flyers (s : State) (t : Nat) : (s.begin t).flyers = s.flyers := rfl
@[simp] theorem State.begin_stations (s : State) (t : Nat) : (s.begin t).stations = s.stations := rfl
@[simp] theorem State.begin_wire (s : State) (t : Nat) : (s.begin t).wire = s.wire := rfl
@[simp] theorem State.begin_stats (s : State) (t : Nat) : (s.begin t).stats = s.stats := rfl
@[simp] theorem State.begin_whorls (s : State) (t : Nat) : (s.begin t).whorls = s.whorls := rfl
@[simp] theorem State.begin_twists (s : State) (t : Nat) : (s.begin t).twists = s.twists := rfl
@[simp] theorem State.begin_harts (s : State) (t : Nat) : (s.begin t).harts = s.harts := rfl
@[simp] theorem State.begin_mem (s : State) (t : Nat) : (s.begin t).mem = s.mem := rfl
@[simp] theorem State.begin_lines (s : State) (t : Nat) : (s.begin t).lines = s.lines := rfl
@[simp] theorem State.begin_sramErr (s : State) (t : Nat) : (s.begin t).sramErr = s.sramErr := rfl
@[simp] theorem State.begin_channels (s : State) (t : Nat) : (s.begin t).channels = s.channels := rfl
@[simp] theorem State.begin_stackSt (s : State) (t : Nat) : (s.begin t).stackSt = s.stackSt := rfl
@[simp] theorem State.begin_banks (s : State) (t : Nat) : (s.begin t).banks = s.banks := rfl
@[simp] theorem State.begin_gens (s : State) (t : Nat) : (s.begin t).gens = s.gens := rfl
@[simp] theorem State.begin_ports (s : State) (t : Nat) : (s.begin t).ports = s.ports := rfl
@[simp] theorem State.begin_fab (s : State) (t : Nat) : (s.begin t).fab = s.fab := rfl
@[simp] theorem State.begin_coll (s : State) (t : Nat) : (s.begin t).coll = s.coll := rfl
@[simp] theorem State.begin_arb (s : State) (t : Nat) : (s.begin t).arb = s.arb := rfl
@[simp] theorem State.begin_entryWaits (s : State) (t : Nat) : (s.begin t).entryWaits = s.entryWaits := rfl
@[simp] theorem State.begin_w1cAt (s : State) (t : Nat) : (s.begin t).w1cAt = s.w1cAt := rfl
@[simp] theorem State.begin_reels (s : State) (t : Nat) : (s.begin t).reels = s.reels := rfl
@[simp] theorem State.begin_logs (s : State) (t : Nat) : (s.begin t).logs = s.logs := rfl
@[simp] theorem State.begin_res (s : State) (t : Nat) : (s.begin t).res = s.res := rfl
@[simp] theorem State.begin_sec (s : State) (t : Nat) : (s.begin t).sec = s.sec := rfl
@[simp] theorem State.begin_aoap (s : State) (t : Nat) : (s.begin t).aoap = s.aoap := rfl
@[simp] theorem State.begin_pow (s : State) (t : Nat) : (s.begin t).pow = s.pow := rfl
@[simp] theorem State.begin_host (s : State) (t : Nat) : (s.begin t).host = s.host := rfl
@[simp] theorem State.begin_boot (s : State) (t : Nat) : (s.begin t).boot = s.boot := rfl
@[simp] theorem State.begin_pins (s : State) (t : Nat) : (s.begin t).pins = s.pins := rfl

/-! ### send -/

@[simp] theorem State.send_pending (s : State) (m : Msg) : (s.send m).pending = s.pending := rfl
@[simp] theorem State.send_now (s : State) (m : Msg) : (s.send m).now = s.now := rfl
@[simp] theorem State.send_freeCtr (s : State) (m : Msg) : (s.send m).freeCtr = s.freeCtr := rfl
@[simp] theorem State.send_ans (s : State) (m : Msg) : (s.send m).ans = s.ans := rfl
@[simp] theorem State.send_cfg (s : State) (m : Msg) : (s.send m).cfg = s.cfg := rfl
@[simp] theorem State.send_od (s : State) (m : Msg) : (s.send m).od = s.od := rfl
@[simp] theorem State.send_cad (s : State) (m : Msg) : (s.send m).cad = s.cad := rfl
@[simp] theorem State.send_parts (s : State) (m : Msg) : (s.send m).parts = s.parts := rfl
@[simp] theorem State.send_flyers (s : State) (m : Msg) : (s.send m).flyers = s.flyers := rfl
@[simp] theorem State.send_stations (s : State) (m : Msg) : (s.send m).stations = s.stations := rfl
@[simp] theorem State.send_wire (s : State) (m : Msg) : (s.send m).wire = s.wire := rfl
@[simp] theorem State.send_stats (s : State) (m : Msg) : (s.send m).stats = s.stats := rfl
@[simp] theorem State.send_whorls (s : State) (m : Msg) : (s.send m).whorls = s.whorls := rfl
@[simp] theorem State.send_twists (s : State) (m : Msg) : (s.send m).twists = s.twists := rfl
@[simp] theorem State.send_harts (s : State) (m : Msg) : (s.send m).harts = s.harts := rfl
@[simp] theorem State.send_mem (s : State) (m : Msg) : (s.send m).mem = s.mem := rfl
@[simp] theorem State.send_lines (s : State) (m : Msg) : (s.send m).lines = s.lines := rfl
@[simp] theorem State.send_sramErr (s : State) (m : Msg) : (s.send m).sramErr = s.sramErr := rfl
@[simp] theorem State.send_channels (s : State) (m : Msg) : (s.send m).channels = s.channels := rfl
@[simp] theorem State.send_stackSt (s : State) (m : Msg) : (s.send m).stackSt = s.stackSt := rfl
@[simp] theorem State.send_banks (s : State) (m : Msg) : (s.send m).banks = s.banks := rfl
@[simp] theorem State.send_gens (s : State) (m : Msg) : (s.send m).gens = s.gens := rfl
@[simp] theorem State.send_ports (s : State) (m : Msg) : (s.send m).ports = s.ports := rfl
@[simp] theorem State.send_fab (s : State) (m : Msg) : (s.send m).fab = s.fab := rfl
@[simp] theorem State.send_coll (s : State) (m : Msg) : (s.send m).coll = s.coll := rfl
@[simp] theorem State.send_arb (s : State) (m : Msg) : (s.send m).arb = s.arb := rfl
@[simp] theorem State.send_entryWaits (s : State) (m : Msg) : (s.send m).entryWaits = s.entryWaits := rfl
@[simp] theorem State.send_w1cAt (s : State) (m : Msg) : (s.send m).w1cAt = s.w1cAt := rfl
@[simp] theorem State.send_reels (s : State) (m : Msg) : (s.send m).reels = s.reels := rfl
@[simp] theorem State.send_logs (s : State) (m : Msg) : (s.send m).logs = s.logs := rfl
@[simp] theorem State.send_res (s : State) (m : Msg) : (s.send m).res = s.res := rfl
@[simp] theorem State.send_sec (s : State) (m : Msg) : (s.send m).sec = s.sec := rfl
@[simp] theorem State.send_aoap (s : State) (m : Msg) : (s.send m).aoap = s.aoap := rfl
@[simp] theorem State.send_pow (s : State) (m : Msg) : (s.send m).pow = s.pow := rfl
@[simp] theorem State.send_host (s : State) (m : Msg) : (s.send m).host = s.host := rfl
@[simp] theorem State.send_boot (s : State) (m : Msg) : (s.send m).boot = s.boot := rfl
@[simp] theorem State.send_pins (s : State) (m : Msg) : (s.send m).pins = s.pins := rfl

/-! ### answer -/

@[simp] theorem State.answer_pending (s : State) (st : Nat) (d : List Byte) : (s.answer st d).pending = s.pending := rfl
@[simp] theorem State.answer_now (s : State) (st : Nat) (d : List Byte) : (s.answer st d).now = s.now := rfl
@[simp] theorem State.answer_freeCtr (s : State) (st : Nat) (d : List Byte) : (s.answer st d).freeCtr = s.freeCtr := rfl
@[simp] theorem State.answer_out (s : State) (st : Nat) (d : List Byte) : (s.answer st d).out = s.out := rfl
@[simp] theorem State.answer_cfg (s : State) (st : Nat) (d : List Byte) : (s.answer st d).cfg = s.cfg := rfl
@[simp] theorem State.answer_od (s : State) (st : Nat) (d : List Byte) : (s.answer st d).od = s.od := rfl
@[simp] theorem State.answer_cad (s : State) (st : Nat) (d : List Byte) : (s.answer st d).cad = s.cad := rfl
@[simp] theorem State.answer_parts (s : State) (st : Nat) (d : List Byte) : (s.answer st d).parts = s.parts := rfl
@[simp] theorem State.answer_flyers (s : State) (st : Nat) (d : List Byte) : (s.answer st d).flyers = s.flyers := rfl
@[simp] theorem State.answer_stations (s : State) (st : Nat) (d : List Byte) : (s.answer st d).stations = s.stations := rfl
@[simp] theorem State.answer_wire (s : State) (st : Nat) (d : List Byte) : (s.answer st d).wire = s.wire := rfl
@[simp] theorem State.answer_stats (s : State) (st : Nat) (d : List Byte) : (s.answer st d).stats = s.stats := rfl
@[simp] theorem State.answer_whorls (s : State) (st : Nat) (d : List Byte) : (s.answer st d).whorls = s.whorls := rfl
@[simp] theorem State.answer_twists (s : State) (st : Nat) (d : List Byte) : (s.answer st d).twists = s.twists := rfl
@[simp] theorem State.answer_harts (s : State) (st : Nat) (d : List Byte) : (s.answer st d).harts = s.harts := rfl
@[simp] theorem State.answer_mem (s : State) (st : Nat) (d : List Byte) : (s.answer st d).mem = s.mem := rfl
@[simp] theorem State.answer_lines (s : State) (st : Nat) (d : List Byte) : (s.answer st d).lines = s.lines := rfl
@[simp] theorem State.answer_sramErr (s : State) (st : Nat) (d : List Byte) : (s.answer st d).sramErr = s.sramErr := rfl
@[simp] theorem State.answer_channels (s : State) (st : Nat) (d : List Byte) : (s.answer st d).channels = s.channels := rfl
@[simp] theorem State.answer_stackSt (s : State) (st : Nat) (d : List Byte) : (s.answer st d).stackSt = s.stackSt := rfl
@[simp] theorem State.answer_banks (s : State) (st : Nat) (d : List Byte) : (s.answer st d).banks = s.banks := rfl
@[simp] theorem State.answer_gens (s : State) (st : Nat) (d : List Byte) : (s.answer st d).gens = s.gens := rfl
@[simp] theorem State.answer_ports (s : State) (st : Nat) (d : List Byte) : (s.answer st d).ports = s.ports := rfl
@[simp] theorem State.answer_fab (s : State) (st : Nat) (d : List Byte) : (s.answer st d).fab = s.fab := rfl
@[simp] theorem State.answer_coll (s : State) (st : Nat) (d : List Byte) : (s.answer st d).coll = s.coll := rfl
@[simp] theorem State.answer_arb (s : State) (st : Nat) (d : List Byte) : (s.answer st d).arb = s.arb := rfl
@[simp] theorem State.answer_entryWaits (s : State) (st : Nat) (d : List Byte) : (s.answer st d).entryWaits = s.entryWaits := rfl
@[simp] theorem State.answer_w1cAt (s : State) (st : Nat) (d : List Byte) : (s.answer st d).w1cAt = s.w1cAt := rfl
@[simp] theorem State.answer_reels (s : State) (st : Nat) (d : List Byte) : (s.answer st d).reels = s.reels := rfl
@[simp] theorem State.answer_logs (s : State) (st : Nat) (d : List Byte) : (s.answer st d).logs = s.logs := rfl
@[simp] theorem State.answer_res (s : State) (st : Nat) (d : List Byte) : (s.answer st d).res = s.res := rfl
@[simp] theorem State.answer_sec (s : State) (st : Nat) (d : List Byte) : (s.answer st d).sec = s.sec := rfl
@[simp] theorem State.answer_aoap (s : State) (st : Nat) (d : List Byte) : (s.answer st d).aoap = s.aoap := rfl
@[simp] theorem State.answer_pow (s : State) (st : Nat) (d : List Byte) : (s.answer st d).pow = s.pow := rfl
@[simp] theorem State.answer_host (s : State) (st : Nat) (d : List Byte) : (s.answer st d).host = s.host := rfl
@[simp] theorem State.answer_boot (s : State) (st : Nat) (d : List Byte) : (s.answer st d).boot = s.boot := rfl
@[simp] theorem State.answer_pins (s : State) (st : Nat) (d : List Byte) : (s.answer st d).pins = s.pins := rfl

/-! ### setPart -/

@[simp] theorem State.setPart_pending (s : State) (p : Nat) (x : Part) : (s.setPart p x).pending = s.pending := rfl
@[simp] theorem State.setPart_now (s : State) (p : Nat) (x : Part) : (s.setPart p x).now = s.now := rfl
@[simp] theorem State.setPart_freeCtr (s : State) (p : Nat) (x : Part) : (s.setPart p x).freeCtr = s.freeCtr := rfl
@[simp] theorem State.setPart_ans (s : State) (p : Nat) (x : Part) : (s.setPart p x).ans = s.ans := rfl
@[simp] theorem State.setPart_out (s : State) (p : Nat) (x : Part) : (s.setPart p x).out = s.out := rfl
@[simp] theorem State.setPart_cfg (s : State) (p : Nat) (x : Part) : (s.setPart p x).cfg = s.cfg := rfl
@[simp] theorem State.setPart_od (s : State) (p : Nat) (x : Part) : (s.setPart p x).od = s.od := rfl
@[simp] theorem State.setPart_cad (s : State) (p : Nat) (x : Part) : (s.setPart p x).cad = s.cad := rfl
@[simp] theorem State.setPart_flyers (s : State) (p : Nat) (x : Part) : (s.setPart p x).flyers = s.flyers := rfl
@[simp] theorem State.setPart_stations (s : State) (p : Nat) (x : Part) : (s.setPart p x).stations = s.stations := rfl
@[simp] theorem State.setPart_wire (s : State) (p : Nat) (x : Part) : (s.setPart p x).wire = s.wire := rfl
@[simp] theorem State.setPart_stats (s : State) (p : Nat) (x : Part) : (s.setPart p x).stats = s.stats := rfl
@[simp] theorem State.setPart_whorls (s : State) (p : Nat) (x : Part) : (s.setPart p x).whorls = s.whorls := rfl
@[simp] theorem State.setPart_twists (s : State) (p : Nat) (x : Part) : (s.setPart p x).twists = s.twists := rfl
@[simp] theorem State.setPart_harts (s : State) (p : Nat) (x : Part) : (s.setPart p x).harts = s.harts := rfl
@[simp] theorem State.setPart_mem (s : State) (p : Nat) (x : Part) : (s.setPart p x).mem = s.mem := rfl
@[simp] theorem State.setPart_lines (s : State) (p : Nat) (x : Part) : (s.setPart p x).lines = s.lines := rfl
@[simp] theorem State.setPart_sramErr (s : State) (p : Nat) (x : Part) : (s.setPart p x).sramErr = s.sramErr := rfl
@[simp] theorem State.setPart_channels (s : State) (p : Nat) (x : Part) : (s.setPart p x).channels = s.channels := rfl
@[simp] theorem State.setPart_stackSt (s : State) (p : Nat) (x : Part) : (s.setPart p x).stackSt = s.stackSt := rfl
@[simp] theorem State.setPart_banks (s : State) (p : Nat) (x : Part) : (s.setPart p x).banks = s.banks := rfl
@[simp] theorem State.setPart_gens (s : State) (p : Nat) (x : Part) : (s.setPart p x).gens = s.gens := rfl
@[simp] theorem State.setPart_ports (s : State) (p : Nat) (x : Part) : (s.setPart p x).ports = s.ports := rfl
@[simp] theorem State.setPart_fab (s : State) (p : Nat) (x : Part) : (s.setPart p x).fab = s.fab := rfl
@[simp] theorem State.setPart_coll (s : State) (p : Nat) (x : Part) : (s.setPart p x).coll = s.coll := rfl
@[simp] theorem State.setPart_arb (s : State) (p : Nat) (x : Part) : (s.setPart p x).arb = s.arb := rfl
@[simp] theorem State.setPart_entryWaits (s : State) (p : Nat) (x : Part) : (s.setPart p x).entryWaits = s.entryWaits := rfl
@[simp] theorem State.setPart_w1cAt (s : State) (p : Nat) (x : Part) : (s.setPart p x).w1cAt = s.w1cAt := rfl
@[simp] theorem State.setPart_reels (s : State) (p : Nat) (x : Part) : (s.setPart p x).reels = s.reels := rfl
@[simp] theorem State.setPart_logs (s : State) (p : Nat) (x : Part) : (s.setPart p x).logs = s.logs := rfl
@[simp] theorem State.setPart_res (s : State) (p : Nat) (x : Part) : (s.setPart p x).res = s.res := rfl
@[simp] theorem State.setPart_sec (s : State) (p : Nat) (x : Part) : (s.setPart p x).sec = s.sec := rfl
@[simp] theorem State.setPart_aoap (s : State) (p : Nat) (x : Part) : (s.setPart p x).aoap = s.aoap := rfl
@[simp] theorem State.setPart_pow (s : State) (p : Nat) (x : Part) : (s.setPart p x).pow = s.pow := rfl
@[simp] theorem State.setPart_host (s : State) (p : Nat) (x : Part) : (s.setPart p x).host = s.host := rfl
@[simp] theorem State.setPart_boot (s : State) (p : Nat) (x : Part) : (s.setPart p x).boot = s.boot := rfl
@[simp] theorem State.setPart_pins (s : State) (p : Nat) (x : Part) : (s.setPart p x).pins = s.pins := rfl

/-! ### setFlyer -/

@[simp] theorem State.setFlyer_pending (s : State) (n : Nat) (x : Flyer) : (s.setFlyer n x).pending = s.pending := rfl
@[simp] theorem State.setFlyer_now (s : State) (n : Nat) (x : Flyer) : (s.setFlyer n x).now = s.now := rfl
@[simp] theorem State.setFlyer_freeCtr (s : State) (n : Nat) (x : Flyer) : (s.setFlyer n x).freeCtr = s.freeCtr := rfl
@[simp] theorem State.setFlyer_ans (s : State) (n : Nat) (x : Flyer) : (s.setFlyer n x).ans = s.ans := rfl
@[simp] theorem State.setFlyer_out (s : State) (n : Nat) (x : Flyer) : (s.setFlyer n x).out = s.out := rfl
@[simp] theorem State.setFlyer_cfg (s : State) (n : Nat) (x : Flyer) : (s.setFlyer n x).cfg = s.cfg := rfl
@[simp] theorem State.setFlyer_od (s : State) (n : Nat) (x : Flyer) : (s.setFlyer n x).od = s.od := rfl
@[simp] theorem State.setFlyer_cad (s : State) (n : Nat) (x : Flyer) : (s.setFlyer n x).cad = s.cad := rfl
@[simp] theorem State.setFlyer_parts (s : State) (n : Nat) (x : Flyer) : (s.setFlyer n x).parts = s.parts := rfl
@[simp] theorem State.setFlyer_stations (s : State) (n : Nat) (x : Flyer) : (s.setFlyer n x).stations = s.stations := rfl
@[simp] theorem State.setFlyer_wire (s : State) (n : Nat) (x : Flyer) : (s.setFlyer n x).wire = s.wire := rfl
@[simp] theorem State.setFlyer_stats (s : State) (n : Nat) (x : Flyer) : (s.setFlyer n x).stats = s.stats := rfl
@[simp] theorem State.setFlyer_whorls (s : State) (n : Nat) (x : Flyer) : (s.setFlyer n x).whorls = s.whorls := rfl
@[simp] theorem State.setFlyer_twists (s : State) (n : Nat) (x : Flyer) : (s.setFlyer n x).twists = s.twists := rfl
@[simp] theorem State.setFlyer_harts (s : State) (n : Nat) (x : Flyer) : (s.setFlyer n x).harts = s.harts := rfl
@[simp] theorem State.setFlyer_mem (s : State) (n : Nat) (x : Flyer) : (s.setFlyer n x).mem = s.mem := rfl
@[simp] theorem State.setFlyer_lines (s : State) (n : Nat) (x : Flyer) : (s.setFlyer n x).lines = s.lines := rfl
@[simp] theorem State.setFlyer_sramErr (s : State) (n : Nat) (x : Flyer) : (s.setFlyer n x).sramErr = s.sramErr := rfl
@[simp] theorem State.setFlyer_channels (s : State) (n : Nat) (x : Flyer) : (s.setFlyer n x).channels = s.channels := rfl
@[simp] theorem State.setFlyer_stackSt (s : State) (n : Nat) (x : Flyer) : (s.setFlyer n x).stackSt = s.stackSt := rfl
@[simp] theorem State.setFlyer_banks (s : State) (n : Nat) (x : Flyer) : (s.setFlyer n x).banks = s.banks := rfl
@[simp] theorem State.setFlyer_gens (s : State) (n : Nat) (x : Flyer) : (s.setFlyer n x).gens = s.gens := rfl
@[simp] theorem State.setFlyer_ports (s : State) (n : Nat) (x : Flyer) : (s.setFlyer n x).ports = s.ports := rfl
@[simp] theorem State.setFlyer_fab (s : State) (n : Nat) (x : Flyer) : (s.setFlyer n x).fab = s.fab := rfl
@[simp] theorem State.setFlyer_coll (s : State) (n : Nat) (x : Flyer) : (s.setFlyer n x).coll = s.coll := rfl
@[simp] theorem State.setFlyer_arb (s : State) (n : Nat) (x : Flyer) : (s.setFlyer n x).arb = s.arb := rfl
@[simp] theorem State.setFlyer_entryWaits (s : State) (n : Nat) (x : Flyer) : (s.setFlyer n x).entryWaits = s.entryWaits := rfl
@[simp] theorem State.setFlyer_w1cAt (s : State) (n : Nat) (x : Flyer) : (s.setFlyer n x).w1cAt = s.w1cAt := rfl
@[simp] theorem State.setFlyer_reels (s : State) (n : Nat) (x : Flyer) : (s.setFlyer n x).reels = s.reels := rfl
@[simp] theorem State.setFlyer_logs (s : State) (n : Nat) (x : Flyer) : (s.setFlyer n x).logs = s.logs := rfl
@[simp] theorem State.setFlyer_res (s : State) (n : Nat) (x : Flyer) : (s.setFlyer n x).res = s.res := rfl
@[simp] theorem State.setFlyer_sec (s : State) (n : Nat) (x : Flyer) : (s.setFlyer n x).sec = s.sec := rfl
@[simp] theorem State.setFlyer_aoap (s : State) (n : Nat) (x : Flyer) : (s.setFlyer n x).aoap = s.aoap := rfl
@[simp] theorem State.setFlyer_pow (s : State) (n : Nat) (x : Flyer) : (s.setFlyer n x).pow = s.pow := rfl
@[simp] theorem State.setFlyer_host (s : State) (n : Nat) (x : Flyer) : (s.setFlyer n x).host = s.host := rfl
@[simp] theorem State.setFlyer_boot (s : State) (n : Nat) (x : Flyer) : (s.setFlyer n x).boot = s.boot := rfl
@[simp] theorem State.setFlyer_pins (s : State) (n : Nat) (x : Flyer) : (s.setFlyer n x).pins = s.pins := rfl

/-! ### setHart -/

@[simp] theorem State.setHart_pending (s : State) (h : Nat) (x : Hart) : (s.setHart h x).pending = s.pending := rfl
@[simp] theorem State.setHart_now (s : State) (h : Nat) (x : Hart) : (s.setHart h x).now = s.now := rfl
@[simp] theorem State.setHart_freeCtr (s : State) (h : Nat) (x : Hart) : (s.setHart h x).freeCtr = s.freeCtr := rfl
@[simp] theorem State.setHart_ans (s : State) (h : Nat) (x : Hart) : (s.setHart h x).ans = s.ans := rfl
@[simp] theorem State.setHart_out (s : State) (h : Nat) (x : Hart) : (s.setHart h x).out = s.out := rfl
@[simp] theorem State.setHart_cfg (s : State) (h : Nat) (x : Hart) : (s.setHart h x).cfg = s.cfg := rfl
@[simp] theorem State.setHart_od (s : State) (h : Nat) (x : Hart) : (s.setHart h x).od = s.od := rfl
@[simp] theorem State.setHart_cad (s : State) (h : Nat) (x : Hart) : (s.setHart h x).cad = s.cad := rfl
@[simp] theorem State.setHart_parts (s : State) (h : Nat) (x : Hart) : (s.setHart h x).parts = s.parts := rfl
@[simp] theorem State.setHart_flyers (s : State) (h : Nat) (x : Hart) : (s.setHart h x).flyers = s.flyers := rfl
@[simp] theorem State.setHart_stations (s : State) (h : Nat) (x : Hart) : (s.setHart h x).stations = s.stations := rfl
@[simp] theorem State.setHart_wire (s : State) (h : Nat) (x : Hart) : (s.setHart h x).wire = s.wire := rfl
@[simp] theorem State.setHart_stats (s : State) (h : Nat) (x : Hart) : (s.setHart h x).stats = s.stats := rfl
@[simp] theorem State.setHart_whorls (s : State) (h : Nat) (x : Hart) : (s.setHart h x).whorls = s.whorls := rfl
@[simp] theorem State.setHart_twists (s : State) (h : Nat) (x : Hart) : (s.setHart h x).twists = s.twists := rfl
@[simp] theorem State.setHart_mem (s : State) (h : Nat) (x : Hart) : (s.setHart h x).mem = s.mem := rfl
@[simp] theorem State.setHart_lines (s : State) (h : Nat) (x : Hart) : (s.setHart h x).lines = s.lines := rfl
@[simp] theorem State.setHart_sramErr (s : State) (h : Nat) (x : Hart) : (s.setHart h x).sramErr = s.sramErr := rfl
@[simp] theorem State.setHart_channels (s : State) (h : Nat) (x : Hart) : (s.setHart h x).channels = s.channels := rfl
@[simp] theorem State.setHart_stackSt (s : State) (h : Nat) (x : Hart) : (s.setHart h x).stackSt = s.stackSt := rfl
@[simp] theorem State.setHart_banks (s : State) (h : Nat) (x : Hart) : (s.setHart h x).banks = s.banks := rfl
@[simp] theorem State.setHart_gens (s : State) (h : Nat) (x : Hart) : (s.setHart h x).gens = s.gens := rfl
@[simp] theorem State.setHart_ports (s : State) (h : Nat) (x : Hart) : (s.setHart h x).ports = s.ports := rfl
@[simp] theorem State.setHart_fab (s : State) (h : Nat) (x : Hart) : (s.setHart h x).fab = s.fab := rfl
@[simp] theorem State.setHart_coll (s : State) (h : Nat) (x : Hart) : (s.setHart h x).coll = s.coll := rfl
@[simp] theorem State.setHart_arb (s : State) (h : Nat) (x : Hart) : (s.setHart h x).arb = s.arb := rfl
@[simp] theorem State.setHart_entryWaits (s : State) (h : Nat) (x : Hart) : (s.setHart h x).entryWaits = s.entryWaits := rfl
@[simp] theorem State.setHart_w1cAt (s : State) (h : Nat) (x : Hart) : (s.setHart h x).w1cAt = s.w1cAt := rfl
@[simp] theorem State.setHart_reels (s : State) (h : Nat) (x : Hart) : (s.setHart h x).reels = s.reels := rfl
@[simp] theorem State.setHart_logs (s : State) (h : Nat) (x : Hart) : (s.setHart h x).logs = s.logs := rfl
@[simp] theorem State.setHart_res (s : State) (h : Nat) (x : Hart) : (s.setHart h x).res = s.res := rfl
@[simp] theorem State.setHart_sec (s : State) (h : Nat) (x : Hart) : (s.setHart h x).sec = s.sec := rfl
@[simp] theorem State.setHart_aoap (s : State) (h : Nat) (x : Hart) : (s.setHart h x).aoap = s.aoap := rfl
@[simp] theorem State.setHart_pow (s : State) (h : Nat) (x : Hart) : (s.setHart h x).pow = s.pow := rfl
@[simp] theorem State.setHart_host (s : State) (h : Nat) (x : Hart) : (s.setHart h x).host = s.host := rfl
@[simp] theorem State.setHart_boot (s : State) (h : Nat) (x : Hart) : (s.setHart h x).boot = s.boot := rfl
@[simp] theorem State.setHart_pins (s : State) (h : Nat) (x : Hart) : (s.setHart h x).pins = s.pins := rfl

/-! ### setStation -/

@[simp] theorem State.setStation_pending (s : State) (n st : Nat) (x : Station) : (s.setStation n st x).pending = s.pending := rfl
@[simp] theorem State.setStation_now (s : State) (n st : Nat) (x : Station) : (s.setStation n st x).now = s.now := rfl
@[simp] theorem State.setStation_freeCtr (s : State) (n st : Nat) (x : Station) : (s.setStation n st x).freeCtr = s.freeCtr := rfl
@[simp] theorem State.setStation_ans (s : State) (n st : Nat) (x : Station) : (s.setStation n st x).ans = s.ans := rfl
@[simp] theorem State.setStation_out (s : State) (n st : Nat) (x : Station) : (s.setStation n st x).out = s.out := rfl
@[simp] theorem State.setStation_cfg (s : State) (n st : Nat) (x : Station) : (s.setStation n st x).cfg = s.cfg := rfl
@[simp] theorem State.setStation_od (s : State) (n st : Nat) (x : Station) : (s.setStation n st x).od = s.od := rfl
@[simp] theorem State.setStation_cad (s : State) (n st : Nat) (x : Station) : (s.setStation n st x).cad = s.cad := rfl
@[simp] theorem State.setStation_parts (s : State) (n st : Nat) (x : Station) : (s.setStation n st x).parts = s.parts := rfl
@[simp] theorem State.setStation_flyers (s : State) (n st : Nat) (x : Station) : (s.setStation n st x).flyers = s.flyers := rfl
@[simp] theorem State.setStation_wire (s : State) (n st : Nat) (x : Station) : (s.setStation n st x).wire = s.wire := rfl
@[simp] theorem State.setStation_stats (s : State) (n st : Nat) (x : Station) : (s.setStation n st x).stats = s.stats := rfl
@[simp] theorem State.setStation_whorls (s : State) (n st : Nat) (x : Station) : (s.setStation n st x).whorls = s.whorls := rfl
@[simp] theorem State.setStation_twists (s : State) (n st : Nat) (x : Station) : (s.setStation n st x).twists = s.twists := rfl
@[simp] theorem State.setStation_harts (s : State) (n st : Nat) (x : Station) : (s.setStation n st x).harts = s.harts := rfl
@[simp] theorem State.setStation_mem (s : State) (n st : Nat) (x : Station) : (s.setStation n st x).mem = s.mem := rfl
@[simp] theorem State.setStation_lines (s : State) (n st : Nat) (x : Station) : (s.setStation n st x).lines = s.lines := rfl
@[simp] theorem State.setStation_sramErr (s : State) (n st : Nat) (x : Station) : (s.setStation n st x).sramErr = s.sramErr := rfl
@[simp] theorem State.setStation_channels (s : State) (n st : Nat) (x : Station) : (s.setStation n st x).channels = s.channels := rfl
@[simp] theorem State.setStation_stackSt (s : State) (n st : Nat) (x : Station) : (s.setStation n st x).stackSt = s.stackSt := rfl
@[simp] theorem State.setStation_banks (s : State) (n st : Nat) (x : Station) : (s.setStation n st x).banks = s.banks := rfl
@[simp] theorem State.setStation_gens (s : State) (n st : Nat) (x : Station) : (s.setStation n st x).gens = s.gens := rfl
@[simp] theorem State.setStation_ports (s : State) (n st : Nat) (x : Station) : (s.setStation n st x).ports = s.ports := rfl
@[simp] theorem State.setStation_fab (s : State) (n st : Nat) (x : Station) : (s.setStation n st x).fab = s.fab := rfl
@[simp] theorem State.setStation_coll (s : State) (n st : Nat) (x : Station) : (s.setStation n st x).coll = s.coll := rfl
@[simp] theorem State.setStation_arb (s : State) (n st : Nat) (x : Station) : (s.setStation n st x).arb = s.arb := rfl
@[simp] theorem State.setStation_entryWaits (s : State) (n st : Nat) (x : Station) : (s.setStation n st x).entryWaits = s.entryWaits := rfl
@[simp] theorem State.setStation_w1cAt (s : State) (n st : Nat) (x : Station) : (s.setStation n st x).w1cAt = s.w1cAt := rfl
@[simp] theorem State.setStation_reels (s : State) (n st : Nat) (x : Station) : (s.setStation n st x).reels = s.reels := rfl
@[simp] theorem State.setStation_logs (s : State) (n st : Nat) (x : Station) : (s.setStation n st x).logs = s.logs := rfl
@[simp] theorem State.setStation_res (s : State) (n st : Nat) (x : Station) : (s.setStation n st x).res = s.res := rfl
@[simp] theorem State.setStation_sec (s : State) (n st : Nat) (x : Station) : (s.setStation n st x).sec = s.sec := rfl
@[simp] theorem State.setStation_aoap (s : State) (n st : Nat) (x : Station) : (s.setStation n st x).aoap = s.aoap := rfl
@[simp] theorem State.setStation_pow (s : State) (n st : Nat) (x : Station) : (s.setStation n st x).pow = s.pow := rfl
@[simp] theorem State.setStation_host (s : State) (n st : Nat) (x : Station) : (s.setStation n st x).host = s.host := rfl
@[simp] theorem State.setStation_boot (s : State) (n st : Nat) (x : Station) : (s.setStation n st x).boot = s.boot := rfl
@[simp] theorem State.setStation_pins (s : State) (n st : Nat) (x : Station) : (s.setStation n st x).pins = s.pins := rfl

/-! ### setPort -/

@[simp] theorem State.setPort_pending (s : State) (n : Nat) (x : Port) : (s.setPort n x).pending = s.pending := rfl
@[simp] theorem State.setPort_now (s : State) (n : Nat) (x : Port) : (s.setPort n x).now = s.now := rfl
@[simp] theorem State.setPort_freeCtr (s : State) (n : Nat) (x : Port) : (s.setPort n x).freeCtr = s.freeCtr := rfl
@[simp] theorem State.setPort_ans (s : State) (n : Nat) (x : Port) : (s.setPort n x).ans = s.ans := rfl
@[simp] theorem State.setPort_out (s : State) (n : Nat) (x : Port) : (s.setPort n x).out = s.out := rfl
@[simp] theorem State.setPort_cfg (s : State) (n : Nat) (x : Port) : (s.setPort n x).cfg = s.cfg := rfl
@[simp] theorem State.setPort_od (s : State) (n : Nat) (x : Port) : (s.setPort n x).od = s.od := rfl
@[simp] theorem State.setPort_cad (s : State) (n : Nat) (x : Port) : (s.setPort n x).cad = s.cad := rfl
@[simp] theorem State.setPort_parts (s : State) (n : Nat) (x : Port) : (s.setPort n x).parts = s.parts := rfl
@[simp] theorem State.setPort_flyers (s : State) (n : Nat) (x : Port) : (s.setPort n x).flyers = s.flyers := rfl
@[simp] theorem State.setPort_stations (s : State) (n : Nat) (x : Port) : (s.setPort n x).stations = s.stations := rfl
@[simp] theorem State.setPort_wire (s : State) (n : Nat) (x : Port) : (s.setPort n x).wire = s.wire := rfl
@[simp] theorem State.setPort_stats (s : State) (n : Nat) (x : Port) : (s.setPort n x).stats = s.stats := rfl
@[simp] theorem State.setPort_whorls (s : State) (n : Nat) (x : Port) : (s.setPort n x).whorls = s.whorls := rfl
@[simp] theorem State.setPort_twists (s : State) (n : Nat) (x : Port) : (s.setPort n x).twists = s.twists := rfl
@[simp] theorem State.setPort_harts (s : State) (n : Nat) (x : Port) : (s.setPort n x).harts = s.harts := rfl
@[simp] theorem State.setPort_mem (s : State) (n : Nat) (x : Port) : (s.setPort n x).mem = s.mem := rfl
@[simp] theorem State.setPort_lines (s : State) (n : Nat) (x : Port) : (s.setPort n x).lines = s.lines := rfl
@[simp] theorem State.setPort_sramErr (s : State) (n : Nat) (x : Port) : (s.setPort n x).sramErr = s.sramErr := rfl
@[simp] theorem State.setPort_channels (s : State) (n : Nat) (x : Port) : (s.setPort n x).channels = s.channels := rfl
@[simp] theorem State.setPort_stackSt (s : State) (n : Nat) (x : Port) : (s.setPort n x).stackSt = s.stackSt := rfl
@[simp] theorem State.setPort_banks (s : State) (n : Nat) (x : Port) : (s.setPort n x).banks = s.banks := rfl
@[simp] theorem State.setPort_gens (s : State) (n : Nat) (x : Port) : (s.setPort n x).gens = s.gens := rfl
@[simp] theorem State.setPort_fab (s : State) (n : Nat) (x : Port) : (s.setPort n x).fab = s.fab := rfl
@[simp] theorem State.setPort_coll (s : State) (n : Nat) (x : Port) : (s.setPort n x).coll = s.coll := rfl
@[simp] theorem State.setPort_arb (s : State) (n : Nat) (x : Port) : (s.setPort n x).arb = s.arb := rfl
@[simp] theorem State.setPort_entryWaits (s : State) (n : Nat) (x : Port) : (s.setPort n x).entryWaits = s.entryWaits := rfl
@[simp] theorem State.setPort_w1cAt (s : State) (n : Nat) (x : Port) : (s.setPort n x).w1cAt = s.w1cAt := rfl
@[simp] theorem State.setPort_reels (s : State) (n : Nat) (x : Port) : (s.setPort n x).reels = s.reels := rfl
@[simp] theorem State.setPort_logs (s : State) (n : Nat) (x : Port) : (s.setPort n x).logs = s.logs := rfl
@[simp] theorem State.setPort_res (s : State) (n : Nat) (x : Port) : (s.setPort n x).res = s.res := rfl
@[simp] theorem State.setPort_sec (s : State) (n : Nat) (x : Port) : (s.setPort n x).sec = s.sec := rfl
@[simp] theorem State.setPort_aoap (s : State) (n : Nat) (x : Port) : (s.setPort n x).aoap = s.aoap := rfl
@[simp] theorem State.setPort_pow (s : State) (n : Nat) (x : Port) : (s.setPort n x).pow = s.pow := rfl
@[simp] theorem State.setPort_host (s : State) (n : Nat) (x : Port) : (s.setPort n x).host = s.host := rfl
@[simp] theorem State.setPort_boot (s : State) (n : Nat) (x : Port) : (s.setPort n x).boot = s.boot := rfl
@[simp] theorem State.setPort_pins (s : State) (n : Nat) (x : Port) : (s.setPort n x).pins = s.pins := rfl

/-! ### setCad -/

@[simp] theorem State.setCad_pending (s : State) (c : Cadence) : (s.setCad c).pending = s.pending := rfl
@[simp] theorem State.setCad_now (s : State) (c : Cadence) : (s.setCad c).now = s.now := rfl
@[simp] theorem State.setCad_freeCtr (s : State) (c : Cadence) : (s.setCad c).freeCtr = s.freeCtr := rfl
@[simp] theorem State.setCad_ans (s : State) (c : Cadence) : (s.setCad c).ans = s.ans := rfl
@[simp] theorem State.setCad_out (s : State) (c : Cadence) : (s.setCad c).out = s.out := rfl
@[simp] theorem State.setCad_cfg (s : State) (c : Cadence) : (s.setCad c).cfg = s.cfg := rfl
@[simp] theorem State.setCad_od (s : State) (c : Cadence) : (s.setCad c).od = s.od := rfl
@[simp] theorem State.setCad_parts (s : State) (c : Cadence) : (s.setCad c).parts = s.parts := rfl
@[simp] theorem State.setCad_flyers (s : State) (c : Cadence) : (s.setCad c).flyers = s.flyers := rfl
@[simp] theorem State.setCad_stations (s : State) (c : Cadence) : (s.setCad c).stations = s.stations := rfl
@[simp] theorem State.setCad_wire (s : State) (c : Cadence) : (s.setCad c).wire = s.wire := rfl
@[simp] theorem State.setCad_stats (s : State) (c : Cadence) : (s.setCad c).stats = s.stats := rfl
@[simp] theorem State.setCad_whorls (s : State) (c : Cadence) : (s.setCad c).whorls = s.whorls := rfl
@[simp] theorem State.setCad_twists (s : State) (c : Cadence) : (s.setCad c).twists = s.twists := rfl
@[simp] theorem State.setCad_harts (s : State) (c : Cadence) : (s.setCad c).harts = s.harts := rfl
@[simp] theorem State.setCad_mem (s : State) (c : Cadence) : (s.setCad c).mem = s.mem := rfl
@[simp] theorem State.setCad_lines (s : State) (c : Cadence) : (s.setCad c).lines = s.lines := rfl
@[simp] theorem State.setCad_sramErr (s : State) (c : Cadence) : (s.setCad c).sramErr = s.sramErr := rfl
@[simp] theorem State.setCad_channels (s : State) (c : Cadence) : (s.setCad c).channels = s.channels := rfl
@[simp] theorem State.setCad_stackSt (s : State) (c : Cadence) : (s.setCad c).stackSt = s.stackSt := rfl
@[simp] theorem State.setCad_banks (s : State) (c : Cadence) : (s.setCad c).banks = s.banks := rfl
@[simp] theorem State.setCad_gens (s : State) (c : Cadence) : (s.setCad c).gens = s.gens := rfl
@[simp] theorem State.setCad_ports (s : State) (c : Cadence) : (s.setCad c).ports = s.ports := rfl
@[simp] theorem State.setCad_fab (s : State) (c : Cadence) : (s.setCad c).fab = s.fab := rfl
@[simp] theorem State.setCad_coll (s : State) (c : Cadence) : (s.setCad c).coll = s.coll := rfl
@[simp] theorem State.setCad_arb (s : State) (c : Cadence) : (s.setCad c).arb = s.arb := rfl
@[simp] theorem State.setCad_entryWaits (s : State) (c : Cadence) : (s.setCad c).entryWaits = s.entryWaits := rfl
@[simp] theorem State.setCad_w1cAt (s : State) (c : Cadence) : (s.setCad c).w1cAt = s.w1cAt := rfl
@[simp] theorem State.setCad_reels (s : State) (c : Cadence) : (s.setCad c).reels = s.reels := rfl
@[simp] theorem State.setCad_logs (s : State) (c : Cadence) : (s.setCad c).logs = s.logs := rfl
@[simp] theorem State.setCad_res (s : State) (c : Cadence) : (s.setCad c).res = s.res := rfl
@[simp] theorem State.setCad_sec (s : State) (c : Cadence) : (s.setCad c).sec = s.sec := rfl
@[simp] theorem State.setCad_aoap (s : State) (c : Cadence) : (s.setCad c).aoap = s.aoap := rfl
@[simp] theorem State.setCad_pow (s : State) (c : Cadence) : (s.setCad c).pow = s.pow := rfl
@[simp] theorem State.setCad_host (s : State) (c : Cadence) : (s.setCad c).host = s.host := rfl
@[simp] theorem State.setCad_boot (s : State) (c : Cadence) : (s.setCad c).boot = s.boot := rfl
@[simp] theorem State.setCad_pins (s : State) (c : Cadence) : (s.setCad c).pins = s.pins := rfl

/-! ### odSet -/

@[simp] theorem State.odSet_pending (s : State) (i j v : Nat) : (s.odSet i j v).pending = s.pending := rfl
@[simp] theorem State.odSet_now (s : State) (i j v : Nat) : (s.odSet i j v).now = s.now := rfl
@[simp] theorem State.odSet_freeCtr (s : State) (i j v : Nat) : (s.odSet i j v).freeCtr = s.freeCtr := rfl
@[simp] theorem State.odSet_ans (s : State) (i j v : Nat) : (s.odSet i j v).ans = s.ans := rfl
@[simp] theorem State.odSet_out (s : State) (i j v : Nat) : (s.odSet i j v).out = s.out := rfl
@[simp] theorem State.odSet_cfg (s : State) (i j v : Nat) : (s.odSet i j v).cfg = s.cfg := rfl
@[simp] theorem State.odSet_cad (s : State) (i j v : Nat) : (s.odSet i j v).cad = s.cad := rfl
@[simp] theorem State.odSet_parts (s : State) (i j v : Nat) : (s.odSet i j v).parts = s.parts := rfl
@[simp] theorem State.odSet_flyers (s : State) (i j v : Nat) : (s.odSet i j v).flyers = s.flyers := rfl
@[simp] theorem State.odSet_stations (s : State) (i j v : Nat) : (s.odSet i j v).stations = s.stations := rfl
@[simp] theorem State.odSet_wire (s : State) (i j v : Nat) : (s.odSet i j v).wire = s.wire := rfl
@[simp] theorem State.odSet_stats (s : State) (i j v : Nat) : (s.odSet i j v).stats = s.stats := rfl
@[simp] theorem State.odSet_whorls (s : State) (i j v : Nat) : (s.odSet i j v).whorls = s.whorls := rfl
@[simp] theorem State.odSet_twists (s : State) (i j v : Nat) : (s.odSet i j v).twists = s.twists := rfl
@[simp] theorem State.odSet_harts (s : State) (i j v : Nat) : (s.odSet i j v).harts = s.harts := rfl
@[simp] theorem State.odSet_mem (s : State) (i j v : Nat) : (s.odSet i j v).mem = s.mem := rfl
@[simp] theorem State.odSet_lines (s : State) (i j v : Nat) : (s.odSet i j v).lines = s.lines := rfl
@[simp] theorem State.odSet_sramErr (s : State) (i j v : Nat) : (s.odSet i j v).sramErr = s.sramErr := rfl
@[simp] theorem State.odSet_channels (s : State) (i j v : Nat) : (s.odSet i j v).channels = s.channels := rfl
@[simp] theorem State.odSet_stackSt (s : State) (i j v : Nat) : (s.odSet i j v).stackSt = s.stackSt := rfl
@[simp] theorem State.odSet_banks (s : State) (i j v : Nat) : (s.odSet i j v).banks = s.banks := rfl
@[simp] theorem State.odSet_gens (s : State) (i j v : Nat) : (s.odSet i j v).gens = s.gens := rfl
@[simp] theorem State.odSet_ports (s : State) (i j v : Nat) : (s.odSet i j v).ports = s.ports := rfl
@[simp] theorem State.odSet_fab (s : State) (i j v : Nat) : (s.odSet i j v).fab = s.fab := rfl
@[simp] theorem State.odSet_coll (s : State) (i j v : Nat) : (s.odSet i j v).coll = s.coll := rfl
@[simp] theorem State.odSet_arb (s : State) (i j v : Nat) : (s.odSet i j v).arb = s.arb := rfl
@[simp] theorem State.odSet_entryWaits (s : State) (i j v : Nat) : (s.odSet i j v).entryWaits = s.entryWaits := rfl
@[simp] theorem State.odSet_w1cAt (s : State) (i j v : Nat) : (s.odSet i j v).w1cAt = s.w1cAt := rfl
@[simp] theorem State.odSet_reels (s : State) (i j v : Nat) : (s.odSet i j v).reels = s.reels := rfl
@[simp] theorem State.odSet_logs (s : State) (i j v : Nat) : (s.odSet i j v).logs = s.logs := rfl
@[simp] theorem State.odSet_res (s : State) (i j v : Nat) : (s.odSet i j v).res = s.res := rfl
@[simp] theorem State.odSet_sec (s : State) (i j v : Nat) : (s.odSet i j v).sec = s.sec := rfl
@[simp] theorem State.odSet_aoap (s : State) (i j v : Nat) : (s.odSet i j v).aoap = s.aoap := rfl
@[simp] theorem State.odSet_pow (s : State) (i j v : Nat) : (s.odSet i j v).pow = s.pow := rfl
@[simp] theorem State.odSet_host (s : State) (i j v : Nat) : (s.odSet i j v).host = s.host := rfl
@[simp] theorem State.odSet_boot (s : State) (i j v : Nat) : (s.odSet i j v).boot = s.boot := rfl
@[simp] theorem State.odSet_pins (s : State) (i j v : Nat) : (s.odSet i j v).pins = s.pins := rfl

/-! ### markW1c -/

@[simp] theorem State.markW1c_pending (s : State) (i j b : Nat) : (s.markW1c i j b).pending = s.pending := rfl
@[simp] theorem State.markW1c_now (s : State) (i j b : Nat) : (s.markW1c i j b).now = s.now := rfl
@[simp] theorem State.markW1c_freeCtr (s : State) (i j b : Nat) : (s.markW1c i j b).freeCtr = s.freeCtr := rfl
@[simp] theorem State.markW1c_ans (s : State) (i j b : Nat) : (s.markW1c i j b).ans = s.ans := rfl
@[simp] theorem State.markW1c_out (s : State) (i j b : Nat) : (s.markW1c i j b).out = s.out := rfl
@[simp] theorem State.markW1c_cfg (s : State) (i j b : Nat) : (s.markW1c i j b).cfg = s.cfg := rfl
@[simp] theorem State.markW1c_od (s : State) (i j b : Nat) : (s.markW1c i j b).od = s.od := rfl
@[simp] theorem State.markW1c_cad (s : State) (i j b : Nat) : (s.markW1c i j b).cad = s.cad := rfl
@[simp] theorem State.markW1c_parts (s : State) (i j b : Nat) : (s.markW1c i j b).parts = s.parts := rfl
@[simp] theorem State.markW1c_flyers (s : State) (i j b : Nat) : (s.markW1c i j b).flyers = s.flyers := rfl
@[simp] theorem State.markW1c_stations (s : State) (i j b : Nat) : (s.markW1c i j b).stations = s.stations := rfl
@[simp] theorem State.markW1c_wire (s : State) (i j b : Nat) : (s.markW1c i j b).wire = s.wire := rfl
@[simp] theorem State.markW1c_stats (s : State) (i j b : Nat) : (s.markW1c i j b).stats = s.stats := rfl
@[simp] theorem State.markW1c_whorls (s : State) (i j b : Nat) : (s.markW1c i j b).whorls = s.whorls := rfl
@[simp] theorem State.markW1c_twists (s : State) (i j b : Nat) : (s.markW1c i j b).twists = s.twists := rfl
@[simp] theorem State.markW1c_harts (s : State) (i j b : Nat) : (s.markW1c i j b).harts = s.harts := rfl
@[simp] theorem State.markW1c_mem (s : State) (i j b : Nat) : (s.markW1c i j b).mem = s.mem := rfl
@[simp] theorem State.markW1c_lines (s : State) (i j b : Nat) : (s.markW1c i j b).lines = s.lines := rfl
@[simp] theorem State.markW1c_sramErr (s : State) (i j b : Nat) : (s.markW1c i j b).sramErr = s.sramErr := rfl
@[simp] theorem State.markW1c_channels (s : State) (i j b : Nat) : (s.markW1c i j b).channels = s.channels := rfl
@[simp] theorem State.markW1c_stackSt (s : State) (i j b : Nat) : (s.markW1c i j b).stackSt = s.stackSt := rfl
@[simp] theorem State.markW1c_banks (s : State) (i j b : Nat) : (s.markW1c i j b).banks = s.banks := rfl
@[simp] theorem State.markW1c_gens (s : State) (i j b : Nat) : (s.markW1c i j b).gens = s.gens := rfl
@[simp] theorem State.markW1c_ports (s : State) (i j b : Nat) : (s.markW1c i j b).ports = s.ports := rfl
@[simp] theorem State.markW1c_fab (s : State) (i j b : Nat) : (s.markW1c i j b).fab = s.fab := rfl
@[simp] theorem State.markW1c_coll (s : State) (i j b : Nat) : (s.markW1c i j b).coll = s.coll := rfl
@[simp] theorem State.markW1c_arb (s : State) (i j b : Nat) : (s.markW1c i j b).arb = s.arb := rfl
@[simp] theorem State.markW1c_entryWaits (s : State) (i j b : Nat) : (s.markW1c i j b).entryWaits = s.entryWaits := rfl
@[simp] theorem State.markW1c_reels (s : State) (i j b : Nat) : (s.markW1c i j b).reels = s.reels := rfl
@[simp] theorem State.markW1c_logs (s : State) (i j b : Nat) : (s.markW1c i j b).logs = s.logs := rfl
@[simp] theorem State.markW1c_res (s : State) (i j b : Nat) : (s.markW1c i j b).res = s.res := rfl
@[simp] theorem State.markW1c_sec (s : State) (i j b : Nat) : (s.markW1c i j b).sec = s.sec := rfl
@[simp] theorem State.markW1c_aoap (s : State) (i j b : Nat) : (s.markW1c i j b).aoap = s.aoap := rfl
@[simp] theorem State.markW1c_pow (s : State) (i j b : Nat) : (s.markW1c i j b).pow = s.pow := rfl
@[simp] theorem State.markW1c_host (s : State) (i j b : Nat) : (s.markW1c i j b).host = s.host := rfl
@[simp] theorem State.markW1c_boot (s : State) (i j b : Nat) : (s.markW1c i j b).boot = s.boot := rfl
@[simp] theorem State.markW1c_pins (s : State) (i j b : Nat) : (s.markW1c i j b).pins = s.pins := rfl

end Sys2Proof.Machine
end

