-- ==== Sys2Proof/Laws/Ops.lean ====
section
/-! SUPPORT. Laws/Ops.lean: what the shared operations change, one theorem each (with the fields it may change put back, the
state is as before), and from it one lemma per field it leaves alone. -/

namespace Sys2Proof.Machine

/-- Two states are equal when every field is. -/
theorem State.eq_of_fields {a b : State}
    (h0 : a.pending = b.pending)    (h1 : a.now = b.now)    (h2 : a.freeCtr = b.freeCtr)
    (h3 : a.ans = b.ans)    (h4 : a.out = b.out)    (h5 : a.cfg = b.cfg)
    (h6 : a.od = b.od)    (h7 : a.cad = b.cad)    (h8 : a.parts = b.parts)
    (h9 : a.flyers = b.flyers)    (h10 : a.stations = b.stations)    (h11 : a.wire = b.wire)
    (h12 : a.stats = b.stats)    (h13 : a.whorls = b.whorls)    (h14 : a.twists = b.twists)
    (h15 : a.harts = b.harts)    (h16 : a.mem = b.mem)    (h17 : a.lines = b.lines)
    (h18 : a.sramErr = b.sramErr)    (h19 : a.channels = b.channels)    (h20 : a.stackSt = b.stackSt)
    (h21 : a.banks = b.banks)    (h22 : a.gens = b.gens)    (h23 : a.ports = b.ports)
    (h24 : a.fab = b.fab)    (h25 : a.coll = b.coll)    (h26 : a.arb = b.arb)
    (h27 : a.entryWaits = b.entryWaits)    (h28 : a.w1cAt = b.w1cAt)    (h29 : a.reels = b.reels)
    (h30 : a.logs = b.logs)    (h31 : a.res = b.res)    (h32 : a.sec = b.sec)
    (h33 : a.aoap = b.aoap)    (h34 : a.pow = b.pow)    (h35 : a.host = b.host)
    (h36 : a.boot = b.boot)    (h37 : a.pins = b.pins) : a = b := by
  cases a
  cases b
  simp only [State.mk.injEq]
  exact ⟨h0, h1, h2, h3, h4, h5, h6, h7, h8, h9, h10, h11, h12, h13, h14, h15, h16, h17, h18, h19, h20, h21, h22, h23, h24, h25, h26, h27, h28, h29, h30, h31, h32, h33, h34, h35, h36, h37⟩

/-- A fold of changes each of which keeps what g sees keeps what g sees. -/
theorem foldl_keeps {α β σ : Type} (g : σ → β) (f : σ → α → σ) (h : ∀ s a, g (f s a) = g s) (l : List α) (s : σ) :
    g (l.foldl f s) = g s := by
  induction l generalizing s with
  | nil => rfl
  | cons a l ih => exact (ih (f s a)).trans (h s a)

/-- A fold of changes each of which, its own fields put back, is no change, is none either. -/
theorem foldl_frame {α σ : Type} (g : σ → σ → σ) (gg : ∀ a b c, g a b = b → g b c = c → g a c = c) (g0 : ∀ s, g s s = s)
    (f : σ → α → σ) (h : ∀ s a, g (f s a) s = s) (l : List α) (s : σ) : g (l.foldl f s) s = s := by
  induction l generalizing s with
  | nil => exact g0 s
  | cons a l ih => exact gg _ _ _ (ih (f s a)) (h s a)

/-- u differs from s at most in what writing a reel record changes. -/
def ReelOnly (s u : State) : Prop :=
  { u with
    od := s.od
    mem := s.mem
    lines := s.lines
    sramErr := s.sramErr
    reels := s.reels
    w1cAt := s.w1cAt
    logs := s.logs
    aoap := s.aoap
    out := s.out } = s

theorem State.notify_frame (s : State) (i o x u k : Nat) (d : List Byte) :
    { s.notify i o x u k d with
      aoap := s.aoap
      out := s.out } = s := by
  unfold State.notify
  split
  · rfl
  · split
    · split
      · dsimp only
        split
        · by_cases h : (s.aoap.mbQueue ++ [(i, bytesOf 1 o ++ bytesOf 1 u ++ bytesOf 2 x ++ bytesOf 2 k ++ bytesOf 2 0 ++
            bytesOf 4 d.length ++ d)]).length = 1
          · rw [if_pos h]; rfl
          · rw [if_neg h]
        · rfl
      · rfl
    · rfl

@[simp] theorem State.notify_pending (s : State) (i o x u k : Nat) (d : List Byte) : (s.notify i o x u k d).pending = s.pending := (congrArg State.pending (s.notify_frame i o x u k d) :)
@[simp] theorem State.notify_now (s : State) (i o x u k : Nat) (d : List Byte) : (s.notify i o x u k d).now = s.now := (congrArg State.now (s.notify_frame i o x u k d) :)
@[simp] theorem State.notify_freeCtr (s : State) (i o x u k : Nat) (d : List Byte) : (s.notify i o x u k d).freeCtr = s.freeCtr := (congrArg State.freeCtr (s.notify_frame i o x u k d) :)
@[simp] theorem State.notify_ans (s : State) (i o x u k : Nat) (d : List Byte) : (s.notify i o x u k d).ans = s.ans := (congrArg State.ans (s.notify_frame i o x u k d) :)
@[simp] theorem State.notify_cfg (s : State) (i o x u k : Nat) (d : List Byte) : (s.notify i o x u k d).cfg = s.cfg := (congrArg State.cfg (s.notify_frame i o x u k d) :)
@[simp] theorem State.notify_od (s : State) (i o x u k : Nat) (d : List Byte) : (s.notify i o x u k d).od = s.od := (congrArg State.od (s.notify_frame i o x u k d) :)
@[simp] theorem State.notify_cad (s : State) (i o x u k : Nat) (d : List Byte) : (s.notify i o x u k d).cad = s.cad := (congrArg State.cad (s.notify_frame i o x u k d) :)
@[simp] theorem State.notify_parts (s : State) (i o x u k : Nat) (d : List Byte) : (s.notify i o x u k d).parts = s.parts := (congrArg State.parts (s.notify_frame i o x u k d) :)
@[simp] theorem State.notify_flyers (s : State) (i o x u k : Nat) (d : List Byte) : (s.notify i o x u k d).flyers = s.flyers := (congrArg State.flyers (s.notify_frame i o x u k d) :)
@[simp] theorem State.notify_stations (s : State) (i o x u k : Nat) (d : List Byte) : (s.notify i o x u k d).stations = s.stations := (congrArg State.stations (s.notify_frame i o x u k d) :)
@[simp] theorem State.notify_wire (s : State) (i o x u k : Nat) (d : List Byte) : (s.notify i o x u k d).wire = s.wire := (congrArg State.wire (s.notify_frame i o x u k d) :)
@[simp] theorem State.notify_stats (s : State) (i o x u k : Nat) (d : List Byte) : (s.notify i o x u k d).stats = s.stats := (congrArg State.stats (s.notify_frame i o x u k d) :)
@[simp] theorem State.notify_whorls (s : State) (i o x u k : Nat) (d : List Byte) : (s.notify i o x u k d).whorls = s.whorls := (congrArg State.whorls (s.notify_frame i o x u k d) :)
@[simp] theorem State.notify_twists (s : State) (i o x u k : Nat) (d : List Byte) : (s.notify i o x u k d).twists = s.twists := (congrArg State.twists (s.notify_frame i o x u k d) :)
@[simp] theorem State.notify_harts (s : State) (i o x u k : Nat) (d : List Byte) : (s.notify i o x u k d).harts = s.harts := (congrArg State.harts (s.notify_frame i o x u k d) :)
@[simp] theorem State.notify_mem (s : State) (i o x u k : Nat) (d : List Byte) : (s.notify i o x u k d).mem = s.mem := (congrArg State.mem (s.notify_frame i o x u k d) :)
@[simp] theorem State.notify_lines (s : State) (i o x u k : Nat) (d : List Byte) : (s.notify i o x u k d).lines = s.lines := (congrArg State.lines (s.notify_frame i o x u k d) :)
@[simp] theorem State.notify_sramErr (s : State) (i o x u k : Nat) (d : List Byte) : (s.notify i o x u k d).sramErr = s.sramErr := (congrArg State.sramErr (s.notify_frame i o x u k d) :)
@[simp] theorem State.notify_channels (s : State) (i o x u k : Nat) (d : List Byte) : (s.notify i o x u k d).channels = s.channels := (congrArg State.channels (s.notify_frame i o x u k d) :)
@[simp] theorem State.notify_stackSt (s : State) (i o x u k : Nat) (d : List Byte) : (s.notify i o x u k d).stackSt = s.stackSt := (congrArg State.stackSt (s.notify_frame i o x u k d) :)
@[simp] theorem State.notify_banks (s : State) (i o x u k : Nat) (d : List Byte) : (s.notify i o x u k d).banks = s.banks := (congrArg State.banks (s.notify_frame i o x u k d) :)
@[simp] theorem State.notify_gens (s : State) (i o x u k : Nat) (d : List Byte) : (s.notify i o x u k d).gens = s.gens := (congrArg State.gens (s.notify_frame i o x u k d) :)
@[simp] theorem State.notify_ports (s : State) (i o x u k : Nat) (d : List Byte) : (s.notify i o x u k d).ports = s.ports := (congrArg State.ports (s.notify_frame i o x u k d) :)
@[simp] theorem State.notify_fab (s : State) (i o x u k : Nat) (d : List Byte) : (s.notify i o x u k d).fab = s.fab := (congrArg State.fab (s.notify_frame i o x u k d) :)
@[simp] theorem State.notify_coll (s : State) (i o x u k : Nat) (d : List Byte) : (s.notify i o x u k d).coll = s.coll := (congrArg State.coll (s.notify_frame i o x u k d) :)
@[simp] theorem State.notify_arb (s : State) (i o x u k : Nat) (d : List Byte) : (s.notify i o x u k d).arb = s.arb := (congrArg State.arb (s.notify_frame i o x u k d) :)
@[simp] theorem State.notify_entryWaits (s : State) (i o x u k : Nat) (d : List Byte) : (s.notify i o x u k d).entryWaits = s.entryWaits := (congrArg State.entryWaits (s.notify_frame i o x u k d) :)
@[simp] theorem State.notify_w1cAt (s : State) (i o x u k : Nat) (d : List Byte) : (s.notify i o x u k d).w1cAt = s.w1cAt := (congrArg State.w1cAt (s.notify_frame i o x u k d) :)
@[simp] theorem State.notify_reels (s : State) (i o x u k : Nat) (d : List Byte) : (s.notify i o x u k d).reels = s.reels := (congrArg State.reels (s.notify_frame i o x u k d) :)
@[simp] theorem State.notify_logs (s : State) (i o x u k : Nat) (d : List Byte) : (s.notify i o x u k d).logs = s.logs := (congrArg State.logs (s.notify_frame i o x u k d) :)
@[simp] theorem State.notify_res (s : State) (i o x u k : Nat) (d : List Byte) : (s.notify i o x u k d).res = s.res := (congrArg State.res (s.notify_frame i o x u k d) :)
@[simp] theorem State.notify_sec (s : State) (i o x u k : Nat) (d : List Byte) : (s.notify i o x u k d).sec = s.sec := (congrArg State.sec (s.notify_frame i o x u k d) :)
@[simp] theorem State.notify_pow (s : State) (i o x u k : Nat) (d : List Byte) : (s.notify i o x u k d).pow = s.pow := (congrArg State.pow (s.notify_frame i o x u k d) :)
@[simp] theorem State.notify_host (s : State) (i o x u k : Nat) (d : List Byte) : (s.notify i o x u k d).host = s.host := (congrArg State.host (s.notify_frame i o x u k d) :)
@[simp] theorem State.notify_boot (s : State) (i o x u k : Nat) (d : List Byte) : (s.notify i o x u k d).boot = s.boot := (congrArg State.boot (s.notify_frame i o x u k d) :)
@[simp] theorem State.notify_pins (s : State) (i o x u k : Nat) (d : List Byte) : (s.notify i o x u k d).pins = s.pins := (congrArg State.pins (s.notify_frame i o x u k d) :)

theorem State.notifyEvent_frame (s : State) (c : Nat) (p : Option Nat) (e : List Nat) :
    { s.notifyEvent c p e with
      aoap := s.aoap
      out := s.out } = s := by
  refine foldl_frame (fun u s : State => { u with aoap := s.aoap, out := s.out }) ?_ (fun _ => rfl) _ ?_ _ s
  · intro a b c h1 h2; rw [← h2, ← h1]
  · intro s e
    refine foldl_frame (fun u s : State => { u with aoap := s.aoap, out := s.out }) ?_ (fun _ => rfl) _ ?_ _ s
    · intro a b c h1 h2; rw [← h2, ← h1]
    · intro s x
      split
      · split
        · exact s.notify_frame ..
        · rfl
      · rfl

@[simp] theorem State.notifyEvent_pending (s : State) (c : Nat) (p : Option Nat) (e : List Nat) : (s.notifyEvent c p e).pending = s.pending := (congrArg State.pending (s.notifyEvent_frame c p e) :)
@[simp] theorem State.notifyEvent_now (s : State) (c : Nat) (p : Option Nat) (e : List Nat) : (s.notifyEvent c p e).now = s.now := (congrArg State.now (s.notifyEvent_frame c p e) :)
@[simp] theorem State.notifyEvent_freeCtr (s : State) (c : Nat) (p : Option Nat) (e : List Nat) : (s.notifyEvent c p e).freeCtr = s.freeCtr := (congrArg State.freeCtr (s.notifyEvent_frame c p e) :)
@[simp] theorem State.notifyEvent_ans (s : State) (c : Nat) (p : Option Nat) (e : List Nat) : (s.notifyEvent c p e).ans = s.ans := (congrArg State.ans (s.notifyEvent_frame c p e) :)
@[simp] theorem State.notifyEvent_cfg (s : State) (c : Nat) (p : Option Nat) (e : List Nat) : (s.notifyEvent c p e).cfg = s.cfg := (congrArg State.cfg (s.notifyEvent_frame c p e) :)
@[simp] theorem State.notifyEvent_od (s : State) (c : Nat) (p : Option Nat) (e : List Nat) : (s.notifyEvent c p e).od = s.od := (congrArg State.od (s.notifyEvent_frame c p e) :)
@[simp] theorem State.notifyEvent_cad (s : State) (c : Nat) (p : Option Nat) (e : List Nat) : (s.notifyEvent c p e).cad = s.cad := (congrArg State.cad (s.notifyEvent_frame c p e) :)
@[simp] theorem State.notifyEvent_parts (s : State) (c : Nat) (p : Option Nat) (e : List Nat) : (s.notifyEvent c p e).parts = s.parts := (congrArg State.parts (s.notifyEvent_frame c p e) :)
@[simp] theorem State.notifyEvent_flyers (s : State) (c : Nat) (p : Option Nat) (e : List Nat) : (s.notifyEvent c p e).flyers = s.flyers := (congrArg State.flyers (s.notifyEvent_frame c p e) :)
@[simp] theorem State.notifyEvent_stations (s : State) (c : Nat) (p : Option Nat) (e : List Nat) : (s.notifyEvent c p e).stations = s.stations := (congrArg State.stations (s.notifyEvent_frame c p e) :)
@[simp] theorem State.notifyEvent_wire (s : State) (c : Nat) (p : Option Nat) (e : List Nat) : (s.notifyEvent c p e).wire = s.wire := (congrArg State.wire (s.notifyEvent_frame c p e) :)
@[simp] theorem State.notifyEvent_stats (s : State) (c : Nat) (p : Option Nat) (e : List Nat) : (s.notifyEvent c p e).stats = s.stats := (congrArg State.stats (s.notifyEvent_frame c p e) :)
@[simp] theorem State.notifyEvent_whorls (s : State) (c : Nat) (p : Option Nat) (e : List Nat) : (s.notifyEvent c p e).whorls = s.whorls := (congrArg State.whorls (s.notifyEvent_frame c p e) :)
@[simp] theorem State.notifyEvent_twists (s : State) (c : Nat) (p : Option Nat) (e : List Nat) : (s.notifyEvent c p e).twists = s.twists := (congrArg State.twists (s.notifyEvent_frame c p e) :)
@[simp] theorem State.notifyEvent_harts (s : State) (c : Nat) (p : Option Nat) (e : List Nat) : (s.notifyEvent c p e).harts = s.harts := (congrArg State.harts (s.notifyEvent_frame c p e) :)
@[simp] theorem State.notifyEvent_mem (s : State) (c : Nat) (p : Option Nat) (e : List Nat) : (s.notifyEvent c p e).mem = s.mem := (congrArg State.mem (s.notifyEvent_frame c p e) :)
@[simp] theorem State.notifyEvent_lines (s : State) (c : Nat) (p : Option Nat) (e : List Nat) : (s.notifyEvent c p e).lines = s.lines := (congrArg State.lines (s.notifyEvent_frame c p e) :)
@[simp] theorem State.notifyEvent_sramErr (s : State) (c : Nat) (p : Option Nat) (e : List Nat) : (s.notifyEvent c p e).sramErr = s.sramErr := (congrArg State.sramErr (s.notifyEvent_frame c p e) :)
@[simp] theorem State.notifyEvent_channels (s : State) (c : Nat) (p : Option Nat) (e : List Nat) : (s.notifyEvent c p e).channels = s.channels := (congrArg State.channels (s.notifyEvent_frame c p e) :)
@[simp] theorem State.notifyEvent_stackSt (s : State) (c : Nat) (p : Option Nat) (e : List Nat) : (s.notifyEvent c p e).stackSt = s.stackSt := (congrArg State.stackSt (s.notifyEvent_frame c p e) :)
@[simp] theorem State.notifyEvent_banks (s : State) (c : Nat) (p : Option Nat) (e : List Nat) : (s.notifyEvent c p e).banks = s.banks := (congrArg State.banks (s.notifyEvent_frame c p e) :)
@[simp] theorem State.notifyEvent_gens (s : State) (c : Nat) (p : Option Nat) (e : List Nat) : (s.notifyEvent c p e).gens = s.gens := (congrArg State.gens (s.notifyEvent_frame c p e) :)
@[simp] theorem State.notifyEvent_ports (s : State) (c : Nat) (p : Option Nat) (e : List Nat) : (s.notifyEvent c p e).ports = s.ports := (congrArg State.ports (s.notifyEvent_frame c p e) :)
@[simp] theorem State.notifyEvent_fab (s : State) (c : Nat) (p : Option Nat) (e : List Nat) : (s.notifyEvent c p e).fab = s.fab := (congrArg State.fab (s.notifyEvent_frame c p e) :)
@[simp] theorem State.notifyEvent_coll (s : State) (c : Nat) (p : Option Nat) (e : List Nat) : (s.notifyEvent c p e).coll = s.coll := (congrArg State.coll (s.notifyEvent_frame c p e) :)
@[simp] theorem State.notifyEvent_arb (s : State) (c : Nat) (p : Option Nat) (e : List Nat) : (s.notifyEvent c p e).arb = s.arb := (congrArg State.arb (s.notifyEvent_frame c p e) :)
@[simp] theorem State.notifyEvent_entryWaits (s : State) (c : Nat) (p : Option Nat) (e : List Nat) : (s.notifyEvent c p e).entryWaits = s.entryWaits := (congrArg State.entryWaits (s.notifyEvent_frame c p e) :)
@[simp] theorem State.notifyEvent_w1cAt (s : State) (c : Nat) (p : Option Nat) (e : List Nat) : (s.notifyEvent c p e).w1cAt = s.w1cAt := (congrArg State.w1cAt (s.notifyEvent_frame c p e) :)
@[simp] theorem State.notifyEvent_reels (s : State) (c : Nat) (p : Option Nat) (e : List Nat) : (s.notifyEvent c p e).reels = s.reels := (congrArg State.reels (s.notifyEvent_frame c p e) :)
@[simp] theorem State.notifyEvent_logs (s : State) (c : Nat) (p : Option Nat) (e : List Nat) : (s.notifyEvent c p e).logs = s.logs := (congrArg State.logs (s.notifyEvent_frame c p e) :)
@[simp] theorem State.notifyEvent_res (s : State) (c : Nat) (p : Option Nat) (e : List Nat) : (s.notifyEvent c p e).res = s.res := (congrArg State.res (s.notifyEvent_frame c p e) :)
@[simp] theorem State.notifyEvent_sec (s : State) (c : Nat) (p : Option Nat) (e : List Nat) : (s.notifyEvent c p e).sec = s.sec := (congrArg State.sec (s.notifyEvent_frame c p e) :)
@[simp] theorem State.notifyEvent_pow (s : State) (c : Nat) (p : Option Nat) (e : List Nat) : (s.notifyEvent c p e).pow = s.pow := (congrArg State.pow (s.notifyEvent_frame c p e) :)
@[simp] theorem State.notifyEvent_host (s : State) (c : Nat) (p : Option Nat) (e : List Nat) : (s.notifyEvent c p e).host = s.host := (congrArg State.host (s.notifyEvent_frame c p e) :)
@[simp] theorem State.notifyEvent_boot (s : State) (c : Nat) (p : Option Nat) (e : List Nat) : (s.notifyEvent c p e).boot = s.boot := (congrArg State.boot (s.notifyEvent_frame c p e) :)
@[simp] theorem State.notifyEvent_pins (s : State) (c : Nat) (p : Option Nat) (e : List Nat) : (s.notifyEvent c p e).pins = s.pins := (congrArg State.pins (s.notifyEvent_frame c p e) :)

theorem State.eventN_frame (s : State) (c n : Nat) (tell : Bool) (w : EvWho) (d : List EvField) :
    { s.eventN c n tell w d with
      od := s.od
      w1cAt := s.w1cAt
      logs := s.logs
      aoap := s.aoap
      out := s.out } = s := by
  unfold State.eventN
  extract_lets g k count s1 ent key log s2 u
  cases tell
  · rfl
  · apply State.eq_of_fields <;> simp [u, s2, s1]

@[simp] theorem State.eventN_pending (s : State) (c n : Nat) (tell : Bool) (w : EvWho) (d : List EvField) : (s.eventN c n tell w d).pending = s.pending := (congrArg State.pending (s.eventN_frame c n tell w d) :)
@[simp] theorem State.eventN_now (s : State) (c n : Nat) (tell : Bool) (w : EvWho) (d : List EvField) : (s.eventN c n tell w d).now = s.now := (congrArg State.now (s.eventN_frame c n tell w d) :)
@[simp] theorem State.eventN_freeCtr (s : State) (c n : Nat) (tell : Bool) (w : EvWho) (d : List EvField) : (s.eventN c n tell w d).freeCtr = s.freeCtr := (congrArg State.freeCtr (s.eventN_frame c n tell w d) :)
@[simp] theorem State.eventN_ans (s : State) (c n : Nat) (tell : Bool) (w : EvWho) (d : List EvField) : (s.eventN c n tell w d).ans = s.ans := (congrArg State.ans (s.eventN_frame c n tell w d) :)
@[simp] theorem State.eventN_cfg (s : State) (c n : Nat) (tell : Bool) (w : EvWho) (d : List EvField) : (s.eventN c n tell w d).cfg = s.cfg := (congrArg State.cfg (s.eventN_frame c n tell w d) :)
@[simp] theorem State.eventN_cad (s : State) (c n : Nat) (tell : Bool) (w : EvWho) (d : List EvField) : (s.eventN c n tell w d).cad = s.cad := (congrArg State.cad (s.eventN_frame c n tell w d) :)
@[simp] theorem State.eventN_parts (s : State) (c n : Nat) (tell : Bool) (w : EvWho) (d : List EvField) : (s.eventN c n tell w d).parts = s.parts := (congrArg State.parts (s.eventN_frame c n tell w d) :)
@[simp] theorem State.eventN_flyers (s : State) (c n : Nat) (tell : Bool) (w : EvWho) (d : List EvField) : (s.eventN c n tell w d).flyers = s.flyers := (congrArg State.flyers (s.eventN_frame c n tell w d) :)
@[simp] theorem State.eventN_stations (s : State) (c n : Nat) (tell : Bool) (w : EvWho) (d : List EvField) : (s.eventN c n tell w d).stations = s.stations := (congrArg State.stations (s.eventN_frame c n tell w d) :)
@[simp] theorem State.eventN_wire (s : State) (c n : Nat) (tell : Bool) (w : EvWho) (d : List EvField) : (s.eventN c n tell w d).wire = s.wire := (congrArg State.wire (s.eventN_frame c n tell w d) :)
@[simp] theorem State.eventN_stats (s : State) (c n : Nat) (tell : Bool) (w : EvWho) (d : List EvField) : (s.eventN c n tell w d).stats = s.stats := (congrArg State.stats (s.eventN_frame c n tell w d) :)
@[simp] theorem State.eventN_whorls (s : State) (c n : Nat) (tell : Bool) (w : EvWho) (d : List EvField) : (s.eventN c n tell w d).whorls = s.whorls := (congrArg State.whorls (s.eventN_frame c n tell w d) :)
@[simp] theorem State.eventN_twists (s : State) (c n : Nat) (tell : Bool) (w : EvWho) (d : List EvField) : (s.eventN c n tell w d).twists = s.twists := (congrArg State.twists (s.eventN_frame c n tell w d) :)
@[simp] theorem State.eventN_harts (s : State) (c n : Nat) (tell : Bool) (w : EvWho) (d : List EvField) : (s.eventN c n tell w d).harts = s.harts := (congrArg State.harts (s.eventN_frame c n tell w d) :)
@[simp] theorem State.eventN_mem (s : State) (c n : Nat) (tell : Bool) (w : EvWho) (d : List EvField) : (s.eventN c n tell w d).mem = s.mem := (congrArg State.mem (s.eventN_frame c n tell w d) :)
@[simp] theorem State.eventN_lines (s : State) (c n : Nat) (tell : Bool) (w : EvWho) (d : List EvField) : (s.eventN c n tell w d).lines = s.lines := (congrArg State.lines (s.eventN_frame c n tell w d) :)
@[simp] theorem State.eventN_sramErr (s : State) (c n : Nat) (tell : Bool) (w : EvWho) (d : List EvField) : (s.eventN c n tell w d).sramErr = s.sramErr := (congrArg State.sramErr (s.eventN_frame c n tell w d) :)
@[simp] theorem State.eventN_channels (s : State) (c n : Nat) (tell : Bool) (w : EvWho) (d : List EvField) : (s.eventN c n tell w d).channels = s.channels := (congrArg State.channels (s.eventN_frame c n tell w d) :)
@[simp] theorem State.eventN_stackSt (s : State) (c n : Nat) (tell : Bool) (w : EvWho) (d : List EvField) : (s.eventN c n tell w d).stackSt = s.stackSt := (congrArg State.stackSt (s.eventN_frame c n tell w d) :)
@[simp] theorem State.eventN_banks (s : State) (c n : Nat) (tell : Bool) (w : EvWho) (d : List EvField) : (s.eventN c n tell w d).banks = s.banks := (congrArg State.banks (s.eventN_frame c n tell w d) :)
@[simp] theorem State.eventN_gens (s : State) (c n : Nat) (tell : Bool) (w : EvWho) (d : List EvField) : (s.eventN c n tell w d).gens = s.gens := (congrArg State.gens (s.eventN_frame c n tell w d) :)
@[simp] theorem State.eventN_ports (s : State) (c n : Nat) (tell : Bool) (w : EvWho) (d : List EvField) : (s.eventN c n tell w d).ports = s.ports := (congrArg State.ports (s.eventN_frame c n tell w d) :)
@[simp] theorem State.eventN_fab (s : State) (c n : Nat) (tell : Bool) (w : EvWho) (d : List EvField) : (s.eventN c n tell w d).fab = s.fab := (congrArg State.fab (s.eventN_frame c n tell w d) :)
@[simp] theorem State.eventN_coll (s : State) (c n : Nat) (tell : Bool) (w : EvWho) (d : List EvField) : (s.eventN c n tell w d).coll = s.coll := (congrArg State.coll (s.eventN_frame c n tell w d) :)
@[simp] theorem State.eventN_arb (s : State) (c n : Nat) (tell : Bool) (w : EvWho) (d : List EvField) : (s.eventN c n tell w d).arb = s.arb := (congrArg State.arb (s.eventN_frame c n tell w d) :)
@[simp] theorem State.eventN_entryWaits (s : State) (c n : Nat) (tell : Bool) (w : EvWho) (d : List EvField) : (s.eventN c n tell w d).entryWaits = s.entryWaits := (congrArg State.entryWaits (s.eventN_frame c n tell w d) :)
@[simp] theorem State.eventN_reels (s : State) (c n : Nat) (tell : Bool) (w : EvWho) (d : List EvField) : (s.eventN c n tell w d).reels = s.reels := (congrArg State.reels (s.eventN_frame c n tell w d) :)
@[simp] theorem State.eventN_res (s : State) (c n : Nat) (tell : Bool) (w : EvWho) (d : List EvField) : (s.eventN c n tell w d).res = s.res := (congrArg State.res (s.eventN_frame c n tell w d) :)
@[simp] theorem State.eventN_sec (s : State) (c n : Nat) (tell : Bool) (w : EvWho) (d : List EvField) : (s.eventN c n tell w d).sec = s.sec := (congrArg State.sec (s.eventN_frame c n tell w d) :)
@[simp] theorem State.eventN_pow (s : State) (c n : Nat) (tell : Bool) (w : EvWho) (d : List EvField) : (s.eventN c n tell w d).pow = s.pow := (congrArg State.pow (s.eventN_frame c n tell w d) :)
@[simp] theorem State.eventN_host (s : State) (c n : Nat) (tell : Bool) (w : EvWho) (d : List EvField) : (s.eventN c n tell w d).host = s.host := (congrArg State.host (s.eventN_frame c n tell w d) :)
@[simp] theorem State.eventN_boot (s : State) (c n : Nat) (tell : Bool) (w : EvWho) (d : List EvField) : (s.eventN c n tell w d).boot = s.boot := (congrArg State.boot (s.eventN_frame c n tell w d) :)
@[simp] theorem State.eventN_pins (s : State) (c n : Nat) (tell : Bool) (w : EvWho) (d : List EvField) : (s.eventN c n tell w d).pins = s.pins := (congrArg State.pins (s.eventN_frame c n tell w d) :)

theorem State.event_frame (s : State) (c : Nat) (w : EvWho) (d : List EvField) :
    { s.event c w d with
      od := s.od
      w1cAt := s.w1cAt
      logs := s.logs
      aoap := s.aoap
      out := s.out } = s := by
  exact s.eventN_frame c 1 true w d

@[simp] theorem State.event_pending (s : State) (c : Nat) (w : EvWho) (d : List EvField) : (s.event c w d).pending = s.pending := (congrArg State.pending (s.event_frame c w d) :)
@[simp] theorem State.event_now (s : State) (c : Nat) (w : EvWho) (d : List EvField) : (s.event c w d).now = s.now := (congrArg State.now (s.event_frame c w d) :)
@[simp] theorem State.event_freeCtr (s : State) (c : Nat) (w : EvWho) (d : List EvField) : (s.event c w d).freeCtr = s.freeCtr := (congrArg State.freeCtr (s.event_frame c w d) :)
@[simp] theorem State.event_ans (s : State) (c : Nat) (w : EvWho) (d : List EvField) : (s.event c w d).ans = s.ans := (congrArg State.ans (s.event_frame c w d) :)
@[simp] theorem State.event_cfg (s : State) (c : Nat) (w : EvWho) (d : List EvField) : (s.event c w d).cfg = s.cfg := (congrArg State.cfg (s.event_frame c w d) :)
@[simp] theorem State.event_cad (s : State) (c : Nat) (w : EvWho) (d : List EvField) : (s.event c w d).cad = s.cad := (congrArg State.cad (s.event_frame c w d) :)
@[simp] theorem State.event_parts (s : State) (c : Nat) (w : EvWho) (d : List EvField) : (s.event c w d).parts = s.parts := (congrArg State.parts (s.event_frame c w d) :)
@[simp] theorem State.event_flyers (s : State) (c : Nat) (w : EvWho) (d : List EvField) : (s.event c w d).flyers = s.flyers := (congrArg State.flyers (s.event_frame c w d) :)
@[simp] theorem State.event_stations (s : State) (c : Nat) (w : EvWho) (d : List EvField) : (s.event c w d).stations = s.stations := (congrArg State.stations (s.event_frame c w d) :)
@[simp] theorem State.event_wire (s : State) (c : Nat) (w : EvWho) (d : List EvField) : (s.event c w d).wire = s.wire := (congrArg State.wire (s.event_frame c w d) :)
@[simp] theorem State.event_stats (s : State) (c : Nat) (w : EvWho) (d : List EvField) : (s.event c w d).stats = s.stats := (congrArg State.stats (s.event_frame c w d) :)
@[simp] theorem State.event_whorls (s : State) (c : Nat) (w : EvWho) (d : List EvField) : (s.event c w d).whorls = s.whorls := (congrArg State.whorls (s.event_frame c w d) :)
@[simp] theorem State.event_twists (s : State) (c : Nat) (w : EvWho) (d : List EvField) : (s.event c w d).twists = s.twists := (congrArg State.twists (s.event_frame c w d) :)
@[simp] theorem State.event_harts (s : State) (c : Nat) (w : EvWho) (d : List EvField) : (s.event c w d).harts = s.harts := (congrArg State.harts (s.event_frame c w d) :)
@[simp] theorem State.event_mem (s : State) (c : Nat) (w : EvWho) (d : List EvField) : (s.event c w d).mem = s.mem := (congrArg State.mem (s.event_frame c w d) :)
@[simp] theorem State.event_lines (s : State) (c : Nat) (w : EvWho) (d : List EvField) : (s.event c w d).lines = s.lines := (congrArg State.lines (s.event_frame c w d) :)
@[simp] theorem State.event_sramErr (s : State) (c : Nat) (w : EvWho) (d : List EvField) : (s.event c w d).sramErr = s.sramErr := (congrArg State.sramErr (s.event_frame c w d) :)
@[simp] theorem State.event_channels (s : State) (c : Nat) (w : EvWho) (d : List EvField) : (s.event c w d).channels = s.channels := (congrArg State.channels (s.event_frame c w d) :)
@[simp] theorem State.event_stackSt (s : State) (c : Nat) (w : EvWho) (d : List EvField) : (s.event c w d).stackSt = s.stackSt := (congrArg State.stackSt (s.event_frame c w d) :)
@[simp] theorem State.event_banks (s : State) (c : Nat) (w : EvWho) (d : List EvField) : (s.event c w d).banks = s.banks := (congrArg State.banks (s.event_frame c w d) :)
@[simp] theorem State.event_gens (s : State) (c : Nat) (w : EvWho) (d : List EvField) : (s.event c w d).gens = s.gens := (congrArg State.gens (s.event_frame c w d) :)
@[simp] theorem State.event_ports (s : State) (c : Nat) (w : EvWho) (d : List EvField) : (s.event c w d).ports = s.ports := (congrArg State.ports (s.event_frame c w d) :)
@[simp] theorem State.event_fab (s : State) (c : Nat) (w : EvWho) (d : List EvField) : (s.event c w d).fab = s.fab := (congrArg State.fab (s.event_frame c w d) :)
@[simp] theorem State.event_coll (s : State) (c : Nat) (w : EvWho) (d : List EvField) : (s.event c w d).coll = s.coll := (congrArg State.coll (s.event_frame c w d) :)
@[simp] theorem State.event_arb (s : State) (c : Nat) (w : EvWho) (d : List EvField) : (s.event c w d).arb = s.arb := (congrArg State.arb (s.event_frame c w d) :)
@[simp] theorem State.event_entryWaits (s : State) (c : Nat) (w : EvWho) (d : List EvField) : (s.event c w d).entryWaits = s.entryWaits := (congrArg State.entryWaits (s.event_frame c w d) :)
@[simp] theorem State.event_reels (s : State) (c : Nat) (w : EvWho) (d : List EvField) : (s.event c w d).reels = s.reels := (congrArg State.reels (s.event_frame c w d) :)
@[simp] theorem State.event_res (s : State) (c : Nat) (w : EvWho) (d : List EvField) : (s.event c w d).res = s.res := (congrArg State.res (s.event_frame c w d) :)
@[simp] theorem State.event_sec (s : State) (c : Nat) (w : EvWho) (d : List EvField) : (s.event c w d).sec = s.sec := (congrArg State.sec (s.event_frame c w d) :)
@[simp] theorem State.event_pow (s : State) (c : Nat) (w : EvWho) (d : List EvField) : (s.event c w d).pow = s.pow := (congrArg State.pow (s.event_frame c w d) :)
@[simp] theorem State.event_host (s : State) (c : Nat) (w : EvWho) (d : List EvField) : (s.event c w d).host = s.host := (congrArg State.host (s.event_frame c w d) :)
@[simp] theorem State.event_boot (s : State) (c : Nat) (w : EvWho) (d : List EvField) : (s.event c w d).boot = s.boot := (congrArg State.boot (s.event_frame c w d) :)
@[simp] theorem State.event_pins (s : State) (c : Nat) (w : EvWho) (d : List EvField) : (s.event c w d).pins = s.pins := (congrArg State.pins (s.event_frame c w d) :)

theorem State.dramBad_frame (s : State) (d : Nat) (p : Option Nat) (x : List EvField) :
    { s.dramBad d p x with
      od := s.od
      w1cAt := s.w1cAt
      logs := s.logs
      aoap := s.aoap
      out := s.out } = s := by
  unfold State.dramBad
  try dsimp only
  repeat' split
  all_goals first | rfl | (apply State.eq_of_fields <;> simp)

@[simp] theorem State.dramBad_pending (s : State) (d : Nat) (p : Option Nat) (x : List EvField) : (s.dramBad d p x).pending = s.pending := (congrArg State.pending (s.dramBad_frame d p x) :)
@[simp] theorem State.dramBad_now (s : State) (d : Nat) (p : Option Nat) (x : List EvField) : (s.dramBad d p x).now = s.now := (congrArg State.now (s.dramBad_frame d p x) :)
@[simp] theorem State.dramBad_freeCtr (s : State) (d : Nat) (p : Option Nat) (x : List EvField) : (s.dramBad d p x).freeCtr = s.freeCtr := (congrArg State.freeCtr (s.dramBad_frame d p x) :)
@[simp] theorem State.dramBad_ans (s : State) (d : Nat) (p : Option Nat) (x : List EvField) : (s.dramBad d p x).ans = s.ans := (congrArg State.ans (s.dramBad_frame d p x) :)
@[simp] theorem State.dramBad_cfg (s : State) (d : Nat) (p : Option Nat) (x : List EvField) : (s.dramBad d p x).cfg = s.cfg := (congrArg State.cfg (s.dramBad_frame d p x) :)
@[simp] theorem State.dramBad_cad (s : State) (d : Nat) (p : Option Nat) (x : List EvField) : (s.dramBad d p x).cad = s.cad := (congrArg State.cad (s.dramBad_frame d p x) :)
@[simp] theorem State.dramBad_parts (s : State) (d : Nat) (p : Option Nat) (x : List EvField) : (s.dramBad d p x).parts = s.parts := (congrArg State.parts (s.dramBad_frame d p x) :)
@[simp] theorem State.dramBad_flyers (s : State) (d : Nat) (p : Option Nat) (x : List EvField) : (s.dramBad d p x).flyers = s.flyers := (congrArg State.flyers (s.dramBad_frame d p x) :)
@[simp] theorem State.dramBad_stations (s : State) (d : Nat) (p : Option Nat) (x : List EvField) : (s.dramBad d p x).stations = s.stations := (congrArg State.stations (s.dramBad_frame d p x) :)
@[simp] theorem State.dramBad_wire (s : State) (d : Nat) (p : Option Nat) (x : List EvField) : (s.dramBad d p x).wire = s.wire := (congrArg State.wire (s.dramBad_frame d p x) :)
@[simp] theorem State.dramBad_stats (s : State) (d : Nat) (p : Option Nat) (x : List EvField) : (s.dramBad d p x).stats = s.stats := (congrArg State.stats (s.dramBad_frame d p x) :)
@[simp] theorem State.dramBad_whorls (s : State) (d : Nat) (p : Option Nat) (x : List EvField) : (s.dramBad d p x).whorls = s.whorls := (congrArg State.whorls (s.dramBad_frame d p x) :)
@[simp] theorem State.dramBad_twists (s : State) (d : Nat) (p : Option Nat) (x : List EvField) : (s.dramBad d p x).twists = s.twists := (congrArg State.twists (s.dramBad_frame d p x) :)
@[simp] theorem State.dramBad_harts (s : State) (d : Nat) (p : Option Nat) (x : List EvField) : (s.dramBad d p x).harts = s.harts := (congrArg State.harts (s.dramBad_frame d p x) :)
@[simp] theorem State.dramBad_mem (s : State) (d : Nat) (p : Option Nat) (x : List EvField) : (s.dramBad d p x).mem = s.mem := (congrArg State.mem (s.dramBad_frame d p x) :)
@[simp] theorem State.dramBad_lines (s : State) (d : Nat) (p : Option Nat) (x : List EvField) : (s.dramBad d p x).lines = s.lines := (congrArg State.lines (s.dramBad_frame d p x) :)
@[simp] theorem State.dramBad_sramErr (s : State) (d : Nat) (p : Option Nat) (x : List EvField) : (s.dramBad d p x).sramErr = s.sramErr := (congrArg State.sramErr (s.dramBad_frame d p x) :)
@[simp] theorem State.dramBad_channels (s : State) (d : Nat) (p : Option Nat) (x : List EvField) : (s.dramBad d p x).channels = s.channels := (congrArg State.channels (s.dramBad_frame d p x) :)
@[simp] theorem State.dramBad_stackSt (s : State) (d : Nat) (p : Option Nat) (x : List EvField) : (s.dramBad d p x).stackSt = s.stackSt := (congrArg State.stackSt (s.dramBad_frame d p x) :)
@[simp] theorem State.dramBad_banks (s : State) (d : Nat) (p : Option Nat) (x : List EvField) : (s.dramBad d p x).banks = s.banks := (congrArg State.banks (s.dramBad_frame d p x) :)
@[simp] theorem State.dramBad_gens (s : State) (d : Nat) (p : Option Nat) (x : List EvField) : (s.dramBad d p x).gens = s.gens := (congrArg State.gens (s.dramBad_frame d p x) :)
@[simp] theorem State.dramBad_ports (s : State) (d : Nat) (p : Option Nat) (x : List EvField) : (s.dramBad d p x).ports = s.ports := (congrArg State.ports (s.dramBad_frame d p x) :)
@[simp] theorem State.dramBad_fab (s : State) (d : Nat) (p : Option Nat) (x : List EvField) : (s.dramBad d p x).fab = s.fab := (congrArg State.fab (s.dramBad_frame d p x) :)
@[simp] theorem State.dramBad_coll (s : State) (d : Nat) (p : Option Nat) (x : List EvField) : (s.dramBad d p x).coll = s.coll := (congrArg State.coll (s.dramBad_frame d p x) :)
@[simp] theorem State.dramBad_arb (s : State) (d : Nat) (p : Option Nat) (x : List EvField) : (s.dramBad d p x).arb = s.arb := (congrArg State.arb (s.dramBad_frame d p x) :)
@[simp] theorem State.dramBad_entryWaits (s : State) (d : Nat) (p : Option Nat) (x : List EvField) : (s.dramBad d p x).entryWaits = s.entryWaits := (congrArg State.entryWaits (s.dramBad_frame d p x) :)
@[simp] theorem State.dramBad_reels (s : State) (d : Nat) (p : Option Nat) (x : List EvField) : (s.dramBad d p x).reels = s.reels := (congrArg State.reels (s.dramBad_frame d p x) :)
@[simp] theorem State.dramBad_res (s : State) (d : Nat) (p : Option Nat) (x : List EvField) : (s.dramBad d p x).res = s.res := (congrArg State.res (s.dramBad_frame d p x) :)
@[simp] theorem State.dramBad_sec (s : State) (d : Nat) (p : Option Nat) (x : List EvField) : (s.dramBad d p x).sec = s.sec := (congrArg State.sec (s.dramBad_frame d p x) :)
@[simp] theorem State.dramBad_pow (s : State) (d : Nat) (p : Option Nat) (x : List EvField) : (s.dramBad d p x).pow = s.pow := (congrArg State.pow (s.dramBad_frame d p x) :)
@[simp] theorem State.dramBad_host (s : State) (d : Nat) (p : Option Nat) (x : List EvField) : (s.dramBad d p x).host = s.host := (congrArg State.host (s.dramBad_frame d p x) :)
@[simp] theorem State.dramBad_boot (s : State) (d : Nat) (p : Option Nat) (x : List EvField) : (s.dramBad d p x).boot = s.boot := (congrArg State.boot (s.dramBad_frame d p x) :)
@[simp] theorem State.dramBad_pins (s : State) (d : Nat) (p : Option Nat) (x : List EvField) : (s.dramBad d p x).pins = s.pins := (congrArg State.pins (s.dramBad_frame d p x) :)

theorem State.putMem_frame (s : State) (k : Nat) (l : List Byte) :
    { s.putMem k l with
      mem := s.mem
      lines := s.lines
      sramErr := s.sramErr } = s := by
  unfold State.putMem
  try dsimp only
  repeat' split
  all_goals first | rfl | (apply State.eq_of_fields <;> simp)

@[simp] theorem State.putMem_pending (s : State) (k : Nat) (l : List Byte) : (s.putMem k l).pending = s.pending := (congrArg State.pending (s.putMem_frame k l) :)
@[simp] theorem State.putMem_now (s : State) (k : Nat) (l : List Byte) : (s.putMem k l).now = s.now := (congrArg State.now (s.putMem_frame k l) :)
@[simp] theorem State.putMem_freeCtr (s : State) (k : Nat) (l : List Byte) : (s.putMem k l).freeCtr = s.freeCtr := (congrArg State.freeCtr (s.putMem_frame k l) :)
@[simp] theorem State.putMem_ans (s : State) (k : Nat) (l : List Byte) : (s.putMem k l).ans = s.ans := (congrArg State.ans (s.putMem_frame k l) :)
@[simp] theorem State.putMem_out (s : State) (k : Nat) (l : List Byte) : (s.putMem k l).out = s.out := (congrArg State.out (s.putMem_frame k l) :)
@[simp] theorem State.putMem_cfg (s : State) (k : Nat) (l : List Byte) : (s.putMem k l).cfg = s.cfg := (congrArg State.cfg (s.putMem_frame k l) :)
@[simp] theorem State.putMem_od (s : State) (k : Nat) (l : List Byte) : (s.putMem k l).od = s.od := (congrArg State.od (s.putMem_frame k l) :)
@[simp] theorem State.putMem_cad (s : State) (k : Nat) (l : List Byte) : (s.putMem k l).cad = s.cad := (congrArg State.cad (s.putMem_frame k l) :)
@[simp] theorem State.putMem_parts (s : State) (k : Nat) (l : List Byte) : (s.putMem k l).parts = s.parts := (congrArg State.parts (s.putMem_frame k l) :)
@[simp] theorem State.putMem_flyers (s : State) (k : Nat) (l : List Byte) : (s.putMem k l).flyers = s.flyers := (congrArg State.flyers (s.putMem_frame k l) :)
@[simp] theorem State.putMem_stations (s : State) (k : Nat) (l : List Byte) : (s.putMem k l).stations = s.stations := (congrArg State.stations (s.putMem_frame k l) :)
@[simp] theorem State.putMem_wire (s : State) (k : Nat) (l : List Byte) : (s.putMem k l).wire = s.wire := (congrArg State.wire (s.putMem_frame k l) :)
@[simp] theorem State.putMem_stats (s : State) (k : Nat) (l : List Byte) : (s.putMem k l).stats = s.stats := (congrArg State.stats (s.putMem_frame k l) :)
@[simp] theorem State.putMem_whorls (s : State) (k : Nat) (l : List Byte) : (s.putMem k l).whorls = s.whorls := (congrArg State.whorls (s.putMem_frame k l) :)
@[simp] theorem State.putMem_twists (s : State) (k : Nat) (l : List Byte) : (s.putMem k l).twists = s.twists := (congrArg State.twists (s.putMem_frame k l) :)
@[simp] theorem State.putMem_harts (s : State) (k : Nat) (l : List Byte) : (s.putMem k l).harts = s.harts := (congrArg State.harts (s.putMem_frame k l) :)
@[simp] theorem State.putMem_channels (s : State) (k : Nat) (l : List Byte) : (s.putMem k l).channels = s.channels := (congrArg State.channels (s.putMem_frame k l) :)
@[simp] theorem State.putMem_stackSt (s : State) (k : Nat) (l : List Byte) : (s.putMem k l).stackSt = s.stackSt := (congrArg State.stackSt (s.putMem_frame k l) :)
@[simp] theorem State.putMem_banks (s : State) (k : Nat) (l : List Byte) : (s.putMem k l).banks = s.banks := (congrArg State.banks (s.putMem_frame k l) :)
@[simp] theorem State.putMem_gens (s : State) (k : Nat) (l : List Byte) : (s.putMem k l).gens = s.gens := (congrArg State.gens (s.putMem_frame k l) :)
@[simp] theorem State.putMem_ports (s : State) (k : Nat) (l : List Byte) : (s.putMem k l).ports = s.ports := (congrArg State.ports (s.putMem_frame k l) :)
@[simp] theorem State.putMem_fab (s : State) (k : Nat) (l : List Byte) : (s.putMem k l).fab = s.fab := (congrArg State.fab (s.putMem_frame k l) :)
@[simp] theorem State.putMem_coll (s : State) (k : Nat) (l : List Byte) : (s.putMem k l).coll = s.coll := (congrArg State.coll (s.putMem_frame k l) :)
@[simp] theorem State.putMem_arb (s : State) (k : Nat) (l : List Byte) : (s.putMem k l).arb = s.arb := (congrArg State.arb (s.putMem_frame k l) :)
@[simp] theorem State.putMem_entryWaits (s : State) (k : Nat) (l : List Byte) : (s.putMem k l).entryWaits = s.entryWaits := (congrArg State.entryWaits (s.putMem_frame k l) :)
@[simp] theorem State.putMem_w1cAt (s : State) (k : Nat) (l : List Byte) : (s.putMem k l).w1cAt = s.w1cAt := (congrArg State.w1cAt (s.putMem_frame k l) :)
@[simp] theorem State.putMem_reels (s : State) (k : Nat) (l : List Byte) : (s.putMem k l).reels = s.reels := (congrArg State.reels (s.putMem_frame k l) :)
@[simp] theorem State.putMem_logs (s : State) (k : Nat) (l : List Byte) : (s.putMem k l).logs = s.logs := (congrArg State.logs (s.putMem_frame k l) :)
@[simp] theorem State.putMem_res (s : State) (k : Nat) (l : List Byte) : (s.putMem k l).res = s.res := (congrArg State.res (s.putMem_frame k l) :)
@[simp] theorem State.putMem_sec (s : State) (k : Nat) (l : List Byte) : (s.putMem k l).sec = s.sec := (congrArg State.sec (s.putMem_frame k l) :)
@[simp] theorem State.putMem_aoap (s : State) (k : Nat) (l : List Byte) : (s.putMem k l).aoap = s.aoap := (congrArg State.aoap (s.putMem_frame k l) :)
@[simp] theorem State.putMem_pow (s : State) (k : Nat) (l : List Byte) : (s.putMem k l).pow = s.pow := (congrArg State.pow (s.putMem_frame k l) :)
@[simp] theorem State.putMem_host (s : State) (k : Nat) (l : List Byte) : (s.putMem k l).host = s.host := (congrArg State.host (s.putMem_frame k l) :)
@[simp] theorem State.putMem_boot (s : State) (k : Nat) (l : List Byte) : (s.putMem k l).boot = s.boot := (congrArg State.boot (s.putMem_frame k l) :)
@[simp] theorem State.putMem_pins (s : State) (k : Nat) (l : List Byte) : (s.putMem k l).pins = s.pins := (congrArg State.pins (s.putMem_frame k l) :)

theorem State.putParts_frame (s : State) (k : Nat) (l : List Byte) :
    { s.putParts k l State.putMem with
      od := s.od
      mem := s.mem
      w1cAt := s.w1cAt
      logs := s.logs
      aoap := s.aoap
      out := s.out
      lines := s.lines
      sramErr := s.sramErr } = s := by
  have h := foldl_frame (fun u s : State => { u with
      od := s.od
      w1cAt := s.w1cAt
      logs := s.logs
      aoap := s.aoap
      out := s.out })
    (fun a b c h1 h2 => by rw [← h2, ← h1]) (fun _ => rfl) (fun s (_ : Nat) => s.dramBad (keyDie k) none [])
    (fun s _ => s.dramBad_frame _ none []) (s.partBad k l.length) s
  unfold State.putParts
  dsimp only at h ⊢
  generalize List.foldl _ s (s.partBad k l.length) = v at h ⊢
  generalize List.drop _ (List.take _ l) = body
  by_cases hb : body.isEmpty = true
  · simp only [if_pos hb]
    apply State.eq_of_fields <;> first | rfl | exact (congrArg _ h :) | (dsimp only; rw [← h])
  · simp only [if_neg hb]
    apply State.eq_of_fields <;> first | rfl | (simp; rw [← h])

@[simp] theorem State.putParts_pending (s : State) (k : Nat) (l : List Byte) : (s.putParts k l State.putMem).pending = s.pending := (congrArg State.pending (s.putParts_frame k l) :)
@[simp] theorem State.putParts_now (s : State) (k : Nat) (l : List Byte) : (s.putParts k l State.putMem).now = s.now := (congrArg State.now (s.putParts_frame k l) :)
@[simp] theorem State.putParts_freeCtr (s : State) (k : Nat) (l : List Byte) : (s.putParts k l State.putMem).freeCtr = s.freeCtr := (congrArg State.freeCtr (s.putParts_frame k l) :)
@[simp] theorem State.putParts_ans (s : State) (k : Nat) (l : List Byte) : (s.putParts k l State.putMem).ans = s.ans := (congrArg State.ans (s.putParts_frame k l) :)
@[simp] theorem State.putParts_cfg (s : State) (k : Nat) (l : List Byte) : (s.putParts k l State.putMem).cfg = s.cfg := (congrArg State.cfg (s.putParts_frame k l) :)
@[simp] theorem State.putParts_cad (s : State) (k : Nat) (l : List Byte) : (s.putParts k l State.putMem).cad = s.cad := (congrArg State.cad (s.putParts_frame k l) :)
@[simp] theorem State.putParts_parts (s : State) (k : Nat) (l : List Byte) : (s.putParts k l State.putMem).parts = s.parts := (congrArg State.parts (s.putParts_frame k l) :)
@[simp] theorem State.putParts_flyers (s : State) (k : Nat) (l : List Byte) : (s.putParts k l State.putMem).flyers = s.flyers := (congrArg State.flyers (s.putParts_frame k l) :)
@[simp] theorem State.putParts_stations (s : State) (k : Nat) (l : List Byte) : (s.putParts k l State.putMem).stations = s.stations := (congrArg State.stations (s.putParts_frame k l) :)
@[simp] theorem State.putParts_wire (s : State) (k : Nat) (l : List Byte) : (s.putParts k l State.putMem).wire = s.wire := (congrArg State.wire (s.putParts_frame k l) :)
@[simp] theorem State.putParts_stats (s : State) (k : Nat) (l : List Byte) : (s.putParts k l State.putMem).stats = s.stats := (congrArg State.stats (s.putParts_frame k l) :)
@[simp] theorem State.putParts_whorls (s : State) (k : Nat) (l : List Byte) : (s.putParts k l State.putMem).whorls = s.whorls := (congrArg State.whorls (s.putParts_frame k l) :)
@[simp] theorem State.putParts_twists (s : State) (k : Nat) (l : List Byte) : (s.putParts k l State.putMem).twists = s.twists := (congrArg State.twists (s.putParts_frame k l) :)
@[simp] theorem State.putParts_harts (s : State) (k : Nat) (l : List Byte) : (s.putParts k l State.putMem).harts = s.harts := (congrArg State.harts (s.putParts_frame k l) :)
@[simp] theorem State.putParts_channels (s : State) (k : Nat) (l : List Byte) : (s.putParts k l State.putMem).channels = s.channels := (congrArg State.channels (s.putParts_frame k l) :)
@[simp] theorem State.putParts_stackSt (s : State) (k : Nat) (l : List Byte) : (s.putParts k l State.putMem).stackSt = s.stackSt := (congrArg State.stackSt (s.putParts_frame k l) :)
@[simp] theorem State.putParts_banks (s : State) (k : Nat) (l : List Byte) : (s.putParts k l State.putMem).banks = s.banks := (congrArg State.banks (s.putParts_frame k l) :)
@[simp] theorem State.putParts_gens (s : State) (k : Nat) (l : List Byte) : (s.putParts k l State.putMem).gens = s.gens := (congrArg State.gens (s.putParts_frame k l) :)
@[simp] theorem State.putParts_ports (s : State) (k : Nat) (l : List Byte) : (s.putParts k l State.putMem).ports = s.ports := (congrArg State.ports (s.putParts_frame k l) :)
@[simp] theorem State.putParts_fab (s : State) (k : Nat) (l : List Byte) : (s.putParts k l State.putMem).fab = s.fab := (congrArg State.fab (s.putParts_frame k l) :)
@[simp] theorem State.putParts_coll (s : State) (k : Nat) (l : List Byte) : (s.putParts k l State.putMem).coll = s.coll := (congrArg State.coll (s.putParts_frame k l) :)
@[simp] theorem State.putParts_arb (s : State) (k : Nat) (l : List Byte) : (s.putParts k l State.putMem).arb = s.arb := (congrArg State.arb (s.putParts_frame k l) :)
@[simp] theorem State.putParts_entryWaits (s : State) (k : Nat) (l : List Byte) : (s.putParts k l State.putMem).entryWaits = s.entryWaits := (congrArg State.entryWaits (s.putParts_frame k l) :)
@[simp] theorem State.putParts_reels (s : State) (k : Nat) (l : List Byte) : (s.putParts k l State.putMem).reels = s.reels := (congrArg State.reels (s.putParts_frame k l) :)
@[simp] theorem State.putParts_res (s : State) (k : Nat) (l : List Byte) : (s.putParts k l State.putMem).res = s.res := (congrArg State.res (s.putParts_frame k l) :)
@[simp] theorem State.putParts_sec (s : State) (k : Nat) (l : List Byte) : (s.putParts k l State.putMem).sec = s.sec := (congrArg State.sec (s.putParts_frame k l) :)
@[simp] theorem State.putParts_pow (s : State) (k : Nat) (l : List Byte) : (s.putParts k l State.putMem).pow = s.pow := (congrArg State.pow (s.putParts_frame k l) :)
@[simp] theorem State.putParts_host (s : State) (k : Nat) (l : List Byte) : (s.putParts k l State.putMem).host = s.host := (congrArg State.host (s.putParts_frame k l) :)
@[simp] theorem State.putParts_boot (s : State) (k : Nat) (l : List Byte) : (s.putParts k l State.putMem).boot = s.boot := (congrArg State.boot (s.putParts_frame k l) :)
@[simp] theorem State.putParts_pins (s : State) (k : Nat) (l : List Byte) : (s.putParts k l State.putMem).pins = s.pins := (congrArg State.pins (s.putParts_frame k l) :)

theorem State.reelStore_frame (s : State) (p : Nat) (r : Reel) (o : Nat) (l : List Byte) :
    { s.reelStore p r o l with
      od := s.od
      mem := s.mem
      w1cAt := s.w1cAt
      logs := s.logs
      aoap := s.aoap
      out := s.out
      lines := s.lines
      sramErr := s.sramErr } = s := by
  unfold State.reelStore
  split
  · exact s.putParts_frame _ l
  · rfl

@[simp] theorem State.reelStore_pending (s : State) (p : Nat) (r : Reel) (o : Nat) (l : List Byte) : (s.reelStore p r o l).pending = s.pending := (congrArg State.pending (s.reelStore_frame p r o l) :)
@[simp] theorem State.reelStore_now (s : State) (p : Nat) (r : Reel) (o : Nat) (l : List Byte) : (s.reelStore p r o l).now = s.now := (congrArg State.now (s.reelStore_frame p r o l) :)
@[simp] theorem State.reelStore_freeCtr (s : State) (p : Nat) (r : Reel) (o : Nat) (l : List Byte) : (s.reelStore p r o l).freeCtr = s.freeCtr := (congrArg State.freeCtr (s.reelStore_frame p r o l) :)
@[simp] theorem State.reelStore_ans (s : State) (p : Nat) (r : Reel) (o : Nat) (l : List Byte) : (s.reelStore p r o l).ans = s.ans := (congrArg State.ans (s.reelStore_frame p r o l) :)
@[simp] theorem State.reelStore_cfg (s : State) (p : Nat) (r : Reel) (o : Nat) (l : List Byte) : (s.reelStore p r o l).cfg = s.cfg := (congrArg State.cfg (s.reelStore_frame p r o l) :)
@[simp] theorem State.reelStore_cad (s : State) (p : Nat) (r : Reel) (o : Nat) (l : List Byte) : (s.reelStore p r o l).cad = s.cad := (congrArg State.cad (s.reelStore_frame p r o l) :)
@[simp] theorem State.reelStore_parts (s : State) (p : Nat) (r : Reel) (o : Nat) (l : List Byte) : (s.reelStore p r o l).parts = s.parts := (congrArg State.parts (s.reelStore_frame p r o l) :)
@[simp] theorem State.reelStore_flyers (s : State) (p : Nat) (r : Reel) (o : Nat) (l : List Byte) : (s.reelStore p r o l).flyers = s.flyers := (congrArg State.flyers (s.reelStore_frame p r o l) :)
@[simp] theorem State.reelStore_stations (s : State) (p : Nat) (r : Reel) (o : Nat) (l : List Byte) : (s.reelStore p r o l).stations = s.stations := (congrArg State.stations (s.reelStore_frame p r o l) :)
@[simp] theorem State.reelStore_wire (s : State) (p : Nat) (r : Reel) (o : Nat) (l : List Byte) : (s.reelStore p r o l).wire = s.wire := (congrArg State.wire (s.reelStore_frame p r o l) :)
@[simp] theorem State.reelStore_stats (s : State) (p : Nat) (r : Reel) (o : Nat) (l : List Byte) : (s.reelStore p r o l).stats = s.stats := (congrArg State.stats (s.reelStore_frame p r o l) :)
@[simp] theorem State.reelStore_whorls (s : State) (p : Nat) (r : Reel) (o : Nat) (l : List Byte) : (s.reelStore p r o l).whorls = s.whorls := (congrArg State.whorls (s.reelStore_frame p r o l) :)
@[simp] theorem State.reelStore_twists (s : State) (p : Nat) (r : Reel) (o : Nat) (l : List Byte) : (s.reelStore p r o l).twists = s.twists := (congrArg State.twists (s.reelStore_frame p r o l) :)
@[simp] theorem State.reelStore_harts (s : State) (p : Nat) (r : Reel) (o : Nat) (l : List Byte) : (s.reelStore p r o l).harts = s.harts := (congrArg State.harts (s.reelStore_frame p r o l) :)
@[simp] theorem State.reelStore_channels (s : State) (p : Nat) (r : Reel) (o : Nat) (l : List Byte) : (s.reelStore p r o l).channels = s.channels := (congrArg State.channels (s.reelStore_frame p r o l) :)
@[simp] theorem State.reelStore_stackSt (s : State) (p : Nat) (r : Reel) (o : Nat) (l : List Byte) : (s.reelStore p r o l).stackSt = s.stackSt := (congrArg State.stackSt (s.reelStore_frame p r o l) :)
@[simp] theorem State.reelStore_banks (s : State) (p : Nat) (r : Reel) (o : Nat) (l : List Byte) : (s.reelStore p r o l).banks = s.banks := (congrArg State.banks (s.reelStore_frame p r o l) :)
@[simp] theorem State.reelStore_gens (s : State) (p : Nat) (r : Reel) (o : Nat) (l : List Byte) : (s.reelStore p r o l).gens = s.gens := (congrArg State.gens (s.reelStore_frame p r o l) :)
@[simp] theorem State.reelStore_ports (s : State) (p : Nat) (r : Reel) (o : Nat) (l : List Byte) : (s.reelStore p r o l).ports = s.ports := (congrArg State.ports (s.reelStore_frame p r o l) :)
@[simp] theorem State.reelStore_fab (s : State) (p : Nat) (r : Reel) (o : Nat) (l : List Byte) : (s.reelStore p r o l).fab = s.fab := (congrArg State.fab (s.reelStore_frame p r o l) :)
@[simp] theorem State.reelStore_coll (s : State) (p : Nat) (r : Reel) (o : Nat) (l : List Byte) : (s.reelStore p r o l).coll = s.coll := (congrArg State.coll (s.reelStore_frame p r o l) :)
@[simp] theorem State.reelStore_arb (s : State) (p : Nat) (r : Reel) (o : Nat) (l : List Byte) : (s.reelStore p r o l).arb = s.arb := (congrArg State.arb (s.reelStore_frame p r o l) :)
@[simp] theorem State.reelStore_entryWaits (s : State) (p : Nat) (r : Reel) (o : Nat) (l : List Byte) : (s.reelStore p r o l).entryWaits = s.entryWaits := (congrArg State.entryWaits (s.reelStore_frame p r o l) :)
@[simp] theorem State.reelStore_reels (s : State) (p : Nat) (r : Reel) (o : Nat) (l : List Byte) : (s.reelStore p r o l).reels = s.reels := (congrArg State.reels (s.reelStore_frame p r o l) :)
@[simp] theorem State.reelStore_res (s : State) (p : Nat) (r : Reel) (o : Nat) (l : List Byte) : (s.reelStore p r o l).res = s.res := (congrArg State.res (s.reelStore_frame p r o l) :)
@[simp] theorem State.reelStore_sec (s : State) (p : Nat) (r : Reel) (o : Nat) (l : List Byte) : (s.reelStore p r o l).sec = s.sec := (congrArg State.sec (s.reelStore_frame p r o l) :)
@[simp] theorem State.reelStore_pow (s : State) (p : Nat) (r : Reel) (o : Nat) (l : List Byte) : (s.reelStore p r o l).pow = s.pow := (congrArg State.pow (s.reelStore_frame p r o l) :)
@[simp] theorem State.reelStore_host (s : State) (p : Nat) (r : Reel) (o : Nat) (l : List Byte) : (s.reelStore p r o l).host = s.host := (congrArg State.host (s.reelStore_frame p r o l) :)
@[simp] theorem State.reelStore_boot (s : State) (p : Nat) (r : Reel) (o : Nat) (l : List Byte) : (s.reelStore p r o l).boot = s.boot := (congrArg State.boot (s.reelStore_frame p r o l) :)
@[simp] theorem State.reelStore_pins (s : State) (p : Nat) (r : Reel) (o : Nat) (l : List Byte) : (s.reelStore p r o l).pins = s.pins := (congrArg State.pins (s.reelStore_frame p r o l) :)

theorem State.reelPut_frame (s : State) (p t n : Nat) (l : List Nat) :
    { s.reelPut p t n l with
      od := s.od
      mem := s.mem
      reels := s.reels
      w1cAt := s.w1cAt
      logs := s.logs
      aoap := s.aoap
      out := s.out
      lines := s.lines
      sramErr := s.sramErr } = s := by
  unfold State.reelPut
  extract_lets r w bytes w' kept gone rd lostNow s1 s2 s3 tell s4 u
  have h : ∀ u v : State, ReelOnly s u → ReelOnly u v → ReelOnly s v := fun u v hu hv => by
    unfold ReelOnly at *
    rw [← hu, ← hv]
  have h1 : ReelOnly s s1 := by apply State.eq_of_fields <;> simp [s1]
  have h2 : ReelOnly s s2 := h s1 s2 h1 rfl
  clear_value s1 s2 w' kept lostNow
  have h3 : ReelOnly s s3 := by
    by_cases hl : lostNow = 0
    · simpa only [s3, if_pos hl] using h2
    · simp only [s3, if_neg hl]
      exact h s2 _ h2 (by apply State.eq_of_fields <;> simp)
  have h4 : ReelOnly s s4 := h s3 s4 h3 rfl
  clear_value tell s4
  by_cases ht : tell = true
  · have hu : u = s4.event 0x0C06 (ofPart p) [] := if_pos ht
    clear_value u
    exact h s4 u h4 (by rw [hu]; apply State.eq_of_fields <;> simp)
  · have hu : u = s4 := if_neg ht
    rw [hu]
    exact h4

@[simp] theorem State.reelPut_pending (s : State) (p t n : Nat) (l : List Nat) : (s.reelPut p t n l).pending = s.pending := (congrArg State.pending (s.reelPut_frame p t n l) :)
@[simp] theorem State.reelPut_now (s : State) (p t n : Nat) (l : List Nat) : (s.reelPut p t n l).now = s.now := (congrArg State.now (s.reelPut_frame p t n l) :)
@[simp] theorem State.reelPut_freeCtr (s : State) (p t n : Nat) (l : List Nat) : (s.reelPut p t n l).freeCtr = s.freeCtr := (congrArg State.freeCtr (s.reelPut_frame p t n l) :)
@[simp] theorem State.reelPut_ans (s : State) (p t n : Nat) (l : List Nat) : (s.reelPut p t n l).ans = s.ans := (congrArg State.ans (s.reelPut_frame p t n l) :)
@[simp] theorem State.reelPut_cfg (s : State) (p t n : Nat) (l : List Nat) : (s.reelPut p t n l).cfg = s.cfg := (congrArg State.cfg (s.reelPut_frame p t n l) :)
@[simp] theorem State.reelPut_cad (s : State) (p t n : Nat) (l : List Nat) : (s.reelPut p t n l).cad = s.cad := (congrArg State.cad (s.reelPut_frame p t n l) :)
@[simp] theorem State.reelPut_parts (s : State) (p t n : Nat) (l : List Nat) : (s.reelPut p t n l).parts = s.parts := (congrArg State.parts (s.reelPut_frame p t n l) :)
@[simp] theorem State.reelPut_flyers (s : State) (p t n : Nat) (l : List Nat) : (s.reelPut p t n l).flyers = s.flyers := (congrArg State.flyers (s.reelPut_frame p t n l) :)
@[simp] theorem State.reelPut_stations (s : State) (p t n : Nat) (l : List Nat) : (s.reelPut p t n l).stations = s.stations := (congrArg State.stations (s.reelPut_frame p t n l) :)
@[simp] theorem State.reelPut_wire (s : State) (p t n : Nat) (l : List Nat) : (s.reelPut p t n l).wire = s.wire := (congrArg State.wire (s.reelPut_frame p t n l) :)
@[simp] theorem State.reelPut_stats (s : State) (p t n : Nat) (l : List Nat) : (s.reelPut p t n l).stats = s.stats := (congrArg State.stats (s.reelPut_frame p t n l) :)
@[simp] theorem State.reelPut_whorls (s : State) (p t n : Nat) (l : List Nat) : (s.reelPut p t n l).whorls = s.whorls := (congrArg State.whorls (s.reelPut_frame p t n l) :)
@[simp] theorem State.reelPut_twists (s : State) (p t n : Nat) (l : List Nat) : (s.reelPut p t n l).twists = s.twists := (congrArg State.twists (s.reelPut_frame p t n l) :)
@[simp] theorem State.reelPut_harts (s : State) (p t n : Nat) (l : List Nat) : (s.reelPut p t n l).harts = s.harts := (congrArg State.harts (s.reelPut_frame p t n l) :)
@[simp] theorem State.reelPut_channels (s : State) (p t n : Nat) (l : List Nat) : (s.reelPut p t n l).channels = s.channels := (congrArg State.channels (s.reelPut_frame p t n l) :)
@[simp] theorem State.reelPut_stackSt (s : State) (p t n : Nat) (l : List Nat) : (s.reelPut p t n l).stackSt = s.stackSt := (congrArg State.stackSt (s.reelPut_frame p t n l) :)
@[simp] theorem State.reelPut_banks (s : State) (p t n : Nat) (l : List Nat) : (s.reelPut p t n l).banks = s.banks := (congrArg State.banks (s.reelPut_frame p t n l) :)
@[simp] theorem State.reelPut_gens (s : State) (p t n : Nat) (l : List Nat) : (s.reelPut p t n l).gens = s.gens := (congrArg State.gens (s.reelPut_frame p t n l) :)
@[simp] theorem State.reelPut_ports (s : State) (p t n : Nat) (l : List Nat) : (s.reelPut p t n l).ports = s.ports := (congrArg State.ports (s.reelPut_frame p t n l) :)
@[simp] theorem State.reelPut_fab (s : State) (p t n : Nat) (l : List Nat) : (s.reelPut p t n l).fab = s.fab := (congrArg State.fab (s.reelPut_frame p t n l) :)
@[simp] theorem State.reelPut_coll (s : State) (p t n : Nat) (l : List Nat) : (s.reelPut p t n l).coll = s.coll := (congrArg State.coll (s.reelPut_frame p t n l) :)
@[simp] theorem State.reelPut_arb (s : State) (p t n : Nat) (l : List Nat) : (s.reelPut p t n l).arb = s.arb := (congrArg State.arb (s.reelPut_frame p t n l) :)
@[simp] theorem State.reelPut_entryWaits (s : State) (p t n : Nat) (l : List Nat) : (s.reelPut p t n l).entryWaits = s.entryWaits := (congrArg State.entryWaits (s.reelPut_frame p t n l) :)
@[simp] theorem State.reelPut_res (s : State) (p t n : Nat) (l : List Nat) : (s.reelPut p t n l).res = s.res := (congrArg State.res (s.reelPut_frame p t n l) :)
@[simp] theorem State.reelPut_sec (s : State) (p t n : Nat) (l : List Nat) : (s.reelPut p t n l).sec = s.sec := (congrArg State.sec (s.reelPut_frame p t n l) :)
@[simp] theorem State.reelPut_pow (s : State) (p t n : Nat) (l : List Nat) : (s.reelPut p t n l).pow = s.pow := (congrArg State.pow (s.reelPut_frame p t n l) :)
@[simp] theorem State.reelPut_host (s : State) (p t n : Nat) (l : List Nat) : (s.reelPut p t n l).host = s.host := (congrArg State.host (s.reelPut_frame p t n l) :)
@[simp] theorem State.reelPut_boot (s : State) (p t n : Nat) (l : List Nat) : (s.reelPut p t n l).boot = s.boot := (congrArg State.boot (s.reelPut_frame p t n l) :)
@[simp] theorem State.reelPut_pins (s : State) (p t n : Nat) (l : List Nat) : (s.reelPut p t n l).pins = s.pins := (congrArg State.pins (s.reelPut_frame p t n l) :)

theorem State.reelWrite_frame (s : State) (p t n : Nat) (l : List Nat) :
    { s.reelWrite p t n l with
      od := s.od
      mem := s.mem
      reels := s.reels
      w1cAt := s.w1cAt
      logs := s.logs
      aoap := s.aoap
      out := s.out
      lines := s.lines
      sramErr := s.sramErr } = s := by
  unfold State.reelWrite
  try dsimp only
  repeat' split
  all_goals first | rfl | (apply State.eq_of_fields <;> simp)

@[simp] theorem State.reelWrite_pending (s : State) (p t n : Nat) (l : List Nat) : (s.reelWrite p t n l).pending = s.pending := (congrArg State.pending (s.reelWrite_frame p t n l) :)
@[simp] theorem State.reelWrite_now (s : State) (p t n : Nat) (l : List Nat) : (s.reelWrite p t n l).now = s.now := (congrArg State.now (s.reelWrite_frame p t n l) :)
@[simp] theorem State.reelWrite_freeCtr (s : State) (p t n : Nat) (l : List Nat) : (s.reelWrite p t n l).freeCtr = s.freeCtr := (congrArg State.freeCtr (s.reelWrite_frame p t n l) :)
@[simp] theorem State.reelWrite_ans (s : State) (p t n : Nat) (l : List Nat) : (s.reelWrite p t n l).ans = s.ans := (congrArg State.ans (s.reelWrite_frame p t n l) :)
@[simp] theorem State.reelWrite_cfg (s : State) (p t n : Nat) (l : List Nat) : (s.reelWrite p t n l).cfg = s.cfg := (congrArg State.cfg (s.reelWrite_frame p t n l) :)
@[simp] theorem State.reelWrite_cad (s : State) (p t n : Nat) (l : List Nat) : (s.reelWrite p t n l).cad = s.cad := (congrArg State.cad (s.reelWrite_frame p t n l) :)
@[simp] theorem State.reelWrite_parts (s : State) (p t n : Nat) (l : List Nat) : (s.reelWrite p t n l).parts = s.parts := (congrArg State.parts (s.reelWrite_frame p t n l) :)
@[simp] theorem State.reelWrite_flyers (s : State) (p t n : Nat) (l : List Nat) : (s.reelWrite p t n l).flyers = s.flyers := (congrArg State.flyers (s.reelWrite_frame p t n l) :)
@[simp] theorem State.reelWrite_stations (s : State) (p t n : Nat) (l : List Nat) : (s.reelWrite p t n l).stations = s.stations := (congrArg State.stations (s.reelWrite_frame p t n l) :)
@[simp] theorem State.reelWrite_wire (s : State) (p t n : Nat) (l : List Nat) : (s.reelWrite p t n l).wire = s.wire := (congrArg State.wire (s.reelWrite_frame p t n l) :)
@[simp] theorem State.reelWrite_stats (s : State) (p t n : Nat) (l : List Nat) : (s.reelWrite p t n l).stats = s.stats := (congrArg State.stats (s.reelWrite_frame p t n l) :)
@[simp] theorem State.reelWrite_whorls (s : State) (p t n : Nat) (l : List Nat) : (s.reelWrite p t n l).whorls = s.whorls := (congrArg State.whorls (s.reelWrite_frame p t n l) :)
@[simp] theorem State.reelWrite_twists (s : State) (p t n : Nat) (l : List Nat) : (s.reelWrite p t n l).twists = s.twists := (congrArg State.twists (s.reelWrite_frame p t n l) :)
@[simp] theorem State.reelWrite_harts (s : State) (p t n : Nat) (l : List Nat) : (s.reelWrite p t n l).harts = s.harts := (congrArg State.harts (s.reelWrite_frame p t n l) :)
@[simp] theorem State.reelWrite_channels (s : State) (p t n : Nat) (l : List Nat) : (s.reelWrite p t n l).channels = s.channels := (congrArg State.channels (s.reelWrite_frame p t n l) :)
@[simp] theorem State.reelWrite_stackSt (s : State) (p t n : Nat) (l : List Nat) : (s.reelWrite p t n l).stackSt = s.stackSt := (congrArg State.stackSt (s.reelWrite_frame p t n l) :)
@[simp] theorem State.reelWrite_banks (s : State) (p t n : Nat) (l : List Nat) : (s.reelWrite p t n l).banks = s.banks := (congrArg State.banks (s.reelWrite_frame p t n l) :)
@[simp] theorem State.reelWrite_gens (s : State) (p t n : Nat) (l : List Nat) : (s.reelWrite p t n l).gens = s.gens := (congrArg State.gens (s.reelWrite_frame p t n l) :)
@[simp] theorem State.reelWrite_ports (s : State) (p t n : Nat) (l : List Nat) : (s.reelWrite p t n l).ports = s.ports := (congrArg State.ports (s.reelWrite_frame p t n l) :)
@[simp] theorem State.reelWrite_fab (s : State) (p t n : Nat) (l : List Nat) : (s.reelWrite p t n l).fab = s.fab := (congrArg State.fab (s.reelWrite_frame p t n l) :)
@[simp] theorem State.reelWrite_coll (s : State) (p t n : Nat) (l : List Nat) : (s.reelWrite p t n l).coll = s.coll := (congrArg State.coll (s.reelWrite_frame p t n l) :)
@[simp] theorem State.reelWrite_arb (s : State) (p t n : Nat) (l : List Nat) : (s.reelWrite p t n l).arb = s.arb := (congrArg State.arb (s.reelWrite_frame p t n l) :)
@[simp] theorem State.reelWrite_entryWaits (s : State) (p t n : Nat) (l : List Nat) : (s.reelWrite p t n l).entryWaits = s.entryWaits := (congrArg State.entryWaits (s.reelWrite_frame p t n l) :)
@[simp] theorem State.reelWrite_res (s : State) (p t n : Nat) (l : List Nat) : (s.reelWrite p t n l).res = s.res := (congrArg State.res (s.reelWrite_frame p t n l) :)
@[simp] theorem State.reelWrite_sec (s : State) (p t n : Nat) (l : List Nat) : (s.reelWrite p t n l).sec = s.sec := (congrArg State.sec (s.reelWrite_frame p t n l) :)
@[simp] theorem State.reelWrite_pow (s : State) (p t n : Nat) (l : List Nat) : (s.reelWrite p t n l).pow = s.pow := (congrArg State.pow (s.reelWrite_frame p t n l) :)
@[simp] theorem State.reelWrite_host (s : State) (p t n : Nat) (l : List Nat) : (s.reelWrite p t n l).host = s.host := (congrArg State.host (s.reelWrite_frame p t n l) :)
@[simp] theorem State.reelWrite_boot (s : State) (p t n : Nat) (l : List Nat) : (s.reelWrite p t n l).boot = s.boot := (congrArg State.boot (s.reelWrite_frame p t n l) :)
@[simp] theorem State.reelWrite_pins (s : State) (p t n : Nat) (l : List Nat) : (s.reelWrite p t n l).pins = s.pins := (congrArg State.pins (s.reelWrite_frame p t n l) :)

theorem State.reel_frame (s : State) (p t n : Nat) (l : List Nat) :
    { s.reel p t n l with
      od := s.od
      mem := s.mem
      reels := s.reels
      w1cAt := s.w1cAt
      logs := s.logs
      aoap := s.aoap
      out := s.out
      lines := s.lines
      sramErr := s.sramErr } = s := by
  unfold State.reel
  try dsimp only
  repeat' split
  all_goals first | rfl | (apply State.eq_of_fields <;> simp)

@[simp] theorem State.reel_pending (s : State) (p t n : Nat) (l : List Nat) : (s.reel p t n l).pending = s.pending := (congrArg State.pending (s.reel_frame p t n l) :)
@[simp] theorem State.reel_now (s : State) (p t n : Nat) (l : List Nat) : (s.reel p t n l).now = s.now := (congrArg State.now (s.reel_frame p t n l) :)
@[simp] theorem State.reel_freeCtr (s : State) (p t n : Nat) (l : List Nat) : (s.reel p t n l).freeCtr = s.freeCtr := (congrArg State.freeCtr (s.reel_frame p t n l) :)
@[simp] theorem State.reel_ans (s : State) (p t n : Nat) (l : List Nat) : (s.reel p t n l).ans = s.ans := (congrArg State.ans (s.reel_frame p t n l) :)
@[simp] theorem State.reel_cfg (s : State) (p t n : Nat) (l : List Nat) : (s.reel p t n l).cfg = s.cfg := (congrArg State.cfg (s.reel_frame p t n l) :)
@[simp] theorem State.reel_cad (s : State) (p t n : Nat) (l : List Nat) : (s.reel p t n l).cad = s.cad := (congrArg State.cad (s.reel_frame p t n l) :)
@[simp] theorem State.reel_parts (s : State) (p t n : Nat) (l : List Nat) : (s.reel p t n l).parts = s.parts := (congrArg State.parts (s.reel_frame p t n l) :)
@[simp] theorem State.reel_flyers (s : State) (p t n : Nat) (l : List Nat) : (s.reel p t n l).flyers = s.flyers := (congrArg State.flyers (s.reel_frame p t n l) :)
@[simp] theorem State.reel_stations (s : State) (p t n : Nat) (l : List Nat) : (s.reel p t n l).stations = s.stations := (congrArg State.stations (s.reel_frame p t n l) :)
@[simp] theorem State.reel_wire (s : State) (p t n : Nat) (l : List Nat) : (s.reel p t n l).wire = s.wire := (congrArg State.wire (s.reel_frame p t n l) :)
@[simp] theorem State.reel_stats (s : State) (p t n : Nat) (l : List Nat) : (s.reel p t n l).stats = s.stats := (congrArg State.stats (s.reel_frame p t n l) :)
@[simp] theorem State.reel_whorls (s : State) (p t n : Nat) (l : List Nat) : (s.reel p t n l).whorls = s.whorls := (congrArg State.whorls (s.reel_frame p t n l) :)
@[simp] theorem State.reel_twists (s : State) (p t n : Nat) (l : List Nat) : (s.reel p t n l).twists = s.twists := (congrArg State.twists (s.reel_frame p t n l) :)
@[simp] theorem State.reel_harts (s : State) (p t n : Nat) (l : List Nat) : (s.reel p t n l).harts = s.harts := (congrArg State.harts (s.reel_frame p t n l) :)
@[simp] theorem State.reel_channels (s : State) (p t n : Nat) (l : List Nat) : (s.reel p t n l).channels = s.channels := (congrArg State.channels (s.reel_frame p t n l) :)
@[simp] theorem State.reel_stackSt (s : State) (p t n : Nat) (l : List Nat) : (s.reel p t n l).stackSt = s.stackSt := (congrArg State.stackSt (s.reel_frame p t n l) :)
@[simp] theorem State.reel_banks (s : State) (p t n : Nat) (l : List Nat) : (s.reel p t n l).banks = s.banks := (congrArg State.banks (s.reel_frame p t n l) :)
@[simp] theorem State.reel_gens (s : State) (p t n : Nat) (l : List Nat) : (s.reel p t n l).gens = s.gens := (congrArg State.gens (s.reel_frame p t n l) :)
@[simp] theorem State.reel_ports (s : State) (p t n : Nat) (l : List Nat) : (s.reel p t n l).ports = s.ports := (congrArg State.ports (s.reel_frame p t n l) :)
@[simp] theorem State.reel_fab (s : State) (p t n : Nat) (l : List Nat) : (s.reel p t n l).fab = s.fab := (congrArg State.fab (s.reel_frame p t n l) :)
@[simp] theorem State.reel_coll (s : State) (p t n : Nat) (l : List Nat) : (s.reel p t n l).coll = s.coll := (congrArg State.coll (s.reel_frame p t n l) :)
@[simp] theorem State.reel_arb (s : State) (p t n : Nat) (l : List Nat) : (s.reel p t n l).arb = s.arb := (congrArg State.arb (s.reel_frame p t n l) :)
@[simp] theorem State.reel_entryWaits (s : State) (p t n : Nat) (l : List Nat) : (s.reel p t n l).entryWaits = s.entryWaits := (congrArg State.entryWaits (s.reel_frame p t n l) :)
@[simp] theorem State.reel_res (s : State) (p t n : Nat) (l : List Nat) : (s.reel p t n l).res = s.res := (congrArg State.res (s.reel_frame p t n l) :)
@[simp] theorem State.reel_sec (s : State) (p t n : Nat) (l : List Nat) : (s.reel p t n l).sec = s.sec := (congrArg State.sec (s.reel_frame p t n l) :)
@[simp] theorem State.reel_pow (s : State) (p t n : Nat) (l : List Nat) : (s.reel p t n l).pow = s.pow := (congrArg State.pow (s.reel_frame p t n l) :)
@[simp] theorem State.reel_host (s : State) (p t n : Nat) (l : List Nat) : (s.reel p t n l).host = s.host := (congrArg State.host (s.reel_frame p t n l) :)
@[simp] theorem State.reel_boot (s : State) (p t n : Nat) (l : List Nat) : (s.reel p t n l).boot = s.boot := (congrArg State.boot (s.reel_frame p t n l) :)
@[simp] theorem State.reel_pins (s : State) (p t n : Nat) (l : List Nat) : (s.reel p t n l).pins = s.pins := (congrArg State.pins (s.reel_frame p t n l) :)

theorem State.reelAll_frame (s : State) (t n : Nat) (l : List Nat) :
    { s.reelAll t n l with
      od := s.od
      mem := s.mem
      reels := s.reels
      w1cAt := s.w1cAt
      logs := s.logs
      aoap := s.aoap
      out := s.out
      lines := s.lines
      sramErr := s.sramErr } = s := by
  exact foldl_frame (fun u s : State => { u with
      od := s.od
      mem := s.mem
      lines := s.lines
      sramErr := s.sramErr
      reels := s.reels
      w1cAt := s.w1cAt
      logs := s.logs
      aoap := s.aoap
      out := s.out })
    (fun a b c h1 h2 => by rw [← h2, ← h1]) (fun _ => rfl) _ (fun s p => s.reel_frame p t n l) _ s

@[simp] theorem State.reelAll_pending (s : State) (t n : Nat) (l : List Nat) : (s.reelAll t n l).pending = s.pending := (congrArg State.pending (s.reelAll_frame t n l) :)
@[simp] theorem State.reelAll_now (s : State) (t n : Nat) (l : List Nat) : (s.reelAll t n l).now = s.now := (congrArg State.now (s.reelAll_frame t n l) :)
@[simp] theorem State.reelAll_freeCtr (s : State) (t n : Nat) (l : List Nat) : (s.reelAll t n l).freeCtr = s.freeCtr := (congrArg State.freeCtr (s.reelAll_frame t n l) :)
@[simp] theorem State.reelAll_ans (s : State) (t n : Nat) (l : List Nat) : (s.reelAll t n l).ans = s.ans := (congrArg State.ans (s.reelAll_frame t n l) :)
@[simp] theorem State.reelAll_cfg (s : State) (t n : Nat) (l : List Nat) : (s.reelAll t n l).cfg = s.cfg := (congrArg State.cfg (s.reelAll_frame t n l) :)
@[simp] theorem State.reelAll_cad (s : State) (t n : Nat) (l : List Nat) : (s.reelAll t n l).cad = s.cad := (congrArg State.cad (s.reelAll_frame t n l) :)
@[simp] theorem State.reelAll_parts (s : State) (t n : Nat) (l : List Nat) : (s.reelAll t n l).parts = s.parts := (congrArg State.parts (s.reelAll_frame t n l) :)
@[simp] theorem State.reelAll_flyers (s : State) (t n : Nat) (l : List Nat) : (s.reelAll t n l).flyers = s.flyers := (congrArg State.flyers (s.reelAll_frame t n l) :)
@[simp] theorem State.reelAll_stations (s : State) (t n : Nat) (l : List Nat) : (s.reelAll t n l).stations = s.stations := (congrArg State.stations (s.reelAll_frame t n l) :)
@[simp] theorem State.reelAll_wire (s : State) (t n : Nat) (l : List Nat) : (s.reelAll t n l).wire = s.wire := (congrArg State.wire (s.reelAll_frame t n l) :)
@[simp] theorem State.reelAll_stats (s : State) (t n : Nat) (l : List Nat) : (s.reelAll t n l).stats = s.stats := (congrArg State.stats (s.reelAll_frame t n l) :)
@[simp] theorem State.reelAll_whorls (s : State) (t n : Nat) (l : List Nat) : (s.reelAll t n l).whorls = s.whorls := (congrArg State.whorls (s.reelAll_frame t n l) :)
@[simp] theorem State.reelAll_twists (s : State) (t n : Nat) (l : List Nat) : (s.reelAll t n l).twists = s.twists := (congrArg State.twists (s.reelAll_frame t n l) :)
@[simp] theorem State.reelAll_harts (s : State) (t n : Nat) (l : List Nat) : (s.reelAll t n l).harts = s.harts := (congrArg State.harts (s.reelAll_frame t n l) :)
@[simp] theorem State.reelAll_channels (s : State) (t n : Nat) (l : List Nat) : (s.reelAll t n l).channels = s.channels := (congrArg State.channels (s.reelAll_frame t n l) :)
@[simp] theorem State.reelAll_stackSt (s : State) (t n : Nat) (l : List Nat) : (s.reelAll t n l).stackSt = s.stackSt := (congrArg State.stackSt (s.reelAll_frame t n l) :)
@[simp] theorem State.reelAll_banks (s : State) (t n : Nat) (l : List Nat) : (s.reelAll t n l).banks = s.banks := (congrArg State.banks (s.reelAll_frame t n l) :)
@[simp] theorem State.reelAll_gens (s : State) (t n : Nat) (l : List Nat) : (s.reelAll t n l).gens = s.gens := (congrArg State.gens (s.reelAll_frame t n l) :)
@[simp] theorem State.reelAll_ports (s : State) (t n : Nat) (l : List Nat) : (s.reelAll t n l).ports = s.ports := (congrArg State.ports (s.reelAll_frame t n l) :)
@[simp] theorem State.reelAll_fab (s : State) (t n : Nat) (l : List Nat) : (s.reelAll t n l).fab = s.fab := (congrArg State.fab (s.reelAll_frame t n l) :)
@[simp] theorem State.reelAll_coll (s : State) (t n : Nat) (l : List Nat) : (s.reelAll t n l).coll = s.coll := (congrArg State.coll (s.reelAll_frame t n l) :)
@[simp] theorem State.reelAll_arb (s : State) (t n : Nat) (l : List Nat) : (s.reelAll t n l).arb = s.arb := (congrArg State.arb (s.reelAll_frame t n l) :)
@[simp] theorem State.reelAll_entryWaits (s : State) (t n : Nat) (l : List Nat) : (s.reelAll t n l).entryWaits = s.entryWaits := (congrArg State.entryWaits (s.reelAll_frame t n l) :)
@[simp] theorem State.reelAll_res (s : State) (t n : Nat) (l : List Nat) : (s.reelAll t n l).res = s.res := (congrArg State.res (s.reelAll_frame t n l) :)
@[simp] theorem State.reelAll_sec (s : State) (t n : Nat) (l : List Nat) : (s.reelAll t n l).sec = s.sec := (congrArg State.sec (s.reelAll_frame t n l) :)
@[simp] theorem State.reelAll_pow (s : State) (t n : Nat) (l : List Nat) : (s.reelAll t n l).pow = s.pow := (congrArg State.pow (s.reelAll_frame t n l) :)
@[simp] theorem State.reelAll_host (s : State) (t n : Nat) (l : List Nat) : (s.reelAll t n l).host = s.host := (congrArg State.host (s.reelAll_frame t n l) :)
@[simp] theorem State.reelAll_boot (s : State) (t n : Nat) (l : List Nat) : (s.reelAll t n l).boot = s.boot := (congrArg State.boot (s.reelAll_frame t n l) :)
@[simp] theorem State.reelAll_pins (s : State) (t n : Nat) (l : List Nat) : (s.reelAll t n l).pins = s.pins := (congrArg State.pins (s.reelAll_frame t n l) :)

theorem State.raiseIrq_frame (s : State) (n h : Nat) :
    { s.raiseIrq n h with
      harts := s.harts } = s := by
  rfl

@[simp] theorem State.raiseIrq_pending (s : State) (n h : Nat) : (s.raiseIrq n h).pending = s.pending := (congrArg State.pending (s.raiseIrq_frame n h) :)
@[simp] theorem State.raiseIrq_now (s : State) (n h : Nat) : (s.raiseIrq n h).now = s.now := (congrArg State.now (s.raiseIrq_frame n h) :)
@[simp] theorem State.raiseIrq_freeCtr (s : State) (n h : Nat) : (s.raiseIrq n h).freeCtr = s.freeCtr := (congrArg State.freeCtr (s.raiseIrq_frame n h) :)
@[simp] theorem State.raiseIrq_ans (s : State) (n h : Nat) : (s.raiseIrq n h).ans = s.ans := (congrArg State.ans (s.raiseIrq_frame n h) :)
@[simp] theorem State.raiseIrq_out (s : State) (n h : Nat) : (s.raiseIrq n h).out = s.out := (congrArg State.out (s.raiseIrq_frame n h) :)
@[simp] theorem State.raiseIrq_cfg (s : State) (n h : Nat) : (s.raiseIrq n h).cfg = s.cfg := (congrArg State.cfg (s.raiseIrq_frame n h) :)
@[simp] theorem State.raiseIrq_od (s : State) (n h : Nat) : (s.raiseIrq n h).od = s.od := (congrArg State.od (s.raiseIrq_frame n h) :)
@[simp] theorem State.raiseIrq_cad (s : State) (n h : Nat) : (s.raiseIrq n h).cad = s.cad := (congrArg State.cad (s.raiseIrq_frame n h) :)
@[simp] theorem State.raiseIrq_parts (s : State) (n h : Nat) : (s.raiseIrq n h).parts = s.parts := (congrArg State.parts (s.raiseIrq_frame n h) :)
@[simp] theorem State.raiseIrq_flyers (s : State) (n h : Nat) : (s.raiseIrq n h).flyers = s.flyers := (congrArg State.flyers (s.raiseIrq_frame n h) :)
@[simp] theorem State.raiseIrq_stations (s : State) (n h : Nat) : (s.raiseIrq n h).stations = s.stations := (congrArg State.stations (s.raiseIrq_frame n h) :)
@[simp] theorem State.raiseIrq_wire (s : State) (n h : Nat) : (s.raiseIrq n h).wire = s.wire := (congrArg State.wire (s.raiseIrq_frame n h) :)
@[simp] theorem State.raiseIrq_stats (s : State) (n h : Nat) : (s.raiseIrq n h).stats = s.stats := (congrArg State.stats (s.raiseIrq_frame n h) :)
@[simp] theorem State.raiseIrq_whorls (s : State) (n h : Nat) : (s.raiseIrq n h).whorls = s.whorls := (congrArg State.whorls (s.raiseIrq_frame n h) :)
@[simp] theorem State.raiseIrq_twists (s : State) (n h : Nat) : (s.raiseIrq n h).twists = s.twists := (congrArg State.twists (s.raiseIrq_frame n h) :)
@[simp] theorem State.raiseIrq_mem (s : State) (n h : Nat) : (s.raiseIrq n h).mem = s.mem := (congrArg State.mem (s.raiseIrq_frame n h) :)
@[simp] theorem State.raiseIrq_lines (s : State) (n h : Nat) : (s.raiseIrq n h).lines = s.lines := (congrArg State.lines (s.raiseIrq_frame n h) :)
@[simp] theorem State.raiseIrq_sramErr (s : State) (n h : Nat) : (s.raiseIrq n h).sramErr = s.sramErr := (congrArg State.sramErr (s.raiseIrq_frame n h) :)
@[simp] theorem State.raiseIrq_channels (s : State) (n h : Nat) : (s.raiseIrq n h).channels = s.channels := (congrArg State.channels (s.raiseIrq_frame n h) :)
@[simp] theorem State.raiseIrq_stackSt (s : State) (n h : Nat) : (s.raiseIrq n h).stackSt = s.stackSt := (congrArg State.stackSt (s.raiseIrq_frame n h) :)
@[simp] theorem State.raiseIrq_banks (s : State) (n h : Nat) : (s.raiseIrq n h).banks = s.banks := (congrArg State.banks (s.raiseIrq_frame n h) :)
@[simp] theorem State.raiseIrq_gens (s : State) (n h : Nat) : (s.raiseIrq n h).gens = s.gens := (congrArg State.gens (s.raiseIrq_frame n h) :)
@[simp] theorem State.raiseIrq_ports (s : State) (n h : Nat) : (s.raiseIrq n h).ports = s.ports := (congrArg State.ports (s.raiseIrq_frame n h) :)
@[simp] theorem State.raiseIrq_fab (s : State) (n h : Nat) : (s.raiseIrq n h).fab = s.fab := (congrArg State.fab (s.raiseIrq_frame n h) :)
@[simp] theorem State.raiseIrq_coll (s : State) (n h : Nat) : (s.raiseIrq n h).coll = s.coll := (congrArg State.coll (s.raiseIrq_frame n h) :)
@[simp] theorem State.raiseIrq_arb (s : State) (n h : Nat) : (s.raiseIrq n h).arb = s.arb := (congrArg State.arb (s.raiseIrq_frame n h) :)
@[simp] theorem State.raiseIrq_entryWaits (s : State) (n h : Nat) : (s.raiseIrq n h).entryWaits = s.entryWaits := (congrArg State.entryWaits (s.raiseIrq_frame n h) :)
@[simp] theorem State.raiseIrq_w1cAt (s : State) (n h : Nat) : (s.raiseIrq n h).w1cAt = s.w1cAt := (congrArg State.w1cAt (s.raiseIrq_frame n h) :)
@[simp] theorem State.raiseIrq_reels (s : State) (n h : Nat) : (s.raiseIrq n h).reels = s.reels := (congrArg State.reels (s.raiseIrq_frame n h) :)
@[simp] theorem State.raiseIrq_logs (s : State) (n h : Nat) : (s.raiseIrq n h).logs = s.logs := (congrArg State.logs (s.raiseIrq_frame n h) :)
@[simp] theorem State.raiseIrq_res (s : State) (n h : Nat) : (s.raiseIrq n h).res = s.res := (congrArg State.res (s.raiseIrq_frame n h) :)
@[simp] theorem State.raiseIrq_sec (s : State) (n h : Nat) : (s.raiseIrq n h).sec = s.sec := (congrArg State.sec (s.raiseIrq_frame n h) :)
@[simp] theorem State.raiseIrq_aoap (s : State) (n h : Nat) : (s.raiseIrq n h).aoap = s.aoap := (congrArg State.aoap (s.raiseIrq_frame n h) :)
@[simp] theorem State.raiseIrq_pow (s : State) (n h : Nat) : (s.raiseIrq n h).pow = s.pow := (congrArg State.pow (s.raiseIrq_frame n h) :)
@[simp] theorem State.raiseIrq_host (s : State) (n h : Nat) : (s.raiseIrq n h).host = s.host := (congrArg State.host (s.raiseIrq_frame n h) :)
@[simp] theorem State.raiseIrq_boot (s : State) (n h : Nat) : (s.raiseIrq n h).boot = s.boot := (congrArg State.boot (s.raiseIrq_frame n h) :)
@[simp] theorem State.raiseIrq_pins (s : State) (n h : Nat) : (s.raiseIrq n h).pins = s.pins := (congrArg State.pins (s.raiseIrq_frame n h) :)

theorem State.raiseIrqPart_frame (s : State) (n p : Nat) :
    { s.raiseIrqPart n p with
      harts := s.harts } = s := by
  refine foldl_frame (fun u s : State => { u with harts := s.harts })
    (fun a b c h1 h2 => by rw [← h2, ← h1]) (fun _ => rfl) _ (fun s h => ?_) _ s
  split
  all_goals rfl

@[simp] theorem State.raiseIrqPart_pending (s : State) (n p : Nat) : (s.raiseIrqPart n p).pending = s.pending := (congrArg State.pending (s.raiseIrqPart_frame n p) :)
@[simp] theorem State.raiseIrqPart_now (s : State) (n p : Nat) : (s.raiseIrqPart n p).now = s.now := (congrArg State.now (s.raiseIrqPart_frame n p) :)
@[simp] theorem State.raiseIrqPart_freeCtr (s : State) (n p : Nat) : (s.raiseIrqPart n p).freeCtr = s.freeCtr := (congrArg State.freeCtr (s.raiseIrqPart_frame n p) :)
@[simp] theorem State.raiseIrqPart_ans (s : State) (n p : Nat) : (s.raiseIrqPart n p).ans = s.ans := (congrArg State.ans (s.raiseIrqPart_frame n p) :)
@[simp] theorem State.raiseIrqPart_out (s : State) (n p : Nat) : (s.raiseIrqPart n p).out = s.out := (congrArg State.out (s.raiseIrqPart_frame n p) :)
@[simp] theorem State.raiseIrqPart_cfg (s : State) (n p : Nat) : (s.raiseIrqPart n p).cfg = s.cfg := (congrArg State.cfg (s.raiseIrqPart_frame n p) :)
@[simp] theorem State.raiseIrqPart_od (s : State) (n p : Nat) : (s.raiseIrqPart n p).od = s.od := (congrArg State.od (s.raiseIrqPart_frame n p) :)
@[simp] theorem State.raiseIrqPart_cad (s : State) (n p : Nat) : (s.raiseIrqPart n p).cad = s.cad := (congrArg State.cad (s.raiseIrqPart_frame n p) :)
@[simp] theorem State.raiseIrqPart_parts (s : State) (n p : Nat) : (s.raiseIrqPart n p).parts = s.parts := (congrArg State.parts (s.raiseIrqPart_frame n p) :)
@[simp] theorem State.raiseIrqPart_flyers (s : State) (n p : Nat) : (s.raiseIrqPart n p).flyers = s.flyers := (congrArg State.flyers (s.raiseIrqPart_frame n p) :)
@[simp] theorem State.raiseIrqPart_stations (s : State) (n p : Nat) : (s.raiseIrqPart n p).stations = s.stations := (congrArg State.stations (s.raiseIrqPart_frame n p) :)
@[simp] theorem State.raiseIrqPart_wire (s : State) (n p : Nat) : (s.raiseIrqPart n p).wire = s.wire := (congrArg State.wire (s.raiseIrqPart_frame n p) :)
@[simp] theorem State.raiseIrqPart_stats (s : State) (n p : Nat) : (s.raiseIrqPart n p).stats = s.stats := (congrArg State.stats (s.raiseIrqPart_frame n p) :)
@[simp] theorem State.raiseIrqPart_whorls (s : State) (n p : Nat) : (s.raiseIrqPart n p).whorls = s.whorls := (congrArg State.whorls (s.raiseIrqPart_frame n p) :)
@[simp] theorem State.raiseIrqPart_twists (s : State) (n p : Nat) : (s.raiseIrqPart n p).twists = s.twists := (congrArg State.twists (s.raiseIrqPart_frame n p) :)
@[simp] theorem State.raiseIrqPart_mem (s : State) (n p : Nat) : (s.raiseIrqPart n p).mem = s.mem := (congrArg State.mem (s.raiseIrqPart_frame n p) :)
@[simp] theorem State.raiseIrqPart_lines (s : State) (n p : Nat) : (s.raiseIrqPart n p).lines = s.lines := (congrArg State.lines (s.raiseIrqPart_frame n p) :)
@[simp] theorem State.raiseIrqPart_sramErr (s : State) (n p : Nat) : (s.raiseIrqPart n p).sramErr = s.sramErr := (congrArg State.sramErr (s.raiseIrqPart_frame n p) :)
@[simp] theorem State.raiseIrqPart_channels (s : State) (n p : Nat) : (s.raiseIrqPart n p).channels = s.channels := (congrArg State.channels (s.raiseIrqPart_frame n p) :)
@[simp] theorem State.raiseIrqPart_stackSt (s : State) (n p : Nat) : (s.raiseIrqPart n p).stackSt = s.stackSt := (congrArg State.stackSt (s.raiseIrqPart_frame n p) :)
@[simp] theorem State.raiseIrqPart_banks (s : State) (n p : Nat) : (s.raiseIrqPart n p).banks = s.banks := (congrArg State.banks (s.raiseIrqPart_frame n p) :)
@[simp] theorem State.raiseIrqPart_gens (s : State) (n p : Nat) : (s.raiseIrqPart n p).gens = s.gens := (congrArg State.gens (s.raiseIrqPart_frame n p) :)
@[simp] theorem State.raiseIrqPart_ports (s : State) (n p : Nat) : (s.raiseIrqPart n p).ports = s.ports := (congrArg State.ports (s.raiseIrqPart_frame n p) :)
@[simp] theorem State.raiseIrqPart_fab (s : State) (n p : Nat) : (s.raiseIrqPart n p).fab = s.fab := (congrArg State.fab (s.raiseIrqPart_frame n p) :)
@[simp] theorem State.raiseIrqPart_coll (s : State) (n p : Nat) : (s.raiseIrqPart n p).coll = s.coll := (congrArg State.coll (s.raiseIrqPart_frame n p) :)
@[simp] theorem State.raiseIrqPart_arb (s : State) (n p : Nat) : (s.raiseIrqPart n p).arb = s.arb := (congrArg State.arb (s.raiseIrqPart_frame n p) :)
@[simp] theorem State.raiseIrqPart_entryWaits (s : State) (n p : Nat) : (s.raiseIrqPart n p).entryWaits = s.entryWaits := (congrArg State.entryWaits (s.raiseIrqPart_frame n p) :)
@[simp] theorem State.raiseIrqPart_w1cAt (s : State) (n p : Nat) : (s.raiseIrqPart n p).w1cAt = s.w1cAt := (congrArg State.w1cAt (s.raiseIrqPart_frame n p) :)
@[simp] theorem State.raiseIrqPart_reels (s : State) (n p : Nat) : (s.raiseIrqPart n p).reels = s.reels := (congrArg State.reels (s.raiseIrqPart_frame n p) :)
@[simp] theorem State.raiseIrqPart_logs (s : State) (n p : Nat) : (s.raiseIrqPart n p).logs = s.logs := (congrArg State.logs (s.raiseIrqPart_frame n p) :)
@[simp] theorem State.raiseIrqPart_res (s : State) (n p : Nat) : (s.raiseIrqPart n p).res = s.res := (congrArg State.res (s.raiseIrqPart_frame n p) :)
@[simp] theorem State.raiseIrqPart_sec (s : State) (n p : Nat) : (s.raiseIrqPart n p).sec = s.sec := (congrArg State.sec (s.raiseIrqPart_frame n p) :)
@[simp] theorem State.raiseIrqPart_aoap (s : State) (n p : Nat) : (s.raiseIrqPart n p).aoap = s.aoap := (congrArg State.aoap (s.raiseIrqPart_frame n p) :)
@[simp] theorem State.raiseIrqPart_pow (s : State) (n p : Nat) : (s.raiseIrqPart n p).pow = s.pow := (congrArg State.pow (s.raiseIrqPart_frame n p) :)
@[simp] theorem State.raiseIrqPart_host (s : State) (n p : Nat) : (s.raiseIrqPart n p).host = s.host := (congrArg State.host (s.raiseIrqPart_frame n p) :)
@[simp] theorem State.raiseIrqPart_boot (s : State) (n p : Nat) : (s.raiseIrqPart n p).boot = s.boot := (congrArg State.boot (s.raiseIrqPart_frame n p) :)
@[simp] theorem State.raiseIrqPart_pins (s : State) (n p : Nat) : (s.raiseIrqPart n p).pins = s.pins := (congrArg State.pins (s.raiseIrqPart_frame n p) :)

theorem State.clearGrants_frame (s : State) (p : Nat) :
    { s.clearGrants p with
      harts := s.harts } = s := by
  refine foldl_frame (fun u s : State => { u with harts := s.harts })
    (fun a b c h1 h2 => by rw [← h2, ← h1]) (fun _ => rfl) _ (fun s h => ?_) _ s
  dsimp only
  split
  all_goals rfl

@[simp] theorem State.clearGrants_pending (s : State) (p : Nat) : (s.clearGrants p).pending = s.pending := (congrArg State.pending (s.clearGrants_frame p) :)
@[simp] theorem State.clearGrants_now (s : State) (p : Nat) : (s.clearGrants p).now = s.now := (congrArg State.now (s.clearGrants_frame p) :)
@[simp] theorem State.clearGrants_freeCtr (s : State) (p : Nat) : (s.clearGrants p).freeCtr = s.freeCtr := (congrArg State.freeCtr (s.clearGrants_frame p) :)
@[simp] theorem State.clearGrants_ans (s : State) (p : Nat) : (s.clearGrants p).ans = s.ans := (congrArg State.ans (s.clearGrants_frame p) :)
@[simp] theorem State.clearGrants_out (s : State) (p : Nat) : (s.clearGrants p).out = s.out := (congrArg State.out (s.clearGrants_frame p) :)
@[simp] theorem State.clearGrants_cfg (s : State) (p : Nat) : (s.clearGrants p).cfg = s.cfg := (congrArg State.cfg (s.clearGrants_frame p) :)
@[simp] theorem State.clearGrants_od (s : State) (p : Nat) : (s.clearGrants p).od = s.od := (congrArg State.od (s.clearGrants_frame p) :)
@[simp] theorem State.clearGrants_cad (s : State) (p : Nat) : (s.clearGrants p).cad = s.cad := (congrArg State.cad (s.clearGrants_frame p) :)
@[simp] theorem State.clearGrants_parts (s : State) (p : Nat) : (s.clearGrants p).parts = s.parts := (congrArg State.parts (s.clearGrants_frame p) :)
@[simp] theorem State.clearGrants_flyers (s : State) (p : Nat) : (s.clearGrants p).flyers = s.flyers := (congrArg State.flyers (s.clearGrants_frame p) :)
@[simp] theorem State.clearGrants_stations (s : State) (p : Nat) : (s.clearGrants p).stations = s.stations := (congrArg State.stations (s.clearGrants_frame p) :)
@[simp] theorem State.clearGrants_wire (s : State) (p : Nat) : (s.clearGrants p).wire = s.wire := (congrArg State.wire (s.clearGrants_frame p) :)
@[simp] theorem State.clearGrants_stats (s : State) (p : Nat) : (s.clearGrants p).stats = s.stats := (congrArg State.stats (s.clearGrants_frame p) :)
@[simp] theorem State.clearGrants_whorls (s : State) (p : Nat) : (s.clearGrants p).whorls = s.whorls := (congrArg State.whorls (s.clearGrants_frame p) :)
@[simp] theorem State.clearGrants_twists (s : State) (p : Nat) : (s.clearGrants p).twists = s.twists := (congrArg State.twists (s.clearGrants_frame p) :)
@[simp] theorem State.clearGrants_mem (s : State) (p : Nat) : (s.clearGrants p).mem = s.mem := (congrArg State.mem (s.clearGrants_frame p) :)
@[simp] theorem State.clearGrants_lines (s : State) (p : Nat) : (s.clearGrants p).lines = s.lines := (congrArg State.lines (s.clearGrants_frame p) :)
@[simp] theorem State.clearGrants_sramErr (s : State) (p : Nat) : (s.clearGrants p).sramErr = s.sramErr := (congrArg State.sramErr (s.clearGrants_frame p) :)
@[simp] theorem State.clearGrants_channels (s : State) (p : Nat) : (s.clearGrants p).channels = s.channels := (congrArg State.channels (s.clearGrants_frame p) :)
@[simp] theorem State.clearGrants_stackSt (s : State) (p : Nat) : (s.clearGrants p).stackSt = s.stackSt := (congrArg State.stackSt (s.clearGrants_frame p) :)
@[simp] theorem State.clearGrants_banks (s : State) (p : Nat) : (s.clearGrants p).banks = s.banks := (congrArg State.banks (s.clearGrants_frame p) :)
@[simp] theorem State.clearGrants_gens (s : State) (p : Nat) : (s.clearGrants p).gens = s.gens := (congrArg State.gens (s.clearGrants_frame p) :)
@[simp] theorem State.clearGrants_ports (s : State) (p : Nat) : (s.clearGrants p).ports = s.ports := (congrArg State.ports (s.clearGrants_frame p) :)
@[simp] theorem State.clearGrants_fab (s : State) (p : Nat) : (s.clearGrants p).fab = s.fab := (congrArg State.fab (s.clearGrants_frame p) :)
@[simp] theorem State.clearGrants_coll (s : State) (p : Nat) : (s.clearGrants p).coll = s.coll := (congrArg State.coll (s.clearGrants_frame p) :)
@[simp] theorem State.clearGrants_arb (s : State) (p : Nat) : (s.clearGrants p).arb = s.arb := (congrArg State.arb (s.clearGrants_frame p) :)
@[simp] theorem State.clearGrants_entryWaits (s : State) (p : Nat) : (s.clearGrants p).entryWaits = s.entryWaits := (congrArg State.entryWaits (s.clearGrants_frame p) :)
@[simp] theorem State.clearGrants_w1cAt (s : State) (p : Nat) : (s.clearGrants p).w1cAt = s.w1cAt := (congrArg State.w1cAt (s.clearGrants_frame p) :)
@[simp] theorem State.clearGrants_reels (s : State) (p : Nat) : (s.clearGrants p).reels = s.reels := (congrArg State.reels (s.clearGrants_frame p) :)
@[simp] theorem State.clearGrants_logs (s : State) (p : Nat) : (s.clearGrants p).logs = s.logs := (congrArg State.logs (s.clearGrants_frame p) :)
@[simp] theorem State.clearGrants_res (s : State) (p : Nat) : (s.clearGrants p).res = s.res := (congrArg State.res (s.clearGrants_frame p) :)
@[simp] theorem State.clearGrants_sec (s : State) (p : Nat) : (s.clearGrants p).sec = s.sec := (congrArg State.sec (s.clearGrants_frame p) :)
@[simp] theorem State.clearGrants_aoap (s : State) (p : Nat) : (s.clearGrants p).aoap = s.aoap := (congrArg State.aoap (s.clearGrants_frame p) :)
@[simp] theorem State.clearGrants_pow (s : State) (p : Nat) : (s.clearGrants p).pow = s.pow := (congrArg State.pow (s.clearGrants_frame p) :)
@[simp] theorem State.clearGrants_host (s : State) (p : Nat) : (s.clearGrants p).host = s.host := (congrArg State.host (s.clearGrants_frame p) :)
@[simp] theorem State.clearGrants_boot (s : State) (p : Nat) : (s.clearGrants p).boot = s.boot := (congrArg State.boot (s.clearGrants_frame p) :)
@[simp] theorem State.clearGrants_pins (s : State) (p : Nat) : (s.clearGrants p).pins = s.pins := (congrArg State.pins (s.clearGrants_frame p) :)

theorem State.grantHarts_frame (s : State) (p w : Nat) :
    { s.grantHarts p w with
      harts := s.harts } = s := by
  refine foldl_frame (fun u s : State => { u with harts := s.harts })
    (fun a b c h1 h2 => by rw [← h2, ← h1]) (fun _ => rfl) _ (fun s h => ?_) _ s
  dsimp only
  split
  all_goals rfl

@[simp] theorem State.grantHarts_pending (s : State) (p w : Nat) : (s.grantHarts p w).pending = s.pending := (congrArg State.pending (s.grantHarts_frame p w) :)
@[simp] theorem State.grantHarts_now (s : State) (p w : Nat) : (s.grantHarts p w).now = s.now := (congrArg State.now (s.grantHarts_frame p w) :)
@[simp] theorem State.grantHarts_freeCtr (s : State) (p w : Nat) : (s.grantHarts p w).freeCtr = s.freeCtr := (congrArg State.freeCtr (s.grantHarts_frame p w) :)
@[simp] theorem State.grantHarts_ans (s : State) (p w : Nat) : (s.grantHarts p w).ans = s.ans := (congrArg State.ans (s.grantHarts_frame p w) :)
@[simp] theorem State.grantHarts_out (s : State) (p w : Nat) : (s.grantHarts p w).out = s.out := (congrArg State.out (s.grantHarts_frame p w) :)
@[simp] theorem State.grantHarts_cfg (s : State) (p w : Nat) : (s.grantHarts p w).cfg = s.cfg := (congrArg State.cfg (s.grantHarts_frame p w) :)
@[simp] theorem State.grantHarts_od (s : State) (p w : Nat) : (s.grantHarts p w).od = s.od := (congrArg State.od (s.grantHarts_frame p w) :)
@[simp] theorem State.grantHarts_cad (s : State) (p w : Nat) : (s.grantHarts p w).cad = s.cad := (congrArg State.cad (s.grantHarts_frame p w) :)
@[simp] theorem State.grantHarts_parts (s : State) (p w : Nat) : (s.grantHarts p w).parts = s.parts := (congrArg State.parts (s.grantHarts_frame p w) :)
@[simp] theorem State.grantHarts_flyers (s : State) (p w : Nat) : (s.grantHarts p w).flyers = s.flyers := (congrArg State.flyers (s.grantHarts_frame p w) :)
@[simp] theorem State.grantHarts_stations (s : State) (p w : Nat) : (s.grantHarts p w).stations = s.stations := (congrArg State.stations (s.grantHarts_frame p w) :)
@[simp] theorem State.grantHarts_wire (s : State) (p w : Nat) : (s.grantHarts p w).wire = s.wire := (congrArg State.wire (s.grantHarts_frame p w) :)
@[simp] theorem State.grantHarts_stats (s : State) (p w : Nat) : (s.grantHarts p w).stats = s.stats := (congrArg State.stats (s.grantHarts_frame p w) :)
@[simp] theorem State.grantHarts_whorls (s : State) (p w : Nat) : (s.grantHarts p w).whorls = s.whorls := (congrArg State.whorls (s.grantHarts_frame p w) :)
@[simp] theorem State.grantHarts_twists (s : State) (p w : Nat) : (s.grantHarts p w).twists = s.twists := (congrArg State.twists (s.grantHarts_frame p w) :)
@[simp] theorem State.grantHarts_mem (s : State) (p w : Nat) : (s.grantHarts p w).mem = s.mem := (congrArg State.mem (s.grantHarts_frame p w) :)
@[simp] theorem State.grantHarts_lines (s : State) (p w : Nat) : (s.grantHarts p w).lines = s.lines := (congrArg State.lines (s.grantHarts_frame p w) :)
@[simp] theorem State.grantHarts_sramErr (s : State) (p w : Nat) : (s.grantHarts p w).sramErr = s.sramErr := (congrArg State.sramErr (s.grantHarts_frame p w) :)
@[simp] theorem State.grantHarts_channels (s : State) (p w : Nat) : (s.grantHarts p w).channels = s.channels := (congrArg State.channels (s.grantHarts_frame p w) :)
@[simp] theorem State.grantHarts_stackSt (s : State) (p w : Nat) : (s.grantHarts p w).stackSt = s.stackSt := (congrArg State.stackSt (s.grantHarts_frame p w) :)
@[simp] theorem State.grantHarts_banks (s : State) (p w : Nat) : (s.grantHarts p w).banks = s.banks := (congrArg State.banks (s.grantHarts_frame p w) :)
@[simp] theorem State.grantHarts_gens (s : State) (p w : Nat) : (s.grantHarts p w).gens = s.gens := (congrArg State.gens (s.grantHarts_frame p w) :)
@[simp] theorem State.grantHarts_ports (s : State) (p w : Nat) : (s.grantHarts p w).ports = s.ports := (congrArg State.ports (s.grantHarts_frame p w) :)
@[simp] theorem State.grantHarts_fab (s : State) (p w : Nat) : (s.grantHarts p w).fab = s.fab := (congrArg State.fab (s.grantHarts_frame p w) :)
@[simp] theorem State.grantHarts_coll (s : State) (p w : Nat) : (s.grantHarts p w).coll = s.coll := (congrArg State.coll (s.grantHarts_frame p w) :)
@[simp] theorem State.grantHarts_arb (s : State) (p w : Nat) : (s.grantHarts p w).arb = s.arb := (congrArg State.arb (s.grantHarts_frame p w) :)
@[simp] theorem State.grantHarts_entryWaits (s : State) (p w : Nat) : (s.grantHarts p w).entryWaits = s.entryWaits := (congrArg State.entryWaits (s.grantHarts_frame p w) :)
@[simp] theorem State.grantHarts_w1cAt (s : State) (p w : Nat) : (s.grantHarts p w).w1cAt = s.w1cAt := (congrArg State.w1cAt (s.grantHarts_frame p w) :)
@[simp] theorem State.grantHarts_reels (s : State) (p w : Nat) : (s.grantHarts p w).reels = s.reels := (congrArg State.reels (s.grantHarts_frame p w) :)
@[simp] theorem State.grantHarts_logs (s : State) (p w : Nat) : (s.grantHarts p w).logs = s.logs := (congrArg State.logs (s.grantHarts_frame p w) :)
@[simp] theorem State.grantHarts_res (s : State) (p w : Nat) : (s.grantHarts p w).res = s.res := (congrArg State.res (s.grantHarts_frame p w) :)
@[simp] theorem State.grantHarts_sec (s : State) (p w : Nat) : (s.grantHarts p w).sec = s.sec := (congrArg State.sec (s.grantHarts_frame p w) :)
@[simp] theorem State.grantHarts_aoap (s : State) (p w : Nat) : (s.grantHarts p w).aoap = s.aoap := (congrArg State.aoap (s.grantHarts_frame p w) :)
@[simp] theorem State.grantHarts_pow (s : State) (p w : Nat) : (s.grantHarts p w).pow = s.pow := (congrArg State.pow (s.grantHarts_frame p w) :)
@[simp] theorem State.grantHarts_host (s : State) (p w : Nat) : (s.grantHarts p w).host = s.host := (congrArg State.host (s.grantHarts_frame p w) :)
@[simp] theorem State.grantHarts_boot (s : State) (p w : Nat) : (s.grantHarts p w).boot = s.boot := (congrArg State.boot (s.grantHarts_frame p w) :)
@[simp] theorem State.grantHarts_pins (s : State) (p w : Nat) : (s.grantHarts p w).pins = s.pins := (congrArg State.pins (s.grantHarts_frame p w) :)

theorem State.halt_frame (s : State) (p : Nat) :
    { s.halt p with
      parts := s.parts
      od := s.od
      w1cAt := s.w1cAt
      logs := s.logs
      aoap := s.aoap
      out := s.out } = s := by
  unfold State.halt
  try dsimp only
  repeat' split
  all_goals first | rfl | (apply State.eq_of_fields <;> simp)

@[simp] theorem State.halt_pending (s : State) (p : Nat) : (s.halt p).pending = s.pending := (congrArg State.pending (s.halt_frame p) :)
@[simp] theorem State.halt_now (s : State) (p : Nat) : (s.halt p).now = s.now := (congrArg State.now (s.halt_frame p) :)
@[simp] theorem State.halt_freeCtr (s : State) (p : Nat) : (s.halt p).freeCtr = s.freeCtr := (congrArg State.freeCtr (s.halt_frame p) :)
@[simp] theorem State.halt_ans (s : State) (p : Nat) : (s.halt p).ans = s.ans := (congrArg State.ans (s.halt_frame p) :)
@[simp] theorem State.halt_cfg (s : State) (p : Nat) : (s.halt p).cfg = s.cfg := (congrArg State.cfg (s.halt_frame p) :)
@[simp] theorem State.halt_cad (s : State) (p : Nat) : (s.halt p).cad = s.cad := (congrArg State.cad (s.halt_frame p) :)
@[simp] theorem State.halt_flyers (s : State) (p : Nat) : (s.halt p).flyers = s.flyers := (congrArg State.flyers (s.halt_frame p) :)
@[simp] theorem State.halt_stations (s : State) (p : Nat) : (s.halt p).stations = s.stations := (congrArg State.stations (s.halt_frame p) :)
@[simp] theorem State.halt_wire (s : State) (p : Nat) : (s.halt p).wire = s.wire := (congrArg State.wire (s.halt_frame p) :)
@[simp] theorem State.halt_stats (s : State) (p : Nat) : (s.halt p).stats = s.stats := (congrArg State.stats (s.halt_frame p) :)
@[simp] theorem State.halt_whorls (s : State) (p : Nat) : (s.halt p).whorls = s.whorls := (congrArg State.whorls (s.halt_frame p) :)
@[simp] theorem State.halt_twists (s : State) (p : Nat) : (s.halt p).twists = s.twists := (congrArg State.twists (s.halt_frame p) :)
@[simp] theorem State.halt_harts (s : State) (p : Nat) : (s.halt p).harts = s.harts := (congrArg State.harts (s.halt_frame p) :)
@[simp] theorem State.halt_mem (s : State) (p : Nat) : (s.halt p).mem = s.mem := (congrArg State.mem (s.halt_frame p) :)
@[simp] theorem State.halt_lines (s : State) (p : Nat) : (s.halt p).lines = s.lines := (congrArg State.lines (s.halt_frame p) :)
@[simp] theorem State.halt_sramErr (s : State) (p : Nat) : (s.halt p).sramErr = s.sramErr := (congrArg State.sramErr (s.halt_frame p) :)
@[simp] theorem State.halt_channels (s : State) (p : Nat) : (s.halt p).channels = s.channels := (congrArg State.channels (s.halt_frame p) :)
@[simp] theorem State.halt_stackSt (s : State) (p : Nat) : (s.halt p).stackSt = s.stackSt := (congrArg State.stackSt (s.halt_frame p) :)
@[simp] theorem State.halt_banks (s : State) (p : Nat) : (s.halt p).banks = s.banks := (congrArg State.banks (s.halt_frame p) :)
@[simp] theorem State.halt_gens (s : State) (p : Nat) : (s.halt p).gens = s.gens := (congrArg State.gens (s.halt_frame p) :)
@[simp] theorem State.halt_ports (s : State) (p : Nat) : (s.halt p).ports = s.ports := (congrArg State.ports (s.halt_frame p) :)
@[simp] theorem State.halt_fab (s : State) (p : Nat) : (s.halt p).fab = s.fab := (congrArg State.fab (s.halt_frame p) :)
@[simp] theorem State.halt_coll (s : State) (p : Nat) : (s.halt p).coll = s.coll := (congrArg State.coll (s.halt_frame p) :)
@[simp] theorem State.halt_arb (s : State) (p : Nat) : (s.halt p).arb = s.arb := (congrArg State.arb (s.halt_frame p) :)
@[simp] theorem State.halt_entryWaits (s : State) (p : Nat) : (s.halt p).entryWaits = s.entryWaits := (congrArg State.entryWaits (s.halt_frame p) :)
@[simp] theorem State.halt_reels (s : State) (p : Nat) : (s.halt p).reels = s.reels := (congrArg State.reels (s.halt_frame p) :)
@[simp] theorem State.halt_res (s : State) (p : Nat) : (s.halt p).res = s.res := (congrArg State.res (s.halt_frame p) :)
@[simp] theorem State.halt_sec (s : State) (p : Nat) : (s.halt p).sec = s.sec := (congrArg State.sec (s.halt_frame p) :)
@[simp] theorem State.halt_pow (s : State) (p : Nat) : (s.halt p).pow = s.pow := (congrArg State.pow (s.halt_frame p) :)
@[simp] theorem State.halt_host (s : State) (p : Nat) : (s.halt p).host = s.host := (congrArg State.host (s.halt_frame p) :)
@[simp] theorem State.halt_boot (s : State) (p : Nat) : (s.halt p).boot = s.boot := (congrArg State.boot (s.halt_frame p) :)
@[simp] theorem State.halt_pins (s : State) (p : Nat) : (s.halt p).pins = s.pins := (congrArg State.pins (s.halt_frame p) :)

theorem State.unprotect_frame (s : State) (n : Nat) :
    { s.unprotect n with
      od := s.od
      w1cAt := s.w1cAt
      logs := s.logs
      aoap := s.aoap
      out := s.out } = s := by
  unfold State.unprotect
  try dsimp only
  repeat' split
  all_goals first | rfl | (apply State.eq_of_fields <;> simp)

@[simp] theorem State.unprotect_pending (s : State) (n : Nat) : (s.unprotect n).pending = s.pending := (congrArg State.pending (s.unprotect_frame n) :)
@[simp] theorem State.unprotect_now (s : State) (n : Nat) : (s.unprotect n).now = s.now := (congrArg State.now (s.unprotect_frame n) :)
@[simp] theorem State.unprotect_freeCtr (s : State) (n : Nat) : (s.unprotect n).freeCtr = s.freeCtr := (congrArg State.freeCtr (s.unprotect_frame n) :)
@[simp] theorem State.unprotect_ans (s : State) (n : Nat) : (s.unprotect n).ans = s.ans := (congrArg State.ans (s.unprotect_frame n) :)
@[simp] theorem State.unprotect_cfg (s : State) (n : Nat) : (s.unprotect n).cfg = s.cfg := (congrArg State.cfg (s.unprotect_frame n) :)
@[simp] theorem State.unprotect_cad (s : State) (n : Nat) : (s.unprotect n).cad = s.cad := (congrArg State.cad (s.unprotect_frame n) :)
@[simp] theorem State.unprotect_parts (s : State) (n : Nat) : (s.unprotect n).parts = s.parts := (congrArg State.parts (s.unprotect_frame n) :)
@[simp] theorem State.unprotect_flyers (s : State) (n : Nat) : (s.unprotect n).flyers = s.flyers := (congrArg State.flyers (s.unprotect_frame n) :)
@[simp] theorem State.unprotect_stations (s : State) (n : Nat) : (s.unprotect n).stations = s.stations := (congrArg State.stations (s.unprotect_frame n) :)
@[simp] theorem State.unprotect_wire (s : State) (n : Nat) : (s.unprotect n).wire = s.wire := (congrArg State.wire (s.unprotect_frame n) :)
@[simp] theorem State.unprotect_stats (s : State) (n : Nat) : (s.unprotect n).stats = s.stats := (congrArg State.stats (s.unprotect_frame n) :)
@[simp] theorem State.unprotect_whorls (s : State) (n : Nat) : (s.unprotect n).whorls = s.whorls := (congrArg State.whorls (s.unprotect_frame n) :)
@[simp] theorem State.unprotect_twists (s : State) (n : Nat) : (s.unprotect n).twists = s.twists := (congrArg State.twists (s.unprotect_frame n) :)
@[simp] theorem State.unprotect_harts (s : State) (n : Nat) : (s.unprotect n).harts = s.harts := (congrArg State.harts (s.unprotect_frame n) :)
@[simp] theorem State.unprotect_mem (s : State) (n : Nat) : (s.unprotect n).mem = s.mem := (congrArg State.mem (s.unprotect_frame n) :)
@[simp] theorem State.unprotect_lines (s : State) (n : Nat) : (s.unprotect n).lines = s.lines := (congrArg State.lines (s.unprotect_frame n) :)
@[simp] theorem State.unprotect_sramErr (s : State) (n : Nat) : (s.unprotect n).sramErr = s.sramErr := (congrArg State.sramErr (s.unprotect_frame n) :)
@[simp] theorem State.unprotect_channels (s : State) (n : Nat) : (s.unprotect n).channels = s.channels := (congrArg State.channels (s.unprotect_frame n) :)
@[simp] theorem State.unprotect_stackSt (s : State) (n : Nat) : (s.unprotect n).stackSt = s.stackSt := (congrArg State.stackSt (s.unprotect_frame n) :)
@[simp] theorem State.unprotect_banks (s : State) (n : Nat) : (s.unprotect n).banks = s.banks := (congrArg State.banks (s.unprotect_frame n) :)
@[simp] theorem State.unprotect_gens (s : State) (n : Nat) : (s.unprotect n).gens = s.gens := (congrArg State.gens (s.unprotect_frame n) :)
@[simp] theorem State.unprotect_ports (s : State) (n : Nat) : (s.unprotect n).ports = s.ports := (congrArg State.ports (s.unprotect_frame n) :)
@[simp] theorem State.unprotect_fab (s : State) (n : Nat) : (s.unprotect n).fab = s.fab := (congrArg State.fab (s.unprotect_frame n) :)
@[simp] theorem State.unprotect_coll (s : State) (n : Nat) : (s.unprotect n).coll = s.coll := (congrArg State.coll (s.unprotect_frame n) :)
@[simp] theorem State.unprotect_arb (s : State) (n : Nat) : (s.unprotect n).arb = s.arb := (congrArg State.arb (s.unprotect_frame n) :)
@[simp] theorem State.unprotect_entryWaits (s : State) (n : Nat) : (s.unprotect n).entryWaits = s.entryWaits := (congrArg State.entryWaits (s.unprotect_frame n) :)
@[simp] theorem State.unprotect_reels (s : State) (n : Nat) : (s.unprotect n).reels = s.reels := (congrArg State.reels (s.unprotect_frame n) :)
@[simp] theorem State.unprotect_res (s : State) (n : Nat) : (s.unprotect n).res = s.res := (congrArg State.res (s.unprotect_frame n) :)
@[simp] theorem State.unprotect_sec (s : State) (n : Nat) : (s.unprotect n).sec = s.sec := (congrArg State.sec (s.unprotect_frame n) :)
@[simp] theorem State.unprotect_pow (s : State) (n : Nat) : (s.unprotect n).pow = s.pow := (congrArg State.pow (s.unprotect_frame n) :)
@[simp] theorem State.unprotect_host (s : State) (n : Nat) : (s.unprotect n).host = s.host := (congrArg State.host (s.unprotect_frame n) :)
@[simp] theorem State.unprotect_boot (s : State) (n : Nat) : (s.unprotect n).boot = s.boot := (congrArg State.boot (s.unprotect_frame n) :)
@[simp] theorem State.unprotect_pins (s : State) (n : Nat) : (s.unprotect n).pins = s.pins := (congrArg State.pins (s.unprotect_frame n) :)

theorem State.buddyStore_frame (s : State) (p n k : Nat) (l : List Byte) :
    { s.buddyStore p n k l with
      parts := s.parts
      od := s.od
      w1cAt := s.w1cAt
      logs := s.logs
      aoap := s.aoap
      out := s.out } = s := by
  unfold State.buddyStore
  try dsimp only
  repeat' split
  all_goals first | rfl | (apply State.eq_of_fields <;> simp)

@[simp] theorem State.buddyStore_pending (s : State) (p n k : Nat) (l : List Byte) : (s.buddyStore p n k l).pending = s.pending := (congrArg State.pending (s.buddyStore_frame p n k l) :)
@[simp] theorem State.buddyStore_now (s : State) (p n k : Nat) (l : List Byte) : (s.buddyStore p n k l).now = s.now := (congrArg State.now (s.buddyStore_frame p n k l) :)
@[simp] theorem State.buddyStore_freeCtr (s : State) (p n k : Nat) (l : List Byte) : (s.buddyStore p n k l).freeCtr = s.freeCtr := (congrArg State.freeCtr (s.buddyStore_frame p n k l) :)
@[simp] theorem State.buddyStore_ans (s : State) (p n k : Nat) (l : List Byte) : (s.buddyStore p n k l).ans = s.ans := (congrArg State.ans (s.buddyStore_frame p n k l) :)
@[simp] theorem State.buddyStore_cfg (s : State) (p n k : Nat) (l : List Byte) : (s.buddyStore p n k l).cfg = s.cfg := (congrArg State.cfg (s.buddyStore_frame p n k l) :)
@[simp] theorem State.buddyStore_cad (s : State) (p n k : Nat) (l : List Byte) : (s.buddyStore p n k l).cad = s.cad := (congrArg State.cad (s.buddyStore_frame p n k l) :)
@[simp] theorem State.buddyStore_flyers (s : State) (p n k : Nat) (l : List Byte) : (s.buddyStore p n k l).flyers = s.flyers := (congrArg State.flyers (s.buddyStore_frame p n k l) :)
@[simp] theorem State.buddyStore_stations (s : State) (p n k : Nat) (l : List Byte) : (s.buddyStore p n k l).stations = s.stations := (congrArg State.stations (s.buddyStore_frame p n k l) :)
@[simp] theorem State.buddyStore_wire (s : State) (p n k : Nat) (l : List Byte) : (s.buddyStore p n k l).wire = s.wire := (congrArg State.wire (s.buddyStore_frame p n k l) :)
@[simp] theorem State.buddyStore_stats (s : State) (p n k : Nat) (l : List Byte) : (s.buddyStore p n k l).stats = s.stats := (congrArg State.stats (s.buddyStore_frame p n k l) :)
@[simp] theorem State.buddyStore_whorls (s : State) (p n k : Nat) (l : List Byte) : (s.buddyStore p n k l).whorls = s.whorls := (congrArg State.whorls (s.buddyStore_frame p n k l) :)
@[simp] theorem State.buddyStore_twists (s : State) (p n k : Nat) (l : List Byte) : (s.buddyStore p n k l).twists = s.twists := (congrArg State.twists (s.buddyStore_frame p n k l) :)
@[simp] theorem State.buddyStore_harts (s : State) (p n k : Nat) (l : List Byte) : (s.buddyStore p n k l).harts = s.harts := (congrArg State.harts (s.buddyStore_frame p n k l) :)
@[simp] theorem State.buddyStore_mem (s : State) (p n k : Nat) (l : List Byte) : (s.buddyStore p n k l).mem = s.mem := (congrArg State.mem (s.buddyStore_frame p n k l) :)
@[simp] theorem State.buddyStore_lines (s : State) (p n k : Nat) (l : List Byte) : (s.buddyStore p n k l).lines = s.lines := (congrArg State.lines (s.buddyStore_frame p n k l) :)
@[simp] theorem State.buddyStore_sramErr (s : State) (p n k : Nat) (l : List Byte) : (s.buddyStore p n k l).sramErr = s.sramErr := (congrArg State.sramErr (s.buddyStore_frame p n k l) :)
@[simp] theorem State.buddyStore_channels (s : State) (p n k : Nat) (l : List Byte) : (s.buddyStore p n k l).channels = s.channels := (congrArg State.channels (s.buddyStore_frame p n k l) :)
@[simp] theorem State.buddyStore_stackSt (s : State) (p n k : Nat) (l : List Byte) : (s.buddyStore p n k l).stackSt = s.stackSt := (congrArg State.stackSt (s.buddyStore_frame p n k l) :)
@[simp] theorem State.buddyStore_banks (s : State) (p n k : Nat) (l : List Byte) : (s.buddyStore p n k l).banks = s.banks := (congrArg State.banks (s.buddyStore_frame p n k l) :)
@[simp] theorem State.buddyStore_gens (s : State) (p n k : Nat) (l : List Byte) : (s.buddyStore p n k l).gens = s.gens := (congrArg State.gens (s.buddyStore_frame p n k l) :)
@[simp] theorem State.buddyStore_ports (s : State) (p n k : Nat) (l : List Byte) : (s.buddyStore p n k l).ports = s.ports := (congrArg State.ports (s.buddyStore_frame p n k l) :)
@[simp] theorem State.buddyStore_fab (s : State) (p n k : Nat) (l : List Byte) : (s.buddyStore p n k l).fab = s.fab := (congrArg State.fab (s.buddyStore_frame p n k l) :)
@[simp] theorem State.buddyStore_coll (s : State) (p n k : Nat) (l : List Byte) : (s.buddyStore p n k l).coll = s.coll := (congrArg State.coll (s.buddyStore_frame p n k l) :)
@[simp] theorem State.buddyStore_arb (s : State) (p n k : Nat) (l : List Byte) : (s.buddyStore p n k l).arb = s.arb := (congrArg State.arb (s.buddyStore_frame p n k l) :)
@[simp] theorem State.buddyStore_entryWaits (s : State) (p n k : Nat) (l : List Byte) : (s.buddyStore p n k l).entryWaits = s.entryWaits := (congrArg State.entryWaits (s.buddyStore_frame p n k l) :)
@[simp] theorem State.buddyStore_reels (s : State) (p n k : Nat) (l : List Byte) : (s.buddyStore p n k l).reels = s.reels := (congrArg State.reels (s.buddyStore_frame p n k l) :)
@[simp] theorem State.buddyStore_res (s : State) (p n k : Nat) (l : List Byte) : (s.buddyStore p n k l).res = s.res := (congrArg State.res (s.buddyStore_frame p n k l) :)
@[simp] theorem State.buddyStore_sec (s : State) (p n k : Nat) (l : List Byte) : (s.buddyStore p n k l).sec = s.sec := (congrArg State.sec (s.buddyStore_frame p n k l) :)
@[simp] theorem State.buddyStore_pow (s : State) (p n k : Nat) (l : List Byte) : (s.buddyStore p n k l).pow = s.pow := (congrArg State.pow (s.buddyStore_frame p n k l) :)
@[simp] theorem State.buddyStore_host (s : State) (p n k : Nat) (l : List Byte) : (s.buddyStore p n k l).host = s.host := (congrArg State.host (s.buddyStore_frame p n k l) :)
@[simp] theorem State.buddyStore_boot (s : State) (p n k : Nat) (l : List Byte) : (s.buddyStore p n k l).boot = s.boot := (congrArg State.boot (s.buddyStore_frame p n k l) :)
@[simp] theorem State.buddyStore_pins (s : State) (p n k : Nat) (l : List Byte) : (s.buddyStore p n k l).pins = s.pins := (congrArg State.pins (s.buddyStore_frame p n k l) :)

theorem State.store_frame (s : State) (k : Nat) (l : List Byte) :
    { s.store k l with
      parts := s.parts
      od := s.od
      w1cAt := s.w1cAt
      logs := s.logs
      aoap := s.aoap
      out := s.out
      lines := s.lines
      sramErr := s.sramErr
      mem := s.mem } = s := by
  have h := foldl_frame (fun u s : State => { u with
      parts := s.parts
      od := s.od
      w1cAt := s.w1cAt
      logs := s.logs
      aoap := s.aoap
      out := s.out })
    (fun a b c h1 h2 => by rw [← h2, ← h1]) (fun _ => rfl) (fun s p =>
      match s.persistSlot p k with
      | some n => if (s.part p).state = .running then s.buddyStore p n k l else s
      | none => s)
    (fun s p => by
      split
      · split
        · exact s.buddyStore_frame p _ k l
        · rfl
      · rfl) (List.range 4) s
  unfold State.store
  dsimp only at h ⊢
  generalize List.foldl _ s (List.range 4) = v at h ⊢
  apply State.eq_of_fields <;> simp <;> rw [← h]

@[simp] theorem State.store_pending (s : State) (k : Nat) (l : List Byte) : (s.store k l).pending = s.pending := (congrArg State.pending (s.store_frame k l) :)
@[simp] theorem State.store_now (s : State) (k : Nat) (l : List Byte) : (s.store k l).now = s.now := (congrArg State.now (s.store_frame k l) :)
@[simp] theorem State.store_freeCtr (s : State) (k : Nat) (l : List Byte) : (s.store k l).freeCtr = s.freeCtr := (congrArg State.freeCtr (s.store_frame k l) :)
@[simp] theorem State.store_ans (s : State) (k : Nat) (l : List Byte) : (s.store k l).ans = s.ans := (congrArg State.ans (s.store_frame k l) :)
@[simp] theorem State.store_cfg (s : State) (k : Nat) (l : List Byte) : (s.store k l).cfg = s.cfg := (congrArg State.cfg (s.store_frame k l) :)
@[simp] theorem State.store_cad (s : State) (k : Nat) (l : List Byte) : (s.store k l).cad = s.cad := (congrArg State.cad (s.store_frame k l) :)
@[simp] theorem State.store_flyers (s : State) (k : Nat) (l : List Byte) : (s.store k l).flyers = s.flyers := (congrArg State.flyers (s.store_frame k l) :)
@[simp] theorem State.store_stations (s : State) (k : Nat) (l : List Byte) : (s.store k l).stations = s.stations := (congrArg State.stations (s.store_frame k l) :)
@[simp] theorem State.store_wire (s : State) (k : Nat) (l : List Byte) : (s.store k l).wire = s.wire := (congrArg State.wire (s.store_frame k l) :)
@[simp] theorem State.store_stats (s : State) (k : Nat) (l : List Byte) : (s.store k l).stats = s.stats := (congrArg State.stats (s.store_frame k l) :)
@[simp] theorem State.store_whorls (s : State) (k : Nat) (l : List Byte) : (s.store k l).whorls = s.whorls := (congrArg State.whorls (s.store_frame k l) :)
@[simp] theorem State.store_twists (s : State) (k : Nat) (l : List Byte) : (s.store k l).twists = s.twists := (congrArg State.twists (s.store_frame k l) :)
@[simp] theorem State.store_harts (s : State) (k : Nat) (l : List Byte) : (s.store k l).harts = s.harts := (congrArg State.harts (s.store_frame k l) :)
@[simp] theorem State.store_channels (s : State) (k : Nat) (l : List Byte) : (s.store k l).channels = s.channels := (congrArg State.channels (s.store_frame k l) :)
@[simp] theorem State.store_stackSt (s : State) (k : Nat) (l : List Byte) : (s.store k l).stackSt = s.stackSt := (congrArg State.stackSt (s.store_frame k l) :)
@[simp] theorem State.store_banks (s : State) (k : Nat) (l : List Byte) : (s.store k l).banks = s.banks := (congrArg State.banks (s.store_frame k l) :)
@[simp] theorem State.store_gens (s : State) (k : Nat) (l : List Byte) : (s.store k l).gens = s.gens := (congrArg State.gens (s.store_frame k l) :)
@[simp] theorem State.store_ports (s : State) (k : Nat) (l : List Byte) : (s.store k l).ports = s.ports := (congrArg State.ports (s.store_frame k l) :)
@[simp] theorem State.store_fab (s : State) (k : Nat) (l : List Byte) : (s.store k l).fab = s.fab := (congrArg State.fab (s.store_frame k l) :)
@[simp] theorem State.store_coll (s : State) (k : Nat) (l : List Byte) : (s.store k l).coll = s.coll := (congrArg State.coll (s.store_frame k l) :)
@[simp] theorem State.store_arb (s : State) (k : Nat) (l : List Byte) : (s.store k l).arb = s.arb := (congrArg State.arb (s.store_frame k l) :)
@[simp] theorem State.store_entryWaits (s : State) (k : Nat) (l : List Byte) : (s.store k l).entryWaits = s.entryWaits := (congrArg State.entryWaits (s.store_frame k l) :)
@[simp] theorem State.store_reels (s : State) (k : Nat) (l : List Byte) : (s.store k l).reels = s.reels := (congrArg State.reels (s.store_frame k l) :)
@[simp] theorem State.store_res (s : State) (k : Nat) (l : List Byte) : (s.store k l).res = s.res := (congrArg State.res (s.store_frame k l) :)
@[simp] theorem State.store_sec (s : State) (k : Nat) (l : List Byte) : (s.store k l).sec = s.sec := (congrArg State.sec (s.store_frame k l) :)
@[simp] theorem State.store_pow (s : State) (k : Nat) (l : List Byte) : (s.store k l).pow = s.pow := (congrArg State.pow (s.store_frame k l) :)
@[simp] theorem State.store_host (s : State) (k : Nat) (l : List Byte) : (s.store k l).host = s.host := (congrArg State.host (s.store_frame k l) :)
@[simp] theorem State.store_boot (s : State) (k : Nat) (l : List Byte) : (s.store k l).boot = s.boot := (congrArg State.boot (s.store_frame k l) :)
@[simp] theorem State.store_pins (s : State) (k : Nat) (l : List Byte) : (s.store k l).pins = s.pins := (congrArg State.pins (s.store_frame k l) :)

theorem State.journal_frame (s : State) (p n : Nat) :
    { s.journal p n with
      parts := s.parts
      od := s.od
      w1cAt := s.w1cAt
      logs := s.logs
      aoap := s.aoap
      out := s.out } = s := by
  unfold State.journal
  try dsimp only
  repeat' split
  all_goals first | rfl | (apply State.eq_of_fields <;> simp)

@[simp] theorem State.journal_pending (s : State) (p n : Nat) : (s.journal p n).pending = s.pending := (congrArg State.pending (s.journal_frame p n) :)
@[simp] theorem State.journal_now (s : State) (p n : Nat) : (s.journal p n).now = s.now := (congrArg State.now (s.journal_frame p n) :)
@[simp] theorem State.journal_freeCtr (s : State) (p n : Nat) : (s.journal p n).freeCtr = s.freeCtr := (congrArg State.freeCtr (s.journal_frame p n) :)
@[simp] theorem State.journal_ans (s : State) (p n : Nat) : (s.journal p n).ans = s.ans := (congrArg State.ans (s.journal_frame p n) :)
@[simp] theorem State.journal_cfg (s : State) (p n : Nat) : (s.journal p n).cfg = s.cfg := (congrArg State.cfg (s.journal_frame p n) :)
@[simp] theorem State.journal_cad (s : State) (p n : Nat) : (s.journal p n).cad = s.cad := (congrArg State.cad (s.journal_frame p n) :)
@[simp] theorem State.journal_flyers (s : State) (p n : Nat) : (s.journal p n).flyers = s.flyers := (congrArg State.flyers (s.journal_frame p n) :)
@[simp] theorem State.journal_stations (s : State) (p n : Nat) : (s.journal p n).stations = s.stations := (congrArg State.stations (s.journal_frame p n) :)
@[simp] theorem State.journal_wire (s : State) (p n : Nat) : (s.journal p n).wire = s.wire := (congrArg State.wire (s.journal_frame p n) :)
@[simp] theorem State.journal_stats (s : State) (p n : Nat) : (s.journal p n).stats = s.stats := (congrArg State.stats (s.journal_frame p n) :)
@[simp] theorem State.journal_whorls (s : State) (p n : Nat) : (s.journal p n).whorls = s.whorls := (congrArg State.whorls (s.journal_frame p n) :)
@[simp] theorem State.journal_twists (s : State) (p n : Nat) : (s.journal p n).twists = s.twists := (congrArg State.twists (s.journal_frame p n) :)
@[simp] theorem State.journal_harts (s : State) (p n : Nat) : (s.journal p n).harts = s.harts := (congrArg State.harts (s.journal_frame p n) :)
@[simp] theorem State.journal_mem (s : State) (p n : Nat) : (s.journal p n).mem = s.mem := (congrArg State.mem (s.journal_frame p n) :)
@[simp] theorem State.journal_lines (s : State) (p n : Nat) : (s.journal p n).lines = s.lines := (congrArg State.lines (s.journal_frame p n) :)
@[simp] theorem State.journal_sramErr (s : State) (p n : Nat) : (s.journal p n).sramErr = s.sramErr := (congrArg State.sramErr (s.journal_frame p n) :)
@[simp] theorem State.journal_channels (s : State) (p n : Nat) : (s.journal p n).channels = s.channels := (congrArg State.channels (s.journal_frame p n) :)
@[simp] theorem State.journal_stackSt (s : State) (p n : Nat) : (s.journal p n).stackSt = s.stackSt := (congrArg State.stackSt (s.journal_frame p n) :)
@[simp] theorem State.journal_banks (s : State) (p n : Nat) : (s.journal p n).banks = s.banks := (congrArg State.banks (s.journal_frame p n) :)
@[simp] theorem State.journal_gens (s : State) (p n : Nat) : (s.journal p n).gens = s.gens := (congrArg State.gens (s.journal_frame p n) :)
@[simp] theorem State.journal_ports (s : State) (p n : Nat) : (s.journal p n).ports = s.ports := (congrArg State.ports (s.journal_frame p n) :)
@[simp] theorem State.journal_fab (s : State) (p n : Nat) : (s.journal p n).fab = s.fab := (congrArg State.fab (s.journal_frame p n) :)
@[simp] theorem State.journal_coll (s : State) (p n : Nat) : (s.journal p n).coll = s.coll := (congrArg State.coll (s.journal_frame p n) :)
@[simp] theorem State.journal_arb (s : State) (p n : Nat) : (s.journal p n).arb = s.arb := (congrArg State.arb (s.journal_frame p n) :)
@[simp] theorem State.journal_entryWaits (s : State) (p n : Nat) : (s.journal p n).entryWaits = s.entryWaits := (congrArg State.entryWaits (s.journal_frame p n) :)
@[simp] theorem State.journal_reels (s : State) (p n : Nat) : (s.journal p n).reels = s.reels := (congrArg State.reels (s.journal_frame p n) :)
@[simp] theorem State.journal_res (s : State) (p n : Nat) : (s.journal p n).res = s.res := (congrArg State.res (s.journal_frame p n) :)
@[simp] theorem State.journal_sec (s : State) (p n : Nat) : (s.journal p n).sec = s.sec := (congrArg State.sec (s.journal_frame p n) :)
@[simp] theorem State.journal_pow (s : State) (p n : Nat) : (s.journal p n).pow = s.pow := (congrArg State.pow (s.journal_frame p n) :)
@[simp] theorem State.journal_host (s : State) (p n : Nat) : (s.journal p n).host = s.host := (congrArg State.host (s.journal_frame p n) :)
@[simp] theorem State.journal_boot (s : State) (p n : Nat) : (s.journal p n).boot = s.boot := (congrArg State.boot (s.journal_frame p n) :)
@[simp] theorem State.journal_pins (s : State) (p n : Nat) : (s.journal p n).pins = s.pins := (congrArg State.pins (s.journal_frame p n) :)

theorem State.c0Write_frame (s : State) (p k : Nat) (l : List Byte) :
    { s.c0Write p k l with
      parts := s.parts
      od := s.od
      w1cAt := s.w1cAt
      logs := s.logs
      aoap := s.aoap
      out := s.out
      lines := s.lines
      sramErr := s.sramErr
      mem := s.mem } = s := by
  unfold State.c0Write
  have h := foldl_frame (fun u s : State => { u with
      parts := s.parts
      od := s.od
      w1cAt := s.w1cAt
      logs := s.logs
      aoap := s.aoap
      out := s.out })
    (fun a b c h1 h2 => by rw [← h2, ← h1]) (fun _ => rfl) (fun s i => s.journal p (k / 64 + i))
    (fun s i => s.journal_frame p _) (List.range ((k + l.length - 1) / 64 - k / 64 + 1)) s
  dsimp only at h ⊢
  generalize List.foldl (fun s i => s.journal p (k / 64 + i)) s _ = v at h ⊢
  apply State.eq_of_fields <;> simp <;> rw [← h]

@[simp] theorem State.c0Write_pending (s : State) (p k : Nat) (l : List Byte) : (s.c0Write p k l).pending = s.pending := (congrArg State.pending (s.c0Write_frame p k l) :)
@[simp] theorem State.c0Write_now (s : State) (p k : Nat) (l : List Byte) : (s.c0Write p k l).now = s.now := (congrArg State.now (s.c0Write_frame p k l) :)
@[simp] theorem State.c0Write_freeCtr (s : State) (p k : Nat) (l : List Byte) : (s.c0Write p k l).freeCtr = s.freeCtr := (congrArg State.freeCtr (s.c0Write_frame p k l) :)
@[simp] theorem State.c0Write_ans (s : State) (p k : Nat) (l : List Byte) : (s.c0Write p k l).ans = s.ans := (congrArg State.ans (s.c0Write_frame p k l) :)
@[simp] theorem State.c0Write_cfg (s : State) (p k : Nat) (l : List Byte) : (s.c0Write p k l).cfg = s.cfg := (congrArg State.cfg (s.c0Write_frame p k l) :)
@[simp] theorem State.c0Write_cad (s : State) (p k : Nat) (l : List Byte) : (s.c0Write p k l).cad = s.cad := (congrArg State.cad (s.c0Write_frame p k l) :)
@[simp] theorem State.c0Write_flyers (s : State) (p k : Nat) (l : List Byte) : (s.c0Write p k l).flyers = s.flyers := (congrArg State.flyers (s.c0Write_frame p k l) :)
@[simp] theorem State.c0Write_stations (s : State) (p k : Nat) (l : List Byte) : (s.c0Write p k l).stations = s.stations := (congrArg State.stations (s.c0Write_frame p k l) :)
@[simp] theorem State.c0Write_wire (s : State) (p k : Nat) (l : List Byte) : (s.c0Write p k l).wire = s.wire := (congrArg State.wire (s.c0Write_frame p k l) :)
@[simp] theorem State.c0Write_stats (s : State) (p k : Nat) (l : List Byte) : (s.c0Write p k l).stats = s.stats := (congrArg State.stats (s.c0Write_frame p k l) :)
@[simp] theorem State.c0Write_whorls (s : State) (p k : Nat) (l : List Byte) : (s.c0Write p k l).whorls = s.whorls := (congrArg State.whorls (s.c0Write_frame p k l) :)
@[simp] theorem State.c0Write_twists (s : State) (p k : Nat) (l : List Byte) : (s.c0Write p k l).twists = s.twists := (congrArg State.twists (s.c0Write_frame p k l) :)
@[simp] theorem State.c0Write_harts (s : State) (p k : Nat) (l : List Byte) : (s.c0Write p k l).harts = s.harts := (congrArg State.harts (s.c0Write_frame p k l) :)
@[simp] theorem State.c0Write_channels (s : State) (p k : Nat) (l : List Byte) : (s.c0Write p k l).channels = s.channels := (congrArg State.channels (s.c0Write_frame p k l) :)
@[simp] theorem State.c0Write_stackSt (s : State) (p k : Nat) (l : List Byte) : (s.c0Write p k l).stackSt = s.stackSt := (congrArg State.stackSt (s.c0Write_frame p k l) :)
@[simp] theorem State.c0Write_banks (s : State) (p k : Nat) (l : List Byte) : (s.c0Write p k l).banks = s.banks := (congrArg State.banks (s.c0Write_frame p k l) :)
@[simp] theorem State.c0Write_gens (s : State) (p k : Nat) (l : List Byte) : (s.c0Write p k l).gens = s.gens := (congrArg State.gens (s.c0Write_frame p k l) :)
@[simp] theorem State.c0Write_ports (s : State) (p k : Nat) (l : List Byte) : (s.c0Write p k l).ports = s.ports := (congrArg State.ports (s.c0Write_frame p k l) :)
@[simp] theorem State.c0Write_fab (s : State) (p k : Nat) (l : List Byte) : (s.c0Write p k l).fab = s.fab := (congrArg State.fab (s.c0Write_frame p k l) :)
@[simp] theorem State.c0Write_coll (s : State) (p k : Nat) (l : List Byte) : (s.c0Write p k l).coll = s.coll := (congrArg State.coll (s.c0Write_frame p k l) :)
@[simp] theorem State.c0Write_arb (s : State) (p k : Nat) (l : List Byte) : (s.c0Write p k l).arb = s.arb := (congrArg State.arb (s.c0Write_frame p k l) :)
@[simp] theorem State.c0Write_entryWaits (s : State) (p k : Nat) (l : List Byte) : (s.c0Write p k l).entryWaits = s.entryWaits := (congrArg State.entryWaits (s.c0Write_frame p k l) :)
@[simp] theorem State.c0Write_reels (s : State) (p k : Nat) (l : List Byte) : (s.c0Write p k l).reels = s.reels := (congrArg State.reels (s.c0Write_frame p k l) :)
@[simp] theorem State.c0Write_res (s : State) (p k : Nat) (l : List Byte) : (s.c0Write p k l).res = s.res := (congrArg State.res (s.c0Write_frame p k l) :)
@[simp] theorem State.c0Write_sec (s : State) (p k : Nat) (l : List Byte) : (s.c0Write p k l).sec = s.sec := (congrArg State.sec (s.c0Write_frame p k l) :)
@[simp] theorem State.c0Write_pow (s : State) (p k : Nat) (l : List Byte) : (s.c0Write p k l).pow = s.pow := (congrArg State.pow (s.c0Write_frame p k l) :)
@[simp] theorem State.c0Write_host (s : State) (p k : Nat) (l : List Byte) : (s.c0Write p k l).host = s.host := (congrArg State.host (s.c0Write_frame p k l) :)
@[simp] theorem State.c0Write_boot (s : State) (p k : Nat) (l : List Byte) : (s.c0Write p k l).boot = s.boot := (congrArg State.boot (s.c0Write_frame p k l) :)
@[simp] theorem State.c0Write_pins (s : State) (p k : Nat) (l : List Byte) : (s.c0Write p k l).pins = s.pins := (congrArg State.pins (s.c0Write_frame p k l) :)

/-- A store puts its bytes in memory. -/
theorem State.store_mem (s : State) (k : Nat) (l : List Byte) : (s.store k l).mem = Mem.writeN s.mem k l := by
  have h := foldl_keeps (fun u : State => u.mem) (fun s p =>
      match s.persistSlot p k with
      | some n => if (s.part p).state = .running then s.buddyStore p n k l else s
      | none => s)
    (fun s p => by
      split
      · split
        · exact s.buddyStore_mem p _ k l
        · rfl
      · rfl) (List.range 4) s
  exact congrArg (fun m => Mem.writeN m k l) h

/-- A write of draft traffic puts its bytes in memory. -/
theorem State.c0Write_mem (s : State) (p k : Nat) (l : List Byte) : (s.c0Write p k l).mem = Mem.writeN s.mem k l := by
  unfold State.c0Write
  rw [State.store_mem, foldl_keeps (fun u : State => u.mem) _ (fun s i => s.journal_mem p _)]

/-- Raising an event adds one to its count. -/
theorem State.event_count (s : State) (c : Nat) (w : EvWho) (d : List EvField) :
    (s.event c w d).odGet (0xB100 + c / 256) (c % 256) = s.odGet (0xB100 + c / 256) (c % 256) + 1 := by
  have h : (s.event c w d).od =
      ((s.odSet (0xB100 + c / 256) (c % 256) (s.odGet (0xB100 + c / 256) (c % 256) + 1)).odSet
        (0xB200 + c / 256) (c % 256) 1).od := by
    simp [State.event, State.eventN, State.odSet]
  have hne : odKey (0xB100 + c / 256) (c % 256) ≠ odKey (0xB200 + c / 256) (c % 256) := by
    unfold odKey
    omega
  unfold State.odGet at *
  rw [h]
  simp only [State.odSet, fmGet?_fmSet_other _ _ _ _ hne, fmGet?_fmSet_same]

/-- Raising an event leaves every object but its counter and flag. -/
theorem State.event_odGet (s : State) (c : Nat) (w : EvWho) (d : List EvField) (i j : Nat)
    (h1 : odKey i j ≠ odKey (0xB100 + c / 256) (c % 256)) (h2 : odKey i j ≠ odKey (0xB200 + c / 256) (c % 256)) :
    (s.event c w d).odGet i j = s.odGet i j := by
  have h : (s.event c w d).od =
      ((s.odSet (0xB100 + c / 256) (c % 256) (s.odGet (0xB100 + c / 256) (c % 256) + 1)).odSet
        (0xB200 + c / 256) (c % 256) 1).od := by
    simp [State.event, State.eventN, State.odSet]
  unfold State.odGet at *
  rw [h]
  simp only [State.odSet, fmGet?_fmSet_other _ _ _ _ h1, fmGet?_fmSet_other _ _ _ _ h2, State.event_cfg]

end Sys2Proof.Machine
end

