-- ==== Sys2Proof/Laws/Settle.lean ====
section
/-! SUPPORT. Laws/Settle.lean: what arriving at a command's time does: the time, and nothing else when nothing is due at the
stations before it. -/

namespace Sys2Proof.Machine

/-- The stations catch up with exactly the time they are asked for. -/
theorem State.settleTo_now (s : State) (t k : Nat) : (s.settleTo t k).now = t := by
  induction k generalizing s with
  | zero => rfl
  | succ k ih =>
    unfold State.settleTo
    split
    · rfl
    · split
      · exact ih _
      · rfl

/-- A command from outside is performed at the later of the time before and its own. -/
@[simp] theorem State.arrive_now (s : State) (t : Nat) : (s.arrive t).now = max s.now t := State.settleTo_now ..

/-- Nothing happens up to a time before which nothing is due. -/
theorem State.settleTo_quiet (s : State) (t k : Nat) (h : ∀ e ∈ earliest s.dues, t < e.1) :
    s.settleTo t k = { s with now := t } := by
  cases k with
  | zero => rfl
  | succ k =>
    unfold State.settleTo
    split
    · rfl
    · next u d hd =>
      rw [if_neg]
      have := h (u, d) (by simp [hd])
      omega

/-- With nothing due before its time, arriving only sets the time and clears what the command before sent and answered. -/
theorem State.arrive_quiet (s : State) (t : Nat) (h : ∀ e ∈ earliest s.dues, max s.now t < e.1) :
    s.arrive t = s.begin t :=
  State.settleTo_quiet { s with out := [], ans := {} } (max s.now t) s.waitingWork h

end Sys2Proof.Machine
end

