-- ==== Sys2Proof/WellFormed.lean ====
section
/-! DEFINITION. WellFormed.lean: what a command's operands can be, beyond their types: fields of the width the manual gives
them, lists of the length an interface carries, command words of the row's opcode. `exec` answers every command, well formed
or not; this says which ones an interface can deliver. -/

namespace Sys2Proof

/-- The opcode field of a station command (03 Table 03-5). -/
def Cmd.isOpcode (c : Cmd) (op : Nat) : Bool := Machine.bits c.word.toNat 127 120 == op

/-- Sizes of a hart's access (09 R310). -/
def accessSize (n : Nat) : Bool := n == 1 || n == 2 || n == 4 || n == 8

/-- Fields of a fabric packet in their widths (09 Table 09-3). -/
def Packet.shaped (k : Packet) : Bool :=
  decide (k.dst < 2 ^ 48) && decide (k.src < 2 ^ 48) && decide (k.op < 256) && decide (k.cls < 8) && decide (k.lane < 4) &&
  decide (k.addr < 2 ^ 48) && decide (k.len < 2 ^ 12) && decide (k.part < 4) && decide (k.unit < 2 ^ 16) &&
  decide (k.tag < 2 ^ 32) && decide (k.gen < 2 ^ 16) && decide (k.ord < 2 ^ 16)

/-- A request's class and the partition or member it is charged to (11 R376). -/
def Arrival.shaped (a : Arrival) : Bool := decide (a.cls ≤ 4) && decide (a.member ≤ 4) && decide (a.die < 32)

/-- The operands of a command are ones its interface can carry. -/
def Instr.wellFormed : Instr → Bool
  | .nop _ c => c.isOpcode 0x00
  | .setBase _ c => c.isOpcode 0x01
  | .sSetLo _ c => c.isOpcode 0x10
  | .sSetHi _ c => c.isOpcode 0x11
  | .sLoad _ c => c.isOpcode 0x12
  | .sStore _ c => c.isOpcode 0x13
  | .sInt _ c => c.isOpcode 0x14
  | .sFp64 _ c => c.isOpcode 0x15
  | .wSetup _ c => c.isOpcode 0x20
  | .wMma _ c => c.isOpcode 0x21
  | .tileStepStart _ _ w => decide (w < 32)
  | .tileStepCheck _ _ w _ => decide (w < 32)
  | .wBatt _ c => c.isOpcode 0x22
  | .wAccOut _ c => c.isOpcode 0x23
  | .wAccIn _ c => c.isOpcode 0x24
  | .tLoad _ c => c.isOpcode 0x40
  | .tAcc _ c => c.isOpcode 0x41
  | .tScale _ c => c.isOpcode 0x48
  | .tAdd _ c => c.isOpcode 0x50
  | .tSub _ c => c.isOpcode 0x51
  | .tMul _ c => c.isOpcode 0x52
  | .tDiv _ c => c.isOpcode 0x53
  | .tMin _ c => c.isOpcode 0x54
  | .tMax _ c => c.isOpcode 0x55
  | .tFma _ c => c.isOpcode 0x56
  | .tSqrt _ c => c.isOpcode 0x57
  | .tSign _ c => c.isOpcode 0x58
  | .tFunc _ c => c.isOpcode 0x60
  | .tCmp _ c => c.isOpcode 0x64
  | .tLive _ c => c.isOpcode 0x65
  | .tTri _ c => c.isOpcode 0x66
  | .tSel _ c => c.isOpcode 0x67
  | .tRsum _ c => c.isOpcode 0x68
  | .tRmax _ c => c.isOpcode 0x69
  | .tRmin _ c => c.isOpcode 0x6A
  | .tCsum _ c => c.isOpcode 0x6B
  | .tCmax _ c => c.isOpcode 0x6C
  | .tCmin _ c => c.isOpcode 0x6D
  | .tConv _ c => c.isOpcode 0x6E
  | .twistPassFlow _ _ e => decide (e < 8)
  | .tSmaxMax _ c => c.isOpcode 0x70
  | .tSmaxSum _ c => c.isOpcode 0x71
  | .tSmaxOut _ c => c.isOpcode 0x72
  | .tSmaxDot _ c => c.isOpcode 0x73
  | .tSmaxBwd _ c => c.isOpcode 0x74
  | .tNormSum _ c => c.isOpcode 0x75
  | .tNormVar _ c => c.isOpcode 0x76
  | .tNormOut _ c => c.isOpcode 0x77
  | .tNormDot _ c => c.isOpcode 0x78
  | .tNormBwd _ c => c.isOpcode 0x79
  | .tOptStep _ c => c.isOpcode 0x7C
  | .tOptCommit _ c => c.isOpcode 0x7D
  | .memFill _ c => c.isOpcode 0x80
  | .memCopy _ c => c.isOpcode 0x81
  | .cFill _ c => c.isOpcode 0xB0
  | .cCopy _ c => c.isOpcode 0xB1
  | .fColl _ c => c.isOpcode 0x90
  | .fVote _ c => c.isOpcode 0x91
  | .dShard _ c => c.isOpcode 0xA0
  | .lMark _ c => c.isOpcode 0xA8
  | .lDigest _ c => c.isOpcode 0xA9
  | .windowFlagSet _ _ w => decide (w < 64)
  | .solverLoad _ _ _ size rd _ fp lr => accessSize size && decide (rd < 32) && (!fp || decide (4 ≤ size)) && !(fp && lr)
  | .solverStore _ _ _ size rs2 rd _ => accessSize size && decide (rs2 < 32) && decide (rd < 32)
  | .ownAcquire _ _ _ rd _ => decide (rd < 32)
  | .ownRelease _ _ _ rd _ => decide (rd < 32)
  | .ownHandover _ _ _ rd _ => decide (rd < 32)
  | .gatherDoorbell _ _ rd _ => decide (rd < 32)
  | .collLaunchDoorbell _ _ rd _ => decide (rd < 32)
  | .ld _ k => k.shaped
  | .st _ k => k.shaped
  | .amoAdd _ k => k.shaped
  | .amoSwap _ k => k.shaped
  | .amoCas _ k => k.shaped
  | .amoAnd _ k => k.shaped
  | .amoOr _ k => k.shaped
  | .amoXor _ k => k.shaped
  | .amoMinu _ k => k.shaped
  | .amoMaxu _ k => k.shaped
  | .amoMin _ k => k.shaped
  | .amoMax _ k => k.shaped
  | .amoFadd _ k => k.shaped
  | .ownCmd _ k => k.shaped
  | .response _ k => k.shaped
  | .collLaunch _ k => k.shaped
  | .collChunk _ k _ => k.shaped
  | .collAck _ k => k.shaped
  | .collTaintPacket _ k => k.shaped
  | .collNak _ k => k.shaped
  | .commitVote _ k => k.shaped
  | .commitResult _ k => k.shaped
  | .rovingTile _ k => k.shaped
  | .channelCommandSlot _ _ _ arr _ => arr.all Arrival.shaped
  | .linkFrame _ _ c0 => c0.all fun e => decide (e.1 < 4)
  | .arbitrationRound _ _ _ arr => arr.all Arrival.shaped
  | .windowQuorumWrite _ _ _ sub _ => decide (1 ≤ sub) && decide (sub ≤ 64)
  | .shareWrite _ _ part sub _ => if part.val = 4 then sub == 0 else decide (1 ≤ sub) && decide (sub ≤ 5)
  | .odSubscribe _ _ _ _ data => data.length == 8
  | .odUnsubscribe _ _ data => data.length == 2
  | .clientHello _ _ body _ => body.length == 1220
  | .clientAuth _ _ _ body _ => body.length == 5261
  | .sessionClose _ _ _ seq tag => tag.length == 16 && decide (seq < 2 ^ 64)
  | .udpSegment _ _ _ msgId seg nseg total rsv data _ =>
    decide (msgId < 65536) && decide (seg < 256) && decide (nseg < 256) && decide (total < 65536) && decide (rsv < 65536) &&
    decide (data.length ≤ 1024)
  | .mctpMessage _ _ body _ => decide (body.length ≤ 12292)
  | .mbAoapMessage _ m _ => decide (m.length ≤ 12288)
  | .mbGetLog _ uuid _ _ => uuid.length == 16
  | .hostRead _ o => o % 64 == 0
  | .hostWrite _ o data _ => o % 64 == 0 && data.length == 64
  | .biSnoopResponse _ _ dirty => dirty.all fun e => e.2.length == 64
  | .cxlBiTimeout _ _ lines => !lines.isEmpty
  | .powerSample _ _ currents => (currents.map fun e => e.1).Nodup
  | .marginReplan _ ms => (ms.map fun m => m.die.val).Nodup
  | .dieSelfTest _ columns _ => columns.all fun e => decide (e.2.1 < 4096)
  | .cxlTraining _ ok width rate => !ok || (decide (1 ≤ width) && decide (width ≤ 16) && decide (rate ≤ 64))
  | .warmResetComplete _ columns _ => columns.all fun e => decide (e.2.1 < 4096)
  | .bxCsrWrite _ _ csr _ priv => decide (csr < 4096) && decide (priv < 6) && priv != 2
  | .tickBoundary .. | .cad1ppsEdge .. | .cad1ppsTimeout .. | .cadRef10mTimeout .. | .treadleEdge ..
  | .treadleTimeout .. | .ptpMessage .. | .cadenceHoldoverLimit .. | .cadenceMasterHandover .. | .draftLoad ..
  | .draftStart .. | .draftStop .. | .draftAbort .. | .draftUnload .. | .draftStartTick .. | .gate ..
  | .gateRetest .. | .stepCommit .. | .commitVoteLost .. | .outputRelease .. | .treadlePulseEnd .. | .rerunStart ..
  | .signatureCompare .. | .rovingTileSend .. | .rovingTileArrive .. | .rerunPauseEnd .. | .qChunk .. | .qNop ..
  | .bxFadd .. | .bxFsub .. | .bxFmul .. | .bxFdiv .. | .bxFsqrt .. | .bxFmin .. | .bxFmax .. | .bxFsgnj ..
  | .bxFmadd .. | .bxFmsub .. | .bxFnmadd .. | .bxFredosum .. | .bxFeq .. | .bxFlt .. | .bxFle .. | .bxAdd ..
  | .bxSub .. | .bxMul .. | .bxAnd .. | .bxOr .. | .bxXor .. | .bxSll .. | .bxSrl .. | .bxSra .. | .bxMinu ..
  | .bxMaxu .. | .bxMin .. | .bxMax .. | .bxSeq .. | .bxSltu .. | .bxSlt .. | .bxLd .. | .bxLdff .. | .bxSt ..
  | .bxTperm .. | .bxCvtn .. | .bxCvtw .. | .bxFcvt .. | .bxBcast .. | .bxMand .. | .bxMor .. | .bxMxor ..
  | .bxMandn .. | .bxMrd .. | .bxMwr .. | .bxExt .. | .bxSetvl .. | .bxWrel .. | .bxWstat .. | .bxWwait ..
  | .bxWwaitWake .. | .solverFence .. | .fenceComplete .. | .gatherComplete .. | .requestReissue ..
  | .requestDeadTimeout .. | .chunkResendTimeout .. | .genAheadExpiry .. | .admitRound .. | .channelSlotWindow ..
  | .requestPromote .. | .arbitrationBound .. | .codewordReceive .. | .laneLoss .. | .laneSpareRemap ..
  | .portRetrain .. | .portTraining .. | .linkNak .. | .flyoverRemoved .. | .scrubPass .. | .bondLaneReplace ..
  | .dramTempSample .. | .sramColumnRepair .. | .trafficGenStart .. | .trafficGenStop .. | .trafficGenDone ..
  | .dieHeartbeatLoss .. | .doffShardsAck .. | .doffManifestAck .. | .restoreRequest .. | .restoreFinish ..
  | .replayFabricInput .. | .roleMapWrite .. | .partitionCommit .. | .rngKeyWrite .. | .rngKeyEntropy ..
  | .reelReadWrite .. | .groupReform .. | .deadClear .. | .ownForceOpen .. | .regionEntryWrite .. | .lcRequest ..
  | .debugGrant .. | .svnCommit .. | .attestNonceWrite .. | .attestReportRead .. | .replanNow .. | .clockAccept ..
  | .clockChangeApply .. | .hdmSizeWrite .. | .resetRequestCold .. | .resetRequestWarm .. | .odWrite .. | .odRead ..
  | .odDescribe .. | .valueNotify .. | .aoapMessage .. | .sessionIdleTimeout .. | .sessionLifetimeExpiry ..
  | .udpReassemblyTimeout .. | .mbNotifyDrain .. | .mbHostCopy .. | .hostCopyDone .. | .mbOwnershipCmd ..
  | .mbCollLaunch .. | .mbIdentify .. | .mbGetSupportedLogs .. | .winReleaseWrite .. | .hostReleaseDone ..
  | .hostDoorbellWrite .. | .powerLimitEscalate .. | .thermalSample .. | .thermtrip .. | .droopAlert ..
  | .droopRelease .. | .ageingAccrue .. | .pkgResetAssert .. | .railOutOfRange .. | .pkgResetRelease .. | .pllLock ..
  | .sealBoot .. | .stewardStart .. | .stewardStartTimeout .. | .dramTraining .. | .startupUnlocked ..
  | .warmResetInput .. | .refclkLost .. | .cadRef10mOutOfRange .. | .delayReqSend .. | .ledgerEntryAgeOut ..
  | .heartbeatFlit .. | .winPendClear .. | .hdmDecoderCommit .. | .cxlPerstRelease .. | .ethLinkChange ..
  | .mctpEidAssign .. | .testPortInstruction .. | .avsSetpointStep .. | .coldResetDelayExpiry .. | .lcEraseDone .. => true

end Sys2Proof
end

