-- ==== Sys2Proof/Tests/Slice0.lean ====
section
/-! SUPPORT. Tests/Slice0.lean: small states, one theorem per statement that shows concrete states and operands meeting its
hypotheses, clause by clause, tests of single commands against values worked out from the manual, and for each check of
WellFormed a command it refuses. -/

set_option Elab.async false

namespace Sys2Proof.Tests

open Sys2Proof.Machine

/-! ### Small states -/

/-- A live dictionary in stage 9 that anyone may write (life-cycle state MAKER). -/
def live : State := { State.reset with boot := { live := true, stage := 9, reached9 := true }, sec := { life := .maker } }

/-- The same with its tick counter running, locked, and the link up. -/
def locked : State :=
  { live with
    cad := { tick := 100, everLocked := true, state := .locked, source := .pps }
    boot := { live.boot with cxlState := 2, cxlWidth := 16 } }

/-- Partition 0 with slot 0 and solver group 0, in the non-secure world; another with slot 1 and group 1. -/
def parted : State := (locked.odSet 0x3010 1 (2 ^ 32 + 2 ^ 16 + 1)).odSet 0x3010 2 (2 ^ 32 + 2 ^ 17 + 2)

/-- A draft of slot 0 of one package, one draft tick a step, with gates and windows. -/
def draftOf (gates : List GateDesc) (wins : List WinDesc) (rovs : List Roving) : Draft :=
  { image := [], hdr := [0, 1 + 2 ^ 16 + 2 ^ 32 + 2 ^ 56, 100000 + 3000 * 2 ^ 32 + 2 ^ 48, 0], gates := gates, wins := wins, rovs := rovs }

/-- Its partition, in a state. -/
def partIn (st : DraftState) (d : Draft) : Part := { state := st, draft := some d, wins := d.initWins [], winsCommit := d.initWins [] }

/-- A state whose partition 0 is given. -/
def withPart (x : Part) : State := { parted with parts := [(0, x)] }

/-- Partition 0 runs a plain draft. -/
def running : State := withPart (partIn .running (draftOf [] [] []))

/-- A command word of slot 0: opcode, station, and the bits below the station. -/
def cmd (op st low : Nat) : Cmd := ⟨0, BitVec.ofNat 128 (op * 2 ^ 120 + st * 2 ^ 104 + low)⟩

/-! ### Hypotheses that concrete states meet: the queue, the cadence unit, drafts -/

theorem wit_StepPerformsFront :
    ({ live with pending := [.tickBoundary 1] } : State).pending = Instr.tickBoundary 1 :: [] ∧ live.pending = [] := by
  decide

theorem wit_StepKeepsMemoryForm : Mem.wf live.mem = true ∧ step { live with pending := [.thermtrip 1] } =
    .next { live with now := 1, pins := { thermtripN := false } } := ⟨by decide +kernel, rfl⟩

theorem wit_QueueAndTimeKept : exec (.thermtrip 1) live = .next { live with now := 1, pins := { thermtripN := false } } := rfl

/-- Acquiring with 15 good ticks behind it: one more locks; the edge of CAD_1PPS came at a time. -/
def acquiring (edge : Nat) : State :=
  { live with cad := { state := .acquiring, source := .pps, lockCount := 15, pps := { last := some edge } } }

theorem wit_TickCounterRules :
    let tickEnd := 100000 * unitsPer10ns
    let s := locked.arrive (tickEnd + 100 * unitsPerNs)
    let e := locked.arrive (tickEnd - 1)
    let good := (acquiring 0).arrive tickEnd
    let off := (acquiring (51 * unitsPerNs)).arrive tickEnd
    (e.cad.dead = false ∧ e.now < e.cad.due) ∧ (s.cad.dead = false ∧ s.cad.due ≤ s.now ∧ s.cad.everLocked = true) ∧
    (good.cad.due ≤ good.now ∧ good.cad.everLocked = false ∧ good.cad.state = .acquiring ∧ 15 ≤ good.cad.lockCount ∧
      (good.phaseAt good.cad.due).natAbs ≤ 50 * unitsPerNs) ∧
    (off.cad.due ≤ off.now ∧ off.cad.freeRun = false ∧ 50 * unitsPerNs < (off.phaseAt off.cad.due).natAbs) ∧
    (s.cad.masterFx1 = false ∧ s.cfg.lost.contains 23 = false ∧ s.cad.due + 100 * unitsPerNs ≤ s.now) := by decide +kernel

/-- The last edge of CAD_1PPS came at time 0. -/
def edged : State := { locked with cad := { locked.cad with pps := { last := some 0, good := 15, ref10m := true } } }

theorem wit_PpsSourceHealth :
    (∀ t ∈ [unitsPerSec - unitsPerMs, unitsPerSec + unitsPerMs], (edged.arrive t).cad.pps.last = some 0 ∧
      unitsPerSec - unitsPerMs ≤ (edged.arrive t).now - 0 ∧ (edged.arrive t).now - 0 ≤ unitsPerSec + unitsPerMs) ∧
    (edged.arrive 9).now - 0 < unitsPerSec - unitsPerMs ∧ (edged.arrive 9).cad.pps.last = some 0 ∧
    unitsPerSec + unitsPerMs < (edged.arrive (2 * unitsPerSec)).now - 0 ∧
    (edged.arrive (2 * unitsPerSec)).cad.pps.last = some 0 := by decide +kernel

/-- A treadle edge has come at time 0. -/
def trodden : State := { locked with cad := { locked.cad with treadle := { last := some 0, good := 15, inRange := true } } }

theorem wit_TreadleHealth :
    let nom := trodden.odGet 0x2001 4 * trodden.odGet 0x2001 2 * unitsPer10ns
    trodden.odGet 0x2001 3 = b2n false ∧ trodden.odGet 0x2001 3 ≠ b2n true ∧ (live.arrive 0).cad.treadle.last = none ∧
    (∀ t ∈ [nom, 2 * nom, 105 * nom / 100 + 1], (trodden.arrive t).cad.treadle.last = some 0 ∧ (trodden.arrive t).now = t ∧
      (trodden.arrive t).odGet 0x2001 3 = 0 ∧ (trodden.arrive t).odGet 0x2001 4 * (trodden.arrive t).odGet 0x2001 2 * unitsPer10ns = nom) ∧
    (95 * nom ≤ 100 * nom ∧ 100 * nom ≤ 105 * nom ∧ 100 * nom < 105 * nom) ∧ 105 * nom < 100 * (2 * nom) ∧
    105 * nom ≤ 100 * (105 * nom / 100 + 1) := by decide +kernel

/-- Port 3 is up and carries in-band time of the master at path 7. -/
def timed : State :=
  { ((locked.odSet 0x2001 8 7).odSet 0x6003 4 0).odSet 0x2001 1 1 with
    ports := [(3, { state := .up })], cad := { locked.cad with inBand := { ports := 8 }, holdSince := some 0, state := .holdover } }

theorem wit_InBandTimeAndHoldover :
    let s := timed.arrive (timed.odGet 0x2001 9 * unitsPerMs + 1)
    (s.ptpPort 3 = true ∧ s.ptpPort 4 = false ∧ (7 : BitVec 48).toNat = s.odGet 0x2001 8 % 2 ^ 48 ∧ (7 : BitVec 48).toNat ≠ noPath ∧
      (8 : BitVec 48).toNat ≠ s.odGet 0x2001 8 % 2 ^ 48 ∧ bit (s.odGet 0x2001 1) 0 = true) ∧
    (timed.arrive 0).cad.inBand.port = some 3 ∧
    (s.cad.holdSince = some 0 ∧ s.cad.state = .holdover ∧ s.cad.holdRaised = false ∧
      s.odGet 0x2001 9 * unitsPerMs < s.now - 0) := by decide +kernel

/-- Partition 0's draft in a state, with start tick 102. -/
def drafted (st : DraftState) : State := (withPart (partIn st (draftOf [] [] []))).odSet 0x2020 5 102

/-- A partition whose image cannot be read (R73). -/
theorem wit_DraftLoadReason : ((parted.arrive 0).part 1).state = .empty ∧ (parted.arrive 0).imageThere 1 = false ∧
    ((parted.arrive 0).loadReason 1).1 ≠ 0 := by decide +kernel

theorem wit_DraftControlCommands :
    ((drafted .loaded).refusal none 0x2020 3 true = none ∧ ((drafted .loaded).part 0).state = .loaded ∧
      ((drafted .loaded).part 0).draft = some (draftOf [] [] []) ∧ (drafted .loaded).cad.everLocked = true ∧
      (drafted .loaded).cad.dead = false ∧ (draftOf [] [] []).packages ≤ 1 ∧
      (drafted .loaded).cad.tick.toNat + 2 ≤ (drafted .loaded).odGet 0x2020 5) ∧
    ((drafted .running).refusal none 0x2020 3 true = none ∧ ((drafted .running).part 0).state = .running) ∧
    ((drafted .armed).refusal none 0x2020 3 true = none ∧ ((drafted .armed).part 0).state = .armed) ∧
    ((drafted .halted).refusal none 0x2020 3 true = none ∧ ((drafted .halted).part 0).state = .halted) ∧
    (parted.refusal none 0x2021 3 true = none ∧ (parted.part 1).state = .empty) := by decide +kernel

theorem wit_DraftStartsAndReruns :
    let arm := { drafted .armed with cad := { locked.cad with tick := 102 } }
    let redo : State := withPart { partIn .running (draftOf [] [] []) with restoring := true }
    ((arm.part 0).state = .armed ∧ arm.odGet 0x2020 5 ≤ arm.cad.tick.toNat ∧ arm.lossVariant = some 0 ∧
      0 < (draftOf [] [] []).variants ∧ (arm.part 0).draft = some (draftOf [] [] [])) ∧
    (((drafted .armed).part 0).state = .armed ∧ (drafted .armed).cad.tick.toNat < (drafted .armed).odGet 0x2020 5) ∧
    ((redo.part 0).state = .running ∧ (redo.part 0).restoring = true) := by decide +kernel

/-- One window, and gates over it. -/
def win0 : WinDesc := { base := 0, size := 1, first := .spindle, double := true, extra := 0 }
def gateFrom (src dst : Side) (policy : Nat) : GateDesc :=
  { cycle := 0, tick := 0, window := 0, src := src, dst := dst, policy := policy, stallLimit := 1 }

/-- The draft of one gate runs, with its window as given. -/
def gated (g : GateDesc) (w : WinSt) : State :=
  (withPart { partIn .running (draftOf [g] [win0] []) with wins := [w] }).odSet 0x2020 11 8

theorem only_gate (gd : GateDesc) (i : Nat) (h : GateDesc) (e : [gd][i]? = some h) : i = 0 := by
  rcases i with _ | i <;> simp_all

theorem wit_GatesPassStallOrReuse :
    let out := gated (gateFrom .spindle .solver 0) { owner := .spindle, bufs := [.held .spindle, .spare] }
    let late := fun k => gated (gateFrom .solver .spindle k) { owner := .solver, bufs := [.held .solver, .spare] }
    let again : State := (withPart { partIn .running (draftOf [gateFrom .solver .spindle 0] [win0] []) with
      wins := [{ owner := .solver, bufs := [.held .solver, .spare] }], stalled := [0] })
    let good : State := (withPart { partIn .running (draftOf [gateFrom .solver .spindle 0] [win0] []) with
      wins := [{ owner := .solver, flag := true, bufs := [.released .solver, .spare] }], stalled := [0] })
    ((out.arrive 0).syncDraft 0 = out.arrive 0 ∧ (out.part 0).issuing = true ∧ (out.part 0).stepOver = false ∧
      (out.part 0).gatesDone.contains 0 = false ∧ ((out.win 0 0).heldBy .spindle).isSome = true ∧
      (out.part 0).replay.on = false ∧ (out.part 0).restoring = false ∧ 0 < (out.part 0).wins.length ∧ (out.part 0).stepTick = 0) ∧
    (∀ k ∈ [0, 1, 2], (late k).arrive 0 = ((late k).arrive 0).syncDraft 0 ∧ ((late k).part 0).issuing = true ∧
      ((late k).win 0 0).flag = false ∧ ((late k).part 0).undoOver = false ∧ ((late k).part 0).tainted = false ∧
      ((late k).part 0).lateRolls + 1 < (late k).odGet 0x2020 11) ∧
    (draftOf [gateFrom .solver .spindle 2] [win0] []).packages ≤ 1 ∧
    ((again.part 0).stalled = [0] ∧ (again.part 0).waiting = [] ∧ (again.win 0 0).flag = false ∧
      (again.part 0).stallSlip + 1 ≤ (gateFrom .solver .spindle 0).stallLimit) ∧
    ((good.win 0 0).flag = true ∧ ((good.win 0 0).passable .solver).isSome = true ∧ (good.part 0).stalled = [0]) := by
  decide +kernel

/-- The step of a draft stands at its commit cycle, its signature checked or not. -/
def atEnd (packages : Nat) (ok : List Nat) : State :=
  let d := { draftOf [] [] [] with hdr := [0, 1 + 2 ^ 16 + 2 ^ 32 + 2 ^ 56, 100000 + 3000 * 2 ^ 32 + packages * 2 ^ 48, 0] }
  { withPart { partIn .running d with sigOk := ok, sched := 100 } with now := 30 * unitsPerMs }

theorem foldl_keep {α β : Type} (f : β → α → β) (b : β) (h : ∀ a, f b a = b) (l : List α) : l.foldl f b = b := by
  induction l with
  | nil => rfl
  | cons a l ih => rw [List.foldl_cons, h, ih]

/-- With no error in memory every statistics record reads well. -/
theorem statsCheck_clean (s : State) (p : Nat) (hl : s.lines = []) (he : s.sramErr = []) : (s.statsCheck p).2 = true := by
  have hr : ∀ k n, s.readCheck k n = (s, []) := by
    intro k n
    unfold State.readCheck State.readLines State.readWords
    simp [hl, he]
  have hc : ∀ n t, s.recCheck p n t [] = (s, true) := by
    intro n t
    unfold State.recCheck
    split <;> simp [hr]
  unfold State.statsCheck
  rw [foldl_keep]
  intro n
  rw [foldl_keep]
  simp [hc]

theorem wit_StepCommitStats : ∀ ok ∈ [[0], []], (((atEnd 1 ok).arrive 0).statsCheck 0).2 = true := fun ok h =>
  statsCheck_clean _ _ (by fin_cases h <;> decide +kernel) (by fin_cases h <;> decide +kernel)

theorem wit_StepCommitEffect :
    (∀ ok ∈ [[0], []], ((atEnd 1 ok).arrive 0).syncDraft 0 = (atEnd 1 ok).arrive 0 ∧
      ((((atEnd 1 ok).part 0).draft).map fun d => ((atEnd 1 ok).arrive 0).atCommit 0 d && d.packages == 1 &&
        (atEnd 1 ok).checksPassed d && (d.slots.all fun n => ok.contains n) == !ok.isEmpty) = some true) ∧
    ((((atEnd 2 []).part 0).draft).map fun d => ((atEnd 2 []).arrive 0).atCommit 0 d && decide (1 < d.packages) &&
      decide ((atEnd 2 []).commitTime 0 d + 20 * unitsPerUs ≤ max (atEnd 2 []).now 0)) = some true ∧
    ((atEnd 2 []).part 0).voteResult = none := by decide +kernel

/-- A step of epoch 5 ran in tick 92 and committed in a tick. -/
def pulsed (c : Nat) : State :=
  withPart { partIn .running (draftOf [] [] []) with commits := [{ epoch := 5, first := 92, last := 92, committed := c }] }

theorem wit_OutputReleaseRules :
    let held : HeldOut := { window := 63, buf := 0, tick := 90, epoch := 0, committed := some 91 }
    let s := withPart { partIn .running (draftOf [] [] []) with held := [held], epoch := 2 }
    let p : State := { locked with pins := { treadleOut := true, treadleEnd := 5 } }
    (held ∈ (s.part 0).held ∧ held.committed = some 91 ∧ held.window < 64 ∧
      max (held.tick + s.odGet 0x2004 0) (91 + 1) ≤ s.cad.tick.toNat) ∧
    (((pulsed 97).part 0).pulseStep ⟨92, 0, 5⟩ = some ⟨5, 92, 92, 97, false⟩ ∧ (pulsed 97).cad.dead = false ∧
      ((pulsed 97).part 0).dropTick = none ∧ ((pulsed 97).part 0).pulseStep ⟨92, 0, 6⟩ = none ∧
      92 + (pulsed 97).odGet 0x2004 0 = (pulsed 97).cad.tick.toNat ∧ 0 ≤ (pulsed 97).cycleInTick) ∧
    (97 < 92 + (pulsed 97).odGet 0x2004 0 ∧ 92 + (pulsed 99).odGet 0x2004 0 ≤ 100 ∧ 99 + 1 ≤ (pulsed 99).cad.tick.toNat) ∧
    (p.pins.treadleOut = true ∧ p.pins.treadleEnd ≤ max p.now 5 ∧ p.cad.dead = false) := by decide +kernel

/-- A slot whose stream's digest is the draft's entry. -/
theorem wit_SignatureComparison :
    let sig := shake256 32 []
    let d := { draftOf [] [] [] with
      image := sig ++ List.replicate 64 0, hdr := (draftOf [] [] []).hdr ++ [0, 0, 0, 0, 0, 0, 0, 32] }
    let s := withPart (partIn .running d)
    (s.partOfSlot 0 = some 0 ∧ (s.part 0).draft = some d ∧ (s.part 0).state = .running ∧ (s.part 0).restoring = false ∧
      bit d.slotMask 0 = true ∧ (s.part 0).stepTick = 0 ∧ 0 + 1 = d.stepTicks ∧ d.packages ≤ 1 ∧
      (s.part 0).undoOver = false ∧ (s.part 0).tainted = false ∧ (s.part 0).faultRolls = [] ∧ 2 ≤ s.odGet 0x8001 0) ∧
    shake256 32 (s.flyer 0).msg = d.signature (s.part 0).variant 0 0 (d.stallGates 0).length := by decide +kernel


/-! ### Flyers, stations, rovings, whorls, twists -/

/-- The state just after a command of slot 0 issues; whether it does. -/
def issued (s : State) (c : Cmd) (op : Nat) : State := ((s.atIssue 0 0 c).issueAt 0 c op).1
def issues (s : State) (c : Cmd) (op : Nat) : Bool :=
  (s.arrive 0).partOfSlot c.slot.val == some 0 && ((s.arrive 0).syncDraft 0).mayIssue 0 c.slot.val &&
  (s.atIssue 0 0 c).mayIssue 0 c.slot.val && ((s.atIssue 0 0 c).issueAt 0 c op).2 == some ⟨0, 0, 0, 0⟩

theorem issues_as (s : State) (c : Cmd) (op : Nat) (h : issues s c op = true) :
    s.IssuesAs 0 c op ⟨0, 0, 0, 0⟩ (issued s c op) := by
  simp only [issues, Bool.and_eq_true, beq_iff_eq] at h
  simp only [State.IssuesAs, State.CanIssue, issued]
  generalize (s.atIssue 0 0 c).issueAt 0 c op = y at h ⊢
  exact ⟨⟨h.1.1.1, h.1.1.2, h.1.2⟩, Prod.ext rfl h.2⟩

/-- With no error in memory a station's read of a place it may reach gives its bytes. -/
theorem c0Read_clean (s : State) (p n st pa len k : Nat) (det : List EvField) (hl : s.lines = []) (he : s.sramErr = [])
    (hk : s.stationKey p pa len = .ok k) : s.c0Read p n st pa len det = (s, some (Mem.readN s.mem k len)) := by
  have hr : s.readCheck k len = (s, []) := by
    unfold State.readCheck State.readLines State.readWords
    simp [hl, he]
  unfold State.c0Read
  rw [hk]
  simp [hr]

theorem wit_CommandIssueRules :
    let s := running.atIssue 0 0 (cmd 0 0 0)
    let late := { running with flyers := [(0, { last := 1 })] }.atIssue 0 0 (cmd 0 0 0)
    let full := { running with flyers := [(0, { inCycle := 2 })] }.atIssue 0 0 (cmd 0 0 0)
    (issues running (cmd 0 0 0) 0 = true ∧ s.draftCycle 0 = 0 ∧ ((s.flyer 0).land 0).last = 0 ∧ ((s.flyer 0).land 0).inCycle = 0) ∧
    ((cmd 0 0 0).opcode = 0 ∧ (cmd 0 0 0).station = 0 ∧ (cmd 0 0 0).format = 0 ∧ usedRovings (cmd 0 0 0) = []) ∧
    ((draftOf [] [] []).packages ≤ 1 ∧ (s.part 0).draft = some (draftOf [] [] []) ∧ (s.part 0).undoOver = false ∧
      (s.part 0).tainted = false ∧ (s.part 0).state = .running ∧ (s.part 0).restoring = false ∧
      (s.part 0).faultRolls = [] ∧ 2 ≤ s.odGet 0x8001 0) ∧
    (0 < ((late.flyer 0).land 0).last ∧ ((full.flyer 0).land 0).last = 0 ∧ 2 ≤ ((full.flyer 0).land 0).inCycle ∧
      late.mayIssue 0 0 = true ∧ full.mayIssue 0 0 = true ∧ (cmd 1 0 0).opcode ≠ 0 ∧ (cmd 0 1 0).station ≠ 0) := by
  decide +kernel

theorem wit_ScalarCommands :
    (∀ op ∈ [0x01, 0x10, 0x11, 0x12, 0x13, 0x14, 0x15], issues running (cmd op 0 8) op = true ∧
      fmGet ((issued running (cmd op 0 8) op).flyer 0).sregErr 0 0 = 0) ∧
    (cmd 0x01 0 8).operand % 2 ^ 32 < (draftOf [] [] []).span ∧
    (cmd 0x12 0 8).operand % 2 ^ 27 % 8 = 0 ∧
    (let s := issued running (cmd 0x12 0 8) 0x12
     s.c0Read 0 0 0 (sramBase 0 + sharedOff + 8) 8 (s.cmdPlace 0 (s.part 0).stepTick 0) = (s, some (List.replicate 8 0)) ∧
     Mem.wf s.mem = true ∧
     (match s.stationKey 0 (sramBase 0 + sharedOff + 8) 8 with | .ok _ => true | .error _ => false) = true) ∧
    (∀ m ∈ [0, 1, 2, 3, 4, 5, 6, 7, 8], issues running (cmd 0x14 0 (m * 2 ^ 64)) 0x14 = true ∧
      (cmd 0x14 0 (m * 2 ^ 64)).mod % 16 = m ∧
      (fmGet ((issued running (cmd 0x14 0 (m * 2 ^ 64)) 0x14).flyer 0).sreg 0 0).toNat < 64) ∧
    sFp64 0 0 0 = some 0 := by decide +kernel

/-- The spindle side holds buffer 0 of window 0 (2 MiB of the slot's stack), where the partition may write. -/
def couple : State :=
  ((withPart { partIn .running (draftOf [] [win0] []) with wins := [{ owner := .spindle, bufs := [.held .spindle, .spare] }] }).odSet
    0x9100 0 (2 ^ 35 + 7 * 2 ^ 15)).odSet 0x2034 2 0

/-- A roving of slot 0 from a station to a station. -/
def rov (src dst format : Nat) : Roving :=
  { srcStation := src, srcSlot := 0, dstSlot := 0, dstStation := dst, format := format, tensor := 0, count := 2, interval := 0
    startTick := 0, startCycle := 0, remoteRoving := 0, ring := 0, srcAddr := 0, dstAddr := 0, firstIndex := 0, remotePath := 0, remoteSlot := 0 }

/-- A command that stands at a station of slot 0, with its scalars. -/
def stood (op st low a b : Nat) : StCmd :=
  { p := 0, n := 0, st := st, word := op * 2 ^ 120 + st * 2 ^ 104 + low, arrival := 0, tick := 0, pos := 0, a := a, b := b }

/-- The same state with that command at the head of its station. -/
def stands (s : State) (c : StCmd) : State := s.setStation c.n c.st { s.station c.n c.st with cmds := [c] }

theorem wit_stations_issue :
    let s := withPart (partIn .running (draftOf [] [win0] [rov 0x3000 0x6000 3, rov 0x3000 0x5000 3, rov 0x3000 0x4000 3, rov 0x4000 0x3000 3]))
    (∀ c ∈ [cmd 0x80 0x3000 1, cmd 0x81 0x3000 1, cmd 0xB0 0x7000 1, cmd 0xB1 0x7000 1, cmd 0xA8 0x6000 0, cmd 0xA9 0x6000 0,
        cmd 0xA0 0x5000 (2 ^ 92), cmd 0x90 0x4000 (2 * 2 ^ 92 + 3 * 2 ^ 27), cmd 0x91 0x4000 0],
      issues s c c.opcode = true ∧ fmGet ((issued s c c.opcode).flyer 0).sregErr c.sa 0 = 0 ∧
      fmGet ((issued s c c.opcode).flyer 0).sregErr c.sb 0 = 0) := by decide +kernel

theorem wit_MemoryAndReelStations :
    let f := stood 0x80 0x3000 1 0 0
    let g := stood 0xB0 0x7000 1 0 0
    let m := stood 0x81 0x3000 1 0 64
    let h := stood 0xB1 0x7000 1 0 64
    ((f.st / 4096 = 3 ∧ (couple.station 0 0x3000).cmds = []) ∧ ∀ c ∈ [f, g, m, h], ((stands couple c).station c.n c.st).cmds = [c]) ∧
    (∀ c ∈ [f, m], (stands couple c).endpointMem 0 0 c.st = some (sramBase 0, 2 ^ 24)) ∧
    (∀ c ∈ [g, h], (stands couple c).endpointMem 0 0 c.st = some (0, 2 ^ 21)) ∧
    (∀ c ∈ [f, g, m, h], c.operand % 2 ^ 32 * 64 = 64 ∧ Mem.wf (stands couple c).mem = true) ∧
    (∀ e ∈ [(f, sramBase 0), (m, sramBase 0 + 64), (g, 0), (h, 64)],
      (match (stands couple e.1).stationKey 0 e.2 64 with | .ok _ => true | _ => false) = true) ∧
    (apart 0 64 64 = true ∧
      (stands couple m).c0Read 0 0 0x3000 (sramBase 0) 64 ((stands couple m).cmdPlace 0 0 0) = (stands couple m, some (List.replicate 64 0)) ∧
      (stands couple h).c0Read 0 0 0x7000 0 64 ((stands couple h).cmdPlace 0 0 0) = (stands couple h, some (List.replicate 64 0))) ∧
    (stood 0x80 0x3000 0 0 0).operand % 2 ^ 32 * 64 = 0 := by decide +kernel

theorem wit_digest_and_shard :
    let s := withPart (partIn .running (draftOf [] [] [rov 0x3000 0x6000 3, rov 0x3000 0x5000 3]))
    let g := stood 0xA9 0x6000 0 0 0
    let e := stood 0xA0 0x5000 (2 ^ 92) 0 0
    let d := { s with mem := [(sramKey 0 sharedOff + 24, 1)] }
    let read := List.replicate 24 0 ++ [1] ++ List.replicate 39 0
    ((stands s g).roving 0 g.roving = some (rov 0x3000 0x6000 3) ∧ (rov 0x3000 0x6000 3).endsAt 0 0x6000 = true ∧
      ((stands s g).station 0 0x6000).takes = [] ∧ ((stands s g).station 0 0x6000).queue = []) ∧
    ((stands d e).roving 0 e.roving = some (rov 0x3000 0x5000 3) ∧ (rov 0x3000 0x5000 3).endsAt 0 0x5000 = true ∧
      ((stands d e).station 0 0x5000).takes = [] ∧ ((stands d e).station 0 0x5000).queue = [] ∧
      (stands d e).c0Read 0 0 0x5000 (sramBase 0 + sharedOff) 64 ((stands d e).cmdPlace 0 0 0) = (stands d e, some read) ∧
      bits (nth (wordsOf read) 0 0) 17 16 ≠ 3 ∧ bits (nth (wordsOf read) 0 0) 19 18 = 0 ∧
      0 < bits (nth (wordsOf read) 3 0) 31 0) := by decide +kernel

theorem wit_RovingTilesMove :
    let v := { rov 0x2000 0x1000 3 with interval := 9 }
    let d := draftOf [] [] [v]
    let tile : Tile := ⟨3, [], [], 0⟩
    let s := ((withPart { partIn .running d with outs := [(0, 0, 0, tile)] }).arrive 0).syncDraft 0
    let e := ((withPart { partIn .running d with left := [(0, 1)] }).arrive 0).syncDraft 0
    let f := ((withPart { partIn .running d with flight := [(0, 0, 0, tile)] }).arrive 0).syncDraft 0
    ((s.part 0).draft = some d ∧ s.departure 0 d v 0 = some 0 ∧ (s.part 0).issuing = true ∧
      fmGet (s.part 0).left 0 0 = 0 ∧ 0 < v.count ∧ v.invalid = false ∧ v.fromAway = false ∧ v.sendsAway = false ∧
      v.srcStation / 4096 = 2 ∧ (s.tileDelay v).isSome = true ∧
      (s.part 0).outs.find? (fun o => o.1 == 0 && o.2.1 == 0 && decide (o.2.2.1 ≤ s.now)) = some (0, 0, 0, tile)) ∧
    ((e.departure 0 d v 1).any (fun k => decide (e.now < k)) = true ∧ fmGet (e.part 0).left 0 0 = 1) ∧
    ((f.part 0).flight.find? (fun e => e.1 == 0 && e.2.1 == 0 && decide (e.2.2.1 ≤ f.now)) = some (0, 0, 0, tile) ∧
      f.dieOfSlot 0 = some 0 ∧ v.dstStation / 4096 = 1 ∧ f.queueFull 0 0 0x1000 0 = false ∧ (f.station 0 0x1000).takes = []) := by
  decide +kernel

theorem wit_WhorlCommands :
    let s : State := { withPart (partIn .running (draftOf [] [] [rov 0x1000 0x4000 7, rov 0x3000 0x1000 7])) with
      whorls := [(0, { bank0 := { ready := true } })] }
    let out := stood 0x23 0x1000 (7 * 2 ^ 86) 0 0
    let inn := stood 0x24 0x1000 (2 ^ 92) 0 0
    let batt := stood 0x22 0x1000 (5 * 2 ^ 86) 0 0
    let heads := fun c : StCmd => { s with whorls := [(0, { bank0 := { ready := true }, queue := [c] })] }
    (∀ op ∈ [0x20, 0x21, 0x22, 0x23, 0x24], issues s (cmd op 0x1000 (if op = 0x24 then 2 ^ 92 else if op = 0x23 then 7 * 2 ^ 86 else
        if op = 0x22 then 5 * 2 ^ 86 else 2 ^ 92 + 2 ^ 12)) op = true) ∧
    (s.waitingAt (s.whorl 0 0) s.now = 0 ∧
      ∀ c ∈ [stood 0x20 0x1000 0 0 0, out, inn, batt], c.st / 4096 = 1 ∧ ((heads c).whorl 0 0).queue = [c] ∧
        ((heads c).whorl 0 0).inUse c.wBank 0 = false ∧ (((heads c).whorl 0 0).bank c.wBank).ready = true ∧
        (((heads c).whorl 0 0).bank c.wBank).long = false ∧ (((heads c).whorl 0 0).bank c.wBank).err = []) ∧
    ((heads out).roving 0 out.roving = some (rov 0x1000 0x4000 7) ∧ (rov 0x1000 0x4000 7).beginsAt 0 0x1000 = true ∧
      out.format = 7 ∧ out.f 65 65 = 0) ∧
    ((heads inn).roving 0 inn.roving = some (rov 0x3000 0x1000 7) ∧ (rov 0x3000 0x1000 7).endsAt 0 0x1000 = true ∧
      inn.format = 0 ∧ inn.f 65 65 = 0 ∧ (draftOf [] [] [rov 0x1000 0x4000 7, rov 0x3000 0x1000 7]).portB 0 0x1000 1 = false) ∧
    (batt.format = 5 ∧ batt.f 20 0 = 0 ∧ (heads batt).battReader 0 0 = none ∧
      (heads batt).lines = [] ∧ (heads batt).sramErr = [] ∧
      (match (heads batt).stationKey 0 (sramBase 0 + battOff) 67712 with | .ok _ => true | _ => false) = true) := by
  decide +kernel

theorem wit_TileStepsAndReruns :
    let a : Tile := ⟨3, [], [], 0⟩
    let c := stood 0x21 0x1000 (3 * 2 ^ 65) 0 0
    let e : TileStep := { bank := 0, tick := 0, pos := 0, a := [a], b := [a], transA := false, transB := false, kTile := 0, start := 0, cycles := 128, attempt := 2 }
    let s : State := { running with whorls := [(0, { bank0 := { ready := true }, queue := [c], heldA := [a], heldB := [a], nextStep := 5 })] }
    let k : State := { running with whorls := [(0, { steps := [e] })] }
    let z : State := withPart { partIn .running (draftOf [] [] []) with pauseUntil := some 5 }
    ((s.arrive 0).runsOn 0 = some 0 ∧ ((s.arrive 0).whorl 0 0).queue = [c] ∧ c.op = 0x21 ∧
      (s.arrive 0).now < max c.arrival ((s.arrive 0).whorl 0 0).nextStep ∧
      max c.arrival ((s.arrive 5).whorl 0 0).nextStep ≤ (s.arrive 5).now ∧ (s.arrive 5).dues = []) ∧
    (let x := (s.arrive 5).whorl 0 0
     c.wBank = 0 ∧ (x.bank 0).ready = true ∧ (x.bank 0).kLast = none ∧ (x.bank 0).path = 0 ∧ (x.bank 0).outUntil ≤ 5 ∧
      c.f 65 65 = 1 ∧ c.f 66 66 = 1 ∧ x.heldA = [a] ∧ x.heldB = [a] ∧ pathTakes 0 a a = true ∧ c.st % 64 = 0) ∧
    (((k.arrive 0).whorl 0 0).steps = e :: [] ∧ (k.arrive 0).runsOn 0 = some 0 ∧
      (k.arrive 0).now < e.start + (e.cycles + 23) * (k.arrive 0).cycleUnits ∧
      e.start + (e.cycles + 23) * (k.arrive (10 * unitsPerUs)).cycleUnits ≤ (k.arrive (10 * unitsPerUs)).now ∧
      (((k.arrive (10 * unitsPerUs)).whorl 0 0).bank e.bank).err = [] ∧ e.bank < 2 ∧ e.attempt < 3 ∧
      stepChecked (((k.arrive (10 * unitsPerUs)).whorl 0 0).bank e.bank) e (.product 0 0 0 1 0) = none) ∧
    (((z.arrive 5).part 0).pauseUntil = some 5 ∧ 5 ≤ (z.arrive 5).now ∧ ((z.arrive 5).part 0).stalled = []) := by decide +kernel

/-- The opcodes of the twist engines. -/
def twistOps : List Nat :=
  [0x40, 0x41, 0x48, 0x50, 0x51, 0x52, 0x53, 0x54, 0x55, 0x56, 0x57, 0x58, 0x60, 0x64, 0x65, 0x66, 0x67, 0x68, 0x69, 0x6A, 0x6B,
   0x6C, 0x6D, 0x6E, 0x70, 0x71, 0x72, 0x73, 0x74, 0x75, 0x76, 0x77, 0x78, 0x79, 0x7C, 0x7D]

theorem wit_TwistCommandsAssemble :
    let first := stood 0x40 0x2000 2 0 0
    let next := stood 0x48 0x2000 0 0 0
    let busy : State := { running with twists := [(0, { pass := [first] })] }
    let waits : State := { running with twists := [(0, { queue := [first] })] }
    (∀ op ∈ twistOps, issues (withPart (partIn .running (draftOf [] [] [rov 0x2000 0x1000 3]))) (cmd op 0x2000 2) op = true) ∧ readsA (cmd 0x48 0x2000 2) = true ∧
    ((issued running (cmd 0x48 0x2000 2) 0x48).flyer 0).sregErr = [] ∧
    (first.st / 4096 = 2 ∧ first.srcA ≠ 0 ∧ (busy.twist 0 0).queue = [] ∧ next.srcA = 0 ∧ (busy.twist 0 0).pass ≠ [] ∧
      busy.now < (busy.twist 0 0).began + 8 * busy.cycleUnits ∧ canJoin [first] next = true ∧ first.wide = next.wide ∧
      (running.twist 0 0).pass = [] ∧ (running.twist 0 0).queue = []) ∧
    ((waits.twist 0 0).pass = [] ∧ (waits.twist 0 0).queue = [first]) := by decide +kernel

theorem wit_TwistStagesAndPasses :
    let c0 := stood 0x48 0x2000 (2 * 2 ^ 8 + 2) 0 0
    let x : Flow := ⟨1, 1, false, #[0], #[true], #[{}], #[], 0⟩
    let s : State := { running with twists := [(0, { pass := [c0] })] }
    0 < x.size ∧ c0.op = 0x48 ∧ c0.srcA = 2 ∧ twistStage c0.op < 7 ∧ twistBad c0 = false ∧
    ((s.arrive 200).runsOn 0 = some 0 ∧ ((s.arrive 200).twist 0 0).pass = [c0] ∧ ((s.arrive 200).twist 0 0).queue = [] ∧
      (s.arrive 200).flowTime ((s.arrive 200).twist 0 0) ≤ (s.arrive 200).now ∧ (s.arrive 200).dues = [] ∧
      (s.arrive 0).now < (s.arrive 0).flowTime ((s.arrive 0).twist 0 0)) := by decide +kernel
/-! ### Vector operations and coupling windows -/

/-- A word of custom-0 (0x0B) or custom-1 (0x2B): funct6, vs2, vs1, vd. -/
def bxWord (major f6 b a d : Nat) : Nat := f6 * 2 ^ 26 + b * 2 ^ 20 + a * 2 ^ 15 + d * 2 ^ 7 + major

/-- Hart 0 with its vector state: 2^e bytes an element, groups of one register, vl elements. -/
def vecHart (e vl : Nat) : Hart :=
  { bxbs := 1, bxvtype := BitVec.ofNat 64 e, bxvl := BitVec.ofNat 64 vl, v := [(2, 5), (3, 7)] }

/-- A state with that hart. -/
def vec (e vl : Nat) : State := { running with harts := [(0, vecHart e vl)] }

theorem wit_vector_ready : (vec 2 4).BxReady 0 ∧ (vec 3 4).BxReady 0 ∧ (vec 3 0).BxReady 0 := by
  unfold State.BxReady; decide +kernel

theorem wit_BvxFloatOperations :
    (∀ f6 ∈ [0, 1, 2, 3, 5, 6, 7, 8, 9, 10], custom0 f6 true (bxWord 0x0B f6 2 3 1) = true ∧
      (vec 2 4).operandsOk 0 (bxWord 0x0B f6 2 3 1) true true = true ∧ (vec 3 4).operandsOk 0 (bxWord 0x0B f6 2 3 1) true true = true) ∧
    (custom0 4 false (bxWord 0x0B 4 2 0 1) && bxA (bxWord 0x0B 4 2 0 1) == 0) = true ∧
    (vec 2 4).operandsOk 0 (bxWord 0x0B 4 2 0 1) true true = true ∧
    0 < ((vec 2 4).hart 0).vl ∧ ((vec 2 4).hart 0).rm.isSome = true := by decide +kernel

theorem wit_FredosumInOrder :
    custom0 0x0B false (bxWord 0x0B 0x0B 2 3 1) = true ∧ (vec 2 4).operandsOk 0 (bxWord 0x0B 0x0B 2 3 1) true true = true ∧
    0 < ((vec 2 4).hart 0).vl ∧ ((vec 2 4).hart 0).rm = some .rne := by decide +kernel

theorem wit_BvxIntegerOperations :
    ∀ f6 ∈ [0x10, 0x11, 0x12, 0x13, 0x14, 0x15, 0x16, 0x17, 0x18, 0x19, 0x1A, 0x1B, 0x1C],
      custom0 f6 true (bxWord 0x0B f6 2 3 1) = true ∧ custom0 f6 true (bxWord 0x0B (32 + f6) 2 3 1) = true ∧
      (vec 0 4).operandsOk 0 (bxWord 0x0B f6 2 3 1) false true = true ∧ 0 < ((vec 0 4).hart 0).vl := by decide +kernel

theorem wit_BvxComparesAndMasks :
    (∀ f6 ∈ [0x0C, 0x0D, 0x0E, 0x1D, 0x1E, 0x1F], custom0 f6 true (bxWord 0x0B f6 2 3 1) = true ∧ bxD (bxWord 0x0B f6 2 3 7) = 7 ∧
      (∀ fp ∈ [true, false], (vec 2 4).operandsOk 0 (bxWord 0x0B f6 2 3 7) fp false = true) ∧ bxD (bxWord 0x0B f6 2 3 8) = 8) ∧
    (∀ f6 ∈ [0x0C, 0x0D, 0x0E, 0x0F], custom1 f6 false (bxWord 0x2B f6 2 3 1) = true) ∧ 0 < ((vec 2 4).hart 0).vl := by
  decide +kernel

theorem wit_BvxMovesAndPermutes :
    let s := vec 2 4
    let n := bxWord 0x2B 0x18
    custom1 0x18 false (n 2 3 1) = true ∧ bit (n 2 3 1) 24 = false ∧ bit (n 15 3 1) 24 = false ∧
    512 < 2 ^ bits (n 12 3 1) 23 22 * 4096 / (8 * 2 ^ bits (n 12 3 1) 21 20) ∧
    2 ^ bits (n 2 3 1) 23 22 * 4096 / (8 * 2 ^ bits (n 2 3 1) 21 20) = 128 ∧
    custom1 0x10 false (bxWord 0x2B 0x10 7 3 1) = true ∧ custom1 0x11 false (bxWord 0x2B 0x11 7 3 1) = true ∧
    custom1 0x12 false (bxWord 0x2B 0x12 2 3 1) = true ∧ aligned (s.hart 0).group [2] = true ∧
    (∀ b ∈ [0, 1], custom1 0x0B true (bxWord 0x2B 0x0B b 3 1) = true ∧ bxB (bxWord 0x2B 0x0B b 3 1) = b) ∧
    (∀ k ∈ [0, 1, 2, 3], bxF6 (bxWord 0x2B (4 + k) 8 3 1) = 4 + k ∧ aligned (s.hart 0).group [1, 3] = true ∧
      aligned (2 ^ k) [8] = true ∧ overlap 8 (2 ^ k) 3 1 = false ∧ overlap 8 (2 ^ k) 1 1 = false ∧ overlap 3 1 1 1 = false) ∧
    0 < (s.hart 0).vl := by decide +kernel

theorem wit_BvxConversions :
    let s := vec 2 4
    let d := vec 3 4
    let z : State := { running with harts := [(0, { vecHart 3 4 with bxhank := 0 })] }
    (∀ sub ∈ [2, 3, 4, 5], custom1 0x0A true (bxWord 0x2B 0x0A sub 3 1) = true ∧ bxB (bxWord 0x2B 0x0A sub 3 1) = sub) ∧
    (32 ≤ (s.hart 0).ew ∧ aligned (s.hart 0).group [3] = true ∧ 0 < (s.hart 0).vl ∧ (s.hart 0).rm = some .rne ∧ (s.hart 0).bxstart = 0) ∧
    (custom1 0x08 false (bxWord 0x2B 0x08 2 3 1) = true ∧ (s.hart 0).cvOk = true ∧ (s.hart 0).cvHank = 0 ∧
      aligned (s.hart 0).codeRegs [1] = true ∧ overlap 1 (s.hart 0).codeRegs 3 (s.hart 0).group = false ∧
      overlap 1 (s.hart 0).codeRegs 2 1 = false ∧ overlap 2 1 3 (s.hart 0).group = false ∧ (s.hart 0).vl ≤ (s.hart 0).vlmax) ∧
    (custom1 0x09 false (bxWord 0x2B 0x09 2 3 1) = true ∧ (d.hart 0).cvOk = true ∧ (d.hart 0).ew = 64 ∧ (d.hart 0).bxstart = 0 ∧
      aligned (d.hart 0).codeRegs [3] = true ∧ aligned (d.hart 0).group [1] = true ∧ 0 < (d.hart 0).vl) ∧
    ((z.hart 0).cvOk = false ∧ (z.hart 0).bxbs ≠ 0 ∧ (z.hart 0).ill = false ∧ z.hartGone 0 = false) := by decide +kernel

/-- What a vector access reports. -/
def faultOf (r : State × Option (Nat × Nat × Nat) × Option Nat) : Option (Nat × Nat × Nat) × Option Nat := r.2

theorem wit_BvxLoadsAndStores :
    let s : State := { couple with harts := [(0, vecHart 3 2)] }
    let l := bxWord 0x2B 0 0 3 1
    let go := fun (pf : Option PageFault) (st : Bool) => (s.arrive 0).elements 0 l st pf
      (fun s i => if st then s.storeElem 0 l i else s.loadElem 0 l i) (s.active 0 l)
    let go1 := fun (pf : Option PageFault) => (s.arrive 0).elements 0 (bxWord 0x2B 1 0 3 1) false pf
      (fun s i => s.loadElem 0 (bxWord 0x2B 1 0 3 1) i) (s.active 0 (bxWord 0x2B 1 0 3 1))
    bxB l = 0 ∧ aligned (s.hart 0).group [bxD l] = true ∧ (∀ f6 ∈ [0, 1, 2], custom1 f6 true (bxWord 0x2B f6 0 3 1) = true) ∧
    ((vec 3 0).hart 0).vl = 0 ∧ 0 < (s.hart 0).vl ∧ s.active 0 l = [0, 1] ∧
    (∀ st ∈ [true, false], faultOf (go none st) = (none, none) ∧ (faultOf (go (some ⟨1, 13, 0⟩) st)).1.map (fun e => e.1) = some 1) ∧
    (faultOf (go1 (some ⟨0, 13, 0⟩))).1.map (fun e => e.1) = some 0 ∧
    (faultOf (go1 (some ⟨1, 13, 0⟩))).1.map (fun e => e.1) = some 1 ∧ (s.active 0 (bxWord 0x2B 1 0 3 1)).head? = some 0 := by
  decide +kernel

theorem wit_CouplingWindows :
    let s : State := { couple with harts := [(0, vecHart 3 2)] }
    let wrel := bxWord 0x2B 0x19 0 3 1
    let with' := fun (y : WinSt) => { s with parts := [(0, { s.part 0 with wins := [y] })] }
    let held : WinSt := { owner := .solver, bufs := [.held .solver, .spare] }
    let h3 : State := { s with harts := [(0, { vecHart 3 2 with waiting := some (0, 1) })] }
    (custom1 0x19 false wrel = true ∧ (s.srcUnit (hartUnit 0)).outstanding = [] ∧ (s.srcUnit (hartUnit 0)).held = []) ∧
    (s.hartWindow 0 (s.getX 0 (bxA wrel)) = some (0, win0) ∧ s.getX 0 (bxA wrel) < (s.part 0).wins.length ∧ s.hartWindow 0 1 = none) ∧
    (s.solverHolds 0 0 = false ∧ (with' held).solverHolds 0 0 = true ∧ ((with' held).win 0 0).writeBack = false ∧
      ((with' { held with writeBack := true }).win 0 0).writeBack = true ∧ ((with' held).win 0 0).counted = [] ∧
      0 ∈ ((with' { held with counted := [0] }).win 0 0).counted) ∧
    (custom1 0x1A false (bxWord 0x2B 0x1A 0 3 1) = true ∧ custom1 0x1B false (bxWord 0x2B 0x1B 0 3 1) = true ∧
      s.waitEnds 0 0 = false ∧ (with' held).waitEnds 0 0 = true) ∧
    ((s.hart 0).mode = .machine ∧ bit ((s.hart 0).getCsr 0x300) 21 = false ∧
      (let z : Hart := { vecHart 3 2 with mode := .user, csr := [(0x300, 2 ^ 21)] }
       z.mode ≠ .machine ∧ bit (z.getCsr 0x300) 21 = true) ∧
      (let z : Hart := { vecHart 3 2 with mode := .virtualUser, csr := [(0x600, 2 ^ 21)] }
       z.mode.virtual = true ∧ bit (z.getCsr 0x600) 21 = true ∧ bit (z.getCsr 0x300) 21 = false)) ∧
    ((h3.hart 0).waiting = some (0, 1) ∧ h3.hartGone 0 = false ∧ s.waitEnds 0 1 = true ∧
      0 < ((with' { held with writeBack := true }).part 0).wins.length) := by decide +kernel

theorem wit_QuorumAndCsrWrites :
    let off : State := { running with harts := [(0, { bxbs := 0 })], now := unitsPerUs }
    (∀ sub ∈ [1, 33], live.refusal none 0x2024 sub true = none) ∧ (live.part 0).state = .empty ∧
    (1 : BitVec 16).toNat = 1 ∧ (256 : BitVec 16).toNat = 256 ∧ (running.part 0).state = .running ∧
    running.refusal none 0x2024 1 true = none ∧ 256 < (257 : BitVec 16).toNat ∧
    ((vec 3 2).hart 0).bxbs ≠ 0 ∧ (vec 3 2).hartGone 0 = false ∧ (off.hart 0).bxbs = 0 ∧ off.hartGone 0 = false ∧
    off.sameCycle (off.hart 0).pendAt = false ∧ off.sameCycle off.now = true ∧ off.sameCycle (off.hart 0).mipAt = false ∧
    modeOf 3 = .machine ∧ modeOf 0 = .user ∧ modeOf 1 = .supervisor := by decide +kernel

/-! ### The fabric -/

/-- The first 16 MiB of solver die 0's stack belong to partition 0, which the host and remote packages reach too; ports 1
and 2 are up at level 0, and the package has the path whose digits are all 0. -/
def home : State :=
  { (((running.odSet 0x9112 0 (2 ^ 35 + 2 ^ 34 + 2 ^ 33 + 7 * 2 ^ 15)).odSet 0x6001 0 0).odSet 0x6002 2 1) with
    ports := [(1, { state := .up })] }

/-- Its first address. -/
def pa0 : Nat := 18 * 2 ^ 36

/-- A source unit of hart 0 in that state. -/
def homeUnit (x : Source) : State := { home with fab := { home.fab with sources := [(hartUnit 0, x)] } }

theorem wit_HartMemoryAccesses :
    let s := home
    let s0 := s.arrive 0
    let r : State := { home with harts := [(0, { reserved := some pa0 })] }
    let g : State := { home with harts := [(0, { mode := .user, csr := [(0x3B0, BitVec.ofNat 64 (2 ^ 53))] })] }
    let r2 := (r.arrive 0).setHart 0 { r.hart 0 with reserved := none }
    (s.hartGone 0 = false ∧ bit pa0 55 = false ∧ s.hartRoute 0 pa0 = .here ∧ s.host.held = [] ∧ pa0 % 2 ^ 48 = pa0 ∧
      (∀ w ∈ [true, false], ∀ size ∈ [1, 2, 4, 8], s0.pmpStops 0 pa0 size w = false ∧ g.pmpStops 0 pa0 size w = true) ∧ Mem.wf s.mem = true) ∧
    (∀ size ∈ [1, 2, 4, 8], pa0 % size = 0 ∧ s.place pa0 = .stack 18 0 ∧ s0.readCheck pa0 size = (s0, [])) ∧
    (∀ c ∈ [Acc.rd, .wr, .amo], s0.verdict (.hart 0) c pa0 = (s0, .ok pa0)) ∧ s.coherent pa0 = true ∧
    (r2.verdict (.hart 0) .wr pa0 = (r2, .ok pa0) ∧ r2.readCheck pa0 8 = (r2, []) ∧ (r.hart 0).reserved = some pa0) ∧
    (s.hart 0).reserved ≠ some pa0 ∧ (∀ size ∈ [2, 4, 8], (pa0 + 1) % size ≠ 0) ∧ s.coherent (pa0 + 1) = true := by decide +kernel

/-- The lines of memory at an address hold these bytes. -/
def homeWith (l : List (Nat × Byte)) : State := { home with mem := l.map fun e => (pa0 + e.1, e.2) }

theorem wit_FencesOwnershipAndGathers :
    let n := hartUnit 0
    let f : Fence := { marks := [(5, 1)] }
    let open_ := homeUnit { fences := [f] }
    let met := homeUnit { fences := [f], answered := [(5, 1)] }
    let err := homeUnit { fences := [{ f with err := some 5 }], answered := [(5, 1)] }
    let g : Gather := { count := 1, lane := 0, dest := pa0, cmpl := pa0, elems := [(pa0, 1)], done := [0] }
    let full : State := { home with fab := { home.fab with gathers := (List.range 16).map fun j => (j, g) } }
    let owned := home.setOwn (pa0 / 2 ^ 21) 1 0 7
    let d := homeWith [(0, 64), (4, 0x20), (5, 1), (6, 1), (68, 0x20), (69, 1), (70, 1)]
    home.hartGone 0 = false ∧
    ((open_.srcUnit n).fences = [f] ∧ f.marks.any (fun e => decide (fmGet (open_.srcUnit n).answered e.1 0 < e.2) &&
      !open_.fab.dead.contains e.1) = true) ∧
    ((met.srcUnit n).fences = [f] ∧ f.marks.all (fun e => decide (e.2 ≤ fmGet (met.srcUnit n).answered e.1 0)) = true ∧ f.peers = [] ∧ f.err = none) ∧
    ((err.srcUnit n).fences = [{ f with err := some 5 }] ∧ f.marks.all (err.fenceMet (err.srcUnit n)) = true) ∧
    (pa0 % 2 ^ 21 = 0 ∧ home.unitFull n 1 = false ∧ home.hartRoute 0 pa0 = .here ∧
      (home.arrive 0).ctlCheck (.hart 0) pa0 = (home.arrive 0, 0) ∧ (home.ownEnt (pa0 / 2 ^ 21)).state = 0 ∧
      (owned.ownEnt (pa0 / 2 ^ 21)).state = 1 ∧ (owned.ownEnt (pa0 / 2 ^ 21)).path ≠ owned.ownPath ∧
      (owned.arrive 0).ctlCheck (.hart 0) pa0 = (owned.arrive 0, 0)) ∧
    ((∀ j < 16, (full.gather 0 j).isSome = true) ∧ home.gather 0 0 = none ∧ 1 % 64 ≠ 0) ∧
    ((d.arrive 0).gatherDesc 0 pa0 = (d.arrive 0, some [pa0 + 64 + 2 ^ 48, 0, 0, 0, 0, 0, 0, 0]) ∧
      (d.arrive 0).gatherList 0 (pa0 + 64) 1 = (d.arrive 0, some [(pa0, 1)]) ∧ d.gather 0 0 = none ∧ d.coll.colls = [] ∧ d.host.held = [] ∧
      d.hartRoute 0 (2 ^ 48) ≠ .here) ∧
    (full.gather 0 0 = some g ∧ g.count ≤ g.done.length ∧ g.failed = []) := by
  decide +kernel

/-- A remote request to the first address, from unit 0 of package 2^24 (an all-0 path but for one digit). -/
def remote (op len : Nat) (data : List Byte) : Packet :=
  { dst := 0, op := op, addr := pa0, len := len, src := 2 ^ 24, unit := 0, data := data, gen := 1 }

/-- The ordering state of that source. -/
def homeOrd (x : OrdSrc) : State := { home with fab := { home.fab with ordering := [(ordKey (2 ^ 24) 0, x)] } }

theorem wit_IncomingStoresAndAtomics :
    let s := homeOrd {}
    let acc := fun (s : State) (k : Packet) => orderAccept (s.ordSrc (ordKey k.src k.unit)) k.gen k.ord k.resync
    let idle : State := { (homeOrd {}).odSet 0x4002 0 0 with parts := [] }
    let s2 := (idle.arrive 0).setOrd (ordKey (2 ^ 24) 0) (acc s (remote 2 8 [])).1
    let late := homeOrd { valid := true, gen := 2 }
    let ahead := homeOrd { valid := true, gen := 1, next := 5 }
    (∀ k ∈ [remote 2 8 (List.replicate 8 1), remote 0x10 8 (List.replicate 8 1), remote 0x12 4 (List.replicate 8 1),
        remote 0x1A 8 (List.replicate 8 0)],
      s.fab.dead.contains k.src = false ∧ acc s k = ({ valid := true, gen := 1 }, .apply) ∧
      (acc s k).1.ledgerFull 0 = false ∧ wellMade k = true ∧ k.len ≤ 8 ∧ s2.fabricIn k = none ∧ (s.orderHome k.src k.unit).isSome = true ∧ idle.place k.addr = .stack 18 0 ∧
      s2.verdict (.remote k.src k.unit k.part k.world) (if k.op = 2 then .wr else .amo) k.addr = (s2, .ok pa0) ∧
      s2.readCheck pa0 k.len = (s2, [])) ∧
    idle.odGet 0x4002 0 ≠ 1 ∧ idle.host.held = [] ∧ Mem.wf idle.mem = true ∧
    ((acc late (remote 2 8 [])).2 = .stale ∧ (late.portFor false (2 ^ 24) 0).isSome = true) ∧
    ((acc ahead { remote 2 8 [] with ord := 6 }).2 = .hold ∧ (acc ahead { remote 2 8 [] with ord := 5 }).2 = .apply ∧
      (acc ahead { remote 2 8 [] with ord := 4 }).2 = .duplicate ∧ (acc ahead { remote 2 8 [] with ord := 6 }).1.held = []) := by decide +kernel

theorem wit_IncomingLoadsAndOwnership :
    let s := homeOrd {}
    let k := remote 1 8 []
    let o := remote 0x28 8 (bytesOf 8 1 ++ List.replicate 8 0)
    let y := orderAccept (s.ordSrc (ordKey (2 ^ 24) 0)) 1 0 false
    let s2 := (s.arrive 0).setOrd (ordKey (2 ^ 24) 0) y.1
    let a := remote 0x10 8 (List.replicate 8 1)
    let h : State := { homeOrd { valid := true, gen := 1, held := [a] } with parts := [] }
    (s.fab.dead.contains (2 ^ 24) = false ∧ wellMade k = true ∧
      (s.arrive 0).loadLocal (.remote (2 ^ 24) 0 0 false) 0 pa0 8 = (s.arrive 0, some (List.replicate 8 0, 0)) ∧
      (s.portFor false (2 ^ 24) 0).isSome = true) ∧
    (y.2 = .apply ∧ y.1.held = [] ∧ y.1.ledgerFull 0 = false ∧ o.data = bytesOf 8 1 ++ List.replicate 8 0 ∧ o.len = 8 ∧
      s2.ctlCheck (.remote (2 ^ 24) 0 0 false) pa0 = (s2, 0) ∧ (s.ownEnt (pa0 / 2 ^ 21)).state = 0) ∧
    ((h.ordSrc (ordKey (2 ^ 24) 0)).held = [a] ∧ a.ord = (h.ordSrc (ordKey (2 ^ 24) 0)).next ∧ 0x10 ≤ a.op ∧
      (h.ordSrc (ordKey (2 ^ 24) 0)).ledgerFull 0 = false ∧
      ((h.arrive 0).perform a).2 = some (List.replicate 8 0, 0, 0) ∧
      ((h.arrive 0).perform a).1.ordSrc (ordKey (2 ^ 24) 0) = h.ordSrc (ordKey (2 ^ 24) 0)) := by decide +kernel

theorem wit_ResponsesAndDeadTargets :
    let n := hartUnit 0
    let q : Packet := { dst := 2 ^ 24, op := 1, addr := pa0, len := 8, src := 0, unit := n, tag := 3, gen := 1 }
    let r : Request := { pkt := q, first := 0, deliver := .xreg 0 5 8 false }
    let k : Packet := { q with dst := 0, src := 2 ^ 24, op := 0x81, data := List.replicate 8 1 }
    let s := homeUnit { outstanding := [(3, r)] }
    let z := homeUnit { outstanding := [(3, { r with deliver := .none })] }
    (k.unit = n ∧ k.tag = 3 ∧ s.fab.dead.contains k.src = false ∧ fmGet? (home.srcUnit n).outstanding 3 = none ∧
      fmGet? (s.srcUnit n).outstanding 3 = some r ∧ k.op = r.pkt.op + 0x80 ∧ k.gen = r.pkt.gen ∧ k.status = 0 ∧ (s.srcUnit n).held = []) ∧
    (r.reissues < 4 ∧ r.first + 4 * unitsPerUs * (r.reissues + 1) ≤ max s.now (4 * unitsPerUs) ∧
      max s.now (4 * unitsPerUs - 1) < r.first + 4 * unitsPerUs * (r.reissues + 1) ∧ (s.portFor false (2 ^ 24) n).isSome = true) ∧
    (r.first + 20 * unitsPerUs ≤ max z.now (20 * unitsPerUs) ∧ max z.now (20 * unitsPerUs - 1) < r.first + 20 * unitsPerUs ∧
      z.coll.colls = [] ∧ (z.srcUnit n).held = [] ∧ fmGet? (z.srcUnit n).outstanding 3 = some { r with deliver := .none }) ∧
    ((home.port 1).state.usable = true ∧ home.refusal none 0x6020 0 true = none) := by decide +kernel

theorem wit_ForceOpen : home.refusal none 0x6030 0 true = none ∧ home.place (BitVec.ofNat 64 pa0).toNat = .stack 18 0 := by decide +kernel

/-! ### Collectives -/

/-- Members at the positions 0 and 1, this package of rank 0, and the head of their one node. -/
def pair : Group := { ownRank := 0, formed := true, members := [(0, false, 0), (1, false, 1)], nodes := [(0x3F, 0, 0)] }

/-- That group as group 0 and group 63 of partition 0, with collectives outstanding. -/
def grouped (cs : Fm Collective) : State :=
  { home with coll := { home.coll with groups := [(0, pair), (63, pair)], colls := cs } }

/-- An all-reduce of 64 bytes of group 0. -/
def reduceAll : Collective := { red := 1, size := 64, known := true, launchedHere := true, cmpl := pa0 }

/-- A packet of it from rank 1, at a depth, with words after its header. -/
def collPkt (op depth : Nat) (w : List Nat) : Packet :=
  { dst := 0, src := 1, unit := engineUnit 0, op := op, cls := 3, data := chunkHeader 0 reduceAll depth false 0 1 ++ bytesOfWords w }

theorem wit_CollectivePackets :
    let c := reduceAll
    let s := grouped [(0, c)]
    let k := collPkt 0x30 7 [3 * 2 ^ 1, 0]
    let launch := collPkt 0x30 7 [1 * 2 ^ 3 + 64 * 2 ^ 32, 0, 0, 0, 0]
    let hd := readHead k.data
    let kept : Kept := { dst := 1, depth := 7, down := false, chunk := 0, rank := 0, bytes := [], taint := false }
    (s.fab.dead.contains k.src = false ∧ (s.arrive 0).collCheck k = (s.arrive 0, some hd) ∧ s.coll? (hd.key false) = some c ∧
      k.tag = 0 ∧ k.ord = 0 ∧ hd.key false = collKey 0 0 0) ∧
    (hd.down = false ∧ k.cls ≠ 0 ∧ s.myNode pair 7 = some 0 ∧ c.known = true ∧
      c.agrees (Collective.learn {} (wordsOf (launch.data.drop 16))) = true ∧
      (pair.kids (pair.pos hd.rank) 7).all (fun d => fmHas (fmSet c.launches (7 * 64 + digit (pair.pos hd.rank) 7) 0) (7 * 64 + d)) = false) ∧
    (c.part = hd.part ∧ c.group = hd.group ∧ c.memberDone = false ∧ c.allDone 15 = false ∧ pair.ownRank ≠ 0x7FF ∧ c.draft = false) ∧
    ((fmGet c.acks hd.chunk []).all (fun e => e.1 != hd.rank) = true ∧
      (fmGet c.acks hd.chunk []).length + 1 < (pair.present.filter fun m => c.receives pair m.1 hd.chunk).length) ∧
    (natOf (((collPkt 0x34 7 [1]).data.drop 16).take 8) = 1 ∧ natOf (((collPkt 0x34 7 [2]).data.drop 16).take 8) = 2 ∧
      c.launchedHere = true ∧ c.stages = [] ∧ s.key? c.cmpl = some pa0 ∧ Mem.wf s.mem = true) ∧
    (max s.now (unitsPerMs - 1) < 0 + unitsPerMs ∧ 0 + unitsPerMs ≤ max s.now unitsPerMs ∧ { c with aheadAt := some 0 }.aheadAt = some 0) ∧
    ((∀ a ∈ [true, false], (({ c with kept := [{ kept with ahead := a }] }.kept.any fun x => x.ahead) = a)) ∧
      kept.is 1 7 false 0 = true ∧ kept.op = 0x31 ∧ max s.now 5 < kept.first + 4 * unitsPerUs * min 5 2 ∧
      kept.first + 4 * unitsPerUs * 2 ≤ max s.now (8 * unitsPerUs) ∧ kept.first + 20 * unitsPerUs ≤ max s.now (20 * unitsPerUs) ∧
      kept.last + 4 * unitsPerUs ≤ max s.now (8 * unitsPerUs) ∧ { kept with ahead := true }.is 1 7 false 0 = true) ∧
    (let two := { c with size := 8192, heard := [(heardKey 7 true 0 0, 0)] }
     ({ s with now := 4 * unitsPerUs }).asksFor two 1 7 true 1 = true ∧
      ({ s with now := 4 * unitsPerUs - 1 }).asksFor two 1 7 true 1 = false ∧
      ({ s with now := 4 * unitsPerUs }).asksFor two 1 7 true 0 = false) ∧
    (((s.portFor true 1 (engineUnit 0)).isSome || (s.portFor false 1 (engineUnit 0)).isSome) = true) := by decide +kernel

theorem wit_LaunchAdmissionAndGroups :
    let bar := [(0, 0x40), (1, 1), (28, 0x20), (29, 1), (33, 1), (36, 0x20), (37, 1)]
    let at_ := fun (l : List (Nat × Byte)) (g : Group) (cs : Fm Collective) =>
      { homeWith l with coll := { home.coll with groups := [(0, g)], colls := cs } }
    let bytes := Mem.readN (homeWith bar).mem pa0 64
    let c := readDesc 0 (wordsOf bytes)
    let s := at_ bar pair []
    let eight := at_ bar pair ((List.range 8).map fun i => (i, { reduceAll with cseq := i }))
    let w : Stage := { waiting := true, need := 1 }
    let small : Collective := { reduceAll with stages := [(stageKey 0 15, w)] }
    let room := fun (n : Nat) (v : Stage) => (at_ [] { pair with nodes := [] } [(0, { small with stages := [(stageKey 0 15, v)] })]).odSet 0x3020 4 n
    (s.hartGone 0 = false ∧ s.partOfHart 0 = some 0 ∧ pa0 % 64 = 0 ∧
      (s.arrive 0).loadLocal (.hart 0) 0 pa0 64 = (s.arrive 0, some (bytes, 0))) ∧
    (home.dynValid (readDesc 0 [1]) [1] = false ∧ s.dynValid c (wordsOf bytes) = true ∧ (s.group 0 c.group).formed = true ∧
      (s.group 0 c.group).ownRank ≠ 0x7FF ∧ ((at_ bar {} []).group 0 c.group).formed = false ∧ (at_ bar {} []).dynValid c (wordsOf bytes) = true) ∧
    (8 ≤ (eight.coll.colls.filter fun e =>
      e.2.part == 0 && e.2.group == c.group && !e.2.draft && e.2.launchedHere && !e.2.memberDone).length ∧
      ((s.arrive 0).launchColl 0 (wordsOf bytes)).2 = 0) ∧
    (small.draft = false ∧ w.admitted = false ∧ w.sent = [] ∧ w.downIn = [] ∧ small.memberDone = false ∧ small.finished = [] ∧
      0 < small.segs ∧ small.granted = [] ∧ ((room 4 w).groupOf small).nodes = [] ∧
      (((room 4 w).groupOf small).parent ((room 4 w).stagePos ((room 4 w).groupOf small) 15) 15).isSome = true ∧
      small.upList ((room 4 w).groupOf small) ((room 4 w).stagePos ((room 4 w).groupOf small) 15) 15 0 ≠ [] ∧
      (room 4 w).coll.lastRound + unitsPerUs ≤ max (room 4 w).now unitsPerUs ∧
      w.need ≤ ((room 4 w).creelFree 0).length ∧ ((room 0 w).creelFree 0).length < w.need) := by decide +kernel

/-- Memory with a member list of paths 0 and 1 at its first address and the tree's node at offset 64, and no draft running. -/
def reformable : State :=
  ({ homeWith [(16, 1), (24, 1), (64, 0x3F), (80, 0xFF), (81, 0xFF), (82, 0xFF), (83, 0xFF), (84, 0xFF), (85, 0xFF)] with parts := [] }).odSet 0x7010 1
    (pa0 + 2 * 2 ^ 48 + (pa0 + 64) * 2 ^ 64 + 2 ^ 112)

theorem wit_groups_reform :
    (match (reformable.reformReads 0 0).reform 0 0 with
     | .ok x => decide (x.ownRank = 0 ∧ x.mgen = 1)
     | .error _ => false) = true ∧
    (reformable.reformReads 0 0).coll.colls = [] ∧ reformable.refusal none 0x7014 0 true = none ∧ home.refusal none 0x7014 0 true = none ∧
    (match (State.reformReads { home with parts := [] } 0 0).reform 0 0 with
     | .ok _ => false
     | .error e => e == 4) = true ∧ (home.part 0).state = .running := by decide +kernel

/-- A draft with a tile collective: rovings 0 into F and 1 out of it, and a descriptor of slot 0 in its SRAM. -/
def collDraft : State :=
  { (withPart (partIn .running (draftOf [] [] [rov 0x3000 0x4000 5, rov 0x4000 0x3000 5]))).odSet 0x3020 4 4 with
    mem := [(sramKey 0 sharedOff + 1, 2), (sramKey 0 sharedOff + 4, 1), (sramKey 0 sharedOff + 8, 1), (sramKey 0 sharedOff + 13, 4)]
    coll := { colls := [(2 ^ 40, { draft := true, launchedHere := true, red := 1, desc := 0 })] } }

theorem wit_draft_collective :
    let c := stood 0x90 0x4000 (2 ^ 27) 0 0
    let s1 := collDraft
    let l := Mem.readN s1.mem (sramKey 0 sharedOff) 64
    let d := readDesc 0 (wordsOf l)
    let v := stood 0x91 0x4000 0 0 0
    (((stands s1 c).station 0 0x4000).cmds = [c] ∧ s1.roving 0 c.roving = some (rov 0x3000 0x4000 5) ∧
      s1.roving 0 (c.f 38 27) = some (rov 0x4000 0x3000 5) ∧ (rov 0x3000 0x4000 5).endsAt 0 c.st = true ∧
      (rov 0x4000 0x3000 5).beginsAt 0 c.st = true ∧ c.f 26 0 % 64 = 0 ∧
      s1.c0Read 0 0 c.st (sramBase 0 + sharedOff + c.f 26 0) 64 (s1.cmdPlace 0 0 0) = (s1, some l) ∧ d.op ≠ 5 ∧ 0 < d.size) ∧
    (s1.draftDescOk 0 0 5 (d.size * payloadBytes 5) (wordsOf l) = true ∧
      ((s1.draftColls 0).find? (fun e => e.2.desc == c.f 26 0 && !fmHas e.2.outs 0)).isSome = true ∧
      ((s1.station 0 c.st).queue.find? fun q => q.roving == c.roving) = none ∧ (s1.station 0 c.st).takes = []) ∧
    (v.op = 0x91 ∧ ((stands s1 v).station 0 0x4000).cmds = [v] ∧ (s1.part 0).voteSent = false ∧
      (draftOf [] [] []).slots.head? = some 0 ∧ (draftOf [] [] []).packages = 1) := by decide +kernel

/-- A draft of one sequencer entry at fabric die 0: deliver chunk 0 of the collective of descriptor 0. -/
def seqDraft : State :=
  let image := bytesOf 4 8 ++ bytesOf 4 1 ++ bytesOf 16 (2 ^ 120 + 2 ^ 94 + 15 * 2 ^ 95)
  let d := { draftOf [] [] [] with image := image, hdr := (draftOf [] [] []).hdr ++ [0, 0, 0, 0, 0, 24 * 2 ^ 32] }
  { withPart (partIn .running d) with
    coll := { colls := [(2 ^ 40, { draft := true, launchedHere := true, red := 1, stages := [(stageKey 0 15, { downIn := [(0, ([], false))] })] })] } }

theorem wit_DraftCollectivesAndVotes :
    let c : Collective := { reduceAll with draft := true }
    let s := grouped [(2 ^ 40, c)]
    let k := fun (body : List Byte) => { collPkt 0x31 7 [] with cls := 0, data := chunkHeader 0 c 7 false 0 1 ++ body }
    let body := fun (l : List Byte) => ((k l).data.drop 16).take 4096
    let trailer := fun (l : List Byte) => natOf (((k l).data.drop 4112).take 8)
    let hd := readHead (k []).data
    let v : Packet := { dst := 0, src := 1, unit := 0, op := 0x35, data := voteBytes (voteWords true 0) }
    let away := { rov 0x4000 0x3000 3 with remotePath := 5, remoteRoving := 0 }
    (s.fab.dead.contains (k []).src = false ∧ (s.arrive 0).collCheck (k []) = (s.arrive 0, some hd) ∧ (k []).cls = 0 ∧ hd.down = false ∧
      s.coll? (hd.key true) = some c ∧ s.myNode (s.group hd.part hd.group) hd.depth = some 0 ∧ c.part = hd.part ∧
      bits (trailer []) 31 0 = (crc32c (body [])).toNat ∧ bit (trailer []) 32 = false ∧
      bits (trailer [0]) 31 0 ≠ (crc32c (body [0])).toNat) ∧
    ((seqDraft.arrive 0).syncDraft 0 = seqDraft.arrive 0 ∧
      ((seqDraft.arrive 0).seqEntry 0 0 0 1).map (fun e => (bit e.1 94, bits e.1 98 95, bits e.1 119 99 * 64, bits e.1 63 32)) = some (true, 15, 0, 0) ∧
      ((seqDraft.draftColls 0).filter fun x => x.2.desc == 0).length = 1 ∧ (seqDraft.collOf (2 ^ 40)).outs = [] ∧
      fmGet? ((seqDraft.collOf (2 ^ 40)).stage 0 15).downIn 0 = some ([], false)) ∧
    (v.tag = 0 ∧ v.ord = 0 ∧
      (s.nodeDepths pair).reverse.findSome? (fun j => ((pair.kids (s.stagePos pair j) j).find? fun d =>
        s.childPath pair (pair.childPos (s.stagePos pair j) j d) j == v.src).map fun d => (j, pair.childPos (s.stagePos pair j) j d)) =
        some (7, 1) ∧
      (pair.kids 1 7).all (fun d => fmHas (fmSet [] (7 * 64 + digit 1 7) (votePacket v)) (7 * 64 + d)) = false) ∧
    (home.nodeDepths (home.group 0 63) = [] ∧ (home.part 0).state = .running ∧ (home.part 0).restoring = false ∧
      votePacket v = voteWords true (home.part 0).epoch.toNat ∧ (locked.part 0).state ≠ .running) ∧
    (let t := withPart (partIn .running (draftOf [] [] [away]))
     t.runsOn 0 = some 0 ∧ away.invalid = false ∧ t.roving 0 0 = some away ∧ away.fromAway = true ∧ away.srcSlot = 0 ∧ (t.dieOfSlot 0).isSome = true ∧
      t.queueFull 0 0 0x4000 0 = false) := by decide +kernel

/-! ### Links, memory and its upkeep -/

theorem wit_ArbitrationRules :
    let r : ArbReq := { cls := 2, member := 0, cost := 1, line := 0, die := 0, seq := 0 }
    let s := fun (r : ArbReq) => { home with arb := [(arbKey (.bridge 0), { c24 := { reqs := [r] } })] }
    let gain := (s r).arbWeight (.bridge 0) 0 * 17
    let a := ((s r).point (.bridge 0)).arb false
    ((s r).partValid 0 = true ∧ (s r).powerCapped = false ∧ ((s r).point (.bridge 0)).outside = [] ∧ a.reqs = [r] ∧ a.granted = [] ∧
      a.deficit = [] ∧ r.cost ≤ gain ∧ { r with cost := gain }.cost ≤ gain ∧ gain < { r with cost := gain + 1 }.cost ∧ r.age < 16) ∧
    (s r).yields (.bridge 0) false = false ∧
    ({ home with arb := [(arbKey (.bridge 0), { c1 := { reqs := [{ r with cls := 1 }] } })] }).yields (.bridge 0) true = false ∧
    ({ home with arb := [(arbKey (.bridge 0), { frameC1 := 64, c1 := { reqs := [{ r with cls := 1 }] }, c24 := { reqs := [r] } })] }).yields (.bridge 0) true = true ∧
    ({ home with arb := [(arbKey (.bridge 0), { frameC1 := 63, c1 := { reqs := [{ r with cls := 1 }] }, c24 := { reqs := [r] } })] }).yields (.bridge 0) false = true ∧
    (home.port 1).egress = [] ∧
    (∀ p < 4, fmGet (home.port 1).frameC0 p 0 ≤ home.frameBudget p) := by decide +kernel

theorem wit_PortRules :
    let at_ := fun (x : Port) => { home with ports := [(1, x)] }
    let s := at_ { state := .training }
    let two := home.odSet 0x6002 2 3
    ((home.port 1).state = .up ∧ (home.port 1).state.usable = true ∧ home.compat 1 = false ∧ (home.port 1).erased = none ∧
      (home.port 1).egress = [] ∧ (home.port 1).spared ≠ some 6 ∧ ((at_ { state := .up, erased := some 6 }).port 1).erased = some 6) ∧
    ((((home.port 1).badRecent.filter fun b => decide (0 < b + unitsPerUs)) ++ [0]).length < 16 ∧
      16 ≤ (((at_ { state := .up, badRecent := List.replicate 15 0 }).port 1).badRecent.filter
        (fun b => decide (0 < b + unitsPerUs)) ++ [0]).length) ∧
    (((at_ { state := .up, erased := some 5 }).port 1).erased = some 5 ∧ 5 < 6) ∧
    (0 + 100 * unitsPerMs ≤ max s.now (100 * unitsPerMs) ∧ max s.now (100 * unitsPerMs - 1) < 0 + 100 * unitsPerMs ∧
      ((at_ { state := .down }).port 1).state = .down) ∧
    (s.trains = true ∧ s.portEnabled 1 = true ∧ s.cfg.lost.contains (22 + 1 / 2) = false ∧ (s.port 1).state = .training ∧
      s.boot.stage ≠ 7 ∧ (s.port 1).present = true ∧ ((at_ { state := .training, present := false }).port 1).present = false ∧
      s.portLevel 1 = 0 ∧ (1 : Nat) ≠ 0 ∧ 2 ≤ (maskBits 7 3).length) ∧
    (two.compat 1 = true ∧ (two.port 1).state.usable = true) := by decide +kernel

theorem wit_MemoryUpkeep :
    let key := stackKey 18 0 / 64 + 5
    let s := fun (e : LineSt) => { home with lines := [(key, e)] }
    let hot := fun (x : Stack) => { home with stackSt := [(18, x)] }
    (home.mapped 18 = true ∧ (((s (.symbols 1 0)).arrive 0).readLine key).2 = false ∧
      ((s (.symbols 3 0)).arrive 0).readLine key = ((s (.symbols 3 0)).arrive 0, true) ∧ home.sramErr = []) ∧
    (fmHas (home.channel 18 0).spares (575 / 72) = false ∧
      (let y := { home with channels := [(18 * 64, { spares := [(7, 574)] })] }
       fmGet? (y.channel 18 0).spares (575 / 72) = some 574 ∧ (y.channel 18 0).erased = none)) ∧
    ((home.stackOf 18).hot = false ∧ (home.stackOf 18).limit = false ∧ ((hot { hot := true, coolSince := some 0 }).stackOf 18).hot = true ∧
      0 + unitsPerSec ≤ max home.now unitsPerSec) ∧
    (home.slotOfDie 0 = some 0 ∧ home.partOfSlot 0 = some 0 ∧ (home.part 0).state = .running ∧
      (({ home with parts := [] }).part 0).state = .empty) := by decide +kernel

theorem wit_ChannelsAndGenerators :
    let at_ := fun (c : Channel) => { home with channels := [(18 * 64, c)] }
    let first := at_ { c0 := [(0, 7, 1)] }
    let ctl := 1 * 2 ^ 7 + 1 * 2 ^ 5 + 1 * 2 ^ 10 + 1 * 2 ^ 96 + 1 * 2 ^ 192
    let wait : State := { home with entryWaits := [(18 * 256 + 3, 2 ^ 35)] }
    let gen := fun (c : Nat) => { (home.odSet 0x5112 1 c) with gens := [(18 * 64, { running := true })] }
    ((first.point (.dram ⟨18, by decide⟩ 0)).outside = [] ∧ (first.channel 18 0).slotNo < 944 ∧ (first.channel 18 0).c0 = (0, 7, 1) :: [] ∧
      (first.channel 18 0).half = none ∧ (first.channel 18 0).c0Served < 819 ∧
      fmGet (first.channel 18 0).c0ByPart 0 0 < first.c0Budget 18 0) ∧
    (((at_ { slotNo := 944 }).channel 18 0).slotNo < 1024 ∧ ((at_ { slotNo := 943, c0 := [(0, 7, 1)] }).channel 18 0).slotNo < 944 ∧
      ((at_ { slotNo := 944 }).channel 18 0).refreshed < 32) ∧
    (wait.channels.all (fun x => x.1 / 64 != 18 || (List.range 4).all fun p => decide (fmGet x.2.c0Received p 0 ≤ wait.c0Budget 18 p)) = true ∧
      wait.entryWaits = [(18 * 256 + 3, 2 ^ 35)]) ∧
    (home.refusal none 0x5140 0 true = none ∧ bits (18 + 2 ^ 12) 4 0 = 18 ∧ bit (18 + 2 ^ 12) 5 = false ∧ bits (18 + 2 ^ 12) 11 6 = 0 ∧
      bits (18 + 2 ^ 12) 13 12 = 1 ∧ bits (18 + 2 * 2 ^ 12) 13 12 = 2 ∧ home.mapped 18 = true ∧ home.mapped 0 = true ∧
      ({ home with cfg := { home.cfg with ss12 := true, fused := [0, 1, 2, 3] } }).mapped 0 = false ∧ genOk ((gen ctl).genCtl 18 0) = true ∧
      genOk ((gen 0).genCtl 18 0) = false ∧ (gen ctl).refusal none 0x5140 0 true = none ∧ home.sec.life = .maker) ∧
    (let y := { gen ctl with gens := [(18 * 64, { running := true, taken := 0 })] }
     (y.gen 18 0).taken < bits (y.genCtl 18 0) 20 10 ∧ (y.gen 18 0).placed < genMoves (y.genCtl 18 0) ∧ (home.gen 18 0).running = false) ∧
    (((gen 0).gen 18 0).running = true ∧ genMix ((gen 0).genCtl 18 0) = 0 ∧ genPasses ((gen 0).genCtl 18 0) = 0 ∧
      genPasses ((gen ctl).genCtl 18 0) = 1 ∧ genCount ((gen ctl).genCtl 18 0) = 1 ∧ genMix ((gen ctl).genCtl 18 0) = 1 ∧
      genPattern ((gen ctl).genCtl 18 0) = 0 ∧ genWalk ((gen ctl).genCtl 18 0) = 0 ∧ Mem.wf (gen ctl).mem = true) := by decide +kernel

/-! ### Resilience, configuration, security -/

/-- Bytes in memory from an address on. -/
def bytesAt (a : Nat) (l : List Byte) : Mem :=
  (((List.range l.length).zip l).filter fun e => e.2 != 0).map fun e => (a + e.1, e.2)

/-- Header of a manifest of no packages and no shards, of generation 1 and epoch 9. -/
def manHead : List Byte := bytesOfWords ([0x4D414E46 + 2 ^ 32, 1, 9, 0] ++ List.replicate 28 0)

/-- A restore descriptor of one area and no map entries at the first address, with the area behind it. -/
def restorable : State :=
  { home with
    mem := bytesAt pa0 (bytesOfWords ([pa0 + 64 + 2 ^ 48, 0] ++ List.replicate 6 0 ++ [0, pa0 + 256, 65536, 0])) ++
      bytesAt (pa0 + 256) (manHead ++ bytesOfWords [0x434F4D54, 1, 9, 0] ++ shake256 32 manHead)
    res := { home.res with restoring := some pa0 } }

theorem wit_LossDoffAndRestore :
    let r : DoffRun := { generation := 1, epoch := 2, slotState := true }
    let s : State := withPart { partIn .running (draftOf [] [] []) with doff := some r }
    let d := fun (w : List Nat) => homeWith (bytesAt 0 (bytesOfWords w))
    let one := bytesOfWords [pa0 + 64 + 2 ^ 48, 2 ^ 48, 0]
    let none_ : State := { homeWith (bytesAt 0 one) with parts := [], res := { home.res with restoring := some pa0 } }
    let lost : State := { home with cfg := { home.cfg with lost := [31] } }
    (home.cfg.lost.contains 31 = false ∧ lost.cfg.lost.contains 31 = true ∧ isBridge 0 1 = false ∧ isBridge 30 22 = true ∧
      isFabric 30 = false ∧ isFabric 22 = true ∧ ({ home with cfg := { home.cfg with lost := [30] } }).cfg.lost.contains 30 = true) ∧
    ((s.part 0).doff = some r ∧ s.doffAcked 0 = true ∧ r.manifest = false ∧ (home.part 0).doff = none) ∧
    (home.refusal none 0x8060 1 true = none ∧ home.res.restoring = none ∧ (BitVec.ofNat 64 pa0).toNat = pa0 ∧
      restoreDescOk (wordsOf ((d [2 ^ 48, 2 ^ 48]).readPa pa0 64)) = true ∧ restoreDescOk (wordsOf ((d []).readPa pa0 64)) = false ∧
      none_.refusal none 0x8060 1 true = none) ∧
    (let as := none_.areasOf (pa0 + 64) 1 []
     none_.res.restoring = some pa0 ∧ (none_.manifestAt as 0 0) = none ∧ (((none_.restoreReads pa0 (wordsOf (none_.readPa pa0 64)) as []).foldl (fun s e => s.scanned e.1 e.2) none_).restoreSelect as 1 []) = none ∧
      (none_.affected (none_.mapsOf 0 1)).any (fun p => (none_.part p).state == .running) = false) := by decide +kernel

theorem wit_restore_finish :
    let s := restorable
    let w := wordsOf (s.readPa pa0 64)
    let as := s.areasOf (bits (nth w 0 0) 47 0) (bits (nth w 0 0) 63 48) []
    let good := ((List.range as.length).flatMap fun i => [0, 1].filterMap fun h => s.manifestAt as i h).filter (·.committed)
    let mans := (List.range as.length).flatMap fun i => [0, 1].filterMap fun h => s.manifestAt as i h
    let s1 := (s.restoreReads pa0 w as mans).foldl (fun s e => s.scanned e.1 e.2) s
    as.length = 1 ∧ s.mapsOf (bits (nth w 1 0) 47 0) (bits (nth w 1 0) 63 48) = [] ∧ good.length = 1 ∧
      (s1.restoreSelect as (good.length + 1) (good.foldr insertMan [])).map (fun l => l.length) = some 1 := by decide +kernel

/-- Every slot and every group belongs to partition 0, and no draft runs. -/
def ready : State := { (live.odSet 0x3010 1 (2 ^ 33 - 1)) with parts := [] }

theorem wit_ConfigurationWrites :
    let locked_ : State := { live with cfg := { live.cfg with locked := true } }
    live.refusal none 0x3001 1 true = none ∧ live.roleRefused 0 5 = false ∧ live.roleRefused 0 0x20 = true ∧
    (∀ sub ∈ [1, 2, 3, 4, 5], live.refusal none 0x3020 sub true = none ∧ live.shareOk 0 sub 1 = true) ∧ live.shareOk 0 1 255 = true ∧
    live.shareOk 0 1 256 = false ∧ live.shareOk 0 1 0 = false ∧ live.refusal none 0x3024 0 true = none ∧ live.shareOk 4 0 1 = true ∧
    (live.refusal none 0x9100 0 true = none ∧ live.regionRefused false 0 0 0 = false ∧ live.regionRefused false 0 0 (32767 + 2 ^ 15) = true ∧
      live.regionRefused false 0 0 32767 = false ∧ locked_.regionRefused false 0 0 0 = true) ∧
    (live.refusal none 0x3011 0 true = none ∧ parted.commitCheck = 5 ∧ parted.refusal none 0x3011 0 true = none ∧ ready.commitCheck = 1 ∧ ready.sec.disagreements < 3 ∧
      ready.refusal none 0x3011 0 true = none) := by decide +kernel

theorem wit_KeysReelAndReplay :
    let strict := live.odSet 0x4002 0 1
    let loose := live.odSet 0x4002 0 0
    let replaying := fun (tick cycle : Nat) =>
      let s := withPart { partIn .running (draftOf [] [] []) with replay := { on := true } }
      { ((s.odSet 0x9112 0 (2 ^ 35 + 7 * 2 ^ 15)).odSet 0x2034 4 pa0) with
        mem := bytesAt pa0 (bytesOfWords [7 + 2 ^ 8, tick, cycle]) }
    (∀ sub ∈ [1, 2], live.refusal none 0x4010 sub true = none ∧ strict.refusal none 0x4010 sub true = none ∧
      loose.refusal none 0x4010 sub true = none) ∧ live.partBusy 0 = false ∧ running.partBusy 0 = true ∧
    loose.odGet 0x4002 0 ≠ 1 ∧ strict.odGet 0x4002 0 = 1 ∧ (0 : BitVec 8) ≠ 1 ∧
    live.refusal none 0x2034 2 true = none ∧ ((fmGet live.reels 0 {}).starts.contains 0 || 0 == live.odGet 0x2034 1) = true ∧
    ((fmGet live.reels 0 {}).starts.contains 5 || 5 == live.odGet 0x2034 1) = false ∧
    (∀ e ∈ [(99, 0), (101, 0), (100, 1)],
      let s := replaying e.1 e.2
      (s.part 0).replay.on = true ∧ (s.part 0).state = .running ∧ (s.arrive 0).replayFind 0 7 none replayFuel 0 = some 0 ∧
        s.readPa64 (s.odGet 0x2034 4 + 8) = e.1 ∧ bits (s.readPa64 (s.odGet 0x2034 4 + 16)) 31 0 = e.2) ∧
    (running.arrive 0).tickOf (some 0) = 100 ∧ (running.arrive 0).cycleInTick < 1 := by decide +kernel

/-! ### Security and sessions -/

/-- An open session of a role on the Ethernet port of HX0. -/
def session (r : Role) : Session := { role := r, transport := .ethernet false, open_ := true }

/-- Session 1 of that kind, in a life-cycle state. -/
def heldBy (r : Role) (life : LifeCycle) : State :=
  { live with aoap := { live.aoap with sessions := [(1, session r)], nextSession := 2 }, sec := { life := life } }

/-- The first bytes of a record that asks to pass from MAKER to another state. -/
def lcHead (dest : Nat) : List Byte := bytesOf 4 0x4C435452 ++ bytesOf 2 1 ++ bytesOf 1 1 ++ bytesOf 1 dest

/-- Such a record. -/
def lcRecord (dest : Nat) : List Byte := lcHead dest ++ List.replicate 8674 0

theorem lcRecord_length (d : Nat) : (lcRecord d).length = 8682 := by
  rw [lcRecord, List.length_append, List.length_replicate, show (lcHead d).length = 8 from rfl]

theorem replicate_length (n : Nat) : (List.replicate n (0 : Byte)).length = n := List.length_replicate

theorem wit_LifeCycleDebugAttestation :
    let s := heldBy .maker .maker
    let one : State := { s with cfg := { s.cfg with lost := [31] } }
    let going : State := { live with sec := { life := .field, transition := some (.returned, none) } }
    let asked : State := { s with aoap := { s.aoap with sessions := [(1, { session .maker with attestNonce := some [1] })] } }
    let up : State := { s with sec := { s.sec with imageSvn := 3 } }
    (s.refusal (some 1) 0x9002 0 true = none ∧ s.singleSeal = false ∧ one.singleSeal = true ∧ one.refusal (some 1) 0x9002 0 true = none ∧
      s.recordOk (some 1) (lcRecord 2) = some .provisioned ∧ s.recordOk (some 1) (lcRecord 9) = none ∧ s.sec.life = .maker ∧
      s.sec.disagreements < 3 ∧ s.boot.warmWaits = false ∧ ∀ p < 4, (s.part p).state = .empty) ∧
    (going.sec.transition = some (.returned, none) ∧ going.boot.warmWaits = false) ∧
    (s.refusal (some 1) 0x9006 0 true = none ∧ (List.replicate 3389 (0 : Byte)).length = 3389) ∧
    (up.refusal (some 1) 0x9005 0 true = none ∧ up.mayRaiseSvn (some 1) = true ∧ up.sec.svn < 3 ∧ 3 ≤ up.sec.imageSvn ∧ up.sec.imageSvn < 4) ∧
    (s.refusal (some 1) 0x9030 1 true = none ∧ (List.replicate 32 (0 : Byte)).length = 32 ∧ s.sessionOf (some 1) = some (session .maker)) ∧
    (s.refusal (some 1) 0x9030 2 false = none ∧ (session .maker).attestNonce = none ∧
      asked.sessionOf (some 1) = some { session .maker with attestNonce := some [1] } ∧ asked.refusal (some 1) 0x9030 2 false = none) := by
  refine ⟨?_, ?_, ⟨?_, replicate_length _⟩, ?_, ?_, ?_⟩ <;> decide +kernel

theorem wit_SessionRules :
    let s := heldBy .anonymous .maker
    let full : State := { s with aoap := { s.aoap with sessions := (List.range 32).map fun i => (i, session .anonymous) } }
    let body := bytesOf 2 1 ++ List.replicate 1218 0
    let half : State := { s with aoap := { s.aoap with sessions := [(1, { session .maker with open_ := false })] } }
    (s.answersOn (.ethernet false) = true ∧ s.sec.life ≠ .scrapped ∧ bytesOf 2 1 = [1, 0] ∧ (List.replicate 1218 (0 : Byte)).length = 1218 ∧ natOf (cut body 0 2) = 1 ∧
      s.aoap.sessions.length < 32 ∧ natOf (cut body 2 3) = 0 ∧ s.sec.disagreements < 3 ∧ 32 ≤ full.aoap.sessions.length ∧
      full.answersOn (.ethernet false) = true) ∧
    (fmGet? half.aoap.sessions 1 = some { session .maker with open_ := false } ∧ (List.replicate 5261 (0 : Byte)).length = 5261 ∧
      half.answersOn (.ethernet false) = true ∧ fmGet? s.aoap.sessions 1 = some (session .anonymous)) ∧
    (0 + 600 * unitsPerSec ≤ max s.now (600 * unitsPerSec) ∧ max s.now (600 * unitsPerSec - 1) < 0 + 600 * unitsPerSec ∧
      0 + 86400 * unitsPerSec ≤ max s.now (86400 * unitsPerSec) ∧ max s.now (86400 * unitsPerSec - 1) < 0 + 86400 * unitsPerSec) := by
  refine ⟨⟨?_, ?_, ?_, replicate_length _, ?_⟩, ⟨?_, replicate_length _, ?_⟩, ?_⟩ <;> decide +kernel

/-! ### Objects and management messages -/

theorem wit_ObjectAccesses :
    let s := heldBy .anonymous .maker
    let closed := heldBy .anonymous .field
    let early : State := { s with boot := { s.boot with stage := 6 } }
    (State.reset.boot.live = false ∧ s.boot.live = true ∧ globalOf 0xC000 0 = none) ∧
    (globalOf 0x1010 3 = some (0x1010, 3) ∧ (odRow? 0x1010 3).isSome = true ∧ closed.refusal none 0x3001 1 false = some stNoSession ∧
      closed.refusal (some 1) 0x3001 1 true = some stDenied ∧ s.refusal none 0x1010 3 false = none ∧
      s.plainObject 0x1010 = true ∧ closed.plainObject 0x1010 = false) ∧
    (((odRow? 0x1010 3).bind fun r => (s.arrive 0).odBytes 0x1010 3 r) = some [64] ∧
      early.refusal none 0x3030 1 false = none ∧ ((odRow? 0x3030 1).bind fun r => (early.arrive 0).odBytes 0x3030 1 r) = none) ∧
    ((objectCommand none 0x1010 3 [7] {} 0).isNone = true ∧ s.refusal none 0x1010 3 true = none ∧
      (odRow? 0x1010 3).map (fun r => (r.var, r.bytes, s.inRange 0x1010 3 7 r, s.inRange 0x1010 3 129 r, r.acc == .rw)) =
        some (false, 1, true, false, true) ∧ (s.heldObject 0x1010 3).isNone = true) ∧
    ((objectCommand none 0x3030 1 [255] {} 0).isNone = true ∧ s.refusal none 0x3030 1 true = none ∧
      (odRow? 0x3030 1).map (fun r => (r.var, r.bytes, s.inRange 0x3030 1 255 r, r.acc == .w1c)) = some (false, 1, true, true) ∧
      (s.heldObject 0x3030 1).isNone = true ∧ fmGet? s.w1cAt (odKey 0x3030 1 * 8) ≠ some 0) ∧
    ((objectCommand none 0x5100 0x41 (List.replicate 32 0) {} 0).isNone = true ∧ s.refusal (some 1) 0x5100 0x41 true = none ∧
      (odRow? 0x5100 0x41).map (fun r => (r.var, r.bytes, r.acc == .rw, s.inRange 0x5100 0x41 r.dflt r)) =
        some (false, 32, true, true) ∧ (s.heldObject 0x5100 0x41).isNone = true) ∧
    (objectCommand none 0x1003 0 [1] {} 0).isSome = true := by decide +kernel

theorem wit_SubscriptionsAndNotifications :
    let x := session .maker
    let s := heldBy .maker .maker
    let with' := fun (x : Session) => { s with aoap := { s.aoap with sessions := [(1, x)] } }
    let subs := fun (n : Nat) => (List.range n).map fun i => (⟨i, .event 0 0, 0⟩ : Sub)
    let v : Sub := ⟨1, .value 0x1010 3 5, 100⟩
    let z := { x with subs := [v] }
    let after := (with' z).setSession 1 { z with subs := [{ v with due := 100 + 5 * unitsPerMs }] }
    let hidden : State := { with' z with boot := { s.boot with stage := 6 } }
    (s.boot.live = true ∧ s.sessionOf (some 1) = some x ∧ x.subs.length < 16 ∧ (with' { x with subs := subs 16 }).sessionOf (some 1) =
      some { x with subs := subs 16 } ∧ 16 ≤ (subs 16).length ∧ (subs 15).length < 16) ∧
    (globalOf 0x1010 3 = some (0x1010, 3) ∧ s.refusal (some 1) 0x1010 3 false = none ∧ (BitVec.ofNat 32 60000).toNat = 60000) ∧
    ((subs 2).any (fun b => b.id == 1) = true ∧ (subs 2).any (fun b => b.id == 2) = false ∧ s.sessionOf none = none) ∧
    (fmGet? (with' z).aoap.sessions 1 = some z ∧ z.subs.find? (fun b => b.id == 1) = some v ∧ (s.begin 99).now < 100 ∧
      100 ≤ (s.begin 100).now ∧ z.open_ = true ∧ z.transport ≠ .mailbox ∧ z.mayNotify 100 = true ∧ z.spent = false ∧ z.txSeq < 2 ^ 32 ∧
      after.odRead (some 1) 0x1010 3 false = (stOk, [64]) ∧ (hidden.odRead (some 1) 0x3030 1 false).1 ≠ stOk) := by decide +kernel

/-- A plain message that asks to read an object. -/
def readMsg (idx sub : Nat) : List Byte :=
  aoapHeader 0x10 0 0 ++ bytesOf 1 1 ++ bytesOf 1 sub ++ bytesOf 2 idx ++ bytesOf 2 7 ++ bytesOf 1 0 ++ bytesOf 1 0 ++ bytesOf 4 0

theorem wit_AoapTransports :
    let s := heldBy .anonymous .maker
    let tr := Transport.ethernet false
    let m := readMsg 0x1010 3
    let r : Reasm := ⟨10, 4, 2, 1100, 0, [(0, List.replicate 1024 0)]⟩
    let more : State := { s with aoap := { s.aoap with reasm := [r] } }
    let up : State := { locked with aoap := { s.aoap with mbQueue := [(1, [5])] } }
    let lost : State := { s with cfg := { s.cfg with lost := [30] } }
    (State.reset.answersOn tr = false ∧ aoapShaped [1] = false ∧ s.answersOn tr = true ∧ aoapShaped m = true ∧
      parseReqs 64 (m.drop 16) = some [⟨1, 3, 0x1010, 7, 0, 0, []⟩] ∧ (s.arrive 0).odRead none 0x1010 3 false = (stOk, [64]) ∧
      aoapShaped (aoapHeader 0x10 0 0) = true ∧ (parseReqs 64 [1]).isNone = true) ∧
    (s.aoap.reasm.find? (fun r => r.source == 10 && r.msgId == 4) = none ∧ segmentOk 0 1 16 0 16 = true ∧ segmentOk 0 12 12288 0 1024 = true ∧
      segmentOk 0 1 15 0 15 = false ∧ (s.aoap.reasm.filter fun r => r.source == 10).length < 16) ∧
    (more.aoap.reasm.find? (fun r => r.source == 10 && r.msgId == 4) = some r ∧ fmHas r.segs 1 = false ∧
      segmentOk 1 2 1100 0 76 = true ∧ (Reasm.whole { r with segs := fmSet r.segs 1 (List.replicate 76 0) }).isSome = true ∧
      (s.begin (100 * unitsPerMs - 1)).now < r.first + 100 * unitsPerMs ∧ ¬ (s.begin (100 * unitsPerMs)).now < r.first + 100 * unitsPerMs) ∧
    ([1].length < 4 ∧ natOf ((bytesOf 4 0x1E7B4).take 4) = 0x1E7B4 ∧ natOf ((bytesOf 4 0x1E7B5).take 4) ≠ 0x1E7B4) ∧
    (locked.linked = true ∧ locked.mbReady = true ∧ locked.aoap.mbQueue = [] ∧ up.mbReady = true ∧ up.aoap.mbQueue = (1, [5]) :: [] ∧
      fmGet? up.aoap.sessions 1 = some (session .anonymous)) ∧
    (s.cfg.lost.contains 30 = false ∧ s.pins.sysRefLost = false ∧ lost.cfg.lost.contains 30 = true) := by decide +kernel

theorem wit_mailbox_too_long : 12288 < (List.replicate 12289 (0 : Byte)).length := by
  rw [replicate_length]; decide

theorem wit_MailboxCommands :
    let s := home
    let g := pa0 / 2 ^ 21
    let free : State := { home with boot := { home.boot with cxlState := 0 } }
    let busy := fun (c : HostCopy) => { home with host := { home.host with copy := some c } }
    let mine := home.setOwn g 1 4 0
    let other := home.setOwn g 1 2 0
    let snoop : State := { home with host := { home.host with held := [g] } }
    let inn : HostCopy := ⟨0, pa0, 64, false⟩
    let out : HostCopy := ⟨0, pa0, 64, true⟩
    let away : HostCopy := ⟨0, 2 ^ 21 * 8 + pa0, 64, false⟩
    (free.linked = false ∧ s.linked = true ∧ (busy inn).mbReady = false ∧ s.mbReady = true ∧ 0 + celLog.length ≤ celLog.length ∧
      [] ≠ celUuid ∧ celLog.length < 1 + celLog.length) ∧
    (64 % 64 = 0 ∧ pa0 % 64 = 0 ∧ 2 ^ 30 % 64 = 0 ∧ ¬ 2 ^ 30 + 64 ≤ 2 ^ 30) ∧
    (s.host.held.contains g = false ∧ (s.arrive 0).ctlCheck .host pa0 = (s.arrive 0, 0) ∧ (s.ownEnt g).state = 0 ∧
      (mine.ownEnt g).state = 1 ∧ (mine.ownEnt g).path = mine.ownPath ∧ (mine.ownEnt g).domain = 4 ∧
      (mine.arrive 0).ctlCheck .host pa0 = (mine.arrive 0, 0) ∧ (other.ownEnt g).domain ≠ 4 ∧ (other.ownEnt g).state = 1 ∧
      (other.arrive 0).ctlCheck .host pa0 = (other.arrive 0, 0) ∧ snoop.host.held = [g] ∧ snoop.mbReady = true) ∧
    (s.inHostRegions 1 pa0 64 = false ∧ s.inHostRegions 0 pa0 64 = true ∧ s.host.held = [] ∧
      (s.arrive 0).loadPiece .host 0 0 pa0 64 = (s.arrive 0, List.replicate 64 0, 0)) ∧
    (s.host.copy = none ∧ (busy inn).host.copy = some inn ∧ (busy inn).place pa0 = .stack 18 0 ∧ Mem.wf (busy inn).mem = true ∧
      ((busy inn).arrive 0).verdict .host .wr pa0 = ((busy inn).arrive 0, .ok pa0) ∧
      ((busy out).arrive 0).verdict .host .rd pa0 = ((busy out).arrive 0, .ok pa0) ∧
      ((busy out).arrive 0).readCheck pa0 64 = ((busy out).arrive 0, []) ∧ (busy away).place away.pkgAddr = .stack 18 (2 ^ 24) ∧
      (((busy away).arrive 0).verdict .host .wr away.pkgAddr).2 = .refused 2 6) := by decide +kernel

/-! ### The host, power, start-up and resets -/

/-- The host's window: 1 GiB, its one segment mapped on the first gibibyte of solver die 0's stack. -/
def hosted : State :=
  { (home.odSet 0x1104 1 1).odSet 0x1100 0 (2 ^ 31 + 18 * 64) with host := { home.host with decoder := some 1 } }

theorem wit_HdmWindow :
    let shut : State := { hosted with cfg := { hosted.cfg with locked := true } }
    live.refusal none 0x1104 1 true = none ∧ (1024 : BitVec 16).toNat = 1024 ∧ (1025 : BitVec 16).toNat = 1025 ∧
    shut.cfg.locked = true ∧ ({ shut with cfg := { shut.cfg with locked := false } } : State).refusal none 0x1104 1 true = none ∧
    hosted.linked = true ∧ 1 = hosted.odGet 0x1104 1 ∧ 0 ≠ hosted.odGet 0x1104 1 ∧ 1024 ≠ hosted.odGet 0x1104 1 := by decide +kernel

theorem wit_HostReadsWritesAndSnoops :
    let s := hosted
    let hole := s.odSet 0x1100 0 0
    let far := s.odSet 0x1100 0 (2 ^ 31 + 19 * 64)
    let g := pa0 / 2 ^ 21
    let snooped : State := { s with host := { s.host with held := [g, 1], snoops := [(g * 2 ^ 21, 0)] } }
    (s.decodes (2 ^ 30) = false ∧ s.decodes (2 ^ 30 - 64) = true ∧ hole.decodes 0 = true ∧ hole.hdmAddr 0 = none) ∧
    (s.decodes 0 = true ∧ s.hdmAddr 0 = some pa0 ∧ (s.arrive 0).verdict .host .rd pa0 = (s.arrive 0, .ok pa0) ∧
      (s.arrive 0).readCheck pa0 64 = (s.arrive 0, []) ∧ (s.arrive 0).verdict .host .wr pa0 = (s.arrive 0, .ok pa0) ∧
      (List.replicate 64 (0 : Byte)).length = 64 ∧ Mem.wf s.mem = true) ∧
    (far.decodes 0 = true ∧ far.hdmAddr 0 = some (19 * 2 ^ 36) ∧ ((far.arrive 0).verdict .host .rd (19 * 2 ^ 36)).2 = .refused 1 6 ∧
      ((far.arrive 0).verdict .host .wr (19 * 2 ^ 36)).2 = .refused 2 6) ∧
    (s.host.ownWait = [] ∧ fmHas s.host.snoops (g * 2 ^ 21) = false ∧ fmHas snooped.host.snoops (g * 2 ^ 21) = true ∧
      snooped.host.ownWait = [] ∧ snooped.key? (g * 2 ^ 21 + 64 * 32767) = some (pa0 + 64 * 32767) ∧
      fmGet? snooped.host.snoops (g * 2 ^ 21) = some 0 ∧ (snooped.begin (20 * unitsPerUs - 1)).now < 0 + 20 * unitsPerUs ∧
      0 + 20 * unitsPerUs ≤ (snooped.begin (20 * unitsPerUs)).now) := by decide +kernel

theorem wit_HostWindowsAndDoorbells :
    let free : State := { home with boot := { home.boot with cxlState := 0 } }
    let w : WinSt := { owner := .host, bufs := [.held .host, .spare], queue := [{ buf := 0, granted := true, released := false }] }
    let s : State := { (couple.odSet 0x1108 0 0) with parts := [(0, { couple.part 0 with wins := [w] })] }
    let d : State := { s with host := { s.host with releases := [(0, 0, 0)] } }
    let s1 := (s.arrive 0).reel 0 5 2 [7]
    free.linked = false ∧ s.linked = true ∧ s.windowDesc 0 0 = some win0 ∧ s.releasable 0 0 = 0 :: [] ∧ s.host.held = [] ∧
    s.windowDesc 0 63 = none ∧ s1.inRegions 0 (s1.odGet 0x1108 0) 1024 = true ∧
    (s1.key? (s1.odGet 0x1108 0 + 16 * (s1.odGet 0x110C 0 % 64))).isSome = true ∧ Mem.wf s.mem = true ∧
    (let z := (home.odSet 0x1108 0 (19 * 2 ^ 36)).arrive 0
     (z.reel 0 5 2 [7]).inRegions 0 ((z.reel 0 5 2 [7]).odGet 0x1108 0) 1024 = false) ∧
    (s.host.releases.find? fun r => r.1 == 0 && r.2.1 == 0) = none ∧
    (d.host.releases.find? fun r => r.1 == 0 && r.2.1 == 0) = some (0, 0, 0) ∧ d.host.held = [] ∧ d.windowDesc 0 0 = some win0 := by decide +kernel

theorem wit_PowerThermalAndWear :
    let with' := fun (x : Power) => { live with pow := x }
    let above := with' { samples := [10 ^ 9], throttleSince := some 0 }
    let alarm := with' { droops := [(0, { asserted := true, assertedAt := 5 })] }
    let moving := with' { rails := [(0, { target := 751 })] }
    let held := with' { rails := [(0, { target := 751, heldSince := some 0 })] }
    let offer : State := { (heldBy .maker .maker).odSet 0xA011 0 2800 with pow := {} }
    let wait := with' { accepted := true }
    let dead : State := { live with cfg := { live.cfg with lost := [3] } }
    (live.boot.live = true ∧ live.pow.paused = false) ∧
    (above.pow.throttleSince = some 0 ∧ 0 + unitsPerMs ≤ (above.begin unitsPerMs).now ∧ above.meanAbove 100 = true ∧ above.pow.paused = false ∧
      (above.begin (unitsPerMs - 1)).now < 0 + unitsPerMs) ∧
    (live.diePowered 3 = true ∧ dead.diePowered 3 = false ∧ ¬ (112000 : Int) < 112000 ∧ (105000 : Int) ≤ 105000) ∧
    (live.cfg.lost.contains (interfaceDie 0) = false ∧ ((fmGet live.pow.droops 0 {}).count + 1) % 1000 ≠ 0 ∧
      (fmGet alarm.pow.droops 0 {}).asserted = true ∧ (fmGet alarm.pow.droops 0 {}).assertedAt ≤ 5 ∧
      5 + 2 * unitsPerUs ≤ (alarm.begin (5 + 2 * unitsPerUs)).now ∧ (alarm.begin (4 + 2 * unitsPerUs)).now < 5 + 2 * unitsPerUs) ∧
    (live.refusal none 0xA007 0 true = none ∧ (live.arrive 0).replanDue = false ∧ ((with' { replanAsked := true }).arrive 0).replanDue = true ∧
      (fmGet live.pow.rails 7 {}).heldSince = none ∧ live.diePowered 18 = true ∧ live.clockMhz = 3000) ∧
    ((fmGet moving.pow.rails 0 {}).heldSince = none ∧ (fmGet moving.pow.rails 0 {}).target ≠ moving.odGet 0xA002 1 ∧
      (fmGet moving.pow.droops 0 {}).asserted = false ∧ (fmGet moving.pow.droops 0 {}).releasedAt = none ∧
      0 + unitsPerMs ≤ (moving.begin unitsPerMs).now ∧ (moving.begin (unitsPerMs - 1)).now < 0 + unitsPerMs ∧
      (fmGet held.pow.rails 0 {}).heldSince ≠ none) ∧
    (live.pow.lastAccrue + unitsPerSec ≤ (live.begin unitsPerSec).now ∧ (live.begin (unitsPerSec - 1)).now < live.pow.lastAccrue + unitsPerSec) ∧
    (offer.refusal (some 1) 0xA012 0 true = none ∧ offer.mayAcceptClock (some 1) = true ∧ offer.odGet 0xA011 0 ≠ 0 ∧
      (∀ p < 4, (offer.part p).state = .empty) ∧ live.pow.accepted = false ∧ wait.pow.accepted = true ∧
      (running.part 0).state = .running) := by decide +kernel

/-- A re-plan is asked for, with the rail of solver die 0 at so many mV, no load line, no guard. -/
def replanned (mv : Nat) : State :=
  { ((live.odSet 0xA002 8 mv).odSet 0xA005 0 0).odSet 0xA004 1 0 with pow := { replanAsked := true } }

/-- What a monitor reads there: no current, no slack. -/
def quiet : Margin := { die := ⟨18, by decide⟩, mA := 0, slack := 0 }

/-- The planned setpoint there, whatever sensitivity is fused. -/
theorem planned_replanned (mv : Nat) (h : (replanned mv).loadNv 18 0 = (mv * 1000000 : Nat))
    (h5 : (replanned mv).odGet 0xA005 0 = 0) (h4 : (replanned mv).odGet 0xA004 1 = 0) :
    (replanned mv).plannedMv quiet = mv := by
  have k : 1 ≤ replicaSlope 18 := Nat.le_max_left 1 _
  simp only [State.plannedMv, State.vminScaled, quiet, h, h5, h4]
  generalize replicaSlope 18 = n at *
  have e : (((mv * 1000000 : Nat) : Int) * (n : Nat) - 0 * 100000000 + (((0 * 1000000 + railMax 18 * 0) * n : Nat) : Int)).toNat
      = mv * (n * 1000000) := by
    have : ((mv * 1000000 : Nat) : Int) * (n : Nat) - 0 * 100000000 + (((0 * 1000000 + railMax 18 * 0) * n : Nat) : Int)
        = ((mv * (n * 1000000) : Nat) : Int) := by push_cast; ring
    rw [this, Int.toNat_natCast]
  rw [e, ceilDiv, Nat.add_sub_assoc (by omega), Nat.mul_comm, Nat.mul_add_div (by omega), Nat.div_eq_of_lt (by omega), Nat.add_zero]

theorem wit_replan_bounds :
    (replanned 850).plannedMv quiet = 850 ∧ (replanned 851).plannedMv quiet = 851 ∧ (fmGet (replanned 851).pow.rails 7 {}).heldSince = none ∧
    (replanned 851).clockMhz = 3000 ∧ ((replanned 851).arrive 0).replanDue = true ∧ dieRail 18 = 7 := by
  refine ⟨planned_replanned _ ?_ ?_ ?_, planned_replanned _ ?_ ?_ ?_, ?_⟩ <;> decide +kernel

theorem wit_StartUpStages :
    let at_ := fun (n : Nat) => { State.reset with boot := { stage := n } }
    let stuck : State := { State.reset with boot := { stage := 4, stuck := true } }
    let warm : State := { live with boot := { live.boot with stage := 6, warm := true } }
    let link := fun (n : Nat) => { live with boot := { live.boot with stage := n, cxlState := 1 } }
    (∀ n ∈ [2, 3, 4, 5, 6, 7, 8], (at_ n).boot.stage = n) ∧
    ((at_ 3).boot.stuck = false ∧ (at_ 3).sec.disagreements < 3 ∧ stuck.boot.stuck = true) ∧
    (((at_ 4).begin (300 * unitsPerMs - 1)).now < 0 + 300 * unitsPerMs ∧ 0 + 300 * unitsPerMs ≤ ((at_ 4).begin (300 * unitsPerMs)).now) ∧
    Mem.wf (at_ 5).mem = true ∧ warm.boot.warm = true ∧ (at_ 6).boot.warm = false ∧
    (((at_ 7).begin ((at_ 7).stage7Budget - 1)).now < 0 + (at_ 7).stage7Budget ∧
      0 + (at_ 7).stage7Budget ≤ ((at_ 7).begin (at_ 7).stage7Budget).now) ∧
    ((link 8).boot.cxlState = 1 ∧ (link 9).boot.cxlState = 1 ∧ live.boot.cxlState ≠ 1 ∧
      ((link 8).begin (100 * unitsPerMs - 1)).now < (link 8).boot.cxlTried + 100 * unitsPerMs ∧
      (link 8).boot.cxlTried + 100 * unitsPerMs ≤ ((link 8).begin (100 * unitsPerMs)).now) := by decide +kernel

theorem wit_ResetsAndPins :
    let with' := fun (b : Boot) => { live with boot := b }
    let cold := with' { live.boot with coldAt := some 5 }
    let warm := with' { live.boot with warm := true }
    let held := with' { live.boot with inReset := true }
    let going : State := { live with sec := { life := .field, transition := some (.returned, none) } }
    let m := heldBy .maker .maker
    let ready := { m with boot := live.boot }
    let again := { m with boot := { live.boot with warm := true } }
    (ready.refusal (some 1) 0x1003 0 true = none ∧ ready.warmRefused = false ∧ again.warmRefused = true ∧
      again.refusal (some 1) 0x1003 0 true = none) ∧
    ((∀ p < 4, (live.part p).state = .empty ∨ (live.part p).draft.isSome = true) ∧
      (∀ p < 4, (running.part p).state = .empty ∨ (running.part p).draft.isSome = true) ∧ Mem.wf live.mem = true ∧ live.coll.colls = []) ∧
    (cold.boot.coldAt = some 5 ∧ 5 ≤ (cold.begin 5).now ∧ (cold.begin 4).now < 5) ∧
    (live.boot.inReset = false ∧ held.boot.inReset = true) ∧
    (live.boot.reached9 = true ∧ live.boot.warm = false ∧ State.reset.boot.reached9 = false ∧ warm.boot.warm = true ∧
      going.sec.transition.isSome = true ∧ live.sec.transition = none) ∧
    (State.reset.boot.stage = 2 ∧ 2 < live.boot.stage ∧ (live.port 0).state.usable = false ∧ (home.port 1).state.usable = true) := by
  decide +kernel

/-! ### Values the manual works out -/

/-- 04, the example of 3 + 2^-50 squared: exact mode gives 9 + 3 × 2^-49. -/
theorem test_fp64_square : fMul fp64 .rne 0x4008000000000002 0x4008000000000002 = (0x4022000000000003, 1) := by decide +kernel

/-- 04, the example of on-write scaling: scale byte 0x82, codes 7C A8 01 00 00, then zeros. -/
theorem test_on_write_scaling :
    let x := [Num.fin false 3000 0, .fin true 2 0, fp64.decode 0x3F847AE147AE147B, fp64.decode 0x3F747AE147AE147B,
      fp64.decode 0x3F46F0068DB8BAC7] ++ List.replicate 11 Num.zero_
    (formHank e4m3 true none (fun _ => .rne) false x).scale = 0x82 ∧
    (formHank e4m3 true none (fun _ => .rne) false x).codes = [0x7C, 0xA8, 0x01, 0, 0] ++ List.replicate 11 0 := by decide +kernel

/-- 05, the example of R171: 448 under scale 0xF0 by 320 under scale 0xF8 as a W53 word. -/
theorem test_w53_word :
    (w53.encode (toW53 .rne (Num.mulExact ((e4m3.decode 0x7E).scale2 (0xF0 - 127)) ((e4m3.decode 0x7A).scale2 (0xF8 - 127))))) =
      0x0008FA1800000000 := by decide +kernel

/-- 05, the example of R177: a draw of 0x09000000 rounds up, one of 0x0A000000 does not. -/
theorem test_sr_w53 :
    let one := w53.encode (.fin false 1 0)
    let small := w53.encode (.fin false 5 (-47))
    srW53 one small 0x09000000 = 0x0007FF0000000001 ∧ srW53 one small 0x0A000000 = 0x0007FF0000000000 := by decide +kernel

/-- 06, the example of R226: w = 1.0, r = 0, d = 2^-30 leaves 1.0 and the residue −512; once more, −1,024. -/
theorem test_residue :
    let d := fp32.encode (.fin false 1 (-30))
    let a := residueSub true true 0x3F800000 0 d
    (a.1, a.2.1) = (0x3F800000, -512) ∧ ((residueSub true true 0x3F800000 (-512) d).1, (residueSub true true 0x3F800000 (-512) d).2.1) =
      (0x3F800000, -1024) := by decide +kernel

/-- 08, the example of R270: offset 0x1_2345_6780 is line 0x12_3456 of channel 15. -/
theorem test_stack_map : stackMap 0x123456780 = (15, 0x48D1580) ∧ 0x48D1580 / 64 = 0x123456 ∧ (stackMap (0x123456780 + 0x100)).1 = 0 := by
  decide +kernel

/-- 07, the example of Table 07-6: 0x2041_040B is bx.fmadd v8, v2, v4. -/
theorem test_bx_fields :
    let w := 0x2041040B
    custom0 0x08 true w = true ∧ bxMk w = false ∧ bxB w = 4 ∧ bxA w = 2 ∧ bxMsk w = 0 ∧ bxD w = 8 := by decide +kernel

/-- 09, the table of paths: depth, prefixes and the digit in which A and B first differ. -/
theorem test_paths :
    depthOf 0x0852FFFFFFFF = 3 ∧ prefixOf 0x0852FFFFFFFF 2 = 0x085FFFFFFFFF ∧ prefixOf 0x0852FFFFFFFF 1 = 0x0BFFFFFFFFFF ∧
    digit 0x0852FFFFFFFF 2 = 0x0B ∧ digit 0x08533FFFFFFF 2 = 0x0C ∧ digit 0x0852FFFFFFFF 1 = digit 0x08533FFFFFFF 1 := by decide +kernel

/-- 09, the example of Table 09-3: hart 37 of PX0 is unit 0x9025. -/
theorem test_hart_unit : hartUnit 37 = 0x9025 := by decide +kernel

/-- 11, the example of R386: link weights 8 and 24 give 51 and 153 flits a frame. -/
theorem test_frame_budget :
    let s := (parted.odSet 0x3020 2 8).odSet 0x3021 2 24
    s.frameBudget 0 = 51 ∧ s.frameBudget 1 = 153 ∧ s.frameBudget 2 = 0 := by decide +kernel

/-- 15, the examples of R495, R503 and R583. -/
theorem test_dictionary_numbers :
    globalOf 0xCC20 4 = some (0x2021, 4) ∧ globalOf 0x2021 4 = some (0x2021, 4) ∧
    reqWord 3 (stationUnit 0x8000) false false false = 0x1E00 := by
  decide +kernel

/-- 15, the example of a sealed message: its header and its nonce. -/
theorem test_sealed_header :
    aoapHeader 0x11 0x0A17 0x105 = [0x41, 0x4F, 0x01, 0x11, 0x17, 0x0A, 0, 0, 0x05, 0x01, 0, 0, 0, 0, 0, 0] ∧
    sessionNonce [0x10, 0x21, 0x32, 0x43, 0x54, 0x65, 0x76, 0x87, 0x98, 0xA9, 0xBA, 0xCB] 0x105 =
      [0x10, 0x21, 0x32, 0x43, 0x51, 0x64, 0x76, 0x87, 0x98, 0xA9, 0xBA, 0xCB] := by decide +kernel

/-- 16, the example of Table 16-2: SP16 has interface 3, rail select 2, and HX1 interface 4, rail select 2. -/
theorem test_rails : dieRail 16 = 5 * 3 + 2 ∧ dieRail 31 = 5 * 4 + 2 := by decide +kernel

/-- 17, the example of R544: offset 0x8123_4567 through segment 2. -/
theorem test_hdm_address : ((home.odSet 0x1100 2 0x80000150).hdmAddr 0x81234567) = some 0x005401234567 := by decide +kernel

/-- 02, 11: the draft of these tests has a period of 3,000,000 draft cycles, of which 80% may be planned. -/
theorem test_draft_span : (draftOf [] [] []).cycles = 3000000 ∧ 3000000 * 80 / 100 = 2400000 := by decide +kernel

/-- CRC-32C of "123456789" and SHAKE256 of nothing, as their standards publish them. -/
theorem test_named_algorithms :
    crc32c (ascii "123456789") = 0xE3069283 ∧
    (shake256 8 []) = [0x46, 0xB9, 0xDD, 0x2B, 0x0B, 0xA8, 0x8D, 0x13] := by decide +kernel

/-! ### Single commands -/

/-- The state after a command that answers a next one. -/
def after (i : Instr) (s : State) : State :=
  match exec i s with
  | .next u => u
  | .fault _ | .refused _ => s

/-- 03, the example of Table 03-9: s_set_lo of 0x3F80_0000 into s5, written out bit by bit from Table 03-5, at draft cycle 1,200. -/
theorem test_s_set_lo :
    let w : Cmd := ⟨0, 0x10000000000500000004B0003F800000⟩
    let u := after (.sSetLo 0 w) running
    w.opcode = 0x10 ∧ w.station = 0 ∧ w.format = 0 ∧ w.sa = 5 ∧ w.operand = 0x3F800000 ∧
    fmGet ((u.flyer 0).land 1204).sreg 5 0 = 0x3F800000 ∧ fmGet ((u.flyer 0).land 1203).sreg 5 0 = 0 := by decide +kernel

/-- R24: a role-map write of SPARE to die 0 stands in its object; its reserved role 2 does not. -/
theorem test_role_map :
    (after (.roleMapWrite 0 none 0 0x10) live).odGet 0x3001 1 = 0x10 ∧
    (after (.roleMapWrite 0 none 0 0x20) live).odGet 0x3001 1 = live.odGet 0x3001 1 := by decide +kernel

/-- R310, R327: a store of hart 0 and a load of it come to the same bytes; a half-word load with sign. -/
theorem test_store_load :
    let s := { home with harts := [(0, { x := [(5, 0xFFFF8001)] })] }
    let u := after (.solverStore 0 0 (BitVec.ofNat 56 pa0) 4 5 0 .int) s
    u.mem = [(pa0, 0x01), (pa0 + 1, 0x80), (pa0 + 2, 0xFF), (pa0 + 3, 0xFF)] ∧
    (after (.solverLoad 0 0 (BitVec.ofNat 56 pa0) 2 6 true false false) u).getX 0 6 = 0xFFFFFFFFFFFF8001 ∧
    (after (.solverLoad 0 0 (BitVec.ofNat 56 pa0) 2 6 false false false) u).getX 0 6 = 0x8001 ∧
    (after (.solverLoad 0 0 (BitVec.ofNat 56 pa0) 2 0 false false false) u).getX 0 0 = 0 := by decide +kernel

/-- R312: AMOADD.W wraps at 32 bits and answers the old value. -/
theorem test_amo_add :
    let s : State := { homeWith [(0, 0xFF), (1, 0xFF), (2, 0xFF), (3, 0xFF)] with harts := [(0, { x := [(5, 2)] })] }
    let u := after (.solverStore 0 0 (BitVec.ofNat 56 pa0) 4 5 7 (.amo 0x10)) s
    u.mem = [(pa0, 1)] ∧ u.getX 0 7 = 0xFFFFFFFFFFFFFFFF := by decide +kernel

/-- R328: acquire, release: the region's own_gen counts both. -/
theorem test_ownership :
    let u := after (.mbOwnershipCmd 0 (BitVec.ofNat 64 pa0) 1) home
    let v := after (.mbOwnershipCmd 0 (BitVec.ofNat 64 pa0) 2) u
    u.ownEnt (pa0 / 2 ^ 21) = ⟨1, 4, 1, 0⟩ ∧ (v.ownEnt (pa0 / 2 ^ 21)).state = 0 ∧ (v.ownEnt (pa0 / 2 ^ 21)).gen = 2 := by decide +kernel

/-- R499: a read request of OD 0x1010.03 in a plain message is answered with its default, 64. -/
theorem test_plain_read :
    (after (.aoapMessage 0 (.ethernet false) (readMsg 0x1010 3) {}) live).out =
      [.aoap 0 (aoapHeader 0x10 0 0 ++ [0x41, 3, 0x10, 0x10, 7, 0, 0, 0, 1, 0, 0, 0, 64])] := by decide +kernel

/-- R247, R245: bx.add of 64-bit elements wraps and takes the scalar of x3. -/
theorem test_bx_add :
    let s := { running with harts := [(0, { vecHart 3 2 with x := [(3, 0xFFFFFFFFFFFFFFFF)] })] }
    let u := after (.bxAdd 0 0 (BitVec.ofNat 32 (bxWord 0x0B (32 + 0x10) 2 3 1))) s
    u.elem 0 1 0 = 4 ∧ u.elem 0 1 1 = 0xFFFFFFFFFFFFFFFF ∧ u.elem 0 1 2 = 0 := by decide +kernel

/-- R576: the loss of the system clock from stage 9 on halts a running draft and drives FAULT_N. -/
theorem test_refclk :
    ((after (.refclkLost 0 .sys) running).part 0).state = .halted ∧ (after (.refclkLost 0 .sys) running).pins.faultN = false := by decide +kernel

/-! ### Commands no interface delivers -/

/-! Every command row of a slot, with its opcode and with another. -/

theorem test_wf_flyer_opcodes :
    ∀ r ∈ ([(.nop, 0x00), (.setBase, 0x01), (.sSetLo, 0x10), (.sSetHi, 0x11), (.sLoad, 0x12), (.sStore, 0x13), (.sInt, 0x14), (.sFp64, 0x15),
    (.wSetup, 0x20), (.wMma, 0x21), (.wBatt, 0x22), (.wAccOut, 0x23), (.wAccIn, 0x24), (.tLoad, 0x40), (.tAcc, 0x41), (.tScale, 0x48)] : List ((Nat → Cmd → Instr) × Nat)),
      (r.1 0 (cmd r.2 0 0)).wellFormed = true ∧ (r.1 0 (cmd (r.2 + 1) 0 0)).wellFormed = false := by decide +kernel

theorem test_wf_elementwise_opcodes :
    ∀ r ∈ ([(.tAdd, 0x50), (.tSub, 0x51), (.tMul, 0x52), (.tDiv, 0x53), (.tMin, 0x54), (.tMax, 0x55), (.tFma, 0x56), (.tSqrt, 0x57),
    (.tSign, 0x58), (.tFunc, 0x60), (.tCmp, 0x64), (.tLive, 0x65), (.tTri, 0x66), (.tSel, 0x67), (.tRsum, 0x68), (.tRmax, 0x69)] : List ((Nat → Cmd → Instr) × Nat)),
      (r.1 0 (cmd r.2 0 0)).wellFormed = true ∧ (r.1 0 (cmd (r.2 + 1) 0 0)).wellFormed = false := by decide +kernel

theorem test_wf_rows_and_columns_opcodes :
    ∀ r ∈ ([(.tRmin, 0x6A), (.tCsum, 0x6B), (.tCmax, 0x6C), (.tCmin, 0x6D), (.tConv, 0x6E), (.tSmaxMax, 0x70), (.tSmaxSum, 0x71), (.tSmaxOut, 0x72),
    (.tSmaxDot, 0x73), (.tSmaxBwd, 0x74), (.tNormSum, 0x75), (.tNormVar, 0x76), (.tNormOut, 0x77), (.tNormDot, 0x78), (.tNormBwd, 0x79)] : List ((Nat → Cmd → Instr) × Nat)),
      (r.1 0 (cmd r.2 0 0)).wellFormed = true ∧ (r.1 0 (cmd (r.2 + 1) 0 0)).wellFormed = false := by decide +kernel

theorem test_wf_memory_and_fabric_opcodes :
    ∀ r ∈ ([(.tOptStep, 0x7C), (.tOptCommit, 0x7D), (.memFill, 0x80), (.memCopy, 0x81), (.cFill, 0xB0), (.cCopy, 0xB1), (.fColl, 0x90), (.fVote, 0x91),
    (.dShard, 0xA0), (.lMark, 0xA8), (.lDigest, 0xA9)] : List ((Nat → Cmd → Instr) × Nat)),
      (r.1 0 (cmd r.2 0 0)).wellFormed = true ∧ (r.1 0 (cmd (r.2 + 1) 0 0)).wellFormed = false := by decide +kernel

/-- Fabric packets, each field once too wide. -/
theorem test_wf_packets :
    ∀ f ∈ ([.ld 0, .st 0, .amoAdd 0, .amoSwap 0, .amoCas 0, .amoAnd 0, .amoOr 0, .amoXor 0, .amoMinu 0, .amoMaxu 0, .amoMin 0, .amoMax 0, .amoFadd 0,
    .ownCmd 0, .response 0, .collLaunch 0, (.collChunk 0 · .ok), .collAck 0, .collTaintPacket 0, .collNak 0, .commitVote 0, .commitResult 0,
    .rovingTile 0] : List (Packet → Instr)), (f (remote 1 8 [])).wellFormed = true ∧
      (∀ k ∈ [{ remote 1 8 [] with dst := 2 ^ 48 }, { remote 1 8 [] with src := 2 ^ 48 }, remote 256 8 [], { remote 1 8 [] with cls := 8 },
        { remote 1 8 [] with lane := 4 }, { remote 1 8 [] with addr := 2 ^ 48 }, remote 1 4096 [], { remote 1 8 [] with part := 4 },
        { remote 1 8 [] with unit := 65536 }, { remote 1 8 [] with tag := 2 ^ 32 }, { remote 1 8 [] with gen := 65536 },
        { remote 1 8 [] with ord := 65536 }], (f k).wellFormed = false) := by decide +kernel

/-! One command for each other check. -/

theorem test_wf_stations : (List.all ([.tileStepStart 0 0 32, .tileStepCheck 0 0 32 .pass, .twistPassFlow 0 0 8, .windowFlagSet 0 0 64] : List Instr) fun i => !i.wellFormed) = true := by
  decide +kernel

theorem test_wf_hart : (List.all ([.solverLoad 0 0 0 3 1 false false false, .solverLoad 0 0 0 4 32 false false false, .solverLoad 0 0 0 2 1 false true false,
    .solverLoad 0 0 0 8 1 false true true, .solverStore 0 0 0 3 1 1 .int, .solverStore 0 0 0 4 32 1 .int, .solverStore 0 0 0 4 1 32 .int] : List Instr) fun i => !i.wellFormed) = true := by
  decide +kernel

theorem test_wf_ownership : (List.all ([.ownAcquire 0 0 0 32 0, .ownRelease 0 0 0 32 0, .ownHandover 0 0 0 32 0, .gatherDoorbell 0 0 32 0, .collLaunchDoorbell 0 0 32 0] : List Instr) fun i => !i.wellFormed) = true := by
  decide +kernel

theorem test_wf_arbitration : (List.all ([.channelCommandSlot 0 0 0 [{ cls := 5 }] false, .channelCommandSlot 0 0 0 [{ cls := 4, member := 5 }] false,
    .arbitrationRound 0 .hostLink false [{ cls := 4, die := 32 }], .linkFrame 0 (.port 0) [(4, 0)]] : List Instr) fun i => !i.wellFormed) = true := by
  decide +kernel

theorem test_wf_writes : (List.all ([.windowQuorumWrite 0 none 0 0 1, .windowQuorumWrite 0 none 0 65 1, .shareWrite 0 none 4 1 1, .shareWrite 0 none 0 0 1,
    .shareWrite 0 none 0 6 1, .odSubscribe 0 none 0x1010 3 (List.replicate 7 0), .odUnsubscribe 0 none (List.replicate 3 0)] : List Instr) fun i => !i.wellFormed) = true := by
  decide +kernel

theorem test_wf_sessions : (List.all ([.clientHello 0 (.ethernet false) (List.replicate 1219 0) true, .clientAuth 0 (.ethernet false) 1 (List.replicate 5262 0) true,
    .sessionClose 0 (.ethernet false) 1 0 (List.replicate 15 0), .sessionClose 0 (.ethernet false) 1 (2 ^ 64) (List.replicate 16 0)] : List Instr) fun i => !i.wellFormed) = true := by
  decide +kernel

theorem test_wf_segments : (List.all ([.udpSegment 0 false 0 65536 0 1 16 0 [] {}, .udpSegment 0 false 0 0 256 1 16 0 [] {}, .udpSegment 0 false 0 0 0 256 16 0 [] {},
    .udpSegment 0 false 0 0 0 1 65536 0 [] {}, .udpSegment 0 false 0 0 0 1 16 65536 [] {}, .udpSegment 0 false 0 0 0 1 16 0 (List.replicate 1025 0) {}] : List Instr) fun i => !i.wellFormed) = true := by
  decide +kernel

theorem test_wf_host : (List.all ([.mbGetLog 0 (List.replicate 15 0) 0 0, .hostRead 0 32, .hostWrite 0 32 (List.replicate 64 0) 0, .hostWrite 0 64 (List.replicate 63 0) 0,
    .biSnoopResponse 0 0 [(0, List.replicate 63 0)], .cxlBiTimeout 0 0 []] : List Instr) fun i => !i.wellFormed) = true := by
  decide +kernel

theorem test_wf_power : (List.all ([.powerSample 0 0 [(1, 5), (1, 6)], .marginReplan 0 [{ die := 1, mA := 0, slack := 0 }, { die := 1, mA := 1, slack := 0 }],
    .cxlTraining 0 true 0 32, .cxlTraining 0 true 17 32, .cxlTraining 0 true 8 65, .bxCsrWrite 0 0 4096 0 0, .bxCsrWrite 0 0 0 0 6, .bxCsrWrite 0 0 0 0 2, .dieSelfTest 0 [(0, 4096, 0)] [], .warmResetComplete 0 [(0, 4096, 0)] []] : List Instr) fun i => !i.wellFormed) = true := by
  decide +kernel

/-- Messages longer than a transport carries (15 R514, R516). -/
theorem test_wf_long_messages :
    (Instr.mctpMessage 0 false (List.replicate 12293 0) {}).wellFormed = false ∧
    (Instr.mbAoapMessage 0 (List.replicate 12289 0) {}).wellFormed = false := by
  simp only [Instr.wellFormed, List.length_replicate]
  decide

/-! ### Words the spec's own encodings spell -/

/-- 03 Table 03-5 and 07 Table 07-6: the example words are s_set_lo and bx.fmadd; a custom-1 word of funct6 0x18 is bx.setvl; words of
other opcodes are none. -/
theorem test_words :
    let c : Cmd := ⟨0, 0x10000000000500000004B0003F800000⟩
    stationCommand 7 c = some (.sSetLo 7 c) ∧ stationCommand 7 ⟨0, 0x02 * 2 ^ 120⟩ = none ∧
    bvxCommand 7 0 0x2041040B none .none = some (.bxFmadd 7 0 0x2041040B) ∧
    bvxCommand 7 0 (BitVec.ofNat 32 (0x18 * 2 ^ 26 + 0x2B)) none .none = some (.bxSetvl 7 0 (BitVec.ofNat 32 (0x18 * 2 ^ 26 + 0x2B))) ∧
    bvxCommand 7 0 0x33 none .none = none := by decide +kernel
end Sys2Proof.Tests
end

section
namespace Sys2Proof.Machine

theorem step_cons {c : Instr} {rest : List Instr} {s : State} (h : s.pending = c :: rest) :
    step s = exec c { s with pending := rest } := by
  unfold step
  rw [h]

theorem step_nil {s : State} (h : s.pending = []) : step s = .next s := by
  unfold step
  rw [h]

/-- Settles O1: step is a match on the queue, with one equation for each of its two forms. -/
theorem stepPerformsFront : Obligations.StepPerformsFront :=
  ⟨fun _ _ _ => step_cons, fun _ => step_nil⟩

end Sys2Proof.Machine
end

section
namespace Sys2Proof.Machine

/-! ## Queue and time (O4)

No function of the model but step writes the queue, and only settling, at a time not before the present one, writes the
time. So each function of the model has one lemma here: F_still where it leaves both alone, F_onward where it may
settle, and execX_keeps for what a command does. They stand in the order of the definitions, under the model's files. -/

/-- u has the queue and the time of s. An abbreviation, so that a lemma s.Still u tagged simp rewrites both fields. -/
abbrev State.Still (s u : State) : Prop := u.pending = s.pending ∧ u.now = s.now

@[simp] theorem State.ite_pending (c : Prop) [Decidable c] (a b : State) :
    (if c then a else b).pending = if c then a.pending else b.pending := apply_ite ..

@[simp] theorem State.ite_now (c : Prop) [Decidable c] (a b : State) :
    (if c then a else b).now = if c then a.now else b.now := apply_ite ..

@[simp] theorem ite_fst {α β : Type} (c : Prop) [Decidable c] (a b : α × β) :
    (if c then a else b).1 = if c then a.1 else b.1 := apply_ite ..

theorem fst_of_eq {α β : Type} {x : α × β} {a : α} {b : β} (h : x = (a, b)) : a = x.1 := by rw [h]

theorem snd_of_eq {α β : Type} {x : α × β} {a : α} {b : β} (h : x = (a, b)) : b = x.2 := by rw [h]

theorem State.Still.trans {s t u : State} (h : s.Still t) (h' : t.Still u) : s.Still u :=
  ⟨h'.1.trans h.1, h'.2.trans h.2⟩

/-- The hypothesis names the state after a step, so that no fold over a long list is computed to compare two forms of
it. -/
theorem foldl_still {α : Type} {f : State → α → State} {s t : State}
    (h : ∀ s a u, f s a = u → State.Still s u) (l : List α) (h0 : s.Still t) : s.Still (l.foldl f t) :=
  h0.trans ⟨foldl_keeps State.pending f (fun s a => (h s a _ rfl).1) l t,
    foldl_keeps State.now f (fun s a => (h s a _ rfl).2) l t⟩

theorem forN_still {f : State → Nat → State} {s t : State} (h : ∀ s a u, f s a = u → State.Still s u) (n : Nat)
    (h0 : s.Still t) : s.Still (forN n t f) := foldl_still h _ h0

theorem foldl_fst_still {α β : Type} {f : State × β → α → State × β} {s : State} {t : State × β}
    (h : ∀ x a y, f x a = y → x.1.Still y.1) (l : List α) (h0 : s.Still t.1) : s.Still (l.foldl f t).1 :=
  h0.trans ⟨foldl_keeps (·.1.pending) f (fun x a => (h x a _ rfl).1) l t,
    foldl_keeps (·.1.now) f (fun x a => (h x a _ rfl).2) l t⟩

theorem State.Still.of_eq {β : Type} {s u : State} {x : State × β} {b : β} (h : x = (u, b)) (hx : s.Still x.1) :
    s.Still u := fst_of_eq h ▸ hx

/-- u has the queue of s, and a time not before it. -/
def State.Onward (s u : State) : Prop := u.pending = s.pending ∧ s.now ≤ u.now

theorem State.Onward.refl (s : State) : s.Onward s := ⟨rfl, le_rfl⟩

theorem State.Onward.of_still {s u : State} (h : s.Still u) : s.Onward u := ⟨h.1, h.2.ge⟩

theorem State.Onward.trans {s t u : State} (h : s.Onward t) (h' : t.Onward u) : s.Onward u :=
  ⟨h'.1.trans h.1, h.2.trans h'.2⟩

theorem State.Onward.still {s t u : State} (h : s.Onward t) (h' : t.Still u) : s.Onward u := h.trans (.of_still h')

/-- The next state, if there is one, has the queue of s and a time not before it. -/
def Keeps (s : State) (o : Host.Outcome State Fault Refusal) : Prop := ∀ u, o = .next u → s.Onward u

@[simp] theorem keeps_next {s u : State} : Keeps s (.next u) ↔ u.pending = s.pending ∧ s.now ≤ u.now :=
  ⟨fun h => h u rfl, fun h v e => by cases e; exact h⟩

@[simp] theorem keeps_ite (s : State) (c : Prop) [Decidable c] (a b : Host.Outcome State Fault Refusal) :
    Keeps s (if c then a else b) ↔ if c then Keeps s a else Keeps s b := by split <;> rfl

@[simp] theorem foldl_pending {α : Type} (f : State → α → State) (h : ∀ s a, (f s a).pending = s.pending)
    (l : List α) (s : State) : (l.foldl f s).pending = s.pending := foldl_keeps State.pending f h l s

@[simp] theorem foldl_now {α : Type} (f : State → α → State) (h : ∀ s a, (f s a).now = s.now) (l : List α)
    (s : State) : (l.foldl f s).now = s.now := foldl_keeps State.now f h l s

@[simp] theorem forN_pending (f : State → Nat → State) (h : ∀ s a, (f s a).pending = s.pending) (n : Nat)
    (s : State) : (forN n s f).pending = s.pending := foldl_keeps State.pending f h _ s

@[simp] theorem forN_now (f : State → Nat → State) (h : ∀ s a, (f s a).now = s.now) (n : Nat)
    (s : State) : (forN n s f).now = s.now := foldl_keeps State.now f h _ s

@[simp] theorem foldl_fst_pending {α β : Type} (f : State × β → α → State × β)
    (h : ∀ x a, (f x a).1.pending = x.1.pending) (l : List α)
    (x : State × β) : (l.foldl f x).1.pending = x.1.pending := foldl_keeps (·.1.pending) f h l x

@[simp] theorem foldl_fst_now {α β : Type} (f : State × β → α → State × β)
    (h : ∀ x a, (f x a).1.now = x.1.now) (l : List α) (x : State × β) : (l.foldl f x).1.now = x.1.now :=
  foldl_keeps (·.1.now) f h l x

/-! ### Machine/Mem.lean -/

@[simp] theorem State.setChannel_still (s : State) (d ch : Nat) (x : Channel) : s.Still (s.setChannel d ch x) := by
  simp [State.Still, State.setChannel]

@[simp] theorem State.writePa_still (s : State) (pa : Nat) (l : List Byte) : s.Still (s.writePa pa l) := by
  fun_cases State.writePa s pa l <;> simp [State.Still]

/-! ### Machine/Switch.lean -/

@[simp] theorem State.crossSwitch_still (s : State) (d e cls vc part flits : Nat) :
    s.Still (s.crossSwitch d e cls vc part flits) := by
  fun_cases State.crossSwitch s d e cls vc part flits <;> simp [State.Still]

/-! ### Machine/Ops.lean -/

theorem State.send_still (s : State) (m : Msg) : s.Still (s.send m) :=
  ⟨State.send_pending .., State.send_now ..⟩

theorem State.answer_still (s : State) (st : Nat) (d : List Byte) : s.Still (s.answer st d) :=
  ⟨State.answer_pending .., State.answer_now ..⟩

@[simp] theorem State.freeBytes_still (s : State) (n : Nat) : s.Still (s.freeBytes n).2 := by
  simp [State.Still, State.freeBytes]

@[simp] theorem State.freeWord_still (s : State) : s.Still (s.freeWord).2 := by
  simp [State.Still, State.freeWord]

theorem State.setPart_still (s : State) (p : Nat) (x : Part) : s.Still (s.setPart p x) :=
  ⟨State.setPart_pending .., State.setPart_now ..⟩

theorem State.event_still (s : State) (code : Nat) (who : EvWho) (det : List EvField) :
    s.Still (s.event code who det) :=
  ⟨State.event_pending .., State.event_now ..⟩

/-- Bytes put in parts leave queue and time when what puts them does. -/
theorem State.putParts_still (s : State) (k : Nat) (l : List Byte) (put : State → Nat → List Byte → State)
    (h : ∀ s k l, State.Still s (put s k l)) : s.Still (s.putParts k l put) := by
  have hbad (u : State) (d : Nat) (bad : List Nat) : u.Still (bad.foldl (fun s _ => s.dramBad d none []) u) := by
    simp [State.Still]
  fun_cases State.putParts s k l put
  case case1 => exact hbad ..
  case case2 => exact (hbad ..).trans (h ..)

theorem State.store_still (s : State) (k : Nat) (l : List Byte) : s.Still (s.store k l) :=
  ⟨State.store_pending .., State.store_now ..⟩

@[simp] theorem State.storePa_still (s : State) (pa : Nat) (l : List Byte) : s.Still (s.storePa pa l) := by
  fun_cases State.storePa s pa l
  case case1 => exact State.putParts_still _ _ _ _ fun _ _ _ => State.store_still ..
  case case2 => exact ⟨rfl, rfl⟩

@[simp] theorem State.clearSlot_still (s : State) (n : Nat) : s.Still (s.clearSlot n) := by
  simp [State.Still, State.clearSlot]

@[simp] theorem State.dropDraftColls_still (s : State) (p : Nat) : s.Still (s.dropDraftColls p) := by
  simp [State.Still, State.dropDraftColls]

@[simp] theorem State.repairLine_still (s : State) (p line : Nat) : s.Still (s.repairLine p line) := by
  fun_cases State.repairLine s p line <;> simp [State.Still]

@[simp] theorem State.undoMemory_still (s : State) (p : Nat) : s.Still (s.undoMemory p) := by
  simp [State.Still, State.undoMemory]

@[simp] theorem State.clearMarks_still (s : State) (p : Nat) : s.Still (s.clearMarks p) := by
  simp [State.Still, State.clearMarks]

@[simp] theorem State.rollbackStats_still (s : State) (p : Nat) : s.Still (s.rollbackStats p) := by
  simp [State.Still, State.rollbackStats]

@[simp] theorem State.restoreStep_still (s : State) (p cause : Nat) : s.Still (s.restoreStep p cause) := by
  simp [State.Still, State.restoreStep]

@[simp] theorem State.countTaint_still (s : State) (p : Nat) : s.Still (s.countTaint p) := by
  simp [State.Still, State.countTaint]

@[simp] theorem State.rollback_still (s : State) (p cause : Nat) : s.Still (s.rollback p cause) := by
  simp [State.Still, State.rollback]

/-! ### Machine/Source.lean -/

@[simp] theorem State.sendFlit_still (s : State) (n : Nat) (e : Egress) : s.Still (s.sendFlit n e).1 := by
  unfold State.sendFlit
  dsimp only
  split <;> simp [State.Still]

@[simp] theorem State.sendFlits_still (s : State) (n k : Nat) (e : Egress) : s.Still (s.sendFlits n k e).1 := by
  fun_induction State.sendFlits s n k e
  case case3 h ih => exact .trans (by simp [State.Still, fst_of_eq h]) ih
  all_goals exact ⟨rfl, rfl⟩

@[simp] theorem State.drainPort_still (s : State) (n : Nat) : s.Still (s.drainPort n) := by
  simp [State.Still, State.drainPort]

@[simp] theorem State.sendPacket_still (s : State) (charge : Option Nat) (p : Packet) :
    s.Still (s.sendPacket charge p) := by
  fun_cases State.sendPacket s charge p <;> simp +zetaDelta [State.Still]

@[simp] theorem State.sendTile_still (s : State) (p path slot roving index : Nat) (bytes : List Byte) :
    s.Still (s.sendTile p path slot roving index bytes) := by
  simp [State.Still, State.sendTile]

@[simp] theorem State.setSrcUnit_still (s : State) (u : Nat) (x : Source) : s.Still (s.setSrcUnit u x) := by
  simp [State.Still, State.setSrcUnit]

@[simp] theorem State.launch_still (s : State) (pkt : Packet) (dl : Deliver) : s.Still (s.launch pkt dl) := by
  simp [State.Still, State.launch]

@[simp] theorem State.issueReq_still (s : State) (pkt : Packet) (dl : Deliver) : s.Still (s.issueReq pkt dl) := by
  simp [State.Still, State.issueReq]

@[simp] theorem State.faultRecord_still (s : State) (p addr cause status path op tag unit : Nat) :
    s.Still (s.faultRecord p addr cause status path op tag unit) := by
  fun_cases State.faultRecord s p addr cause status path op tag unit <;> simp +zetaDelta [State.Still]

@[simp] theorem State.storeDead_still (s : State) (pkt : Packet) : s.Still (s.storeDead pkt) := by
  simp [State.Still, State.storeDead]

@[simp] theorem State.issueStores_still (s : State) (base : Packet) (l : List Byte) :
    s.Still (s.issueStores base l) := by
  simp [State.Still, State.issueStores]

/-! ### Machine/DraftOps.lean -/

@[simp] theorem State.beginFlyers_still (s : State) (p tick : Nat) : s.Still (s.beginFlyers p tick) :=
  foldl_still (by rintro s n _ rfl; simp [State.Still]) _ ⟨rfl, rfl⟩

@[simp] theorem State.beginDraftTick_still (s : State) (p k time lag : Nat) :
    s.Still (s.beginDraftTick p k time lag) := by
  simp [State.Still, State.beginDraftTick]

@[simp] theorem State.doffStore_still (s : State) (p i half off : Nat) (l : List Byte) :
    s.Still (s.doffStore p i half off l) := by
  simp [State.Still, State.doffStore]

@[simp] theorem State.doffStoreBoth_still (s : State) (p half off : Nat) (l : List Byte) :
    s.Still (s.doffStoreBoth p half off l) := by
  simp [State.Still, State.doffStoreBoth]

@[simp] theorem State.clearScratch_still (s : State) (p : Nat) : s.Still (s.clearScratch p) := by
  simp [State.Still, State.clearScratch]

@[simp] theorem State.beginStep_still (s : State) (p : Nat) : s.Still (s.beginStep p) := by
  simp [State.Still, State.beginStep]

@[simp] theorem State.advance_still (s : State) (p k : Nat) : s.Still (s.advance p k) := by
  fun_induction State.advance s p k
  case case4 ih => exact .trans (by simp +zetaDelta [State.Still]) ih
  all_goals simp [State.Still]

@[simp] theorem State.syncDraft_still (s : State) (p : Nat) : s.Still (s.syncDraft p) := by
  simp [State.Still, State.syncDraft]

/-! ### Machine/Cadence.lean -/

@[simp] theorem State.startTraining_still (s : State) : s.Still s.startTraining := by
  simp [State.Still, State.startTraining]

@[simp] theorem State.closeStage7_still (s : State) : s.Still s.closeStage7 := by
  simp [State.Still, State.closeStage7]

@[simp] theorem State.endStage7_still (s : State) : s.Still s.endStage7 := by
  simp [State.Still, State.endStage7]

@[simp] theorem State.acquire_still (s : State) (b : CadSource) : s.Still (s.acquire b) := by
  simp [State.Still, State.acquire]

@[simp] theorem State.selectSource_still (s : State) : s.Still s.selectSource := by
  simp [State.Still, State.selectSource]

@[simp] theorem State.sendSyncs_still (s : State) : s.Still s.sendSyncs := by
  fun_cases State.sendSyncs s
  case case1 => simp -implicitDefEqProofs [State.Still]
  case case2 => simp [State.Still]

@[simp] theorem State.issueBoundary_still (s : State) : s.Still s.issueBoundary := by
  simp [State.Still, State.issueBoundary]

@[simp] theorem State.refuseCount_still (s : State) : s.Still s.refuseCount := by
  simp [State.Still, State.refuseCount]

@[simp] theorem State.tickCore_still (s : State) (b : Nat) : s.Still (s.tickCore b) := by
  simp [State.Still, State.tickCore]

@[simp] theorem State.ref10mBad_still (s : State) : s.Still s.ref10mBad := by
  simp [State.Still, State.ref10mBad]

@[simp] theorem State.treadleBad_still (s : State) : s.Still s.treadleBad := by
  simp [State.Still, State.treadleBad]

@[simp] theorem State.adoptPeriod_still (s : State) (period : Nat) : s.Still (s.adoptPeriod period) := by
  simp [State.Still, State.adoptPeriod]

@[simp] theorem State.handover_still (s : State) : s.Still s.handover := by
  simp [State.Still, State.handover]

/-! ### Machine/Access.lean -/

/-- A request of the object dictionary leaves queue and time when what it runs does. -/
@[simp] theorem State.command_still (s : State) (q : Option Nat) (idx sub : Nat) (run : State → State × Bool)
    (h : ∀ s, State.Still s (run s).1) : s.Still (s.command q idx sub run) := by
  fun_cases State.command s q idx sub run
  case case1 => simp [State.Still]
  case case2 e => simp [State.Still, fst_of_eq e, h]

@[simp] theorem State.commandEv_still (s : State) (q : Option Nat) (idx sub code : Nat) (who : EvWho)
    (run : State → State × Bool) (h : ∀ s, State.Still s (run s).1) : s.Still (s.commandEv q idx sub code who run) := by
  fun_cases State.commandEv s q idx sub code who run
  case case3 | case4 => simp [State.Still, fst_of_eq ‹run s = (_, _)›, h]
  all_goals simp [State.Still]

@[simp] theorem State.endStartup_still (s : State) (k : Nat) : s.Still (s.endStartup k) := by
  simp [State.Still, State.endStartup]

@[simp] theorem State.setOwn_still (s : State) (region state domain path : Nat) :
    s.Still (s.setOwn region state domain path) := by
  simp [State.Still, State.setOwn]

@[simp] theorem State.forceOpen_still (s : State) (region : Nat) : s.Still (s.forceOpen region) := by
  simp [State.Still, State.forceOpen]

/-! ### Machine/CollOps.lean -/

@[simp] theorem State.zeroGranules_still (s : State) (l : List Nat) : s.Still (s.zeroGranules l) := by
  simp [State.Still, State.zeroGranules]

@[simp] theorem State.setColl_still (s : State) (k : Nat) (c : Collective) : s.Still (s.setColl k c) := by
  simp [State.Still, State.setColl]

@[simp] theorem State.sendColl_still (s : State) (p dst op cls : Nat) (data : List Byte) :
    s.Still (s.sendColl p dst op cls data) := by
  simp [State.Still, State.sendColl]

@[simp] theorem State.releaseStages_still (s : State) (c : Collective) : s.Still (s.releaseStages c) := by
  simp [State.Still, State.releaseStages]

@[simp] theorem State.writeRecord_still (s : State) (c : Collective) (status failRank : Nat) :
    s.Still (s.writeRecord c status failRank) := by
  simp [State.Still, State.writeRecord]

@[simp] theorem State.completeColl_still (s : State) (k status failRank : Nat) :
    s.Still (s.completeColl k status failRank) := by
  fun_cases State.completeColl s k status failRank <;> simp +zetaDelta [State.Still]

@[simp] theorem State.nakAll_still (s : State) (k reason : Nat) : s.Still (s.nakAll k reason) := by
  fun_cases State.nakAll s k reason <;> simp +zetaDelta [State.Still]

@[simp] theorem State.creelAbort_still (s : State) (p : Nat) : s.Still (s.creelAbort p) := by
  simp [State.Still, State.creelAbort]

@[simp] theorem State.setVote_still (s : State) (p : Nat) (ins : Fm (List Nat)) : s.Still (s.setVote p ins) := by
  simp [State.Still, State.setVote]

@[simp] theorem State.voteResult_still (s : State) (p : Nat) (w : List Nat) : s.Still (s.voteResult p w) := by
  simp [State.Still, State.voteResult]

@[simp] theorem State.voteDown_still (s : State) (p : Nat) (g : Group) (w : List Nat) (n pos j : Nat) :
    s.Still (s.voteDown p g w n pos j) := by
  induction n generalizing s pos j with
  | zero => exact ⟨rfl, rfl⟩
  | succ n ih =>
    refine foldl_still ?_ _ ⟨rfl, rfl⟩
    rintro s c _ rfl
    dsimp only
    split
    · split
      · exact ih ..
      · exact State.voteResult_still ..
    · exact State.sendColl_still ..

@[simp] theorem State.voteUp_still (s : State) (p : Nat) (g : Group) (w : List Nat) (mine : Bool) (n pos : Nat)
    (j : Option Nat) :
    s.Still (s.voteUp p g w mine n pos j) := by
  fun_induction State.voteUp s p g w mine n pos j
  case case4 ih => exact .trans (by simp +zetaDelta [State.Still]) ih
  all_goals simp +zetaDelta [State.Still]

@[simp] theorem State.sendVote_still (s : State) (p : Nat) (commit : Bool) : s.Still (s.sendVote p commit) := by
  simp [State.Still, State.sendVote]

@[simp] theorem State.withholdAndRollback_still (s : State) (p cause : Nat) :
    s.Still (s.withholdAndRollback p cause) := by
  simp [State.Still, State.withholdAndRollback]

/-! ### Machine/Fault.lean -/

@[simp] theorem State.setRail_still (s : State) (r mv : Nat) : s.Still (s.setRail r mv) := by
  simp [State.Still, State.setRail]

@[simp] theorem State.imageWrite_still (s : State) (n : Nat) (e : Nat × Byte) : s.Still (s.imageWrite n e) := by
  refine foldl_still ?_ _ ⟨rfl, rfl⟩
  rintro s i _ rfl
  split <;> simp [State.Still]

@[simp] theorem State.seedImage_still (s : State) (p n : Nat) (i : Nat × Nat) : s.Still (s.seedImage p n i) := by
  fun_cases State.seedImage s p n i <;> simp +zetaDelta [State.Still]

@[simp] theorem State.applyDelta_still (s : State) (p n : Nat) : s.Still (s.applyDelta p n) := by
  unfold State.applyDelta
  refine .trans (foldl_still ?_ _ (foldl_still ?_ _ ⟨rfl, rfl⟩)) (State.setPart_still ..)
  · rintro s i _ rfl
    split <;> simp [State.Still]
  · rintro s e _ rfl
    exact State.imageWrite_still ..

@[simp] theorem State.loseImages_still (s : State) (aperture : Nat) : s.Still (s.loseImages aperture) := by
  simp [State.Still, State.loseImages]

@[simp] theorem State.moveSlot_still (s : State) (n old new : Nat) : s.Still (s.moveSlot n old new) := by
  simp -implicitDefEqProofs [State.Still, State.moveSlot]

@[simp] theorem State.movePersist_still (s : State) (p n old new : Nat) : s.Still (s.movePersist p n old new) := by
  simp [State.Still, State.movePersist]

@[simp] theorem State.fillSpare_still (s : State) (p n new b : Nat) : s.Still (s.fillSpare p n new b) := by
  simp [State.Still, State.fillSpare]

@[simp] theorem State.spareActivated_still (s : State) (p : Nat) (a : Nat × Nat × Nat) :
    s.Still (s.spareActivated p a) := by
  simp [State.Still, State.spareActivated]

@[simp] theorem State.spareExhausted_still (s : State) (n die : Nat) : s.Still (s.spareExhausted n die) := by
  fun_cases State.spareExhausted s n die <;> simp +zetaDelta [State.Still]

@[simp] theorem State.spindleLost_still (s : State) (die : Nat) : s.Still (s.spindleLost die) := by
  fun_cases State.spindleLost s die <;> simp +zetaDelta [State.Still]

@[simp] theorem State.detectedFault_still (s : State) (p : Nat) (die : Option Nat) :
    s.Still (s.detectedFault p die) := by
  fun_cases State.detectedFault s p die <;> simp +zetaDelta [State.Still]

@[simp] theorem State.failureWarning_still (s : State) : s.Still s.failureWarning := by
  simp [State.Still, State.failureWarning]

@[simp] theorem State.warnIfReached_still (s : State) (sub before after : Nat) :
    s.Still (s.warnIfReached sub before after) := by
  simp [State.Still, State.warnIfReached]

/-! ### Machine/Draft.lean -/

@[simp] theorem State.toLoaded_still (s : State) (p : Nat) : s.Still (s.toLoaded p) := by
  fun_cases State.toLoaded s p <;> simp +zetaDelta [State.Still]

@[simp] theorem State.draftReject_still (s : State) (p reason : Nat) : s.Still (s.draftReject p reason).1 := by
  simp [State.Still, State.draftReject]

@[simp] theorem State.takeRanges_still (s : State) (p : Nat) : s.Still (s.takeRanges p) := by
  refine foldl_still ?_ _ (State.setPart_still ..)
  rintro s r _ rfl
  split <;> simp [State.Still]

@[simp] theorem State.setLiveSets_still (s : State) (p : Nat) : s.Still (s.setLiveSets p) :=
  foldl_still (by rintro s n _ rfl; simp [State.Still]) _ ⟨rfl, rfl⟩

@[simp] theorem State.extendMr_still (s : State) (k : Nat) (data : List Byte) : s.Still (s.extendMr k data) := by
  simp [State.Still, State.extendMr]

@[simp] theorem State.installDraft_still (s : State) (p : Nat) (d : Draft) : s.Still (s.installDraft p d) := by
  simp [State.Still, State.installDraft]

@[simp] theorem State.abortDraft_still (s : State) (p : Nat) : s.Still (s.abortDraft p) := by
  simp [State.Still, State.abortDraft]

@[simp] theorem State.emptyDraft_still (s : State) (p : Nat) : s.Still (s.emptyDraft p) := by
  fun_cases State.emptyDraft s p <;> simp +zetaDelta [State.Still]

@[simp] theorem State.startBuddies_still (s : State) (p seeding : Nat) (d : Draft) :
    s.Still (s.startBuddies p seeding d) := by
  simp [State.Still, State.startBuddies]

@[simp] theorem State.startReplay_still (s : State) (p : Nat) : s.Still (s.startReplay p) := by
  unfold State.startReplay
  split
  · simp [State.Still]
  · split
    · simp [State.Still]
    · dsimp only
      split <;> simp [State.Still]

@[simp] theorem State.seedRecord_still (s : State) (p : Nat) : s.Still (s.seedRecord p) := by
  simp [State.Still, State.seedRecord]

@[simp] theorem State.setWin_still (s : State) (p w : Nat) (x : WinSt) : s.Still (s.setWin p w x) := by
  simp [State.Still, State.setWin]

@[simp] theorem State.windowIn_still (s : State) (p w b : Nat) (x : WinDesc) : s.Still (s.windowIn p w b x) := by
  simp [State.Still, State.windowIn]

@[simp] theorem State.passed_still (s : State) (p w : Nat) (side : Side) (x : WinSt) :
    s.Still (s.passed p w side x) := by
  fun_cases State.passed s p w side x <;> simp [State.Still]

@[simp] theorem State.passGate_still (s : State) (p : Nat) (d : Draft) (g : GateDesc) : s.Still (s.passGate p d g) := by
  fun_cases State.passGate s p d g <;> simp +zetaDelta [State.Still]

@[simp] theorem State.reuseGate_still (s : State) (p : Nat) (g : GateDesc) : s.Still (s.reuseGate p g) := by
  fun_cases State.reuseGate s p g <;> simp +zetaDelta [State.Still]

@[simp] theorem State.lateEvent_still (s : State) (p : Nat) (g : GateDesc) : s.Still (s.lateEvent p g) := by
  simp [State.Still, State.lateEvent]

@[simp] theorem State.lateRecord_still (s : State) (p i : Nat) (g : GateDesc) (outcome slip : Nat) :
    s.Still (s.lateRecord p i g outcome slip) := by
  simp [State.Still, State.lateRecord]

@[simp] theorem State.failStep_still (s : State) (p : Nat) : s.Still (s.failStep p) := by
  simp [State.Still, State.failStep]

@[simp] theorem State.lateGates_still (s : State) (p : Nat) (late : List (Nat × GateDesc)) (slip : Nat) :
    s.Still (s.lateGates p late slip) := by
  simp [State.Still, State.lateGates]

@[simp] theorem State.gates_still (s : State) (p : Nat) (d : Draft) (l : List (Nat × GateDesc)) :
    s.Still (s.gates p d l) := by
  simp [State.Still, State.gates]

@[simp] theorem State.replayGates_still (s : State) (p : Nat) (d : Draft) (l : List (Nat × GateDesc)) :
    s.Still (s.replayGates p d l) := by
  simp [State.Still, State.replayGates]

@[simp] theorem State.resume_still (s : State) (p : Nat) : s.Still (s.resume p) := by
  simp [State.Still, State.resume]

@[simp] theorem State.retest_still (s : State) (p : Nat) (d : Draft) : s.Still (s.retest p d) := by
  simp [State.Still, State.retest]

@[simp] theorem State.replayRetest_still (s : State) (p : Nat) (d : Draft) : s.Still (s.replayRetest p d) := by
  simp [State.Still, State.replayRetest]

/-! ### Machine/Lines.lean -/

@[simp] theorem State.setStack_still (s : State) (d : Nat) (x : Stack) : s.Still (s.setStack d x) := by
  simp [State.Still, State.setStack]

@[simp] theorem State.eraseOne_still (s : State) (d ch k : Nat) : s.Still (s.eraseOne d ch k) := by
  fun_cases State.eraseOne s d ch k <;> simp [State.Still]

@[simp] theorem State.eraseIn_still (s : State) (d k : Nat) (chs : List Nat) : s.Still (s.eraseIn d k chs) := by
  simp [State.Still, State.eraseIn]

@[simp] theorem State.markDramLost_still (s : State) (d k : Nat) : s.Still (s.markDramLost d k) := by
  simp [State.Still, State.markDramLost]

@[simp] theorem State.eraseDie_still (s : State) (d ch k : Nat) : s.Still (s.eraseDie d ch k) := by
  simp [State.Still, State.eraseDie]

@[simp] theorem State.countSymbols_still (s : State) (d k n : Nat) : s.Still (s.countSymbols d k n) := by
  simp [State.Still, State.countSymbols]

@[simp] theorem State.readLine_still (s : State) (line : Nat) : s.Still (s.readLine line).1 := by
  fun_cases State.readLine s line <;> simp [State.Still]

@[simp] theorem State.markColumn_still (s : State) (d bank col : Nat) : s.Still (s.markColumn d bank col) := by
  simp [State.Still, State.markColumn]

@[simp] theorem State.countColumn_still (s : State) (k col : Nat) : s.Still (s.countColumn k col) := by
  simp [State.Still, State.countColumn]

@[simp] theorem State.sramCorrected_still (s : State) (k col : Nat) : s.Still (s.sramCorrected k col) := by
  simp [State.Still, State.sramCorrected]

@[simp] theorem State.readWords_still (s : State) (k n : Nat) : s.Still (s.readWords k n).1 := by
  simp [State.Still, State.readWords]

@[simp] theorem State.readLines_still (s : State) (k n : Nat) : s.Still (s.readLines k n).1 := by
  simp [State.Still, State.readLines]

@[simp] theorem State.readCheck_still (s : State) (k n : Nat) : s.Still (s.readCheck k n).1 := by
  simp [State.Still, State.readCheck]

@[simp] theorem State.scanned_still (s : State) (pa n : Nat) : s.Still (s.scanned pa n) := by
  fun_cases State.scanned s pa n
  case case2 | case3 => simp [State.Still, fst_of_eq ‹_ = (_, _)›]
  case case1 => simp [State.Still]

@[simp] theorem State.stationRefused_still (s : State) (code p n st pa : Nat) :
    s.Still (s.stationRefused code p n st pa) := by
  simp [State.Still, State.stationRefused]

@[simp] theorem State.metBad_still (s : State) (p n k : Nat) (bad : List Nat) (det : List EvField) :
    s.Still (s.metBad p n k bad det) := by
  simp [State.Still, State.metBad]

@[simp] theorem State.c0Read_still (s : State) (p n st pa len : Nat) (det : List EvField) :
    s.Still (s.c0Read p n st pa len det).1 := by
  fun_cases State.c0Read s p n st pa len det
  case case2 | case3 => simp [State.Still, fst_of_eq ‹_ = (_, _)›]
  case case1 => simp [State.Still]

@[simp] theorem State.c0Store_still (s : State) (p n st pa : Nat) (l : List Byte) :
    s.Still (s.c0Store p n st pa l).1 := by
  fun_cases State.c0Store s p n st pa l <;> simp [State.Still]

/-! ### Machine/Stats.lean -/

@[simp] theorem State.recCheck_still (s : State) (p n t : Nat) (det : List EvField) :
    s.Still (s.recCheck p n t det).1 := by
  fun_cases State.recCheck s p n t det
  case case2 | case3 => simp [State.Still, fst_of_eq ‹_ = (_, _)›]
  case case1 => simp [State.Still]

@[simp] theorem State.setMark_still (s : State) (n t : Nat) (m : StatMark) : s.Still (s.setMark n t m) := by
  simp [State.Still, State.setMark]

@[simp] theorem State.delayedScale_still (s : State) (n t : Nat) (f : Flt) : s.Still (s.delayedScale n t f).1 := by
  fun_cases State.delayedScale s n t f <;> simp [State.Still]

@[simp] theorem State.accumulate_still (s : State) (p n t : Nat) (x : TileStats) (codes : List Nat) (band : List Byte) :
    s.Still (s.accumulate p n t x codes band) := by
  fun_cases State.accumulate s p n t x codes band <;> simp +zetaDelta [State.Still]

@[simp] theorem State.addStats_still (s : State) (p n t : Nat) (x : TileStats) (codes : List Nat) (band : List Byte) :
    s.Still (s.addStats p n t x codes band) := by
  fun_cases State.addStats s p n t x codes band <;> simp [State.Still, fst_of_eq ‹_ = (_, _)›]

@[simp] theorem State.statsCheck_still (s : State) (p : Nat) : s.Still (s.statsCheck p).1 := by
  refine foldl_fst_still ?_ _ ⟨rfl, rfl⟩
  rintro x n _ rfl
  refine foldl_fst_still ?_ _ ⟨rfl, rfl⟩
  rintro x t _ rfl
  split
  · exact State.recCheck_still ..
  · exact ⟨rfl, rfl⟩

@[simp] theorem State.commitStats_still (s : State) (p : Nat) : s.Still (s.commitStats p) := by
  refine foldl_still ?_ _ (State.clearMarks_still ..)
  rintro s n _ rfl
  refine foldl_still ?_ _ ⟨rfl, rfl⟩
  rintro s t _ rfl
  split <;> simp [State.Still]

@[simp] theorem State.convertHanked_still (s : State) (n t fmt index : Nat) (rm : Nat → Rm) (bounded : Bool)
    (extra : Cnt) (xs : List Num) :
    s.Still (s.convertHanked n t fmt index rm bounded extra xs).1 := by
  simp [State.Still, State.convertHanked]

@[simp] theorem State.convertTile_still (s : State) (n t fmt index : Nat) (rm : Nat → Rm) (bounded : Bool)
    (extra : Cnt) (xs : List Num) :
    s.Still (s.convertTile n t fmt index rm bounded extra xs).1 := by
  simp [State.Still, State.convertTile]

@[simp] theorem State.countTile_still (s : State) (p n : Nat) (m : Made) : s.Still (s.countTile p n m) := by
  simp [State.Still, State.countTile]

/-! ### Machine/Reach.lean -/

@[simp] theorem State.whoEvent_still (s : State) (code : Nat) (w : Who) (pa : Nat) :
    s.Still (s.whoEvent code w pa) := by
  simp [State.Still, State.whoEvent]

@[simp] theorem State.ownVerdict_still (s : State) (w : Who) (a : Acc) (pa k : Nat) :
    s.Still (s.ownVerdict w a pa k).1 := by
  fun_cases State.ownVerdict s w a pa k <;> simp [State.Still]

@[simp] theorem State.verdict_still (s : State) (w : Who) (a : Acc) (pa : Nat) : s.Still (s.verdict w a pa).1 := by
  fun_cases State.verdict s w a pa <;> simp [State.Still]

@[simp] theorem State.snoopFor_still (s : State) (w : Who) (pa n : Nat) : s.Still (s.snoopFor w pa n).1 := by
  fun_cases State.snoopFor s w pa n <;> simp [State.Still]

@[simp] theorem State.loadPiece_still (s : State) (w : Who) (lane off pa n : Nat) :
    s.Still (s.loadPiece w lane off pa n).1 := by
  fun_cases State.loadPiece s w lane off pa n
  case case1 h1 _ _ h2 _ => simp [State.Still, fst_of_eq h1, fst_of_eq h2]
  case case2 h1 _ _ h2 _ _ => simp +zetaDelta [State.Still, fst_of_eq h1, fst_of_eq h2]
  case case3 => simp [State.Still, fst_of_eq ‹_ = (_, _)›]

@[simp] theorem State.loadFrom_still (s : State) (w : Who) (lane off pa n : Nat) :
    s.Still (s.loadFrom w lane off pa n).1 := by
  fun_cases State.loadFrom s w lane off pa n
  case case1 => simp [State.Still, fst_of_eq ‹_ = (_, _)›]
  case case2 => simp +zetaDelta [State.Still, fst_of_eq ‹_ = (_, _)›]

@[simp] theorem State.loadLocal_still (s : State) (w : Who) (lane pa n : Nat) :
    s.Still (s.loadLocal w lane pa n).1 := by
  simp [State.Still, State.loadLocal]

@[simp] theorem State.statsWord_still (s : State) (k i mask v : Nat) : s.Still (s.statsWord k i mask v) := by
  simp [State.Still, State.statsWord]

@[simp] theorem State.statsStore_still (s : State) (n d o : Nat) (l : List Byte) :
    s.Still (s.statsStore n d o l).1 := by
  simp [State.Still, State.statsStore]

@[simp] theorem State.storePiece_still (s : State) (w : Who) (a : Acc) (pa : Nat) (l : List Byte) :
    s.Still (s.storePiece w a pa l).1 := by
  fun_cases State.storePiece s w a pa l
  case case1 h1 _ _ _ _ _ _ _ h2 => simp [State.Still, fst_of_eq h1, fst_of_eq h2]
  case case2 | case5 => simp [State.Still, fst_of_eq ‹_ = (_, _)›]
  case case3 h1 _ _ h2 _ _ | case4 h1 _ _ h2 _ _ => simp [State.Still, fst_of_eq h1, fst_of_eq h2]

@[simp] theorem State.storeLocal_still (s : State) (w : Who) (pa : Nat) (l : List Byte) :
    s.Still (s.storeLocal w pa l).1 := by
  fun_cases State.storeLocal s w pa l
  case case1 => simp [State.Still, fst_of_eq ‹_ = (_, _)›]
  case case2 => simp +zetaDelta [State.Still, fst_of_eq ‹_ = (_, _)›]

@[simp] theorem State.storeRequest_still (s : State) (w : Who) (pa : Nat) (l : List Byte) :
    s.Still (s.storeRequest w pa l).1 := by
  fun_cases State.storeRequest s w pa l
  case case1 h =>
    obtain ⟨e, -, he⟩ := List.exists_of_findSome?_eq_some h
    split at he
    · next hv => cases he; simp [State.Still, fst_of_eq hv]
    · cases he
  case case2 => exact State.storeLocal_still ..

@[simp] theorem State.amoLocal_still (s : State) (w : Who) (op pa n : Nat) (operands : List Byte) :
    s.Still (s.amoLocal w op pa n operands).1 := by
  fun_cases State.amoLocal s w op pa n operands
  case case1 => simp [State.Still, fst_of_eq ‹_ = (_, _)›]
  case case2 h1 _ _ h2 _ _ h3 _ => simp [State.Still, fst_of_eq h1, fst_of_eq h2, fst_of_eq h3]
  case case3 h1 _ _ h2 _ _ h3 _ _ _ _ _ _ _ _ _ _ h4 => simp [State.Still, fst_of_eq h1, fst_of_eq h2, fst_of_eq h3,
    fst_of_eq h4]
  case case4 h1 _ _ h2 _ _ h3 _ _ _ _ _ _ _ _ => simp [State.Still, fst_of_eq h1, fst_of_eq h2, fst_of_eq h3]
  case case5 h1 _ _ h2 _ _ h3 _ _ _ _ => simp [State.Still, fst_of_eq h1, fst_of_eq h2, fst_of_eq h3]
  case case6 h1 _ _ _ h2 => simp [State.Still, fst_of_eq h1, fst_of_eq h2]

/-! ### Machine/Priv.lean -/

@[simp] theorem State.trap_still (s : State) (h cause tval : Nat) : s.Still (s.trap h cause tval) := by
  simp [State.Still, State.trap]

/-! ### Machine/Request.lean -/

@[simp] theorem State.setX_still (s : State) (h r v : Nat) : s.Still (s.setX h r v) := by
  simp [State.Still, State.setX]

@[simp] theorem State.setF_still (s : State) (h r size v : Nat) : s.Still (s.setF h r size v) := by
  simp [State.Still, State.setF]

@[simp] theorem State.setVBytes_still (s : State) (h r off : Nat) (l : List Byte) :
    s.Still (s.setVBytes h r off l) := by
  fun_cases State.setVBytes s h r off l
  simp -implicitDefEqProofs [State.Still]

@[simp] theorem State.setGather_still (s : State) (h j : Nat) (g : Gather) : s.Still (s.setGather h j g) := by
  simp [State.Still, State.setGather]

@[simp] theorem State.gatherDone_still (s : State) (h j i : Nat) (l : List Byte) (status cause : Nat) :
    s.Still (s.gatherDone h j i l status cause) := by
  fun_cases State.gatherDone s h j i l status cause <;> simp +zetaDelta [State.Still]

@[simp] theorem State.deliver_still (s : State) (dl : Deliver) (status cause : Nat) (l : List Byte) :
    s.Still (s.deliver dl status cause l) := by
  fun_cases State.deliver s dl status cause l <;> simp [State.Still]

@[simp] theorem State.finish_still (s : State) (pkt : Packet) (dl : Deliver) (status cause : Nat) (l : List Byte) :
    s.Still (s.finish pkt dl status cause l) := by
  simp [State.Still, State.finish]

@[simp] theorem State.failNow_still (s : State) (pkt : Packet) (dl : Deliver) (status cause : Nat) :
    s.Still (s.failNow pkt dl status cause) := by
  simp [State.Still, State.failNow]

@[simp] theorem State.headChange_still (s : State) (path : Nat) : s.Still (s.headChange path) := by
  simp [State.Still, State.headChange]

@[simp] theorem State.failMember_still (s : State) (path : Nat) : s.Still (s.failMember path) := by
  simp [State.Still, State.failMember]

@[simp] theorem State.markDead_still (s : State) (path : Nat) : s.Still (s.markDead path) := by
  simp [State.Still, State.markDead]

@[simp] theorem State.clearDead_still (s : State) (path : Nat) : s.Still (s.clearDead path) := by
  simp [State.Still, State.clearDead]

@[simp] theorem State.deadEvent_still (s : State) (pkt : Packet) : s.Still (s.deadEvent pkt) := by
  simp [State.Still, State.deadEvent]

@[simp] theorem State.failDead_still (s : State) (pkt : Packet) (dl : Deliver) : s.Still (s.failDead pkt dl) := by
  simp [State.Still, State.failDead]

@[simp] theorem State.releaseHeld_still (s : State) (u : Nat) : s.Still (s.releaseHeld u) := by
  simp [State.Still, State.releaseHeld]

@[simp] theorem State.complete_still (s : State) (u tag status cause : Nat) (l : List Byte) :
    s.Still (s.complete u tag status cause l) := by
  fun_cases State.complete s u tag status cause l <;> simp +zetaDelta [State.Still]

@[simp] theorem State.request_still (s : State) (pkt : Packet) (path : Nat) (dl : Deliver) :
    s.Still (s.request pkt path dl) := by
  fun_cases State.request s pkt path dl <;> simp [State.Still]

@[simp] theorem State.localFault_still (s : State) (h op pa len status cause : Nat) :
    s.Still (s.localFault h op pa len status cause) := by
  simp [State.Still, State.localFault]

/-! ### Machine/Fabric.lean -/

@[simp] theorem State.ownApply_still (s : State) (path domain region word target : Nat) :
    s.Still (s.ownApply path domain region word target).1 := by
  fun_cases State.ownApply s path domain region word target <;> simp [State.Still]

@[simp] theorem State.ctlCheck_still (s : State) (w : Who) (pa : Nat) : s.Still (s.ctlCheck w pa).1 := by
  fun_cases State.ctlCheck s w pa <;> simp [State.Still]

@[simp] theorem State.ownServe_still (s : State) (w : Who) (path domain pa : Nat) (data : List Byte) :
    s.Still (s.ownServe w path domain pa data).1 := by
  fun_cases State.ownServe s w path domain pa data
  case case1 | case3 => simp [State.Still, fst_of_eq ‹_ = (_, _)›]
  case case2 h1 _ _ _ h2 => simp [State.Still, fst_of_eq h1, fst_of_eq h2]

@[simp] theorem State.ownSend_still (s : State) (h : Nat) (here : Bool) (path pa len : Nat) (dl : Deliver)
    (data : List Byte) :
    s.Still (s.ownSend h here path pa len dl data) := by
  unfold State.ownSend
  dsimp only
  split
  · simp [State.Still]
  · split <;> simp [State.Still]

@[simp] theorem State.endGiving_still (s : State) (k : Packet) : s.Still (s.endGiving k) := by
  simp [State.Still, State.endGiving]

@[simp] theorem State.ctlLoad_still (s : State) (h a size : Nat) (dl : Deliver) : s.Still (s.ctlLoad h a size dl) := by
  simp [State.Still, State.ctlLoad]

@[simp] theorem State.breakRes_still (s : State) (h pa n : Nat) : s.Still (s.breakRes h pa n) := by
  simp [State.Still, State.breakRes]

@[simp] theorem State.solverStore_still (s : State) (h a pa : Nat) (l : List Byte) :
    s.Still (s.solverStore h a pa l) := by
  fun_cases State.solverStore s h a pa l
  case case1 | case2 => simp [State.Still, fst_of_eq ‹_ = (_, _)›]
  all_goals simp [State.Still]

@[simp] theorem State.solverAmo_still (s : State) (h a pa size rd op : Nat) (l : List Byte) :
    s.Still (s.solverAmo h a pa size rd op l) := by
  fun_cases State.solverAmo s h a pa size rd op l
  case case1 | case2 => simp [State.Still, fst_of_eq ‹_ = (_, _)›]
  all_goals simp [State.Still]

@[simp] theorem State.pushFence_still (s : State) (u : Nat) (next : Option (Packet × Deliver))
    (peers : List (Nat × Nat × Nat)) (here : Bool) :
    s.Still (s.pushFence u next peers here) := by
  simp [State.Still, State.pushFence]

@[simp] theorem State.fenceDone_still (s : State) (h : Nat) : s.Still (s.fenceDone h) := by
  unfold State.fenceDone
  dsimp only
  split
  · exact ⟨rfl, rfl⟩
  · split
    · exact ⟨rfl, rfl⟩
    · split <;> split <;> simp [State.Still]

@[simp] theorem State.ownIssue_still (s : State) (h a rd word : Nat) : s.Still (s.ownIssue h a rd word) := by
  simp [State.Still, State.ownIssue]

@[simp] theorem State.gatherDesc_still (s : State) (h pa : Nat) : s.Still (s.gatherDesc h pa).1 := by
  fun_cases State.gatherDesc s h pa
  case case2 | case3 => simp [State.Still, fst_of_eq ‹_ = (_, _)›]
  case case1 => simp [State.Still]

@[simp] theorem State.gatherList_still (s : State) (h addr count : Nat) : s.Still (s.gatherList h addr count).1 := by
  fun_cases State.gatherList s h addr count <;> simp [State.Still, fst_of_eq ‹_ = (_, _)›]

@[simp] theorem State.gatherElem_still (s : State) (h j i lane : Nat) (e : Nat × Nat) :
    s.Still (s.gatherElem h j i lane e) := by
  fun_cases State.gatherElem s h j i lane e
  case case1 | case2 => simp +zetaDelta [State.Still, fst_of_eq ‹_ = (_, _)›]
  case case3 => simp [State.Still, fst_of_eq ‹_ = (_, _)›]
  case case4 => simp [State.Still]

@[simp] theorem State.snoopAll_still (s : State) (h : Nat) (l : List (Nat × Nat)) : s.Still (s.snoopAll h l).1 := by
  simp [State.Still, State.snoopAll]

@[simp] theorem State.gatherStart_still (s : State) (h rd desc : Nat) : s.Still (s.gatherStart h rd desc) := by
  have hx (u : State) (v : Nat) : u.Still (u.setX h rd v) := State.setX_still ..
  have hw (u : State) : u.Still (u.answer stWait []) := State.answer_still ..
  have hsnoop {u v : State} {l b} (e : u.snoopAll h l = (v, b)) (hu : s.Still u) : s.Still v :=
    hu.trans (.of_eq e (State.snoopAll_still ..))
  have hdesc {u v : State} {r} (e : u.gatherDesc h desc = (v, r)) (hu : s.Still u) : s.Still v :=
    hu.trans (.of_eq e (State.gatherDesc_still ..))
  have hlist {u v : State} {l n r} (e : u.gatherList h l n = (v, r)) (hu : s.Still u) : s.Still v :=
    hu.trans (.of_eq e (State.gatherList_still ..))
  have h0 : s.Still s := ⟨rfl, rfl⟩
  fun_cases State.gatherStart s h rd desc
  case case1 => exact h0
  case case2 | case3 => exact hx ..
  case case4 h1 => exact (hsnoop h1 h0).trans (hw _)
  case case5 h1 _ h2 => exact (hdesc h2 (hsnoop h1 h0)).trans (hx ..)
  case case6 h1 _ _ h2 _ _ h3 => exact (hsnoop h3 (hdesc h2 (hsnoop h1 h0))).trans (hw _)
  case case7 h1 _ _ h2 _ _ h3 _ h4 => exact (hlist h4 (hsnoop h3 (hdesc h2 (hsnoop h1 h0)))).trans (hx ..)
  case case8 h1 _ _ h2 _ _ h3 _ _ h4 _ h5 =>
    exact (hsnoop h5 (hlist h4 (hsnoop h3 (hdesc h2 (hsnoop h1 h0))))).trans (hw _)
  case case9 h1 _ _ h2 _ _ _ h3 _ _ h4 _ h5 _ =>
    refine (hsnoop h5 (hlist h4 (hsnoop h3 (hdesc h2 (hsnoop h1 h0))))).trans (.trans
      (foldl_still ?_ _ (State.setGather_still ..)) (hx ..))
    rintro s i _ rfl
    exact State.gatherElem_still ..

@[simp] theorem State.ctlAmo_still (s : State) (h a size rd op word : Nat) :
    s.Still (s.ctlAmo h a size rd op word) := by
  simp [State.Still, State.ctlAmo]

@[simp] theorem State.heard_still (s : State) (k : Packet) : s.Still (s.heard k) := by
  simp [State.Still, State.heard]

@[simp] theorem State.respond_still (s : State) (k : Packet) (status cause : Nat) (l : List Byte) :
    s.Still (s.respond k status cause l) := by
  simp [State.Still, State.respond]

@[simp] theorem State.fabricRecord_still (s : State) (p : Nat) (k : Packet) : s.Still (s.fabricRecord p k) := by
  simp [State.Still, State.fabricRecord]

@[simp] theorem State.perform_still (s : State) (k : Packet) : s.Still (s.perform k).1 := by
  fun_cases State.perform s k
  case case2 => exact State.ownServe_still ..
  case case5 | case6 | case7 =>
    rename State × Option (List Byte × Nat × Nat) => r
    have hr : s.Still r.1 := by
      dsimp only [r]
      split
      · split <;> next h => simp [State.Still, fst_of_eq h]
      · exact State.amoLocal_still ..
    clear_value r
    simp_all [State.Still]
  all_goals exact ⟨rfl, rfl⟩

@[simp] theorem State.setOrd_still (s : State) (key : Nat) (x : OrdSrc) : s.Still (s.setOrd key x) := by
  simp [State.Still, State.setOrd]

@[simp] theorem State.ordersLost_still (s : State) : s.Still s.ordersLost := by
  simp [State.Still, State.ordersLost]

@[simp] theorem State.applyOne_still (s : State) (key : Nat) (k : Packet) : s.Still (s.applyOne key k).1 := by
  fun_cases State.applyOne s key k
  case case2 | case3 => simp [State.Still, fst_of_eq ‹_ = (_, _)›]
  case case1 => simp [State.Still]

@[simp] theorem State.drainHeld_still (s : State) (key n : Nat) : s.Still (s.drainHeld key n) := by
  fun_induction State.drainHeld s key n
  case case3 h ih => exact .trans (by simp [State.Still, fst_of_eq h]) ih
  case case4 h => simp [State.Still, fst_of_eq h]
  all_goals exact ⟨rfl, rfl⟩

@[simp] theorem State.holdReq_still (s : State) (key : Nat) (k : Packet) : s.Still (s.holdReq key k) := by
  simp [State.Still, State.holdReq]

@[simp] theorem State.orderedHere_still (s : State) (k : Packet) : s.Still (s.orderedHere k) := by
  fun_cases State.orderedHere s k
  case case6 | case7 | case8 => simp +zetaDelta [State.Still, fst_of_eq ‹State.applyOne _ _ _ = (_, _)›]
  all_goals simp +zetaDelta [State.Still]

@[simp] theorem State.ordered_still (s : State) (k : Packet) : s.Still (s.ordered k) := by
  simp [State.Still, State.ordered]

@[simp] theorem State.slotWaits_still (s : State) (dl : Deliver) : s.Still (s.slotWaits dl).1 := by
  fun_cases State.slotWaits s dl <;> simp [State.Still]

/-! ### Machine/Commit.lean -/

@[simp] theorem State.doffFail_still (s : State) (p : Nat) : s.Still (s.doffFail p) := by
  simp [State.Still, State.doffFail]

@[simp] theorem State.writeShard_still (s : State) (p kind fmt orig layout tensor slot rowOff colOff rows cols : Nat)
    (data : List Byte) :
    s.Still (s.writeShard p kind fmt orig layout tensor slot rowOff colOff rows cols data) := by
  fun_cases State.writeShard s p kind fmt orig layout tensor slot rowOff colOff rows cols data <;> simp +zetaDelta
    [State.Still]

@[simp] theorem State.writeSlotStates_still (s : State) (p : Nat) : s.Still (s.writeSlotStates p) := by
  fun_cases State.writeSlotStates s p <;> simp +zetaDelta [State.Still]

@[simp] theorem State.decideDoff_still (s : State) (p next : Nat) : s.Still (s.decideDoff p next) := by
  simp [State.Still, State.decideDoff]

@[simp] theorem State.sealDeltas_still (s : State) (p : Nat) : s.Still (s.sealDeltas p) := by
  simp [State.Still, State.sealDeltas]

@[simp] theorem State.commitStep_still (s : State) (p : Nat) (d : Draft) : s.Still (s.commitStep p d) := by
  simp -implicitDefEqProofs [State.Still, State.commitStep]

@[simp] theorem State.afterCommit_still (s : State) (p : Nat) (d : Draft) : s.Still (s.afterCommit p d) := by
  simp [State.Still, State.afterCommit]

@[simp] theorem State.lateRelease_still (s : State) (p t c : Nat) : s.Still (s.lateRelease p t c) := by
  simp [State.Still, State.lateRelease]

@[simp] theorem State.grantHost_still (s : State) (p : Nat) (h : HeldOut) : s.Still (s.grantHost p h) := by
  simp [State.Still, State.grantHost]

@[simp] theorem State.releaseBuffers_still (s : State) (p : Nat) : s.Still (s.releaseBuffers p) := by
  simp [State.Still, State.releaseBuffers]

@[simp] theorem State.releaseTiles_still (s : State) (p : Nat) : s.Still (s.releaseTiles p) := by
  simp [State.Still, State.releaseTiles]

@[simp] theorem State.drivePulse_still (s : State) : s.Still s.drivePulse := by
  simp [State.Still, State.drivePulse]

@[simp] theorem State.signatureFault_still (s : State) (p n tick : Nat) : s.Still (s.signatureFault p n tick) := by
  simp [State.Still, State.signatureFault]

/-! ### Machine/Flyer.lean -/

@[simp] theorem State.placeFault_still (s : State) (code p n tick pos : Nat) :
    s.Still (s.placeFault code p n tick pos) := by
  simp [State.Still, State.placeFault]

@[simp] theorem State.cmdFault_still (s : State) (i : Issued) (code : Nat) : s.Still (s.cmdFault i code) := by
  simp [State.Still, State.cmdFault]

@[simp] theorem State.atFault_still (s : State) (c : StCmd) (code : Nat) : s.Still (s.atFault c code) := by
  simp [State.Still, State.atFault]

@[simp] theorem State.invalid_still (s : State) (i : Issued) : s.Still (s.invalid i) := by
  simp [State.Still, State.invalid]

@[simp] theorem State.atInvalid_still (s : State) (c : StCmd) : s.Still (s.atInvalid c) := by
  simp [State.Still, State.atInvalid]

@[simp] theorem State.issueAt_still (s : State) (p : Nat) (c : Cmd) (op : Nat) : s.Still (s.issueAt p c op).1 := by
  simp [State.Still, State.issueAt]

@[simp] theorem State.readSreg_still (s : State) (i : Issued) (r : Nat) : s.Still (s.readSreg i r).1 := by
  fun_cases State.readSreg s i r <;> simp [State.Still]

@[simp] theorem State.readSregs_still (s : State) (i : Issued) (l : List Nat) : s.Still (s.readSregs i l).1 := by
  fun_induction State.readSregs s i l
  case case1 => exact ⟨rfl, rfl⟩
  case case2 h => simp [State.Still, fst_of_eq h]
  case case3 h _ h' ih | case4 h _ _ h' ih => exact .trans (by simp [State.Still, fst_of_eq h]) (fst_of_eq h' ▸ ih)

@[simp] theorem State.landSreg_still (s : State) (i : Issued) (c : Cmd) (v mask : Nat) :
    s.Still (s.landSreg i c v mask) := by
  simp [State.Still, State.landSreg]

@[simp] theorem State.sLoad_still (s : State) (i : Issued) (c : Cmd) : s.Still (s.sLoad i c) := by
  fun_cases State.sLoad s i c
  case case2 | case3 => simp [State.Still, fst_of_eq ‹_ = (_, _)›]
  case case1 => simp [State.Still]

@[simp] theorem State.sStore_still (s : State) (i : Issued) (c : Cmd) : s.Still (s.sStore i c) := by
  fun_cases State.sStore s i c
  case case2 | case3 => simp [State.Still, fst_of_eq ‹_ = (_, _)›]
  case case1 => simp [State.Still]

@[simp] theorem State.sOp_still (s : State) (i : Issued) (c : Cmd) (g : Nat → Nat → Option Nat) :
    s.Still (s.sOp i c g) := by
  fun_cases State.sOp s i c g <;> simp [State.Still, fst_of_eq ‹_ = (_, _)›]

@[simp] theorem State.setBase_still (s : State) (i : Issued) (c : Cmd) : s.Still (s.setBase i c) := by
  fun_cases State.setBase s i c <;> simp [State.Still]

@[simp] theorem State.dispatch_still (s : State) (i : Issued) (c : Cmd) (a b : Nat) : s.Still (s.dispatch i c a b) := by
  simp [State.Still, State.dispatch]

@[simp] theorem State.dispatch0_still (s : State) (i : Issued) (c : Cmd) : s.Still (s.dispatch0 i c) := by
  simp [State.Still, State.dispatch0]

@[simp] theorem State.dispatch1_still (s : State) (i : Issued) (c : Cmd) : s.Still (s.dispatch1 i c) := by
  fun_cases State.dispatch1 s i c <;> simp [State.Still, fst_of_eq ‹_ = (_, _)›]

@[simp] theorem State.dispatch2_still (s : State) (i : Issued) (c : Cmd) : s.Still (s.dispatch2 i c) := by
  fun_cases State.dispatch2 s i c <;> simp [State.Still, fst_of_eq ‹_ = (_, _)›]

@[simp] theorem State.queueAt_still (s : State) (c : StCmd) : s.Still (s.queueAt c) := by
  simp [State.Still, State.queueAt]

@[simp] theorem State.occupy_still (s : State) (c : StCmd) (cycles : Nat) : s.Still (s.occupy c cycles) := by
  simp [State.Still, State.occupy]

theorem State.takeTile_still {s u : State} {p n st r : Nat} {q : QTile} (h : s.takeTile p n st r = some (u, q)) :
    s.Still u := by
  revert h
  fun_cases State.takeTile s p n st r
  case case1 => simp
  case case2 =>
    rintro h
    cases h
    simp +zetaDelta [State.Still]

@[simp] theorem State.underrun_still (s : State) (p n st r tick pos : Nat) :
    s.Still (s.underrun p n st r tick pos) := by
  simp [State.Still, State.underrun]

@[simp] theorem State.consume_still (s : State) (p n st r tick pos : Nat) :
    s.Still (s.consume p n st r tick pos).1 := by
  fun_cases State.consume s p n st r tick pos
  case case1 h => exact State.takeTile_still h
  case case2 => simp [State.Still]

@[simp] theorem State.takeLane_still (s : State) (p n st r from_ cycles : Nat) :
    s.Still (s.takeLane p n st r from_ cycles) := by
  simp [State.Still, State.takeLane]

@[simp] theorem State.holdMem_still (s : State) (c : StCmd) (cycles : Nat) : s.Still (s.holdMem c cycles) := by
  simp [State.Still, State.holdMem]

@[simp] theorem State.fillRange_still (s : State) (c : StCmd) (base size : Nat) :
    s.Still (s.fillRange c base size) := by
  simp [State.Still, State.fillRange]

@[simp] theorem State.copyRange_still (s : State) (c : StCmd) (base size : Nat) :
    s.Still (s.copyRange c base size) := by
  fun_cases State.copyRange s c base size
  case case2 => simp +zetaDelta [State.Still]
  case case3 | case4 => simp +zetaDelta [State.Still, fst_of_eq ‹_ = (_, _)›]
  case case1 => simp [State.Still]

@[simp] theorem State.startMem_still (s : State) (c : StCmd) : s.Still (s.startMem c) := by
  fun_cases State.startMem s c <;> simp [State.Still]

@[simp] theorem State.startMark_still (s : State) (c : StCmd) : s.Still (s.startMark c) := by
  simp [State.Still, State.startMark]

@[simp] theorem State.digestTile_still (s : State) (p : Nat) (t : Tile) : s.Still (s.digestTile p t) := by
  fun_cases State.digestTile s p t <;> simp +zetaDelta [State.Still]

@[simp] theorem State.finishShard_still (s : State) (p n : Nat) (r : Take) : s.Still (s.finishShard p n r) := by
  fun_cases State.finishShard s p n r <;> simp +zetaDelta [State.Still]

@[simp] theorem State.setWhorl_still (s : State) (n w : Nat) (x : Whorl) : s.Still (s.setWhorl n w x) := by
  simp [State.Still, State.setWhorl]

@[simp] theorem State.finishImport_still (s : State) (p n st : Nat) (r : Take) : s.Still (s.finishImport p n st r) := by
  simp [State.Still, State.finishImport]

@[simp] theorem State.finishContribution_still (s : State) (n : Nat) (r : Take) :
    s.Still (s.finishContribution n r) := by
  fun_cases State.finishContribution s n r <;> simp [State.Still]

@[simp] theorem State.finishTake_still (s : State) (p n st : Nat) (r : Take) : s.Still (s.finishTake p n st r) := by
  fun_cases State.finishTake s p n st r <;> simp [State.Still]

@[simp] theorem State.holdTile_still (s : State) (n st : Nat) (t : Tile) : s.Still (s.holdTile n st t) := by
  simp [State.Still, State.holdTile]

@[simp] theorem State.feed_still (s : State) (p n st k : Nat) : s.Still (s.feed p n st k) := by
  fun_induction State.feed s p n st k
  case case3 ih | case7 ih => exact .trans (by simp +zetaDelta [State.Still]) ih
  all_goals simp [State.Still]

@[simp] theorem State.addTake_still (s : State) (c : StCmd) (roving want per : Nat) (desc : List Nat) :
    s.Still (s.addTake c roving want per desc) := by
  simp [State.Still, State.addTake]

@[simp] theorem State.startDigest_still (s : State) (c : StCmd) : s.Still (s.startDigest c) := by
  fun_cases State.startDigest s c <;> simp [State.Still]

@[simp] theorem State.startShard_still (s : State) (c : StCmd) : s.Still (s.startShard c) := by
  fun_cases State.startShard s c
  case case3 | case4 | case5 => simp [State.Still, fst_of_eq ‹_ = (_, _)›]
  all_goals simp [State.Still]

/-! ### Machine/Whorl.lean -/

@[simp] theorem State.startSetup_still (s : State) (c : StCmd) : s.Still (s.startSetup c) := by
  simp [State.Still, State.startSetup]

@[simp] theorem State.readBank_still (s : State) (p n w b tick pos : Nat) :
    s.Still (s.readBank p n w b tick pos).1 := by
  simp [State.Still, State.readBank]

@[simp] theorem State.tellSticky_still (s : State) (n w b : Nat) : s.Still (s.tellSticky n w b) := by
  fun_cases State.tellSticky s n w b <;> simp [State.Still]

@[simp] theorem State.produce_still (s : State) (p r ready : Nat) (t : Tile) : s.Still (s.produce p r ready t) := by
  simp [State.Still, State.produce]

@[simp] theorem State.useOut_still (s : State) (c : StCmd) (cycles : Nat) : s.Still (s.useOut c cycles) := by
  simp [State.Still, State.useOut]

@[simp] theorem State.startAccOut_still (s : State) (c : StCmd) : s.Still (s.startAccOut c) := by
  fun_cases State.startAccOut s c
  case case2 => simp +zetaDelta [State.Still, fst_of_eq ‹_ = (_, _)›]
  case case3 => simp [State.Still, fst_of_eq ‹_ = (_, _)›]
  case case1 => simp [State.Still]

@[simp] theorem State.startAccIn_still (s : State) (c : StCmd) : s.Still (s.startAccIn c) := by
  simp [State.Still, State.startAccIn]

@[simp] theorem State.startBatt_still (s : State) (c : StCmd) : s.Still (s.startBatt c) := by
  fun_cases State.startBatt s c
  case case3 => simp [State.Still, fst_of_eq ‹_ = (_, _)›]
  case case4 h1 _ h2 => simp [State.Still, fst_of_eq h1, fst_of_eq h2]
  case case5 h1 _ _ h2 _ _ _ _ _ _ => simp +zetaDelta [State.Still, fst_of_eq h1, fst_of_eq h2]
  all_goals simp [State.Still]

@[simp] theorem State.startOther_still (s : State) (c : StCmd) : s.Still (s.startOther c) := by
  simp [State.Still, State.startOther]

@[simp] theorem State.popWhorl_still (s : State) (n w : Nat) : s.Still (s.popWhorl n w) := by
  simp [State.Still, State.popWhorl]

@[simp] theorem State.startWhorl_still (s : State) (n w : Nat) : s.Still (s.startWhorl n w) := by
  fun_cases State.startWhorl s n w <;> simp [State.Still]

@[simp] theorem State.whorlArrive_still (s : State) (c : StCmd) : s.Still (s.whorlArrive c) := by
  simp [State.Still, State.whorlArrive]

@[simp] theorem State.portTiles_still (s : State) (c : StCmd) (hold : Bool) (r count : Nat) (portB : Bool) :
    s.Still (s.portTiles c hold r count portB).1 := by
  fun_cases State.portTiles s c hold r count portB
  case case4 | case5 => simp [State.Still, fst_of_eq ‹_ = (_, _)›]
  case case6 h1 _ _ h2 => simp [State.Still, fst_of_eq h1, fst_of_eq h2]
  case case7 h1 _ _ _ h2 => simp [State.Still, fst_of_eq h1, fst_of_eq h2]
  all_goals simp [State.Still]

@[simp] theorem State.startMma_still (s : State) (c : StCmd) : s.Still (s.startMma c) := by
  fun_cases State.startMma s c
  case case4 => simp [State.Still, fst_of_eq ‹_ = (_, _)›]
  case case5 h1 _ h2 => simp [State.Still, fst_of_eq h1, fst_of_eq h2]
  case case6 h1 _ _ h2 _ => simp [State.Still, fst_of_eq h1, fst_of_eq h2]
  case case7 h1 _ _ h2 _ _ _ _ => simp [State.Still, fst_of_eq h1, fst_of_eq h2]
  all_goals simp [State.Still]

@[simp] theorem State.countRerun_still (s : State) (n : Nat) : s.Still (s.countRerun n) := by
  simp [State.Still, State.countRerun]

@[simp] theorem State.pauseIssue_still (s : State) (p cycles : Nat) : s.Still (s.pauseIssue p cycles) := by
  fun_cases State.pauseIssue s p cycles <;> simp [State.Still]

@[simp] theorem State.stepMismatch_still (s : State) (p n w : Nat) (e : TileStep) (es : List TileStep) :
    s.Still (s.stepMismatch p n w e es) := by
  simp [State.Still, State.stepMismatch]

@[simp] theorem State.endStep_still (s : State) (p n w : Nat) (e : TileStep) (es : List TileStep) (r : StepCheck) :
    s.Still (s.endStep p n w e es r) := by
  fun_cases State.endStep s p n w e es r
  case case2 | case3 | case4 => simp [State.Still, fst_of_eq ‹_ = (_, _)›]
  case case1 => simp [State.Still]

/-! ### Machine/Coll.lean -/

@[simp] theorem State.modColl_still (s : State) (k : Nat) (f : Collective → Collective) : s.Still (s.modColl k f) := by
  fun_cases State.modColl s k f <;> simp [State.Still]

@[simp] theorem State.modStage_still (s : State) (k seg depth : Nat) (f : Stage → Stage) :
    s.Still (s.modStage k seg depth f) := by
  simp [State.Still, State.modStage]

@[simp] theorem State.nak_still (s : State) (k : Packet) (reason : Nat) : s.Still (s.nak k reason) := by
  simp [State.Still, State.nak]

@[simp] theorem State.collCheck_still (s : State) (k : Packet) : s.Still (s.collCheck k).1 := by
  simp [State.Still, State.collCheck]

@[simp] theorem State.openColl_still (s : State) (h : ChunkHead) (draft : Bool) : s.Still (s.openColl h draft) := by
  fun_cases State.openColl s h draft <;> simp [State.Still]

@[simp] theorem State.sendChunk_still (s : State) (k dst depth : Nat) (down : Bool) (chunk rank : Nat)
    (l : List Byte) (taint : Bool) :
    s.Still (s.sendChunk k dst depth down chunk rank l taint) := by
  fun_cases State.sendChunk s k dst depth down chunk rank l taint <;> simp +zetaDelta [State.Still]

@[simp] theorem State.sendLaunch_still (s : State) (k dst depth : Nat) (down : Bool) (seg rank : Nat) (l : List Byte) :
    s.Still (s.sendLaunch k dst depth down seg rank l) := by
  fun_cases State.sendLaunch s k dst depth down seg rank l <;> simp +zetaDelta [State.Still]

@[simp] theorem State.taint_still (s : State) (k chunk depth : Nat) : s.Still (s.taint k chunk depth) := by
  simp [State.Still, State.taint]

@[simp] theorem State.claimStage_still (s : State) (k j seg tick : Nat) : s.Still (s.claimStage k j seg tick) := by
  fun_cases State.claimStage s k j seg tick <;> simp +zetaDelta [State.Still]

@[simp] theorem State.claimFirst_still (s : State) (k j tick : Nat) : s.Still (s.claimFirst k j tick) := by
  simp [State.Still, State.claimFirst]

@[simp] theorem State.launchUp_still (s : State) (k tick n pos j : Nat) : s.Still (s.launchUp k tick n pos j) := by
  fun_induction State.launchUp s k tick n pos j
  case case5 ih => exact .trans (by simp +zetaDelta [State.Still]) ih
  all_goals simp +zetaDelta [State.Still]

@[simp] theorem State.emitUp_still (s : State) (k seg pos j i : Nat) (l : List Byte) (taint : Bool) :
    s.Still (s.emitUp k seg pos j i l taint) := by
  fun_cases State.emitUp s k seg pos j i l taint <;> simp +zetaDelta [State.Still]

@[simp] theorem State.emitDown_still (s : State) (k seg pos j i : Nat) (l : List Byte) (taint : Bool) :
    s.Still (s.emitDown k seg pos j i l taint) := by
  simp [State.Still, State.emitDown]

@[simp] theorem State.collRead_still (s : State) (pa n : Nat) : s.Still (s.collRead pa n).1 := by
  refine foldl_fst_still ?_ _ ⟨rfl, rfl⟩
  rintro x e _ rfl
  split
  · exact ⟨rfl, rfl⟩
  · split
    next h => split <;> simp [State.Still, fst_of_eq h]

@[simp] theorem State.sourceChunk_still (s : State) (c : Collective) (i : Nat) : s.Still (s.sourceChunk c i).1 := by
  fun_cases State.sourceChunk s c i
  case case3 => simp [State.Still, fst_of_eq ‹_ = (_, _)›]
  all_goals simp [State.Still]

@[simp] theorem State.loneFold_still (s : State) (c : Collective) (g : Group) (i : Nat) :
    s.Still (s.loneFold c g i).1 := by
  simp [State.Still, State.loneFold]

@[simp] theorem State.pumpMember_still (s : State) (k seg : Nat) : s.Still (s.pumpMember k seg) := by
  fun_cases State.pumpMember s k seg <;> simp [State.Still]

@[simp] theorem State.pumpUp_still (s : State) (k seg j : Nat) : s.Still (s.pumpUp k seg j) := by
  fun_cases State.pumpUp s k seg j <;> simp [State.Still]

@[simp] theorem State.pumpDown_still (s : State) (k seg j : Nat) : s.Still (s.pumpDown k seg j) := by
  fun_cases State.pumpDown s k seg j <;> simp [State.Still]

@[simp] theorem State.toldTaint_still (s : State) (h : ChunkHead) (bitmap : Nat) : s.Still (s.toldTaint h bitmap) := by
  fun_cases State.toldTaint s h bitmap <;> simp +zetaDelta [State.Still]

@[simp] theorem State.acked_still (s : State) (k chunk rank : Nat) (good wrote : Bool) :
    s.Still (s.acked k chunk rank good wrote) := by
  fun_cases State.acked s k chunk rank good wrote <;> simp +zetaDelta [State.Still]

@[simp] theorem State.ackChunk_still (s : State) (k chunk : Nat) (good wrote : Bool) :
    s.Still (s.ackChunk k chunk good wrote) := by
  simp [State.Still, State.ackChunk]

@[simp] theorem State.deliverChunk_still (s : State) (k seg i : Nat) (l : List Byte) (taint : Bool) :
    s.Still (s.deliverChunk k seg i l taint) := by
  simp [State.Still, State.deliverChunk]

@[simp] theorem State.pumpDeliver_still (s : State) (k seg : Nat) : s.Still (s.pumpDeliver k seg) := by
  fun_cases State.pumpDeliver s k seg <;> simp [State.Still]

@[simp] theorem State.endStage_still (s : State) (k seg j : Nat) : s.Still (s.endStage k seg j) := by
  fun_cases State.endStage s k seg j <;> simp +zetaDelta [State.Still]

@[simp] theorem State.endColl_still (s : State) (k : Nat) : s.Still (s.endColl k) := by
  fun_cases State.endColl s k <;> simp +zetaDelta [State.Still]

@[simp] theorem State.pump_still (s : State) (k : Nat) : s.Still (s.pump k) := by
  fun_cases State.pump s k
  case case1 => exact ⟨rfl, rfl⟩
  case case2 =>
    refine .trans (foldl_still ?_ _ (foldl_still ?_ _ ⟨rfl, rfl⟩)) (State.endColl_still ..)
    · rintro s seg _ rfl
      simp [State.Still]
    · rintro s seg _ rfl
      simp [State.Still, -List.foldl_reverse]

@[simp] theorem State.grant_still (s : State) (x : Claim) : s.Still (s.grant x) := by
  simp [State.Still, State.grant]

@[simp] theorem State.admitRound_still (s : State) : s.Still s.admitRound := by
  simp [State.Still, State.admitRound]

@[simp] theorem State.mismatch_still (s : State) (k : Nat) : s.Still (s.mismatch k) := by
  simp [State.Still, State.mismatch]

@[simp] theorem State.launchColl_still (s : State) (p : Nat) (w : List Nat) : s.Still (s.launchColl p w).1 := by
  fun_cases State.launchColl s p w <;> simp +zetaDelta [State.Still]

@[simp] theorem State.checkChunk_still (s : State) (key : Nat) (h : ChunkHead) (l : List Byte) (cr : CreelCheck) :
    s.Still (s.checkChunk key h l cr).1 := by
  simp [State.Still, State.checkChunk]

@[simp] theorem State.hear_still (s : State) (k key : Nat) : s.Still (s.hear k key) := by
  simp [State.Still, State.hear]

@[simp] theorem State.dynChunk_still (s : State) (k : Packet) (h : ChunkHead) (cr : CreelCheck) :
    s.Still (s.dynChunk k h cr) := by
  fun_cases State.dynChunk s k h cr
  case case5 | case9 | case10 => simp [State.Still, fst_of_eq ‹_ = (_, _)›]
  all_goals simp [State.Still]

@[simp] theorem State.draftChunk_still (s : State) (k : Packet) (h : ChunkHead) (cr : CreelCheck) :
    s.Still (s.draftChunk k h cr) := by
  fun_cases State.draftChunk s k h cr
  case case1 | case3 => simp +zetaDelta [State.Still, fst_of_eq ‹_ = (_, _)›]
  case case2 => simp +zetaDelta [State.Still]

@[simp] theorem State.resend_still (s : State) (key : Nat) (fits : Kept → Bool) : s.Still (s.resend key fits) := by
  simp [State.Still, State.resend]

/-! ### Machine/DraftColl.lean -/

@[simp] theorem State.beginDraftColl_still (s : State) (p off bytes : Nat) (w : List Nat) :
    s.Still (s.beginDraftColl p off bytes w).1 := by
  simp [State.Still, State.beginDraftColl]

@[simp] theorem State.joinColl_still (s : State) (p n off bytes : Nat) (w : List Nat) :
    s.Still (s.joinColl p n off bytes w).1 := by
  fun_cases State.joinColl s p n off bytes w <;> simp [State.Still]

@[simp] theorem State.startColl_still (s : State) (c : StCmd) : s.Still (s.startColl c) := by
  fun_cases State.startColl s c
  case case2 | case3 => simp [State.Still, fst_of_eq ‹_ = (_, _)›]
  case case4 h1 _ _ _ _ _ _ _ _ h2 => simp [State.Still, fst_of_eq h1, fst_of_eq h2]
  all_goals simp [State.Still]

@[simp] theorem State.startVote_still (s : State) (c : StCmd) : s.Still (s.startVote c) := by
  fun_cases State.startVote s c <;> simp +zetaDelta [State.Still]

@[simp] theorem State.draftLaunch_still (s : State) (k : Nat) : s.Still (s.draftLaunch k) := by
  fun_cases State.draftLaunch s k <;> simp +zetaDelta [State.Still]

@[simp] theorem State.seqUp_still (s : State) (k j i : Nat) : s.Still (s.seqUp k j i) := by
  fun_cases State.seqUp s k j i
  case case3 h => simp +zetaDelta [State.Still, snd_of_eq h]
  all_goals simp +zetaDelta [State.Still]

@[simp] theorem State.seqInput_still (s : State) (k j i : Nat) : s.Still (s.seqInput k j i).1 := by
  fun_cases State.seqInput s k j i
  case case1 => exact ⟨rfl, rfl⟩
  case case2 h => simp +zetaDelta [State.Still, snd_of_eq h]

@[simp] theorem State.emitTiles_still (s : State) (k n fuel : Nat) : s.Still (s.emitTiles k n fuel) := by
  fun_induction State.emitTiles s k n fuel
  case case5 ih => exact .trans (.trans (State.modColl_still ..) (State.produce_still ..)) ih
  all_goals exact ⟨rfl, rfl⟩

@[simp] theorem State.seqDown_still (s : State) (k j i : Nat) : s.Still (s.seqDown k j i) := by
  simp [State.Still, State.seqDown]

@[simp] theorem State.seqColl_still (s : State) (p off : Nat) (d : Draft) : s.Still (s.seqColl p off d).1 := by
  fun_cases State.seqColl s p off d <;> simp [State.Still]

@[simp] theorem State.staleGroup_still (s : State) (p g : Nat) : s.Still (s.staleGroup p g) := by
  simp [State.Still, State.staleGroup]

@[simp] theorem State.setGroup_still (s : State) (p g : Nat) (x : Group) : s.Still (s.setGroup p g x) := by
  simp [State.Still, State.setGroup]

/-! ### Machine/Twist.lean -/

@[simp] theorem State.setTwist_still (s : State) (n e : Nat) (x : Twist) : s.Still (s.setTwist n e x) := by
  simp [State.Still, State.setTwist]

@[simp] theorem State.tFault_still (s : State) (p n : Nat) (c : StCmd) (code : Nat) :
    s.Still (s.tFault p n c code) := by
  simp [State.Still, State.tFault]

@[simp] theorem State.readBatt_still (s : State) (p n e : Nat) (c : StCmd) (area cycles : Nat) :
    s.Still (s.readBatt p n e c area cycles).1 := by
  simp [State.Still, State.readBatt]

@[simp] theorem State.source_still (s : State) (p n e : Nat) (c : StCmd) (sat sub : Bool) :
    s.Still (s.source p n e c sat sub).1 := by
  fun_cases State.source s p n e c sat sub
  case case3 | case4 | case7 | case9 | case10 => simp [State.Still, fst_of_eq ‹_ = (_, _)›]
  case case8 => simp +zetaDelta [State.Still, fst_of_eq ‹_ = (_, _)›]
  all_goals simp [State.Still]

@[simp] theorem State.twistFlags_still (s : State) (n e fl : Nat) : s.Still (s.twistFlags n e fl) := by
  simp -implicitDefEqProofs [State.Still, State.twistFlags]

@[simp] theorem State.writeTile_still (s : State) (p n e r : Nat) (v : Roving) (stoch : Bool) (x : Flow)
    (vals : Array Num) (direct : Bool) (ready h : Nat) :
    s.Still (s.writeTile p n e r v stoch x vals direct ready h) := by
  simp [State.Still, State.writeTile]

@[simp] theorem State.writeRoving_still (s : State) (p n e : Nat) (c : StCmd) (r fmt : Nat) (x : Flow)
    (vals : Array Num) (direct : Bool) (ready : Nat) :
    s.Still (s.writeRoving p n e c r fmt x vals direct ready) := by
  fun_cases State.writeRoving s p n e c r fmt x vals direct ready <;> simp [State.Still]

@[simp] theorem State.passEntered_still (s : State) (n e time : Nat) (wrote : List Nat) :
    s.Still (s.passEntered n e time wrote) := by
  simp [State.Still, State.passEntered]

@[simp] theorem State.flowPass_still (s : State) (p n e : Nat) (cs : List StCmd) (c0 : StCmd) :
    s.Still (s.flowPass p n e cs c0) := by
  fun_cases State.flowPass s p n e cs c0
  case case1 => simp [State.Still]
  case case2 h => simp [State.Still, fst_of_eq h]
  case case3 | case4 => simp +zetaDelta [State.Still, fst_of_eq ‹_ = (_, some _)›]

@[simp] theorem State.openPass_still (s : State) (n e : Nat) : s.Still (s.openPass n e) := by
  simp [State.Still, State.openPass]

@[simp] theorem State.twistArrive_still (s : State) (c : StCmd) : s.Still (s.twistArrive c) := by
  simp [State.Still, State.twistArrive]

/-! ### Machine/RowProg.lean -/

@[simp] theorem State.rowEvents_still (s : State) (n e tensor : Nat) (masked infs : List Nat) :
    s.Still (s.rowEvents n e tensor masked infs) := by
  cases masked <;> cases infs <;> simp [State.Still, State.rowEvents]

@[simp] theorem State.flowRows_still (s : State) (p n e : Nat) (c : StCmd) : s.Still (s.flowRows p n e c) := by
  fun_cases State.flowRows s p n e c
  case case2 => simp [State.Still, fst_of_eq ‹_ = (_, _)›]
  case case3 | case4 => simp +zetaDelta [State.Still, fst_of_eq ‹_ = (_, _)›]
  case case1 => simp [State.Still]

/-! ### Machine/Optimiser.lean -/

@[simp] theorem State.writePair_still (s : State) (p n e pa : Nat) (old : List Byte) (codes : Array Nat)
    (cnt : Array Cnt) :
    s.Still (s.writePair p n e pa old codes cnt) := by
  simp [State.Still, State.writePair]

@[simp] theorem State.writeResidue_still (s : State) (p n e pa : Nat) (old : List Byte) (rs : Array Int) :
    s.Still (s.writeResidue p n e pa old rs) :=
  .trans (State.setPart_still ..) (State.c0Store_still ..)

@[simp] theorem State.readAll_still (s : State) (p n e : Nat) (det : List EvField) (l : List (Nat × Nat)) :
    s.Still (s.readAll p n e det l).1 := by
  fun_induction State.readAll s p n e det l
  case case1 => exact ⟨rfl, rfl⟩
  case case2 h => simp [State.Still, fst_of_eq h]
  case case3 h _ h' ih | case4 h _ _ h' ih => exact .trans (by simp [State.Still, fst_of_eq h]) (fst_of_eq h' ▸ ih)

@[simp] theorem State.writeUpdate_still (s : State) (p n : Nat) (c : StCmd) (l : Layer) (j : Nat) (els : Array OptEl)
    (ready : Nat) :
    s.Still (s.writeUpdate p n c l j els ready) := by
  simp [State.Still, State.writeUpdate]

@[simp] theorem State.optStep_still (s : State) (p n e : Nat) (c : StCmd) : s.Still (s.optStep p n e c) := by
  fun_cases State.optStep s p n e c
  case case2 | case3 => simp [State.Still, fst_of_eq ‹_ = (_, _)›]
  case case4 h1 _ _ _ _ _ _ _ h2 => simp [State.Still, fst_of_eq h1, fst_of_eq h2]
  case case5 h1 _ _ _ _ _ _ _ _ h2 _ h3 => simp [State.Still, fst_of_eq h1, fst_of_eq h2, fst_of_eq h3]
  case case6 h1 _ _ _ _ _ _ _ _ h2 _ _ h3 _ _ _ _ _ _ _ _ _ _ _ _ _ _ _ _ _ _ _ _ _ | case7 h1 _ _ _ _ _ _ _ _ h2 _ _
    h3 _ _ _ _ _ _ _ _ _ _ _ _ _ _ _ _ _ _ _ _ _ => simp +zetaDelta [State.Still, fst_of_eq h1, fst_of_eq h2,
    fst_of_eq h3]
  case case1 => simp [State.Still]

@[simp] theorem State.recsCheck_still (s : State) (p n : Nat) (det : List EvField) (l : List Nat) :
    s.Still (s.recsCheck p n det l).1 := by
  simp [State.Still, State.recsCheck]

@[simp] theorem State.optCommit_still (s : State) (p n e : Nat) (c : StCmd) : s.Still (s.optCommit p n e c) := by
  fun_cases State.optCommit s p n e c
  case case2 | case3 => simp [State.Still, fst_of_eq ‹_ = (_, _)›]
  case case4 h1 _ _ _ _ h2 => simp [State.Still, fst_of_eq h1, fst_of_eq h2]
  case case5 h1 _ _ _ _ h2 _ _ _ _ _ _ _ _ h3 _ | case6 h1 _ _ _ _ h2 _ _ _ _ _ _ _ _ h3 _ => simp [State.Still,
    fst_of_eq h1, fst_of_eq h2, fst_of_eq h3]
  case case1 => simp [State.Still]

@[simp] theorem State.flow_still (s : State) (p n e : Nat) (cs : List StCmd) : s.Still (s.flow p n e cs) := by
  fun_cases State.flow s p n e cs <;> simp [State.Still]

@[simp] theorem State.flowNow_still (s : State) (p n e : Nat) : s.Still (s.flowNow p n e) := by
  simp [State.Still, State.flowNow]

/-! ### Machine/Roving.lean -/

@[simp] theorem State.tileInvalid_still (s : State) (p n r i : Nat) : s.Still (s.tileInvalid p n r i) := by
  simp [State.Still, State.tileInvalid]

@[simp] theorem State.tileOverrun_still (s : State) (p n st r i : Nat) : s.Still (s.tileOverrun p n st r i) := by
  simp [State.Still, State.tileOverrun]

@[simp] theorem State.readTile_still (s : State) (p n st r i due : Nat) (v : Roving) :
    s.Still (s.readTile p n st r i due v).1 := by
  fun_cases State.readTile s p n st r i due v
  case case2 | case3 | case4 => simp [State.Still, fst_of_eq ‹_ = (_, _)›]
  case case1 => simp [State.Still]

@[simp] theorem State.crossTile_still (s : State) (p : Nat) (v : Roving) (x : Tile) : s.Still (s.crossTile p v x) := by
  fun_cases State.crossTile s p v x <;> simp [State.Still]

@[simp] theorem State.takeOut_still (s : State) (p r i : Nat) (v : Roving) : s.Still (s.takeOut p r i v).1 := by
  fun_cases State.takeOut s p r i v <;> simp [State.Still]

@[simp] theorem State.takeAway_still (s : State) (p r i : Nat) (v : Roving) : s.Still (s.takeAway p r i v).1 := by
  fun_cases State.takeAway s p r i v <;> simp [State.Still]

@[simp] theorem State.sourceTile_still (s : State) (p r i due : Nat) (v : Roving) :
    s.Still (s.sourceTile p r i due v).1 := by
  simp [State.Still, State.sourceTile]

@[simp] theorem State.sendAway_still (s : State) (p r i : Nat) (v : Roving) (x : Tile) :
    s.Still (s.sendAway p r i v x) := by
  simp [State.Still, State.sendAway]

@[simp] theorem State.sourceLane_still (s : State) (p r due : Nat) (v : Roving) :
    s.Still (s.sourceLane p r due v).1 := by
  simp [State.Still, State.sourceLane]

@[simp] theorem State.depart_still (s : State) (p r i due : Nat) (v : Roving) : s.Still (s.depart p r i due v) := by
  fun_cases State.depart s p r i due v
  case case1 => simp +zetaDelta [State.Still]
  case case2 => simp +zetaDelta [State.Still, fst_of_eq ‹_ = (_, _)›]
  case case3 h1 _ _ h2 _ => simp +zetaDelta [State.Still, fst_of_eq h1, fst_of_eq h2]
  case case4 h1 _ _ h2 _ _ _ _ => simp +zetaDelta [State.Still, fst_of_eq h1, fst_of_eq h2]
  case case5 h1 _ _ h2 _ _ => simp +zetaDelta [State.Still, fst_of_eq h1, fst_of_eq h2]

@[simp] theorem State.enqueueTile_still (s : State) (p n st r i : Nat) (x : Tile) :
    s.Still (s.enqueueTile p n st r i x) := by
  simp [State.Still, State.enqueueTile]

@[simp] theorem State.noteOld_still (s : State) (n st pa len : Nat) : s.Still (s.noteOld n st pa len) := by
  fun_cases State.noteOld s n st pa len <;> simp [State.Still]

@[simp] theorem State.putTile_still (s : State) (p n st pa : Nat) (x : Tile) : s.Still (s.putTile p n st pa x) := by
  simp [State.Still, State.putTile]

@[simp] theorem State.beginTransfer_still (s : State) (p n st r i : Nat) (v : Roving) (x : Tile) :
    s.Still (s.beginTransfer p n st r i v x) := by
  fun_cases State.beginTransfer s p n st r i v x <;> simp +zetaDelta [State.Still]

@[simp] theorem State.nextTransfer_still (s : State) (n st : Nat) : s.Still (s.nextTransfer n st) := by
  fun_cases State.nextTransfer s n st <;> simp +zetaDelta [State.Still]

@[simp] theorem State.storeTile_still (s : State) (p n st r i : Nat) (v : Roving) (x : Tile) :
    s.Still (s.storeTile p n st r i v x) := by
  fun_cases State.storeTile s p n st r i v x <;> simp +zetaDelta [State.Still]

@[simp] theorem State.land_still (s : State) (p r i : Nat) (v : Roving) (x : Tile) : s.Still (s.land p r i v x) := by
  simp [State.Still, State.land]

/-! ### Machine/Settle.lean -/

@[simp] theorem State.landCmd_still (s : State) (c : StCmd) : s.Still (s.landCmd c) := by
  simp [State.Still, State.landCmd]

@[simp] theorem State.startCmd_still (s : State) (n st : Nat) : s.Still (s.startCmd n st) := by
  fun_cases State.startCmd s n st <;> simp +zetaDelta [State.Still]

@[simp] theorem State.happen_still (s : State) (x : Due) : s.Still (s.happen x) := by
  fun_cases State.happen s x <;> simp [State.Still]

@[simp] theorem State.settleTo_pending (s : State) (t k : Nat) : (s.settleTo t k).pending = s.pending := by
  fun_induction State.settleTo s t k
  case case3 ih => rw [ih]; simp
  all_goals rfl

@[simp] theorem State.settle_still (s : State) : s.Still s.settle := ⟨State.settleTo_pending .., State.settleTo_now ..⟩

@[simp] theorem State.arrive_pending (s : State) (t : Nat) : (s.arrive t).pending = s.pending :=
  State.settleTo_pending ..

theorem keeps_of_still {s u : State} {t : Nat} (h : (s.arrive t).Still u) : Keeps s (.next u) :=
  keeps_next.2 ⟨by simp [h.1], by simp [h.2]⟩

theorem State.arrive_onward (s : State) (t : Nat) : s.Onward (s.arrive t) := by
  simp [State.Onward]

theorem State.toIssue_onward (s : State) (p : Nat) (c : Cmd) : s.Onward (s.toIssue p c) := by
  fun_cases State.toIssue s p c
  case case1 u h => exact ⟨State.settleTo_pending .., by rw [State.settleTo_now]; exact h.le⟩
  case case2 => exact ⟨rfl, le_rfl⟩

/-- A station command keeps the queue and moves time on when its effect leaves both. -/
@[simp] theorem State.run_keeps (s : State) (t : Nat) (c : Cmd) (op : Nat) (eff : State → Issued → State)
    (h : ∀ s i, State.Still s (eff s i)) : Keeps s (s.run t c op eff) := by
  unfold State.run
  dsimp only
  split
  · simp
  next p _ =>
    have hsync : s.Onward ((s.arrive t).syncDraft p) := by simp [State.Onward]
    have hissue := hsync.trans (State.toIssue_onward _ p c)
    split
    · exact keeps_next.2 hsync
    split
    · exact keeps_next.2 hissue
    split
    next e => exact keeps_next.2 (hissue.still (.of_eq e (State.issueAt_still ..)))
    next e => exact keeps_next.2 (hissue.still (.trans (.of_eq e (State.issueAt_still ..)) (h ..)))

/-! ### Machine/Bvx.lean -/

@[simp] theorem State.illegal_still (s : State) (h w : Nat) : s.Still (s.illegal h w) := by
  simp [State.Still, State.illegal]

@[simp] theorem State.setGroupRegs_still (s : State) (h r g v : Nat) : s.Still (s.setGroupRegs h r g v) := by
  simp [State.Still, State.setGroupRegs]

@[simp] theorem State.setMask_still (s : State) (h m v : Nat) : s.Still (s.setMask h m v) := by
  simp [State.Still, State.setMask]

@[simp] theorem State.accrue_still (s : State) (h fl : Nat) : s.Still (s.accrue h fl) := by
  simp [State.Still, State.accrue]

@[simp] theorem State.startAt_still (s : State) (h k : Nat) : s.Still (s.startAt h k) := by
  simp [State.Still, State.startAt]

@[simp] theorem State.endStart_still (s : State) (h : Nat) : s.Still (s.endStart h) := by
  simp [State.Still, State.endStart]

/-- A vector command keeps the queue and moves time on when its effect leaves both. -/
@[simp] theorem State.bvx_keeps (s : State) (t : Nat) (h : HartIdx) (w : BitVec 32) (own : Nat → Bool) (setvl : Bool)
    (eff : State → Nat → Nat → State) (he : ∀ s h w, State.Still s (eff s h w)) : Keeps s (s.bvx t h w own setvl eff)
      := by
  simp [State.bvx, he]

@[simp] theorem State.vectorOp_still (s : State) (h w : Nat) (fp usesRm : Bool)
    (f : Nat → Rm → Nat → Nat → Nat → Nat × Nat) :
    s.Still (s.vectorOp h w fp usesRm f) := by
  fun_cases State.vectorOp s h w fp usesRm f <;> simp +zetaDelta [State.Still]

@[simp] theorem State.compareOp_still (s : State) (h w : Nat) (fp : Bool) (f : Nat → Nat → Nat → Bool × Nat) :
    s.Still (s.compareOp h w fp f) := by
  simp [State.Still, State.compareOp]

@[simp] theorem execBxFadd_keeps (t : Nat) (h : HartIdx) (w : BitVec 32) (s : State) :
    Keeps s (execBxFadd t h w s) := by
  simp [execBxFadd, State.Still]

@[simp] theorem execBxFsub_keeps (t : Nat) (h : HartIdx) (w : BitVec 32) (s : State) :
    Keeps s (execBxFsub t h w s) := by
  simp [execBxFsub, State.Still]

@[simp] theorem execBxFmul_keeps (t : Nat) (h : HartIdx) (w : BitVec 32) (s : State) :
    Keeps s (execBxFmul t h w s) := by
  simp [execBxFmul, State.Still]

@[simp] theorem execBxFdiv_keeps (t : Nat) (h : HartIdx) (w : BitVec 32) (s : State) :
    Keeps s (execBxFdiv t h w s) := by
  simp [execBxFdiv, State.Still]

@[simp] theorem execBxFsqrt_keeps (t : Nat) (h : HartIdx) (w : BitVec 32) (s : State) :
    Keeps s (execBxFsqrt t h w s) := by
  simp [execBxFsqrt, State.Still]

@[simp] theorem execBxFmin_keeps (t : Nat) (h : HartIdx) (w : BitVec 32) (s : State) :
    Keeps s (execBxFmin t h w s) := by
  simp [execBxFmin, State.Still]

@[simp] theorem execBxFmax_keeps (t : Nat) (h : HartIdx) (w : BitVec 32) (s : State) :
    Keeps s (execBxFmax t h w s) := by
  simp [execBxFmax, State.Still]

@[simp] theorem execBxFsgnj_keeps (t : Nat) (h : HartIdx) (w : BitVec 32) (s : State) :
    Keeps s (execBxFsgnj t h w s) := by
  simp [execBxFsgnj, State.Still]

@[simp] theorem execBxFmadd_keeps (t : Nat) (h : HartIdx) (w : BitVec 32) (s : State) :
    Keeps s (execBxFmadd t h w s) := by
  simp [execBxFmadd, State.Still]

@[simp] theorem execBxFmsub_keeps (t : Nat) (h : HartIdx) (w : BitVec 32) (s : State) :
    Keeps s (execBxFmsub t h w s) := by
  simp [execBxFmsub, State.Still]

@[simp] theorem execBxFnmadd_keeps (t : Nat) (h : HartIdx) (w : BitVec 32) (s : State) :
    Keeps s (execBxFnmadd t h w s) := by
  simp [execBxFnmadd, State.Still]

@[simp] theorem execBxFredosum_keeps (t : Nat) (h : HartIdx) (w : BitVec 32) (s : State) :
    Keeps s (execBxFredosum t h w s) := by
  refine State.bvx_keeps _ _ _ _ _ _ _ fun s h w => ?_
  cases hrm : (s.hart h).rm <;> simp [State.Still, hrm]

@[simp] theorem execBxFeq_keeps (t : Nat) (h : HartIdx) (w : BitVec 32) (s : State) : Keeps s (execBxFeq t h w s) := by
  simp [execBxFeq, State.Still]

@[simp] theorem execBxFlt_keeps (t : Nat) (h : HartIdx) (w : BitVec 32) (s : State) : Keeps s (execBxFlt t h w s) := by
  simp [execBxFlt, State.Still]

@[simp] theorem execBxFle_keeps (t : Nat) (h : HartIdx) (w : BitVec 32) (s : State) : Keeps s (execBxFle t h w s) := by
  simp [execBxFle, State.Still]

@[simp] theorem State.intOp_still (s : State) (h w : Nat) (f : Nat → Nat → Nat → Nat) : s.Still (s.intOp h w f) := by
  simp [State.Still, State.intOp]

@[simp] theorem execBxAdd_keeps (t : Nat) (h : HartIdx) (w : BitVec 32) (s : State) : Keeps s (execBxAdd t h w s) := by
  simp [execBxAdd, State.Still]

@[simp] theorem execBxSub_keeps (t : Nat) (h : HartIdx) (w : BitVec 32) (s : State) : Keeps s (execBxSub t h w s) := by
  simp [execBxSub, State.Still]

@[simp] theorem execBxMul_keeps (t : Nat) (h : HartIdx) (w : BitVec 32) (s : State) : Keeps s (execBxMul t h w s) := by
  simp [execBxMul, State.Still]

@[simp] theorem execBxAnd_keeps (t : Nat) (h : HartIdx) (w : BitVec 32) (s : State) : Keeps s (execBxAnd t h w s) := by
  simp [execBxAnd, State.Still]

@[simp] theorem execBxOr_keeps (t : Nat) (h : HartIdx) (w : BitVec 32) (s : State) : Keeps s (execBxOr t h w s) := by
  simp [execBxOr, State.Still]

@[simp] theorem execBxXor_keeps (t : Nat) (h : HartIdx) (w : BitVec 32) (s : State) : Keeps s (execBxXor t h w s) := by
  simp [execBxXor, State.Still]

@[simp] theorem execBxSll_keeps (t : Nat) (h : HartIdx) (w : BitVec 32) (s : State) : Keeps s (execBxSll t h w s) := by
  simp [execBxSll, State.Still]

@[simp] theorem execBxSrl_keeps (t : Nat) (h : HartIdx) (w : BitVec 32) (s : State) : Keeps s (execBxSrl t h w s) := by
  simp [execBxSrl, State.Still]

@[simp] theorem execBxSra_keeps (t : Nat) (h : HartIdx) (w : BitVec 32) (s : State) : Keeps s (execBxSra t h w s) := by
  simp [execBxSra, State.Still]

@[simp] theorem execBxMinu_keeps (t : Nat) (h : HartIdx) (w : BitVec 32) (s : State) :
    Keeps s (execBxMinu t h w s) := by
  simp [execBxMinu, State.Still]

@[simp] theorem execBxMaxu_keeps (t : Nat) (h : HartIdx) (w : BitVec 32) (s : State) :
    Keeps s (execBxMaxu t h w s) := by
  simp [execBxMaxu, State.Still]

@[simp] theorem execBxMin_keeps (t : Nat) (h : HartIdx) (w : BitVec 32) (s : State) : Keeps s (execBxMin t h w s) := by
  simp [execBxMin, State.Still]

@[simp] theorem execBxMax_keeps (t : Nat) (h : HartIdx) (w : BitVec 32) (s : State) : Keeps s (execBxMax t h w s) := by
  simp [execBxMax, State.Still]

@[simp] theorem execBxSeq_keeps (t : Nat) (h : HartIdx) (w : BitVec 32) (s : State) : Keeps s (execBxSeq t h w s) := by
  simp [execBxSeq, State.Still]

@[simp] theorem execBxSltu_keeps (t : Nat) (h : HartIdx) (w : BitVec 32) (s : State) :
    Keeps s (execBxSltu t h w s) := by
  simp [execBxSltu, State.Still]

@[simp] theorem execBxSlt_keeps (t : Nat) (h : HartIdx) (w : BitVec 32) (s : State) : Keeps s (execBxSlt t h w s) := by
  simp [execBxSlt, State.Still]

@[simp] theorem State.loadBytes_still (s : State) (h n a off len rd place : Nat) :
    s.Still (s.loadBytes h n a off len rd place).1 := by
  fun_cases State.loadBytes s h n a off len rd place
  case case2 | case3 => simp [State.Still, fst_of_eq ‹_ = (_, _)›]
  all_goals simp [State.Still]

theorem State.atPart_still (s : State) (h : Nat) (store : Bool) (e : Nat × Nat × Nat) (f : State → Nat → State × Bool)
    (hf : ∀ s a, State.Still s (f s a).1) : s.Still (s.atPart h store e f).1 := by
  fun_cases State.atPart s h store e f
  case case1 => exact ⟨rfl, rfl⟩
  case case2 => exact hf ..

theorem State.overParts_still (s : State) (f : State → Nat × Nat × Nat → State × Bool) (l : List (Nat × Nat × Nat))
    (hf : ∀ s e, State.Still s (f s e).1) : s.Still (s.overParts f l).1 := by
  fun_induction State.overParts s f l
  case case1 => exact ⟨rfl, rfl⟩
  case case2 e ih => exact .trans (by simp [State.Still, fst_of_eq e, hf]) ih
  case case3 e => simp [State.Still, fst_of_eq e, hf]

@[simp] theorem State.loadElem_still (s : State) (h w i : Nat) : s.Still (s.loadElem h w i).1 :=
  State.overParts_still _ _ _ fun _ _ => State.atPart_still _ _ _ _ _ fun _ _ => State.loadBytes_still ..

@[simp] theorem State.storeElem_still (s : State) (h w i : Nat) : s.Still (s.storeElem h w i).1 :=
  State.overParts_still _ _ _ fun _ _ => State.atPart_still _ _ _ _ _ fun _ _ => State.solverStore_still ..

/-- Elements taken one after another leave queue and time when each does. -/
theorem State.elements_still (s : State) (h w : Nat) (store : Bool) (pf : Option PageFault) (f : State → Nat → State
  × Bool)
    (l : List Nat) (hf : ∀ s i, State.Still s (f s i).1) : s.Still (s.elements h w store pf f l).1 := by
  fun_induction State.elements s h w store pf f l
  case case3 e ih => exact .trans (by simp [State.Still, fst_of_eq e, hf]) ih
  case case4 e => simp [State.Still, fst_of_eq e, hf]
  all_goals exact ⟨rfl, rfl⟩

@[simp] theorem State.preciseMem_still (s : State) (h w : Nat) (store : Bool) (pf : Option PageFault) :
    s.Still (s.preciseMem h w store pf) := by
  have hel {l : List Nat} {u r} (e : s.elements h w store pf
      (fun s i => if store then s.storeElem h w i else s.loadElem h w i) l = (u, r)) : s.Still u :=
    .of_eq e (State.elements_still _ _ _ _ _ _ _ fun s i => by split <;> simp [State.Still])
  fun_cases State.preciseMem s h w store pf
  case case3 e => exact (hel e).trans (by simp [State.Still])
  case case4 e _ => exact (hel e).trans (by simp +zetaDelta [State.Still])
  case case5 e => exact (hel e).trans (by simp [State.Still])
  all_goals simp [State.Still]

@[simp] theorem execBxLd_keeps (t : Nat) (h : HartIdx) (w : BitVec 32) (pf : Option PageFault) (s : State) :
    Keeps s (execBxLd t h w pf s) := by
  simp [execBxLd, State.Still]

@[simp] theorem execBxSt_keeps (t : Nat) (h : HartIdx) (w : BitVec 32) (pf : Option PageFault) (s : State) :
    Keeps s (execBxSt t h w pf s) := by
  simp [execBxSt, State.Still]

@[simp] theorem execBxLdff_keeps (t : Nat) (h : HartIdx) (w : BitVec 32) (pf : Option PageFault) (s : State) :
    Keeps s (execBxLdff t h w pf s) := by
  refine State.bvx_keeps _ _ _ _ _ _ _ fun s h w => ?_
  have hel {l : List Nat} {u r} (e : s.elements h w false pf (fun s i => s.loadElem h w i) l = (u, r)) : s.Still u :=
    .of_eq e (State.elements_still _ _ _ _ _ _ _ fun s i => State.loadElem_still ..)
  dsimp only
  split
  · exact State.illegal_still ..
  split
  · exact ⟨rfl, rfl⟩
  split
  next e => exact (hel e).trans (by simp [State.Still])
  next e => exact (hel e).trans (by split <;> simp [State.Still])
  next e => exact (hel e).trans (by simp [State.Still])

@[simp] theorem execBxTperm_keeps (t : Nat) (h : HartIdx) (w : BitVec 32) (s : State) :
    Keeps s (execBxTperm t h w s) := by
  simp [execBxTperm, State.Still]

@[simp] theorem State.maskOp_still (s : State) (h w : Nat) (f : Nat → Nat → Nat) : s.Still (s.maskOp h w f) := by
  simp [State.Still, State.maskOp]

@[simp] theorem execBxMand_keeps (t : Nat) (h : HartIdx) (w : BitVec 32) (s : State) :
    Keeps s (execBxMand t h w s) := by
  simp [execBxMand, State.Still]

@[simp] theorem execBxMor_keeps (t : Nat) (h : HartIdx) (w : BitVec 32) (s : State) : Keeps s (execBxMor t h w s) := by
  simp [execBxMor, State.Still]

@[simp] theorem execBxMxor_keeps (t : Nat) (h : HartIdx) (w : BitVec 32) (s : State) :
    Keeps s (execBxMxor t h w s) := by
  simp [execBxMxor, State.Still]

@[simp] theorem execBxMandn_keeps (t : Nat) (h : HartIdx) (w : BitVec 32) (s : State) :
    Keeps s (execBxMandn t h w s) := by
  simp [execBxMandn, State.Still]

@[simp] theorem execBxMrd_keeps (t : Nat) (h : HartIdx) (w : BitVec 32) (s : State) : Keeps s (execBxMrd t h w s) := by
  simp [execBxMrd, State.Still]

@[simp] theorem execBxMwr_keeps (t : Nat) (h : HartIdx) (w : BitVec 32) (s : State) : Keeps s (execBxMwr t h w s) := by
  simp [execBxMwr, State.Still]

@[simp] theorem execBxExt_keeps (t : Nat) (h : HartIdx) (w : BitVec 32) (s : State) : Keeps s (execBxExt t h w s) := by
  simp [execBxExt, State.Still]

@[simp] theorem execBxBcast_keeps (t : Nat) (h : HartIdx) (w : BitVec 32) (s : State) :
    Keeps s (execBxBcast t h w s) := by
  simp [execBxBcast, State.Still]

@[simp] theorem execBxSetvl_keeps (t : Nat) (h : HartIdx) (w : BitVec 32) (s : State) :
    Keeps s (execBxSetvl t h w s) := by
  simp [execBxSetvl, State.Still]

@[simp] theorem execBxCvtn_keeps (t : Nat) (h : HartIdx) (w : BitVec 32) (s : State) :
    Keeps s (execBxCvtn t h w s) := by
  simp [execBxCvtn, State.Still]

@[simp] theorem execBxCvtw_keeps (t : Nat) (h : HartIdx) (w : BitVec 32) (s : State) :
    Keeps s (execBxCvtw t h w s) := by
  simp [execBxCvtw, State.Still]

@[simp] theorem execBxFcvt_keeps (t : Nat) (h : HartIdx) (w : BitVec 32) (s : State) :
    Keeps s (execBxFcvt t h w s) := by
  refine State.bvx_keeps _ _ _ _ _ _ _ fun s h w => ?_
  dsimp only
  split
  · exact State.illegal_still ..
  · split <;> [skip; split] <;> simp [State.Still]

/-! ### Machine/Coupling.lean -/

@[simp] theorem execBxWrel_keeps (t : Nat) (h : HartIdx) (w : BitVec 32) (s : State) :
    Keeps s (execBxWrel t h w s) := by
  refine State.bvx_keeps _ _ _ _ _ _ _ fun s h w => ?_
  dsimp only
  split
  · simp [State.Still]
  · split <;> simp [State.Still]

@[simp] theorem execBxWstat_keeps (t : Nat) (h : HartIdx) (w : BitVec 32) (s : State) :
    Keeps s (execBxWstat t h w s) := by
  simp [execBxWstat, State.Still]

@[simp] theorem execBxWwait_keeps (t : Nat) (h : HartIdx) (w : BitVec 32) (trapped : WaitTrap) (s : State) :
    Keeps s (execBxWwait t h w trapped s) := by
  refine State.bvx_keeps _ _ _ _ _ _ _ fun s h w => ?_
  cases trapped <;> simp [State.Still]

@[simp] theorem execBxWwaitWake_keeps (t : Nat) (h : HartIdx) (s : State) : Keeps s (execBxWwaitWake t h s) := by
  fun_cases execBxWwaitWake t h s <;> simp +zetaDelta

@[simp] theorem execWindowFlagSet_keeps (t : Nat) (p : PartIdx) (w : Nat) (s : State) :
    Keeps s (execWindowFlagSet t p w s) := by
  simp [execWindowFlagSet]

@[simp] theorem execWindowQuorumWrite_keeps (t : Nat) (q : Option Nat) (p : PartIdx) (sub : Nat) (v : BitVec 16)
    (s : State) :
    Keeps s (execWindowQuorumWrite t q p sub v s) := by
  simp [execWindowQuorumWrite, State.Still]

@[simp] theorem State.clearIrqs_still (s : State) (h may v : Nat) : s.Still (s.clearIrqs h may v) := by
  simp [State.Still, State.clearIrqs]

@[simp] theorem State.writePend_still (s : State) (h : Nat) (v : BitVec 64) : s.Still (s.writePend h v) := by
  simp [State.Still, State.writePend]

@[simp] theorem State.csrWrite_still (s : State) (h c : Nat) (v : BitVec 64) : s.Still (s.csrWrite h c v) := by
  fun_cases State.csrWrite s h c v <;> simp [State.Still]

@[simp] theorem execBxCsrWrite_keeps (t : Nat) (h : HartIdx) (csr : Nat) (v : BitVec 64) (priv : Nat) (s : State) :
    Keeps s (execBxCsrWrite t h csr v priv s) := by
  fun_cases execBxCsrWrite t h csr v priv s <;> simp +zetaDelta

/-! ### Machine/Links.lean -/

@[simp] theorem State.leaveService_still (s : State) (n : Nat) : s.Still (s.leaveService n) := by
  simp [State.Still, State.leaveService]

@[simp] theorem State.portDown_still (s : State) (n : Nat) : s.Still (s.portDown n) := by
  simp [State.Still, State.portDown]

@[simp] theorem State.badCodeword_still (s : State) (n : Nat) : s.Still (s.badCodeword n) := by
  simp [State.Still, State.badCodeword]

@[simp] theorem State.takeFlits_still (s : State) (n : Nat) (vcs : List Nat) (credits : List (Nat × Nat))
    (ack : Option (BitVec 8)) :
    s.Still (s.takeFlits n vcs credits ack) := by
  simp [State.Still, State.takeFlits]

@[simp] theorem execCodewordReceive_keeps (t : Nat) (n : PortIdx) (ok : Bool) (vcs : List Nat)
    (credits : List (Nat × Nat)) (ack : Option (BitVec 8)) (s : State) :
    Keeps s (execCodewordReceive t n ok vcs credits ack s) := by
  simp [execCodewordReceive]

@[simp] theorem execLaneLoss_keeps (t : Nat) (n : PortIdx) (lane : Fin 7) (lock : Bool) (s : State) :
    Keeps s (execLaneLoss t n lane lock s) := by
  fun_cases execLaneLoss t n lane lock s <;> simp +zetaDelta

@[simp] theorem execLaneSpareRemap_keeps (t : Nat) (n : PortIdx) (s : State) : Keeps s (execLaneSpareRemap t n s) := by
  fun_cases execLaneSpareRemap t n s <;> simp +zetaDelta

@[simp] theorem execPortRetrain_keeps (t : Nat) (n : PortIdx) (s : State) : Keeps s (execPortRetrain t n s) := by
  simp [execPortRetrain]

@[simp] theorem execPortTraining_keeps (t : Nat) (n : PortIdx) (failed : BitVec 7) (tier : Nat) (isPackage : Bool)
    (s : State) :
    Keeps s (execPortTraining t n failed tier isPackage s) := by
  fun_cases execPortTraining t n failed tier isPackage s
  case case5 =>
    simp +zetaDelta
    split <;> simp
  all_goals simp +zetaDelta

@[simp] theorem execLinkNak_keeps (t : Nat) (n : PortIdx) (s : State) : Keeps s (execLinkNak t n s) := by
  fun_cases execLinkNak t n s
  case case1 => simp +zetaDelta -implicitDefEqProofs
  case case2 => simp +zetaDelta

@[simp] theorem execFlyoverRemoved_keeps (t : Nat) (n : PortIdx) (present : Bool) (s : State) :
    Keeps s (execFlyoverRemoved t n present s) := by
  simp [execFlyoverRemoved]

/-! ### Machine/Resil.lean -/

@[simp] theorem State.endSession_still (s : State) (id : Nat) : s.Still (s.endSession id) := by
  simp [State.Still, State.endSession]

@[simp] theorem State.endSessionsOf_still (s : State) (d : Nat) : s.Still (s.endSessionsOf d) := by
  simp [State.Still, State.endSessionsOf]

@[simp] theorem State.lossRestart_still (s : State) (p v : Nat) (halts : Bool) : s.Still (s.lossRestart p v halts) := by
  fun_cases State.lossRestart s p v halts <;> simp +zetaDelta [State.Still]

@[simp] theorem State.cutQuorums_still (s : State) (p n : Nat) : s.Still (s.cutQuorums p n) := by
  simp [State.Still, State.cutQuorums]

@[simp] theorem State.poisonDirty_still (s : State) (dirty : List Nat) : s.Still (s.poisonDirty dirty) := by
  simp [State.Still, State.poisonDirty]

@[simp] theorem State.solverLost_still (s : State) (n : Nat) (dirty : List Nat) : s.Still (s.solverLost n dirty) := by
  simp [State.Still, State.solverLost]

@[simp] theorem State.portGone_still (s : State) (n : Nat) : s.Still (s.portGone n) := by
  simp [State.Still, State.portGone]

@[simp] theorem State.creelLost_still (s : State) : s.Still s.creelLost := by
  simp [State.Still, State.creelLost]

@[simp] theorem State.cadenceDead_still (s : State) : s.Still s.cadenceDead := by
  simp [State.Still, State.cadenceDead]

@[simp] theorem State.fabricLost_still (s : State) (f : Nat) : s.Still (s.fabricLost f) := by
  simp [State.Still, State.fabricLost]

@[simp] theorem State.holdInterface_still (s : State) (k d : Nat) : s.Still (s.holdInterface k d) := by
  simp [State.Still, State.holdInterface]

@[simp] theorem State.lanesGone_still (s : State) (h : Nat) : s.Still (s.lanesGone h) := by
  simp [State.Still, State.lanesGone]

@[simp] theorem State.hostLost_still (s : State) (h : Nat) : s.Still (s.hostLost h) := by
  simp [State.Still, State.hostLost]

@[simp] theorem State.dieLost_still (s : State) (d : Nat) (dirty : List Nat) : s.Still (s.dieLost d dirty) := by
  simp [State.Still, State.dieLost]

@[simp] theorem execDieHeartbeatLoss_keeps (t : Nat) (d : DieIdx) (cause : LossCause) (dirty : List (BitVec 48))
    (s : State) :
    Keeps s (execDieHeartbeatLoss t d cause dirty s) := by
  fun_cases execDieHeartbeatLoss t d cause dirty s <;> simp +zetaDelta

@[simp] theorem execDoffShardsAck_keeps (t : Nat) (p : PartIdx) (failed : Bool) (s : State) :
    Keeps s (execDoffShardsAck t p failed s) := by
  fun_cases execDoffShardsAck t p failed s <;> simp +zetaDelta

@[simp] theorem execDoffManifestAck_keeps (t : Nat) (p : PartIdx) (failed : Bool) (s : State) :
    Keeps s (execDoffManifestAck t p failed s) := by
  fun_cases execDoffManifestAck t p failed s <;> simp +zetaDelta

/-! ### Machine/Sharing.lean -/

@[simp] theorem State.setPoint_still (s : State) (pl : ArbPlace) (x : ArbPoint) : s.Still (s.setPoint pl x) := by
  simp [State.Still, State.setPoint]

@[simp] theorem State.joinArb_still (s : State) (pl : ArbPlace) (arr : List Arrival) : s.Still (s.joinArb pl arr) := by
  simp [State.Still, State.joinArb]

@[simp] theorem State.admitReqs_still (s : State) (pl : ArbPlace) (fourth : Bool) :
    s.Still (s.admitReqs pl fourth) := by
  simp [State.Still, State.admitReqs]

@[simp] theorem State.countServed_still (s : State) (pl : ArbPlace) (units : Nat) (r : ArbReq) :
    s.Still (s.countServed pl units r) := by
  cases pl <;> simp [State.Still, State.countServed]

@[simp] theorem State.carryServed_still (s : State) (pl : ArbPlace) (r : ArbReq) : s.Still (s.carryServed pl r) := by
  fun_cases State.carryServed s pl r <;> simp [State.Still]

@[simp] theorem State.promote_still (s : State) (pl : ArbPlace) (c1 : Bool) : s.Still (s.promote pl c1) := by
  simp [State.Still, State.promote]

@[simp] theorem State.missedBound_still (s : State) (pl : ArbPlace) (c1 : Bool) : s.Still (s.missedBound pl c1) := by
  simp [State.Still, State.missedBound]

@[simp] theorem State.round_still (s : State) (pl : ArbPlace) (c1 : Bool) : s.Still (s.round pl c1) := by
  fun_cases State.round s pl c1 <;> simp +zetaDelta [State.Still]

@[simp] theorem execArbitrationRound_keeps (t : Nat) (pl : ArbPlace) (c1 : Bool) (arr : List Arrival) (s : State) :
    Keeps s (execArbitrationRound t pl c1 arr s) := by
  simp [execArbitrationRound]

@[simp] theorem execRequestPromote_keeps (t : Nat) (pl : ArbPlace) (c1 : Bool) (s : State) :
    Keeps s (execRequestPromote t pl c1 s) := by
  simp [execRequestPromote]

@[simp] theorem execArbitrationBound_keeps (t : Nat) (pl : ArbPlace) (c1 : Bool) (s : State) :
    Keeps s (execArbitrationBound t pl c1 s) := by
  simp [execArbitrationBound]

@[simp] theorem State.setGen_still (s : State) (d ch : Nat) (x : TrafficGen) : s.Still (s.setGen d ch x) := by
  simp [State.Still, State.setGen]

@[simp] theorem State.genRequest_still (s : State) (d : DieIdx) (ch : Fin 64) : s.Still (s.genRequest d ch) := by
  simp [State.Still, State.genRequest]

@[simp] theorem State.serveArb_still (s : State) (d : DieIdx) (ch : Fin 64) (c1 : Bool) :
    s.Still (s.serveArb d ch c1).1 := by
  fun_cases State.serveArb s d ch c1 <;> simp +zetaDelta [State.Still]

@[simp] theorem State.serveDynamic_still (s : State) (d : DieIdx) (ch : Fin 64) : s.Still (s.serveDynamic d ch).1 := by
  simp [State.Still, State.serveDynamic]

@[simp] theorem execChannelCommandSlot_keeps (t : Nat) (d : DieIdx) (ch : Fin 64) (arr : List Arrival)
    (upkeep : Bool) (s : State) :
    Keeps s (execChannelCommandSlot t d ch arr upkeep s) := by
  unfold execChannelCommandSlot
  dsimp only
  split
  · simp
  · refine keeps_next.2 ?_
    split
    · split <;> simp
    · split <;> simp

@[simp] theorem State.endWindow_still (s : State) (d ch : Nat) : s.Still (s.endWindow d ch) := by
  simp [State.Still, State.endWindow]

@[simp] theorem State.startGens_still (s : State) (d : Nat) : s.Still (s.startGens d) := by
  simp [State.Still, State.startGens]

@[simp] theorem State.applyEntries_still (s : State) (d : Nat) : s.Still (s.applyEntries d) := by
  fun_cases State.applyEntries s d
  simp -implicitDefEqProofs [State.Still]

@[simp] theorem execChannelSlotWindow_keeps (t : Nat) (d : DieIdx) (s : State) :
    Keeps s (execChannelSlotWindow t d s) := by
  simp [execChannelSlotWindow]

@[simp] theorem execLinkFrame_keeps (t : Nat) (pl : ArbPlace) (c0 : List (Nat × Nat)) (s : State) :
    Keeps s (execLinkFrame t pl c0 s) := by
  cases pl <;> simp [execLinkFrame]

/-! ### Machine/MemRows.lean -/

@[simp] theorem State.arise_still (s : State) (d : Nat) (x : Upset) : s.Still (s.arise d x) := by
  fun_cases State.arise s d x <;> simp [State.Still]

@[simp] theorem State.scrubLine_still (s : State) (d line : Nat) : s.Still (s.scrubLine d line) := by
  simp [State.Still, State.scrubLine]

@[simp] theorem State.scrubWord_still (s : State) (d k e : Nat) : s.Still (s.scrubWord d k e) := by
  unfold State.scrubWord
  split
  · simp [State.Still]
  · split
    · dsimp only
      split <;> simp [State.Still]
    · simp [State.Still]

@[simp] theorem execScrubPass_keeps (t : Nat) (d : DieIdx) (arisen : List Upset) (lo n so sn : Nat) (s : State) :
    Keeps s (execScrubPass t d arisen lo n so sn s) := by
  simp [execScrubPass]

@[simp] theorem State.spareBond_still (s : State) (d ch bond : Nat) : s.Still (s.spareBond d ch bond) := by
  simp [State.Still, State.spareBond]

@[simp] theorem execBondLaneReplace_keeps (t : Nat) (d : DieIdx) (ch : Fin 64) (bond : Nat) (s : State) :
    Keeps s (execBondLaneReplace t d ch bond s) := by
  simp [execBondLaneReplace]

@[simp] theorem State.refreshRate_still (s : State) (d temp : Nat) : s.Still (s.refreshRate d temp) := by
  simp [State.Still, State.refreshRate]

@[simp] theorem State.hotLimit_still (s : State) (d temp : Nat) : s.Still (s.hotLimit d temp) := by
  simp [State.Still, State.hotLimit]

@[simp] theorem execDramTempSample_keeps (t : Nat) (d : DieIdx) (temp : Nat) (s : State) :
    Keeps s (execDramTempSample t d temp s) := by
  simp [execDramTempSample]

@[simp] theorem State.repairColumns_still (s : State) (d : Nat) : s.Still (s.repairColumns d) := by
  simp [State.Still, State.repairColumns]

@[simp] theorem execSramColumnRepair_keeps (t : Nat) (d : DieIdx) (s : State) :
    Keeps s (execSramColumnRepair t d s) := by
  simp [execSramColumnRepair]

@[simp] theorem State.genWrites_still (s : State) (d ch c n i r : Nat) : s.Still (s.genWrites d ch c n i r) := by
  fun_induction State.genWrites s d ch c n i r
  case case1 => exact ⟨rfl, rfl⟩
  case case2 ih | case3 ih => exact .trans (State.store_still ..) ih

@[simp] theorem State.genStore_still (s : State) (d ch moved : Nat) : s.Still (s.genStore d ch moved) := by
  simp [State.Still, State.genStore]

@[simp] theorem State.genStatus_still (s : State) (d ch state moved dies : Nat) (first : Option GenMiss) (bad : Nat) :
    s.Still (s.genStatus d ch state moved dies first bad) := by
  simp [State.Still, State.genStatus]

@[simp] theorem execTrafficGenStart_keeps (t : Nat) (q : Option Nat) (v : BitVec 32) (s : State) :
    Keeps s (execTrafficGenStart t q v s) := by
  simp [execTrafficGenStart, State.Still]

@[simp] theorem execTrafficGenStop_keeps (t : Nat) (q : Option Nat) (v : BitVec 32) (moved : Nat)
    (miss : List (Fin 64 × List GenMiss)) (s : State) :
    Keeps s (execTrafficGenStop t q v moved miss s) := by
  simp [execTrafficGenStop, State.Still]

@[simp] theorem execTrafficGenDone_keeps (t : Nat) (d : DieIdx) (ch : Fin 64) (miss : List GenMiss) (s : State) :
    Keeps s (execTrafficGenDone t d ch miss s) := by
  simp [execTrafficGenDone]

/-! ### Machine/Restore.lean -/

@[simp] theorem State.fillMap_still (s : State) (l : List RShard) (m : RMap) : s.Still (s.fillMap l m) := by
  simp [State.Still, State.fillMap]

@[simp] theorem State.fillSlot_still (s : State) (n : Nat) (data : List Byte) : s.Still (s.fillSlot n data) := by
  fun_cases State.fillSlot s n data <;> simp +zetaDelta [State.Still]

@[simp] theorem execRestoreRequest_keeps (t : Nat) (q : Option Nat) (v : BitVec 64) (s : State) :
    Keeps s (execRestoreRequest t q v s) := by
  simp [execRestoreRequest, State.Still]

@[simp] theorem State.writeReport_still (s : State) (addr : Nat) (l : List (Nat × Nat × Nat)) :
    s.Still (s.writeReport addr l) := by
  simp [State.Still, State.writeReport]

@[simp] theorem State.endRestore_still (s : State) (status : Nat) : s.Still (s.endRestore status) := by
  simp [State.Still, State.endRestore]

@[simp] theorem execRestoreFinish_keeps (t : Nat) (areas : List (Nat × List Byte)) (s : State) :
    Keeps s (execRestoreFinish t areas s) := by
  fun_cases execRestoreFinish t areas s
  case case6 v0 _ _ _ _ _ _ _ _ _ _ v1 v2 v3 _ v4 =>
    have h0 : (s.arrive t).Still v0 := by simp +zetaDelta [State.Still]
    have h1 : v0.Still v1 := by simp +zetaDelta [State.Still]
    have h2 : v1.Still v2 := by
      refine foldl_still ?_ _ ⟨rfl, rfl⟩
      rintro s e _ rfl
      split <;> simp [State.Still]
    have h3 : v2.Still v3 := State.writeReport_still ..
    have h4 : v3.Still v4 := by
      refine foldl_still ?_ _ ⟨rfl, rfl⟩
      rintro s p _ rfl
      simp [State.Still]
    exact keeps_of_still ((h0.trans (h1.trans (h2.trans (h3.trans h4)))).trans (by simp [State.Still]))
  all_goals simp +zetaDelta

/-! ### Machine/Setup.lean -/

@[simp] theorem State.critical_still (s : State) (agree : Bool) : s.Still (s.critical agree).1 := by
  simp [State.Still, State.critical]

@[simp] theorem State.aimRail_still (s : State) (r mv : Nat) : s.Still (s.aimRail r mv) := by
  simp [State.Still, State.aimRail]

@[simp] theorem State.setRole_still (s : State) (d v : Nat) : s.Still (s.setRole d v) := by
  simp [State.Still, State.setRole]

@[simp] theorem execRoleMapWrite_keeps (t : Nat) (q : Option Nat) (die : DieIdx) (v : BitVec 16) (s : State) :
    Keeps s (execRoleMapWrite t q die v s) := by
  simp [execRoleMapWrite, State.Still]

@[simp] theorem execShareWrite_keeps (t : Nat) (q : Option Nat) (part : Fin 5) (sub : Nat) (v : BitVec 16) (s : State) :
    Keeps s (execShareWrite t q part sub v s) := by
  simp [execShareWrite, State.Still]

@[simp] theorem execRegionEntryWrite_keeps (t : Nat) (q : Option Nat) (die : DieIdx) (e : BitVec 8) (v : BitVec 64)
    (s : State) :
    Keeps s (execRegionEntryWrite t q die e v s) := by
  simp [execRegionEntryWrite, State.Still]

@[simp] theorem State.dropEntries_still (s : State) : s.Still s.dropEntries := by
  simp [State.Still, State.dropEntries]

@[simp] theorem State.rejectImage_still (s : State) (i : Nat × Bool × Nat × Nat) : s.Still (s.rejectImage i) := by
  simp [State.Still, State.rejectImage]

@[simp] theorem State.bindSpares_still (s : State) : s.Still s.bindSpares := by
  simp [State.Still, State.bindSpares]

@[simp] theorem State.packageEntry_still (s : State) (d base count p : Nat) (world : Bool) :
    s.Still (s.packageEntry d base count p world).1 := by
  fun_cases State.packageEntry s d base count p world <;> simp [State.Still]

@[simp] theorem State.packageEntries_still (s : State) : s.Still s.packageEntries := by
  refine foldl_still ?_ _ (foldl_still ?_ _ ⟨rfl, rfl⟩)
  · rintro s i _ rfl
    split
    · exact ⟨rfl, rfl⟩
    · dsimp only
      split <;> next h => simp [State.Still, fst_of_eq h]
  · rintro s d _ rfl
    exact State.packageEntry_still ..

@[simp] theorem State.setWorlds_still (s : State) : s.Still s.setWorlds := by
  simp -implicitDefEqProofs [State.Still, State.setWorlds]

@[simp] theorem State.setCreelBases_still (s : State) : s.Still s.setCreelBases := by
  fun_cases State.setCreelBases s
  simp -implicitDefEqProofs [State.Still]

@[simp] theorem State.openReel_still (s : State) (p : Nat) : s.Still (s.openReel p) := by
  simp [State.Still, State.openReel]

@[simp] theorem State.measureCommit_still (s : State) : s.Still s.measureCommit := by
  simp [State.Still, State.measureCommit]

@[simp] theorem State.commitPartitions_still (s : State) : s.Still s.commitPartitions := by
  simp -implicitDefEqProofs [State.Still, State.commitPartitions]

@[simp] theorem execPartitionCommit_keeps (t : Nat) (q : Option Nat) (v : BitVec 8) (agree : Bool) (s : State) :
    Keeps s (execPartitionCommit t q v agree s) := by
  have hcrit {u : State} {b : Bool} (e : (s.arrive t).critical agree = (u, b)) : s.Onward u :=
    (State.arrive_onward s t).still (.of_eq e (State.critical_still ..))
  fun_cases execPartitionCommit t q v agree s
  case case4 e => exact keeps_next.2 ((hcrit e).still (.trans (State.commitPartitions_still _) (State.answer_still ..)))
  case case5 e => exact keeps_next.2 ((hcrit e).still (State.answer_still ..))
  all_goals simp +zetaDelta

@[simp] theorem State.setKey_still (s : State) (p v : Nat) (entropy : Bool) : s.Still (s.setKey p v entropy) := by
  simp [State.Still, State.setKey]

@[simp] theorem execRngKeyWrite_keeps (t : Nat) (q : Option Nat) (p : PartIdx) (v : BitVec 128) (s : State) :
    Keeps s (execRngKeyWrite t q p v s) := by
  simp [execRngKeyWrite, State.Still]

@[simp] theorem execRngKeyEntropy_keeps (t : Nat) (q : Option Nat) (p : PartIdx) (v : BitVec 8) (s : State) :
    Keeps s (execRngKeyEntropy t q p v s) := by
  fun_cases execRngKeyEntropy t q p v s
  case case5 e => simp +zetaDelta [snd_of_eq e]
  all_goals simp +zetaDelta

@[simp] theorem execReelReadWrite_keeps (t : Nat) (q : Option Nat) (p : PartIdx) (v : BitVec 64) (s : State) :
    Keeps s (execReelReadWrite t q p v s) := by
  simp [execReelReadWrite, State.Still]

@[simp] theorem State.replayInput_still (s : State) (p : Nat) (k : Packet) : s.Still (s.replayInput p k) := by
  simp [State.Still, State.replayInput]

@[simp] theorem execReplayFabricInput_keeps (t : Nat) (p : PartIdx) (s : State) :
    Keeps s (execReplayFabricInput t p s) := by
  fun_cases execReplayFabricInput t p s
  case case4 =>
    simp +zetaDelta
    split <;> simp
  all_goals simp +zetaDelta

/-! ### Machine/Warm.lean -/

@[simp] theorem State.zeroSram_still (s : State) : s.Still s.zeroSram := by
  simp [State.Still, State.zeroSram]

@[simp] theorem State.dropDrafts_still (s : State) : s.Still s.dropDrafts := by
  refine forN_still ?_ _ ⟨rfl, rfl⟩
  rintro s p _ rfl
  split <;> simp [State.Still]

@[simp] theorem State.endColls_still (s : State) : s.Still s.endColls := by
  simp [State.Still, State.endColls]

@[simp] theorem State.endTransfers_still (s : State) : s.Still s.endTransfers := by
  simp [State.Still, State.endTransfers]

@[simp] theorem State.beginWarm_still (s : State) (cause : Nat) : s.Still (s.beginWarm cause) := by
  simp [State.Still, State.beginWarm]

/-! ### Machine/Security.lean -/

@[simp] theorem State.identitySign_still (s : State) (ctx m : List Byte) : s.Still (s.identitySign ctx m).2 := by
  fun_cases State.identitySign s ctx m <;> simp [State.Still]

@[simp] theorem State.renewLc_still (s : State) : s.Still s.renewLc := by
  simp [State.Still, State.renewLc]

@[simp] theorem State.transitionWrites_still (s : State) (dest : LifeCycle) (owner pk : List Byte) (cosign : Bool) :
    s.Still (s.transitionWrites dest owner pk cosign) := by
  simp [State.Still, State.transitionWrites]

@[simp] theorem State.zeroMemory_still (s : State) : s.Still s.zeroMemory := by
  simp [State.Still, State.zeroMemory]

@[simp] theorem State.finishTransition_still (s : State) (dest : LifeCycle) : s.Still (s.finishTransition dest) := by
  simp [State.Still, State.finishTransition]

@[simp] theorem State.carryOut_still (s : State) (q : Option Nat) (dest : LifeCycle) (r : List Byte) :
    s.Still (s.carryOut q dest r) := by
  fun_cases State.carryOut s q dest r
  case case1 u _ _ _ | case2 u _ _ _ =>
    have hu : s.Still u := by
      refine forN_still ?_ _ ⟨rfl, rfl⟩
      rintro s p _ rfl
      split <;> simp [State.Still]
    clear_value u
    exact hu.trans (by simp +zetaDelta [State.Still])

@[simp] theorem execLcRequest_keeps (t : Nat) (q : Option Nat) (record : List Byte) (agree : Bool) (s : State) :
    Keeps s (execLcRequest t q record agree s) := by
  fun_cases execLcRequest t q record agree s
  case case1 | case2 | case3 | case4 => simp +zetaDelta
  case case5 | case6 => simp +zetaDelta [fst_of_eq ‹_ = (_, _)›]

@[simp] theorem execLcEraseDone_keeps (t : Nat) (mismatch : Bool) (s : State) :
    Keeps s (execLcEraseDone t mismatch s) := by
  fun_cases execLcEraseDone t mismatch s <;> simp +zetaDelta

@[simp] theorem execTestPortInstruction_keeps (t : Nat) (op : TestOp) (s : State) :
    Keeps s (execTestPortInstruction t op s) := by
  fun_cases execTestPortInstruction t op s <;> simp +zetaDelta

@[simp] theorem State.openDebug_still (s : State) (g : List Byte) : s.Still (s.openDebug g) := by
  simp [State.Still, State.openDebug]

@[simp] theorem execDebugGrant_keeps (t : Nat) (q : Option Nat) (grant : List Byte) (agree : Bool) (s : State) :
    Keeps s (execDebugGrant t q grant agree s) := by
  fun_cases execDebugGrant t q grant agree s
  case case1 | case2 | case3 | case4 => simp +zetaDelta
  case case5 | case6 => simp +zetaDelta [fst_of_eq ‹_ = (_, _)›]

@[simp] theorem execSvnCommit_keeps (t : Nat) (q : Option Nat) (v : BitVec 32) (s : State) :
    Keeps s (execSvnCommit t q v s) := by
  simp [execSvnCommit, State.Still]

@[simp] theorem State.setSession_still (s : State) (id : Nat) (x : Session) : s.Still (s.setSession id x) := by
  simp [State.Still, State.setSession]

@[simp] theorem execAttestNonceWrite_keeps (t : Nat) (q : Option Nat) (nonce : List Byte) (s : State) :
    Keeps s (execAttestNonceWrite t q nonce s) := by
  unfold execAttestNonceWrite
  dsimp only
  cases (s.arrive t).refusal q 0x9030 1 true with
  | some st => simp
  | none => cases q with
    | none => simp
    | some id => cases (s.arrive t).sessionOf (some id) <;> simp

@[simp] theorem State.attestRead_still (s : State) (q : Option Nat) (agree : Bool) :
    s.Still (s.attestRead q agree) := by
  fun_cases State.attestRead s q agree
  case case3 h _ _ _ h' => simp +zetaDelta [State.Still, snd_of_eq h', fst_of_eq h]
  case case4 h => simp [State.Still, fst_of_eq h]
  all_goals simp [State.Still]

@[simp] theorem execAttestReportRead_keeps (t : Nat) (q : Option Nat) (agree : Bool) (s : State) :
    Keeps s (execAttestReportRead t q agree s) := by
  simp [execAttestReportRead]

/-! ### Machine/Od.lean -/

@[simp] theorem State.readObject_still (s : State) (q : Option Nat) (idx sub : Nat) (whole agree : Bool) :
    s.Still (s.readObject q idx sub whole agree) := by
  simp [State.Still, State.readObject]

@[simp] theorem execOdRead_keeps (t : Nat) (q : Option Nat) (idx : BitVec 16) (sub : BitVec 8) (whole : Bool)
    (s : State) :
    Keeps s (execOdRead t q idx sub whole s) := by
  simp [execOdRead]

@[simp] theorem State.describeObject_still (s : State) (q : Option Nat) (idx sub : Nat) (whole : Bool) :
    s.Still (s.describeObject q idx sub whole) := by
  fun_cases State.describeObject s q idx sub whole <;> simp +zetaDelta [State.Still]

@[simp] theorem execOdDescribe_keeps (t : Nat) (q : Option Nat) (idx : BitVec 16) (sub : BitVec 8) (whole : Bool)
    (s : State) :
    Keeps s (execOdDescribe t q idx sub whole s) := by
  simp [execOdDescribe]

/-! ### Machine/Power.lean -/

@[simp] theorem State.setPow_still (s : State) (x : Power) : s.Still (s.setPow x) := by
  simp [State.Still, State.setPow]

@[simp] theorem State.askReplan_still (s : State) : s.Still s.askReplan := by
  simp [State.Still, State.askReplan]

@[simp] theorem State.pauseAll_still (s : State) : s.Still s.pauseAll := by
  simp [State.Still, State.pauseAll]

@[simp] theorem State.recordPower_still (s : State) (watts : Nat) : s.Still (s.recordPower watts) := by
  simp [State.Still, State.recordPower]

@[simp] theorem State.holdPower_still (s : State) : s.Still s.holdPower := by
  simp [State.Still, State.holdPower]

@[simp] theorem execPowerSample_keeps (t watts : Nat) (currents : List (Fin 40 × Nat)) (s : State) :
    Keeps s (execPowerSample t watts currents s) := by
  fun_cases execPowerSample t watts currents s
  case case1 => simp +zetaDelta
  case case2 => simp +zetaDelta -implicitDefEqProofs

@[simp] theorem execPowerLimitEscalate_keeps (t : Nat) (s : State) : Keeps s (execPowerLimitEscalate t s) := by
  fun_cases execPowerLimitEscalate t s <;> simp +zetaDelta

@[simp] theorem State.setDieHealth_still (s : State) (d : Nat) (x : DieHealth) : s.Still (s.setDieHealth d x) := by
  simp [State.Still, State.setDieHealth]

@[simp] theorem State.thermalWarn_still (s : State) (d : Nat) (temp : ℤ) : s.Still (s.thermalWarn d temp) := by
  simp [State.Still, State.thermalWarn]

@[simp] theorem State.thermalThrottle_still (s : State) (d : Nat) (temp : ℤ) : s.Still (s.thermalThrottle d temp) := by
  simp [State.Still, State.thermalThrottle]

@[simp] theorem State.junctionLimit_still (s : State) (d : Nat) (dirty : List Nat) :
    s.Still (s.junctionLimit d dirty) := by
  simp [State.Still, State.junctionLimit]

@[simp] theorem execThermalSample_keeps (t : Nat) (d : DieIdx) (temp : ℤ) (dirty : List (BitVec 48)) (s : State) :
    Keeps s (execThermalSample t d temp dirty s) := by
  simp [execThermalSample]

@[simp] theorem execDroopAlert_keeps (t : Nat) (k : Fin 8) (s : State) : Keeps s (execDroopAlert t k s) := by
  simp [execDroopAlert]

@[simp] theorem execDroopRelease_keeps (t : Nat) (k : Fin 8) (released : Nat) (s : State) :
    Keeps s (execDroopRelease t k released s) := by
  simp [execDroopRelease]

@[simp] theorem execReplanNow_keeps (t : Nat) (q : Option Nat) (v : BitVec 8) (s : State) :
    Keeps s (execReplanNow t q v s) := by
  fun_cases execReplanNow t q v s <;> simp +zetaDelta

@[simp] theorem State.planRecord_still (s : State) (m : Margin) (vmin setpoint : Nat) (drift : ℤ) (left : Nat) :
    s.Still (s.planRecord m vmin setpoint drift left) := by
  simp [State.Still, State.planRecord]

@[simp] theorem State.exhaust_still (s : State) (d : Nat) : s.Still (s.exhaust d) := by
  simp [State.Still, State.exhaust]

@[simp] theorem State.replanDie_still (s : State) (m : Margin) : s.Still (s.replanDie m) := by
  simp [State.Still, State.replanDie]

@[simp] theorem execMarginReplan_keeps (t : Nat) (ms : List Margin) (s : State) :
    Keeps s (execMarginReplan t ms s) := by
  simp [execMarginReplan]

@[simp] theorem execAvsSetpointStep_keeps (t : Nat) (r : Fin 40) (s : State) : Keeps s (execAvsSetpointStep t r s) := by
  simp [execAvsSetpointStep]

@[simp] theorem State.accrueDie_still (s : State) (d : Nat) : s.Still (s.accrueDie d) := by
  simp [State.Still, State.accrueDie]

@[simp] theorem execAgeingAccrue_keeps (t : Nat) (s : State) : Keeps s (execAgeingAccrue t s) := by
  simp [execAgeingAccrue]

@[simp] theorem State.applyClock_still (s : State) : s.Still s.applyClock := by
  fun_cases State.applyClock s
  case case1 => exact ⟨rfl, rfl⟩
  case case2 u _ =>
    have hu : s.Still u := by
      refine forN_still ?_ _ ⟨rfl, rfl⟩
      rintro s p _ rfl
      split <;> simp [State.Still]
    clear_value u
    exact hu.trans (by simp +zetaDelta [State.Still])

@[simp] theorem execClockAccept_keeps (t : Nat) (q : Option Nat) (v : BitVec 16) (s : State) :
    Keeps s (execClockAccept t q v s) := by
  simp [execClockAccept, State.Still]

@[simp] theorem execClockChangeApply_keeps (t : Nat) (s : State) : Keeps s (execClockChangeApply t s) := by
  simp [execClockChangeApply]

/-! ### Machine/Boot.lean -/

@[simp] theorem State.setBoot_still (s : State) (b : Boot) : s.Still (s.setBoot b) := by
  simp [State.Still, State.setBoot]

@[simp] theorem State.driveFault_still (s : State) : s.Still s.driveFault := by
  simp [State.Still, State.driveFault]

@[simp] theorem State.nextStage_still (s : State) (k : Nat) : s.Still (s.nextStage k) := by
  simp [State.Still, State.nextStage]

@[simp] theorem State.cold_still (s : State) (cause : Nat) : s.Still (s.cold cause) := by
  simp [State.Still, State.cold]

@[simp] theorem execResetRequestCold_keeps (t : Nat) (q : Option Nat) (s : State) :
    Keeps s (execResetRequestCold t q s) := by
  simp [execResetRequestCold, State.Still]

@[simp] theorem execColdResetDelayExpiry_keeps (t : Nat) (s : State) : Keeps s (execColdResetDelayExpiry t s) := by
  fun_cases execColdResetDelayExpiry t s <;> simp +zetaDelta

@[simp] theorem State.hold0_still (s : State) (cause : Nat) : s.Still (s.hold0 cause) := by
  simp [State.Still, State.hold0]

@[simp] theorem execRailOutOfRange_keeps (t : Nat) (s : State) : Keeps s (execRailOutOfRange t s) := by
  simp [execRailOutOfRange]

@[simp] theorem execPkgResetAssert_keeps (t ns : Nat) (s : State) : Keeps s (execPkgResetAssert t ns s) := by
  simp [execPkgResetAssert]

@[simp] theorem execPkgResetRelease_keeps (t : Nat) (straps : BitVec 4) (s : State) :
    Keeps s (execPkgResetRelease t straps s) := by
  simp [execPkgResetRelease]

@[simp] theorem execPllLock_keeps (t : Nat) (ok : Bool) (s : State) : Keeps s (execPllLock t ok s) := by
  simp [execPllLock]

@[simp] theorem State.runImage_still (s : State) (part : Nat) (img : List Byte) (cs : List ImageComp) :
    s.Still (s.runImage part img cs) := by
  simp [State.Still, State.runImage]

@[simp] theorem State.tryImages_still (s : State) (l : List (Nat × List Byte × Bool)) : s.Still (s.tryImages l) := by
  fun_induction State.tryImages s l
  case case1 => simp [State.Still]
  case case2 ih => exact .trans (by simp [State.Still]) ih
  case case3 h => simp [State.Still, fst_of_eq h]
  case case4 h ih => exact .trans (by simp [State.Still, fst_of_eq h]) ih

@[simp] theorem execSealBoot_keeps (t : Nat) (a b : List Byte) (agreeA agreeB failA failB : Bool) (s : State) :
    Keeps s (execSealBoot t a b agreeA agreeB failA failB s) := by
  simp [execSealBoot]

@[simp] theorem State.settleRails_still (s : State) : s.Still s.settleRails := by
  simp [State.Still, State.settleRails]

@[simp] theorem State.trainStacks_still (s : State) : s.Still s.trainStacks := by
  simp [State.Still, State.trainStacks]

@[simp] theorem execStewardStart_keeps (t : Nat) (s : State) : Keeps s (execStewardStart t s) := by
  simp [execStewardStart]

@[simp] theorem execStewardStartTimeout_keeps (t : Nat) (s : State) : Keeps s (execStewardStartTimeout t s) := by
  simp [execStewardStartTimeout]

@[simp] theorem execDramTraining_keeps (t : Nat) (bonds : List (DieIdx × Fin 64 × Fin 576)) (offline : List DieIdx)
    (s : State) :
    Keeps s (execDramTraining t bonds offline s) := by
  simp [execDramTraining]

@[simp] theorem State.retireDie_still (s : State) (d : Nat) : s.Still (s.retireDie d) := by
  fun_cases State.retireDie s d <;> simp [State.Still]

@[simp] theorem State.testFailed_still (s : State) (d : Nat) : s.Still (s.testFailed d) := by
  simp [State.Still, State.testFailed]

@[simp] theorem State.loadStage6_still (s : State) (columns : List (DieIdx × Nat × Nat)) :
    s.Still (s.loadStage6 columns) := by
  simp [State.Still, State.loadStage6]

@[simp] theorem execDieSelfTest_keeps (t : Nat) (columns : List (DieIdx × Nat × Nat)) (failed : List DieIdx)
    (s : State) :
    Keeps s (execDieSelfTest t columns failed s) := by
  simp [execDieSelfTest]

@[simp] theorem execStartupUnlocked_keeps (t : Nat) (s : State) : Keeps s (execStartupUnlocked t s) := by
  simp [execStartupUnlocked]

@[simp] theorem execCxlPerstRelease_keeps (t : Nat) (s : State) : Keeps s (execCxlPerstRelease t s) := by
  simp [execCxlPerstRelease]

@[simp] theorem State.endStage8_still (s : State) : s.Still s.endStage8 := by
  simp [State.Still, State.endStage8]

@[simp] theorem State.linkUp_still (s : State) (width rate : Nat) : s.Still (s.linkUp width rate) := by
  simp [State.Still, State.linkUp]

@[simp] theorem execCxlTraining_keeps (t : Nat) (ok : Bool) (width rate : Nat) (s : State) :
    Keeps s (execCxlTraining t ok width rate s) := by
  simp [execCxlTraining]

@[simp] theorem execResetRequestWarm_keeps (t : Nat) (q : Option Nat) (s : State) :
    Keeps s (execResetRequestWarm t q s) := by
  simp [execResetRequestWarm, State.Still]

@[simp] theorem execWarmResetInput_keeps (t ns : Nat) (s : State) : Keeps s (execWarmResetInput t ns s) := by
  simp [execWarmResetInput]

@[simp] theorem execWarmResetComplete_keeps (t : Nat) (columns : List (DieIdx × Nat × Nat)) (failed : List DieIdx)
    (s : State) :
    Keeps s (execWarmResetComplete t columns failed s) := by
  simp [execWarmResetComplete]

@[simp] theorem execThermtrip_keeps (t : Nat) (s : State) : Keeps s (execThermtrip t s) := by
  simp [execThermtrip]

@[simp] theorem State.sysLost_still (s : State) : s.Still s.sysLost := by
  fun_cases State.sysLost s
  case case1 u _ =>
    have hu : s.Still u := by
      refine forN_still ?_ _ ⟨rfl, rfl⟩
      rintro s p _ rfl
      split <;> simp [State.Still]
    clear_value u
    exact hu.trans (by simp +zetaDelta [State.Still])

@[simp] theorem execRefclkLost_keeps (t : Nat) (c : RefClock) (s : State) : Keeps s (execRefclkLost t c s) := by
  fun_cases execRefclkLost t c s <;> simp +zetaDelta

/-! ### Machine/DraftRows.lean -/

@[simp] theorem execDraftLoad_keeps (t : Nat) (q : Option Nat) (p : PartIdx) (s : State) :
    Keeps s (execDraftLoad t q p s) := by
  simp [execDraftLoad, State.Still]

@[simp] theorem execDraftStart_keeps (t : Nat) (q : Option Nat) (p : PartIdx) (s : State) :
    Keeps s (execDraftStart t q p s) := by
  simp [execDraftStart, State.Still]

@[simp] theorem execDraftStop_keeps (t : Nat) (q : Option Nat) (p : PartIdx) (s : State) :
    Keeps s (execDraftStop t q p s) := by
  simp [execDraftStop, State.Still]

@[simp] theorem execDraftAbort_keeps (t : Nat) (q : Option Nat) (p : PartIdx) (s : State) :
    Keeps s (execDraftAbort t q p s) := by
  refine keeps_of_still (State.command_still _ _ _ _ _ fun s => ?_)
  dsimp only
  split <;> simp [State.Still]

@[simp] theorem execDraftUnload_keeps (t : Nat) (q : Option Nat) (p : PartIdx) (s : State) :
    Keeps s (execDraftUnload t q p s) := by
  simp [execDraftUnload, State.Still]

@[simp] theorem execDraftStartTick_keeps (t : Nat) (p : PartIdx) (seeding : Nat) (s : State) :
    Keeps s (execDraftStartTick t p seeding s) := by
  fun_cases execDraftStartTick t p seeding s <;> simp +zetaDelta

@[simp] theorem execGate_keeps (t : Nat) (p : PartIdx) (g : Nat) (s : State) : Keeps s (execGate t p g s) := by
  fun_cases execGate t p g s <;> simp +zetaDelta

@[simp] theorem execGateRetest_keeps (t : Nat) (p : PartIdx) (s : State) : Keeps s (execGateRetest t p s) := by
  fun_cases execGateRetest t p s <;> simp +zetaDelta

@[simp] theorem execStepCommit_keeps (t : Nat) (p : PartIdx) (s : State) : Keeps s (execStepCommit t p s) := by
  fun_cases execStepCommit t p s
  case case1 | case2 | case3 | case4 => simp +zetaDelta
  case case5 | case6 => simp +zetaDelta [fst_of_eq ‹_ = (_, _)›]

@[simp] theorem execCommitVoteLost_keeps (t : Nat) (p : PartIdx) (s : State) : Keeps s (execCommitVoteLost t p s) := by
  fun_cases execCommitVoteLost t p s <;> simp +zetaDelta

@[simp] theorem execOutputRelease_keeps (t : Nat) (p : PartIdx) (pulse : Option Pulse) (s : State) :
    Keeps s (execOutputRelease t p pulse s) := by
  fun_cases execOutputRelease t p pulse s <;> simp +zetaDelta

@[simp] theorem execTreadlePulseEnd_keeps (t : Nat) (s : State) : Keeps s (execTreadlePulseEnd t s) := by
  simp [execTreadlePulseEnd]

@[simp] theorem execRerunStart_keeps (t : Nat) (p : PartIdx) (s : State) : Keeps s (execRerunStart t p s) := by
  fun_cases execRerunStart t p s <;> simp +zetaDelta

@[simp] theorem execSignatureCompare_keeps (t : Nat) (slot : Slot) (tick : Nat) (gate : Option Nat) (missing : Bool)
    (s : State) :
    Keeps s (execSignatureCompare t slot tick gate missing s) := by
  fun_cases execSignatureCompare t slot tick gate missing s <;> simp +zetaDelta

/-! ### Machine/FabricRows.lean -/

@[simp] theorem execSolverLoad_keeps (t : Nat) (h : HartIdx) (a : BitVec 56) (size rd : Nat) (signed fp lr : Bool)
    (s : State) :
    Keeps s (execSolverLoad t h a size rd signed fp lr s) := by
  fun_cases execSolverLoad t h a size rd signed fp lr s
  case case1 | case2 | case3 | case4 | case7 | case8 | case9 => simp +zetaDelta
  case case5 | case6 => simp +zetaDelta [fst_of_eq ‹_ = (_, _)›]

@[simp] theorem execSolverFence_keeps (t : Nat) (h : HartIdx) (s : State) : Keeps s (execSolverFence t h s) := by
  simp [execSolverFence]

@[simp] theorem execFenceComplete_keeps (t : Nat) (h : HartIdx) (s : State) : Keeps s (execFenceComplete t h s) := by
  simp [execFenceComplete]

@[simp] theorem execOwnAcquire_keeps (t : Nat) (h : HartIdx) (a : BitVec 56) (rd : Nat) (word : BitVec 64) (s : State) :
    Keeps s (execOwnAcquire t h a rd word s) := by
  simp [execOwnAcquire]

@[simp] theorem execOwnRelease_keeps (t : Nat) (h : HartIdx) (a : BitVec 56) (rd : Nat) (word : BitVec 64) (s : State) :
    Keeps s (execOwnRelease t h a rd word s) := by
  simp [execOwnRelease]

@[simp] theorem execOwnHandover_keeps (t : Nat) (h : HartIdx) (a : BitVec 56) (rd : Nat) (word : BitVec 64)
    (s : State) :
    Keeps s (execOwnHandover t h a rd word s) := by
  simp [execOwnHandover]

@[simp] theorem execGatherDoorbell_keeps (t : Nat) (h : HartIdx) (rd : Nat) (desc : BitVec 64) (s : State) :
    Keeps s (execGatherDoorbell t h rd desc s) := by
  simp [execGatherDoorbell]

@[simp] theorem execSolverStore_keeps (t : Nat) (h : HartIdx) (a : BitVec 56) (size rs2 rd : Nat) (kind : StoreKind)
    (s : State) :
    Keeps s (execSolverStore t h a size rs2 rd kind s) := by
  fun_cases execSolverStore t h a size rs2 rd kind s <;> simp +zetaDelta

@[simp] theorem execGatherComplete_keeps (t : Nat) (h : HartIdx) (j : Nat) (s : State) :
    Keeps s (execGatherComplete t h j s) := by
  fun_cases execGatherComplete t h j s
  case case1 | case2 => simp +zetaDelta
  case case3 | case4 | case5 => simp +zetaDelta [fst_of_eq ‹_ = (_, _)›]

@[simp] theorem execLd_keeps (t : Nat) (k : Packet) (s : State) : Keeps s (execLd t k s) := by
  fun_cases execLd t k s
  case case1 => simp +zetaDelta
  case case2 | case3 => simp +zetaDelta [fst_of_eq ‹_ = (_, _)›]

@[simp] theorem execSt_keeps (t : Nat) (k : Packet) (s : State) : Keeps s (execSt t k s) := by
  simp [execSt]

@[simp] theorem execAmoAdd_keeps (t : Nat) (k : Packet) (s : State) : Keeps s (execAmoAdd t k s) := by
  simp [execAmoAdd]

@[simp] theorem execAmoSwap_keeps (t : Nat) (k : Packet) (s : State) : Keeps s (execAmoSwap t k s) := by
  simp [execAmoSwap]

@[simp] theorem execAmoCas_keeps (t : Nat) (k : Packet) (s : State) : Keeps s (execAmoCas t k s) := by
  simp [execAmoCas]

@[simp] theorem execAmoAnd_keeps (t : Nat) (k : Packet) (s : State) : Keeps s (execAmoAnd t k s) := by
  simp [execAmoAnd]

@[simp] theorem execAmoOr_keeps (t : Nat) (k : Packet) (s : State) : Keeps s (execAmoOr t k s) := by
  simp [execAmoOr]

@[simp] theorem execAmoXor_keeps (t : Nat) (k : Packet) (s : State) : Keeps s (execAmoXor t k s) := by
  simp [execAmoXor]

@[simp] theorem execAmoMinu_keeps (t : Nat) (k : Packet) (s : State) : Keeps s (execAmoMinu t k s) := by
  simp [execAmoMinu]

@[simp] theorem execAmoMaxu_keeps (t : Nat) (k : Packet) (s : State) : Keeps s (execAmoMaxu t k s) := by
  simp [execAmoMaxu]

@[simp] theorem execAmoMin_keeps (t : Nat) (k : Packet) (s : State) : Keeps s (execAmoMin t k s) := by
  simp [execAmoMin]

@[simp] theorem execAmoMax_keeps (t : Nat) (k : Packet) (s : State) : Keeps s (execAmoMax t k s) := by
  simp [execAmoMax]

@[simp] theorem execAmoFadd_keeps (t : Nat) (k : Packet) (s : State) : Keeps s (execAmoFadd t k s) := by
  simp [execAmoFadd]

@[simp] theorem execOwnCmd_keeps (t : Nat) (k : Packet) (s : State) : Keeps s (execOwnCmd t k s) := by
  simp [execOwnCmd]

@[simp] theorem execLedgerEntryAgeOut_keeps (t path unit : Nat) (s : State) :
    Keeps s (execLedgerEntryAgeOut t path unit s) := by
  simp [execLedgerEntryAgeOut]

@[simp] theorem execResponse_keeps (t : Nat) (k : Packet) (s : State) : Keeps s (execResponse t k s) := by
  fun_cases execResponse t k s
  case case1 | case2 => simp +zetaDelta
  case case3 | case4 => simp +zetaDelta [fst_of_eq ‹_ = (_, _)›]

@[simp] theorem execRequestReissue_keeps (t u tag : Nat) (s : State) : Keeps s (execRequestReissue t u tag s) := by
  fun_cases execRequestReissue t u tag s <;> simp +zetaDelta

@[simp] theorem execRequestDeadTimeout_keeps (t u tag : Nat) (s : State) :
    Keeps s (execRequestDeadTimeout t u tag s) := by
  fun_cases execRequestDeadTimeout t u tag s
  case case1 | case2 => simp +zetaDelta
  case case3 | case4 => simp +zetaDelta [fst_of_eq ‹_ = (_, _)›]

@[simp] theorem execHeartbeatFlit_keeps (t : Nat) (port : PortIdx) (path : BitVec 48) (s : State) :
    Keeps s (execHeartbeatFlit t port path s) := by
  simp [execHeartbeatFlit]

@[simp] theorem execDeadClear_keeps (t : Nat) (q : Option Nat) (v : BitVec 64) (s : State) :
    Keeps s (execDeadClear t q v s) := by
  simp [execDeadClear, State.Still]

@[simp] theorem execOwnForceOpen_keeps (t : Nat) (q : Option Nat) (v : BitVec 64) (s : State) :
    Keeps s (execOwnForceOpen t q v s) := by
  refine keeps_of_still (State.command_still _ _ _ _ _ fun s => ?_)
  split <;> simp [State.Still]

@[simp] theorem execAdmitRound_keeps (t : Nat) (s : State) : Keeps s (execAdmitRound t s) := by
  simp [execAdmitRound]

@[simp] theorem execCollLaunchDoorbell_keeps (t : Nat) (h : HartIdx) (rd : Nat) (desc : BitVec 64) (s : State) :
    Keeps s (execCollLaunchDoorbell t h rd desc s) := by
  fun_cases execCollLaunchDoorbell t h rd desc s
  case case1 | case2 | case3 => simp +zetaDelta
  case case4 | case5 | case6 => simp +zetaDelta [fst_of_eq ‹_ = (_, _)›]

@[simp] theorem execCollLaunch_keeps (t : Nat) (k : Packet) (s : State) : Keeps s (execCollLaunch t k s) := by
  fun_cases execCollLaunch t k s <;> simp +zetaDelta [fst_of_eq ‹_ = (_, _)›]

@[simp] theorem execCollChunk_keeps (t : Nat) (k : Packet) (cr : CreelCheck) (s : State) :
    Keeps s (execCollChunk t k cr s) := by
  fun_cases execCollChunk t k cr s <;> simp +zetaDelta [fst_of_eq ‹_ = (_, _)›]

@[simp] theorem execCollAck_keeps (t : Nat) (k : Packet) (s : State) : Keeps s (execCollAck t k s) := by
  fun_cases execCollAck t k s <;> simp +zetaDelta [fst_of_eq ‹_ = (_, _)›]

@[simp] theorem execCollTaintPacket_keeps (t : Nat) (k : Packet) (s : State) : Keeps s (execCollTaintPacket t k s) := by
  fun_cases execCollTaintPacket t k s <;> simp +zetaDelta [fst_of_eq ‹_ = (_, _)›]

@[simp] theorem execCollNak_keeps (t : Nat) (k : Packet) (s : State) : Keeps s (execCollNak t k s) := by
  fun_cases execCollNak t k s <;> simp +zetaDelta

@[simp] theorem execGenAheadExpiry_keeps (t : Nat) (p : PartIdx) (g cseq : Nat) (s : State) :
    Keeps s (execGenAheadExpiry t p g cseq s) := by
  fun_cases execGenAheadExpiry t p g cseq s <;> simp +zetaDelta

@[simp] theorem execChunkResendTimeout_keeps (t : Nat) (p : PartIdx) (g cseq : Nat) (peer : BitVec 48) (depth : Nat)
    (down : Bool) (chunk : Nat) (ask : Bool) (tries : Nat) (s : State) :
    Keeps s (execChunkResendTimeout t p g cseq peer depth down chunk ask tries s) := by
  fun_cases execChunkResendTimeout t p g cseq peer depth down chunk ask tries s <;> simp +zetaDelta

@[simp] theorem execQChunk_keeps (t : Nat) (p : PartIdx) (f : Fin 8) (e : Nat) (s : State) :
    Keeps s (execQChunk t p f e s) := by
  fun_cases execQChunk t p f e s
  case case1 => simp +zetaDelta
  case case2 => simp +zetaDelta [fst_of_eq ‹_ = (_, _)›]

@[simp] theorem execQNop_keeps (t : Nat) (p : PartIdx) (_f : Fin 8) (_e : Nat) (s : State) :
    Keeps s (execQNop t p _f _e s) := by
  simp [execQNop]

@[simp] theorem execCommitVote_keeps (t : Nat) (k : Packet) (s : State) : Keeps s (execCommitVote t k s) := by
  fun_cases execCommitVote t k s <;> simp +zetaDelta

@[simp] theorem execCommitResult_keeps (t : Nat) (k : Packet) (s : State) : Keeps s (execCommitResult t k s) := by
  fun_cases execCommitResult t k s <;> simp +zetaDelta

@[simp] theorem State.reformReads_still (s : State) (p g : Nat) : s.Still (s.reformReads p g) := by
  fun_cases State.reformReads s p g <;> simp [State.Still]

@[simp] theorem execGroupReform_keeps (t : Nat) (q : Option Nat) (p : PartIdx) (g : BitVec 8) (s : State) :
    Keeps s (execGroupReform t q p g s) := by
  unfold execGroupReform
  dsimp only
  split
  · split <;> simp
  · refine keeps_next.2 ((State.arrive_onward s t).still (State.command_still _ _ _ _ _ fun s => ?_))
    split <;> simp [State.Still]

/-! ### Machine/Host.lean -/

@[simp] theorem State.setHost_still (s : State) (x : HostIf) : s.Still (s.setHost x) := by
  simp [State.Still, State.setHost]

@[simp] theorem State.clearHdm_still (s : State) (seg : Nat) : s.Still (s.clearHdm seg) := by
  simp [State.Still, State.clearHdm]

@[simp] theorem execHdmSizeWrite_keeps (t : Nat) (q : Option Nat) (v : BitVec 16) (s : State) :
    Keeps s (execHdmSizeWrite t q v s) := by
  fun_cases execHdmSizeWrite t q v s <;> simp +zetaDelta

@[simp] theorem execHdmDecoderCommit_keeps (t gib : Nat) (s : State) : Keeps s (execHdmDecoderCommit t gib s) := by
  simp [execHdmDecoderCommit]

@[simp] theorem State.hdmMiss_still (s : State) (o : Nat) : s.Still (s.hdmMiss o) := by
  simp [State.Still, State.hdmMiss]

@[simp] theorem State.hold_still (s : State) (pa : Nat) : s.Still (s.hold pa) := by
  simp [State.Still, State.hold]

@[simp] theorem execHostRead_keeps (t o : Nat) (s : State) : Keeps s (execHostRead t o s) := by
  fun_cases execHostRead t o s
  case case1 | case2 => simp +zetaDelta
  case case3 | case4 => simp +zetaDelta [fst_of_eq ‹_ = (_, _)›]

@[simp] theorem State.hostStore_still (s : State) (pa : Nat) (l : List Byte) (mask : Nat) :
    s.Still (s.hostStore pa l mask) := by
  fun_cases State.hostStore s pa l mask
  case case1 | case4 => simp [State.Still, fst_of_eq ‹_ = (_, _)›]
  case case2 h1 _ _ _ h2 _ | case3 h1 _ _ _ h2 _ => simp [State.Still, fst_of_eq h1, fst_of_eq h2]

@[simp] theorem execHostWrite_keeps (t o : Nat) (data : List Byte) (mask : BitVec 64) (s : State) :
    Keeps s (execHostWrite t o data mask s) := by
  fun_cases execHostWrite t o data mask s <;> simp +zetaDelta

@[simp] theorem State.backInvalidate_still (s : State) (pa n : Nat) : s.Still (s.backInvalidate pa n).1 := by
  simp [State.Still, State.backInvalidate]

@[simp] theorem State.mbDone_still (s : State) (code : Nat) (payload : List Byte) :
    s.Still (s.mbDone code payload) := by
  simp [State.Still, State.mbDone]

@[simp] theorem State.hostOwn_still (s : State) (pa word : Nat) : s.Still (s.hostOwn pa word) := by
  simp [State.Still, State.hostOwn]

@[simp] theorem State.ownResume_still (s : State) : s.Still s.ownResume := by
  simp [State.Still, State.ownResume]

@[simp] theorem State.letGo_still (s : State) (region : Nat) : s.Still (s.letGo region) := by
  simp [State.Still, State.letGo]

@[simp] theorem execBiSnoopResponse_keeps (t region : Nat) (dirty : List (Fin 32768 × List Byte)) (s : State) :
    Keeps s (execBiSnoopResponse t region dirty s) := by
  unfold execBiSnoopResponse
  dsimp only
  split
  · refine keeps_next.2 ((State.arrive_onward s t).still ?_)
    refine .trans (foldl_still ?_ _ ⟨rfl, rfl⟩) (State.letGo_still ..)
    rintro s e _ rfl
    exact State.storePa_still ..
  · exact keeps_next.2 (State.arrive_onward s t)

@[simp] theorem State.poisonLine_still (s : State) (pa : Nat) : s.Still (s.poisonLine pa) := by
  fun_cases State.poisonLine s pa <;> simp [State.Still]

@[simp] theorem execCxlBiTimeout_keeps (t region : Nat) (lines : List (Fin 32768)) (s : State) :
    Keeps s (execCxlBiTimeout t region lines s) := by
  unfold execCxlBiTimeout
  dsimp only
  split
  · exact keeps_next.2 (State.arrive_onward s t)
  split
  · exact keeps_next.2 (State.arrive_onward s t)
  · refine keeps_next.2 ((State.arrive_onward s t).still ?_)
    refine .trans (foldl_still ?_ _ ⟨rfl, rfl⟩) (State.letGo_still ..)
    rintro s i _ rfl
    simp [State.Still]

@[simp] theorem execWinPendClear_keeps (t : Nat) (p : PartIdx) (v : BitVec 64) (s : State) :
    Keeps s (execWinPendClear t p v s) := by
  simp [execWinPendClear]

@[simp] theorem State.releaseBit_still (s : State) (p w : Nat) : s.Still (s.releaseBit p w) := by
  fun_cases State.releaseBit s p w <;> simp +zetaDelta [State.Still]

@[simp] theorem execWinReleaseWrite_keeps (t : Nat) (p : PartIdx) (v : BitVec 64) (s : State) :
    Keeps s (execWinReleaseWrite t p v s) := by
  simp [execWinReleaseWrite]

@[simp] theorem execHostReleaseDone_keeps (t : Nat) (p : PartIdx) (w : Fin 64) (s : State) :
    Keeps s (execHostReleaseDone t p w s) := by
  fun_cases execHostReleaseDone t p w s
  case case1 | case2 | case4 => simp +zetaDelta
  case case3 => simp +zetaDelta [fst_of_eq ‹_ = (_, _)›]

@[simp] theorem execHostDoorbellWrite_keeps (t : Nat) (p : PartIdx) (v : BitVec 64) (s : State) :
    Keeps s (execHostDoorbellWrite t p v s) := by
  simp [execHostDoorbellWrite]

@[simp] theorem State.mailbox_still (s : State) (good : Bool) (run : State → State) (h : ∀ s, State.Still s (run s)) :
    s.Still (s.mailbox good run) := by
  fun_cases State.mailbox s good run
  case case4 => exact h s
  all_goals simp [State.Still]

theorem State.mailbox_onward (s : State) (good : Bool) (run : State → State) (h : ∀ s, State.Onward s (run s)) :
    s.Onward (s.mailbox good run) := by
  fun_cases State.mailbox s good run
  case case4 => exact h s
  all_goals exact .of_still (by simp [State.Still])

@[simp] theorem execMbIdentify_keeps (t : Nat) (s : State) : Keeps s (execMbIdentify t s) := by
  simp [execMbIdentify, State.Still]

@[simp] theorem execMbGetSupportedLogs_keeps (t : Nat) (s : State) : Keeps s (execMbGetSupportedLogs t s) := by
  simp [execMbGetSupportedLogs, State.Still]

@[simp] theorem execMbGetLog_keeps (t : Nat) (uuid : List Byte) (off len : BitVec 32) (s : State) :
    Keeps s (execMbGetLog t uuid off len s) := by
  simp [execMbGetLog, State.Still]

@[simp] theorem execMbHostCopy_keeps (t : Nat) (hostAddr pkgAddr : BitVec 64) (len : BitVec 32) (dir : BitVec 8)
    (s : State) :
    Keeps s (execMbHostCopy t hostAddr pkgAddr len dir s) := by
  simp [execMbHostCopy, State.Still]

@[simp] theorem State.copyLine_still (s : State) (c : HostCopy) (off : Nat) (line : Option (List Byte)) :
    s.Still (s.copyLine c off line).1 := by
  fun_cases State.copyLine s c off line
  case case1 | case2 | case3 | case5 | case6 => simp [State.Still, fst_of_eq ‹_ = (_, _)›]
  case case4 => simp [State.Still]

@[simp] theorem State.copyLines_still (s : State) (c : HostCopy) (host : List (Option (List Byte))) (n off : Nat) :
    s.Still (s.copyLines c host n off).1 := by
  fun_induction State.copyLines s c host n off
  case case1 => exact ⟨rfl, rfl⟩
  case case2 h ih => exact .trans (by simp [State.Still, fst_of_eq h]) ih
  case case3 h => simp [State.Still, fst_of_eq h]

@[simp] theorem execHostCopyDone_keeps (t : Nat) (host : List (Option (List Byte))) (s : State) :
    Keeps s (execHostCopyDone t host s) := by
  fun_cases execHostCopyDone t host s
  case case1 | case2 => simp +zetaDelta
  case case3 => simp +zetaDelta [fst_of_eq ‹_ = (_, _)›]
  case case4 h1 _ _ _ h2 => simp +zetaDelta [fst_of_eq h1, fst_of_eq h2]

@[simp] theorem execMbOwnershipCmd_keeps (t : Nat) (region word : BitVec 64) (s : State) :
    Keeps s (execMbOwnershipCmd t region word s) := by
  refine keeps_of_still (State.mailbox_still _ _ _ fun s => ?_)
  split
  · split <;> next h => simp [State.Still, fst_of_eq h]
  · simp [State.Still]

@[simp] theorem execMbCollLaunch_keeps (t : Nat) (p : BitVec 8) (desc : BitVec 64) (s : State) :
    Keeps s (execMbCollLaunch t p desc s) := by
  refine keeps_of_still (State.mailbox_still _ _ _ fun s => ?_)
  dsimp only
  split
  · simp [State.Still]
  · split
    · rename_i h
      simp [State.Still, fst_of_eq h]
    · rename_i h
      split <;> next h2 => simp [State.Still, fst_of_eq h, fst_of_eq h2]

/-! ### Machine/Session.lean -/

@[simp] theorem State.endSpent_still (s : State) (id : Nat) : s.Still (s.endSpent id) := by
  fun_cases State.endSpent s id <;> simp [State.Still]

@[simp] theorem State.refuseHello_still (s : State) (status : Nat) : s.Still (s.refuseHello status).1 := by
  simp [State.Still, State.refuseHello]

@[simp] theorem State.greet_still (s : State) (tr : Transport) (role : Role) (part : Nat) (body : List Byte) :
    s.Still (s.greet tr role part body).1 := by
  simp [State.Still, State.greet]

@[simp] theorem State.hello_still (s : State) (tr : Transport) (body : List Byte) (agree : Bool) :
    s.Still (s.hello tr body agree).1 := by
  fun_cases State.hello s tr body agree
  case case5 | case6 => simp [State.Still, fst_of_eq ‹_ = (_, _)›]
  all_goals simp [State.Still]

@[simp] theorem State.authStatus_still (s : State) (x : Session) (pk sig t2 : List Byte) (agree : Bool) :
    s.Still (s.authStatus x pk sig t2 agree).1 := by
  fun_cases State.authStatus s x pk sig t2 agree
  case case4 | case5 => simp [State.Still, fst_of_eq ‹_ = (_, _)›]
  all_goals simp [State.Still]

@[simp] theorem State.auth_still (s : State) (tr : Transport) (id : Nat) (body : List Byte) (agree : Bool) :
    s.Still (s.auth tr id body agree).1 := by
  fun_cases State.auth s tr id body agree
  case case3 | case4 => simp [State.Still, fst_of_eq ‹_ = (_, _)›]
  all_goals simp [State.Still]

@[simp] theorem State.reply_still (s : State) (id : Nat) (ms : List (List Byte)) : s.Still (s.reply id ms) := by
  fun_cases State.reply s id ms
  simp -implicitDefEqProofs [State.Still]

@[simp] theorem execClientHello_keeps (t : Nat) (tr : Transport) (body : List Byte) (agree : Bool) (s : State) :
    Keeps s (execClientHello t tr body agree s) := by
  simp [execClientHello]

@[simp] theorem execClientAuth_keeps (t : Nat) (tr : Transport) (id : Nat) (body : List Byte) (agree : Bool)
    (s : State) :
    Keeps s (execClientAuth t tr id body agree s) := by
  simp [execClientAuth]

@[simp] theorem State.closeMsg_still (s : State) (tr : Transport) (id seq : Nat) (tag : List Byte) :
    s.Still (s.closeMsg tr id seq tag) := by
  fun_cases State.closeMsg s tr id seq tag <;> simp [State.Still]

@[simp] theorem execSessionClose_keeps (t : Nat) (tr : Transport) (id seq : Nat) (tag : List Byte) (s : State) :
    Keeps s (execSessionClose t tr id seq tag s) := by
  simp [execSessionClose]

@[simp] theorem execSessionIdleTimeout_keeps (t id : Nat) (s : State) : Keeps s (execSessionIdleTimeout t id s) := by
  fun_cases execSessionIdleTimeout t id s <;> simp +zetaDelta

@[simp] theorem execSessionLifetimeExpiry_keeps (t id : Nat) (s : State) :
    Keeps s (execSessionLifetimeExpiry t id s) := by
  fun_cases execSessionLifetimeExpiry t id s <;> simp +zetaDelta

/-! ### Machine/Aoap.lean -/

/-- A command performed inside a message keeps the queue and moves time on. -/
theorem State.nested_onward {s : State} {f : State → Host.Outcome State Fault Refusal} (h : Keeps s (f s)) :
    s.Onward (s.nested f) := by
  fun_cases State.nested s f
  case case1 e => exact ⟨(h _ e).1, (h _ e).2⟩
  case case2 => exact .refl s

/-- The command that a write of the object dictionary gives, if any, keeps the queue of s and moves its time on. -/
def GivenKeeps (s : State) (x : Option (State → Host.Outcome State Fault Refusal)) : Prop :=
  ∀ f, x = some f → Keeps s (f s)

@[simp] theorem givenKeeps_none (s : State) : GivenKeeps s none := fun _ h => nomatch h

@[simp] theorem givenKeeps_some {s : State} {f : State → Host.Outcome State Fault Refusal} :
    GivenKeeps s (some f) ↔ Keeps s (f s) := ⟨fun h => h f rfl, fun h _ e => Option.some.inj e ▸ h⟩

theorem GivenKeeps.ite {s : State} {c : Prop} [Decidable c] {a b : Option (State → Host.Outcome State Fault Refusal)}
    (ha : GivenKeeps s a) (hb : GivenKeeps s b) : GivenKeeps s (if c then a else b) := by split <;> assumption

theorem objectCommand_keeps (q : Option Nat) (i u : Nat) (data : List Byte) (o : Outside) (t : Nat) (s : State) :
    GivenKeeps s (objectCommand q i u data o t) := by
  unfold objectCommand
  dsimp only
  repeat' refine .ite ?_ ?_
  all_goals simp only [givenKeeps_none, givenKeeps_some, execResetRequestCold_keeps, execResetRequestWarm_keeps,
    execHdmSizeWrite_keeps, execDraftLoad_keeps, execDraftStart_keeps, execDraftStop_keeps, execDraftAbort_keeps,
    execDraftUnload_keeps, execWindowQuorumWrite_keeps, execReelReadWrite_keeps, execRoleMapWrite_keeps,
    execPartitionCommit_keeps, execShareWrite_keeps, execRngKeyWrite_keeps, execRngKeyEntropy_keeps,
    execTrafficGenStop_keeps, execTrafficGenStart_keeps, execDeadClear_keeps, execOwnForceOpen_keeps,
    execGroupReform_keeps, execRestoreRequest_keeps, execLcRequest_keeps, execSvnCommit_keeps, execDebugGrant_keeps,
    execAttestNonceWrite_keeps, execRegionEntryWrite_keeps, execReplanNow_keeps, execClockAccept_keeps]

@[simp] theorem State.clearBits_still (s : State) (i u v : Nat) : s.Still (s.clearBits i u v) := by
  simp [State.Still, State.clearBits]

@[simp] theorem State.descChanged_still (s : State) (p old : Nat) : s.Still (s.descChanged p old) := by
  simp [State.Still, State.descChanged]

@[simp] theorem State.afterWrite_still (s : State) (i u old : Nat) : s.Still (s.afterWrite i u old) := by
  simp [State.Still, State.afterWrite]

@[simp] theorem State.applyWrite_still (s : State) (i u : Nat) (r : OdRow) (data : List Byte) :
    s.Still (s.applyWrite i u r data) := by
  simp -implicitDefEqProofs [State.Still, State.applyWrite]

theorem State.heldObject_still {s u : State} {i j : Nat} (h : s.heldObject i j = some u) : s.Still u := by
  unfold State.heldObject at h
  split at h
  · cases h
    exact ⟨rfl, rfl⟩
  · split at h
    · cases h
      exact State.event_still ..
    · cases h

theorem State.writeObject_onward (s : State) (q : Option Nat) (idx sub : Nat) (whole : Bool) (data : List Byte)
    (o : Outside) :
    s.Onward (s.writeObject q idx sub whole data o) := by
  fun_cases State.writeObject s q idx sub whole data o
  case case6 h => exact State.nested_onward (objectCommand_keeps _ _ _ _ _ _ s _ h)
  case case9 h => exact .of_still (.trans (State.heldObject_still h) (State.answer_still ..))
  all_goals exact .of_still (by simp [State.Still])

@[simp] theorem execOdWrite_keeps (t : Nat) (q : Option Nat) (idx : BitVec 16) (sub : BitVec 8) (whole : Bool)
    (data : List Byte) (o : Outside) (s : State) : Keeps s (execOdWrite t q idx sub whole data o s) :=
  keeps_next.2 ((State.arrive_onward s t).trans (State.writeObject_onward ..))

@[simp] theorem State.subscribe_still (s : State) (q : Option Nat) (idx sub : Nat) (d : List Byte) :
    s.Still (s.subscribe q idx sub d) := by
  unfold State.subscribe
  split
  · simp [State.Still]
  · split
    · split
      · simp [State.Still]
      · split <;> simp [State.Still]
    · simp [State.Still]

@[simp] theorem execOdSubscribe_keeps (t : Nat) (q : Option Nat) (idx : BitVec 16) (sub : BitVec 8)
    (data : List Byte) (s : State) :
    Keeps s (execOdSubscribe t q idx sub data s) := by
  simp [execOdSubscribe]

@[simp] theorem State.unsubscribe_still (s : State) (q : Option Nat) (d : List Byte) : s.Still (s.unsubscribe q d) := by
  unfold State.unsubscribe
  split
  · simp [State.Still]
  · split <;> simp [State.Still]

@[simp] theorem execOdUnsubscribe_keeps (t : Nat) (q : Option Nat) (data : List Byte) (s : State) :
    Keeps s (execOdUnsubscribe t q data s) := by
  simp [execOdUnsubscribe]

@[simp] theorem execValueNotify_keeps (t id sid : Nat) (s : State) : Keeps s (execValueNotify t id sid s) := by
  fun_cases execValueNotify t id sid s <;> simp +zetaDelta

theorem State.serveReq_onward (s : State) (q : Option Nat) (plain : Bool) (o : Outside) (r : AoapReq) :
    s.Onward (s.serveReq q plain o r) := by
  fun_cases State.serveReq s q plain o r
  case case5 => exact State.writeObject_onward ..
  all_goals exact .of_still (by simp [State.Still])

theorem State.serveReqs_onward (q : Option Nat) (plain : Bool) (o : Outside) (room : Nat) (s : State)
    (l : List AoapReq) :
    s.Onward (State.serveReqs q plain o room s l).1 := by
  fun_induction State.serveReqs q plain o room s l
  case case1 => exact .refl _
  case case2 e ih => exact (State.serveReq_onward ..).trans (fst_of_eq e ▸ ih)
  case case3 => exact .refl _

theorem State.serveBody_onward (s : State) (q : Option Nat) (plain : Bool) (o : Outside) (room : Nat)
    (body : List Byte) :
    s.Onward (s.serveBody q plain o room body).1 := by
  fun_cases State.serveBody s q plain o room body
  case case1 e => exact fst_of_eq e ▸ State.serveReqs_onward ..
  case case2 => exact .refl s

theorem State.serveSealed_onward (s : State) (tr : Transport) (m : List Byte) (o : Outside) :
    s.Onward (s.serveSealed tr m o).1 := by
  have hbody {id : Nat} {x : Session} {v : State} {l body : List Byte} {room : Nat}
      (e : (s.setSession id x).serveBody (some id) false o room body = (v, l)) : s.Onward v :=
    (State.Onward.of_still (State.setSession_still ..)).trans (fst_of_eq e ▸ State.serveBody_onward ..)
  fun_cases State.serveSealed s tr m o
  case case4 e _ _ _ _ _ => exact (hbody e).still (.trans (State.setSession_still ..) (State.endSpent_still ..))
  case case5 e _ => exact hbody e
  all_goals exact .refl s

theorem State.serve_onward (s : State) (tr : Transport) (m : List Byte) (o : Outside) :
    s.Onward (s.serve tr m o).1 := by
  fun_cases State.serve s tr m o
  case case4 e => exact fst_of_eq e ▸ State.serveBody_onward ..
  case case5 => exact State.serveSealed_onward ..
  all_goals exact .of_still (by simp [State.Still])

@[simp] theorem execAoapMessage_keeps (t : Nat) (tr : Transport) (m : List Byte) (o : Outside) (s : State) :
    Keeps s (execAoapMessage t tr m o s) := by
  have hserve := (State.arrive_onward s t).trans (State.serve_onward _ tr m o)
  exact keeps_next.2 (hserve.still (State.reply_still ..))

@[simp] theorem State.setAoap_still (s : State) (a : Aoap) : s.Still (s.setAoap a) := by
  simp [State.Still, State.setAoap]

theorem State.serveUdp_onward (s : State) (port : Bool) (src msgId : Nat) (m : List Byte) (o : Outside) :
    s.Onward (s.serveUdp port src msgId m o) := by
  fun_cases State.serveUdp s port src msgId m o
  case case1 e =>
    refine (fst_of_eq e ▸ State.serve_onward ..).still (foldl_still ?_ _ ⟨rfl, rfl⟩)
    rintro s a _ rfl
    exact State.send_still ..

@[simp] theorem execUdpSegment_keeps (t : Nat) (port : Bool) (src msgId seg nseg total rsv : Nat) (data : List Byte)
    (o : Outside) (s : State) : Keeps s (execUdpSegment t port src msgId seg nseg total rsv data o s) := by
  have hserve {u : State} (m : List Byte) (h : (s.arrive t).Still u) : Keeps s (.next (u.serveUdp port src msgId m
    o)) :=
    keeps_next.2 (((State.arrive_onward s t).still h).trans (State.serveUdp_onward ..))
  fun_cases execUdpSegment t port src msgId seg nseg total rsv data o s
  case case4 | case7 => exact hserve _ ⟨rfl, rfl⟩
  all_goals simp +zetaDelta

@[simp] theorem execUdpReassemblyTimeout_keeps (t : Nat) (port : Bool) (src msgId : Nat) (s : State) :
    Keeps s (execUdpReassemblyTimeout t port src msgId s) := by
  simp [execUdpReassemblyTimeout]

@[simp] theorem execMctpMessage_keeps (t : Nat) (bus : Bool) (body : List Byte) (o : Outside) (s : State) :
    Keeps s (execMctpMessage t bus body o s) := by
  fun_cases execMctpMessage t bus body o s
  case case1 => simp +zetaDelta
  case case2 e =>
    have hserve := (State.arrive_onward s t).trans (fst_of_eq e ▸ State.serve_onward ..)
    refine keeps_next.2 (hserve.still (foldl_still ?_ _ ⟨rfl, rfl⟩))
    rintro s a _ rfl
    exact State.send_still ..

@[simp] theorem execMbAoapMessage_keeps (t : Nat) (m : List Byte) (o : Outside) (s : State) :
    Keeps s (execMbAoapMessage t m o s) := by
  refine keeps_next.2 ((State.arrive_onward s t).trans (State.mailbox_onward _ _ _ fun s => ?_))
  exact (State.serve_onward ..).still (State.mbDone_still ..)

@[simp] theorem execMbNotifyDrain_keeps (t : Nat) (s : State) : Keeps s (execMbNotifyDrain t s) := by
  refine keeps_of_still (State.mailbox_still _ _ _ fun s => ?_)
  split
  · simp [State.Still]
  · dsimp only
    split <;> simp [State.Still]

@[simp] theorem execEthLinkChange_keeps (t : Nat) (port up : Bool) (s : State) :
    Keeps s (execEthLinkChange t port up s) := by
  simp [execEthLinkChange]

@[simp] theorem execMctpEidAssign_keeps (t : Nat) (bus : Bool) (eid : BitVec 8) (s : State) :
    Keeps s (execMctpEidAssign t bus eid s) := by
  simp [execMctpEidAssign]

/-! ### Machine/CadenceRows.lean -/

@[simp] theorem execTickBoundary_keeps (t : Nat) (s : State) : Keeps s (execTickBoundary t s) := by
  simp [execTickBoundary]

@[simp] theorem execCad1ppsEdge_keeps (t pulseNs : Nat) (ref10mOk : Bool) (s : State) :
    Keeps s (execCad1ppsEdge t pulseNs ref10mOk s) := by
  simp [execCad1ppsEdge]

@[simp] theorem execCad1ppsTimeout_keeps (t : Nat) (s : State) : Keeps s (execCad1ppsTimeout t s) := by
  simp [execCad1ppsTimeout]

@[simp] theorem execCadRef10mTimeout_keeps (t : Nat) (s : State) : Keeps s (execCadRef10mTimeout t s) := by
  simp [execCadRef10mTimeout]

@[simp] theorem execCadRef10mOutOfRange_keeps (t : Nat) (s : State) : Keeps s (execCadRef10mOutOfRange t s) := by
  simp [execCadRef10mOutOfRange]

@[simp] theorem execTreadleEdge_keeps (t : Nat) (falling : Bool) (pulseNs : Nat) (s : State) :
    Keeps s (execTreadleEdge t falling pulseNs s) := by
  fun_cases execTreadleEdge t falling pulseNs s <;> simp +zetaDelta

@[simp] theorem execTreadleTimeout_keeps (t : Nat) (s : State) : Keeps s (execTreadleTimeout t s) := by
  simp [execTreadleTimeout]

@[simp] theorem execPtpMessage_keeps (t : Nat) (port : PortIdx) (kind : PtpKind) (src : BitVec 48) (tick : BitVec 64)
    (period : BitVec 32) (offsetPs : ℤ) (s : State) :
    Keeps s (execPtpMessage t port kind src tick period offsetPs s) := by
  fun_cases execPtpMessage t port kind src tick period offsetPs s <;> simp +zetaDelta

@[simp] theorem execDelayReqSend_keeps (t : Nat) (s : State) : Keeps s (execDelayReqSend t s) := by
  fun_cases execDelayReqSend t s <;> simp +zetaDelta

@[simp] theorem execCadenceHoldoverLimit_keeps (t : Nat) (s : State) : Keeps s (execCadenceHoldoverLimit t s) := by
  fun_cases execCadenceHoldoverLimit t s <;> simp +zetaDelta

@[simp] theorem execCadenceMasterHandover_keeps (t : Nat) (s : State) : Keeps s (execCadenceMasterHandover t s) := by
  simp [execCadenceMasterHandover]

/-! ### Machine/StationRows.lean -/

@[simp] theorem execNop_keeps (t : Nat) (c : Cmd) (s : State) : Keeps s (execNop t c s) := by
  simp [execNop, State.Still]

@[simp] theorem execSetBase_keeps (t : Nat) (c : Cmd) (s : State) : Keeps s (execSetBase t c s) := by
  simp [execSetBase, State.Still]

@[simp] theorem execSSetLo_keeps (t : Nat) (c : Cmd) (s : State) : Keeps s (execSSetLo t c s) := by
  simp [execSSetLo, State.Still]

@[simp] theorem execSSetHi_keeps (t : Nat) (c : Cmd) (s : State) : Keeps s (execSSetHi t c s) := by
  simp [execSSetHi, State.Still]

@[simp] theorem execSLoad_keeps (t : Nat) (c : Cmd) (s : State) : Keeps s (execSLoad t c s) := by
  simp [execSLoad, State.Still]

@[simp] theorem execSStore_keeps (t : Nat) (c : Cmd) (s : State) : Keeps s (execSStore t c s) := by
  simp [execSStore, State.Still]

@[simp] theorem execSInt_keeps (t : Nat) (c : Cmd) (s : State) : Keeps s (execSInt t c s) := by
  simp [execSInt, State.Still]

@[simp] theorem execSFp64_keeps (t : Nat) (c : Cmd) (s : State) : Keeps s (execSFp64 t c s) := by
  simp [execSFp64, State.Still]

@[simp] theorem execWSetup_keeps (t : Nat) (c : Cmd) (s : State) : Keeps s (execWSetup t c s) := by
  simp [execWSetup, State.Still]

@[simp] theorem execWMma_keeps (t : Nat) (c : Cmd) (s : State) : Keeps s (execWMma t c s) := by
  simp [execWMma, State.Still]

@[simp] theorem execWBatt_keeps (t : Nat) (c : Cmd) (s : State) : Keeps s (execWBatt t c s) := by
  simp [execWBatt, State.Still]

@[simp] theorem execWAccOut_keeps (t : Nat) (c : Cmd) (s : State) : Keeps s (execWAccOut t c s) := by
  simp [execWAccOut, State.Still]

@[simp] theorem execWAccIn_keeps (t : Nat) (c : Cmd) (s : State) : Keeps s (execWAccIn t c s) := by
  simp [execWAccIn, State.Still]

@[simp] theorem State.dispatchT_still (s : State) (i : Issued) (c : Cmd) : s.Still (s.dispatchT i c) := by
  fun_cases State.dispatchT s i c
  case case4 | case5 => simp [State.Still, fst_of_eq ‹_ = (_, _)›]
  all_goals simp [State.Still]

@[simp] theorem execTLoad_keeps (t : Nat) (c : Cmd) (s : State) : Keeps s (execTLoad t c s) := by
  simp [execTLoad, State.Still]

@[simp] theorem execTAcc_keeps (t : Nat) (c : Cmd) (s : State) : Keeps s (execTAcc t c s) := by
  simp [execTAcc, State.Still]

@[simp] theorem execTScale_keeps (t : Nat) (c : Cmd) (s : State) : Keeps s (execTScale t c s) := by
  simp [execTScale, State.Still]

@[simp] theorem execTAdd_keeps (t : Nat) (c : Cmd) (s : State) : Keeps s (execTAdd t c s) := by
  simp [execTAdd, State.Still]

@[simp] theorem execTSub_keeps (t : Nat) (c : Cmd) (s : State) : Keeps s (execTSub t c s) := by
  simp [execTSub, State.Still]

@[simp] theorem execTMul_keeps (t : Nat) (c : Cmd) (s : State) : Keeps s (execTMul t c s) := by
  simp [execTMul, State.Still]

@[simp] theorem execTDiv_keeps (t : Nat) (c : Cmd) (s : State) : Keeps s (execTDiv t c s) := by
  simp [execTDiv, State.Still]

@[simp] theorem execTMin_keeps (t : Nat) (c : Cmd) (s : State) : Keeps s (execTMin t c s) := by
  simp [execTMin, State.Still]

@[simp] theorem execTMax_keeps (t : Nat) (c : Cmd) (s : State) : Keeps s (execTMax t c s) := by
  simp [execTMax, State.Still]

@[simp] theorem execTFma_keeps (t : Nat) (c : Cmd) (s : State) : Keeps s (execTFma t c s) := by
  simp [execTFma, State.Still]

@[simp] theorem execTSqrt_keeps (t : Nat) (c : Cmd) (s : State) : Keeps s (execTSqrt t c s) := by
  simp [execTSqrt, State.Still]

@[simp] theorem execTSign_keeps (t : Nat) (c : Cmd) (s : State) : Keeps s (execTSign t c s) := by
  simp [execTSign, State.Still]

@[simp] theorem execTFunc_keeps (t : Nat) (c : Cmd) (s : State) : Keeps s (execTFunc t c s) := by
  simp [execTFunc, State.Still]

@[simp] theorem execTCmp_keeps (t : Nat) (c : Cmd) (s : State) : Keeps s (execTCmp t c s) := by
  simp [execTCmp, State.Still]

@[simp] theorem execTLive_keeps (t : Nat) (c : Cmd) (s : State) : Keeps s (execTLive t c s) := by
  simp [execTLive, State.Still]

@[simp] theorem execTTri_keeps (t : Nat) (c : Cmd) (s : State) : Keeps s (execTTri t c s) := by
  simp [execTTri, State.Still]

@[simp] theorem execTSel_keeps (t : Nat) (c : Cmd) (s : State) : Keeps s (execTSel t c s) := by
  simp [execTSel, State.Still]

@[simp] theorem execTRsum_keeps (t : Nat) (c : Cmd) (s : State) : Keeps s (execTRsum t c s) := by
  simp [execTRsum, State.Still]

@[simp] theorem execTRmax_keeps (t : Nat) (c : Cmd) (s : State) : Keeps s (execTRmax t c s) := by
  simp [execTRmax, State.Still]

@[simp] theorem execTRmin_keeps (t : Nat) (c : Cmd) (s : State) : Keeps s (execTRmin t c s) := by
  simp [execTRmin, State.Still]

@[simp] theorem execTCsum_keeps (t : Nat) (c : Cmd) (s : State) : Keeps s (execTCsum t c s) := by
  simp [execTCsum, State.Still]

@[simp] theorem execTCmax_keeps (t : Nat) (c : Cmd) (s : State) : Keeps s (execTCmax t c s) := by
  simp [execTCmax, State.Still]

@[simp] theorem execTCmin_keeps (t : Nat) (c : Cmd) (s : State) : Keeps s (execTCmin t c s) := by
  simp [execTCmin, State.Still]

@[simp] theorem execTConv_keeps (t : Nat) (c : Cmd) (s : State) : Keeps s (execTConv t c s) := by
  simp [execTConv, State.Still]

@[simp] theorem execTSmaxMax_keeps (t : Nat) (c : Cmd) (s : State) : Keeps s (execTSmaxMax t c s) := by
  simp [execTSmaxMax, State.Still]

@[simp] theorem execTSmaxSum_keeps (t : Nat) (c : Cmd) (s : State) : Keeps s (execTSmaxSum t c s) := by
  simp [execTSmaxSum, State.Still]

@[simp] theorem execTSmaxOut_keeps (t : Nat) (c : Cmd) (s : State) : Keeps s (execTSmaxOut t c s) := by
  simp [execTSmaxOut, State.Still]

@[simp] theorem execTSmaxDot_keeps (t : Nat) (c : Cmd) (s : State) : Keeps s (execTSmaxDot t c s) := by
  simp [execTSmaxDot, State.Still]

@[simp] theorem execTSmaxBwd_keeps (t : Nat) (c : Cmd) (s : State) : Keeps s (execTSmaxBwd t c s) := by
  simp [execTSmaxBwd, State.Still]

@[simp] theorem execTNormSum_keeps (t : Nat) (c : Cmd) (s : State) : Keeps s (execTNormSum t c s) := by
  simp [execTNormSum, State.Still]

@[simp] theorem execTNormVar_keeps (t : Nat) (c : Cmd) (s : State) : Keeps s (execTNormVar t c s) := by
  simp [execTNormVar, State.Still]

@[simp] theorem execTNormOut_keeps (t : Nat) (c : Cmd) (s : State) : Keeps s (execTNormOut t c s) := by
  simp [execTNormOut, State.Still]

@[simp] theorem execTNormDot_keeps (t : Nat) (c : Cmd) (s : State) : Keeps s (execTNormDot t c s) := by
  simp [execTNormDot, State.Still]

@[simp] theorem execTNormBwd_keeps (t : Nat) (c : Cmd) (s : State) : Keeps s (execTNormBwd t c s) := by
  simp [execTNormBwd, State.Still]

@[simp] theorem execTOptStep_keeps (t : Nat) (c : Cmd) (s : State) : Keeps s (execTOptStep t c s) := by
  simp [execTOptStep, State.Still]

@[simp] theorem execTOptCommit_keeps (t : Nat) (c : Cmd) (s : State) : Keeps s (execTOptCommit t c s) := by
  simp [execTOptCommit, State.Still]

@[simp] theorem execMemFill_keeps (t : Nat) (c : Cmd) (s : State) : Keeps s (execMemFill t c s) := by
  simp [execMemFill, State.Still]

@[simp] theorem execMemCopy_keeps (t : Nat) (c : Cmd) (s : State) : Keeps s (execMemCopy t c s) := by
  simp [execMemCopy, State.Still]

@[simp] theorem execCFill_keeps (t : Nat) (c : Cmd) (s : State) : Keeps s (execCFill t c s) := by
  simp [execCFill, State.Still]

@[simp] theorem execCCopy_keeps (t : Nat) (c : Cmd) (s : State) : Keeps s (execCCopy t c s) := by
  simp [execCCopy, State.Still]

@[simp] theorem execFColl_keeps (t : Nat) (c : Cmd) (s : State) : Keeps s (execFColl t c s) := by
  simp [execFColl, State.Still]

@[simp] theorem execFVote_keeps (t : Nat) (c : Cmd) (s : State) : Keeps s (execFVote t c s) := by
  simp [execFVote, State.Still]

@[simp] theorem execDShard_keeps (t : Nat) (c : Cmd) (s : State) : Keeps s (execDShard t c s) := by
  simp [execDShard, State.Still]

@[simp] theorem execLMark_keeps (t : Nat) (c : Cmd) (s : State) : Keeps s (execLMark t c s) := by
  simp [execLMark, State.Still]

@[simp] theorem execLDigest_keeps (t : Nat) (c : Cmd) (s : State) : Keeps s (execLDigest t c s) := by
  simp [execLDigest, State.Still]

@[simp] theorem execTileStepStart_keeps (t : Nat) (slot : Slot) (w : Nat) (s : State) :
    Keeps s (execTileStepStart t slot w s) := by
  fun_cases execTileStepStart t slot w s <;> simp +zetaDelta

@[simp] theorem execTileStepCheck_keeps (t : Nat) (slot : Slot) (w : Nat) (r : StepCheck) (s : State) :
    Keeps s (execTileStepCheck t slot w r s) := by
  fun_cases execTileStepCheck t slot w r s <;> simp +zetaDelta

@[simp] theorem execRerunPauseEnd_keeps (t : Nat) (p : PartIdx) (s : State) : Keeps s (execRerunPauseEnd t p s) := by
  fun_cases execRerunPauseEnd t p s <;> simp +zetaDelta

@[simp] theorem execTwistPassFlow_keeps (t : Nat) (slot : Slot) (e : Nat) (s : State) :
    Keeps s (execTwistPassFlow t slot e s) := by
  fun_cases execTwistPassFlow t slot e s <;> simp +zetaDelta

@[simp] theorem execRovingTileSend_keeps (t : Nat) (p : PartIdx) (r i : Nat) (s : State) :
    Keeps s (execRovingTileSend t p r i s) := by
  fun_cases execRovingTileSend t p r i s <;> simp +zetaDelta

@[simp] theorem execRovingTileArrive_keeps (t : Nat) (p : PartIdx) (r i : Nat) (s : State) :
    Keeps s (execRovingTileArrive t p r i s) := by
  fun_cases execRovingTileArrive t p r i s <;> simp +zetaDelta

@[simp] theorem execRovingTile_keeps (t : Nat) (k : Packet) (s : State) : Keeps s (execRovingTile t k s) := by
  fun_cases execRovingTile t k s <;> simp +zetaDelta

/-- Every command keeps the queue and moves time on. -/
theorem exec_keeps (c : Instr) (s : State) : Keeps s (exec c s) := by
  cases c <;> simp [exec]

/-- Settles O4: of each command by the lemma about its own function. -/
theorem queueAndTimeKept : Obligations.QueueAndTimeKept := fun c s => exec_keeps c s

end Sys2Proof.Machine
end

section
namespace Sys2Proof.Machine

/-! ## Host windows and doorbells (O57) -/

/-! ### Bits -/

theorem setBit_false_eq (v i : Nat) : setBit v i false = 2 ^ i * (2 * (v / 2 ^ (i + 1))) + v % 2 ^ i := by
  have h1 : v = 2 ^ i * (v / 2 ^ i) + v % 2 ^ i := (Nat.div_add_mod ..).symm
  have h2 : v / 2 ^ i = 2 * (v / 2 ^ (i + 1)) + v / 2 ^ i % 2 := by
    rw [Nat.pow_succ, ← Nat.div_div_eq_div_mul, Nat.div_add_mod]
  have h3 : 2 ^ i * (v / 2 ^ i) = 2 ^ i * (2 * (v / 2 ^ (i + 1))) + 2 ^ i * (v / 2 ^ i % 2) := by
    rw [← Nat.mul_add, ← h2]
  simp only [setBit, setBits, bits, b2n, Nat.shiftRight_eq_div_pow, Nat.shiftLeft_eq, Nat.mul_comm _ (2 ^ i)]
  simp
  omega

/-- Clearing bit i leaves the others. -/
theorem bit_setBit_false (v i w : Nat) : bit (setBit v i false) w = (bit v w && decide (w ≠ i)) := by
  rw [setBit_false_eq]
  unfold bit
  rw [Nat.testBit_two_pow_mul_add _ (Nat.mod_lt _ (Nat.two_pow_pos i))]
  split
  next h => simp [Nat.testBit_mod_two_pow, h, h.ne]
  next h =>
    obtain ⟨k, rfl⟩ := Nat.exists_eq_add_of_le (not_lt.1 h)
    cases k with
    | zero => simp
    | succ k => simp [Nat.testBit_succ, Nat.testBit_div_two_pow, Nat.add_left_comm k i 1]

/-- Clearing the bits of a list leaves those that are not in it. -/
theorem bit_foldl_setBit_false (l : List Nat) (v w : Nat) :
    bit (l.foldl (fun x i => setBit x i false) v) w = (bit v w && decide (w ∉ l)) := by
  induction l generalizing v with
  | nil => simp
  | cons i l ih => simp [ih, bit_setBit_false, Bool.and_assoc]

theorem mem_maskBits {n m w : Nat} : w ∈ maskBits n m ↔ w < n ∧ bit m w = true := by
  simp [maskBits]

theorem maskBits_two_pow {n w : Nat} (h : w < n) : maskBits n (2 ^ w) = [w] := by
  have hp : ∀ i, bit (2 ^ w) i = (i == w) := fun i => by simp [bit, Nat.testBit_two_pow, eq_comm, Bool.beq_eq_decide_eq]
  simp only [maskBits, funext hp, List.filter_beq]
  rw [List.count_eq_one_of_mem List.nodup_range (List.mem_range.2 h)]
  rfl

theorem bit_ofNat_toNat {n v w : Nat} (h : w < n) : bit (BitVec.ofNat n v).toNat w = bit v w := by
  simp [bit, Nat.testBit_mod_two_pow, h]

theorem testBit_one_shiftLeft_mod {n : Nat} (h : n < 64) : (1 <<< n % 18446744073709551616).testBit n = true := by
  rw [show 18446744073709551616 = 2 ^ 64 from rfl, Nat.testBit_mod_two_pow]
  simp [h, Nat.testBit_shiftLeft]

/-! ### Harts after an interrupt -/

@[simp] theorem State.hart_setHart_same (s : State) (h : Nat) (x : Hart) : (s.setHart h x).hart h = x := by
  simp [State.hart, State.setHart]

theorem State.hart_setHart_other (s : State) {h k : Nat} (x : Hart) (hk : k ≠ h) :
    (s.setHart h x).hart k = s.hart k := by
  simp [State.hart, State.setHart, fmGet_fmSet_other _ _ _ _ _ hk]

theorem State.hart_of_harts {s u : State} (h : u.harts = s.harts) (k : Nat) : u.hart k = s.hart k := by
  simp [State.hart, h]

/-- One hart of raiseIrqPart: interrupt n becomes pending when hart h enables it. -/
def State.raiseEnabled (s : State) (n h : Nat) : State := if (s.hart h).mie.toNat.testBit n then s.raiseIrq n h else s

theorem State.raiseIrqPart_eq (s : State) (n p : Nat) :
    s.raiseIrqPart n p = (s.partHarts p).foldl (fun s h => s.raiseEnabled n h) s := rfl

theorem State.raiseEnabled_hart_other (s : State) {n h k : Nat} (hk : k ≠ h) :
    (s.raiseEnabled n h).hart k = s.hart k := by
  unfold State.raiseEnabled
  split
  · exact State.hart_setHart_other _ _ hk
  · rfl

theorem State.raiseEnabled_hart_mie (s : State) (n h k : Nat) : ((s.raiseEnabled n h).hart k).mie = (s.hart k).mie := by
  by_cases hk : k = h
  · subst hk
    unfold State.raiseEnabled
    split <;> simp [State.raiseIrq]
  · rw [State.raiseEnabled_hart_other s hk]

theorem State.raiseEnabled_mip_self (s : State) {n h : Nat} (hn : n < 64) (he : bit (s.hart h).mie.toNat n = true) :
    bit ((s.raiseEnabled n h).hart h).mip.toNat n = true := by
  unfold bit at he
  simp [State.raiseEnabled, he, State.raiseIrq, bit, testBit_one_shiftLeft_mod hn]

/-- A bit that is pending stays pending. -/
theorem State.raiseEnabled_mip_mono (s : State) {n m h k : Nat} (hb : bit (s.hart k).mip.toNat m = true) :
    bit ((s.raiseEnabled n h).hart k).mip.toNat m = true := by
  by_cases hk : k = h
  · subst hk
    unfold State.raiseEnabled
    split
    · unfold bit at hb ⊢
      simp [State.raiseIrq, hb]
    · exact hb
  · rwa [State.raiseEnabled_hart_other s hk]

theorem foldl_raiseEnabled_hart_of_not_mem {l : List Nat} {s : State} {n k : Nat} (hk : k ∉ l) :
    (l.foldl (fun s h => s.raiseEnabled n h) s).hart k = s.hart k := by
  induction l generalizing s with
  | nil => rfl
  | cons h l ih =>
    rw [List.mem_cons, not_or] at hk
    rw [List.foldl_cons, ih hk.2, State.raiseEnabled_hart_other _ hk.1]

theorem foldl_raiseEnabled_mip_mono {l : List Nat} {s : State} {n m k : Nat} (hb : bit (s.hart k).mip.toNat m = true) :
    bit ((l.foldl (fun s h => s.raiseEnabled n h) s).hart k).mip.toNat m = true := by
  induction l generalizing s with
  | nil => exact hb
  | cons h l ih => exact ih (State.raiseEnabled_mip_mono s hb)

theorem foldl_raiseEnabled_mip_of_mem {l : List Nat} {s : State} {n k : Nat} (hn : n < 64) (hk : k ∈ l)
    (he : bit (s.hart k).mie.toNat n = true) :
    bit ((l.foldl (fun s h => s.raiseEnabled n h) s).hart k).mip.toNat n = true := by
  induction l generalizing s with
  | nil => cases hk
  | cons h l ih =>
    rw [List.foldl_cons]
    rcases List.mem_cons.1 hk with rfl | hk
    · exact foldl_raiseEnabled_mip_mono (State.raiseEnabled_mip_self s hn he)
    · exact ih hk (by rwa [State.raiseEnabled_hart_mie])

/-- Each hart of the partition that enables an interrupt has it pending once it is raised there. -/
theorem State.raiseIrqPart_mip (s : State) {n p k : Nat} (hn : n < 64) (hk : k ∈ s.partHarts p)
    (he : bit (s.hart k).mie.toNat n = true) : bit ((s.raiseIrqPart n p).hart k).mip.toNat n = true := by
  rw [State.raiseIrqPart_eq]
  exact foldl_raiseEnabled_mip_of_mem hn hk he

theorem State.raiseIrqPart_hart_other (s : State) {n p k : Nat} (hk : k ∉ s.partHarts p) :
    (s.raiseIrqPart n p).hart k = s.hart k := by
  rw [State.raiseIrqPart_eq]
  exact foldl_raiseEnabled_hart_of_not_mem hk

/-! ### The partition's descriptor through reel records and stores -/

theorem State.desc_of_eq {s u : State} (ho : u.od = s.od) (hc : u.cfg = s.cfg) (p : Nat) : u.desc p = s.desc p := by
  simp [State.desc, State.odGet, ho, hc]

section
variable {p : Nat} (hp : p < 4)
include hp

theorem State.odSet_desc (s : State) (i j v : Nat) (hi : 0x3011 ≤ i ∨ i < 0x3010 ∧ j < 256) :
    (s.odSet i j v).desc p = s.desc p := by
  refine State.odGet_odSet_other s i j v 0x3010 (p + 1) ?_
  unfold odKey
  omega

theorem State.event_desc (s : State) (c : Nat) (w : EvWho) (d : List EvField) : (s.event c w d).desc p = s.desc p :=
  State.event_odGet _ _ _ _ _ _ (by unfold odKey; omega) (by unfold odKey; omega)

theorem State.dramBad_desc (s : State) (d : Nat) (q : Option Nat) (det : List EvField) :
    (s.dramBad d q det).desc p = s.desc p :=
  (State.event_desc hp ..).trans (State.odSet_desc hp _ _ _ _ (by omega))

theorem State.unprotect_desc (s : State) (n : Nat) : (s.unprotect n).desc p = s.desc p := by
  unfold State.unprotect
  split
  · rfl
  · exact (State.event_desc hp ..).trans (State.odSet_desc hp _ _ _ _ (by omega))

theorem State.buddyStore_desc (s : State) (q n k : Nat) (l : List Byte) : (s.buddyStore q n k l).desc p = s.desc p := by
  fun_cases State.buddyStore s q n k l
  case case1 => rfl
  case case2 => rfl
  case case3 => exact (State.unprotect_desc hp ..).trans (State.event_desc hp ..)

theorem State.store_desc (s : State) (k : Nat) (l : List Byte) : (s.store k l).desc p = s.desc p := by
  refine foldl_keeps (fun u : State => u.desc p) _ (fun s q => ?_) _ s
  split
  · split
    · exact State.buddyStore_desc hp ..
    · rfl
  · rfl

theorem State.putParts_putMem_desc (s : State) (k : Nat) (l : List Byte) :
    (s.putParts k l State.putMem).desc p = s.desc p := by
  have hbad := foldl_keeps (fun u : State => u.desc p) (fun s _ => s.dramBad (keyDie k) none [])
    (fun s _ => State.dramBad_desc hp ..) (s.partBad k l.length) s
  fun_cases State.putParts s k l State.putMem
  case case1 => exact hbad
  case case2 => exact hbad

theorem State.reelStore_desc (s : State) (q : Nat) (r : Reel) (o : Nat) (l : List Byte) (hq : q < 4) :
    (s.reelStore q r o l).desc p = s.desc p := by
  fun_cases State.reelStore s q r o l
  case case1 => exact State.putParts_putMem_desc hp ..
  case case2 => exact State.odSet_desc hp _ _ _ _ (by omega)

theorem State.reelPut_desc (s : State) (q t n : Nat) (l : List Nat) (hq : q < 4) :
    (s.reelPut q t n l).desc p = s.desc p := by
  have hset (u : State) (j v : Nat) (hj : j < 256) : (u.odSet (0x2034 + q) j v).desc p = u.desc p :=
    State.odSet_desc hp _ _ _ _ (by omega)
  have hstore (r : Reel) (o : Nat) (l : List Byte) := State.reelStore_desc hp s q r o l hq
  unfold State.reelPut
  extract_lets r w bytes w' kept gone rd lostNow s1 s2 s3 tell s4
  have h2 : s2.desc p = s.desc p := (hset _ _ _ (by omega)).trans (hstore ..)
  have h3 : s3.desc p = s.desc p := by
    unfold s3
    split
    · exact h2
    · exact (hset _ _ _ (by omega)).trans ((hset _ _ _ (by omega)).trans h2)
  split
  · exact (State.event_desc hp ..).trans h3
  · exact h3

theorem State.reelWrite_desc (s : State) (q t n : Nat) (l : List Nat) (hq : q < 4) :
    (s.reelWrite q t n l).desc p = s.desc p := by
  unfold State.reelWrite
  dsimp only
  rw [State.reelPut_desc hp _ _ _ _ _ hq]
  split
  · rfl
  · exact State.reelPut_desc hp _ _ _ _ _ hq

theorem State.reel_desc (s : State) (q t n : Nat) (l : List Nat) (hq : q < 4) :
    (s.reel q t n l).desc p = s.desc p := by
  have hset (u : State) (j v : Nat) (hj : j < 256) : (u.odSet (0x2034 + q) j v).desc p = u.desc p :=
    State.odSet_desc hp _ _ _ _ (by omega)
  have hw (u : State) (t n : Nat) (l : List Nat) := State.reelWrite_desc hp u q t n l hq
  fun_cases State.reel s q t n l
  case case1 => rfl
  case case2 => exact hw ..
  case case3 r _ _ _ _ _ u =>
    have hu : u.desc p = s.desc p := by
      unfold u
      split
      · rfl
      · have hv := hw s 0x0E 2 [r.dropped]
        dsimp only
        generalize s.reelWrite q 0x0E 2 [r.dropped] = v at hv ⊢
        exact (State.desc_of_eq (s := v) rfl rfl p).trans hv
    rw [hw, hu]
  case case4 v u _ =>
    have hu : u.desc p = s.desc p := hset s 3 _ (by omega)
    rw [State.event_desc hp, hu]
  case case5 => exact hset s 3 _ (by omega)
end

theorem State.partHarts_of_eq {s u : State} {p : Nat} (hd : u.desc p = s.desc p) (hc : u.cfg = s.cfg) :
    u.partHarts p = s.partHarts p := by
  simp [State.partHarts, hd, hc]

/-- A store by address whose place has no line in error is the store at that place. -/
theorem State.storePa_eq_store {s : State} {pa k : Nat} {l : List Byte} (hk : s.key? pa = some k)
    (hb : s.partBad k l.length = []) (hl : l ≠ []) : s.storePa pa l = s.store k l := by
  simp [State.storePa, hk, State.putParts, hb, hl]

/-! ### The commands -/

theorem State.bare_self (s : State) : s.bare s = s := rfl

theorem State.setHost_frame (s : State) (x : HostIf) : { (s.setHost x).bare s with host := s.host } = s := rfl

theorem State.backInvalidate_of_held_nil {s : State} (h : s.host.held = []) (pa n : Nat) :
    s.backInvalidate pa n = (s, false) := by
  simp [State.backInvalidate, State.snoopFor, h]

/-- The event HOST_RELEASE_REJECT adds one to its count, and every other object, and all but the record of the event,
stays as it was. -/
theorem State.hostReject (s : State) (p : Nat) :
    let u := s.event 0x1104 (ofPart p) []
    u.odGet 0xB111 4 = s.odGet 0xB111 4 + 1 ∧ s.ObjectsKept u ∧ u.unsaid s = s := by
  refine ⟨State.event_count .., fun idx sub hsub hidx => State.event_odGet _ _ _ _ _ _ ?_ ?_, ?_⟩
  · unfold odKey
    omega
  · unfold odKey
    omega
  · apply State.eq_of_fields <;> simp [State.unsaid, State.bare]

/-- The bits of win_pend after a write: those written 1 and not set in this cycle are cleared. -/
def State.winPendAfter (s : State) (p : Nat) (v : BitVec 64) : BitVec 64 :=
  let gone := (maskBits 64 v.toNat).filter fun w => decide (fmGet s.host.winPendAt (64 * p + w) (s.now + 1) ≠ s.now)
  BitVec.ofNat 64 (gone.foldl (fun x w => setBit x w false) (fmGet s.host.winPend p 0).toNat)

/-- A bit set at the present time reads so, whatever stands for a bit never set. -/
theorem fmGet_succ_eq_iff (m : Fm Nat) (k t : Nat) : fmGet m k (t + 1) = t ↔ fmGet? m k = some t := by
  unfold fmGet
  cases fmGet? m k <;> simp

theorem State.bit_winPendAfter (s : State) (p : Nat) (v : BitVec 64) {w : Nat} (hw : w < 64) :
    bit (s.winPendAfter p v).toNat w = (bit (fmGet s.host.winPend p 0).toNat w &&
      (!bit v.toNat w || decide (fmGet? s.host.winPendAt (64 * p + w) = some s.now))) := by
  rw [State.winPendAfter, bit_ofNat_toNat hw, bit_foldl_setBit_false]
  simp only [List.mem_filter, mem_maskBits, hw, true_and, decide_eq_true_eq, ne_eq, fmGet_succ_eq_iff]
  cases bit v.toNat w <;> simp

/-- The state a write of win_pend leaves. -/
def State.clearWinPend (s : State) (p : Nat) (v : BitVec 64) : State :=
  s.setHost { s.host with winPend := fmSet s.host.winPend p (s.winPendAfter p v) }

theorem State.clearWinPend_same (s : State) (p : Nat) (v : BitVec 64) :
    fmGet (s.clearWinPend p v).host.winPend p 0 = s.winPendAfter p v := fmGet_fmSet_same ..

theorem State.clearWinPend_other (s : State) {p r : Nat} (v : BitVec 64) (h : r ≠ p) :
    fmGet? (s.clearWinPend p v).host.winPend r = fmGet? s.host.winPend r := fmGet?_fmSet_other _ _ _ _ h

theorem State.clearWinPend_frame (s : State) (p : Nat) (v : BitVec 64) :
    { (s.clearWinPend p v).bare s with host := { (s.clearWinPend p v).host with winPend := s.host.winPend } } = s := rfl

section
variable {t : Nat} {p : PartIdx} {s : State}

theorem execWinPendClear_of_not_linked {v : BitVec 64} (h : (s.arrive t).linked = false) :
    execWinPendClear t p v s = .next (s.arrive t) := by
  simp [execWinPendClear, h]

theorem execWinPendClear_of_linked {v : BitVec 64} (h : (s.arrive t).linked = true) :
    execWinPendClear t p v s = .next ((s.arrive t).clearWinPend p.val v) := by
  simp [execWinPendClear, h, State.clearWinPend, State.winPendAfter]

theorem execWinReleaseWrite_of_not_linked {v : BitVec 64} (h : (s.arrive t).linked = false) :
    execWinReleaseWrite t p v s = .next (s.arrive t) := by
  simp [execWinReleaseWrite, h]

/-- A write of one bit asks for the release of that window. -/
theorem execWinReleaseWrite_two_pow {w : Nat} (h : (s.arrive t).linked = true) (hw : w < 64) :
    execWinReleaseWrite t p (BitVec.ofNat 64 (2 ^ w)) s = .next ((s.arrive t).releaseBit p.val w) := by
  have hv : (BitVec.ofNat 64 (2 ^ w)).toNat = 2 ^ w := by
    rw [BitVec.toNat_ofNat, Nat.mod_eq_of_lt (Nat.pow_lt_pow_right (by omega) hw)]
  simp only [execWinReleaseWrite, h, hv, maskBits_two_pow hw, if_true, List.foldl_cons, List.foldl_nil]

theorem execHostDoorbellWrite_of_not_linked {v : BitVec 64} (h : (s.arrive t).linked = false) :
    execHostDoorbellWrite t p v s = .next (s.arrive t) := by
  simp [execHostDoorbellWrite, h]

end

theorem State.releaseBit_of_releasable {s : State} {p w b : Nat} {d : WinDesc} {bs : List Nat}
    (hd : s.windowDesc p w = some d) (hb : s.releasable p w = b :: bs) (hh : s.host.held = []) :
    s.releaseBit p w = s.setHost { s.host with releases := s.host.releases ++ [(p, w, b)] } := by
  simp only [State.releaseBit, hd, hb]
  rw [State.backInvalidate_of_held_nil]
  exact hh

theorem State.releaseBit_of_none {s : State} {p w : Nat} (h : s.windowDesc p w = none ∨ s.releasable p w = []) :
    s.releaseBit p w = s.event 0x1104 (ofPart p) [] := by
  unfold State.releaseBit
  rcases h with h | h
  · simp [h]
  · rw [h]
    cases s.windowDesc p w <;> rfl

/-- The release of buffer b of a window is over, in the state and in what a rollback returns to. -/
def State.endRelease (s : State) (p w b : Nat) : State :=
  let u := s.setHost { s.host with releases := s.host.releases.erase (p, w, b) }
  let y := u.win p w
  let v := u.setWin p w { y with queue := markReleased b y.queue }
  v.setPart p { v.part p with
    winsCommit := (v.part p).winsCommit.modify w fun y => { y with queue := markReleased b y.queue } }

theorem execHostReleaseDone_of_none {t : Nat} {p : PartIdx} {w : Fin 64} {s : State}
    (h : ((s.arrive t).host.releases.find? fun r => r.1 == p.val && r.2.1 == w.val) = none) :
    execHostReleaseDone t p w s = .next (s.arrive t) := by
  simp only [execHostReleaseDone, h]

theorem execHostReleaseDone_of_some {t b : Nat} {p : PartIdx} {w : Fin 64} {d : WinDesc} {s : State}
    (h : ((s.arrive t).host.releases.find? fun r => r.1 == p.val && r.2.1 == w.val) = some (p.val, w.val, b))
    (hh : (s.arrive t).host.held = []) (hd : (s.arrive t).windowDesc p.val w.val = some d) :
    execHostReleaseDone t p w s = .next ((s.arrive t).endRelease p.val w.val b) := by
  simp only [execHostReleaseDone, h, hd, State.backInvalidate_of_held_nil hh]
  rfl

@[simp] theorem State.part_setPart_same (s : State) (p : Nat) (x : Part) : (s.setPart p x).part p = x := by
  simp [State.part, State.setPart]

theorem State.part_setPart_other (s : State) {p r : Nat} (x : Part) (h : r ≠ p) :
    (s.setPart p x).part r = s.part r := by
  simp [State.part, State.setPart, fmGet_fmSet_other _ _ _ _ _ h]

/-- Also of a window that is not there: both queues are then empty. -/
theorem State.setWin_queue (s : State) (p w b : Nat) :
    ((s.setWin p w { s.win p w with queue := markReleased b (s.win p w).queue }).win p w).queue =
      markReleased b (s.win p w).queue := by
  simp only [State.setWin, State.win, nth, State.part_setPart_same]
  by_cases hw : w < (s.part p).wins.length
  · simp [List.getD, hw]
  · simp [List.getD, hw, markReleased]

theorem State.endRelease_queue (s : State) (p w b : Nat) :
    ((s.endRelease p w b).win p w).queue = markReleased b (s.win p w).queue := by
  unfold State.endRelease
  refine Eq.trans ?_ ((s.setHost { s.host with releases := s.host.releases.erase (p, w, b) }).setWin_queue p w b)
  simp [State.win]

theorem State.endRelease_host (s : State) (p w b : Nat) :
    (s.endRelease p w b).host = { s.host with releases := s.host.releases.erase (p, w, b) } := rfl

theorem State.endRelease_frame (s : State) (p w b : Nat) :
    { (s.endRelease p w b).bare s with host := s.host, parts := s.parts } = s := by
  simp [State.bare, State.endRelease, State.setHost, State.setWin, State.setPart]

theorem State.endRelease_part_other (s : State) {p r : Nat} (w b : Nat) (h : r ≠ p) :
    (s.endRelease p w b).part r = s.part r :=
  (State.part_setPart_other _ _ h).trans (State.part_setPart_other _ _ h)

/-- The state a doorbell leaves when its ring lies in the partition's regions. -/
def State.doorbell (s : State) (p v : Nat) : State :=
  let n := s.odGet (0x110C + p) 0
  ((s.storePa (s.odGet (0x1108 + p) 0 + 16 * (n % 64)) (bytesOfWords [v, s.cad.tick.toNat])).odSet (0x110C + p) 0
    (n + 1)).raiseIrqPart 19 p

theorem execHostDoorbellWrite_of_inRegions {t : Nat} {p : PartIdx} {v : BitVec 64} {s : State}
    (h : (s.arrive t).linked = true) (hr : ((s.arrive t).reel p.val 5 2 [v.toNat]).inRegions p.val
      (((s.arrive t).reel p.val 5 2 [v.toNat]).odGet (0x1108 + p.val) 0) 1024 = true) :
    execHostDoorbellWrite t p v s = .next (((s.arrive t).reel p.val 5 2 [v.toNat]).doorbell p.val v.toNat) := by
  simp [execHostDoorbellWrite, h, hr, State.doorbell]

theorem execHostDoorbellWrite_of_not_inRegions {t : Nat} {p : PartIdx} {v : BitVec 64} {s : State}
    (h : (s.arrive t).linked = true) (hr : ((s.arrive t).reel p.val 5 2 [v.toNat]).inRegions p.val
      (((s.arrive t).reel p.val 5 2 [v.toNat]).odGet (0x1108 + p.val) 0) 1024 = false) :
    execHostDoorbellWrite t p v s = .next (((s.arrive t).reel p.val 5 2 [v.toNat]).event 0x1104 (ofPart p.val) []) := by
  simp [execHostDoorbellWrite, h, hr]

theorem length_bytesOfWords_pair (a b : Nat) : (bytesOfWords [a, b]).length = 16 := rfl

theorem State.doorbell_partHarts (s : State) {p : Nat} (hp : p < 4) (k v : Nat) (l : List Byte) :
    ((s.store k l).odSet (0x110C + p) 0 v).partHarts p = s.partHarts p :=
  State.partHarts_of_eq ((State.odSet_desc hp _ _ _ _ (by omega)).trans (State.store_desc hp ..)) (by simp)

section
variable {s : State} {p v k : Nat} (hk : s.key? (s.odGet (0x1108 + p) 0 + 16 * (s.odGet (0x110C + p) 0 % 64)) = some k)
  (hb : s.partBad k 16 = [])
include hk hb

theorem State.doorbell_eq : s.doorbell p v =
    ((s.store k (bytesOfWords [v, s.cad.tick.toNat])).odSet (0x110C + p) 0
      (s.odGet (0x110C + p) 0 + 1)).raiseIrqPart 19 p := by
  unfold State.doorbell
  dsimp only
  rw [State.storePa_eq_store hk (by rwa [length_bytesOfWords_pair]) (by simp [bytesOfWords, bytesOf])]

theorem State.doorbell_count : (s.doorbell p v).odGet (0x110C + p) 0 = s.odGet (0x110C + p) 0 + 1 := by
  rw [State.doorbell_eq hk hb]
  simp [State.odGet, State.odSet]

theorem State.doorbell_mem : (s.doorbell p v).mem = Mem.writeN s.mem k (bytesOfWords [v, s.cad.tick.toNat]) := by
  rw [State.doorbell_eq hk hb]
  simp [State.store_mem]

/-- Each hart of the partition that enables interrupt 19 has it pending. -/
theorem State.doorbell_mip (hp : p < 4) {h : Nat} (hh : h ∈ s.partHarts p) (he : bit (s.hart h).mie.toNat 19 = true) :
    bit ((s.doorbell p v).hart h).mip.toNat 19 = true := by
  rw [State.doorbell_eq hk hb]
  refine State.raiseIrqPart_mip _ (by omega) ?_ ?_
  · rwa [State.doorbell_partHarts s hp]
  · rwa [State.hart_of_harts (s := s) (by simp)]

theorem State.doorbell_hart_other (hp : p < 4) {h : Nat} (hh : h ∉ s.partHarts p) :
    (s.doorbell p v).hart h = s.hart h := by
  rw [State.doorbell_eq hk hb, State.raiseIrqPart_hart_other]
  · exact State.hart_of_harts (by simp) h
  · rwa [State.doorbell_partHarts s hp]
end

/-- Settles O57: each clause by the equation of its command in that case, and the lemma about the state it leaves. -/
theorem hostWindowsAndDoorbells : Obligations.HostWindowsAndDoorbells := by
  intro t p r0
  refine ⟨fun hl v => ⟨?_, ?_, ?_⟩, fun hl => ⟨fun v => ?_, fun w d b bs hw hd hb hh => ?_, fun w hw h => ?_, fun v =>
    ⟨fun hr => ?_, fun k hr hk hb hm => ?_⟩⟩, fun w => ⟨fun h => ?_, fun b d h hh hd => ?_⟩⟩
  · exact ⟨_, execWinPendClear_of_not_linked hl, State.bare_self _⟩
  · exact ⟨_, execWinReleaseWrite_of_not_linked hl, State.bare_self _⟩
  · exact ⟨_, execHostDoorbellWrite_of_not_linked hl, State.bare_self _⟩
  · refine ⟨_, execWinPendClear_of_linked hl, fun w hw => ?_, fun r hr => State.clearWinPend_other _ _ hr,
      State.clearWinPend_frame ..⟩
    rw [State.clearWinPend_same, State.bit_winPendAfter _ _ _ hw]
  · exact ⟨_, (execWinReleaseWrite_two_pow hl hw).trans (congrArg _ (State.releaseBit_of_releasable hd hb hh)), rfl,
      State.setHost_frame ..⟩
  · exact ⟨_, (execWinReleaseWrite_two_pow hl hw).trans (congrArg _ (State.releaseBit_of_none h)),
      State.hostReject ..⟩
  · obtain ⟨hcount, hkept, -⟩ := State.hostReject ((r0.arrive t).reel p.val 5 2 [v.toNat]) p.val
    exact ⟨_, execHostDoorbellWrite_of_not_inRegions hl hr, hcount, hkept _ _ (by omega) (by omega),
      State.event_mem .., State.event_harts ..⟩
  · have hparts := State.partHarts_of_eq (State.reel_desc p.isLt (r0.arrive t) p.val 5 2 [v.toNat] p.isLt)
      (State.reel_cfg ..)
    have hharts := State.hart_of_harts ((r0.arrive t).reel_harts p.val 5 2 [v.toNat])
    refine ⟨_, execHostDoorbellWrite_of_inRegions hl hr, State.doorbell_count hk hb, ?_, fun b hout => ?_,
      fun h hh he => ?_, fun h hh => ?_⟩
    · rw [State.doorbell_mem hk hb]
      exact Mem.readN_writeN _ _ _ hm
    · rw [State.doorbell_mem hk hb]
      exact Mem.read_writeN_outside _ _ _ _ hm hout
    · exact State.doorbell_mip hk hb p.isLt (by rwa [hparts]) (by rwa [hharts])
    · exact (State.doorbell_hart_other hk hb p.isLt (by rwa [hparts])).trans (hharts h)
  · exact ⟨_, execHostReleaseDone_of_none h, State.bare_self _⟩
  · exact ⟨_, execHostReleaseDone_of_some h hh hd, State.endRelease_host .., State.endRelease_queue ..,
      fun r hr => State.endRelease_part_other _ _ _ hr, State.endRelease_frame ..⟩

end Sys2Proof.Machine
end

section
namespace Sys2Proof.Machine

/-! ## Reset (O5) -/

/-- Settles O5: every field named has its default. -/
theorem resetState : Obligations.ResetState :=
  ⟨rfl, rfl, rfl, rfl, rfl, rfl, fun _ => rfl, rfl, rfl, rfl, rfl⟩

end Sys2Proof.Machine
end

section
namespace Sys2Proof.Machine

/-! ## Health of the cadence sources (O7, O8)

Whatever a source does, only the cadence unit and the record of an event change. So each row comes down to what it makes of
its source's own registers, and to what following the selection leaves alone. -/

/-! ### What changes only the cadence unit -/

/-- Nothing changes but the cadence unit and what raising an event changes. -/
def State.CadenceFrame (s u : State) : Prop := { u.unsaid s with cad := s.cad } = s

theorem State.CadenceFrame.trans {s t u : State} (h : s.CadenceFrame t) (h' : t.CadenceFrame u) : s.CadenceFrame u := by
  unfold State.CadenceFrame at *
  rw [← h, ← h']
  rfl

theorem State.setCad_cadenceFrame (s : State) (c : Cadence) : s.CadenceFrame (s.setCad c) := rfl

theorem State.odSet_cadenceFrame (s : State) (i j v : Nat) : s.CadenceFrame (s.odSet i j v) := rfl

/-- Every object but event records keeps its value, and nothing else changes but the cadence unit and what raising an event
changes. -/
def State.CadenceOnly (s u : State) : Prop := s.ObjectsKept u ∧ s.CadenceFrame u

theorem State.CadenceOnly.trans {s t u : State} (h : s.CadenceOnly t) (h' : t.CadenceOnly u) : s.CadenceOnly u := by
  obtain ⟨ho, hf⟩ := h
  obtain ⟨ho', hf'⟩ := h'
  exact ⟨fun i j hj hi => (ho' i j hj hi).trans (ho i j hj hi), hf.trans hf'⟩

theorem State.CadenceOnly.refl (s : State) : s.CadenceOnly s := ⟨fun _ _ _ _ => rfl, rfl⟩

theorem State.setCad_cadenceOnly (s : State) (c : Cadence) : s.CadenceOnly (s.setCad c) := ⟨fun _ _ _ _ => rfl, rfl⟩

/-- Raising an event leaves every object but the event counters and flags. -/
theorem State.event_objectsKept (s : State) (c : Nat) (w : EvWho) (d : List EvField) (hc : c < 65536) :
    s.ObjectsKept (s.event c w d) := fun i j hj hi =>
  State.event_odGet _ _ _ _ _ _ (by unfold odKey; omega) (by unfold odKey; omega)

theorem State.event_cadenceOnly (s : State) (c : Nat) (w : EvWho) (d : List EvField) (hc : c < 65536) :
    s.CadenceOnly (s.event c w d) :=
  ⟨s.event_objectsKept c w d hc, by apply State.eq_of_fields <;> simp [State.unsaid, State.bare]⟩

theorem State.acquire_cadenceOnly (s : State) (b : CadSource) : s.CadenceOnly (s.acquire b) := s.setCad_cadenceOnly _

theorem State.selectSource_cadenceOnly (s : State) : s.CadenceOnly s.selectSource := by
  fun_cases State.selectSource s
  case case1 => exact .refl s
  case case2 => exact (s.setCad_cadenceOnly _).trans (State.event_cadenceOnly _ _ _ _ (by omega))
  case case3 => exact s.setCad_cadenceOnly _
  case case4 => exact s.acquire_cadenceOnly _
  case case5 => exact (s.acquire_cadenceOnly _).trans (State.event_cadenceOnly _ _ _ _ (by omega))

/-! ### What following the selection leaves of the cadence unit -/

@[simp] theorem State.cad_setCad (s : State) (c : Cadence) : (s.setCad c).cad = c := rfl

/-- Following the selection leaves the counter, the sources' own registers and who is master as they were. -/
theorem State.selectSource_cad_frame (s : State) :
    { s.selectSource.cad with
      tickStart := s.cad.tickStart, tickLen := s.cad.tickLen, holdLen := s.cad.holdLen, state := s.cad.state
      source := s.cad.source, lastSource := s.cad.lastSource, lockCount := s.cad.lockCount, freeRun := s.cad.freeRun
      holdSince := s.cad.holdSince, holdRaised := s.cad.holdRaised } = s.cad := by
  fun_cases State.selectSource s
  case case4 | case5 => cases h : s.cad.everLocked <;> simp [State.acquire, h] <;> rw [← h]
  all_goals simp +zetaDelta

section
variable (s : State)

@[simp] theorem State.selectSource_tick : s.selectSource.cad.tick = s.cad.tick :=
  (congrArg Cadence.tick s.selectSource_cad_frame :)

@[simp] theorem State.selectSource_everLocked : s.selectSource.cad.everLocked = s.cad.everLocked :=
  (congrArg Cadence.everLocked s.selectSource_cad_frame :)

@[simp] theorem State.selectSource_pps : s.selectSource.cad.pps = s.cad.pps :=
  (congrArg Cadence.pps s.selectSource_cad_frame :)

@[simp] theorem State.selectSource_treadle : s.selectSource.cad.treadle = s.cad.treadle :=
  (congrArg Cadence.treadle s.selectSource_cad_frame :)

@[simp] theorem State.selectSource_inBand : s.selectSource.cad.inBand = s.cad.inBand :=
  (congrArg Cadence.inBand s.selectSource_cad_frame :)

@[simp] theorem State.selectSource_masterFx1 : s.selectSource.cad.masterFx1 = s.cad.masterFx1 :=
  (congrArg Cadence.masterFx1 s.selectSource_cad_frame :)

@[simp] theorem State.selectSource_standbyReady : s.selectSource.cad.standbyReady = s.cad.standbyReady :=
  (congrArg Cadence.standbyReady s.selectSource_cad_frame :)
end

end Sys2Proof.Machine
end

section
namespace Sys2Proof.Machine

/-! ## CAD_1PPS and CAD_REF10M (O7) -/

/-- One more count reaches the 16 that a healthy source needs exactly when 15 have come. -/
theorem min_succ_beq_sixteen (n : Nat) : (min 16 (n + 1) == 16) = decide (15 ≤ n) := by
  rw [Bool.beq_eq_decide_eq]
  exact decide_eq_decide.2 (by omega)

/-- CAD_1PPS has health q from now on, and the selection follows: what each of the four rows comes down to. -/
def State.withPps (s : State) (q : PpsIn) : State := (s.setCad { s.cad with pps := q }).selectSource

@[simp] theorem State.withPps_pps (s : State) (q : PpsIn) : (s.withPps q).cad.pps = q := by simp [State.withPps]

/-- A change of the source's health keeps the counter and the objects, and all that is not the cadence unit's. -/
theorem State.withPps_kept (s : State) (q : PpsIn) : let u := s.withPps q
    u.cad.tick = s.cad.tick ∧ s.ObjectsKept u ∧ { u.unsaid s with cad := s.cad } = s :=
  ⟨by simp [State.withPps], (s.setCad_cadenceOnly _).trans (State.selectSource_cadenceOnly _)⟩

theorem State.withPps_unhealthy (s : State) {q : PpsIn} (hg : q.good = 0) (hq : q.healthy = false) :
    let u := s.withPps q
    u.cad.pps.good = 0 ∧ u.cad.pps.healthy = false ∧ u.sourceHealthy .pps = false ∧ u.cad.tick = s.cad.tick ∧
    s.ObjectsKept u ∧ { u.unsaid s with cad := s.cad } = s := by
  refine ⟨by simpa, by simpa, ?_, s.withPps_kept q⟩
  simp [State.sourceHealthy, hq]

section
variable {q : PpsIn} {now x : Nat}

theorem PpsIn.edge_in_range (hx : q.last = some x) (h1 : unitsPerSec - unitsPerMs ≤ now - x)
    (h2 : now - x ≤ unitsPerSec + unitsPerMs) :
    q.edge now true = ⟨some now, min 16 (q.good + 1), q.healthy || decide (15 ≤ q.good), true⟩ := by
  simp only [PpsIn.edge, hx, not_lt.2 h1, not_lt.2 h2]
  simp [min_succ_beq_sixteen]

theorem PpsIn.edge_early (hx : q.last = some x) (h : now - x < unitsPerSec - unitsPerMs) :
    q.edge now true = ⟨some now, 0, q.healthy, true⟩ := by
  have h2 : ¬ unitsPerSec + unitsPerMs < now - x := by omega
  simp [PpsIn.edge, hx, h, h2]

theorem PpsIn.edge_late (hx : q.last = some x) (h : unitsPerSec + unitsPerMs < now - x) :
    (q.edge now true).good = 0 ∧ (q.edge now true).healthy = false := by
  simp [PpsIn.edge, hx, h]

theorem PpsIn.edge_out_of_range (q : PpsIn) (now : Nat) :
    (q.edge now false).good = 0 ∧ (q.edge now false).healthy = false := by
  simp [PpsIn.edge]

@[simp] theorem PpsIn.edge_last (q : PpsIn) (now : Nat) (ok : Bool) : (q.edge now ok).last = some now := rfl
end

section
variable {t : Nat} {s : State}

theorem execCad1ppsEdge_of_wide {w : Nat} (ok : Bool) (h : 500 ≤ w) : exec (.cad1ppsEdge t w ok) s =
    .next ((s.arrive t).withPps ((s.arrive t).cad.pps.edge (s.arrive t).now ok)) :=
  if_neg (not_lt.2 h)

theorem execCad1ppsEdge_of_short {w : Nat} (ok : Bool) (h : w < 500) :
    exec (.cad1ppsEdge t w ok) s = .next (s.arrive t) := if_pos h

theorem execCad1ppsTimeout_of_overdue {x : Nat} (hx : (s.arrive t).cad.pps.last = some x)
    (h : unitsPerSec + unitsPerMs ≤ (s.arrive t).now - x) : exec (.cad1ppsTimeout t) s =
    .next ((s.arrive t).withPps { (s.arrive t).cad.pps with good := 0, healthy := false }) := by
  simp only [exec, execCad1ppsTimeout, hx, h, decide_true, if_pos]
  rfl

theorem execCad1ppsTimeout_of_early {x : Nat} (hx : (s.arrive t).cad.pps.last = some x)
    (h : (s.arrive t).now - x < unitsPerSec + unitsPerMs) : exec (.cad1ppsTimeout t) s = .next (s.arrive t) := by
  simp [exec, execCad1ppsTimeout, hx, h, -State.arrive_now]

theorem State.ref10mBad_eq (s : State) :
    s.ref10mBad = s.withPps { s.cad.pps with ref10m := false, good := 0, healthy := false } := rfl
end

/-- Settles O7: each row by the health it gives the source, and what a change of health leaves alone. -/
theorem ppsSourceHealth : Obligations.PpsSourceHealth := by
  intro t r0 s kept unhealthy
  have hbad : (s.ref10mBad).cad.pps.ref10m = false ∧ unhealthy s.ref10mBad := by
    rw [State.ref10mBad_eq]
    exact ⟨by simp, s.withPps_unhealthy rfl rfl⟩
  refine ⟨fun w x hw hx => ⟨fun h1 h2 => ?_, fun h => ?_, fun h => ?_⟩, fun w hw => ?_, fun w ok hw => ?_,
    fun x hx h => ?_, fun x hx h => ?_, ⟨_, rfl, hbad⟩, ⟨_, rfl, hbad⟩⟩
  · exact ⟨_, execCad1ppsEdge_of_wide _ hw, by rw [State.withPps_pps, PpsIn.edge_in_range hx h1 h2],
      s.withPps_kept _⟩
  · exact ⟨_, execCad1ppsEdge_of_wide _ hw, by rw [State.withPps_pps, PpsIn.edge_early hx h], s.withPps_kept _⟩
  · obtain ⟨hg, hq⟩ := PpsIn.edge_late hx h
    exact ⟨_, execCad1ppsEdge_of_wide _ hw, by simp [s], s.withPps_unhealthy hg hq⟩
  · obtain ⟨hg, hq⟩ := PpsIn.edge_out_of_range s.cad.pps s.now
    exact ⟨_, execCad1ppsEdge_of_wide _ hw, by simp [s], s.withPps_unhealthy hg hq⟩
  · exact execCad1ppsEdge_of_short _ hw
  · exact ⟨_, execCad1ppsTimeout_of_overdue hx h, by simpa using hx, s.withPps_unhealthy rfl rfl⟩
  · exact execCad1ppsTimeout_of_early hx h

end Sys2Proof.Machine
end

section
namespace Sys2Proof.Machine

/-! ## The treadle source (O8) -/

/-- The treadle source has these registers from now on, and the selection follows. -/
def State.withTreadle (s : State) (q : TreadleIn) : State := (s.setCad { s.cad with treadle := q }).selectSource

@[simp] theorem State.withTreadle_treadle (s : State) (q : TreadleIn) : (s.withTreadle q).cad.treadle = q := by
  simp [State.withTreadle]

@[simp] theorem State.withTreadle_tick (s : State) (q : TreadleIn) : (s.withTreadle q).cad.tick = s.cad.tick := by
  simp [State.withTreadle]

@[simp] theorem State.treadleBad_treadle (s : State) :
    s.treadleBad.cad.treadle = { s.cad.treadle with good := 0, inRange := false, healthy := false } := by
  unfold State.treadleBad
  dsimp only
  split <;> simp

@[simp] theorem State.treadleBad_tick (s : State) : s.treadleBad.cad.tick = s.cad.tick := by
  unfold State.treadleBad
  dsimp only
  split <;> simp

theorem State.treadleBad_sourceHealthy (s : State) : s.treadleBad.sourceHealthy .treadle = false := by
  simp [State.sourceHealthy]

theorem State.treadleBad_cadenceOnly (s : State) : s.CadenceOnly s.treadleBad := by
  unfold State.treadleBad
  dsimp only
  split
  · exact (s.setCad_cadenceOnly _).trans ((State.event_cadenceOnly _ _ _ _ (by omega)).trans
      (State.selectSource_cadenceOnly _))
  · exact (s.setCad_cadenceOnly _).trans (State.selectSource_cadenceOnly _)

/-- The measured period stands in its object and, where the source is enabled, in the reels. -/
def State.measured (s : State) (period : Nat) : State :=
  let p10 := (2 * period + unitsPer10ns) / (2 * unitsPer10ns)
  let u := (s.odSet 0x2002 3 (min p10 0xFFFFFFFF)).setCad
    { s.cad with treadle := { s.cad.treadle with last := some s.now, period := period } }
  if bit (s.odGet 0x2001 1) 2 then u.reelAll 3 2 [min p10 0xFFFFFFFF] else u

@[simp] theorem State.measured_cad (s : State) (period : Nat) : (s.measured period).cad =
    { s.cad with treadle := { s.cad.treadle with last := some s.now, period := period } } := by
  unfold State.measured
  dsimp only
  split <;> simp

@[simp] theorem State.measured_now (s : State) (period : Nat) : (s.measured period).now = s.now := by
  unfold State.measured
  dsimp only
  split <;> simp [State.setCad, State.odSet]

section
variable {t w x : Nat} {f : Bool} {s : State}

theorem execTreadleEdge_of_ignored (h : w < 500 ∨ (s.arrive t).odGet 0x2001 3 ≠ b2n f) :
    exec (.treadleEdge t f w) s = .next (s.arrive t) := if_pos h

theorem execTreadleEdge_first (hw : 500 ≤ w) (hf : (s.arrive t).odGet 0x2001 3 = b2n f)
    (hx : (s.arrive t).cad.treadle.last = none) : ∃ u, exec (.treadleEdge t f w) s = .next u ∧ u.cad =
      { (s.arrive t).cad with treadle := { (s.arrive t).cad.treadle with last := some (s.arrive t).now } } := by
  refine ⟨_, (if_neg (by simp [hf, hw])).trans (by rw [hx]), ?_⟩
  split <;> simp

/-- A later selected edge is judged by the period since the one before. -/
theorem execTreadleEdge_later (hw : 500 ≤ w) (hf : (s.arrive t).odGet 0x2001 3 = b2n f)
    (hx : (s.arrive t).cad.treadle.last = some x) : exec (.treadleEdge t f w) s = .next (
      let r := s.arrive t
      let q := r.cad.treadle
      let period := r.now - x
      let n := min 16 (q.good + 1)
      if 95 * r.treadleNominal ≤ 100 * period ∧ 100 * period ≤ 105 * r.treadleNominal then
        (r.measured period).withTreadle ⟨some r.now, period, n, true, q.healthy || n == 16⟩
      else (r.measured period).treadleBad) := by
  refine (if_neg (by simp [hf, hw])).trans ?_
  rw [hx]
  simp only [Bool.and_eq_true, decide_eq_true_eq]
  split
  · simp only [State.withTreadle, State.measured]
    split <;> simp
  · rfl

theorem execTreadleTimeout_of_overdue (hx : (s.arrive t).cad.treadle.last = some x)
    (h : 105 * (s.arrive t).treadleNominal ≤ 100 * ((s.arrive t).now - x)) :
    exec (.treadleTimeout t) s = .next (s.arrive t).treadleBad := by
  simp [exec, execTreadleTimeout, hx, h, -State.arrive_now]

theorem execTreadleTimeout_of_early (hx : (s.arrive t).cad.treadle.last = some x)
    (h : 100 * ((s.arrive t).now - x) < 105 * (s.arrive t).treadleNominal) :
    exec (.treadleTimeout t) s = .next (s.arrive t) := by
  simp [exec, execTreadleTimeout, hx, h, -State.arrive_now]
end

/-- Settles O8: each row by its equation in that case. -/
theorem treadleHealth : Obligations.TreadleHealth := by
  intro t r0 s
  refine ⟨fun f w h => execTreadleEdge_of_ignored h, fun f w hw hf hx => execTreadleEdge_first hw hf hx,
    fun x hx => ⟨fun f w hw hf h1 h2 => ?_, fun f w hw hf h => ?_, fun h => ?_, execTreadleTimeout_of_early hx⟩⟩
  · refine ⟨_, (execTreadleEdge_later hw hf hx).trans (congrArg _ (if_pos ⟨h1, h2⟩)), ?_, by simp [s]⟩
    rw [State.withTreadle_treadle, min_succ_beq_sixteen]
  · refine ⟨_, (execTreadleEdge_later hw hf hx).trans (congrArg _ (if_neg ?_)), by simp [s],
      State.treadleBad_sourceHealthy _, by simp [s]⟩
    rintro ⟨h1, h2⟩
    exact h.elim (not_lt.2 h1) (not_lt.2 h2)
  · obtain ⟨ho, hf⟩ := s.treadleBad_cadenceOnly
    exact ⟨_, execTreadleTimeout_of_overdue hx h, by simp, s.treadleBad_sourceHealthy, s.treadleBad_tick, ho, hf⟩

end Sys2Proof.Machine
end

section
namespace Sys2Proof.Machine

/-! ## In-band time and holdover (O9) -/

section
variable {t : Nat} {n : PortIdx} {k : PtpKind} {src : BitVec 48} {tick : BitVec 64} {per : BitVec 32} {off : Int}
  {s : State}

theorem execPtpMessage_of_not_ptpPort (h : (s.arrive t).ptpPort n.val = false) :
    exec (.ptpMessage t n k src tick per off) s = .next (s.arrive t) := if_pos (by simp [h])

theorem execPtpMessage_delayReq (h : (s.arrive t).ptpPort n.val = true) :
    exec (.ptpMessage t n .delayReq src tick per off) s = .next ((s.arrive t).send
      (.ptp n.val 3 (s.arrive t).cad.tick.toNat ((s.arrive t).odGet 0x2001 2))) := if_neg (by simp [h])

/-- A message other than Delay_Req records its port's offset, less half the asymmetry configured there. -/
def State.ptpOffset (s : State) (n : Nat) (off : Int) : Int := off - toSigned 32 (s.odGet 0x2006 (n + 1)) / 2

def State.withOffset (s : State) (n : Nat) (off : Int) : State := s.odSet 0x2007 (n + 1) (ofSigned 32 (s.ptpOffset n off))

/-- The object of one port's offset is none of the others. -/
theorem State.withOffset_odGet (s : State) (n : Nat) (off : Int) {i j : Nat} (h : odKey i j ≠ odKey 0x2007 (n + 1)) :
    (s.withOffset n off).odGet i j = s.odGet i j := State.odGet_odSet_other _ _ _ _ _ _ h

theorem State.withOffset_cadenceFrame (s : State) (n : Nat) (off : Int) : s.CadenceFrame (s.withOffset n off) :=
  s.odSet_cadenceFrame ..

theorem State.withOffset_frame (s : State) (n : Nat) (off : Int) : { s.withOffset n off with od := s.od } = s := rfl

@[simp] theorem State.withOffset_cad (s : State) (n : Nat) (off : Int) : (s.withOffset n off).cad = s.cad := rfl

/-- A message of the master is heard: its count and period, its port, and the end of a refusal. -/
def State.hearMaster (s : State) (n : Nat) (k : PtpKind) (tick per : Nat) (off : Int) : State :=
  s.setCad { s.cad with inBand := s.cad.inBand.hear s.now n tick per k s.cad.tick.toNat off }

theorem execPtpMessage_of_stranger (h : (s.arrive t).ptpPort n.val = true) (hk : k ≠ .delayReq)
    (hm : src.toNat ≠ (s.arrive t).odGet 0x2001 8 % 2 ^ 48 ∨ src.toNat = noPath) :
    exec (.ptpMessage t n k src tick per off) s = .next ((s.arrive t).withOffset n.val off) := by
  have hmaster : ((s.arrive t).withOffset n.val off).odGet 0x2001 8 = (s.arrive t).odGet 0x2001 8 :=
    State.withOffset_odGet _ _ _ (by unfold odKey; omega)
  refine (if_neg (by simp [h])).trans ?_
  cases k with
  | delayReq => exact absurd rfl hk
  | sync | followUp | delayResp =>
    refine if_pos ?_
    change _ ≠ ((s.arrive t).withOffset n.val off).odGet 0x2001 8 % 2 ^ 48 ∨
      ((s.arrive t).withOffset n.val off).odGet 0x2001 8 % 2 ^ 48 = noPath
    rw [hmaster]
    by_cases he : src.toNat = (s.arrive t).odGet 0x2001 8 % 2 ^ 48
    · exact .inr (he ▸ hm.resolve_left (not_not.2 he))
    · exact .inl he

theorem execPtpMessage_of_master (h : (s.arrive t).ptpPort n.val = true) (hk : k ≠ .delayReq)
    (hm : src.toNat = (s.arrive t).odGet 0x2001 8 % 2 ^ 48) (hp : src.toNat ≠ noPath) :
    exec (.ptpMessage t n k src tick per off) s = .next (((((s.arrive t).withOffset n.val off).hearMaster n.val k tick.toNat
      per.toNat ((s.arrive t).ptpOffset n.val off)).adoptPeriod per.toNat).selectSource) := by
  have hmaster : ((s.arrive t).withOffset n.val off).odGet 0x2001 8 = (s.arrive t).odGet 0x2001 8 :=
    State.withOffset_odGet _ _ _ (by unfold odKey; omega)
  refine (if_neg (by simp [h])).trans ?_
  cases k with
  | delayReq => exact absurd rfl hk
  | sync | followUp | delayResp =>
    refine if_neg ?_
    change ¬(_ ≠ ((s.arrive t).withOffset n.val off).odGet 0x2001 8 % 2 ^ 48 ∨
      ((s.arrive t).withOffset n.val off).odGet 0x2001 8 % 2 ^ 48 = noPath)
    rw [hmaster, ← hm]
    simp [hp]
end

@[simp] theorem State.adoptPeriod_cad (s : State) (per : Nat) : (s.adoptPeriod per).cad = s.cad := by
  unfold State.adoptPeriod
  split <;> rfl

theorem State.adoptPeriod_of_followed {s : State} {per : Nat} (he : bit (s.odGet 0x2001 1) 0 = true)
    (hr : s.cad.inBand.refused = false) (h1 : 1000 ≤ per) (h2 : per ≤ 10000000) :
    (s.adoptPeriod per).odGet 0x2001 2 = per := by
  simp [State.adoptPeriod, he, hr, h1, h2]

theorem State.adoptPeriod_odGet (s : State) (per : Nat) {i j : Nat} (h : odKey i j ≠ odKey 0x2001 2) :
    (s.adoptPeriod per).odGet i j = s.odGet i j := by
  unfold State.adoptPeriod
  split
  · exact State.odGet_odSet_other _ _ _ _ _ _ h
  · rfl

theorem State.adoptPeriod_cadenceFrame (s : State) (per : Nat) : s.CadenceFrame (s.adoptPeriod per) := by
  unfold State.adoptPeriod
  split
  · exact s.odSet_cadenceFrame ..
  · rfl

/-- A follower's Delay_Req is sent, and the port waits for its answer. -/
def State.askDelay (s : State) (n : Nat) : State :=
  (s.setCad { s.cad with inBand := { s.cad.inBand with delayReq := fmSet s.cad.inBand.delayReq n s.now } }).send (.ptp n 2 0 0)

theorem State.askDelay_effect (s : State) (n : Nat) : let u := s.askDelay n
    u.out = s.out ++ [.ptp n 2 0 0] ∧ fmGet? u.cad.inBand.delayReq n = some s.now ∧ u.cad.tick = s.cad.tick ∧
    { u.bare s with cad := s.cad } = s := ⟨rfl, fmGet?_fmSet_same .., rfl, rfl⟩

theorem execDelayReqSend_of_port {t n : Nat} {s : State} (h : (s.arrive t).cad.inBand.port = some n) :
    exec (.delayReqSend t) s = .next ((s.arrive t).askDelay n) := by
  simp only [exec, execDelayReqSend, h]
  rfl

theorem State.send_effect (s : State) (m : Msg) : (s.send m).out = s.out ++ [m] ∧ (s.send m).bare s = s := ⟨rfl, rfl⟩

/-- The event CADENCE_HOLDOVER_LIMIT is raised, and will not be again in this holdover. -/
def State.holdoverTooLong (s : State) : State := (s.setCad { s.cad with holdRaised := true }).event 0x0205 noOne []

theorem State.holdoverTooLong_effect (s : State) : let u := s.holdoverTooLong
    u.cad = { s.cad with holdRaised := true } ∧ u.odGet 0xB102 5 = s.odGet 0xB102 5 + 1 ∧ s.CadenceOnly u := by
  intro u
  exact ⟨by simp [u, State.holdoverTooLong], State.event_count ..,
    (s.setCad_cadenceOnly _).trans (State.event_cadenceOnly _ _ _ _ (by omega))⟩

theorem execCadenceHoldoverLimit_of_long {t x : Nat} {s : State} (hx : (s.arrive t).cad.holdSince = some x)
    (hs : (s.arrive t).cad.state = .holdover) (hr : (s.arrive t).cad.holdRaised = false)
    (hl : (s.arrive t).odGet 0x2001 9 * unitsPerMs < (s.arrive t).now - x) :
    exec (.cadenceHoldoverLimit t) s = .next (s.arrive t).holdoverTooLong := by
  simp only [exec, execCadenceHoldoverLimit, hx]
  rw [if_pos ⟨hs, by simp [hr], hl⟩]
  simp only [State.holdoverTooLong, hx]

/-- After a message of the master: what the cadence unit holds, which objects changed, and that nothing else did. -/
theorem State.follow_master (s : State) (n : PortIdx) (k : PtpKind) (tick : BitVec 64) (per : Nat) (off off' : Int) :
    let v := (s.withOffset n.val off).hearMaster n.val k tick.toNat per off'
    let u := (v.adoptPeriod per).selectSource
    u.cad.inBand.masterTick = tick.toNat ∧ u.cad.inBand.masterPeriod = per ∧ u.cad.inBand.masterAt = s.now ∧
    u.cad.inBand.ports.testBit n.val = true ∧ u.cad.tick = s.cad.tick ∧
    (u.cad.inBand.refused = true ↔ s.cad.inBand.refused = true ∧ tick ≠ s.cad.tick) ∧
    (bit (s.odGet 0x2001 1) 0 = true → u.cad.inBand.refused = false → 1000 ≤ per → per ≤ 10000000 →
      u.odGet 0x2001 2 = per) ∧
    (∀ idx sub, sub < 256 → idx < 0xB100 → ¬(idx = 0x2001 ∧ sub = 2) → ¬(idx = 0x2007 ∧ sub = n.val + 1) →
      u.odGet idx sub = s.odGet idx sub) ∧
    { u.unsaid s with cad := s.cad } = s := by
  intro v u
  obtain ⟨ho, hf⟩ := (v.adoptPeriod per).selectSource_cadenceOnly
  have hin : u.cad.inBand = s.cad.inBand.hear s.now n.val tick.toNat per k s.cad.tick.toNat off' := by
    simp only [u, v, State.selectSource_inBand, State.adoptPeriod_cad]
    rfl
  rw [hin]
  refine ⟨rfl, rfl, rfl, by simp [InBand.hear], ?_, by simp [InBand.hear, BitVec.toNat_eq], fun he hr h1 h2 => ?_,
    fun i j hj hi h1 h2 => ?_, ?_⟩
  · simp [u, v, State.hearMaster]
  · have he' : bit (v.odGet 0x2001 1) 0 = true := by
      rw [show v.odGet 0x2001 1 = s.odGet 0x2001 1 from s.withOffset_odGet _ _ (by unfold odKey; omega)]
      exact he
    exact (ho _ _ (by omega) (.inl (by omega))).trans (State.adoptPeriod_of_followed he' hr h1 h2)
  · have hn := n.isLt
    calc u.odGet i j = (v.adoptPeriod per).odGet i j := ho i j hj (.inl hi)
      _ = v.odGet i j := v.adoptPeriod_odGet _ (by unfold odKey; omega)
      _ = s.odGet i j := s.withOffset_odGet _ _ (by unfold odKey; omega)
  · exact ((s.withOffset_cadenceFrame ..).trans (State.setCad_cadenceFrame ..)).trans
      ((v.adoptPeriod_cadenceFrame per).trans hf)

/-- Settles O9: the three kinds of message, the request of a follower, and the one event of a long holdover. -/
theorem inBandTimeAndHoldover : Obligations.InBandTimeAndHoldover := by
  refine ⟨?_, ?_, ?_⟩
  · intro t n src tick per off r0 s
    refine ⟨fun k h => execPtpMessage_of_not_ptpPort h, fun h => ⟨⟨_, execPtpMessage_delayReq h, State.send_effect ..⟩,
      fun k hk => ⟨fun hm => ?_, fun hm hp => ?_⟩⟩⟩
    · exact ⟨_, execPtpMessage_of_stranger h hk hm, State.withOffset_cad .., State.withOffset_frame ..⟩
    · exact ⟨_, execPtpMessage_of_master h hk hm hp, State.follow_master ..⟩
  · intro t n r0 s hn
    exact ⟨_, execDelayReqSend_of_port hn, State.askDelay_effect ..⟩
  · intro t x r0 s hx hs hr hl
    obtain ⟨hcad, hcount, hkept, hframe⟩ := s.holdoverTooLong_effect
    exact ⟨_, execCadenceHoldoverLimit_of_long hx hs hr hl, hcad, hcount, hkept, hframe⟩

end Sys2Proof.Machine
end

section
namespace Sys2Proof.Machine

/-! ## What leaves the cadence unit, the partitions, memory and the host window alone

Packets, requests of a source unit, and events. -/

/-- The cadence unit, the partitions, memory and the host window of u are those of s. An abbreviation, so that a lemma
s.Level u tagged simp rewrites each of the fields. -/
abbrev State.Level (s u : State) : Prop := u.cad = s.cad ∧ u.parts = s.parts ∧ u.mem = s.mem ∧ u.host = s.host

@[simp] theorem State.ite_cad (c : Prop) [Decidable c] (a b : State) :
    (if c then a else b).cad = if c then a.cad else b.cad := apply_ite ..

@[simp] theorem State.ite_parts (c : Prop) [Decidable c] (a b : State) :
    (if c then a else b).parts = if c then a.parts else b.parts := apply_ite ..

@[simp] theorem State.ite_mem (c : Prop) [Decidable c] (a b : State) :
    (if c then a else b).mem = if c then a.mem else b.mem := apply_ite ..

@[simp] theorem State.ite_host (c : Prop) [Decidable c] (a b : State) :
    (if c then a else b).host = if c then a.host else b.host := apply_ite ..

theorem State.Level.refl (s : State) : s.Level s := ⟨rfl, rfl, rfl, rfl⟩

theorem State.Level.trans {s t u : State} (h : s.Level t) (h' : t.Level u) : s.Level u :=
  ⟨h'.1.trans h.1, h'.2.1.trans h.2.1, h'.2.2.1.trans h.2.2.1, h'.2.2.2.trans h.2.2.2⟩

theorem State.event_level (s : State) (c : Nat) (w : EvWho) (d : List EvField) : s.Level (s.event c w d) := by
  simp [State.Level]

theorem foldl_level {α : Type} {f : State → α → State} (h : ∀ s a, State.Level s (f s a)) (l : List α) (s : State) :
    s.Level (l.foldl f s) :=
  List.foldlRecOn l f (motive := s.Level) (.refl s) fun _ hu a _ => hu.trans (h _ a)

theorem foldl_fst_level {α β : Type} {f : State × β → α → State × β} (h : ∀ (x : State × β) a, x.1.Level (f x a).1) (l : List α)
    (x : State × β) : x.1.Level (l.foldl f x).1 :=
  List.foldlRecOn l f (motive := fun u => x.1.Level u.1) (.refl x.1) fun _ hu a _ => hu.trans (h _ a)

theorem State.setPort_level (s : State) (n : Nat) (x : Port) : s.Level (s.setPort n x) := .refl _

/-! ### Packets and requests (09 R293, R304, R311 to R323) -/

@[simp] theorem State.sendFlit_level (s : State) (n : Nat) (e : Egress) : s.Level (s.sendFlit n e).1 := by
  unfold State.sendFlit
  dsimp only
  split <;> simp [State.Level]

@[simp] theorem State.sendFlits_level (s : State) (n k : Nat) (e : Egress) : s.Level (s.sendFlits n k e).1 := by
  fun_induction State.sendFlits s n k e
  case case3 h ih => exact .trans (by simp [State.Level, fst_of_eq h]) ih
  all_goals exact .refl _

@[simp] theorem State.drainPort_level (s : State) (n : Nat) : s.Level (s.drainPort n) := by
  unfold State.drainPort
  dsimp only
  split
  · refine foldl_fst_level (fun a e => ?_) _ (s, [])
    split
    · exact .refl _
    · split <;> simp [State.Level]
  · refine .trans (foldl_fst_level (fun a e => ?_) _ (s, [])) (State.setPort_level ..)
    split
    · exact .refl _
    · split <;> simp [State.Level]

@[simp] theorem State.sendPacket_level (s : State) (charge : Option Nat) (p : Packet) :
    s.Level (s.sendPacket charge p) := by
  have h : s.Level (if p.op < 0x80 then { s with fab := { s.fab with issued := true } } else s) := by
    simp [State.Level]
  unfold State.sendPacket
  dsimp only
  split
  · exact h
  · exact h.trans (.trans (by simp [State.Level]) (State.drainPort_level ..))

@[simp] theorem State.sendTile_level (s : State) (p path slot roving index : Nat) (bytes : List Byte) :
    s.Level (s.sendTile p path slot roving index bytes) := s.sendPacket_level ..

@[simp] theorem State.sendColl_level (s : State) (p dst op cls : Nat) (data : List Byte) :
    s.Level (s.sendColl p dst op cls data) := s.sendPacket_level ..

theorem State.setSrcUnit_level (s : State) (u : Nat) (x : Source) : s.Level (s.setSrcUnit u x) := .refl _

theorem State.launch_level (s : State) (pkt : Packet) (dl : Deliver) : s.Level (s.launch pkt dl) :=
  .trans (State.setSrcUnit_level ..) (State.sendPacket_level ..)

theorem State.issueReq_level (s : State) (pkt : Packet) (dl : Deliver) : s.Level (s.issueReq pkt dl) := by
  fun_cases State.issueReq s pkt dl
  case case1 => exact State.setSrcUnit_level ..
  case case2 => exact State.launch_level ..

theorem State.faultRecord_level (s : State) (p addr cause status path op tag unit : Nat) :
    s.Level (s.faultRecord p addr cause status path op tag unit) := by
  fun_cases State.faultRecord s p addr cause status path op tag unit <;> simp +zetaDelta [State.Level]

theorem State.storeDead_level (s : State) (pkt : Packet) : s.Level (s.storeDead pkt) :=
  (State.setSrcUnit_level ..).trans ((State.faultRecord_level ..).trans
    ((State.event_level ..).trans (State.event_level ..)))

@[simp] theorem State.issueStores_level (s : State) (base : Packet) (l : List Byte) : s.Level (s.issueStores base l) :=
  foldl_level (fun s e => by
    dsimp only
    split
    · exact State.storeDead_level ..
    · exact State.issueReq_level ..) _ s

end Sys2Proof.Machine
end

section
namespace Sys2Proof.Machine

/-! ## What a step that goes on leaves of a partition

Draft ticks begin, doffs are written, stores reach buddy deltas: none of it changes how far a draft has come, nor what a
rollback would return to. -/

/-- How far a partition's draft has come, and what a rollback returns to. -/
structure Progress where
  state : DraftState
  draft : Option Draft
  epoch : BitVec 48
  slip : Nat
  stepsDone : Nat
  variant : Nat
  wins : List WinSt
  winsCommit : List WinSt
  slipCommit : Nat
  reused : BitVec 64
  undo : Fm (List Byte)
  lateRolls : Nat
  faultRolls : List (Option Nat)

def Part.progress (x : Part) : Progress :=
  ⟨x.state, x.draft, x.epoch, x.slip, x.stepsDone, x.variant, x.wins, x.winsCommit, x.slipCommit, x.reused, x.undo,
    x.lateRolls, x.faultRolls⟩

/-- Every partition's draft has come as far in u as in s. -/
structure State.SameProgress (s u : State) : Prop where
  part : ∀ r, (u.part r).progress = (s.part r).progress

theorem State.SameProgress.refl (s : State) : s.SameProgress s := ⟨fun _ => rfl⟩

theorem State.SameProgress.trans {s t u : State} (h : s.SameProgress t) (h' : t.SameProgress u) : s.SameProgress u :=
  ⟨fun r => (h'.part r).trans (h.part r)⟩

theorem State.part_of_parts {s u : State} (h : u.parts = s.parts) (r : Nat) : u.part r = s.part r := by
  simp [State.part, h]

theorem State.SameProgress.of_parts {s u : State} (h : u.parts = s.parts) : s.SameProgress u :=
  ⟨fun r => congrArg _ (State.part_of_parts h r)⟩

theorem State.SameProgress.setPart {s : State} {p : Nat} {x : Part} (h : x.progress = (s.part p).progress) :
    s.SameProgress (s.setPart p x) := by
  refine ⟨fun r => ?_⟩
  by_cases hr : r = p
  · subst hr
    rw [State.part_setPart_same, h]
  · rw [State.part_setPart_other s x hr]

theorem foldl_sameProgress {α : Type} {f : State → α → State} (h : ∀ s a, State.SameProgress s (f s a)) (l : List α)
    (s : State) : s.SameProgress (l.foldl f s) :=
  List.foldlRecOn l f (motive := s.SameProgress) (.refl s) fun _ hu a _ => hu.trans (h _ a)

theorem foldl_cad {α : Type} {f : State → α → State} (h : ∀ s a, (f s a).cad = s.cad) (l : List α) (s : State) :
    (l.foldl f s).cad = s.cad := foldl_keeps State.cad f h l s

theorem foldl_parts {α : Type} {f : State → α → State} (h : ∀ s a, (f s a).parts = s.parts) (l : List α) (s : State) :
    (l.foldl f s).parts = s.parts := foldl_keeps State.parts f h l s

/-! ### Draft ticks (02 R75, R91; 13 R450, R453) -/

@[simp] theorem State.writePa_cad (s : State) (pa : Nat) (l : List Byte) : (s.writePa pa l).cad = s.cad := by
  fun_cases State.writePa s pa l <;> rfl

@[simp] theorem State.writePa_parts (s : State) (pa : Nat) (l : List Byte) : (s.writePa pa l).parts = s.parts := by
  fun_cases State.writePa s pa l <;> rfl

@[simp] theorem State.doffStore_cad (s : State) (p i half off : Nat) (l : List Byte) :
    (s.doffStore p i half off l).cad = s.cad := by simp [State.doffStore]

@[simp] theorem State.doffStore_parts (s : State) (p i half off : Nat) (l : List Byte) :
    (s.doffStore p i half off l).parts = s.parts := by simp [State.doffStore]

@[simp] theorem State.doffStoreBoth_cad (s : State) (p half off : Nat) (l : List Byte) :
    (s.doffStoreBoth p half off l).cad = s.cad := by simp [State.doffStoreBoth]

@[simp] theorem State.doffStoreBoth_parts (s : State) (p half off : Nat) (l : List Byte) :
    (s.doffStoreBoth p half off l).parts = s.parts := by simp [State.doffStoreBoth]

@[simp] theorem State.beginFlyers_cad (s : State) (p tick : Nat) : (s.beginFlyers p tick).cad = s.cad :=
  foldl_cad (fun _ _ => State.setFlyer_cad ..) _ s

@[simp] theorem State.beginFlyers_parts (s : State) (p tick : Nat) : (s.beginFlyers p tick).parts = s.parts :=
  foldl_parts (fun _ _ => State.setFlyer_parts ..) _ s

/-- Draft tick k stands begun in its partition. -/
theorem State.beginDraftTick_part_same (s : State) (p k time lag : Nat) : (s.beginDraftTick p k time lag).part p =
    { s.part p with stepTick := k, tickBegan := time, stepOver := false, lag := lag, gatesDone := [] } :=
  (State.part_of_parts (State.beginFlyers_parts ..) p).trans (State.part_setPart_same ..)

theorem State.beginDraftTick_part_other (s : State) {p r : Nat} (k time lag : Nat) (h : r ≠ p) :
    (s.beginDraftTick p k time lag).part r = s.part r :=
  (State.part_of_parts (State.beginFlyers_parts ..) r).trans (State.part_setPart_other _ _ h)

@[simp] theorem State.beginDraftTick_cad (s : State) (p k time lag : Nat) :
    (s.beginDraftTick p k time lag).cad = s.cad := by simp [State.beginDraftTick]

theorem State.beginDraftTick_sameProgress (s : State) (p k time lag : Nat) :
    s.SameProgress (s.beginDraftTick p k time lag) := by
  refine .trans (.setPart ?_) (.of_parts (State.beginFlyers_parts ..))
  rfl

@[simp] theorem State.clearScratch_cad (s : State) (p : Nat) : (s.clearScratch p).cad = s.cad := rfl

theorem State.clearScratch_sameProgress (s : State) (p : Nat) : s.SameProgress (s.clearScratch p) :=
  (State.SameProgress.setPart (x := { s.part p with left := [], taken := [], made := [], outs := [] }) rfl).trans
    (.of_parts rfl)

@[simp] theorem State.beginStep_cad (s : State) (p : Nat) : (s.beginStep p).cad = s.cad := by
  simp [State.beginStep]

theorem State.beginStep_sameProgress (s : State) (p : Nat) : s.SameProgress (s.beginStep p) := by
  fun_cases State.beginStep s p
  case case1 => exact .setPart rfl
  case case2 =>
    refine .trans (.setPart ?_) (.of_parts (State.event_parts ..))
    rfl
  case case3 =>
    refine .trans (.of_parts (State.doffStoreBoth_parts ..)) (.trans (.setPart ?_) (.of_parts (State.odSet_parts ..)))
    rfl

theorem State.advance_sameProgress (s : State) (p n : Nat) : s.SameProgress (s.advance p n) := by
  fun_induction State.advance s p n
  case case4 ih =>
    refine .trans ?_ ((State.beginDraftTick_sameProgress ..).trans ih)
    dsimp +zetaDelta only
    split
    · exact (State.beginStep_sameProgress ..).trans (State.clearScratch_sameProgress ..)
    · exact .refl _
  all_goals exact .refl _

theorem State.advance_cad (s : State) (p n : Nat) : (s.advance p n).cad = s.cad := by
  fun_induction State.advance s p n
  case case4 ih => exact ih.trans (by simp +zetaDelta)
  all_goals rfl

/-- The passage of draft ticks leaves the cadence unit alone. -/
@[simp] theorem State.syncDraft_cad (s : State) (p : Nat) : (s.syncDraft p).cad = s.cad := State.advance_cad ..

theorem State.syncDraft_sameProgress (s : State) (p : Nat) : s.SameProgress (s.syncDraft p) :=
  State.advance_sameProgress ..

end Sys2Proof.Machine
end

section
namespace Sys2Proof.Machine

/-! ## Tick boundaries (O6) -/

@[simp] theorem State.sendSyncs_cad (s : State) : s.sendSyncs.cad = s.cad := by
  fun_cases State.sendSyncs s
  case case1 => exact foldl_cad (fun s n => by simp) _ s
  case case2 => rfl

@[simp] theorem State.issueBoundary_cad (s : State) : s.issueBoundary.cad = s.cad :=
  (foldl_cad (fun _ _ => State.syncDraft_cad ..) _ _).trans ((State.sendSyncs_cad _).trans (State.reelAll_cad ..))

/-- The end of stage 7 changes the cadence unit only where ticks are not issued yet. -/
theorem State.endStage7_cad {s : State} (h : s.cad.everLocked = true) : s.endStage7.cad = s.cad := by
  simp [State.endStage7, State.closeStage7, h]

theorem State.boundary_cad {s : State} (h : s.cad.everLocked = true) : s.issueBoundary.endStage7.cad = s.cad :=
  (State.endStage7_cad (by simpa)).trans s.issueBoundary_cad

theorem State.selectSource_tickStart {s : State} (h : s.cad.everLocked = true) :
    s.selectSource.cad.tickStart = s.cad.tickStart := by
  fun_cases State.selectSource s <;> simp +zetaDelta [State.acquire, h]

/-- The counter, the running tick and who is master, in a cadence unit whose ticks are issued. -/
structure Cadence.Counts (c : Cadence) (tick : BitVec 64) (start : Nat) (fx1 standby : Bool) : Prop where
  tick : c.tick = tick
  everLocked : c.everLocked = true
  tickStart : c.tickStart = start
  masterFx1 : c.masterFx1 = fx1
  standbyReady : c.standbyReady = standby

section
variable {s : State} {tick : BitVec 64} {start : Nat} {fx1 standby : Bool} (h : s.cad.Counts tick start fx1 standby)
include h

theorem State.refuseCount_counts : s.refuseCount.cad.Counts tick start fx1 standby := by
  obtain ⟨ht, he, hs, hm, hr⟩ := h
  exact {
    tick := by simpa [State.refuseCount]
    everLocked := by simpa [State.refuseCount]
    tickStart := (State.selectSource_tickStart (by simpa)).trans (by simpa)
    masterFx1 := by simpa [State.refuseCount]
    standbyReady := by simpa [State.refuseCount] }

theorem State.boundary_counts : s.issueBoundary.endStage7.cad.Counts tick start fx1 standby := by
  rwa [State.boundary_cad h.everLocked]
end

/-- A tick that ends once ticks are issued: the counter goes on by one, and the next tick begins at that instant. -/
theorem State.tickCore_of_everLocked {s : State} (b : Nat) (h : s.cad.everLocked = true) :
    (s.tickCore b).cad.Counts (s.cad.tick + 1) b s.cad.masterFx1 s.cad.standbyReady := by
  unfold State.tickCore
  extract_lets c phase l n locksNow count s1 inBand c1 other s2 s3 first s4
  rw [if_pos h]
  refine State.boundary_counts ?_
  have h2 : s2.cad.Counts (s.cad.tick + 1) b s.cad.masterFx1 s.cad.standbyReady := ⟨rfl, h, rfl, rfl, rfl⟩
  unfold s3
  split
  · exact State.refuseCount_counts h2
  · split
    · rwa [State.event_cad]
    · exact h2

/-- The 16th tick in a row near the source locks: the counter takes its first value. -/
theorem State.tickCore_of_locks {s : State} {b : Nat} (he : s.cad.everLocked = false) (ha : s.cad.state = .acquiring)
    (hl : 15 ≤ s.cad.lockCount) (hp : (s.phaseAt b).natAbs ≤ 50 * unitsPerNs) :
    (s.tickCore b).cad.everLocked = true ∧ (s.tickCore b).cad.state = .locked ∧ (s.tickCore b).cad.tick =
      BitVec.ofNat 64 (if s.cad.source = .inBand then s.masterCount b else s.odGet 0x2001 7) := by
  have hn : s.cad.countLock (s.phaseAt b) = 16 := by
    simp [Cadence.countLock, hp]
    omega
  have hpreset (v : Nat) : (s.odSet 0x2002 2 v).odGet 0x2001 7 = s.odGet 0x2001 7 :=
    State.odGet_odSet_other _ _ _ _ _ _ (by decide)
  unfold State.tickCore
  extract_lets c phase l n locksNow count s1 inBand c1 other s2 s3 first s4
  have hlocks : locksNow = true := by simp [locksNow, c, n, phase, ha, hn]
  rw [if_neg (by simp [c1, c, he]), if_pos hlocks, State.boundary_cad (by simp [s4]), State.event_cad]
  exact ⟨rfl, rfl, by simp [s4, first, c1, c, s1, hpreset, count]⟩

/-- A tick away from the source before the first lock is measured, and starts the count of ticks again. -/
theorem State.tickCore_of_off {s : State} {b : Nat} (he : s.cad.everLocked = false) (ha : s.cad.state = .acquiring)
    (hf : s.cad.freeRun = false) (hp : 50 * unitsPerNs < (s.phaseAt b).natAbs) :
    let u := s.tickCore b
    u.cad.lockCount = 0 ∧ u.cad.tick = s.cad.tick ∧ u.cad.everLocked = false ∧ u.cad.state = .acquiring ∧
    u.cad.tickStart = b ∧ u.odGet 0x2002 2 = ofSigned 32 (s.phaseAt b / unitsPerNs) ∧
    (∀ idx sub, sub < 256 → ¬(idx = 0x2002 ∧ sub = 2) → u.odGet idx sub = s.odGet idx sub) ∧
    { u with cad := s.cad, od := s.od } = s := by
  have hn : s.cad.countLock (s.phaseAt b) = 0 := by simp [Cadence.countLock, hf, hp]
  have hu : ∃ c : Cadence, s.tickCore b = (s.odSet 0x2002 2 (ofSigned 32 (s.phaseAt b / unitsPerNs))).setCad c ∧
      c.lockCount = 0 ∧ c.tick = s.cad.tick ∧ c.everLocked = false ∧ c.state = .acquiring ∧ c.tickStart = b := by
    unfold State.tickCore
    extract_lets c phase l n locksNow count s1 inBand c1 other s2 s3 first s4
    have hlocks : locksNow = false := by simp [locksNow, c, n, phase, hn]
    rw [if_neg (by simp [c1, c, he]), if_neg (by simp [hlocks])]
    exact ⟨c1, rfl, hn, rfl, he, ha, rfl⟩
  obtain ⟨c, hu, h1, h2, h3, h4, h5⟩ := hu
  rw [hu]
  refine ⟨h1, h2, h3, h4, h5, State.odGet_odSet_same .., fun i j hj hij => ?_, rfl⟩
  exact State.odGet_odSet_other _ _ _ _ _ _ (by unfold odKey; omega)

section
variable {t : Nat} {s : State}

theorem execTickBoundary_of_due (ht : (s.arrive t).cad.ticks = true) (hd : (s.arrive t).cad.due ≤ (s.arrive t).now) :
    exec (.tickBoundary t) s = .next ((s.arrive t).tickCore (s.arrive t).cad.due) := if_pos ⟨ht, hd⟩

theorem execTickBoundary_of_early (hd : (s.arrive t).now < (s.arrive t).cad.due) :
    exec (.tickBoundary t) s = .next (s.arrive t) := if_neg fun h => by omega

theorem execCadenceMasterHandover_of_early (hd : (s.arrive t).now < (s.arrive t).cad.due) :
    exec (.cadenceMasterHandover t) s = .next (s.arrive t) := if_pos (by omega)

theorem execCadenceMasterHandover_of_missing (hm : (s.arrive t).cad.masterFx1 = false)
    (hdead : (s.arrive t).cad.dead = false) (he : (s.arrive t).cad.everLocked = true)
    (hl : (s.arrive t).cfg.lost.contains 23 = false) (hd : (s.arrive t).cad.due + 100 * unitsPerNs ≤ (s.arrive t).now) :
    exec (.cadenceMasterHandover t) s =
      .next ((s.arrive t).handover.tickCore ((s.arrive t).cad.due + 100 * unitsPerNs)) :=
  if_neg (by simp only [hm, hdead, he, hl]; simpa [-State.arrive_now] using hd)
end

/-- FX1 is master from the handover on, with no standby. -/
theorem State.handover_cad {s : State} (h : s.cad.masterFx1 = false) :
    s.handover.cad = { s.cad with masterFx1 := true, standbyReady := false } := by
  simp [State.handover, h]

theorem Cadence.ticks_of_everLocked {c : Cadence} (hd : c.dead = false) (h : c.everLocked = true) : c.ticks = true := by
  simp [Cadence.ticks, hd, h]

theorem Cadence.ticks_of_acquiring {c : Cadence} (hd : c.dead = false) (h : c.state = .acquiring) : c.ticks = true := by
  simp [Cadence.ticks, hd, h]

/-- Settles O6: each case of a tick by the lemma about it. -/
theorem tickCounterRules : Obligations.TickCounterRules := by
  intro t r0 s hdead
  refine ⟨fun hd => ⟨execTickBoundary_of_early hd, execCadenceMasterHandover_of_early hd⟩,
    fun hd => ⟨fun he => ?_, fun he ha hl hp => ?_, fun he ha hf hp => ?_⟩, fun he hm hl hd => ?_⟩
  · obtain ⟨htick, hever, hstart, -, -⟩ := State.tickCore_of_everLocked s.cad.due he
    exact ⟨_, execTickBoundary_of_due (Cadence.ticks_of_everLocked hdead he) hd, htick, hever, hstart⟩
  · exact ⟨_, execTickBoundary_of_due (Cadence.ticks_of_acquiring hdead ha) hd, State.tickCore_of_locks he ha hl hp⟩
  · exact ⟨_, execTickBoundary_of_due (Cadence.ticks_of_acquiring hdead ha) hd, State.tickCore_of_off he ha hf hp⟩
  · have hcad := State.handover_cad hm
    obtain ⟨htick, -, hstart, hfx1, hready⟩ :=
      State.tickCore_of_everLocked (s := s.handover) (s.cad.due + 100 * unitsPerNs) (by rw [hcad]; exact he)
    rw [hcad] at htick hfx1 hready
    exact ⟨_, execCadenceMasterHandover_of_missing hm hdead he hl hd, hfx1, hready, htick, hstart⟩

end Sys2Proof.Machine
end

section
namespace Sys2Proof.Machine

/-! ## What changes one partition only -/

/-- The cadence unit, memory and every partition but p are in u as in s. -/
structure State.OnlyPart (s u : State) (p : Nat) : Prop where
  cad : u.cad = s.cad
  mem : u.mem = s.mem
  other : ∀ r, r ≠ p → u.part r = s.part r

theorem State.OnlyPart.refl (s : State) (p : Nat) : s.OnlyPart s p := ⟨rfl, rfl, fun _ _ => rfl⟩

theorem State.OnlyPart.trans {s t u : State} {p : Nat} (h : s.OnlyPart t p) (h' : t.OnlyPart u p) : s.OnlyPart u p :=
  ⟨h'.cad.trans h.cad, h'.mem.trans h.mem, fun r hr => (h'.other r hr).trans (h.other r hr)⟩

theorem State.setPart_onlyPart (s : State) (p : Nat) (x : Part) : s.OnlyPart (s.setPart p x) p :=
  ⟨rfl, rfl, fun _ hr => State.part_setPart_other s x hr⟩

theorem State.Level.onlyPart {s u : State} (h : s.Level u) (p : Nat) : s.OnlyPart u p := by
  obtain ⟨hcad, hparts, hmem, -⟩ := h
  exact ⟨hcad, hmem, fun r _ => State.part_of_parts hparts r⟩

theorem State.setWin_onlyPart (s : State) (p w : Nat) (x : WinSt) : s.OnlyPart (s.setWin p w x) p :=
  s.setPart_onlyPart ..

theorem foldl_onlyPart {α : Type} {f : State → α → State} {p : Nat} (h : ∀ s a, State.OnlyPart s (f s a) p) (l : List α)
    (s : State) : s.OnlyPart (l.foldl f s) p :=
  List.foldlRecOn l f (motive := fun u => s.OnlyPart u p) (.refl s p) fun _ hu a _ => hu.trans (h _ a)

end Sys2Proof.Machine
end

section
namespace Sys2Proof.Machine

/-! ## Output release (O14) -/

theorem State.lateRelease_level (s : State) (p t c : Nat) : s.Level (s.lateRelease p t c) := by
  unfold State.lateRelease
  split
  · exact s.event_level ..
  · exact .refl s

/-! ### Granting one buffer -/

/-- The bits of win_pend of a partition. -/
def State.pend (s : State) (p : Nat) : BitVec 64 := fmGet s.host.winPend p 0

/-- The granted entry stands in the window's queue, unless the window went with its draft. -/
def State.grantQueues (s : State) (p : Nat) (h : HeldOut) : State :=
  if h.gone then s else
    let s := s.setWin p h.window ((s.win p h.window).grant h)
    s.setPart p { s.part p with winsCommit := (s.part p).winsCommit.modify h.window fun w => w.grant h }

/-- The window's bit of win_pend is set, and interrupt vector 1 + p sent where it is enabled. -/
def State.notifyHost (s : State) (p w : Nat) : State :=
  let s := { s with host := { s.host with
    winPend := fmSet s.host.winPend p (s.pend p ||| (1 <<< w)), winPendAt := fmSet s.host.winPendAt (64 * p + w) s.now } }
  if (fmGet s.host.winMsix p 0).toNat.testBit w then s.send (.msix (1 + p)) else s

theorem State.grantHost_eq (s : State) (p : Nat) (h : HeldOut) :
    s.grantHost p h = (s.grantQueues p h).notifyHost p h.window := rfl

theorem State.grantQueues_onlyPart (s : State) (p : Nat) (h : HeldOut) : s.OnlyPart (s.grantQueues p h) p := by
  unfold State.grantQueues
  split
  · exact .refl ..
  · exact (s.setWin_onlyPart ..).trans (State.setPart_onlyPart ..)

theorem State.grantQueues_held (s : State) (p : Nat) (h : HeldOut) :
    ((s.grantQueues p h).part p).held = (s.part p).held := by
  unfold State.grantQueues
  split <;> simp [State.setWin]

theorem State.grantQueues_host (s : State) (p : Nat) (h : HeldOut) : (s.grantQueues p h).host = s.host := by
  unfold State.grantQueues
  split <;> rfl

theorem State.grantQueues_pend (s : State) (p q : Nat) (h : HeldOut) : (s.grantQueues p h).pend q = s.pend q := by
  rw [State.pend, State.grantQueues_host, State.pend]

theorem State.notifyHost_parts (s : State) (p w : Nat) : (s.notifyHost p w).parts = s.parts := by
  unfold State.notifyHost
  dsimp only
  split <;> rfl

theorem State.notifyHost_onlyPart (s : State) (p w : Nat) : s.OnlyPart (s.notifyHost p w) p := by
  refine ⟨?_, ?_, fun r _ => State.part_of_parts (s.notifyHost_parts p w) r⟩
  all_goals
    unfold State.notifyHost
    dsimp only
    split <;> rfl

theorem State.notifyHost_pend (s : State) (p w : Nat) : (s.notifyHost p w).pend p = s.pend p ||| (1 <<< w) := by
  unfold State.notifyHost
  dsimp only
  split <;> simp [State.pend]

theorem testBit_or_left {x : BitVec 64} (y : BitVec 64) {i : Nat} (h : x.toNat.testBit i = true) :
    (x ||| y).toNat.testBit i = true := by
  simp [h]

theorem testBit_or_one_shiftLeft (x : BitVec 64) {i : Nat} (h : i < 64) : (x ||| (1 <<< i)).toNat.testBit i = true := by
  simp [testBit_one_shiftLeft_mod h]

/-! ### Releasing what is due -/

/-- One output leaves. -/
def State.releaseOne (s : State) (p : Nat) (h : HeldOut) : State :=
  (s.grantHost p h).lateRelease p h.tick (h.committed.getD 0)

theorem State.releaseOne_onlyPart (s : State) (p : Nat) (h : HeldOut) : s.OnlyPart (s.releaseOne p h) p :=
  ((s.grantQueues_onlyPart p h).trans (State.notifyHost_onlyPart ..)).trans ((State.lateRelease_level ..).onlyPart p)

theorem State.releaseOne_held (s : State) (p : Nat) (h : HeldOut) :
    ((s.releaseOne p h).part p).held = (s.part p).held := by
  obtain ⟨-, hparts, -, -⟩ := (s.grantHost p h).lateRelease_level p h.tick (h.committed.getD 0)
  rw [State.releaseOne, State.part_of_parts hparts, State.grantHost_eq, State.part_of_parts (State.notifyHost_parts ..),
    State.grantQueues_held]

theorem State.releaseOne_pend (s : State) (p : Nat) (h : HeldOut) :
    (s.releaseOne p h).pend p = s.pend p ||| (1 <<< h.window) := by
  obtain ⟨-, -, -, hhost⟩ := (s.grantHost p h).lateRelease_level p h.tick (h.committed.getD 0)
  rw [State.releaseOne, State.pend, hhost, State.grantHost_eq, ← State.grantQueues_pend s p p h]
  exact State.notifyHost_pend ..

theorem foldl_releaseOne_held (l : List HeldOut) (s : State) (p : Nat) :
    ((l.foldl (fun s h => s.releaseOne p h) s).part p).held = (s.part p).held :=
  foldl_keeps (fun u : State => (u.part p).held) _ (fun s h => s.releaseOne_held p h) l s

/-- A bit of win_pend that is set stays set. -/
theorem foldl_releaseOne_pend_mono {l : List HeldOut} {s : State} {p w : Nat} (h : (s.pend p).toNat.testBit w = true) :
    ((l.foldl (fun s h => s.releaseOne p h) s).pend p).toNat.testBit w = true := by
  induction l generalizing s with
  | nil => exact h
  | cons a l ih =>
    refine ih ?_
    rw [State.releaseOne_pend]
    exact testBit_or_left _ h

theorem foldl_releaseOne_pend {l : List HeldOut} {s : State} {p : Nat} {h : HeldOut} (hl : h ∈ l) (hw : h.window < 64) :
    ((l.foldl (fun s h => s.releaseOne p h) s).pend p).toNat.testBit h.window = true := by
  induction l generalizing s with
  | nil => cases hl
  | cons a l ih =>
    rcases List.mem_cons.1 hl with rfl | hl
    · refine foldl_releaseOne_pend_mono (s := s.releaseOne p h) ?_
      rw [State.releaseOne_pend]
      exact testBit_or_one_shiftLeft _ hw
    · exact ih hl

/-- The present tick has reached the release tick of an output whose step committed. -/
theorem State.outputDue_iff (s : State) (t : Nat) (c : Option Nat) : s.outputDue t c = true ↔
    ∃ k, c = some k ∧ max (t + s.odGet 0x2004 0) (k + 1) ≤ s.cad.tick.toNat := by
  cases c <;> simp [State.outputDue, State.releaseTick]

/-- What a partition still holds when those due have left. -/
def State.holdNotDue (s : State) (p : Nat) : State :=
  s.setPart p { s.part p with held := (s.part p).held.filter fun h => !s.outputDue h.tick h.committed }

theorem State.releaseBuffers_eq (s : State) (p : Nat) : s.releaseBuffers p =
    ((s.part p).held.filter fun h => s.outputDue h.tick h.committed).foldl (fun s h => s.releaseOne p h)
      (s.holdNotDue p) := rfl

theorem State.releaseBuffers_onlyPart (s : State) (p : Nat) : s.OnlyPart (s.releaseBuffers p) p :=
  (s.setPart_onlyPart p _).trans (foldl_onlyPart (fun s h => s.releaseOne_onlyPart p h) _ _)

theorem State.releaseBuffers_held (s : State) (p : Nat) : ((s.releaseBuffers p).part p).held =
    (s.part p).held.filter fun h => !s.outputDue h.tick h.committed := by
  rw [State.releaseBuffers_eq, foldl_releaseOne_held, State.holdNotDue, State.part_setPart_same]

theorem State.releaseBuffers_pend (s : State) {p : Nat} {h : HeldOut} (hh : h ∈ (s.part p).held)
    (hd : s.outputDue h.tick h.committed = true) (hw : h.window < 64) :
    ((s.releaseBuffers p).pend p).toNat.testBit h.window = true := by
  rw [State.releaseBuffers_eq]
  exact foldl_releaseOne_pend (List.mem_filter.2 ⟨hh, hd⟩) hw

/-- One tile leaves for its consumer. -/
def State.releaseTile (s : State) (p : Nat) (h : HeldTile) : State :=
  (s.sendTile p h.path h.slot h.remote h.index h.bytes).lateRelease p h.tick (h.committed.getD 0)

theorem State.releaseTile_level (s : State) (p : Nat) (h : HeldTile) : s.Level (s.releaseTile p h) :=
  (State.sendTile_level ..).trans (State.lateRelease_level ..)

/-- What a partition holds when the tiles due have left. -/
def State.tilesNotDue (s : State) (p : Nat) : State :=
  s.setPart p { s.part p with heldTiles := (s.part p).heldTiles.filter fun h => !s.outputDue h.tick h.committed }

theorem State.releaseTiles_level (s : State) (p : Nat) : (s.tilesNotDue p).Level (s.releaseTiles p) :=
  foldl_level (fun s h => s.releaseTile_level p h) _ (s.tilesNotDue p)

theorem State.releaseTiles_onlyPart (s : State) (p : Nat) : s.OnlyPart (s.releaseTiles p) p :=
  (s.setPart_onlyPart p _).trans ((s.releaseTiles_level p).onlyPart p)

theorem State.releaseTiles_held (s : State) (p : Nat) : ((s.releaseTiles p).part p).held = (s.part p).held := by
  obtain ⟨-, hparts, -, -⟩ := s.releaseTiles_level p
  rw [State.part_of_parts hparts, State.tilesNotDue, State.part_setPart_same]

theorem State.releaseTiles_host (s : State) (p : Nat) : (s.releaseTiles p).host = s.host := by
  obtain ⟨-, -, -, hhost⟩ := s.releaseTiles_level p
  exact hhost

/-- Everything due leaves: outputs held go from the list, and their windows' bits are set. -/
theorem State.releaseAll (s : State) (p : Nat) :
    let u := (s.releaseBuffers p).releaseTiles p
    (∀ h, h ∈ (u.part p).held ↔ h ∈ (s.part p).held ∧
      ¬∃ c, h.committed = some c ∧ max (h.tick + s.odGet 0x2004 0) (c + 1) ≤ s.cad.tick.toNat) ∧
    (∀ h c, h ∈ (s.part p).held → h.committed = some c → h.window < 64 →
      max (h.tick + s.odGet 0x2004 0) (c + 1) ≤ s.cad.tick.toNat →
      (fmGet u.host.winPend p 0).toNat.testBit h.window = true) ∧
    u.mem = s.mem ∧ u.cad = s.cad ∧ ∀ r, r ≠ p → u.part r = s.part r := by
  intro u
  have honly := (s.releaseBuffers_onlyPart p).trans (State.releaseTiles_onlyPart ..)
  refine ⟨fun h => ?_, fun h c hh hc hw ht => ?_, honly.mem, honly.cad, honly.other⟩
  · rw [State.releaseTiles_held, State.releaseBuffers_held, List.mem_filter, ← State.outputDue_iff, Bool.not_eq_true,
      Bool.not_eq_eq_eq_not, Bool.not_true]
  · rw [State.releaseTiles_host]
    exact s.releaseBuffers_pend hh ((s.outputDue_iff _ _).2 ⟨c, hc, ht⟩) hw

/-! ### Treadle pulses -/

theorem State.pulseDue_of_due {s : State} {p : Nat} {v : Pulse} {c : StepRec} (hc : (s.part p).pulseStep v = some c)
    (h1 : c.committed < v.tick + s.odGet 0x2004 0 → v.tick + s.odGet 0x2004 0 < s.cad.tick.toNat ∨
      v.tick + s.odGet 0x2004 0 = s.cad.tick.toNat ∧ v.cycle ≤ s.cycleInTick)
    (h2 : v.tick + s.odGet 0x2004 0 ≤ c.committed → c.committed + 1 ≤ s.cad.tick.toNat)
    (hg : c.gone = true ∨ ∀ a, (s.part p).dropTick = some a → a < v.tick) : s.pulseDue p v = some c.committed := by
  have hdue : (if c.committed < v.tick + s.odGet 0x2004 0 then
      decide (v.tick + s.odGet 0x2004 0 < s.cad.tick.toNat) ||
        (v.tick + s.odGet 0x2004 0 == s.cad.tick.toNat && decide (v.cycle ≤ s.cycleInTick))
      else decide (c.committed + 1 ≤ s.cad.tick.toNat)) = true := by
    split
    next h => simpa using h1 h
    next h => simpa using h2 (not_lt.1 h)
  have hgone : (c.gone || (s.part p).dropTick.all fun a => decide (a < v.tick)) = true := by
    rcases hg with hg | hg
    · simp [hg]
    · cases hd : (s.part p).dropTick with
      | none => simp
      | some a => simp [hg a hd]
  simp only [State.pulseDue, hc, hdue, hgone]
  rfl

theorem State.pulseDue_of_none {s : State} {p : Nat} {v : Pulse} (hc : (s.part p).pulseStep v = none) :
    s.pulseDue p v = none := by
  simp [State.pulseDue, hc]

/-- The pin rises for 1 us, and a pulse whose tick had begun when its step committed is late. -/
theorem State.pulse_effect {s : State} (p t c : Nat) (hd : s.cad.dead = false) :
    let u := s.drivePulse.lateRelease p t c
    u.pins = { s.pins with treadleOut := true, treadleEnd := s.now + unitsPerUs } ∧
    u.odGet 0xB102 13 = s.odGet 0xB102 13 + (if t + s.odGet 0x2004 0 ≤ c then 1 else 0) ∧
    { u.unsaid s with pins := s.pins } = s := by
  have hdrive : s.drivePulse =
      { s with pins := { s.pins with treadleOut := true, treadleEnd := s.now + unitsPerUs } } := by
    simp [State.drivePulse, hd]
  have hod (i j : Nat) : s.drivePulse.odGet i j = s.odGet i j := by rw [hdrive]; rfl
  have hframe : { s.drivePulse.unsaid s with pins := s.pins } = s := by rw [hdrive]; rfl
  have hpins : s.drivePulse.pins = { s.pins with treadleOut := true, treadleEnd := s.now + unitsPerUs } := by rw [hdrive]
  intro u
  unfold u State.lateRelease
  rw [hod]
  split
  · refine ⟨by simpa, by rw [← hod 0xB102 13]; exact State.event_count .., ?_⟩
    rw [hdrive]
    apply State.eq_of_fields <;> simp [State.unsaid, State.bare]
  · exact ⟨hpins, by rw [hod]; rfl, hframe⟩

section
variable {t : Nat} {p : PartIdx} {v : Pulse} {s : State}

theorem execOutputRelease_of_due {c : Nat} (h : (s.arrive t).pulseDue p.val v = some c) :
    exec (.outputRelease t p (some v)) s = .next ((s.arrive t).drivePulse.lateRelease p.val v.tick c) := by
  simp only [exec, execOutputRelease, h]

theorem execOutputRelease_of_none (h : (s.arrive t).pulseDue p.val v = none) :
    exec (.outputRelease t p (some v)) s = .next (s.arrive t) := by
  simp only [exec, execOutputRelease, h]

/-- The pin falls. -/
def State.pulseEnd (s : State) : State := { s with pins := { s.pins with treadleOut := false } }

theorem execTreadlePulseEnd_of_over (h1 : (s.arrive t).pins.treadleOut = true)
    (h2 : (s.arrive t).pins.treadleEnd ≤ (s.arrive t).now) (h3 : (s.arrive t).cad.dead = false) :
    exec (.treadlePulseEnd t) s = .next (s.arrive t).pulseEnd := if_pos ⟨h1, h2, by simp [h3]⟩

theorem State.pulseEnd_effect (s : State) : s.pulseEnd.pins = { s.pins with treadleOut := false } ∧
    { s.pulseEnd.bare s with pins := s.pins } = s := ⟨rfl, rfl⟩
end

/-- Settles O14: what is due leaves, a pulse rises once and late ones are told of, and the pin falls after 1 us. -/
theorem outputReleaseRules : Obligations.OutputReleaseRules := by
  refine ⟨?_, ?_, ?_⟩
  · intro t p r0 s
    exact ⟨_, rfl, s.releaseAll p.val⟩
  · intro t p v r0 s due now
    refine ⟨fun c hc hd h1 h2 hg => ?_, fun h => execOutputRelease_of_none (State.pulseDue_of_none h)⟩
    exact ⟨_, execOutputRelease_of_due (State.pulseDue_of_due hc h1 h2 hg), State.pulse_effect _ _ _ hd⟩
  · intro t r0 s h1 h2 h3
    exact ⟨_, execTreadlePulseEnd_of_over h1 h2 h3, s.pulseEnd_effect⟩

end Sys2Proof.Machine
end

section
namespace Sys2Proof.Machine

/-! ## What leaves the cadence unit and the course of every draft alone

Stores reach memory and the buddy deltas; a collective's packets and records reach the fabric and memory. -/

/-- The cadence unit is that of s, and every partition's draft has come as far. -/
structure State.Steady (s u : State) : Prop extends s.SameProgress u where
  cad : u.cad = s.cad

theorem State.Steady.refl (s : State) : s.Steady s := ⟨.refl s, rfl⟩

theorem State.Steady.trans {s t u : State} (h : s.Steady t) (h' : t.Steady u) : s.Steady u :=
  ⟨h.toSameProgress.trans h'.toSameProgress, h'.cad.trans h.cad⟩

theorem State.Steady.of_eq {s u : State} (hc : u.cad = s.cad) (hp : u.parts = s.parts) : s.Steady u :=
  ⟨.of_parts hp, hc⟩

theorem State.Level.steady {s u : State} (h : s.Level u) : s.Steady u := .of_eq h.1 h.2.1

theorem State.Steady.setPart {s : State} {p : Nat} {x : Part} (h : x.progress = (s.part p).progress) :
    s.Steady (s.setPart p x) := ⟨.setPart h, rfl⟩

theorem State.event_steady (s : State) (c : Nat) (w : EvWho) (d : List EvField) : s.Steady (s.event c w d) :=
  (s.event_level c w d).steady

theorem State.unprotect_steady (s : State) (n : Nat) : s.Steady (s.unprotect n) :=
  .of_eq (State.unprotect_cad ..) (State.unprotect_parts ..)

theorem State.reel_steady (s : State) (p type units : Nat) (payload : List Nat) :
    s.Steady (s.reel p type units payload) := .of_eq (State.reel_cad ..) (State.reel_parts ..)

theorem State.odSet_steady (s : State) (i j v : Nat) : s.Steady (s.odSet i j v) := .of_eq rfl rfl

theorem foldl_steady {α : Type} {f : State → α → State} (h : ∀ s a, State.Steady s (f s a)) (l : List α) (s : State) :
    s.Steady (l.foldl f s) :=
  List.foldlRecOn l f (motive := s.Steady) (.refl s) fun _ hu a _ => hu.trans (h _ a)

/-- Two partitions of equal progress, field by field. -/
theorem Part.progress_eq {x y : Part} (h : x.progress = y.progress) :
    x.state = y.state ∧ x.draft = y.draft ∧ x.epoch = y.epoch ∧ x.slip = y.slip ∧ x.stepsDone = y.stepsDone ∧
    x.variant = y.variant ∧ x.wins = y.wins ∧ x.winsCommit = y.winsCommit ∧ x.slipCommit = y.slipCommit ∧
    x.reused = y.reused ∧ x.undo = y.undo ∧ x.lateRolls = y.lateRolls ∧ x.faultRolls = y.faultRolls := by
  simpa only [Part.progress, Progress.mk.injEq] using h

/-! ### Stores (08 R280; 13 R436) -/

theorem State.buddyStore_steady (s : State) (p n k : Nat) (l : List Byte) : s.Steady (s.buddyStore p n k l) := by
  fun_cases State.buddyStore s p n k l
  case case1 => exact .refl s
  case case2 => exact .setPart rfl
  case case3 =>
    refine .trans ?_ ((State.event_steady ..).trans (State.unprotect_steady ..))
    exact .setPart rfl

theorem State.putMem_steady (s : State) (k : Nat) (l : List Byte) : s.Steady (s.putMem k l) := .of_eq rfl rfl

theorem State.store_steady (s : State) (k : Nat) (l : List Byte) : s.Steady (s.store k l) := by
  refine .trans (foldl_steady (fun s p => ?_) _ s) (State.putMem_steady ..)
  split
  · split
    · exact State.buddyStore_steady ..
    · exact .refl s
  · exact .refl s

theorem State.dramBad_steady (s : State) (d : Nat) (p : Option Nat) (det : List EvField) : s.Steady (s.dramBad d p det) :=
  .of_eq (State.dramBad_cad ..) (State.dramBad_parts ..)

theorem State.putParts_steady {put : State → Nat → List Byte → State} (h : ∀ s k l, State.Steady s (put s k l)) (s : State)
    (k : Nat) (l : List Byte) : s.Steady (s.putParts k l put) := by
  have hbad := foldl_steady (fun s (_ : Nat) => s.dramBad_steady (keyDie k) none []) (s.partBad k l.length) s
  unfold State.putParts
  extract_lets bad last lo hi body u
  split
  · exact hbad
  · exact hbad.trans (h ..)

theorem State.storePa_steady (s : State) (pa : Nat) (l : List Byte) : s.Steady (s.storePa pa l) := by
  fun_cases State.storePa s pa l
  case case1 => exact State.putParts_steady State.store_steady ..
  case case2 => exact .refl s

/-! ### Collectives that end (10 R351, R362, R368) -/

theorem State.writeRecord_steady (s : State) (c : Collective) (status failRank : Nat) :
    s.Steady (s.writeRecord c status failRank) := by
  refine .trans ?_ (State.storePa_steady ..)
  exact .of_eq rfl rfl

theorem State.completeColl_steady (s : State) (k status failRank : Nat) : s.Steady (s.completeColl k status failRank) := by
  fun_cases State.completeColl s k status failRank
  case case1 => exact .refl s
  case case2 =>
    refine .trans ?_ (State.writeRecord_steady ..)
    exact .of_eq rfl rfl
  case case3 => exact .of_eq rfl rfl

theorem State.nakAll_steady (s : State) (k reason : Nat) : s.Steady (s.nakAll k reason) := by
  fun_cases State.nakAll s k reason
  case case1 => exact .refl s
  case case2 =>
    refine .trans (foldl_steady (fun s m => ?_) _ s) (State.completeColl_steady ..)
    split
    · exact .refl s
    · exact (State.sendColl_level ..).steady

theorem State.creelAbort_steady (s : State) (p : Nat) : s.Steady (s.creelAbort p) :=
  foldl_steady (fun s e => by
    split
    · exact (State.nakAll_steady ..).trans (State.event_steady ..)
    · exact .refl s) _ s

end Sys2Proof.Machine
end

section
namespace Sys2Proof.Machine

/-! ## Starts and re-runs of drafts (O11) -/

/-! ### What follows the entry into RUNNING (02 R74; 12 R418; 13 R433 to R437) -/

theorem State.seedImage_steady (s : State) (p n : Nat) (i : Nat × Nat) : s.Steady (s.seedImage p n i) := by
  unfold State.seedImage
  split
  · extract_lets s1 s2
    have h1 : s.Steady s1 := by
      refine foldl_steady (fun s r => ?_) _ s
      exact .of_eq rfl rfl
    exact h1.trans (.of_eq rfl rfl)
  · exact .refl s

theorem State.startBuddies_steady (s : State) (p seeding : Nat) (d : Draft) : s.Steady (s.startBuddies p seeding d) :=
  foldl_steady (fun s n => by
    dsimp only
    split
    · split
      · exact State.unprotect_steady ..
      · exact .refl s
    · split
      · exact State.unprotect_steady ..
      · exact (foldl_steady (fun s i => s.seedImage_steady p n i) _ s).trans
          ((State.odSet_steady ..).trans (State.event_steady ..))) _ s

theorem State.selectSource_parts (s : State) : s.selectSource.parts = s.parts := by
  fun_cases State.selectSource s <;> simp [State.acquire]

theorem State.startReplay_sameProgress (s : State) (p : Nat) : s.SameProgress (s.startReplay p) := by
  unfold State.startReplay
  split
  · exact .refl s
  · split
    · exact .refl s
    next o _ =>
      extract_lets off x s1 s2 s3
      have h1 : s.SameProgress s1 := .setPart rfl
      have h3 : s3.parts = s1.parts := by
        unfold s3
        split <;> rfl
      exact h1.trans (.of_parts ((State.selectSource_parts s3).trans h3))

theorem State.endStartup_steady (s : State) (k : Nat) : s.Steady (s.endStartup k) := by
  fun_cases State.endStartup s k <;> exact .of_eq rfl rfl

/-- The fresh step state of the slots a draft uses. -/
def State.freshSlots (s : State) (p : Nat) (d : Draft) : State :=
  d.slots.foldl (fun s n => (s.clearSlot n).setFlyer n { x := (s.flyer n).x }) (s.clearMarks p)

theorem State.freshSlots_steady (s : State) (p : Nat) (d : Draft) : s.Steady (s.freshSlots p d) := by
  have h1 : s.Steady (s.clearMarks p) := .of_eq rfl rfl
  refine h1.trans (foldl_steady (fun s n => ?_) _ _)
  exact .of_eq rfl rfl

/-- An armed partition as it enters RUNNING, with variant v. -/
def State.started (s : State) (p v : Nat) (d : Draft) : Part :=
  { s.part p with
    state := .running, epoch := 0, slip := 0, slipCommit := 0, lag := 0, stepsDone := 0, variant := v, variantNext := .none
    stopPending := false, stalled := [], waiting := [], stallSlip := 0, lateRolls := 0, faultRolls := [], taintRolls := 0
    reused := 0, tainted := false, restoring := false, restoreCause := 0, spares := [], pauseUntil := .none
    wins := d.initWins (s.part p).held, winsCommit := d.initWins (s.part p).held, voteSent := false, voteResult := .none
    undo := [], undoOver := false, badLines := [], buddy := [], doffStep := false, doffNext := false, flight := []
    left := [], taken := [], made := [], outs := [], stepOver := false, sched := s.cad.tick.toNat }

/-- All that follows the entry into RUNNING, before draft tick 0 begins. -/
def State.beforeTick0 (s : State) (p seeding : Nat) (d : Draft) : State :=
  let s := (s.freshSlots p d).startBuddies p seeding d
  let s := if 1 < d.packages ∧ s.cad.state ≠ .locked then s.event 0x0C03 (ofPart p) [] else s
  let s := (s.creelAbort p).startReplay p
  let s := s.reel p 4 4 (s.odGet (0x2020 + p) 5 :: wordsOf d.digest)
  (s.seedRecord p).endStartup 11

theorem State.beforeTick0_sameProgress (s : State) (p seeding : Nat) (d : Draft) :
    s.SameProgress (s.beforeTick0 p seeding d) := by
  have h1 := (s.freshSlots_steady p d).trans ((s.freshSlots p d).startBuddies_steady p seeding d)
  refine h1.toSameProgress.trans (.trans ?_ (.trans (State.creelAbort_steady ..).toSameProgress
    (.trans (State.startReplay_sameProgress ..) ((State.reel_steady ..).trans
      ((State.reel_steady ..).trans (State.endStartup_steady ..))).toSameProgress)))
  split
  · exact (State.event_steady ..).toSameProgress
  · exact .refl _

theorem State.freshSlots_still (s : State) (p : Nat) (d : Draft) : s.Still (s.freshSlots p d) := by
  simp [State.Still, State.freshSlots]

theorem State.beforeTick0_still (s : State) (p seeding : Nat) (d : Draft) : s.Still (s.beforeTick0 p seeding d) := by
  obtain ⟨hp, hn⟩ := s.freshSlots_still p d
  simp [State.Still, State.beforeTick0, hp, hn]

section
variable {t seeding v : Nat} {p : PartIdx} {d : Draft} {r0 s : State} (h : r0.arrive t = s)
include h

theorem execDraftStartTick_of_due (hx : (s.part p.val).state = .armed) (hd : (s.part p.val).draft = some d)
    (ht : s.odGet (0x2020 + p.val) 5 ≤ s.cad.tick.toNat) (hv : s.lossVariant = some v) (hlt : v < d.variants) :
    let u := (s.setPart p.val (s.started p.val v d)).beforeTick0 p.val seeding d
    exec (.draftStartTick t p seeding) r0 = .next (u.beginDraftTick p.val 0 u.now 0) := by
  intro v0
  change execDraftStartTick t p seeding r0 = _
  unfold execDraftStartTick
  extract_lets s' n x
  have hs : s' = s := h
  clear_value s'
  subst hs
  split
  next d' _ hd' =>
    obtain rfl : d' = d := Option.some.inj (hd'.symm.trans hd)
    rw [if_neg (not_lt.2 ht)]
    extract_lets wins variant s1 s2 s3 s4 s5 s6 s7 u
    have hvar : variant = some v := by simp [variant, hv, hlt]
    have hu : u = (s'.setPart p.val (s'.started p.val (variant.getD 0) d')).beforeTick0 p.val seeding d' := rfl
    rw [if_neg (by simp [hvar]), hu, hvar]
    rfl
  next hne => exact absurd hd (hne d hx)

theorem execDraftStartTick_of_early (hx : (s.part p.val).state = .armed) (hd : (s.part p.val).draft = some d)
    (ht : s.cad.tick.toNat < s.odGet (0x2020 + p.val) 5) : exec (.draftStartTick t p seeding) r0 = .next s := by
  simp only [exec, execDraftStartTick, h, hx, hd, if_pos ht]
end

/-- The armed draft runs its draft tick 0, and no other draft's course changes. -/
theorem State.started_effect (s : State) (p seeding v : Nat) (d : Draft) :
    let w := (s.setPart p (s.started p v d)).beforeTick0 p seeding d
    let u := w.beginDraftTick p 0 w.now 0
    (u.part p).state = .running ∧ (u.part p).epoch = 0 ∧ (u.part p).slip = 0 ∧ (u.part p).stepsDone = 0 ∧
    (u.part p).variant = v ∧ (u.part p).stepTick = 0 ∧ (u.part p).tickBegan = s.now ∧
    ∀ r, r ≠ p → (u.part r).state = (s.part r).state ∧ (u.part r).epoch = (s.part r).epoch := by
  intro w u
  have hsame := ((s.setPart p (s.started p v d)).beforeTick0_sameProgress p seeding d).trans
    (State.beginDraftTick_sameProgress _ p 0 w.now 0)
  have hp : (u.part p).progress = (s.started p v d).progress := (hsame.part p).trans (by rw [State.part_setPart_same])
  have hnow : w.now = s.now := (State.beforeTick0_still ..).2
  have hr (r : Nat) (h : r ≠ p) : (u.part r).progress = (s.part r).progress :=
    (hsame.part r).trans (by rw [State.part_setPart_other s _ h])
  obtain ⟨hstate, -, hepoch, hslip, hsteps, hvariant, -⟩ := Part.progress_eq hp
  refine ⟨hstate, hepoch, hslip, hsteps, hvariant, ?_, ?_, fun r h => ?_⟩
  · rw [State.beginDraftTick_part_same]
  · rw [State.beginDraftTick_part_same, hnow]
  · obtain ⟨hstate, -, hepoch, -⟩ := Part.progress_eq (hr r h)
    exact ⟨hstate, hepoch⟩

/-! ### Re-runs (13 R424, R438, R444) -/

/-- A restored partition as its re-run begins. -/
def Part.rerun (x : Part) : Part :=
  { x with
    restoring := false, restoreCause := 0, spares := [], variant := x.variantNext.getD x.variant, variantNext := .none }

/-- The variant switch and the spare activations take effect. -/
def State.rerunReady (s : State) (p : Nat) : State :=
  let x := s.part p
  let s := s.setPart p x.rerun
  let s := if x.variantNext.isSome then s.event 0x0D0E (ofPart p) [] else s
  x.spares.foldl (fun s a => s.spareActivated p a) s

theorem State.spareActivated_level (s : State) (p : Nat) (a : Nat × Nat × Nat) : s.Level (s.spareActivated p a) := by
  simp [State.Level, State.spareActivated]

theorem State.rerunReady_level (s : State) (p : Nat) : (s.setPart p (s.part p).rerun).Level (s.rerunReady p) := by
  refine .trans ?_ (foldl_level (fun s a => s.spareActivated_level p a) _ _)
  split
  · exact State.event_level ..
  · exact .refl _

theorem State.beginDraftTick_mem (s : State) (p k time lag : Nat) : (s.beginDraftTick p k time lag).mem = s.mem :=
  foldl_keeps State.mem _ (fun _ _ => State.setFlyer_mem ..) ..

theorem State.rerunReady_now (s : State) (p : Nat) : (s.rerunReady p).now = s.now := by
  have h (s : State) (a : Nat × Nat × Nat) : (s.spareActivated p a).now = s.now := (s.spareActivated_still p a).2
  refine (foldl_keeps State.now _ h ..).trans ?_
  split <;> simp

/-- The restored step runs again from its draft tick 0, and nothing else of the drafts changes. -/
theorem State.rerun_effect (s : State) (p lag : Nat) :
    let w := s.rerunReady p
    let u := w.beginDraftTick p 0 w.now lag
    (u.part p).restoring = false ∧ (u.part p).stepTick = 0 ∧ (u.part p).tickBegan = s.now ∧
    (u.part p).variant = (s.part p).variantNext.getD (s.part p).variant ∧ (u.part p).epoch = (s.part p).epoch ∧
    u.mem = s.mem ∧ ∀ r, r ≠ p → u.part r = s.part r := by
  intro w u
  have hlevel := s.rerunReady_level p
  have honly := (s.setPart_onlyPart p (s.part p).rerun).trans (hlevel.onlyPart p)
  have hp : w.part p = (s.part p).rerun := (State.part_of_parts hlevel.2.1 p).trans (State.part_setPart_same ..)
  refine ⟨?_, ?_, ?_, ?_, ?_, ?_, fun r h => (State.beginDraftTick_part_other _ _ _ _ h).trans (honly.other r h)⟩
  · rw [State.beginDraftTick_part_same, hp, Part.rerun]
  · rw [State.beginDraftTick_part_same]
  · rw [State.beginDraftTick_part_same, State.rerunReady_now]
  · rw [State.beginDraftTick_part_same, hp, Part.rerun]
  · rw [State.beginDraftTick_part_same, hp, Part.rerun]
  · exact (State.beginDraftTick_mem ..).trans honly.mem

section
variable {t : Nat} {p : PartIdx} {d : Draft} {r0 s : State} (h : r0.arrive t = s)
include h

theorem execRerunStart_of_restoring (hx : (s.part p.val).state = .running) (hd : (s.part p.val).draft = some d)
    (hr : (s.part p.val).restoring = true) :
    let u := s.rerunReady p.val
    exec (.rerunStart t p) r0 =
      .next (u.beginDraftTick p.val 0 u.now ((u.cad.tick.toNat - (s.part p.val).sched) * d.cycles)) := by
  intro u
  change execRerunStart t p r0 = _
  unfold execRerunStart
  rw [h]
  extract_lets n x
  split
  next hd' => exact absurd (hd.symm.trans hd') (by simp)
  next d' hd' =>
    obtain rfl : d' = d := Option.some.inj (hd'.symm.trans hd)
    refine if_neg ?_
    change ¬((s.part p.val).state ≠ .running ∨ ¬(s.part p.val).restoring = true)
    simp [hx, hr]
end

/-- Settles O11: by the course of the partition through a start, and through a re-run. -/
theorem draftStartsAndReruns : Obligations.DraftStartsAndReruns := by
  intro t p d r0 s hd x
  refine ⟨fun seeding v hx ht hv hlt => ?_, fun seeding hx ht => execDraftStartTick_of_early rfl hx hd ht, fun hx hr => ?_⟩
  · exact ⟨_, execDraftStartTick_of_due rfl hx hd ht hv hlt, State.started_effect ..⟩
  · exact ⟨_, execRerunStart_of_restoring rfl hx hd hr, State.rerun_effect ..⟩

end Sys2Proof.Machine
end

section
namespace Sys2Proof.Machine

/-! ## What a read of memory leaves alone

Corrected errors are counted, warnings raised and DRAM dies erased; the partitions, memory and the objects of the
partitions' own records stay. -/

/-- The cadence unit, the partitions, memory and the host window of u are those of s, and so is every object below the reel's
records. -/
structure State.Reading (s u : State) : Prop where
  level : s.Level u
  od : ∀ i j, i < 0x2034 → j < 256 → u.odGet i j = s.odGet i j

theorem State.Reading.refl (s : State) : s.Reading s := ⟨.refl s, fun _ _ _ _ => rfl⟩

theorem State.Reading.trans {s t u : State} (h : s.Reading t) (h' : t.Reading u) : s.Reading u :=
  ⟨h.level.trans h'.level, fun i j hi hj => (h'.od i j hi hj).trans (h.od i j hi hj)⟩

theorem foldl_reading {α : Type} {f : State → α → State} (h : ∀ s a, State.Reading s (f s a)) (l : List α) (s : State) :
    s.Reading (l.foldl f s) :=
  List.foldlRecOn l f (motive := s.Reading) (.refl s) fun _ hu a _ => hu.trans (h _ a)

theorem foldl_fst_reading {α β : Type} {f : State × β → α → State × β} (h : ∀ (x : State × β) a, x.1.Reading (f x a).1)
    (l : List α) (x : State × β) : x.1.Reading (l.foldl f x).1 :=
  List.foldlRecOn l f (motive := fun u => x.1.Reading u.1) (.refl x.1) fun _ hu a _ => hu.trans (h _ a)

theorem State.odSet_reading (s : State) {i : Nat} (j v : Nat) (hi : 0x2034 ≤ i) : s.Reading (s.odSet i j v) :=
  ⟨⟨rfl, rfl, rfl, rfl⟩, fun i' j' hi' hj' => State.odGet_odSet_other _ _ _ _ _ _ (by unfold odKey; omega)⟩

theorem State.event_reading (s : State) (c : Nat) (w : EvWho) (d : List EvField) : s.Reading (s.event c w d) :=
  ⟨s.event_level c w d, fun i j hi hj =>
    State.event_odGet _ _ _ _ _ _ (by unfold odKey; omega) (by unfold odKey; omega)⟩

theorem State.setStack_reading (s : State) (d : Nat) (x : Stack) : s.Reading (s.setStack d x) :=
  ⟨.refl s, fun _ _ _ _ => rfl⟩

theorem State.setChannel_reading (s : State) (d ch : Nat) (x : Channel) : s.Reading (s.setChannel d ch x) :=
  ⟨.refl s, fun _ _ _ _ => rfl⟩

theorem State.setBanks_reading (s : State) (b : Fm SramBank) : s.Reading { s with banks := b } :=
  ⟨.refl s, fun _ _ _ _ => rfl⟩

theorem State.dramBad_reading (s : State) (d : Nat) (p : Option Nat) (det : List EvField) : s.Reading (s.dramBad d p det) :=
  (s.odSet_reading _ _ (by omega)).trans (State.event_reading ..)

/-! ### Warnings (13 R448) -/

theorem State.failureWarning_reading (s : State) : s.Reading s.failureWarning := by
  unfold State.failureWarning
  dsimp only
  split
  · exact State.event_reading ..
  · refine foldl_reading (fun s p => .trans ?_ (State.event_reading ..)) _ s
    split
    · exact s.odSet_reading _ _ (by omega)
    · exact .refl s

theorem State.warnIfReached_reading (s : State) (sub before after : Nat) : s.Reading (s.warnIfReached sub before after) := by
  fun_cases State.warnIfReached s sub before after
  case case1 => exact State.failureWarning_reading ..
  case case2 => exact .refl s

/-! ### DRAM lines (08 R273, R274, R277) -/

theorem State.eraseOne_reading (s : State) (d ch k : Nat) : s.Reading (s.eraseOne d ch k) := by
  fun_cases State.eraseOne s d ch k
  case case1 => exact State.setChannel_reading ..
  case case2 => exact .refl s
  case case3 =>
    exact (State.setChannel_reading ..).trans ((State.event_reading ..).trans (State.failureWarning_reading _))

theorem State.eraseIn_reading (s : State) (d k : Nat) (chs : List Nat) : s.Reading (s.eraseIn d k chs) := by
  have h := foldl_reading (fun s ch => s.eraseOne_reading d ch k) chs s
  unfold State.eraseIn
  extract_lets new u
  split
  · exact h
  · exact h.trans (State.event_reading ..)

theorem State.markDramLost_reading (s : State) (d k : Nat) : s.Reading (s.markDramLost d k) := by
  fun_cases State.markDramLost s d k
  case case1 => exact .refl s
  case case2 =>
    exact (State.setStack_reading ..).trans ((State.eraseIn_reading ..).trans (State.failureWarning_reading _))

theorem State.countSymbols_reading (s : State) (d k n : Nat) : s.Reading (s.countSymbols d k n) := by
  unfold State.countSymbols
  split
  · exact .refl s
  · extract_lets x recent c before s1 s2 s3
    have h3 : s.Reading s3 := (State.setStack_reading ..).trans
      ((State.odSet_reading _ _ _ (by omega)).trans (State.warnIfReached_reading ..))
    split
    · exact h3.trans (State.markDramLost_reading ..)
    · exact h3

theorem State.readLine_reading (s : State) (line : Nat) : s.Reading (s.readLine line).1 := by
  unfold State.readLine
  extract_lets d bad
  split
  · dsimp only
    split
    · exact .refl s
    · exact foldl_reading (fun s k => s.countSymbols_reading ..) _ s
  · exact .refl s

theorem State.readLines_reading (s : State) (k n : Nat) : s.Reading (s.readLines k n).1 :=
  foldl_fst_reading (β := List Nat) (fun x e => x.1.readLine_reading e.1) _ (s, [])

/-! ### SRAM words (08 R280, R281) -/

theorem State.markColumn_reading (s : State) (d bank col : Nat) : s.Reading (s.markColumn d bank col) := by
  fun_cases State.markColumn s d bank col
  case case1 => exact .refl s
  case case2 => exact State.setBanks_reading ..
  case case3 => exact (State.event_reading ..).trans (State.failureWarning_reading _)

theorem State.countColumn_reading (s : State) (k col : Nat) : s.Reading (s.countColumn k col) := by
  unfold State.countColumn
  extract_lets d o key b old words b1 s1
  have h1 : s.Reading s1 := State.setBanks_reading ..
  split
  · exact h1.trans (State.markColumn_reading ..)
  · exact h1

theorem State.sramCorrected_reading (s : State) (k col : Nat) : s.Reading (s.sramCorrected k col) := by
  unfold State.sramCorrected
  extract_lets d l r s1 s2 s3
  have h1 : s.Reading s1 := ⟨.refl s, fun _ _ _ _ => rfl⟩
  exact h1.trans ((State.odSet_reading _ _ _ (by omega)).trans
    ((State.event_reading ..).trans ((State.countColumn_reading ..).trans (State.warnIfReached_reading ..))))

theorem State.readWords_reading (s : State) (k n : Nat) : s.Reading (s.readWords k n).1 :=
  foldl_reading (fun s e => by
    split
    · exact State.sramCorrected_reading ..
    · exact .refl s) _ s

theorem State.readCheck_reading (s : State) (k n : Nat) : s.Reading (s.readCheck k n).1 := by
  fun_cases State.readCheck s k n
  case case1 => exact State.readLines_reading ..
  case case2 => exact State.readWords_reading ..
  case case3 => exact .refl s

/-- What a read of the package itself does beside its bytes. -/
theorem State.scanned_reading (s : State) (pa n : Nat) : s.Reading (s.scanned pa n) := by
  unfold State.scanned
  split
  · exact .refl s
  · dsimp only
    split
    · exact (State.readCheck_reading ..).trans (foldl_reading (fun s _ => s.dramBad_reading ..) _ _)
    · exact State.readCheck_reading ..

end Sys2Proof.Machine
end

section
namespace Sys2Proof.Machine

/-! ## Step commits (O13) -/

/-! ### The statistics records as a commit reads them (08 R280) -/

theorem State.recCheck_reading {s : State} {p n t : Nat} {det : List EvField} (h : (s.recCheck p n t det).2 = true) :
    s.Reading (s.recCheck p n t det).1 := by
  revert h
  unfold State.recCheck
  split
  · exact fun _ => .refl s
  · dsimp only
    split
    · exact fun _ => State.readCheck_reading ..
    · exact fun h => absurd h (by simp)

/-- Checks from x to y: all have succeeded when y says so, and then the records read well. -/
def Checked (x y : State × Bool) : Prop := y.2 = true → x.2 = true ∧ x.1.Reading y.1

theorem Checked.refl (x : State × Bool) : Checked x x := fun h => ⟨h, .refl _⟩

theorem Checked.trans {x y z : State × Bool} (h : Checked x y) (h' : Checked y z) : Checked x z := fun hz =>
  have ⟨hy, hyz⟩ := h' hz
  have ⟨hx, hxy⟩ := h hy
  ⟨hx, hxy.trans hyz⟩

theorem foldl_checked {α : Type} {f : State × Bool → α → State × Bool} (h : ∀ x a, Checked x (f x a)) (l : List α)
    (x : State × Bool) : Checked x (l.foldl f x) :=
  List.foldlRecOn l f (motive := Checked x) (.refl x) fun _ hu a _ => hu.trans (h _ a)

theorem State.statsCheck_reading {s : State} {p : Nat} (h : (s.statsCheck p).2 = true) :
    s.Reading (s.statsCheck p).1 := by
  have hall : Checked (s, true) (s.statsCheck p) := by
    refine foldl_checked (fun x n => foldl_checked (fun x t => ?_) _ x) _ _
    split
    next hx => exact fun h => ⟨hx, State.recCheck_reading h⟩
    · exact .refl x
  exact (hall h).2

/-! ### What takes effect (13 R427, R436, R453) -/

theorem State.imageWrite_steady (s : State) (n : Nat) (e : Nat × Byte) : s.Steady (s.imageWrite n e) := by
  refine foldl_steady (fun s i => ?_) _ s
  split
  · exact .of_eq rfl rfl
  · exact .refl s

theorem State.applyDelta_steady (s : State) (p n : Nat) : s.Steady (s.applyDelta p n) := by
  unfold State.applyDelta
  extract_lets b s1 s2
  have h1 : s.Steady s1 := foldl_steady (fun s e => s.imageWrite_steady n e) _ s
  have h2 : s1.Steady s2 := foldl_steady (fun s i => by
    split
    · exact .of_eq rfl rfl
    · exact .refl s) _ s1
  exact h1.trans (h2.trans (.setPart rfl))

theorem State.sealDeltas_steady (s : State) (p : Nat) : s.Steady (s.sealDeltas p) := by
  refine foldl_steady (fun s n => ?_) _ s
  split
  · exact .refl s
  · exact (s.applyDelta_steady p n).trans (.setPart rfl)

theorem State.commitStats_steady (s : State) (p : Nat) : s.Steady (s.commitStats p) := by
  have h1 : s.Steady (s.clearMarks p) := .of_eq rfl rfl
  refine h1.trans (foldl_steady (fun s n => foldl_steady (fun s t => ?_) _ s) _ _)
  split
  · exact State.store_steady ..
  · exact .refl s

theorem State.doffFail_steady (s : State) (p : Nat) : s.Steady (s.doffFail p) :=
  (State.Steady.setPart (x := { s.part p with doff := none, doffStep := false }) rfl).trans
    ((State.odSet_steady ..).trans (State.event_steady ..))

theorem State.writeShard_steady (s : State) (p kind fmt orig layout tensor slot rowOff colOff rows cols : Nat)
    (data : List Byte) :
    s.Steady (s.writeShard p kind fmt orig layout tensor slot rowOff colOff rows cols data) := by
  unfold State.writeShard
  split
  · exact .refl s
  · extract_lets half bytes s1
    split
    · exact State.doffFail_steady ..
    · have h1 : s.Steady s1 := .of_eq (State.doffStoreBoth_cad ..) (State.doffStoreBoth_parts ..)
      exact h1.trans (.setPart rfl)

theorem State.writeSlotStates_steady (s : State) (p : Nat) : s.Steady (s.writeSlotStates p) := by
  unfold State.writeSlotStates
  extract_lets s1
  have h1 : s.Steady s1 := foldl_steady (fun s n => State.writeShard_steady ..) _ s
  split
  · exact h1.trans (.setPart rfl)
  · exact h1

theorem State.decideDoff_steady (s : State) (p next : Nat) : s.Steady (s.decideDoff p next) := by
  unfold State.decideDoff
  extract_lets iv asked s1
  have h1 : s.Steady s1 := by
    unfold s1
    split
    · exact State.odSet_steady ..
    · exact .refl s
  exact h1.trans (.setPart rfl)

/-- Progress after a step commits. -/
def Progress.committed (g : Progress) : Progress :=
  { g with
    epoch := g.epoch + 1, stepsDone := g.stepsDone + 1, slipCommit := g.slip, winsCommit := g.wins
    reused := 0, lateRolls := 0, faultRolls := [], undo := [] }

theorem State.commitStep_effect (s : State) (p : Nat) (d : Draft) :
    ((s.commitStep p d).part p).progress = (s.part p).progress.committed ∧ (s.commitStep p d).cad = s.cad := by
  unfold State.commitStep
  extract_lets s1 s2 x s3 tick wasDoff s4 s5 s6
  have h1 : s.Steady s1 := by
    refine foldl_steady (fun s n => ?_) _ s
    exact .of_eq rfl rfl
  have h2 : s.Steady s2 := h1.trans ((State.commitStats_steady ..).trans (State.sealDeltas_steady ..))
  have hreel : s2.Steady s3 := State.reel_steady ..
  have h4 : (s4.part p).progress = x.progress.committed := by
    unfold s4
    rw [State.part_setPart_same]
    rfl
  have hslots : s5.Steady s6 := by
    unfold s6
    split
    · exact State.writeSlotStates_steady ..
    · exact .refl s5
  have hrest : s4.Steady (s6.decideDoff p (x.epoch.toNat + 1)) :=
    State.Steady.trans (t := s5) (.of_eq rfl rfl) (hslots.trans (State.decideDoff_steady ..))
  constructor
  · rw [hrest.part, h4, h2.part]
  · exact hrest.cad.trans (hreel.cad.trans h2.cad)

theorem State.toLoaded_progress (s : State) (p : Nat) : ∃ st w,
    ((s.toLoaded p).part p).progress = { (s.part p).progress with state := st, wins := w } := by
  fun_cases State.toLoaded s p
  case case1 => exact ⟨(s.part p).state, (s.part p).wins, rfl⟩
  case case2 =>
    rw [State.part_setPart_same]
    exact ⟨_, _, rfl⟩

theorem State.toLoaded_cad (s : State) (p : Nat) : (s.toLoaded p).cad = s.cad := by
  fun_cases State.toLoaded s p <;> simp +zetaDelta [State.dropDraftColls]

/-- After a commit a draft runs on or rests: at most its state and its windows change. -/
theorem State.afterCommit_progress (s : State) (p : Nat) (d : Draft) : ∃ st w,
    ((s.afterCommit p d).part p).progress = { (s.part p).progress with state := st, wins := w } := by
  fun_cases State.afterCommit s p d
  case case1 =>
    rw [State.part_of_parts (State.event_parts ..)]
    exact s.toLoaded_progress p
  case case2 => exact s.toLoaded_progress p
  case case3 =>
    rw [(s.syncDraft_sameProgress p).part p]
    generalize (s.part p).progress = g
    exact ⟨g.state, g.wins, rfl⟩

theorem State.afterCommit_cad (s : State) (p : Nat) (d : Draft) : (s.afterCommit p d).cad = s.cad := by
  fun_cases State.afterCommit s p d <;> simp [State.toLoaded_cad]

/-- The step commits, and the draft goes on from there. -/
theorem State.commit_effect (s : State) (p : Nat) (d : Draft) :
    let u := (s.commitStep p d).afterCommit p d
    let x := s.part p
    (u.part p).epoch = x.epoch + 1 ∧ (u.part p).stepsDone = x.stepsDone + 1 ∧ (u.part p).winsCommit = x.wins ∧
    (u.part p).slipCommit = x.slip ∧ (u.part p).reused = 0 ∧ (u.part p).undo = [] ∧ (u.part p).lateRolls = 0 ∧
    (u.part p).faultRolls = [] ∧ u.cad = s.cad := by
  intro u x
  obtain ⟨hpart, hcad⟩ := s.commitStep_effect p d
  obtain ⟨st, w, hafter⟩ := (s.commitStep p d).afterCommit_progress p d
  have h : (u.part p).progress = { (s.part p).progress.committed with state := st, wins := w } := by
    rw [← hpart]
    exact hafter
  simp only [Part.progress, Progress.committed, Progress.mk.injEq] at h
  obtain ⟨-, -, hepoch, -, hsteps, -, -, hwins, hslip, hreused, hundo, hlate, hfault⟩ := h
  exact ⟨hepoch, hsteps, hwins, hslip, hreused, hundo, hlate, hfault, (State.afterCommit_cad ..).trans hcad⟩

/-! ### A halt (02 Table 02-8) -/

theorem State.halt_part {s : State} {p : Nat} (h : (s.part p).state ≠ .halted) :
    ((s.halt p).part p).state = .halted ∧ ((s.halt p).part p).epoch = (s.part p).epoch := by
  unfold State.halt
  extract_lets x s1 s2
  have h2 : s2.parts = s1.parts := by
    unfold s2
    split <;> rfl
  rw [if_neg h, State.part_of_parts ((State.event_parts ..).trans h2), State.part_setPart_same]
  exact ⟨rfl, rfl⟩

/-- A halt writes the replay state of its partition and raises its event. -/
theorem State.halt_odGet (s : State) (p i j : Nat) (h1 : odKey i j ≠ odKey (0x2034 + p) 5)
    (h2 : odKey i j ≠ odKey 0xB102 12) (h3 : odKey i j ≠ odKey 0xB202 12) : (s.halt p).odGet i j = s.odGet i j := by
  fun_cases State.halt s p
  case case1 => rfl
  case case2 x hx s1 s2 =>
    rw [State.event_odGet _ 0x020C _ _ _ _ h2 h3]
    unfold s2
    split
    · exact State.odGet_odSet_other _ _ _ _ _ _ (by omega)
    · rfl

section
variable {t : Nat} {p : PartIdx} {d : Draft} {r0 s : State} (h : r0.arrive t = s) (hd : (s.part p.val).draft = some d)
include h hd

theorem execStepCommit_of_passed (hs : s.syncDraft p.val = s) (ha : s.atCommit p.val d = true) (hp : d.packages = 1)
    (ht : (s.part p.val).tainted = false) (hc : s.checksPassed d = true)
    (hsig : d.slots.all (fun n => (s.part p.val).sigOk.contains n) = true) (hst : (s.statsCheck p.val).2 = true) :
    exec (.stepCommit t p) r0 = .next (((s.statsCheck p.val).1.commitStep p.val d).afterCommit p.val d) := by
  have hpair : s.statsCheck p.val = ((s.statsCheck p.val).1, true) := by rw [← hst]
  simp only [exec, execStepCommit, h, hs, hd, ha, hp, ht, hc, hsig]
  rw [hpair]
  rfl

theorem execStepCommit_of_unsigned (hs : s.syncDraft p.val = s) (ha : s.atCommit p.val d = true)
    (ht : (s.part p.val).tainted = false) (hsig : d.slots.all (fun n => (s.part p.val).sigOk.contains n) = false) :
    exec (.stepCommit t p) r0 = .next s := by
  simp only [exec, execStepCommit, h, hs, hd, ha, ht, hsig]
  simp

theorem execCommitVoteLost_of_late (ha : s.atCommit p.val d = true) (hp : 1 < d.packages)
    (hv : (s.part p.val).voteResult = none) (ht : s.commitTime p.val d + 20 * unitsPerUs ≤ s.now) :
    exec (.commitVoteLost t p) r0 = .next ((s.event 0x0A04 (ofPart p.val) []).halt p.val) := by
  simp only [exec, execCommitVoteLost, h, hd, ha, hv, hp, ht]
  rfl
end

theorem State.atCommit_running {s : State} {p : Nat} {d : Draft} (h : s.atCommit p d = true) : (s.part p).state = .running := by
  unfold State.atCommit Part.issuing at h
  simp only [Bool.and_eq_true, beq_iff_eq] at h
  obtain ⟨⟨⟨⟨⟨⟨⟨hrun, -⟩, -⟩, -⟩, -⟩, -⟩, -⟩, -⟩ := h
  exact hrun

/-- A vote that is lost halts the draft, with its event. -/
theorem State.voteLost_effect {s : State} {p : Nat} (hp : p < 4) (hrun : (s.part p).state = .running) :
    let u := (s.event 0x0A04 (ofPart p) []).halt p
    (u.part p).state = .halted ∧ u.odGet 0xB10A 4 = s.odGet 0xB10A 4 + 1 ∧ (u.part p).epoch = (s.part p).epoch ∧
    u.mem = s.mem := by
  intro u
  have hpart : (s.event 0x0A04 (ofPart p) []).part p = s.part p := State.part_of_parts (State.event_parts ..) p
  obtain ⟨hstate, hepoch⟩ := State.halt_part (s := s.event 0x0A04 (ofPart p) []) (p := p) (by simp [hpart, hrun])
  refine ⟨hstate, ?_, by rw [hepoch, hpart], by simp [u]⟩
  rw [State.halt_odGet _ _ _ _ (by unfold odKey; omega) (by decide) (by decide)]
  exact s.event_count 0x0A04 _ _

/-- Settles O13: by what a commit and a halt leave of the partition. -/
theorem stepCommitEffect : Obligations.StepCommitEffect := by
  intro t p d r0 s hd x
  refine ⟨fun hs ha hp ht => ⟨fun hc hsig hst => ?_, fun hsig => ?_⟩, fun ha hp hv ht => ?_⟩
  · have hread := State.statsCheck_reading hst
    obtain ⟨hcad, hparts, -, -⟩ := hread.level
    refine ⟨_, execStepCommit_of_passed rfl hd hs ha hp ht hc hsig hst, ?_⟩
    have heffect := (s.statsCheck p.val).1.commit_effect p.val d
    rw [State.part_of_parts hparts, hcad] at heffect
    exact heffect
  · exact execStepCommit_of_unsigned rfl hd hs ha ht hsig
  · exact ⟨_, execCommitVoteLost_of_late rfl hd ha hp hv ht, State.voteLost_effect p.isLt (State.atCommit_running ha)⟩

end Sys2Proof.Machine
end

section
namespace Sys2Proof.Machine

/-! ## Draft control (O10) -/

/-! ### What a command changes of the other partitions and of its own reject reason -/

/-- Every partition but p, and draft_reject of p, are in u as in s. -/
structure State.DraftOnly (s u : State) (p : Nat) : Prop where
  other : ∀ r, r ≠ p → u.part r = s.part r
  reject : u.odGet (0x2020 + p) 6 = s.odGet (0x2020 + p) 6

section
variable {p : Nat}

theorem State.DraftOnly.refl (s : State) : s.DraftOnly s p := ⟨fun _ _ => rfl, rfl⟩

theorem State.DraftOnly.trans {s t u : State} (h : s.DraftOnly t p) (h' : t.DraftOnly u p) : s.DraftOnly u p :=
  ⟨fun r hr => (h'.other r hr).trans (h.other r hr), h'.reject.trans h.reject⟩

theorem foldl_draftOnly {α : Type} {f : State → α → State} (h : ∀ s a, State.DraftOnly s (f s a) p) (l : List α)
    (s : State) : s.DraftOnly (l.foldl f s) p :=
  List.foldlRecOn l f (motive := fun u => s.DraftOnly u p) (.refl s) fun _ hu a _ => hu.trans (h _ a)

theorem State.DraftOnly.of_eq {s u : State} (hp : u.parts = s.parts) (ho : u.od = s.od) (hc : u.cfg = s.cfg) :
    s.DraftOnly u p :=
  ⟨fun r _ => State.part_of_parts hp r, by simp [State.odGet, ho, hc]⟩

theorem State.Reading.draftOnly {s u : State} (h : s.Reading u) (hp : p < 4) : s.DraftOnly u p := by
  obtain ⟨-, hparts, -, -⟩ := h.level
  exact ⟨fun r _ => State.part_of_parts hparts r, h.od _ _ (by omega) (by omega)⟩

theorem State.setPart_draftOnly (s : State) (p : Nat) (x : Part) : s.DraftOnly (s.setPart p x) p :=
  ⟨fun _ hr => State.part_setPart_other s x hr, rfl⟩

theorem State.odSet_draftOnly (s : State) {i j : Nat} (v : Nat) (h : odKey (0x2020 + p) 6 ≠ odKey i j) :
    s.DraftOnly (s.odSet i j v) p :=
  ⟨fun _ _ => rfl, State.odGet_odSet_other _ _ _ _ _ _ h⟩

theorem State.event_draftOnly (s : State) (c : Nat) (w : EvWho) (d : List EvField) (hp : p < 4) :
    s.DraftOnly (s.event c w d) p := (s.event_reading c w d).draftOnly hp
end

/-! ### Commands and their answers (15 R499) -/

section
variable {s u : State} {q : Option Nat} {idx sub : Nat} {run : State → State × Bool} (h : s.refusal q idx sub true = none)
include h

theorem State.command_done (hr : run s = (u, true)) : s.command q idx sub run = u.answer stOk [] := by
  simp only [State.command, h, hr]
  rfl

theorem State.command_rejected (hr : run s = (u, false)) : s.command q idx sub run = u.answer stRejected [] := by
  simp only [State.command, h, hr]
  rfl
end

/-- A command that is done answers OK. -/
theorem State.DraftOnly.answer_ok {s u : State} {p : Nat} (h : s.DraftOnly u p) :
    (u.answer stOk []).ans.status = stOk ∧ (u.answer stOk []).odGet (0x2020 + p) 6 = s.odGet (0x2020 + p) 6 ∧
    ∀ r, r ≠ p → (u.answer stOk []).part r = s.part r := ⟨rfl, h.reject, h.other⟩

/-- A refusal changes the reject reason and raises its event, and nothing of the drafts. -/
theorem State.draftReject_effect (s : State) {p : Nat} (reason : Nat) (hp : p < 4) :
    let u := (s.draftReject p reason).1.answer stRejected []
    u.ans.status = stRejected ∧ u.odGet (0x2020 + p) 6 = reason ∧ u.odGet 0xB102 8 = s.odGet 0xB102 8 + 1 ∧
    u.parts = s.parts ∧ u.mem = s.mem ∧ u.cad = s.cad := by
  refine ⟨rfl, ?_, ?_, ?_⟩
  · refine Eq.trans ?_ (State.odGet_odSet_same s (0x2020 + p) 6 reason)
    exact State.event_odGet _ 0x0208 _ _ _ _ (by unfold odKey; omega) (by unfold odKey; omega)
  · refine ((s.odSet (0x2020 + p) 6 reason).event_count 0x0208 (ofPart p) [.half reason]).trans ?_
    rw [State.odGet_odSet_other _ _ _ _ _ _ (by unfold odKey; omega)]
  · simp [State.draftReject]

/-! ### Load (02 R73) -/

theorem State.setOwn_draftOnly (s : State) (p region state domain path : Nat) :
    s.DraftOnly (s.setOwn region state domain path) p := by
  fun_cases State.setOwn s region state domain path <;> exact .of_eq rfl rfl rfl

theorem State.forceOpen_draftOnly (s : State) (region : Nat) {p : Nat} (hp : p < 4) : s.DraftOnly (s.forceOpen region) p := by
  refine .trans ?_ (State.event_draftOnly _ _ _ _ hp)
  exact .of_eq rfl rfl rfl

theorem State.endStartup_draftOnly (s : State) (k p : Nat) : s.DraftOnly (s.endStartup k) p := by
  fun_cases State.endStartup s k <;> exact .of_eq rfl rfl rfl

theorem State.takeRanges_draftOnly (s : State) {p : Nat} (hp : p < 4) : s.DraftOnly (s.takeRanges p) p := by
  refine (s.setPart_draftOnly p { s.part p with persist := [] }).trans (foldl_draftOnly (fun s r => ?_) _ _)
  split
  · exact State.setPart_draftOnly ..
  · exact State.event_draftOnly _ _ _ _ hp

theorem State.takeRanges_sameProgress (s : State) (p : Nat) : s.SameProgress (s.takeRanges p) := by
  have h : s.SameProgress (s.setPart p { s.part p with persist := [] }) := .setPart rfl
  refine h.trans (foldl_sameProgress (fun s r => ?_) _ _)
  split
  · exact .setPart rfl
  · exact .of_parts (State.event_parts ..)

theorem State.setLiveSets_draftOnly (s : State) {p : Nat} (hp : p < 4) : s.DraftOnly (s.setLiveSets p) p :=
  foldl_draftOnly (fun s n => s.odSet_draftOnly _ (by unfold odKey; omega)) _ s

theorem State.setLiveSets_parts (s : State) (p : Nat) : (s.setLiveSets p).parts = s.parts :=
  foldl_parts (fun _ _ => State.odSet_parts ..) _ s

/-- A draft that passed every check is LOADED, at epoch 0. -/
theorem State.installDraft_effect (s : State) {p : Nat} (d : Draft) (hp : p < 4) :
    ((s.installDraft p d).part p).state = .loaded ∧ ((s.installDraft p d).part p).draft = some d ∧
    ((s.installDraft p d).part p).epoch = 0 ∧ s.DraftOnly (s.installDraft p d) p := by
  unfold State.installDraft
  extract_lets s1 res s2 x s3 held s4 sec s5 s6
  have h1 : s.DraftOnly s1 p := by
    refine foldl_draftOnly (fun s r => .trans ?_ (State.setOwn_draftOnly ..)) _ s
    split
    · exact State.forceOpen_draftOnly _ _ hp
    · exact .refl s
  have h2 : s1.DraftOnly s2 p := s1.odSet_draftOnly _ (by unfold odKey; omega)
  have h3 : s2.DraftOnly s3 p := State.setPart_draftOnly ..
  have h6 : s3.DraftOnly s6 p := .of_eq rfl rfl rfl
  have hsame : s3.SameProgress ((s6.takeRanges p).setLiveSets p) :=
    State.SameProgress.trans (t := s6) (.of_parts rfl)
      ((s6.takeRanges_sameProgress p).trans (.of_parts (State.setLiveSets_parts ..)))
  obtain ⟨hstate, hdraft, hepoch, -⟩ := Part.progress_eq (hsame.part p)
  have hpart : s3.part p = { s2.part p with
    state := .loaded, draft := some d, wins := d.initWins [], creel := res, variant := 0, epoch := 0, slip := 0
    lag := 0 } := State.part_setPart_same ..
  rw [hstate, hdraft, hepoch, hpart]
  exact ⟨rfl, rfl, rfl, h1.trans (h2.trans (h3.trans (h6.trans
    ((State.takeRanges_draftOnly _ hp).trans (State.setLiveSets_draftOnly _ hp)))))⟩

/-- The image as a load reads it. -/
def State.imageRead (s : State) (p : Nat) : State :=
  if s.imageThere p then s.scanned (s.odGet (0x2020 + p) 1) (s.odGet (0x2020 + p) 2) else s

theorem State.imageRead_reading (s : State) (p : Nat) : s.Reading (s.imageRead p) := by
  unfold State.imageRead
  split
  · exact State.scanned_reading ..
  · exact .refl s

/-! ### Start (02 R74) -/

theorem State.startReason_of_loaded {s : State} {p : Nat} {d : Draft} (hx : (s.part p).state = .loaded)
    (hd : (s.part p).draft = some d) (he : s.cad.everLocked = true) (hdead : s.cad.dead = false) (hp : d.packages ≤ 1)
    (ht : s.cad.tick.toNat + 2 ≤ s.odGet (0x2020 + p) 5) : s.startReason p = 0 := by
  simp only [State.startReason, hx, hd, he, hdead]
  rw [if_neg (by simp), if_neg (by omega), if_neg (by omega)]

theorem State.startReason_of_not_loaded {s : State} {p : Nat} (hx : (s.part p).state ≠ .loaded) :
    s.startReason p = 0x10 := by
  unfold State.startReason
  extract_lets x
  split
  next h _ => exact absurd h hx
  · rfl

/-- The slots of a partition with a valid image seed; the others have none. -/
def State.seedSlots (s : State) (p : Nat) : State :=
  (s.partSlots p).foldl (fun s n =>
    if (s.images n).isEmpty then s.odSet 0x8005 (n + 1) 0 else s.odSet 0x8005 (n + 1) 1) s

theorem State.seedSlots_reading (s : State) (p : Nat) : s.Reading (s.seedSlots p) :=
  foldl_reading (fun s n => by
    split <;> exact s.odSet_reading _ _ (by omega)) _ s

/-- The state ARMED, and the seeding that begins with it. -/
def State.armed (s : State) (p : Nat) : State := (s.setPart p { s.part p with state := .armed }).seedSlots p

theorem State.armed_effect (s : State) {p : Nat} (hp : p < 4) :
    (s.armed p).part p = { s.part p with state := .armed } ∧ (s.armed p).mem = s.mem ∧ s.DraftOnly (s.armed p) p := by
  have hread := (s.setPart p { s.part p with state := .armed }).seedSlots_reading p
  obtain ⟨-, hparts, hmem, -⟩ := hread.level
  exact ⟨(State.part_of_parts hparts p).trans (State.part_setPart_same ..), hmem,
    (s.setPart_draftOnly p _).trans (hread.draftOnly hp)⟩

/-! ### Abort and unload (02 R74, R76) -/

theorem foldl_clearSlot_draftOnly (l : List Nat) (s : State) (p : Nat) :
    s.DraftOnly (l.foldl (fun s n => s.clearSlot n) s) p := by
  refine foldl_draftOnly (fun s n => ?_) l s
  exact .of_eq rfl rfl rfl

theorem foldl_clearSlot_parts (l : List Nat) (s : State) : (l.foldl (fun s n => s.clearSlot n) s).parts = s.parts := by
  refine foldl_parts (fun s n => ?_) l s
  rfl

theorem foldl_clearSlot_mem (l : List Nat) (s : State) : (l.foldl (fun s n => s.clearSlot n) s).mem = s.mem := by
  refine foldl_keeps State.mem _ (fun s n => ?_) l s
  rfl

theorem State.toLoaded_draftOnly (s : State) (p : Nat) : s.DraftOnly (s.toLoaded p) p := by
  unfold State.toLoaded
  extract_lets x s1 s2
  split
  · exact .refl s
  · have h1 : s.DraftOnly s1 p := .of_eq rfl rfl rfl
    have h2 : s1.DraftOnly s2 p := by
      unfold s2
      split
      · exact s1.odSet_draftOnly _ (by unfold odKey; omega)
      · exact .refl s1
    exact h1.trans (h2.trans (State.setPart_draftOnly ..))

theorem State.toLoaded_mem (s : State) (p : Nat) : (s.toLoaded p).mem = s.mem := by
  fun_cases State.toLoaded s p <;> simp +zetaDelta [State.dropDraftColls]

theorem State.toLoaded_part {s : State} {p : Nat} {d : Draft} (hd : (s.part p).draft = some d) :
    ((s.toLoaded p).part p).state = .loaded ∧ ((s.toLoaded p).part p).draft = some d ∧
    ((s.toLoaded p).part p).held = (s.part p).held ∧ ((s.toLoaded p).part p).heldTiles = (s.part p).heldTiles := by
  unfold State.toLoaded
  extract_lets x
  split
  next h => exact absurd (hd.symm.trans h) (by simp)
  next d' h' =>
    rw [State.part_setPart_same]
    exact ⟨rfl, hd, rfl, rfl⟩

/-- A partition whose outputs of the running draft are discarded. -/
def Part.discard (x : Part) (tick : Nat) : Part :=
  { x with
    held := x.held.filter (fun h => h.gone), heldTiles := x.heldTiles.filter (fun h => h.gone)
    commits := x.commits.filter (fun h => h.gone), dropTick := some tick }

theorem State.abortDraft_eq (s : State) (p : Nat) : s.abortDraft p =
    let u := (s.draftSlots p).foldl (fun s n => s.clearSlot n) s
    (u.setPart p ((u.part p).discard u.cad.tick.toNat)).toLoaded p := rfl

theorem State.abortDraft_effect {s : State} {p : Nat} {d : Draft} (hd : (s.part p).draft = some d) :
    ((s.abortDraft p).part p).state = .loaded ∧ ((s.abortDraft p).part p).draft = some d ∧
    ((s.abortDraft p).part p).held = (s.part p).held.filter (fun h => h.gone) ∧
    ((s.abortDraft p).part p).heldTiles = (s.part p).heldTiles.filter (fun h => h.gone) ∧ (s.abortDraft p).mem = s.mem ∧
    s.DraftOnly (s.abortDraft p) p := by
  rw [State.abortDraft_eq]
  extract_lets u
  have hx : u.part p = s.part p := State.part_of_parts (foldl_clearSlot_parts ..) p
  obtain ⟨hstate, hdraft, hheld, htiles⟩ :=
    State.toLoaded_part (s := u.setPart p ((u.part p).discard u.cad.tick.toNat)) (p := p) (d := d)
      (by rw [State.part_setPart_same, hx]; exact hd)
  refine ⟨hstate, hdraft, hheld.trans ?_, htiles.trans ?_, (State.toLoaded_mem ..).trans (foldl_clearSlot_mem ..),
    (foldl_clearSlot_draftOnly ..).trans ((State.setPart_draftOnly ..).trans (State.toLoaded_draftOnly ..))⟩
  all_goals
    rw [State.part_setPart_same, hx]
    rfl

theorem State.emptyDraft_effect {s : State} {p : Nat} {d : Draft} (hd : (s.part p).draft = some d) :
    ((s.emptyDraft p).part p).state = .empty ∧ ((s.emptyDraft p).part p).draft = none ∧
    ((s.emptyDraft p).part p).creel = [] ∧ (s.emptyDraft p).odGet (0x2020 + p) 7 = 0 ∧
    s.DraftOnly (s.emptyDraft p) p := by
  unfold State.emptyDraft
  split
  next h => exact absurd (hd.symm.trans h) (by simp)
  next d' _ =>
    extract_lets s1 s2 s3 x
    have h1 : s.DraftOnly s1 p := foldl_draftOnly (fun s r => State.setOwn_draftOnly ..) _ s
    have h2 : s1.DraftOnly s2 p := .of_eq rfl rfl rfl
    have h3 : s2.DraftOnly s3 p := s2.odSet_draftOnly _ (by unfold odKey; omega)
    rw [State.part_setPart_same]
    exact ⟨rfl, rfl, rfl, State.odGet_odSet_same .., h1.trans (h2.trans (h3.trans (State.setPart_draftOnly ..)))⟩

/-! ### The rows -/

section
variable {t : Nat} {q : Option Nat} {p : PartIdx} {r0 s : State} (h : r0.arrive t = s)
  (ha : s.refusal q (0x2020 + p.val) 3 true = none)
include h ha

theorem execDraftLoad_of_passed (hx : (s.part p.val).state = .empty)
    (hr : ((s.imageRead p.val).loadReason p.val).1 = 0) : exec (.draftLoad t q p) r0 =
      .next ((((s.imageRead p.val).installDraft p.val ((s.imageRead p.val).loadReason p.val).2).endStartup 10).answer stOk []) := by
  subst h
  exact congrArg _ (State.command_done ha ((if_neg (not_not.2 hx)).trans (if_neg (not_not.2 hr))))

theorem execDraftLoad_of_failed (hx : (s.part p.val).state = .empty)
    (hr : ((s.imageRead p.val).loadReason p.val).1 ≠ 0) : exec (.draftLoad t q p) r0 =
      .next (((s.imageRead p.val).draftReject p.val ((s.imageRead p.val).loadReason p.val).1).1.answer stRejected []) := by
  subst h
  exact congrArg _ (State.command_rejected ha ((if_neg (not_not.2 hx)).trans (if_pos hr)))

theorem execDraftLoad_of_not_empty (hx : (s.part p.val).state ≠ .empty) :
    exec (.draftLoad t q p) r0 = .next ((s.draftReject p.val 0x10).1.answer stRejected []) := by
  subst h
  exact congrArg _ (State.command_rejected ha (if_pos hx))

theorem execDraftStart_of_startable (hr : s.startReason p.val = 0) :
    exec (.draftStart t q p) r0 = .next ((s.armed p.val).answer stOk []) := by
  subst h
  exact congrArg _ (State.command_done ha (if_neg (not_not.2 hr)))

theorem execDraftStart_of_not_loaded (hx : (s.part p.val).state ≠ .loaded) :
    exec (.draftStart t q p) r0 = .next ((s.draftReject p.val 0x10).1.answer stRejected []) := by
  have hr := State.startReason_of_not_loaded hx
  rw [← hr]
  subst h
  exact congrArg _ (State.command_rejected ha (if_pos (by rw [hr]; decide)))

theorem execDraftStop_of_running (hx : (s.part p.val).state = .running) : exec (.draftStop t q p) r0 =
    .next ((s.setPart p.val { s.part p.val with stopPending := true }).answer stOk []) := by
  subst h
  exact congrArg _ (State.command_done ha (if_neg (not_not.2 hx)))

theorem execDraftStop_of_not_running (hx : (s.part p.val).state ≠ .running) :
    exec (.draftStop t q p) r0 = .next ((s.draftReject p.val 0x10).1.answer stRejected []) := by
  subst h
  exact congrArg _ (State.command_rejected ha (if_pos hx))

theorem execDraftAbort_of_started
    (hx : (s.part p.val).state = .armed ∨ (s.part p.val).state = .running ∨ (s.part p.val).state = .halted) :
    exec (.draftAbort t q p) r0 = .next ((s.abortDraft p.val).answer stOk []) := by
  subst h
  refine congrArg _ (State.command_done ha ?_)
  rcases hx with hx | hx | hx <;> simp only [hx]

theorem execDraftAbort_of_resting (hx : (s.part p.val).state = .empty ∨ (s.part p.val).state = .loaded) :
    exec (.draftAbort t q p) r0 = .next ((s.draftReject p.val 0x10).1.answer stRejected []) := by
  subst h
  refine congrArg _ (State.command_rejected ha ?_)
  rcases hx with hx | hx <;> simp only [hx] <;> rfl

theorem execDraftUnload_of_loaded (hx : (s.part p.val).state = .loaded) :
    exec (.draftUnload t q p) r0 = .next ((s.emptyDraft p.val).answer stOk []) := by
  subst h
  exact congrArg _ (State.command_done ha (if_neg (not_not.2 hx)))

theorem execDraftUnload_of_not_loaded (hx : (s.part p.val).state ≠ .loaded) :
    exec (.draftUnload t q p) r0 = .next ((s.draftReject p.val 0x10).1.answer stRejected []) := by
  subst h
  exact congrArg _ (State.command_rejected ha (if_pos hx))
end

/-- A load that passes its checks leaves a LOADED draft, and nothing else of the drafts. -/
theorem State.load_effect (s : State) {p : Nat} (d : Draft) (hp : p < 4) :
    let u := ((s.imageRead p).installDraft p d).endStartup 10
    (u.part p).state = .loaded ∧ (u.part p).draft = some d ∧ (u.part p).epoch = 0 ∧ s.DraftOnly u p := by
  intro u
  obtain ⟨hstate, hdraft, hepoch, honly⟩ := (s.imageRead p).installDraft_effect d hp
  obtain ⟨hstate', hdraft', hepoch', -⟩ :=
    Part.progress_eq ((State.endStartup_steady ((s.imageRead p).installDraft p d) 10).part p)
  exact ⟨hstate'.trans hstate, hdraft'.trans hdraft, hepoch'.trans hepoch,
    ((s.imageRead_reading p).draftOnly hp).trans (honly.trans (State.endStartup_draftOnly ..))⟩

/-- Settles O10: each command by the state its partition is in. -/
theorem draftControlCommands : Obligations.DraftControlCommands := by
  intro t q p r0 s
  have hs : r0.arrive t = s := rfl
  clear_value s
  intro ha x done refused
  have hreject (u : State) (hu : u = (s.draftReject p.val 0x10).1.answer stRejected []) : refused u := by
    rw [hu]
    exact s.draftReject_effect 0x10 p.isLt
  refine ⟨fun hx => ?_, fun hx => ⟨_, execDraftLoad_of_not_empty hs ha hx, hreject _ rfl⟩,
    fun d hx hd he hdead hpk ht => ?_, fun hx => ⟨_, execDraftStart_of_not_loaded hs ha hx, hreject _ rfl⟩,
    fun hx => ?_, fun hx => ⟨_, execDraftStop_of_not_running hs ha hx, hreject _ rfl⟩,
    fun d hx hd => ?_, fun hx => ⟨_, execDraftAbort_of_resting hs ha hx, hreject _ rfl⟩,
    fun d hx hd => ?_, fun hx => ⟨_, execDraftUnload_of_not_loaded hs ha hx, hreject _ rfl⟩⟩
  · intro read res
    refine ⟨fun hr => ?_, fun hr => ?_⟩
    · obtain ⟨hstate, hdraft, hepoch, honly⟩ := s.load_effect res.2 p.isLt
      exact ⟨_, execDraftLoad_of_passed hs ha hx hr, hstate, hdraft, hepoch, honly.answer_ok⟩
    · obtain ⟨hans, hreason, -, hparts, hmem, -⟩ := (s.imageRead p.val).draftReject_effect res.1 p.isLt
      obtain ⟨-, hparts', hmem', -⟩ := (s.imageRead_reading p.val).level
      exact ⟨_, execDraftLoad_of_failed hs ha hx hr, hans, hreason, hparts.trans hparts', hmem.trans hmem'⟩
  · obtain ⟨hpart, hmem, honly⟩ := s.armed_effect p.isLt
    exact ⟨_, execDraftStart_of_startable hs ha (State.startReason_of_loaded hx hd he hdead hpk ht), hpart, hmem,
      honly.answer_ok⟩
  · exact ⟨_, execDraftStop_of_running hs ha hx, State.part_setPart_same .., rfl, (s.setPart_draftOnly ..).answer_ok⟩
  · obtain ⟨hstate, hdraft, hheld, htiles, hmem, honly⟩ := State.abortDraft_effect hd
    exact ⟨_, execDraftAbort_of_started hs ha hx, hstate, hdraft, hheld, htiles, hmem, honly.answer_ok⟩
  · obtain ⟨hstate, hdraft, hcreel, hdigest, honly⟩ := State.emptyDraft_effect hd
    exact ⟨_, execDraftUnload_of_loaded hs ha hx, hstate, hdraft, hcreel, hdigest, honly.answer_ok⟩

end Sys2Proof.Machine
end

section
namespace Sys2Proof.Machine

/-! ## What the reel's records leave of the draft objects

A record of the reel counts among the objects of its own part, and raises at most events of other groups. -/

/-- The objects below the reel's records and the counts of the draft events are in u as in s. -/
structure State.DraftObjects (s u : State) : Prop where
  kept : ∀ i j, i < 0x2034 ∨ i = 0xB102 → j < 256 → u.odGet i j = s.odGet i j

theorem State.DraftObjects.refl (s : State) : s.DraftObjects s := ⟨fun _ _ _ _ => rfl⟩

theorem State.DraftObjects.trans {s t u : State} (h : s.DraftObjects t) (h' : t.DraftObjects u) : s.DraftObjects u :=
  ⟨fun i j hi hj => (h'.kept i j hi hj).trans (h.kept i j hi hj)⟩

theorem State.DraftObjects.of_eq {s u : State} (ho : u.od = s.od) (hc : u.cfg = s.cfg) : s.DraftObjects u :=
  ⟨fun i j _ _ => by simp [State.odGet, ho, hc]⟩

theorem foldl_draftObjects {α : Type} {f : State → α → State} (h : ∀ s a, State.DraftObjects s (f s a)) (l : List α)
    (s : State) : s.DraftObjects (l.foldl f s) :=
  List.foldlRecOn l f (motive := s.DraftObjects) (.refl s) fun _ hu a _ => hu.trans (h _ a)

theorem State.odSet_draftObjects (s : State) {i j : Nat} (v : Nat) (hi : 0x2034 ≤ i) (hk : odKey i j < odKey 0xB102 0) :
    s.DraftObjects (s.odSet i j v) :=
  ⟨fun i' j' hi' hj' => State.odGet_odSet_other _ _ _ _ _ _ (by unfold odKey at *; omega)⟩

theorem State.event_draftObjects (s : State) {c : Nat} (w : EvWho) (d : List EvField) (hc : c < 65536) (hg : c / 256 ≠ 2) :
    s.DraftObjects (s.event c w d) :=
  ⟨fun i j hi hj => State.event_odGet _ _ _ _ _ _ (by unfold odKey; omega) (by unfold odKey; omega)⟩

theorem State.dramBad_draftObjects (s : State) {d : Nat} (q : Option Nat) (det : List EvField) (hd : d < 32) :
    s.DraftObjects (s.dramBad d q det) :=
  (s.odSet_draftObjects _ (by omega) (by unfold odKey; omega)).trans
    (State.event_draftObjects _ _ _ (by omega) (by omega))

theorem State.putParts_putMem_draftObjects (s : State) (k : Nat) (l : List Byte) :
    s.DraftObjects (s.putParts k l State.putMem) := by
  have hbad : s.DraftObjects ((s.partBad k l.length).foldl (fun s _ => s.dramBad (keyDie k) none []) s) := by
    by_cases hk : k < 2 ^ 41
    · exact foldl_draftObjects (fun s _ => s.dramBad_draftObjects _ _ (by unfold keyDie; rw [if_pos hk]; omega)) _ s
    · have hnil : s.partBad k l.length = [] := by
        simp only [State.partBad, decide_eq_false hk]
        simp
      rw [hnil]
      exact .refl s
  fun_cases State.putParts s k l State.putMem
  case case1 => exact hbad
  case case2 => exact hbad.trans (.of_eq rfl rfl)

section
variable {q : Nat} (hq : q < 4)
include hq

theorem State.odSet_reel_draftObjects (s : State) {j : Nat} (v : Nat) (hj : j < 256) :
    s.DraftObjects (s.odSet (0x2034 + q) j v) := s.odSet_draftObjects v (by omega) (by unfold odKey; omega)

theorem State.reelStore_draftObjects (s : State) (r : Reel) (o : Nat) (l : List Byte) :
    s.DraftObjects (s.reelStore q r o l) := by
  fun_cases State.reelStore s q r o l
  case case1 => exact State.putParts_putMem_draftObjects ..
  case case2 => exact State.odSet_reel_draftObjects hq _ _ (by omega)

theorem State.reelPut_draftObjects (s : State) (t n : Nat) (l : List Nat) : s.DraftObjects (s.reelPut q t n l) := by
  unfold State.reelPut
  extract_lets r w bytes w' kept gone rd lostNow s1 s2 s3 tell s4
  have h2 : s.DraftObjects s2 :=
    (State.reelStore_draftObjects hq ..).trans (State.odSet_reel_draftObjects hq _ _ (by omega))
  have h3 : s.DraftObjects s3 := by
    unfold s3
    split
    · exact h2
    · exact h2.trans ((State.odSet_reel_draftObjects hq _ _ (by omega)).trans
        (State.odSet_reel_draftObjects hq _ _ (by omega)))
  have h4 : s.DraftObjects s4 := h3.trans (.of_eq rfl rfl)
  split
  · exact h4.trans (State.event_draftObjects _ _ _ (by omega) (by omega))
  · exact h4

theorem State.reelWrite_draftObjects (s : State) (t n : Nat) (l : List Nat) : s.DraftObjects (s.reelWrite q t n l) := by
  unfold State.reelWrite
  extract_lets r w u
  have hu : s.DraftObjects u := by
    unfold u
    split
    · exact .refl s
    · exact State.reelPut_draftObjects hq ..
  exact hu.trans (State.reelPut_draftObjects hq ..)

theorem State.reel_draftObjects (s : State) (t n : Nat) (l : List Nat) : s.DraftObjects (s.reel q t n l) := by
  fun_cases State.reel s q t n l
  case case1 => exact .refl s
  case case2 => exact State.reelWrite_draftObjects hq ..
  case case3 r _ _ _ _ _ u =>
    have hu : s.DraftObjects u := by
      unfold u
      split
      · exact .refl s
      · exact (State.reelWrite_draftObjects hq s 0x0E 2 [r.dropped]).trans (.of_eq rfl rfl)
    exact hu.trans (State.reelWrite_draftObjects hq ..)
  case case4 v u _ =>
    have hu : s.DraftObjects u := (State.odSet_reel_draftObjects hq s _ (by omega)).trans (.of_eq rfl rfl)
    exact hu.trans (State.event_draftObjects _ _ _ (by omega) (by omega))
  case case5 => exact (State.odSet_reel_draftObjects hq s _ (by omega)).trans (.of_eq rfl rfl)
end

end Sys2Proof.Machine
end

section
namespace Sys2Proof.Machine

/-! ## Gates (O12) -/

/-! ### Windows -/

theorem State.win_setWin {s : State} {p w : Nat} (x : WinSt) (h : w < (s.part p).wins.length) :
    (s.setWin p w x).win p w = x := by
  unfold State.win State.setWin
  rw [State.part_setPart_same]
  simp [nth, h]

theorem State.win_of_parts {s u : State} (h : u.parts = s.parts) (p w : Nat) : u.win p w = s.win p w := by
  simp [State.win, State.part_of_parts h]

/-- A partition but for its windows. -/
def Part.noWins (x : Part) : Part := { x with wins := [] }

/-- Nothing but windows of p changes, and what harts are told of them. -/
structure State.WinsOnly (s u : State) (p : Nat) : Prop where
  mem : u.mem = s.mem
  objects : s.DraftObjects u
  part : (u.part p).noWins = (s.part p).noWins
  other : ∀ r, r ≠ p → u.part r = s.part r

/-- A window that changes hands: the side it passes to owns it, its flag is clear, and only windows change. -/
theorem State.passed_effect {s : State} {p w : Nat} (side : Side) (x : WinSt) (h : w < (s.part p).wins.length) :
    ((s.passed p w side x).win p w).owner = side ∧ ((s.passed p w side x).win p w).flag = false ∧
    s.WinsOnly (s.passed p w side x) p := by
  have hset (y : WinSt) : s.WinsOnly (s.setWin p w y) p := by
    refine ⟨rfl, .of_eq rfl rfl, ?_, fun r hr => State.part_setPart_other _ _ hr⟩
    unfold State.setWin
    rw [State.part_setPart_same]
    rfl
  have hharts (u : State) (hu : s.WinsOnly u p) : s.WinsOnly (u.grantHarts p w) p := by
    obtain ⟨hmem, hobj, hpart, hother⟩ := hu
    have hparts := State.part_of_parts (u.grantHarts_parts p w)
    exact ⟨(u.grantHarts_mem p w).trans hmem, hobj.trans (.of_eq (by simp) (by simp)), by rw [hparts, hpart],
      fun r hr => by rw [hparts, hother r hr]⟩
  fun_cases State.passed s p w side x
  case case1 =>
    rw [State.win_of_parts (State.grantHarts_parts ..), State.win_setWin _ h]
    exact ⟨rfl, rfl, hharts _ (hset _)⟩
  case case2 =>
    rw [State.win_setWin _ h]
    exact ⟨rfl, rfl, hset _⟩

theorem State.WinsOnly.refl (s : State) (p : Nat) : s.WinsOnly s p := ⟨rfl, .refl s, rfl, fun _ _ => rfl⟩

theorem Part.noWins_eq {x y : Part} (h : x.noWins = y.noWins) : { x with wins := y.wins } = y :=
  (congrArg (fun z : Part => { z with wins := y.wins }) h :)

/-! ### Gates that pass (02 R79, R85) -/

section
variable {s : State} {p : Nat} {d : Draft} {gd : GateDesc} {x : WinDesc}

/-- A gate between the spindle side and the solver side passes a buffer that is there to pass. -/
theorem State.passGate_effect (hx : d.wins[gd.window]? = some x) (hl : gd.window < (s.part p).wins.length)
    (hs : gd.src ≠ .host) (hd : gd.dst ≠ .host) (hb : ((s.win p gd.window).passable gd.src).isSome = true) :
    ((s.passGate p d gd).win p gd.window).owner = gd.dst ∧ ((s.passGate p d gd).win p gd.window).flag = false ∧
    s.WinsOnly (s.passGate p d gd) p := by
  obtain ⟨b, hb⟩ := Option.isSome_iff_exists.1 hb
  have h : s.passGate p d gd = s.passed p gd.window gd.dst
      { s.win p gd.window with bufs := receiveBuf (s.win p gd.window).bufs gd.dst b } := by
    simp only [State.passGate, hx, if_neg hd, if_neg hs, hb]
  rw [h]
  exact State.passed_effect _ _ hl

theorem WinSt.passable_of_heldBy {w : WinSt} {side : Side} (h : (w.heldBy side).isSome = true) :
    (w.passable side).isSome = true := by
  unfold WinSt.passable
  split
  · rfl
  · exact h
end

/-! ### Gates under the reuse policy (02 R85) -/

/-- The window's bit of reused. -/
def State.markReused (s : State) (p w : Nat) : State :=
  s.setPart p { s.part p with reused := (s.part p).reused ||| (1 <<< w) }

/-- A solver window that is reused passes a spare buffer to the spindle side when there is one, and is marked. -/
theorem State.reuseGate_effect {s : State} {p : Nat} {gd : GateDesc} (hl : gd.window < (s.part p).wins.length)
    (hs : gd.src = .solver) (hd : gd.dst = .spindle) :
    ((s.reuseGate p gd).part p).reused = (s.part p).reused ||| (1 <<< gd.window) ∧
    ((s.reuseGate p gd).part p).slip = (s.part p).slip ∧
    ((∃ b, (s.win p gd.window).bufs.findIdx? (fun b => b == .spare) = some b) →
      ((s.reuseGate p gd).win p gd.window).owner = .spindle) ∧ s.DraftObjects (s.reuseGate p gd) := by
  have hmark (u : State) (hu : s.WinsOnly u p) : ((u.markReused p gd.window).part p).reused =
      (s.part p).reused ||| (1 <<< gd.window) ∧ ((u.markReused p gd.window).part p).slip = (s.part p).slip ∧
      (u.markReused p gd.window).win p gd.window = u.win p gd.window ∧ s.DraftObjects (u.markReused p gd.window) := by
    have hpart := Part.noWins_eq hu.part
    unfold State.win State.markReused
    rw [State.part_setPart_same, ← hpart]
    exact ⟨rfl, rfl, rfl, hu.objects.trans (.of_eq rfl rfl)⟩
  unfold State.reuseGate
  rw [hs, hd]
  simp only [reduceCtorEq, if_false]
  split
  next b _ =>
    obtain ⟨howner, -, honly⟩ := s.passed_effect (p := p) .spindle
      { s.win p gd.window with bufs := receiveBuf (s.win p gd.window).bufs .spindle b } hl
    obtain ⟨hreused, hslip, hwin, hobj⟩ := hmark _ honly
    exact ⟨hreused, hslip, fun _ => (congrArg WinSt.owner hwin).trans howner, hobj⟩
  next h =>
    obtain ⟨hreused, hslip, -, hobj⟩ := hmark s (.refl s p)
    exact ⟨hreused, hslip, fun ⟨b, hb⟩ => absurd (h.symm.trans hb) (by simp), hobj⟩

end Sys2Proof.Machine
end

section
namespace Sys2Proof.Machine

/-! ### Steps that fail at a gate (02 R86; 13 R424) -/

theorem State.repairLine_parts (s : State) (p line : Nat) : (s.repairLine p line).parts = s.parts := by
  fun_cases State.repairLine s p line <;> simp

theorem State.repairLine_draftObjects (s : State) (p line : Nat) : s.DraftObjects (s.repairLine p line) := by
  fun_cases State.repairLine s p line
  case case3 =>
    refine .trans ?_ (State.event_draftObjects _ _ _ (by omega) (by omega))
    exact .of_eq rfl rfl
  all_goals exact .refl s

/-- Memory and the slots as a restore leaves them, before its records. -/
def State.restored (s : State) (p : Nat) : State :=
  let s := (s.undoMemory p).rollbackStats p
  ((s.draftSlots p).foldl (fun s n => s.clearSlot n) s).dropDraftColls p

theorem State.restored_parts (s : State) (p : Nat) : (s.restored p).parts = s.parts :=
  (foldl_clearSlot_parts ..).trans (foldl_parts (fun s line => s.repairLine_parts p line) ..)

theorem State.restored_draftObjects (s : State) (p : Nat) : s.DraftObjects (s.restored p) := by
  have h1 (u : State) (m : Mem) : u.DraftObjects { u with mem := m } := .of_eq rfl rfl
  have h2 : s.DraftObjects (s.undoMemory p) :=
    (h1 s _).trans (foldl_draftObjects (fun s line => s.repairLine_draftObjects p line) _ _)
  have h3 : (s.undoMemory p).DraftObjects ((s.undoMemory p).rollbackStats p) := .of_eq rfl rfl
  have h4 (l : List Nat) (u : State) : u.DraftObjects (l.foldl (fun s n => s.clearSlot n) u) := by
    refine foldl_draftObjects (fun s n => ?_) l u
    exact .of_eq rfl rfl
  exact h2.trans (h3.trans ((h4 _ _).trans (.of_eq rfl rfl)))

/-- The objects of the partitions' drafts and the count of draft event k, where that event is raised once. -/
structure State.RaisesOnce (s u : State) (k : Nat) : Prop where
  low : ∀ i j, i < 0x2034 → j < 256 → u.odGet i j = s.odGet i j
  count : u.odGet 0xB102 k = s.odGet 0xB102 k + 1

theorem State.DraftObjects.raises {s t u : State} {k : Nat} (h : s.DraftObjects t) (h' : t.RaisesOnce u k) (hk : k < 256) :
    s.RaisesOnce u k :=
  ⟨fun i j hi hj => (h'.low i j hi hj).trans (h.kept i j (.inl hi) hj), by rw [h'.count, h.kept _ _ (.inr rfl) hk]⟩

theorem State.RaisesOnce.then {s t u : State} {k : Nat} (h : s.RaisesOnce t k) (h' : t.DraftObjects u) (hk : k < 256) :
    s.RaisesOnce u k :=
  ⟨fun i j hi hj => (h'.kept i j (.inl hi) hj).trans (h.low i j hi hj), by rw [h'.kept _ _ (.inr rfl) hk, h.count]⟩

theorem State.event_raisesOnce (s : State) {k : Nat} (w : EvWho) (d : List EvField) (hk : k < 256) :
    s.RaisesOnce (s.event (0x200 + k) w d) k := by
  have h1 : (0x200 + k) / 256 = 2 := by omega
  have h2 : (0x200 + k) % 256 = k := by omega
  refine ⟨fun i j hi hj => (s.event_reading ..).od i j hi hj, ?_⟩
  have h := s.event_count (0x200 + k) w d
  rwa [h1, h2] at h

/-- A restored partition waits for its re-run, with the slip of the last commit, and STEP_ROLLBACK is raised. -/
theorem State.restoreStep_effect {s : State} {p : Nat} (cause : Nat) (hp : p < 4) (hu : (s.part p).undoOver = false) :
    ((s.restoreStep p cause).part p).state = (s.part p).state ∧ ((s.restoreStep p cause).part p).restoring = true ∧
    ((s.restoreStep p cause).part p).slip = (s.part p).slipCommit ∧
    ((s.restoreStep p cause).part p).lateRolls = (s.part p).lateRolls ∧ s.RaisesOnce (s.restoreStep p cause) 11 := by
  have hpart : (s.restored p).part p = s.part p := State.part_of_parts (s.restored_parts p) p
  unfold State.restoreStep
  extract_lets x s1 s2 y s3 s4 s5
  rw [if_neg (by simp [x, hu])]
  have h3 : s2.DraftObjects s3 := .of_eq rfl rfl
  have h4 : s3.RaisesOnce s4 11 := State.event_raisesOnce (k := 11) s3 _ _ (by omega)
  have h5 : s4.DraftObjects s5 := .of_eq (by simp [s5]) (by simp [s5])
  have hparts : (s5.reel p 0x0A 2 [y.epoch.toNat + cause <<< 48]).part p = s3.part p :=
    State.part_of_parts (by simp [s5, s4]) p
  have hy : y = s.part p := hpart
  rw [hparts, State.part_setPart_same, hy]
  exact ⟨rfl, rfl, rfl, rfl, ((s.restored_draftObjects p).trans h3).raises
    (h4.then (h5.trans (State.reel_draftObjects hp ..)) (by omega)) (by omega)⟩

section
variable {s : State} {p : Nat}

theorem State.rollback_eq (hr : (s.part p).state = .running) (ht : (s.part p).tainted = false)
    (hn : (s.part p).restoring = false) : s.rollback p 1 =
      (s.restoreStep p 1).setPart p { (s.restoreStep p 1).part p with taintRolls := 0 } := by
  have hb : bit 1 1 = false := by decide
  simp [State.rollback, hr, ht, hn, hb]

theorem State.withholdAndRollback_eq {d : Draft} {cause : Nat} (hd : (s.part p).draft = some d) (hp : d.packages ≤ 1) :
    s.withholdAndRollback p cause = s.rollback p cause := by
  unfold State.withholdAndRollback
  simp only [hd]
  rw [if_neg (by simp; omega)]

/-- A step that may fail again is not halted. -/
theorem State.failStep_eq {u : State} (hu : s.withholdAndRollback p 1 = u) (hr : (u.part p).state = .running)
    (hl : (u.part p).lateRolls + 1 < u.odGet (0x2020 + p) 11) :
    s.failStep p = u.setPart p { u.part p with lateRolls := (u.part p).lateRolls + 1 } := by
  unfold State.failStep
  rw [hu]
  exact (if_neg (not_not.2 hr)).trans (if_pos hl)

/-- A step that fails at a late gate is restored and runs again, while it may. -/
theorem State.failStep_effect {d : Draft} (hp : p < 4) (hd : (s.part p).draft = some d) (hpk : d.packages ≤ 1)
    (hr : (s.part p).state = .running) (ht : (s.part p).tainted = false) (hn : (s.part p).restoring = false)
    (hu : (s.part p).undoOver = false) (hl : (s.part p).lateRolls + 1 < s.odGet (0x2020 + p) 11) :
    ((s.failStep p).part p).restoring = true ∧ ((s.failStep p).part p).slip = (s.part p).slipCommit ∧
    ((s.failStep p).part p).state = .running ∧ (s.failStep p).odGet 0xB102 11 = s.odGet 0xB102 11 + 1 := by
  obtain ⟨hstate, hrest, hslip, hrolls, hraise⟩ := State.restoreStep_effect 1 hp hu
  have hlim : (s.restoreStep p 1).odGet (0x2020 + p) 11 = s.odGet (0x2020 + p) 11 := hraise.low _ _ (by omega) (by omega)
  have hback := (State.withholdAndRollback_eq hd hpk).trans (State.rollback_eq hr ht hn)
  rw [← hlim] at hl
  generalize s.restoreStep p 1 = v at *
  rw [State.failStep_eq hback (by rw [State.part_setPart_same]; exact hstate.trans hr)
    (by rw [State.part_setPart_same]; exact lt_of_eq_of_lt (congrArg (· + 1) hrolls) hl)]
  rw [State.part_setPart_same, State.part_setPart_same]
  exact ⟨hrest, hslip, hstate.trans hr, hraise.count⟩
end

/-! ### The gates of an instant (02 R83 to R87) -/

/-- A partition that has come to gate g. -/
def State.gateSeen (s : State) (p g : Nat) : State := s.setPart p { s.part p with gatesDone := (s.part p).gatesDone ++ [g] }

/-- A partition that may stop at a gate's cycle. -/
def State.gateCycle (s : State) (p cycle : Nat) : State := s.setPart p { s.part p with stallCycle := cycle }

section
variable {s : State} {p g : Nat} {d : Draft} {gd : GateDesc}

theorem State.gates_of_ready (h : gd.ready (s.win p gd.window) = true) :
    s.gates p d [(g, gd)] = ((s.gateSeen p g).passGate p d gd).gateCycle p gd.cycle := by
  have hwin : (s.gateSeen p g).win p gd.window = s.win p gd.window := by
    simp [State.gateSeen, State.win]
  have hr : gd.ready ((s.gateSeen p g).win p gd.window) = true := by rw [hwin, h]
  unfold State.gateSeen at hr
  simp [State.gates, State.gateSeen, State.gateCycle, hr]

theorem State.lateEvent_parts (s : State) (p : Nat) (gd : GateDesc) : (s.lateEvent p gd).parts = s.parts :=
  State.event_parts ..

theorem State.gates_of_late (h : gd.ready (s.win p gd.window) = false) (hr : (s.part p).state = .running) :
    s.gates p d [(g, gd)] =
      (((s.gateSeen p g).lateEvent p gd).gateCycle p gd.cycle).lateGates p [(g, gd)] 0 := by
  have hwin : (s.gateSeen p g).win p gd.window = s.win p gd.window := by
    simp [State.gateSeen, State.win]
  have hlate : gd.ready ((s.gateSeen p g).win p gd.window) = false := by rw [hwin, h]
  have hrun : (((s.gateSeen p g).lateEvent p gd).part p).state = .running := by
    rw [State.part_of_parts (State.lateEvent_parts ..), State.gateSeen, State.part_setPart_same, hr]
  unfold State.gateSeen at hlate hrun
  simp [State.gates, State.gateSeen, State.gateCycle, hlate, hrun]

theorem State.lateGates_stall {slip : Nat} (hp : gd.policy = 0) (hl : slip + 1 ≤ gd.stallLimit) :
    s.lateGates p [(g, gd)] slip =
      s.setPart p { s.part p with stalled := [g], stallSlip := slip + 1, slip := (s.part p).slip + 1 } := by
  simp [State.lateGates, hp, Nat.not_le.2 (Nat.lt_of_succ_le hl)]

theorem State.lateGates_reuse {slip : Nat} (hp : gd.policy = 1) :
    s.lateGates p [(g, gd)] slip = (s.reuseGate p gd).lateRecord p g gd 1 slip := by
  simp [State.lateGates, hp]

theorem State.lateGates_fail {slip : Nat} (hp : gd.policy = 2) :
    s.lateGates p [(g, gd)] slip = (s.lateRecord p g gd 2 slip).failStep p := by
  simp [State.lateGates, hp]

/-- A partition at a late gate whose lateness has been told of. -/
def State.atLate (s : State) (p g : Nat) (gd : GateDesc) : State :=
  ((s.gateSeen p g).lateEvent p gd).gateCycle p gd.cycle

theorem State.atLate_part (s : State) (p g : Nat) (gd : GateDesc) : (s.atLate p g gd).part p =
    { s.part p with gatesDone := (s.part p).gatesDone ++ [g], stallCycle := gd.cycle } := by
  unfold State.atLate State.gateCycle
  rw [State.part_setPart_same, State.part_of_parts (State.lateEvent_parts ..), State.gateSeen, State.part_setPart_same]

theorem State.atLate_win (s : State) (p g : Nat) (gd : GateDesc) (w : Nat) : (s.atLate p g gd).win p w = s.win p w := by
  unfold State.win
  rw [State.atLate_part]

theorem State.atLate_raisesOnce (s : State) (p g : Nat) (gd : GateDesc) : s.RaisesOnce (s.atLate p g gd) 10 := by
  have h1 : s.DraftObjects (s.gateSeen p g) := .of_eq rfl rfl
  have h2 : (s.gateSeen p g).RaisesOnce ((s.gateSeen p g).lateEvent p gd) 10 :=
    State.event_raisesOnce (k := 10) _ _ _ (by omega)
  have h3 : ((s.gateSeen p g).lateEvent p gd).DraftObjects (s.atLate p g gd) := .of_eq rfl rfl
  exact h1.raises (h2.then h3 (by omega)) (by omega)

theorem State.atLate_mem (s : State) (p g : Nat) (gd : GateDesc) : (s.atLate p g gd).mem = s.mem := by
  simp [State.atLate, State.gateSeen, State.gateCycle, State.lateEvent]

/-- The other draft events are not raised at a late gate. -/
theorem State.atLate_rollbacks (s : State) (p g : Nat) (gd : GateDesc) :
    (s.atLate p g gd).odGet 0xB102 11 = s.odGet 0xB102 11 :=
  State.event_odGet (s.gateSeen p g) 0x020A _ _ _ _ (by decide) (by decide)

theorem State.lateRecord_draftObjects (s : State) {p : Nat} (g : Nat) (gd : GateDesc) (outcome slip : Nat) (hp : p < 4) :
    s.DraftObjects (s.lateRecord p g gd outcome slip) := State.reel_draftObjects hp ..

theorem State.lateRecord_parts (s : State) (p g : Nat) (gd : GateDesc) (outcome slip : Nat) :
    (s.lateRecord p g gd outcome slip).parts = s.parts := State.reel_parts ..

theorem State.gateSeen_win (s : State) (p g w : Nat) : (s.gateSeen p g).win p w = s.win p w := by
  simp [State.gateSeen, State.win]

theorem State.gateCycle_win (s : State) (p c w : Nat) : (s.gateCycle p c).win p w = s.win p w := by
  simp [State.gateCycle, State.win]
end

/-! ### The gate of an instant, case by case -/

section
variable {s : State} {p g : Nat} {d : Draft} {gd : GateDesc} {x : WinDesc}

/-- From the spindle side a gate is never late. -/
theorem State.gates_spindle (hx : d.wins[gd.window]? = some x) (hl : gd.window < (s.part p).wins.length)
    (hs : gd.src = .spindle) (hd : gd.dst = .solver) (hb : ((s.win p gd.window).heldBy .spindle).isSome = true) :
    let u := s.gates p d [(g, gd)]
    (u.win p gd.window).owner = .solver ∧ (u.win p gd.window).flag = false ∧
    (u.part p).gatesDone = (s.part p).gatesDone ++ [g] ∧ u.mem = s.mem ∧ ∀ r, r ≠ p → u.part r = s.part r := by
  intro u
  have hu : u = ((s.gateSeen p g).passGate p d gd).gateCycle p gd.cycle :=
    State.gates_of_ready (by simp [GateDesc.ready, hs])
  obtain ⟨howner, hflag, hmem, -, hpart, hother⟩ := State.passGate_effect (s := s.gateSeen p g) (p := p) hx
    (by simpa [State.gateSeen] using hl) (by simp [hs]) (by simp [hd])
    (by rw [State.gateSeen_win, hs]; exact WinSt.passable_of_heldBy hb)
  have hdone := congrArg Part.gatesDone hpart
  rw [hu, State.gateCycle_win]
  refine ⟨howner.trans hd, hflag, ?_, hmem, fun r hr => ?_⟩
  · rw [State.gateCycle, State.part_setPart_same]
    exact hdone.trans (by simp [Part.noWins, State.gateSeen])
  · rw [State.gateCycle, State.part_setPart_other _ _ hr, hother r hr, State.gateSeen, State.part_setPart_other _ _ hr]

section
variable (hs : gd.src = .solver) (hf : (s.win p gd.window).flag = false) (hr : (s.part p).state = .running)
include hs hf hr

theorem State.gates_solver_late : s.gates p d [(g, gd)] = (s.atLate p g gd).lateGates p [(g, gd)] 0 :=
  State.gates_of_late (by simp [GateDesc.ready, hs, hf]) hr

/-- Under the stall policy issue stops, and slip grows. -/
theorem State.gates_stall (hp : gd.policy = 0) (hl : 1 ≤ gd.stallLimit) :
    let u := s.gates p d [(g, gd)]
    (u.part p).stalled = [g] ∧ (u.part p).slip = (s.part p).slip + 1 ∧ (u.part p).wins = (s.part p).wins ∧
    u.odGet 0xB102 10 = s.odGet 0xB102 10 + 1 ∧ u.mem = s.mem := by
  intro u
  have hu : u = (s.atLate p g gd).setPart p { (s.atLate p g gd).part p with
      stalled := [g], stallSlip := 1, slip := ((s.atLate p g gd).part p).slip + 1 } :=
    (State.gates_solver_late hs hf hr).trans (State.lateGates_stall hp hl)
  rw [hu, State.part_setPart_same, State.atLate_part]
  exact ⟨rfl, rfl, rfl, (s.atLate_raisesOnce p g gd).count, s.atLate_mem p g gd⟩

/-- Under the reuse policy the window passes all the same. -/
theorem State.gates_reuse (hl : gd.window < (s.part p).wins.length) (hd : gd.dst = .spindle) (hp : gd.policy = 1)
    (hp4 : p < 4) :
    let u := s.gates p d [(g, gd)]
    (u.part p).reused = (s.part p).reused ||| (1 <<< gd.window) ∧ (u.part p).slip = (s.part p).slip ∧
    ((∃ b, (s.win p gd.window).bufs.findIdx? (fun b => b == .spare) = some b) → (u.win p gd.window).owner = .spindle) ∧
    u.odGet 0xB102 10 = s.odGet 0xB102 10 + 1 := by
  intro u
  have hu : u = ((s.atLate p g gd).reuseGate p gd).lateRecord p g gd 1 0 :=
    (State.gates_solver_late hs hf hr).trans (State.lateGates_reuse hp)
  obtain ⟨hreused, hslip, howner, hobj⟩ := State.reuseGate_effect (s := s.atLate p g gd) (p := p)
    (by rw [State.atLate_part]; exact hl) hs hd
  rw [State.atLate_part] at hreused hslip
  rw [State.atLate_win] at howner
  rw [hu, State.part_of_parts (State.lateRecord_parts ..), State.win_of_parts (State.lateRecord_parts ..)]
  exact ⟨hreused, hslip, howner, ((s.atLate_raisesOnce p g gd).then
    (hobj.trans (State.lateRecord_draftObjects _ _ _ _ _ hp4)) (by omega)).count⟩

/-- Under the fail-step policy the step is restored. -/
theorem State.gates_fail (hd : (s.part p).draft = some d) (hpk : d.packages ≤ 1) (hp : gd.policy = 2) (hp4 : p < 4)
    (ht : (s.part p).tainted = false) (hn : (s.part p).restoring = false) (hu : (s.part p).undoOver = false)
    (hl : (s.part p).lateRolls + 1 < s.odGet (0x2020 + p) 11) :
    let u := s.gates p d [(g, gd)]
    (u.part p).restoring = true ∧ (u.part p).slip = (s.part p).slipCommit ∧ (u.part p).state = .running ∧
    u.odGet 0xB102 11 = s.odGet 0xB102 11 + 1 := by
  intro u
  have hu' : u = ((s.atLate p g gd).lateRecord p g gd 2 0).failStep p :=
    (State.gates_solver_late hs hf hr).trans (State.lateGates_fail hp)
  have hpart : ((s.atLate p g gd).lateRecord p g gd 2 0).part p = _ :=
    (State.part_of_parts (State.lateRecord_parts ..) p).trans (s.atLate_part p g gd)
  have hrec := State.lateRecord_draftObjects (s.atLate p g gd) g gd 2 0 hp4
  have heffect := State.failStep_effect (s := (s.atLate p g gd).lateRecord p g gd 2 0) (d := d) hp4
  rw [hpart, hrec.kept _ _ (.inl (by omega)) (by omega), hrec.kept _ _ (.inr rfl) (by omega),
    (s.atLate_raisesOnce p g gd).low _ _ (by omega) (by omega), State.atLate_rollbacks] at heffect
  rw [hu']
  exact heffect hd hpk hr ht hn hu hl
end

/-! ### Retests (02 R84) -/

theorem Draft.numbered_singleton (h : d.gates[g]? = some gd) : d.numbered [g] = [(g, gd)] := by
  simp [Draft.numbered, h]

section
variable (hg : d.gates[g]? = some gd) (hst : (s.part p).stalled = [g]) (hr : (s.part p).state = .running)
  (hs : gd.src = .solver)
include hg hst hr hs

/-- A gate that is still late adds a slip. -/
theorem State.retest_late (hp : gd.policy = 0) (hf : (s.win p gd.window).flag = false) (hl : (s.part p).stallSlip + 1 ≤ gd.stallLimit) :
    let u := s.retest p d
    (u.part p).slip = (s.part p).slip + 1 ∧ (u.part p).stalled = [g] ∧ u.mem = s.mem := by
  intro u
  have hready : gd.ready (s.win p gd.window) = false := by simp [GateDesc.ready, hs, hf]
  have hu : u = s.setPart p { s.part p with
      stalled := [g], stallSlip := (s.part p).stallSlip + 1, slip := (s.part p).slip + 1 } := by
    simp [u, State.retest, hst, Draft.numbered_singleton hg, hready, hr, hp, State.lateGates_stall hp hl]
  rw [hu, State.part_setPart_same]
  exact ⟨rfl, rfl, rfl⟩

/-- A gate whose flag is set meanwhile passes, and issue resumes. -/
theorem State.retest_ready (hx : d.wins[gd.window]? = some x) (hl : gd.window < (s.part p).wins.length)
    (hf : (s.win p gd.window).flag = true) (hd : gd.dst = .spindle)
    (hb : ((s.win p gd.window).passable .solver).isSome = true) :
    let u := s.retest p d
    (u.win p gd.window).owner = .spindle ∧ (u.part p).stalled = [] ∧ (u.part p).slip = (s.part p).slip := by
  intro u
  have hready : gd.ready (s.win p gd.window) = true := by simp [GateDesc.ready, hs, hf]
  obtain ⟨howner, -, -, -, hpart, -⟩ := State.passGate_effect (s := s) (p := p) hx hl (by simp [hs]) (by simp [hd])
    (by rw [hs]; exact hb)
  have hstate : ((s.passGate p d gd).part p).state = .running := (congrArg Part.state hpart).trans hr
  have hparts := State.part_of_parts ((s.passGate p d gd).lateRecord_parts p g gd 0 (s.part p).stallSlip) p
  have hu : u = ((s.passGate p d gd).lateRecord p g gd 0 (s.part p).stallSlip).resume p := by
    simp [u, State.retest, hst, Draft.numbered_singleton hg, hready, hparts, hstate]
  have hwin : u.win p gd.window = (s.passGate p d gd).win p gd.window := by
    rw [hu]
    simp [State.win, State.resume, hparts]
  refine ⟨(congrArg WinSt.owner hwin).trans (howner.trans hd), ?_, ?_⟩
  · rw [hu, State.resume, State.part_setPart_same]
  · rw [hu, State.resume, State.part_setPart_same, hparts]
    exact (congrArg Part.slip hpart :)
end
end

/-! ### The rows -/

/-- The gates of an instant that no other gate shares. -/
theorem Draft.gatesOfInstant {d : Draft} {g : Nat} {gd : GateDesc} (hg : d.gates[g]? = some gd)
    (hone : ∀ i h, d.gates[i]? = some h → h.tick = gd.tick → h.cycle = gd.cycle → i = g) :
    (List.range d.gates.length).filter (fun i =>
      match d.gates[i]? with | some h => h.tick == gd.tick && h.cycle == gd.cycle | none => false) = [g] := by
  have hlen : g < d.gates.length := (List.getElem?_eq_some_iff.1 hg).1
  have hcond : ∀ i ∈ List.range d.gates.length,
      (match d.gates[i]? with | some h => h.tick == gd.tick && h.cycle == gd.cycle | none => false) = (i == g) := by
    intro i _
    rw [Bool.eq_iff_iff, beq_iff_eq]
    constructor
    · intro h
      split at h
      next e he =>
        rw [Bool.and_eq_true, beq_iff_eq, beq_iff_eq] at h
        exact hone i e he h.1 h.2
      · cases h
    · rintro rfl
      simp [hg]
  rw [List.filter_congr hcond, List.filter_beq, List.count_eq_one_of_mem List.nodup_range (List.mem_range.2 hlen)]
  rfl

section
variable {t : Nat} {g : Nat} {p : PartIdx} {d : Draft} {gd : GateDesc} {r0 s : State} (h : r0.arrive t = s)
  (hd : (s.part p.val).draft = some d) (hon : (s.part p.val).replay.on = false)
include h hd hon

theorem execGate_of_alone (hg : d.gates[g]? = some gd) (hs : s.syncDraft p.val = s)
    (hi : (s.part p.val).issuing = true) (ht : gd.tick = (s.part p.val).stepTick) (ho : (s.part p.val).stepOver = false)
    (hdone : (s.part p.val).gatesDone.contains g = false)
    (hone : ∀ i h, d.gates[i]? = some h → h.tick = gd.tick → h.cycle = gd.cycle → i = g) :
    exec (.gate t p g) r0 = .next (s.gates p.val d [(g, gd)]) := by
  have hl := Draft.gatesOfInstant hg hone
  simp only [exec, execGate, h, hs, hd, hg, hi, ho, hdone, hon]
  rw [if_neg (by simp [ht])]
  exact (congrArg (fun l => Host.Outcome.next (s.gates p.val d (d.numbered l))) hl).trans
    (by rw [Draft.numbered_singleton hg])

theorem execGateRetest_of_stalled (hr : (s.part p.val).state = .running) (hn : (s.part p.val).restoring = false)
    (hst : (s.part p.val).stalled = [g]) : exec (.gateRetest t p) r0 = .next (s.retest p.val d) := by
  simp only [exec, execGateRetest, h, hd, hr, hn, hst, hon]
  simp
end

/-- Settles O12: each case of a gate, and of a retest, by the lemma about it. -/
theorem gatesPassStallOrReuse : Obligations.GatesPassStallOrReuse := by
  intro t g p d gd x r0 s
  have hs : r0.arrive t = s := rfl
  clear_value s
  intro hd hg hx hon hl hr hn w
  refine ⟨fun hsync hi ht ho hdone hone => ?_, fun hst _ hsrc hpol => ?_⟩
  · have hexec := execGate_of_alone hs hd hon hg hsync hi ht ho hdone hone
    refine ⟨fun hsrc hdst hb => ⟨_, hexec, State.gates_spindle hx hl hsrc hdst hb⟩,
      fun hsrc hf hpol hlim => ⟨_, hexec, State.gates_stall hsrc hf hr hpol hlim⟩,
      fun hsrc hdst hf hpol _ => ⟨_, hexec, State.gates_reuse hsrc hf hr hl hdst hpol p.isLt⟩,
      fun hsrc hf hpol hu hlim htaint hpk =>
        ⟨_, hexec, State.gates_fail hsrc hf hr hd hpk hpol p.isLt htaint hn hu hlim⟩⟩
  · have hexec := execGateRetest_of_stalled hs hd hon hr hn hst
    exact ⟨fun hf hlim => ⟨_, hexec, State.retest_late hg hst hr hsrc hpol hf hlim⟩,
      fun hf hdst hb => ⟨_, hexec, State.retest_ready hg hst hr hsrc hx hl hf hdst hb⟩⟩

end Sys2Proof.Machine
end

section
namespace Sys2Proof.Machine

/-! ## Reads of memory do not look at the stations

What a read does, it does in the same way whatever stands at the stations. -/

/-- The state s with other stations. -/
def State.onStations (s : State) (x : Fm Station) : State := { s with stations := x }

section
variable {x : Fm Station}

theorem foldl_onStations {α : Type} {f : State → α → State} (h : ∀ s a, f (s.onStations x) a = (f s a).onStations x)
    (l : List α) (s : State) : l.foldl f (s.onStations x) = (l.foldl f s).onStations x :=
  List.foldl_hom (fun s : State => s.onStations x) h

theorem State.ite_onStations (c : Prop) [Decidable c] (a b : State) :
    (if c then a.onStations x else b.onStations x) = (if c then a else b).onStations x :=
  (apply_ite (fun s : State => s.onStations x) ..).symm

theorem State.notify_onStations (s : State) (id op idx sub sid : Nat) (data : List Byte) :
    (s.onStations x).notify id op idx sub sid data = (s.notify id op idx sub sid data).onStations x := by
  unfold State.notify State.onStations
  dsimp only
  split
  · rfl
  · split
    · split
      · split
        · split <;> rfl
        · rfl
      · rfl
    · rfl

theorem State.notifyEvent_onStations (s : State) (code : Nat) (part : Option Nat) (ent : List Nat) :
    (s.onStations x).notifyEvent code part ent = (s.notifyEvent code part ent).onStations x := by
  unfold State.notifyEvent
  refine foldl_onStations (fun s e => ?_) _ s
  refine foldl_onStations (fun s sub => ?_) _ s
  split
  · change (if _ && _ && _ && s.mayReadLog e.2 part then _ else s.onStations x) = _
    rw [State.notify_onStations, State.ite_onStations]
  · rfl

/-- The record of an event. -/
def State.eventEntry (s : State) (c : Nat) (w : EvWho) (d : List EvField) : List Nat :=
  let count := s.odGet (0xB100 + c / 256) (c % 256) + 1
  (((s.odSet (0xB100 + c / 256) (c % 256) count).odSet (0xB200 + c / 256) (c % 256) 1).markW1c (0xB200 + c / 256)
    (c % 256) 0).eventRecord c count w d

/-- An event that is counted and logged, before anyone is notified. -/
def State.eventLogged (s : State) (c : Nat) (w : EvWho) (d : List EvField) : State :=
  let count := s.odGet (0xB100 + c / 256) (c % 256) + 1
  let u := ((s.odSet (0xB100 + c / 256) (c % 256) count).odSet (0xB200 + c / 256) (c % 256) 1).markW1c (0xB200 + c / 256)
    (c % 256) 0
  let log := fmGet u.logs (w.part.getD 4) {}
  { u with logs := fmSet u.logs (w.part.getD 4) ⟨log.head + 1, fmSet log.recs (log.head % 128) (s.eventEntry c w d)⟩ }

theorem State.event_eq (s : State) (c : Nat) (w : EvWho) (d : List EvField) :
    s.event c w d = (s.eventLogged c w d).notifyEvent c w.part (s.eventEntry c w d) := rfl

/-- An event is raised in the same way whatever stands at the stations. -/
theorem State.event_onStations (s : State) (c : Nat) (w : EvWho) (d : List EvField) :
    (s.onStations x).event c w d = (s.event c w d).onStations x := by
  have hlog : (s.onStations x).eventLogged c w d = (s.eventLogged c w d).onStations x := rfl
  have hent : (s.onStations x).eventEntry c w d = s.eventEntry c w d := rfl
  rw [State.event_eq, State.event_eq, hlog, hent]
  exact State.notifyEvent_onStations ..

/-! ### Warnings -/

theorem State.failureWarning_onStations (s : State) : (s.onStations x).failureWarning = s.failureWarning.onStations x := by
  unfold State.failureWarning
  extract_lets ps ps'
  have hps : ps = ps' := rfl
  rw [hps]
  split
  · exact State.event_onStations ..
  · refine foldl_onStations (fun s p => ?_) _ s
    dsimp only
    rw [← State.event_onStations, ← State.ite_onStations]
    rfl

theorem State.warnIfReached_onStations (s : State) (sub before after : Nat) :
    (s.onStations x).warnIfReached sub before after = (s.warnIfReached sub before after).onStations x := by
  unfold State.warnIfReached
  rw [State.failureWarning_onStations]
  exact State.ite_onStations ..

/-! ### DRAM lines -/

theorem State.eraseOne_onStations (s : State) (d ch k : Nat) :
    (s.onStations x).eraseOne d ch k = (s.eraseOne d ch k).onStations x := by
  unfold State.eraseOne
  have hc : (s.onStations x).channel d ch = s.channel d ch := rfl
  rw [hc]
  dsimp only
  split
  · rfl
  · split
    · rfl
    · rw [← State.failureWarning_onStations, ← State.event_onStations]
      rfl

theorem State.eraseIn_onStations (s : State) (d k : Nat) (chs : List Nat) :
    (s.onStations x).eraseIn d k chs = (s.eraseIn d k chs).onStations x := by
  unfold State.eraseIn
  extract_lets new u new' u'
  have hu : u = u'.onStations x := foldl_onStations (fun s ch => s.eraseOne_onStations d ch k) chs s
  rw [hu, State.event_onStations]
  exact State.ite_onStations ..

theorem State.setStack_onStations (s : State) (d : Nat) (y : Stack) :
    (s.onStations x).setStack d y = (s.setStack d y).onStations x := rfl

theorem State.markDramLost_onStations (s : State) (d k : Nat) :
    (s.onStations x).markDramLost d k = (s.markDramLost d k).onStations x := by
  have hstack : (s.onStations x).stackOf d = s.stackOf d := rfl
  unfold State.markDramLost
  dsimp only
  rw [hstack, State.setStack_onStations, State.eraseIn_onStations, State.failureWarning_onStations]
  exact State.ite_onStations ..

theorem State.countSymbols_onStations (s : State) (d k n : Nat) :
    (s.onStations x).countSymbols d k n = (s.countSymbols d k n).onStations x := by
  unfold State.countSymbols
  split
  · rfl
  · extract_lets y recent c before s1 s2 s3 y' recent' c' before' s1' s2' s3'
    have h2 : s2 = s2'.onStations x := rfl
    have h3 : s3 = s3'.onStations x := by
      unfold s3 s3'
      rw [h2]
      exact State.warnIfReached_onStations ..
    have hlim : s3.odGet 0x5010 2 = s3'.odGet 0x5010 2 := by
      rw [h3]
      rfl
    rw [hlim, h3, State.markDramLost_onStations]
    exact State.ite_onStations ..

theorem State.readLine_onStations (s : State) (line : Nat) :
    (s.onStations x).readLine line = ((s.readLine line).1.onStations x, (s.readLine line).2) := by
  have hbad : (s.onStations x).lineBad line = s.lineBad line := rfl
  have hlines : (s.onStations x).lines = s.lines := rfl
  have hch (d ch : Nat) : (s.onStations x).channel d ch = s.channel d ch := rfl
  unfold State.readLine
  dsimp only
  rw [hbad, hlines, hch]
  split
  · split
    · rfl
    · rw [foldl_onStations fun s k => State.countSymbols_onStations ..]
  · rfl

theorem State.readLines_onStations (s : State) (k n : Nat) :
    (s.onStations x).readLines k n = ((s.readLines k n).1.onStations x, (s.readLines k n).2) := by
  refine List.foldl_hom (fun a : State × List Nat => (a.1.onStations x, a.2)) (l := s.lines.filter _)
    (init := (s, [])) (fun a e => ?_)
  rw [State.readLine_onStations]

/-! ### SRAM words -/

theorem State.markColumn_onStations (s : State) (d bank col : Nat) :
    (s.onStations x).markColumn d bank col = (s.markColumn d bank col).onStations x := by
  have hbanks : (s.onStations x).banks = s.banks := rfl
  unfold State.markColumn
  dsimp only
  rw [hbanks]
  split
  · rfl
  · split
    · rfl
    · rw [State.event_onStations, State.failureWarning_onStations]

theorem State.countColumn_onStations (s : State) (k col : Nat) :
    (s.onStations x).countColumn k col = (s.countColumn k col).onStations x := by
  unfold State.countColumn
  extract_lets d o key b old words b1 s1 b' old' words' b1' s1'
  have h1 : s1 = s1'.onStations x := rfl
  have hold : old = old' := rfl
  have hwords : words = words' := rfl
  rw [h1, hold, hwords, State.markColumn_onStations]
  exact State.ite_onStations ..

theorem State.sramCorrected_onStations (s : State) (k col : Nat) :
    (s.onStations x).sramCorrected k col = (s.sramCorrected k col).onStations x := by
  unfold State.sramCorrected
  extract_lets d l r s1 s2 s3 l' r' s1' s2' s3'
  have h2 : s2 = s2'.onStations x := rfl
  have h3 : s3 = s3'.onStations x := by
    unfold s3 s3'
    rw [h2, State.event_onStations, State.countColumn_onStations]
  have hl : l = l' := rfl
  rw [h3, hl]
  exact State.warnIfReached_onStations ..

theorem State.readWords_onStations (s : State) (k n : Nat) :
    (s.onStations x).readWords k n = ((s.readWords k n).1.onStations x, (s.readWords k n).2) := by
  have herr : (s.onStations x).sramErr = s.sramErr := rfl
  unfold State.readWords
  dsimp only
  rw [herr, foldl_onStations fun s e => ?_]
  split
  · exact State.sramCorrected_onStations ..
  · rfl

theorem State.readCheck_onStations (s : State) (k n : Nat) :
    (s.onStations x).readCheck k n = ((s.readCheck k n).1.onStations x, (s.readCheck k n).2) := by
  unfold State.readCheck
  split
  · exact State.readLines_onStations ..
  · split
    · exact State.readWords_onStations ..
    · rfl
end

end Sys2Proof.Machine
end

section
namespace Sys2Proof.Machine

/-! ## Fills, copies, marks and digests of the stations (O18) -/

/-! ### Issue (03 R113, R117, R118) -/

theorem State.run_of_issuesAs {r0 s : State} {t : Nat} {c : Cmd} {op : Nat} {i : Issued} (h : r0.IssuesAs t c op i s)
    (eff : State → Issued → State) : r0.run t c op eff = .next (eff s i) := by
  obtain ⟨⟨hp, hmay, hmay'⟩, hissue⟩ := h
  unfold State.atIssue at hmay' hissue
  simp only [State.run, hp, hmay, hmay', hissue]
  rfl

/-- A command that issues names its row's opcode, and a station of that opcode's range. -/
theorem State.issueAt_fits {r s : State} {p : Nat} {c : Cmd} {op : Nat} {i : Issued} (h : r.issueAt p c op = (s, some i)) :
    c.opcode = op ∧ stationFits op c.station = true := by
  unfold State.issueAt at h
  extract_lets n dc f j u at h
  split at h
  · cases h
  · split at h
    · cases h
    next hbad =>
      simp only [State.cmdBad, Bool.or_eq_true, bne_iff_ne, Bool.not_eq_true', not_or] at hbad
      obtain ⟨⟨⟨hop, hfit⟩, -⟩, -⟩ := hbad
      exact ⟨not_not.1 hop, by simpa using hfit⟩

/-- Beyond the twists' commands, a bobbin is 4 cycles away and every other station 12. -/
theorem transit_of_fits {op st : Nat} (hop : 0x80 ≤ op) (h : stationFits op st = true) :
    transit op st = if st / 4096 = 3 then 4 else 12 := by
  unfold stationFits at h
  dsimp only at h
  rw [if_neg (by omega), if_neg (by omega), if_neg (by omega), if_neg (by omega)] at h
  unfold transit
  rw [if_neg (by omega), if_neg (by omega)]
  by_cases h9 : op < 0x90
  · rw [if_pos h9] at h ⊢
    simp only [Bool.or_eq_true, Bool.and_eq_true, beq_iff_eq, decide_eq_true_eq] at h
    split_ifs <;> omega
  · rw [if_neg h9] at h ⊢
    have hcls : st / 4096 ≠ 3 := by
      split_ifs at h <;> simp at h <;> omega
    rw [if_neg hcls]

section
variable {s : State} {i : Issued} {c : Cmd}

theorem State.dispatch_sent {cycles : Nat} (a b : Nat) (h : transit c.opcode c.station = cycles) :
    s.Sent (s.dispatch i c a b) i c cycles a b := by
  unfold State.Sent State.dispatch
  rw [h]

theorem State.readSreg_of_good {r : Nat} (h : s.SregGood i.n r) :
    s.readSreg i r = (s, some (fmGet (s.flyer i.n).sreg r 0)) := by
  unfold State.SregGood at h
  simp only [State.readSreg, h]

theorem State.dispatch1_of_good (h : s.SregGood i.n c.sa) : s.dispatch1 i c = s.dispatch i c (s.sreg i.n c.sa) 0 := by
  simp only [State.dispatch1, State.readSreg_of_good h]
  rfl

theorem State.dispatch2_of_good (ha : s.SregGood i.n c.sa) (hb : s.SregGood i.n c.sb) :
    s.dispatch2 i c = s.dispatch i c (s.sreg i.n c.sa) (s.sreg i.n c.sb) := by
  simp only [State.dispatch2, State.readSregs, State.readSreg_of_good ha, State.readSreg_of_good hb]
  rfl
end

section
variable {r0 s : State} {t : Nat} {c : Cmd} {op : Nat} {i : Issued} (h : r0.IssuesAs t c op i s) (hop : 0x80 ≤ op)
include h hop

theorem State.transit_of_issuesAs : transit c.opcode c.station = if c.station / 4096 = 3 then 4 else 12 := by
  obtain ⟨hc, hfit⟩ := State.issueAt_fits h.2
  rw [hc]
  exact transit_of_fits hop hfit

theorem State.run_dispatch0 : ∃ u, r0.run t c op (fun s i => s.dispatch0 i c) = .next u ∧
    s.Sent u i c (if c.station / 4096 = 3 then 4 else 12) 0 0 :=
  ⟨_, State.run_of_issuesAs h _, State.dispatch_sent 0 0 (State.transit_of_issuesAs h hop)⟩

theorem State.run_dispatch1 (ha : s.SregGood i.n c.sa) : ∃ u, r0.run t c op (fun s i => s.dispatch1 i c) = .next u ∧
    s.Sent u i c (if c.station / 4096 = 3 then 4 else 12) (s.sreg i.n c.sa) 0 := by
  refine ⟨_, State.run_of_issuesAs h _, ?_⟩
  rw [State.dispatch1_of_good ha]
  exact State.dispatch_sent _ _ (State.transit_of_issuesAs h hop)

theorem State.run_dispatch2 (ha : s.SregGood i.n c.sa) (hb : s.SregGood i.n c.sb) :
    ∃ u, r0.run t c op (fun s i => s.dispatch2 i c) = .next u ∧
    s.Sent u i c (if c.station / 4096 = 3 then 4 else 12) (s.sreg i.n c.sa) (s.sreg i.n c.sb) := by
  refine ⟨_, State.run_of_issuesAs h _, ?_⟩
  rw [State.dispatch2_of_good ha hb]
  exact State.dispatch_sent _ _ (State.transit_of_issuesAs h hop)
end

/-! ### Arrival (03 R113, R116) -/

theorem State.station_setStation (s : State) (n st : Nat) (x : Station) : (s.setStation n st x).station n st = x := by
  simp [State.station, State.setStation]

/-- A command that reaches a station with room waits there. -/
theorem State.landCmd_effect {c : StCmd} {s : State} (hst : 3 ≤ c.st / 4096) (hroom : (s.station c.n c.st).cmds.length < 4) :
    let u := s.landCmd c
    u.station c.n c.st = { s.station c.n c.st with cmds := (s.station c.n c.st).cmds ++ [c] } ∧ u.wire = s.wire.erase c ∧
    { { u with stations := s.stations } with wire := s.wire } = s := by
  intro u
  have hu : u = { s with wire := s.wire.erase c }.setStation c.n c.st
      { s.station c.n c.st with cmds := (s.station c.n c.st).cmds ++ [c] } := by
    unfold u State.landCmd
    dsimp only
    rw [if_neg (by omega), if_neg (by omega)]
    exact if_neg (not_le.2 hroom)
  rw [hu, State.station_setStation]
  exact ⟨rfl, rfl, rfl⟩

/-! ### Bytes (08 R282) -/

theorem length_bytesOf (n v : Nat) : (bytesOf n v).length = n := by
  induction n generalizing v with
  | zero => rfl
  | succ n ih => simp [bytesOf, ih]

theorem Mem.length_readN (m : Mem) (k n : Nat) : (m.readN k n).length = n := by
  induction n generalizing k with
  | zero => rfl
  | succ n ih => simp [Mem.readN, ih]

theorem Mem.nth_readN (m : Mem) {k n o : Nat} (h : o < n) : nth (m.readN k n) o 0 = m.read (k + o) := by
  induction n generalizing k o with
  | zero => omega
  | succ n ih =>
    cases o with
    | zero => rfl
    | succ o =>
      have := ih (k := k + 1) (o := o) (by omega)
      rw [show k + (o + 1) = k + 1 + o by omega, ← this]
      rfl

/-- A byte within what was written. -/
theorem Mem.read_writeN_within {m : Mem} {k o : Nat} {l : List Byte} (hw : m.wf = true) (h : o < l.length) :
    (m.writeN k l).read (k + o) = nth l o 0 := by
  rw [← Mem.nth_readN _ h, Mem.readN_writeN m k l hw]

theorem length_flatten_replicate (n v : Nat) : (List.replicate n (bytesOf 8 v)).flatten.length = 8 * n := by
  simp [length_bytesOf, Nat.mul_comm]

/-- Byte o of a pattern of 8 bytes repeated. -/
theorem nth_flatten_replicate {n v o : Nat} (h : o < 8 * n) :
    nth (List.replicate n (bytesOf 8 v)).flatten o 0 = nth (bytesOf 8 v) (o % 8) 0 := by
  induction n generalizing o with
  | zero => omega
  | succ n ih =>
    rw [List.replicate_succ, List.flatten_cons]
    unfold nth at *
    by_cases ho : o < 8
    · rw [List.getD_append _ _ _ _ (by rw [length_bytesOf]; exact ho), Nat.mod_eq_of_lt ho]
    · rw [List.getD_append_right _ _ _ _ (by rw [length_bytesOf]; omega), length_bytesOf, ih (by omega)]
      congr 1
      omega

end Sys2Proof.Machine
end

section
namespace Sys2Proof.Machine

/-! ### What a station's command leaves besides the stations (08 R277, R282) -/

theorem State.holdMem_onStations (s : State) (x : Fm Station) (c : StCmd) (cycles : Nat) :
    ∃ x', (s.onStations x).holdMem c cycles = s.onStations x' := by
  unfold State.holdMem
  split
  · exact ⟨_, rfl⟩
  · exact ⟨_, rfl⟩

theorem State.place_onStations (s : State) (x : Fm Station) (pa : Nat) : (s.onStations x).place pa = s.place pa := by
  have hdie (n : Nat) : (s.onStations x).dieOfSlot n = s.dieOfSlot n := rfl
  have hspare (a : Nat) : (s.onStations x).spareDie a = s.spareDie a := rfl
  have hjournal : (s.onStations x).journalBytes = s.journalBytes := rfl
  have hcfg : (s.onStations x).cfg = s.cfg := rfl
  simp only [State.place, hdie, hspare, hjournal, hcfg]

theorem State.stationKey_onStations (s : State) (x : Fm Station) (p pa len : Nat) :
    (s.onStations x).stationKey p pa len = s.stationKey p pa len := by
  have hkey (a : Nat) : (s.onStations x).key? a = s.key? a := congrArg Place.key? (s.place_onStations x a)
  have hmay (k : Nat) : (s.onStations x).stationMay p k len = s.stationMay p k len := rfl
  simp only [State.stationKey, hkey, hmay]

section
variable {s : State} {p n st pa len : Nat} {det : List EvField} {m : List Byte}

/-- A read that meets nothing in error reads the same bytes whatever stands at the stations. -/
theorem State.c0Read_onStations (h : s.c0Read p n st pa len det = (s, some m)) (x : Fm Station) (det' : List EvField) :
    (s.onStations x).c0Read p n st pa len det' = (s.onStations x, some m) := by
  unfold State.c0Read at h ⊢
  rw [State.stationKey_onStations]
  split at h
  · cases congrArg Prod.snd h
  next k _ =>
    dsimp only at h ⊢
    rw [State.readCheck_onStations]
    split at h
    next hbad =>
      rw [if_pos hbad]
      obtain ⟨hs, hm⟩ := Prod.mk.inj h
      rw [hs] at hm ⊢
      exact congrArg _ hm
    · cases congrArg Prod.snd h

theorem State.length_of_c0Read (h : s.c0Read p n st pa len det = (s, some m)) : m.length = len := by
  unfold State.c0Read at h
  split at h
  · cases congrArg Prod.snd h
  · dsimp only at h
    split at h
    · rw [← Option.some.inj (congrArg Prod.snd h), Mem.length_readN]
    · cases congrArg Prod.snd h

theorem State.c0Store_mem {k : Nat} {l : List Byte} (h : s.stationKey p pa l.length = .ok k) :
    (s.c0Store p n st pa l).1.mem = Mem.writeN s.mem k l := by
  simp only [State.c0Store, h]
  exact State.c0Write_mem ..

/-- What a store leaves in memory: its bytes at its place, and every other byte as it was. -/
theorem State.c0Store_bytes {k : Nat} {l : List Byte} (hw : Mem.wf s.mem = true) (h : s.stationKey p pa l.length = .ok k) :
    (∀ o, o < l.length → Mem.read (s.c0Store p n st pa l).1.mem (k + o) = nth l o 0) ∧
    ∀ j, j < k ∨ k + l.length ≤ j → Mem.read (s.c0Store p n st pa l).1.mem j = Mem.read s.mem j := by
  rw [State.c0Store_mem h]
  exact ⟨fun o ho => Mem.read_writeN_within hw ho, fun j hj => Mem.read_writeN_outside _ _ _ _ hw hj⟩
end

/-! ### Fills and copies -/

section
variable {s : State} {x : Fm Station} {c : StCmd} {base size : Nat}

/-- The bytes a fill writes. -/
def StCmd.pattern (c : StCmd) : List Byte := (List.replicate (c.operand % 2 ^ 32 * 64 / 8) (bytesOf 8 c.b)).flatten

theorem StCmd.length_pattern (c : StCmd) : c.pattern.length = c.operand % 2 ^ 32 * 64 := by
  rw [StCmd.pattern, length_flatten_replicate]
  omega

theorem StCmd.nth_pattern (c : StCmd) {o : Nat} (h : o < c.operand % 2 ^ 32 * 64) :
    nth c.pattern o 0 = nth (bytesOf 8 c.b) (o % 8) 0 := nth_flatten_replicate (by omega)

/-- A fill within its memory holds its station, and stores its pattern when it has one. -/
theorem State.fillRange_eq (ha : c.a % 2 ^ 48 % 64 = 0) (hs : c.a % 2 ^ 48 + c.operand % 2 ^ 32 * 64 ≤ size) :
    ∃ x', (s.onStations x).fillRange c base size = if c.operand % 2 ^ 32 * 64 = 0 then s.onStations x' else
      ((s.onStations x').c0Store c.p c.n c.st (base + c.a % 2 ^ 48) c.pattern).1 := by
  obtain ⟨x', hx'⟩ := s.holdMem_onStations x c (ceilDiv (c.operand % 2 ^ 32 * 64) (fillRate c.st))
  refine ⟨x', ?_⟩
  unfold State.fillRange
  dsimp only
  rw [if_neg (by omega), hx']
  rfl

theorem State.fillRange_mem_of_empty (ha : c.a % 2 ^ 48 % 64 = 0) (hs : c.a % 2 ^ 48 + c.operand % 2 ^ 32 * 64 ≤ size)
    (h0 : c.operand % 2 ^ 32 * 64 = 0) : ((s.onStations x).fillRange c base size).mem = s.mem := by
  obtain ⟨x', h⟩ := State.fillRange_eq (s := s) (x := x) (base := base) ha hs
  rw [h, if_pos h0]
  rfl

/-- A fill writes its pattern, and no other byte. -/
theorem State.fillRange_bytes {k : Nat} (ha : c.a % 2 ^ 48 % 64 = 0)
    (hs : c.a % 2 ^ 48 + c.operand % 2 ^ 32 * 64 ≤ size) (hw : Mem.wf s.mem = true) (h0 : 0 < c.operand % 2 ^ 32 * 64)
    (hk : s.stationKey c.p (base + c.a % 2 ^ 48) (c.operand % 2 ^ 32 * 64) = .ok k) :
    let u := (s.onStations x).fillRange c base size
    (∀ o, o < c.operand % 2 ^ 32 * 64 → Mem.read u.mem (k + o) = nth (bytesOf 8 c.b) (o % 8) 0) ∧
    ∀ j, j < k ∨ k + c.operand % 2 ^ 32 * 64 ≤ j → Mem.read u.mem j = Mem.read s.mem j := by
  obtain ⟨x', h⟩ := State.fillRange_eq (s := s) (x := x) (base := base) ha hs
  intro u
  have hu : u = ((s.onStations x').c0Store c.p c.n c.st (base + c.a % 2 ^ 48) c.pattern).1 := h.trans (if_neg (by omega))
  obtain ⟨hin, hout⟩ := State.c0Store_bytes (s := s.onStations x') (p := c.p) (n := c.n) (st := c.st) (l := c.pattern) hw
    (by rw [StCmd.length_pattern, State.stationKey_onStations]; exact hk)
  rw [StCmd.length_pattern] at hin hout
  rw [hu]
  exact ⟨fun o ho => (hin o ho).trans (c.nth_pattern ho), hout⟩

/-- A copy between two ranges that lie apart writes what it reads, and no other byte. -/
theorem State.copyRange_bytes {k : Nat} {m : List Byte} (ha : c.a % 2 ^ 48 % 64 = 0) (hb : c.b % 2 ^ 48 % 64 = 0)
    (hsa : c.a % 2 ^ 48 + c.operand % 2 ^ 32 * 64 ≤ size) (hsb : c.b % 2 ^ 48 + c.operand % 2 ^ 32 * 64 ≤ size)
    (hapart : apart (c.a % 2 ^ 48) (c.b % 2 ^ 48) (c.operand % 2 ^ 32 * 64) = true) (hw : Mem.wf s.mem = true)
    (h0 : 0 < c.operand % 2 ^ 32 * 64)
    (hm : s.c0Read c.p c.n c.st (base + c.a % 2 ^ 48) (c.operand % 2 ^ 32 * 64) (s.cmdPlace c.p c.tick c.pos) = (s, some m))
    (hk : s.stationKey c.p (base + c.b % 2 ^ 48) (c.operand % 2 ^ 32 * 64) = .ok k) :
    let u := (s.onStations x).copyRange c base size
    (∀ o, o < c.operand % 2 ^ 32 * 64 → Mem.read u.mem (k + o) = nth m o 0) ∧
    ∀ j, j < k ∨ k + c.operand % 2 ^ 32 * 64 ≤ j → Mem.read u.mem j = Mem.read s.mem j := by
  obtain ⟨x', hx'⟩ := s.holdMem_onStations x c (ceilDiv (c.operand % 2 ^ 32 * 64) (fillRate c.st / 2))
  have hlen := State.length_of_c0Read hm
  intro u
  have hu : u = ((s.onStations x').c0Store c.p c.n c.st (base + c.b % 2 ^ 48) m).1 := by
    unfold u State.copyRange
    dsimp only
    rw [if_neg (by rw [hapart]; simp; omega), hx', if_neg (by omega),
      State.c0Read_onStations hm x' ((s.onStations x').cmdPlace c.p c.tick c.pos)]
  obtain ⟨hin, hout⟩ := State.c0Store_bytes (s := s.onStations x') (p := c.p) (n := c.n) (st := c.st) (l := m) hw
    (by rw [hlen, State.stationKey_onStations]; exact hk)
  rw [hlen] at hin hout
  rw [hu]
  exact ⟨hin, hout⟩
end

end Sys2Proof.Machine
end

section
namespace Sys2Proof.Machine

/-! ### Commands that take tiles (12 R417; 13 R451) -/

section
variable {s : State} {c : StCmd} {roving want per : Nat} {desc : List Nat}

/-- What a command begins to take, now. -/
def State.beginTake (s : State) (c : StCmd) (roving want per : Nat) (desc : List Nat) : Take :=
  { roving := roving, want := want, start := s.now, per := per * s.cycleUnits, tick := c.tick, pos := c.pos, desc := desc }

/-- A command that takes tiles, of which none waits yet, at a station where no other takes any. -/
theorem State.addTake_eq (ht : (s.station c.n c.st).takes = [])
    (hq : ((s.station c.n c.st).queue.find? fun q => q.roving == roving) = none) (hw : 0 < want) :
    s.addTake c roving want per desc =
      s.setStation c.n c.st { s.station c.n c.st with takes := [s.beginTake c roving want per desc] } := by
  unfold State.addTake
  dsimp only
  rw [ht, State.station_setStation]
  unfold Station.work State.feed
  dsimp only
  rw [State.station_setStation]
  dsimp only [List.nil_append]
  rw [if_neg (by simp; omega), hq]
  exact if_neg (by simp)

/-- It waits for its tiles from now on, and nothing but its station changes. -/
theorem State.addTake_effect {r : State} {x : Fm Station} (hr : r = s.onStations x)
    (ht : (r.station c.n c.st).takes = []) (hq : ((r.station c.n c.st).queue.find? fun q => q.roving == roving) = none)
    (hw : 0 < want) :
    let u := r.addTake c roving want per desc
    ((u.station c.n c.st).takes.map fun k => (k.roving, k.want, k.start)) = [(roving, want, s.now)] ∧
    { u with stations := s.stations } = s := by
  intro u
  have hu : u = _ := State.addTake_eq ht hq hw
  subst hr
  rw [hu, State.station_setStation]
  exact ⟨rfl, rfl⟩
end

/-! ### The first command that waits at a station starts -/

/-- The station of a command without the commands at it. -/
def State.without (s : State) (c : StCmd) (l : List StCmd) : State :=
  s.setStation c.n c.st { s.station c.n c.st with cmds := l }

section
variable {s : State} {c : StCmd} {l : List StCmd} (hc : (s.station c.n c.st).cmds = c :: l)
include hc

theorem State.startCmd_eq : s.startCmd c.n c.st =
    if c.op = 0x90 then (s.without c l).startColl c
    else if c.op = 0x91 then (s.without c l).startVote c
    else if c.op = 0xA0 then (s.without c l).startShard c
    else if c.op = 0xA8 then (s.without c l).startMark c
    else if c.op = 0xA9 then (s.without c l).startDigest c
    else (s.without c l).startMem c := by
  simp only [State.startCmd, hc]
  rfl

theorem State.startCmd_shard (h : c.op = 0xA0) : s.startCmd c.n c.st = (s.without c l).startShard c := by
  simp [State.startCmd_eq hc, h]

theorem State.startCmd_mark (h : c.op = 0xA8) : s.startCmd c.n c.st = (s.without c l).startMark c := by
  simp [State.startCmd_eq hc, h]

theorem State.startCmd_digest (h : c.op = 0xA9) : s.startCmd c.n c.st = (s.without c l).startDigest c := by
  simp [State.startCmd_eq hc, h]

theorem State.startCmd_fill {base size : Nat} (h : c.op = 0x80 ∨ c.op = 0xB0)
    (hm : s.endpointMem c.p c.n c.st = some (base, size)) :
    s.startCmd c.n c.st = (s.without c l).fillRange c base size := by
  have hm' : (s.without c l).endpointMem c.p c.n c.st = some (base, size) := hm
  rcases h with h | h <;> simp [State.startCmd_eq hc, h, State.startMem, hm']

theorem State.startCmd_copy {base size : Nat} (h : c.op = 0x81 ∨ c.op = 0xB1)
    (hm : s.endpointMem c.p c.n c.st = some (base, size)) :
    s.startCmd c.n c.st = (s.without c l).copyRange c base size := by
  have hm' : (s.without c l).endpointMem c.p c.n c.st = some (base, size) := hm
  rcases h with h | h <;> simp [State.startCmd_eq hc, h, State.startMem, hm']
end

section
variable {s : State} {c : StCmd} {l : List StCmd} {v : Roving}

/-- A station that a command holds for some cycles from now. -/
def State.held (s : State) (c : StCmd) (l : List StCmd) (cycles : Nat) : State := (s.without c l).occupy c cycles

theorem State.station_held (s : State) (c : StCmd) (l : List StCmd) (cycles : Nat) :
    (s.held c l cycles).station c.n c.st =
      { s.station c.n c.st with cmds := l, freeAt := s.now + cycles * s.cycleUnits } := by
  unfold State.held State.occupy State.without
  rw [State.station_setStation, State.station_setStation]
  rfl

section
variable (hv : s.roving c.p c.roving = some v) (he : v.endsAt c.n c.st = true)
  (ht : (s.station c.n c.st).takes = []) (hq : ((s.station c.n c.st).queue.find? fun q => q.roving == c.roving) = none)
include hv he ht hq

/-- A digest takes the next tile of its roving. -/
theorem State.startDigest_effect :
    let u := (s.without c l).startDigest c
    ((u.station c.n c.st).takes.map fun k => (k.roving, k.want, k.start)) = [(c.roving, 1, s.now)] ∧
    { u with stations := s.stations } = s := by
  have hv' : (s.without c l).roving c.p c.roving = some v := hv
  have hu : (s.without c l).startDigest c =
      (s.held c l (transferTime 6 0 v.format)).addTake c c.roving 1 (transferTime 6 0 v.format) [] := by
    unfold State.startDigest
    rw [hv']
    dsimp only
    rw [if_neg (by simp [he])]
    rfl
  rw [hu]
  exact State.addTake_effect rfl (by rw [State.station_held]; exact ht) (by rw [State.station_held]; exact hq) (by omega)

/-- A shard takes as many tiles as its descriptor counts. -/
theorem State.startShard_effect {m : List Byte} (ha : c.a % 2 ^ 27 % 64 = 0)
    (hm : s.c0Read c.p c.n c.st (sramBase c.n + sharedOff + c.a % 2 ^ 27) 64 (s.cmdPlace c.p c.tick c.pos) = (s, some m))
    (hkind : bits (nth (wordsOf m) 0 0) 17 16 ≠ 3) (hplain : bits (nth (wordsOf m) 0 0) 19 18 = 0)
    (hcount : 0 < bits (nth (wordsOf m) 3 0) 31 0) :
    let u := (s.without c l).startShard c
    ((u.station c.n c.st).takes.map fun k => (k.roving, k.want, k.start)) =
      [(c.roving, bits (nth (wordsOf m) 3 0) 31 0, s.now)] ∧ { u with stations := s.stations } = s := by
  have hv' : (s.without c l).roving c.p c.roving = some v := hv
  have hread : (s.without c l).c0Read c.p c.n c.st (sramBase c.n + sharedOff + c.a % 2 ^ 27) 64
      ((s.without c l).cmdPlace c.p c.tick c.pos) = (s.without c l, some m) := State.c0Read_onStations hm _ _
  have hgood : shardBad (nth (wordsOf m) 0 0) v.format = false := by simp [shardBad, hkind, hplain]
  have hu : (s.without c l).startShard c =
      (s.held c l (bits (nth (wordsOf m) 3 0) 31 0 * transferTime 5 0 v.format)).addTake c c.roving
        (bits (nth (wordsOf m) 3 0) 31 0) (transferTime 5 0 v.format) (wordsOf m) := by
    unfold State.startShard
    extract_lets o
    split
    next h => exact absurd (hv'.symm.trans h) (by simp)
    next r h =>
      obtain rfl : r = v := Option.some.inj (h.symm.trans hv')
      rw [if_neg (by rw [he]; exact fun h => h.elim (fun h => h ha) (by simp)), hread]
      exact if_neg (by simp [hgood])
  rw [hu]
  exact State.addTake_effect rfl (by rw [State.station_held]; exact ht) (by rw [State.station_held]; exact hq) hcount
end
end

/-- Settles O18: issue by the row's opcode, arrival, and the start of each command by the lemma about it. -/
theorem memoryAndReelStations : Obligations.MemoryAndReelStations := by
  refine ⟨fun row hrow => ?_, fun c s hst hroom => State.landCmd_effect hst hroom, fun c l s hc => ?_⟩
  · simp only [List.mem_cons, List.not_mem_nil, or_false] at hrow
    intro t c i r0 s h ha hb
    rcases hrow with rfl | rfl | rfl | rfl | rfl | rfl | rfl | rfl | rfl
    all_goals
      dsimp only at h
      norm_num at ha hb ⊢
    iterate 4
      · have hsent := State.run_dispatch2 h (by omega) ha hb
        exact hsent
    iterate 2
      · have hsent := State.run_dispatch1 h (by omega) ha
        exact hsent
    all_goals
      have hsent := State.run_dispatch0 h (by omega)
      exact hsent
  · intro u s2 len a b
    refine ⟨fun base size hm ha hs => ⟨fun k hop hw h0 hk => ?_, fun k m hop hw h0 hb hsb hap hr hk => ?_, fun hop h0 => ?_⟩,
      State.startCmd_mark hc, fun v hv he ht hq => ⟨fun hop => ?_, fun m hop ha hr hkind hplain hcount => ?_⟩⟩
    · have hu : u = (s.without c l).fillRange c base size := State.startCmd_fill hc hop hm
      rw [hu]
      exact State.fillRange_bytes ha hs hw h0 hk
    · have hu : u = (s.without c l).copyRange c base size := State.startCmd_copy hc hop hm
      rw [hu]
      exact State.copyRange_bytes ha hb hs hsb hap hw h0 hr hk
    · have hu : u = (s.without c l).fillRange c base size := State.startCmd_fill hc hop hm
      rw [hu]
      exact State.fillRange_mem_of_empty ha hs h0
    · have hu : u = (s.without c l).startDigest c := State.startCmd_digest hc hop
      rw [hu]
      exact State.startDigest_effect hv he ht hq
    · have hu : u = (s.without c l).startShard c := State.startCmd_shard hc hop
      rw [hu]
      exact State.startShard_effect hv he ht hq ha hr hkind hplain hcount

end Sys2Proof.Machine
end

section
namespace Sys2Proof.Machine

/-! ## Detected control faults that roll a step back (O16, O20, O22) -/

/-! ### The objects a rollback writes (12 R412; 13 R424; 15 R504) -/

/-- Every object of a key outside K reads in u as in s. -/
structure State.WritesIn (K : Nat → Prop) (s u : State) : Prop where
  kept : ∀ i j, ¬ K (odKey i j) → u.odGet i j = s.odGet i j

/-- Keys a rollback of partition p writes: the read errors of the stacks (0x5003), p's counters of the reel (0x2034 on), and
counts and flags of the events of drafts, memory, the reel and resilience (groups 2, 8, 12 and 13). -/
def rollbackKey (p k : Nat) : Prop :=
  k / 256 = 0x5003 ∨ odKey (0x2034 + p) 1 ≤ k ∧ k ≤ odKey (0x2034 + p) 3 ∨
  k / 256 - 0xB100 ∈ [2, 8, 12, 13] ∨ k / 256 - 0xB200 ∈ [2, 8, 12, 13]

section
variable {K : Nat → Prop} {s t u : State}

theorem State.WritesIn.refl (s : State) : State.WritesIn K s s := ⟨fun _ _ _ => rfl⟩

theorem State.WritesIn.trans (h : State.WritesIn K s t) (h' : State.WritesIn K t u) : State.WritesIn K s u :=
  ⟨fun i j hk => (h'.kept i j hk).trans (h.kept i j hk)⟩

theorem State.WritesIn.of_eq (ho : u.od = s.od) (hc : u.cfg = s.cfg) : State.WritesIn K s u :=
  ⟨fun i j _ => by simp [State.odGet, ho, hc]⟩

theorem foldl_writesIn {α : Type} {f : State → α → State} (h : ∀ s a, State.WritesIn K s (f s a)) (l : List α) (s : State) :
    State.WritesIn K s (l.foldl f s) :=
  List.foldlRecOn l f (motive := State.WritesIn K s) (.refl s) fun _ hu a _ => hu.trans (h _ a)

theorem State.odSet_writesIn {i j : Nat} (h : K (odKey i j)) (s : State) (v : Nat) : State.WritesIn K s (s.odSet i j v) :=
  ⟨fun _ _ hk => State.odGet_odSet_other _ _ _ _ _ _ fun he => hk ((congrArg K he).mpr h)⟩

theorem State.event_writesIn {c : Nat} (h : K (odKey (0xB100 + c / 256) (c % 256)))
    (h' : K (odKey (0xB200 + c / 256) (c % 256))) (s : State) (w : EvWho) (d : List EvField) :
    State.WritesIn K s (s.event c w d) :=
  ⟨fun _ _ hk => State.event_odGet _ _ _ _ _ _ (fun he => hk ((congrArg K he).mpr h))
    fun he => hk ((congrArg K he).mpr h')⟩
end

section
variable (p : Nat)

theorem State.event_rollbackKey (s : State) {c : Nat} (w : EvWho) (d : List EvField) (h : c / 256 ∈ [2, 8, 12, 13]) :
    State.WritesIn (rollbackKey p) s (s.event c w d) := by
  have hlow (g : Nat) : odKey (g + c / 256) (c % 256) / 256 = g + c / 256 := by unfold odKey; omega
  refine State.event_writesIn (.inr (.inr (.inl ?_))) (.inr (.inr (.inr ?_))) s w d
  all_goals rwa [hlow, Nat.add_sub_cancel_left]

theorem State.odSet_reel_rollbackKey (s : State) {j : Nat} (v : Nat) (hj : 1 ≤ j) (hj' : j ≤ 3) :
    State.WritesIn (rollbackKey p) s (s.odSet (0x2034 + p) j v) :=
  State.odSet_writesIn (.inr (.inl (by unfold odKey; omega))) s v

theorem State.dramBad_rollbackKey (s : State) {d : Nat} (q : Option Nat) (det : List EvField) (hd : d < 32) :
    State.WritesIn (rollbackKey p) s (s.dramBad d q det) :=
  (State.odSet_writesIn (.inl (by unfold odKey; omega)) s _).trans (State.event_rollbackKey p _ _ _ (by decide))

theorem State.putParts_rollbackKey (s : State) (k : Nat) (l : List Byte) :
    State.WritesIn (rollbackKey p) s (s.putParts k l State.putMem) := by
  have hbad : State.WritesIn (rollbackKey p) s
      ((s.partBad k l.length).foldl (fun s _ => s.dramBad (keyDie k) none []) s) := by
    by_cases hk : k < 2 ^ 41
    · exact foldl_writesIn (fun s _ => s.dramBad_rollbackKey p _ _ (by unfold keyDie; rw [if_pos hk]; omega)) _ s
    · have hnil : s.partBad k l.length = [] := by
        simp only [State.partBad, decide_eq_false hk]
        simp
      rw [hnil]
      exact .refl s
  fun_cases State.putParts s k l State.putMem
  case case1 => exact hbad
  case case2 => exact hbad.trans (.of_eq rfl rfl)

theorem State.reelStore_rollbackKey (s : State) (r : Reel) (o : Nat) (l : List Byte) :
    State.WritesIn (rollbackKey p) s (s.reelStore p r o l) := by
  fun_cases State.reelStore s p r o l
  case case1 => exact State.putParts_rollbackKey ..
  case case2 => exact State.odSet_reel_rollbackKey p s _ (by omega) (by omega)

theorem State.reelPut_rollbackKey (s : State) (t n : Nat) (l : List Nat) :
    State.WritesIn (rollbackKey p) s (s.reelPut p t n l) := by
  have hset (u : State) {j : Nat} (v : Nat) (hj : 1 ≤ j) (hj' : j ≤ 3) := u.odSet_reel_rollbackKey p v hj hj'
  unfold State.reelPut
  extract_lets r w bytes w' kept gone rd lostNow s1 s2 s3 tell s4
  have h2 : State.WritesIn (rollbackKey p) s s2 :=
    (State.reelStore_rollbackKey p ..).trans (hset _ _ (by omega) (by omega))
  have h3 : State.WritesIn (rollbackKey p) s s3 := by
    unfold s3
    split
    · exact h2
    · exact h2.trans ((hset _ _ (by omega) (by omega)).trans (hset _ _ (by omega) (by omega)))
  have h4 : State.WritesIn (rollbackKey p) s s4 := h3.trans (.of_eq rfl rfl)
  split
  · exact h4.trans (State.event_rollbackKey p _ _ _ (by decide))
  · exact h4

theorem State.reelWrite_rollbackKey (s : State) (t n : Nat) (l : List Nat) :
    State.WritesIn (rollbackKey p) s (s.reelWrite p t n l) := by
  unfold State.reelWrite
  extract_lets r w u
  have hu : State.WritesIn (rollbackKey p) s u := by
    unfold u
    split
    · exact .refl s
    · exact State.reelPut_rollbackKey p ..
  exact hu.trans (State.reelPut_rollbackKey p ..)

theorem State.reel_rollbackKey (s : State) (t n : Nat) (l : List Nat) :
    State.WritesIn (rollbackKey p) s (s.reel p t n l) := by
  fun_cases State.reel s p t n l
  case case1 => exact .refl s
  case case2 => exact State.reelWrite_rollbackKey p ..
  case case3 r _ _ _ _ _ u =>
    have hu : State.WritesIn (rollbackKey p) s u := by
      unfold u
      split
      · exact .refl s
      · exact (s.reelWrite_rollbackKey p 0x0E 2 [r.dropped]).trans (.of_eq rfl rfl)
    exact hu.trans (State.reelWrite_rollbackKey p ..)
  case case4 v u _ =>
    have hu : State.WritesIn (rollbackKey p) s u :=
      (s.odSet_reel_rollbackKey p _ (by omega) (by omega)).trans (.of_eq rfl rfl)
    exact hu.trans (State.event_rollbackKey p _ _ _ (by decide))
  case case5 => exact (s.odSet_reel_rollbackKey p _ (by omega) (by omega)).trans (.of_eq rfl rfl)

theorem State.repairLine_rollbackKey (s : State) (line : Nat) :
    State.WritesIn (rollbackKey p) s (s.repairLine p line) := by
  fun_cases State.repairLine s p line
  case case3 =>
    refine .trans ?_ (State.event_rollbackKey p _ _ _ (by decide))
    exact .of_eq rfl rfl
  all_goals exact .refl s

theorem State.restored_rollbackKey (s : State) : State.WritesIn (rollbackKey p) s (s.restored p) := by
  have hmem : State.WritesIn (rollbackKey p) s (s.undoMemory p) := by
    refine .trans ?_ (foldl_writesIn (fun s line => s.repairLine_rollbackKey p line) _ _)
    exact .of_eq rfl rfl
  have hslots (l : List Nat) (u : State) : State.WritesIn (rollbackKey p) u (l.foldl (fun s n => s.clearSlot n) u) := by
    refine foldl_writesIn (fun s n => ?_) l u
    exact .of_eq rfl rfl
  have hstats : State.WritesIn (rollbackKey p) (s.undoMemory p) ((s.undoMemory p).rollbackStats p) := .of_eq rfl rfl
  exact hmem.trans (hstats.trans ((hslots _ _).trans (.of_eq rfl rfl)))
end

/-! ### A restored step, and the fault that restores it (13 R424, R425) -/

/-- What a rollback leaves of the partition, and what it says there. -/
structure Part.RolledBack (x y : Part) (cause : Nat) : Prop where
  restoring : y.restoring = true
  cause : y.restoreCause = cause
  tainted : y.tainted = false
  state : y.state = x.state
  draft : y.draft = x.draft
  epoch : y.epoch = x.epoch

section
variable {s : State} {p : Nat}

theorem State.restoreStep_rolledBack (cause : Nat) (hu : (s.part p).undoOver = false) :
    (s.part p).RolledBack ((s.restoreStep p cause).part p) cause ∧
    ((s.restoreStep p cause).part p).faultRolls = (s.part p).faultRolls ∧
    State.WritesIn (rollbackKey p) s (s.restoreStep p cause) := by
  have hpart : (s.restored p).part p = s.part p := State.part_of_parts (s.restored_parts p) p
  unfold State.restoreStep
  extract_lets x s1 s2 y s3 s4 s5
  rw [if_neg (by simp [x, hu])]
  have hy : y = s.part p := hpart
  have hparts : (s5.reel p 0x0A 2 [y.epoch.toNat + cause <<< 48]).part p = s3.part p :=
    State.part_of_parts (by simp [s5, s4]) p
  have h2 : State.WritesIn (rollbackKey p) s s2 := s.restored_rollbackKey p
  have h4 : State.WritesIn (rollbackKey p) s s4 :=
    (h2.trans (u := s3) (.of_eq rfl rfl)).trans (State.event_rollbackKey p _ _ _ (by decide))
  have h5 : State.WritesIn (rollbackKey p) s s5 := h4.trans (.of_eq (by simp [s5]) (by simp [s5]))
  rw [hparts, State.part_setPart_same, hy]
  exact ⟨⟨rfl, rfl, rfl, rfl, rfl, rfl⟩, rfl, h5.trans (State.reel_rollbackKey p ..)⟩

/-- The package of a draft that runs on no other votes with none. -/
theorem State.withholdAndRollback_alone {cause : Nat} (h : ∀ d, (s.part p).draft = some d → d.packages ≤ 1) :
    s.withholdAndRollback p cause = s.rollback p cause := by
  cases hd : (s.part p).draft with
  | none => simp [State.withholdAndRollback, hd]
  | some d => simp [State.withholdAndRollback, hd, Nat.not_lt.2 (h d hd)]

/-- A detected fault that rolls a step back restores it, and is counted among its partition's faults. -/
theorem State.detectedFault_effect (die : Option Nat) (h : s.RollsBack p) :
    let v := s.restoreStep p 4
    let u := s.detectedFault p die
    (s.part p).RolledBack (u.part p) 4 ∧ { u with parts := v.parts } = v := by
  intro v u
  obtain ⟨halone, hover, htaint, hrun, hnew, hrolls, hlimit⟩ := h
  obtain ⟨hback, hcount, hkeys⟩ := State.restoreStep_rolledBack 4 hover
  have hroll : s.withholdAndRollback p 4 = v.setPart p { v.part p with taintRolls := 0 } := by
    rw [State.withholdAndRollback_alone halone]
    simp [State.rollback, hrun, htaint, hnew, show bit 4 1 = false from rfl, v]
  have hlimit' : v.odGet 0x8001 0 = s.odGet 0x8001 0 := hkeys.kept _ _ (by simp [rollbackKey, odKey]; omega)
  have hfew : ((s.part p).faultRolls ++ [die]).length < v.odGet 0x8001 0 := by
    rw [hlimit', hrolls]
    exact hlimit
  have hu : u = (s.withholdAndRollback p 4).setPart p
      { v.part p with taintRolls := 0, faultRolls := (s.part p).faultRolls ++ [die] } := by
    rw [← hcount] at hfew ⊢
    rw [hroll]
    simp only [u, State.detectedFault, hrun, hnew, hroll, State.part_setPart_same]
    exact if_pos hfew
  rw [hu, hroll, State.part_setPart_same]
  obtain ⟨hrest, hcause, htaint, hstate, hdraft, hepoch⟩ := hback
  exact ⟨⟨hrest, hcause, htaint, hstate, hdraft, hepoch⟩, rfl⟩

/-- A control fault that a command finds: its event is counted, and the step rolls back once. -/
theorem State.placeFault_effect {code n tick pos : Nat} (h : s.RollsBack p) (hc : code / 256 = 3)
    (hk : ¬ rollbackKey p (odKey 0xB103 (code % 256))) :
    let u := s.placeFault code p n tick pos
    (u.part p).restoring = true ∧ (u.part p).epoch = (s.part p).epoch ∧
    u.odGet 0xB103 (code % 256) = s.odGet 0xB103 (code % 256) + 1 := by
  intro u
  let e := s.event code (s.ofSlot n) (s.cmdPlace p tick pos)
  have hparts : e.part p = s.part p := State.part_of_parts (by simp [e]) p
  have hlimit : e.odGet 0x8001 0 = s.odGet 0x8001 0 :=
    State.event_odGet _ _ _ _ _ _ (by unfold odKey; omega) (by unfold odKey; omega)
  have hcount : e.odGet 0xB103 (code % 256) = s.odGet 0xB103 (code % 256) + 1 := by
    have := s.event_count code (s.ofSlot n) (s.cmdPlace p tick pos)
    rwa [hc] at this
  have he : e.RollsBack p := by
    unfold State.RollsBack at h ⊢
    rwa [hparts, hlimit]
  obtain ⟨hback, hframe⟩ := State.detectedFault_effect (e.dieOfSlot n) he
  obtain ⟨-, -, hkeys⟩ := State.restoreStep_rolledBack (s := e) (p := p) 4 he.2.1
  have hu : State.WritesIn (rollbackKey p) (e.restoreStep p 4) u :=
    .of_eq (congrArg State.od hframe :) (congrArg State.cfg hframe :)
  refine ⟨hback.restoring, hback.epoch.trans (by rw [hparts]), ?_⟩
  rw [hu.kept _ _ hk, hkeys.kept _ _ hk, hcount]
end

end Sys2Proof.Machine
end

section
namespace Sys2Proof.Machine

/-! ## Issue of a station command (O16) -/

/-- The flyer of a command's slot as the command finds it (03 R111, R119). -/
def State.issuing (s : State) (p : Nat) (c : Cmd) : Flyer := (s.flyer c.slot.val).land (s.draftCycle p)

/-- The state after a command that its flyer has taken, before it is judged (03 R115, R124). -/
def State.taken (s : State) (p : Nat) (c : Cmd) : State :=
  s.setFlyer c.slot.val ((s.issuing p c).take c (s.draftCycle p))

/-- What is known of a command that its flyer takes. -/
def State.issuedAs (s : State) (p : Nat) (c : Cmd) : Issued := ⟨p, c.slot.val, (s.issuing p c).pos, s.draftCycle p⟩

theorem State.flyer_setFlyer_same (s : State) (n : Nat) (x : Flyer) : (s.setFlyer n x).flyer n = x := by
  simp [State.flyer, State.setFlyer]

theorem State.flyer_setFlyer_other (s : State) {n m : Nat} (x : Flyer) (h : m ≠ n) : (s.setFlyer n x).flyer m = s.flyer m :=
  fmGet_fmSet_other _ _ _ _ _ h

section
variable {s : State} {p op : Nat} {c : Cmd}

theorem State.issueAt_eq : s.issueAt p c op =
    if (s.issuing p c).orderBad c (s.draftCycle p) then ((s.taken p c).cmdFault (s.issuedAs p c) 0x0303, none)
    else if s.cmdBad p c op then ((s.taken p c).invalid (s.issuedAs p c), none)
    else (s.taken p c, some (s.issuedAs p c)) := rfl

/-- The order a command keeps (03 R115): not before the last command's cycle, and with room in its cycle. -/
theorem Flyer.orderBad_eq_false {f : Flyer} {dc : Nat} (h : f.last ≤ f.base.toNat + c.offset ∧
    (f.last ≠ dc ∨ f.inCycle = 0 ∨ f.inCycle = 1 ∧ f.scalars = 0)) : f.orderBad c dc = false := by
  obtain ⟨hcycle, hroom⟩ := h
  have hnot : ¬ c.offset + f.base.toNat < f.last := by omega
  have hnot' : ¬ f.base.toNat + c.offset < f.last := by omega
  rcases hroom with h | h | ⟨h, h'⟩
  · simp [Flyer.orderBad, hnot', h]
  · simp [Flyer.orderBad, hnot', h]
  · simp [Flyer.orderBad, hnot', h, h']

theorem Flyer.orderBad_eq_true {f : Flyer} {dc : Nat}
    (h : c.offset + f.base.toNat < f.last ∨ f.last = dc ∧ 2 ≤ f.inCycle) : f.orderBad c dc = true := by
  rcases h with h | ⟨h, h'⟩
  · simp [Flyer.orderBad, Nat.add_comm f.base.toNat, h]
  · simp [Flyer.orderBad, h, h', show f.inCycle ≠ 0 by omega]

theorem State.cmdBad_eq_false (hop : c.opcode = op) (hst : stationFits op c.station = true)
    (hf : c.format = 0 ∨ formatValid c.format = true)
    (hr : ∀ r ∈ usedRovings c, s.touches p c.slot.val c.station r = true) : s.cmdBad p c op = false := by
  have hall : ((usedRovings c).all fun r => s.touches p c.slot.val c.station r) = true := List.all_eq_true.2 hr
  rcases hf with hf | hf <;> simp [State.cmdBad, hop, hst, hf, hall]

/-- A nop names no roving and stands at station 0 (03 R93, R114). -/
theorem State.cmdBad_nop (hop : c.opcode = 0) (hst : c.station = 0) (hf : c.format = 0) : s.cmdBad p c 0 = false :=
  State.cmdBad_eq_false hop (by rw [hst]; rfl) (.inl hf) (by simp [usedRovings, hop])

theorem State.cmdBad_not_nop (h : c.opcode ≠ 0 ∨ c.station ≠ 0) : s.cmdBad p c 0 = true := by
  rcases h with h | h <;> simp [State.cmdBad, stationFits, h]

/-- A command that keeps every rule issues: its flyer has taken it, and nothing else has changed. -/
theorem State.issueAt_good (ho : (s.issuing p c).orderBad c (s.draftCycle p) = false) (hb : s.cmdBad p c op = false) :
    s.issueAt p c op = (s.taken p c, some (s.issuedAs p c)) := by simp [State.issueAt_eq, ho, hb]

/-- A command that breaks the order raises ISSUE_ORDER. -/
theorem State.issueAt_disordered (ho : (s.issuing p c).orderBad c (s.draftCycle p) = true) :
    s.issueAt p c op = ((s.taken p c).cmdFault (s.issuedAs p c) 0x0303, none) := by simp [State.issueAt_eq, ho]

/-- A command in its order that breaks another rule raises COMMAND_INVALID. -/
theorem State.issueAt_invalid (ho : (s.issuing p c).orderBad c (s.draftCycle p) = false) (hb : s.cmdBad p c op = true) :
    s.issueAt p c op = ((s.taken p c).cmdFault (s.issuedAs p c) 0x0304, none) := by
  simp [State.issueAt_eq, ho, hb, State.invalid]

theorem State.cmdFault_effect {code : Nat} (i : Issued) (h : s.RollsBack i.p) (hp : i.p < 4) (hc : code / 256 = 3) :
    let u := s.cmdFault i code
    (u.part i.p).restoring = true ∧ u.odGet 0xB103 (code % 256) = s.odGet 0xB103 (code % 256) + 1 ∧
    (u.part i.p).epoch = (s.part i.p).epoch := by
  obtain ⟨hrest, hepoch, hcount⟩ := State.placeFault_effect (n := i.n) (tick := (s.part i.p).stepTick) (pos := i.pos) h hc
    (by simp [rollbackKey, odKey]; omega)
  exact ⟨hrest, hcount, hepoch⟩
end

theorem State.partOfSlot_lt {s : State} {n p : Nat} (h : s.partOfSlot n = some p) : p < 4 :=
  List.mem_range.1 (List.mem_of_find?_eq_some h)

/-- A command that its flyer takes and that breaks a rule has no effect of its own. -/
theorem State.run_of_refused {r0 u : State} {t p op : Nat} {c : Cmd} (h : r0.CanIssue t p c)
    (hbad : (r0.atIssue t p c).issueAt p c op = (u, none)) (eff : State → Issued → State) :
    r0.run t c op eff = .next u := by
  obtain ⟨hp, hmay, hmay'⟩ := h
  unfold State.atIssue at hmay' hbad
  simp only [State.run, hp, hmay, hmay', hbad]
  rfl

theorem exec_nop (t : Nat) (c : Cmd) (r0 : State) : exec (.nop t c) r0 = r0.run t c 0 fun s _ => s := rfl

section
variable {r0 s u : State} {t p : Nat} {c : Cmd} (h : r0.CanIssue t p c) (hs : r0.atIssue t p c = s)
include h hs

theorem exec_nop_of_issued {i : Issued} (hp : i.p = p) (hissue : s.issueAt p c 0 = (u, some i)) :
    exec (.nop t c) r0 = .next u := by
  subst hs hp
  exact (exec_nop ..).trans (State.run_of_issuesAs ⟨h, hissue⟩ _)

theorem exec_nop_of_refused (hissue : s.issueAt p c 0 = (u, none)) : exec (.nop t c) r0 = .next u := by
  subst hs
  exact (exec_nop ..).trans (State.run_of_refused h hissue _)
end

/-- Settles O16: by what the order and the other checks say of the command. -/
theorem commandIssueRules : Obligations.CommandIssueRules := by
  intro t p c r0 hcan s dc f order heard
  have hp : p < 4 := State.partOfSlot_lt hcan.1
  have hs : r0.atIssue t p c = s := rfl
  clear_value s
  have heard_taken : heard (s.taken p c) := by
    refine ⟨?_, ?_, ?_, ?_, ?_, fun n hn => State.flyer_setFlyer_other _ _ hn⟩
    all_goals rw [State.taken, State.flyer_setFlyer_same]
    all_goals rfl
  have faults {code : Nat} (h : s.RollsBack p) (hc : code / 256 = 3) :=
    State.cmdFault_effect (s := s.taken p c) (s.issuedAs p c) h hp hc
  refine ⟨fun op ho hop hst hf hr => ?_, fun ho hop hst hf => ?_, fun hroll => ⟨fun ho => ?_, fun ho hbad => ?_⟩⟩
  · exact ⟨_, State.issueAt_good (Flyer.orderBad_eq_false ho) (State.cmdBad_eq_false hop hst hf hr), heard_taken, rfl⟩
  · have hissue := State.issueAt_good (Flyer.orderBad_eq_false ho) (State.cmdBad_nop hop hst hf)
    exact ⟨_, exec_nop_of_issued hcan hs rfl hissue, heard_taken, rfl⟩
  · have hissue := State.issueAt_disordered (op := 0) (Flyer.orderBad_eq_true ho)
    exact ⟨_, exec_nop_of_refused hcan hs hissue, faults hroll (by omega)⟩
  · have hissue := State.issueAt_invalid (Flyer.orderBad_eq_false ho) (State.cmdBad_not_nop hbad)
    exact ⟨_, exec_nop_of_refused hcan hs hissue, faults hroll (by omega)⟩

end Sys2Proof.Machine
end

section
namespace Sys2Proof.Machine

/-! ## Scalar commands (O17) -/

/-- A result that reaches s[r] four cycles after issue changes the register's landings, and nothing else. -/
def State.Lands (s u : State) (i : Issued) (c : Cmd) (v mask : Word) : Prop :=
  u.flyer i.n = { s.flyer i.n with landing := (s.flyer i.n).landing ++ [(i.dc + 4, c.sa, v, mask)] } ∧
  { u with flyers := s.flyers } = s ∧ ∀ n, n ≠ i.n → u.flyer n = s.flyer n

section
variable {s : State} {i : Issued} {c : Cmd}

theorem State.landSreg_lands (v mask : Nat) :
    s.Lands (s.landSreg i c v mask) i c (BitVec.ofNat 64 v) (BitVec.ofNat 64 mask) :=
  ⟨State.flyer_setFlyer_same .., rfl, fun _ hn => State.flyer_setFlyer_other _ _ hn⟩

theorem State.landSreg_lands_all (v : Nat) :
    s.Lands (s.landSreg i c v (2 ^ 64 - 1)) i c (BitVec.ofNat 64 v) (2 ^ 64 - 1) := by
  have h := State.landSreg_lands (s := s) (i := i) (c := c) v (2 ^ 64 - 1)
  rwa [show BitVec.ofNat 64 (2 ^ 64 - 1) = 2 ^ 64 - 1 by simp [pow_succ]] at h

theorem State.setBase_eq {d : Draft} (hd : (s.part i.p).draft = some d) (hl : c.operand % 2 ^ 32 < d.span) :
    s.setBase i c = s.setFlyer i.n { s.flyer i.n with base := BitVec.ofNat 32 c.operand } := by
  simp only [State.setBase, hd]
  exact if_neg (Nat.not_le.2 hl)

theorem State.sLoad_eq {l : List Byte} (ho : c.operand % 2 ^ 27 % 8 = 0)
    (hr : s.c0Read i.p i.n 0 (sramBase i.n + sharedOff + c.operand % 2 ^ 27) 8
      (s.cmdPlace i.p (s.part i.p).stepTick i.pos) = (s, some l)) :
    s.sLoad i c = s.landSreg i c (natOf l) (2 ^ 64 - 1) := by
  fun_cases State.sLoad s i c
  case case1 h => exact absurd ho h
  case case2 u m h =>
    obtain ⟨rfl, hl⟩ := Prod.mk.inj (h.symm.trans hr)
    rw [Option.some.inj hl]
  case case3 u h => cases congrArg Prod.snd (h.symm.trans hr)

theorem State.c0Store_of_key {p n st pa k : Nat} {l : List Byte} (h : s.stationKey p pa l.length = .ok k) :
    s.c0Store p n st pa l = (s.c0Write p k l, true) := by simp only [State.c0Store, h]

theorem State.sStore_eq (ho : c.operand % 2 ^ 27 % 8 = 0) (hb : s.SregGood i.n c.sb) :
    s.sStore i c = (s.c0Store i.p i.n 0 (sramBase i.n + sharedOff + c.operand % 2 ^ 27)
      (bytesOf 8 (s.sreg i.n c.sb))).1 := by
  have hr := State.readSreg_of_good hb
  fun_cases State.sStore s i c
  case case1 h => exact absurd ho h
  case case2 u v h =>
    obtain ⟨rfl, hv⟩ := Prod.mk.inj (h.symm.trans hr)
    rw [Option.some.inj hv]
    rfl
  case case3 u h => cases congrArg Prod.snd (h.symm.trans hr)

/-- A store of 8 bytes changes no other byte and no flyer. -/
theorem State.c0Store_word {p n st pa k v : Nat} (hw : Mem.wf s.mem = true) (hk : s.stationKey p pa 8 = .ok k) :
    let u := (s.c0Store p n st pa (bytesOf 8 v)).1
    Mem.readN u.mem k 8 = bytesOf 8 v ∧ (∀ a, a < k ∨ k + 8 ≤ a → Mem.read u.mem a = Mem.read s.mem a) ∧
    u.flyers = s.flyers := by
  have hlen := length_bytesOf 8 v
  rw [← hlen] at hk
  rw [State.c0Store_of_key hk]
  dsimp only
  rw [State.c0Write_mem]
  refine ⟨?_, fun a ha => Mem.read_writeN_outside _ _ _ _ hw (by rwa [hlen]), State.c0Write_flyers ..⟩
  have h := Mem.readN_writeN s.mem k (bytesOf 8 v) hw
  rwa [hlen] at h

theorem State.sOp_eq {g : Nat → Nat → Option Nat} {v : Nat} (ha : s.SregGood i.n c.sa) (hb : s.SregGood i.n c.sb)
    (hv : g (s.sreg i.n c.sa) (s.sreg i.n c.sb) = some v) : s.sOp i c g = s.landSreg i c v (2 ^ 64 - 1) := by
  unfold State.sreg at hv
  simp only [State.sOp, State.readSregs, State.readSreg_of_good ha, State.readSreg_of_good hb, hv]
end

theorem exec_setBase (t : Nat) (c : Cmd) (s : State) : exec (.setBase t c) s = execSetBase t c s := rfl
theorem exec_sSetLo (t : Nat) (c : Cmd) (s : State) : exec (.sSetLo t c) s = execSSetLo t c s := rfl
theorem exec_sSetHi (t : Nat) (c : Cmd) (s : State) : exec (.sSetHi t c) s = execSSetHi t c s := rfl
theorem exec_sLoad (t : Nat) (c : Cmd) (s : State) : exec (.sLoad t c) s = execSLoad t c s := rfl
theorem exec_sStore (t : Nat) (c : Cmd) (s : State) : exec (.sStore t c) s = execSStore t c s := rfl
theorem exec_sInt (t : Nat) (c : Cmd) (s : State) : exec (.sInt t c) s = execSInt t c s := rfl
theorem exec_sFp64 (t : Nat) (c : Cmd) (s : State) : exec (.sFp64 t c) s = execSFp64 t c s := rfl

/-- A row whose command issues does what its effect does. -/
theorem does_of_issuesAs {r0 s : State} {t op : Nat} {c : Cmd} {i : Issued} {I : Instr} {P : State → Prop}
    {eff : State → Issued → State} (harm : exec I r0 = r0.run t c op eff) (h : r0.IssuesAs t c op i s) (hP : P (eff s i)) :
    Does I r0 P := ⟨_, harm.trans (State.run_of_issuesAs h eff), hP⟩

section
variable {r0 s : State} {t : Nat} {c : Cmd} {i : Issued}

theorem does_sInt {v : Word} (h : r0.IssuesAs t c 0x14 i s) (ha : s.SregGood i.n c.sa) (hb : s.SregGood i.n c.sb)
    (hv : sInt (c.mod % 16) (fmGet (s.flyer i.n).sreg c.sa 0) (fmGet (s.flyer i.n).sreg c.sb 0) = some v) :
    Does (.sInt t c) r0 fun u => s.Lands u i c v (2 ^ 64 - 1) := by
  let g : Nat → Nat → Option Nat := fun a b => (sInt (c.mod % 16) (BitVec.ofNat 64 a) (BitVec.ofNat 64 b)).map BitVec.toNat
  have hg : g (s.sreg i.n c.sa) (s.sreg i.n c.sb) = some v.toNat := by
    simp only [g, State.sreg, BitVec.ofNat_toNat, BitVec.setWidth_eq, hv, Option.map_some]
  refine does_of_issuesAs (eff := fun s i => s.sOp i c g) (exec_sInt t c r0) h ?_
  have hlands := State.landSreg_lands_all (s := s) (i := i) (c := c) v.toNat
  rwa [BitVec.ofNat_toNat, BitVec.setWidth_eq, ← State.sOp_eq ha hb hg] at hlands
end

/-- Settles O17: each row has its effect in the state just after issue. -/
theorem scalarCommands : Obligations.ScalarCommands := by
  intro t c i r0 s f lands
  refine ⟨fun h d hd hl => ?_, fun h => ?_, fun h => ?_, fun h ho l hr => ?_, fun h ho hb hw k hk => ?_,
    fun ha hb => ?_⟩
  · refine does_of_issuesAs (eff := fun s i => s.setBase i c) (exec_setBase t c r0) h ?_
    rw [State.setBase_eq hd hl]
    exact ⟨State.flyer_setFlyer_same .., rfl⟩
  · exact does_of_issuesAs (eff := fun s i => s.landSreg i c (c.operand % 2 ^ 32) (2 ^ 32 - 1)) (exec_sSetLo t c r0) h
      (State.landSreg_lands ..)
  · refine does_of_issuesAs (eff := fun s i => s.landSreg i c ((c.operand % 2 ^ 32) <<< 32) (2 ^ 64 - 2 ^ 32)) (exec_sSetHi t c r0) h ?_
    rw [Nat.shiftLeft_eq]
    exact State.landSreg_lands ..
  · refine does_of_issuesAs (eff := fun s i => s.sLoad i c) (exec_sLoad t c r0) h ?_
    rw [State.sLoad_eq ho hr]
    exact State.landSreg_lands_all ..
  · refine does_of_issuesAs (eff := fun s i => s.sStore i c) (exec_sStore t c r0) h ?_
    rw [State.sStore_eq ho hb]
    exact State.c0Store_word hw hk
  · extract_lets a b gives
    refine ⟨fun h => ?_, fun h v hv => ?_⟩
    · have hgives {m : Nat} {v : Word} (hv : sInt m a b = some v) : gives m v := fun hm => does_sInt h ha hb (by rw [hm, hv])
      refine ⟨hgives rfl, hgives rfl, hgives rfl, hgives rfl, hgives rfl, fun hs => ⟨hgives ?_, hgives ?_⟩, hgives ?_,
        hgives ?_⟩
      · simp [sInt, hs]
      · simp [sInt, hs]
      · simp [sInt, BitVec.le_def]
      · simp [sInt, BitVec.le_def]
    · refine does_of_issuesAs (eff := fun s i => s.sOp i c (sFp64 (c.mod % 16))) (exec_sFp64 t c r0) h ?_
      rw [State.sOp_eq ha hb hv]
      exact State.landSreg_lands_all ..

end Sys2Proof.Machine
end

section
namespace Sys2Proof.Machine

/-! ## Tiles on their rovings (O19) -/

/-- The state after tile j of roving r is counted as gone from its source (03 R105). -/
def State.counted (s : State) (p r j : Nat) : State :=
  s.setPart p { s.part p with left := fmSet (s.part p).left r (j + 1) }

section
variable {s : State} {p r j due delay : Nat} {v : Roving}

theorem State.crossTile_arb (s : State) (p : Nat) (v : Roving) (x : Tile) : ∃ m, s.crossTile p v x = { s with arb := m } := by
  have hcross (a b cls vc n : Nat) : ∃ m, s.crossSwitch a b cls vc p n = { s with arb := m } := by
    unfold State.crossSwitch
    split
    · exact ⟨_, rfl⟩
    · exact ⟨_, rfl⟩
  unfold State.crossTile
  split
  · split
    · exact ⟨_, rfl⟩
    · exact hcross ..
  · exact ⟨_, rfl⟩

/-- The tile that a station which is no memory has produced. -/
theorem State.sourceTile_produced {o : Nat × Nat × Nat × Tile} (hfrom : v.fromAway = false)
    (h3 : v.srcStation / 4096 ≠ 3) (h7 : v.srcStation / 4096 ≠ 7) (h8 : v.srcStation / 4096 ≠ 8)
    (ho : (s.part p).outs.find? (fun o => o.1 == r && o.2.1 == j && decide (o.2.2.1 ≤ s.now)) = some o) :
    s.sourceTile p r j due v =
      (s.setPart p { s.part p with outs := (s.part p).outs.erase o }, some o.2.2.2) := by
  simp only [State.sourceTile, State.takeOut, hfrom, h3, h7, h8, ho]
  simp

theorem State.sourceLane_of_station (h7 : v.srcStation / 4096 ≠ 7) (h8 : v.srcStation / 4096 ≠ 8) :
    s.sourceLane p r due v = (s, 0) := by simp [State.sourceLane, h7, h8]

/-- A tile that its source has produced leaves it and is under way, due at its destination after the delay. -/
theorem State.depart_effect {o : Nat × Nat × Nat × Tile} (hv : v.invalid = false) (hfrom : v.fromAway = false)
    (haway : v.sendsAway = false) (h3 : v.srcStation / 4096 ≠ 3) (h7 : v.srcStation / 4096 ≠ 7)
    (h8 : v.srcStation / 4096 ≠ 8) (hdelay : s.tileDelay v = some delay)
    (ho : (s.part p).outs.find? (fun o => o.1 == r && o.2.1 == j && decide (o.2.2.1 ≤ s.now)) = some o) :
    let u := s.depart p r j due v
    (u.part p).flight = (s.part p).flight ++ [(r, j, due + delay, o.2.2.2)] ∧ fmGet (u.part p).left r 0 = j + 1 ∧
    { { u with parts := s.parts } with arb := s.arb } = s ∧ ∀ q, q ≠ p → u.part q = s.part q := by
  intro u
  have hpart : (s.counted p r j).part p = { s.part p with left := fmSet (s.part p).left r (j + 1) } :=
    State.part_setPart_same ..
  have hout : (s.counted p r j).sourceTile p r j due v = ((s.counted p r j).setPart p { s.part p with
      left := fmSet (s.part p).left r (j + 1), outs := (s.part p).outs.erase o }, some o.2.2.2) := by
    rw [State.sourceTile_produced hfrom h3 h7 h8 (by rw [hpart]; exact ho), hpart]
  generalize ht : (s.counted p r j).setPart p { s.part p with
      left := fmSet (s.part p).left r (j + 1), outs := (s.part p).outs.erase o } = s2 at hout
  have hdelay2 : s2.tileDelay v = some delay := by rw [← ht]; exact hdelay
  have hpart2 : s2.part p = { s.part p with left := fmSet (s.part p).left r (j + 1), outs := (s.part p).outs.erase o } := by
    rw [← ht, State.part_setPart_same]
  obtain ⟨m, hcross⟩ := s2.crossTile_arb p v o.2.2.2
  have hu : u = State.setPart { s2 with arb := m } p
      { s2.part p with flight := (s2.part p).flight ++ [(r, j, due + 0 + delay, o.2.2.2)] } := by
    unfold u State.depart
    have hc : (s.setPart p { s.part p with left := fmSet (s.part p).left r (j + 1) }).sourceTile p r j due v = _ := hout
    simp only [hv, hc, State.sourceLane_of_station h7 h8, haway, hdelay2, hcross]
    rfl
  rw [hu, State.part_setPart_same, hpart2]
  refine ⟨rfl, fmGet_fmSet_same .., by rw [← ht]; rfl, fun q hq => ?_⟩
  have hother : s2.part q = s.part q := by
    rw [← ht, State.part_setPart_other _ _ hq, State.counted, State.part_setPart_other _ _ hq]
  exact (State.part_setPart_other _ _ hq).trans hother

/-- The station after a tile has come into its queue. -/
def State.enqueued (s : State) (n st : Nat) (q : QTile) : State :=
  s.setStation n st { s.station n st with queue := (s.station n st).queue ++ [q] }

theorem State.feed_of_idle {n st : Nat} (h : (s.station n st).takes = []) (k : Nat) : s.feed p n st k = s := by
  cases k with
  | zero => rfl
  | succ k =>
    unfold State.feed
    dsimp only
    rw [h]

/-- A tile that comes to a station with room, where no command waits for tiles, stands in its queue. -/
theorem State.land_queued {x : Tile} {die : Nat} (hdie : s.dieOfSlot v.dstSlot = some die)
    (h3 : v.dstStation / 4096 ≠ 3) (h7 : v.dstStation / 4096 ≠ 7) (h8 : v.dstStation / 4096 ≠ 8)
    (hroom : s.queueFull p v.dstSlot v.dstStation r = false) (ht : (s.station v.dstSlot v.dstStation).takes = []) :
    s.land p r j v x = s.enqueued v.dstSlot v.dstStation ⟨s.now, r, j, x⟩ := by
  have hidle : ((s.enqueued v.dstSlot v.dstStation ⟨s.now, r, j, x⟩).station v.dstSlot v.dstStation).takes = [] := by
    rw [State.enqueued, State.station_setStation]
    exact ht
  have henq : s.enqueueTile p v.dstSlot v.dstStation r j x = s.enqueued v.dstSlot v.dstStation ⟨s.now, r, j, x⟩ := by
    unfold State.enqueueTile
    rw [if_neg (by simp [hroom])]
    exact State.feed_of_idle hidle _
  rw [← henq]
  unfold State.land
  dsimp only
  rw [if_neg (by simp [hdie]), if_neg (by simp [h3, h7, h8])]
end

theorem State.roving_of_draft {s : State} {p r : Nat} {d : Draft} {v : Roving} (hd : (s.part p).draft = some d)
    (hv : d.rovs[r]? = some v) : s.roving p r = some v := by simp [State.roving, hd, hv]

section
variable {t r j : Nat} {p : PartIdx} {d : Draft} {v : Roving} {r0 s : State} (hs : (r0.arrive t).syncDraft p.val = s)
  (hd : (s.part p.val).draft = some d) (hv : d.rovs[r]? = some v)
include hs hd hv

theorem exec_rovingTileSend {due : Nat} (hdue : s.departure p.val d v j = some due)
    (hi : (s.part p.val).issuing = true) (hleft : fmGet (s.part p.val).left r 0 = j) (hcount : j < v.count) :
    exec (.rovingTileSend t p r j) r0 = .next (if s.now < due then s else s.depart p.val r j due v) := by
  have hrov := State.roving_of_draft hd hv
  simp only [exec, execRovingTileSend, hs, hd, hrov, hdue, hi, hleft]
  by_cases hnow : s.now < due
  · simp [hnow]
  · simp [hnow, Nat.not_le.2 hcount]

theorem exec_rovingTileArrive {e : Nat × Nat × Nat × Tile}
    (he : (s.part p.val).flight.find? (fun e => e.1 == r && e.2.1 == j && decide (e.2.2.1 ≤ s.now)) = some e) :
    exec (.rovingTileArrive t p r j) r0 =
      .next ((s.setPart p.val { s.part p.val with flight := (s.part p.val).flight.erase e }).land p.val r j v e.2.2.2) := by
  have hrov := State.roving_of_draft hd hv
  simp only [exec, execRovingTileArrive, hs, he, hrov]
end


/-- Settles O19: a send by what a departure does, an arrival by what a landing does. -/
theorem rovingTilesMove : Obligations.RovingTilesMove := by
  intro t r j p d v r0 s hd hv x
  have hs : (r0.arrive t).syncDraft p.val = s := rfl
  clear_value s
  refine ⟨fun due hdue hi hleft hcount => ⟨fun hearly => ?_, fun delay o hnow hinv hfrom haway h3 h7 h8 hdelay ho => ?_⟩,
    fun e die he hdie h3 h7 h8 hroom ht => ?_⟩
  · have hexec := exec_rovingTileSend hs hd hv hdue hi hleft hcount
    rwa [if_pos hearly] at hexec
  · have hexec := exec_rovingTileSend hs hd hv hdue hi hleft hcount
    rw [if_neg (Nat.not_lt.2 hnow)] at hexec
    exact ⟨_, hexec, State.depart_effect hinv hfrom haway h3 h7 h8 hdelay ho⟩
  · refine ⟨_, exec_rovingTileArrive hs hd hv he, ?_⟩
    let s1 := s.setPart p.val { x with flight := x.flight.erase e }
    have hdraft : (s1.part p.val).draft = x.draft := by rw [State.part_setPart_same]
    have hroom1 : s1.queueFull p.val v.dstSlot v.dstStation r = false := by
      unfold State.queueFull at hroom ⊢
      rwa [hdraft]
    rw [State.land_queued (s := s1) hdie h3 h7 h8 hroom1 ht]
    refine ⟨?_, ?_, rfl, rfl⟩
    · rw [State.enqueued, State.station_setStation]
      rfl
    · exact congrArg Part.flight (State.part_setPart_same s p.val _)

end Sys2Proof.Machine
end

section
namespace Sys2Proof.Machine

/-! ## Twist commands (O22) -/

theorem transit_twist {op st : Nat} (h : 0x20 ≤ op) (h' : op < 0x80) : transit op st = 4 := by
  unfold transit
  rw [if_neg (by omega), if_pos h']

section
variable {s : State} {i : Issued} {c : Cmd}

/-- A twist command is sent with the scalars it reads (06 R206). -/
theorem State.dispatchT_of_good (ha : readsA c = true → s.SregGood i.n c.sa) (hb : readsB c = true → s.SregGood i.n c.sb) :
    s.dispatchT i c = s.dispatch i c (if readsA c then s.sreg i.n c.sa else 0) (if readsB c then s.sreg i.n c.sb else 0) := by
  unfold State.dispatchT
  cases hra : readsA c <;> cases hrb : readsB c
  · rfl
  · rw [State.readSreg_of_good (hb hrb)]
    rfl
  · exact State.dispatch1_of_good (ha hra)
  · exact State.dispatch2_of_good (ha hra) (hb hrb)
end

theorem does_dispatchT {r0 s : State} {t op : Nat} {c : Cmd} {i : Issued} {I : Instr}
    (harm : exec I r0 = r0.run t c op fun s i => s.dispatchT i c) (hop : 0x20 ≤ op) (hop' : op < 0x80)
    (h : r0.IssuesAs t c op i s) (ha : readsA c = true → s.SregGood i.n c.sa) (hb : readsB c = true → s.SregGood i.n c.sb) :
    Does I r0 fun u =>
      s.Sent u i c 4 (if readsA c then s.sreg i.n c.sa else 0) (if readsB c then s.sreg i.n c.sb else 0) := by
  refine does_of_issuesAs harm h ?_
  obtain ⟨hc, -⟩ := State.issueAt_fits h.2
  rw [State.dispatchT_of_good ha hb]
  exact State.dispatch_sent _ _ (hc ▸ transit_twist hop hop')

/-! ### Assembly (06 R202) -/

theorem State.twist_setTwist (s : State) (n e : Nat) (x : Twist) : (s.setTwist n e x).twist n e = x := by
  simp [State.twist, State.setTwist]

/-- The engine that a twist command goes to. -/
def StCmd.engine (c : StCmd) : Nat := c.st % 64

/-- A command without a source joins the pass in assembly: its eight cycles run, and it is a stage later than every stage
there, of the same internal type. -/
def State.Joins (s : State) (c : StCmd) : Prop :=
  let x := s.twist c.n c.engine
  x.pass ≠ [] ∧ s.now < x.began + 8 * s.cycleUnits ∧ canJoin x.pass c = true ∧ x.pass.all (fun d => d.wide == c.wide) = true

section
variable {s : State} {c : StCmd}

theorem State.twistArrive_sourced (hsrc : c.srcA ≠ 0) (hroom : (s.twist c.n c.engine).queue.length < 4) :
    s.twistArrive c = s.setTwist c.n c.engine
      { s.twist c.n c.engine with queue := (s.twist c.n c.engine).queue ++ [c] } := by
  unfold State.twistArrive
  dsimp only
  rw [if_neg (by simp [hsrc])]
  exact if_neg (Nat.not_le.2 hroom)

theorem State.twistArrive_joins (hsrc : c.srcA = 0) (hq : (s.twist c.n c.engine).queue = []) (hj : s.Joins c) :
    s.twistArrive c = s.setTwist c.n c.engine
      { s.twist c.n c.engine with pass := (s.twist c.n c.engine).pass ++ [c] } := by
  obtain ⟨hpass, hnow, hjoin, hwide⟩ := hj
  unfold StCmd.engine at hpass hnow hjoin hwide hq
  unfold State.twistArrive
  dsimp only
  rw [if_pos (by simp [hsrc, hq]), if_pos (by simp only [hnow, hjoin, hwide]; simpa using hpass)]
  rfl

theorem State.twistArrive_unfit (hsrc : c.srcA = 0) (hq : (s.twist c.n c.engine).queue = []) (hj : ¬ s.Joins c) :
    s.twistArrive c = s.atInvalid c := by
  unfold State.Joins StCmd.engine at hj
  unfold StCmd.engine at hq
  unfold State.twistArrive
  dsimp only
  rw [if_pos (by simp [hsrc, hq]), if_neg fun h => hj ?_]
  simp only [Bool.and_eq_true, decide_eq_true_eq] at h
  obtain ⟨⟨⟨hpass, hnow⟩, hjoin⟩, hwide⟩ := h
  exact ⟨by simpa using hpass, hnow, hjoin, hwide⟩

/-- A pass that its head opens alone. -/
theorem State.openPass_single {n e : Nat} (hq : (s.twist n e).queue = [c]) :
    s.openPass n e = s.setTwist n e { s.twist n e with pass := [c], queue := [], began := s.now } := by
  simp [State.openPass, Twist.openNext, hq]

/-- The command is under way no more. -/
def State.landed (s : State) (c : StCmd) : State := { s with wire := s.wire.erase c }

theorem State.landCmd_twist (hst : c.st / 4096 = 2) : s.landCmd c = (s.landed c).twistArrive c := by
  simp [State.landCmd, State.landed, hst]
end

/-- Settles O22: the rows by what a twist command is sent with, the arrival and the opening by what each does. -/
theorem twistCommandsAssemble : Obligations.TwistCommandsAssemble := by
  refine ⟨fun row hrow t c i r0 s => ?_, fun c s hst => ?_, fun n e c s _ hq => ?_⟩
  · fin_cases hrow
    all_goals exact does_dispatchT rfl (by omega) (by omega)
  · intro e x u joins
    have hland (v : State) (hv : (s.landed c).twistArrive c = v) : u = v := (State.landCmd_twist hst).trans hv
    refine ⟨fun hsrc hroom => ?_, fun hsrc hq hj => ?_, fun hsrc hq hj hroll => ?_⟩
    · rw [hland _ (State.twistArrive_sourced hsrc hroom)]
      exact ⟨State.twist_setTwist .., rfl, rfl⟩
    · rw [hland _ (State.twistArrive_joins hsrc hq hj)]
      exact ⟨State.twist_setTwist .., rfl, rfl⟩
    · rw [hland _ (State.twistArrive_unfit hsrc hq hj)]
      obtain ⟨hrest, -, hcount⟩ := State.placeFault_effect (s := s.landed c) (p := c.p) (code := 0x0304) (n := c.n)
        (tick := c.tick) (pos := c.pos) hroll (by omega) (by simp [rollbackKey, odKey]; omega)
      exact ⟨hcount, hrest⟩
  · intro u
    have hu : u = _ := State.openPass_single hq
    rw [hu]
    exact ⟨State.twist_setTwist .., rfl⟩

end Sys2Proof.Machine
end

section
namespace Sys2Proof.Machine

/-! ## A w_batt whose tensor's record cannot be read (O20)

A `w_batt` adds its two tiles to the statistics of its tensor (04 R146). A word of that record with two wrong bits is a detected
control fault of the draft (08 R280), which restores the step and clears its slots (13 R424), the flyers among them. -/

/-! ### What a read of SRAM leaves of the flyers (08 R280, R281) -/

theorem foldl_flyers {α : Type} {f : State → α → State} (h : ∀ s a, (f s a).flyers = s.flyers) (l : List α) (s : State) :
    (l.foldl f s).flyers = s.flyers := foldl_keeps State.flyers f h l s

section
variable {s : State}

theorem State.failureWarning_flyers (s : State) : s.failureWarning.flyers = s.flyers := by
  unfold State.failureWarning
  dsimp only
  split
  · exact State.event_flyers ..
  · refine foldl_flyers (fun s p => (State.event_flyers ..).trans ?_) _ s
    split <;> rfl

theorem State.warnIfReached_flyers (s : State) (sub before after : Nat) :
    (s.warnIfReached sub before after).flyers = s.flyers := by
  fun_cases State.warnIfReached s sub before after
  case case1 => exact s.failureWarning_flyers
  case case2 => rfl

theorem State.markColumn_flyers (s : State) (d bank col : Nat) : (s.markColumn d bank col).flyers = s.flyers := by
  fun_cases State.markColumn s d bank col
  case case3 => exact (State.failureWarning_flyers _).trans (State.event_flyers ..)
  all_goals rfl

theorem State.countColumn_flyers (s : State) (k col : Nat) : (s.countColumn k col).flyers = s.flyers := by
  fun_cases State.countColumn s k col
  case case1 => exact State.markColumn_flyers ..
  case case2 => rfl

theorem State.sramCorrected_flyers (s : State) (k col : Nat) : (s.sramCorrected k col).flyers = s.flyers :=
  (State.warnIfReached_flyers ..).trans ((State.countColumn_flyers ..).trans (State.event_flyers ..))

theorem State.readWords_flyers (s : State) (k n : Nat) : (s.readWords k n).1.flyers = s.flyers := by
  refine foldl_flyers (fun s e => ?_) _ s
  split
  · exact State.sramCorrected_flyers ..
  · rfl

theorem State.readCheck_sram {k : Nat} (hk : 2 ^ 41 ≤ k) (hk' : k < 2 ^ 42) (n : Nat) : s.readCheck k n = s.readWords k n := by
  unfold State.readCheck
  rw [if_neg (by omega), if_pos hk']

/-- The only word in error has two wrong bits: a read of SRAM changes nothing, and finds it when it covers it. -/
theorem State.readCheck_double {k e : Nat} (hk : 2 ^ 41 ≤ k) (hk' : k < 2 ^ 42) (he : s.sramErr = [(e, 2)]) (n : Nat) :
    s.readCheck k n = (s, if k < e + 8 ∧ e < k + n then [e] else []) := by
  rw [State.readCheck_sram hk hk']
  by_cases h : k < e + 8 ∧ e < k + n
  · simp only [State.readWords, he, List.filter_cons, decide_eq_true h.1, decide_eq_true h.2, if_pos h]
    rfl
  · have h' : ¬ (decide (k < e + 8) && decide (e < k + n)) = true := by simpa using h
    simp only [State.readWords, he, List.filter_cons, h', if_neg h]
    rfl

/-! ### A fault of a step that is restored already (13 R425) -/

/-- The partition's step is restored after a detected control fault, and its package is alone. -/
structure State.Restored (s : State) (p : Nat) : Prop where
  running : (s.part p).state = .running
  rolledBack : (s.part p).RolledBack (s.part p) 4
  alone : ∀ d, (s.part p).draft = some d → d.packages ≤ 1

variable {p : Nat}

theorem State.Restored.of_part {u : State} (h : s.Restored p) {b : List Nat}
    (hu : u.part p = { s.part p with badLines := b }) : u.Restored p := by
  obtain ⟨hrun, ⟨hrest, hcause, htaint, -, -, -⟩, halone⟩ := h
  have hback : (u.part p).RolledBack (u.part p) 4 := by
    rw [hu]
    exact ⟨hrest, hcause, htaint, rfl, rfl, rfl⟩
  exact ⟨by rw [hu]; exact hrun, hback, by rw [hu]; exact halone⟩

theorem State.detectedFault_flyers_of_restored (h : s.Restored p) (die : Option Nat) :
    (s.detectedFault p die).flyers = s.flyers := by
  obtain ⟨hrun, ⟨hrest, hcause, htaint, -, -, -⟩, halone⟩ := h
  have hroll : s.withholdAndRollback p 4 = s.setPart p { s.part p with restoreCause := 4 ||| 4 } := by
    rw [State.withholdAndRollback_alone halone]
    simp [State.rollback, hrun, hrest, hcause, htaint, show bit 4 1 = false from rfl]
  have hu : s.detectedFault p die = s.withholdAndRollback p 4 := by
    simp [State.detectedFault, hrun, hrest, hcause, show bit 4 2 = true from rfl]
  rw [hu, hroll]
  rfl

/-- What meets uncorrectable words of a slot's SRAM, before the fault is contained (08 R280). -/
def State.metWords (s : State) (p n : Nat) (bad : List Nat) (det : List EvField) : State :=
  (s.setPart p { s.part p with badLines := ((s.part p).badLines ++ bad.map (· / 64)).eraseDups }).event 0x080A (s.ofSlot n) det

theorem State.metBad_sram {k : Nat} (hk : 2 ^ 41 ≤ k) (n : Nat) (bad : List Nat) (det : List EvField) :
    s.metBad p n k bad det = (s.metWords p n bad det).detectedFault p ((s.metWords p n bad det).dieOfSlot n) := by
  unfold State.metBad
  dsimp only
  rw [if_neg (by omega)]
  rfl

theorem State.metWords_part (n : Nat) (bad : List Nat) (det : List EvField) :
    (s.metWords p n bad det).part p =
      { s.part p with badLines := ((s.part p).badLines ++ bad.map (· / 64)).eraseDups } := by
  unfold State.metWords
  rw [State.part_of_parts (State.event_parts ..), State.part_setPart_same]

theorem State.metWords_flyers (n : Nat) (bad : List Nat) (det : List EvField) :
    (s.metWords p n bad det).flyers = s.flyers := State.event_flyers ..

theorem State.metWords_rollsBack (h : s.RollsBack p) (n : Nat) (bad : List Nat) (det : List EvField) :
    (s.metWords p n bad det).RollsBack p := by
  have hlimit : (s.metWords p n bad det).odGet 0x8001 0 = s.odGet 0x8001 0 :=
    State.event_odGet _ _ _ _ _ _ (by decide) (by decide)
  unfold State.RollsBack at h ⊢
  rwa [State.metWords_part, hlimit]

/-! ### The statistics of a tile (04 R146) -/

variable {n t : Nat} {x : TileStats} {codes : List Nat} {band : List Byte}

theorem State.accumulate_flyers : (s.accumulate p n t x codes band).flyers = s.flyers := by
  fun_cases State.accumulate s p n t x codes band <;> simp +zetaDelta [State.setMark]

theorem State.sramKey_of_recKey {k : Nat} (h : s.recKey n t = some k) : 2 ^ 41 ≤ k ∧ k < 2 ^ 42 := by
  unfold State.recKey at h
  split at h
  next ht =>
    obtain ⟨d, hd, rfl⟩ := Option.map_eq_some_iff.1 h
    have hd18 : d < 18 := by
      unfold State.dieOfSlot at hd
      split at hd
      · exact List.mem_range.1 (List.mem_of_find?_eq_some hd)
      · cases hd
    unfold sramKey histOff
    omega
  · cases h

/-- Statistics of a restored step clear no flyer, even when they meet another error. -/
theorem State.addStats_flyers_of_restored (h : s.Restored p) : (s.addStats p n t x codes band).flyers = s.flyers := by
  have hcheck : (s.recCheck p n t []).1.flyers = s.flyers := by
    unfold State.recCheck
    split
    · rfl
    next k hk =>
      obtain ⟨hlo, hhi⟩ := State.sramKey_of_recKey hk
      have hread : (s.readCheck k 720).1.flyers = s.flyers := by
        rw [State.readCheck_sram hlo hhi]
        exact State.readWords_flyers ..
      have hpart := State.part_of_parts (s.readCheck_reading k 720).level.2.1 p
      dsimp only
      split
      · exact hread
      · rw [State.metBad_sram hlo, State.detectedFault_flyers_of_restored, State.metWords_flyers, hread]
        exact h.of_part (by rw [State.metWords_part, hpart])
  unfold State.addStats
  split
  next u hu =>
    rw [hu] at hcheck
    exact State.accumulate_flyers.trans hcheck
  next u hu =>
    rw [hu] at hcheck
    exact hcheck

/-- A record with a word of two wrong bits. -/
theorem State.addStats_of_double {k e : Nat} (hrec : s.recKey n t = some k) (he : s.sramErr = [(e, 2)])
    (hin : k < e + 8 ∧ e < k + 720) : s.addStats p n t x codes band = s.metBad p n k [e] [] := by
  obtain ⟨hlo, hhi⟩ := State.sramKey_of_recKey hrec
  have hread := State.readCheck_double hlo hhi he 720
  rw [if_pos hin] at hread
  have hcheck : s.recCheck p n t [] = (s.metBad p n k [e] [], false) := by
    simp only [State.recCheck, hrec, hread]
    rfl
  simp only [State.addStats, hcheck]

/-! ### The slots of a restored step are cleared (03 R106; 13 R424) -/

theorem fmSet_ne_nil {α : Type} (m : Fm α) (k : Nat) (a : α) : fmSet m k a ≠ [] := by
  intro h
  have := fmGet?_fmSet_same m k a
  rw [h] at this
  cases this

theorem foldl_clearSlot_flyers {l : List Nat} (hl : l ≠ []) (s : State) :
    (l.foldl (fun s n => s.clearSlot n) s).flyers ≠ [] := by
  obtain ⟨m, n, rfl⟩ := List.eq_nil_or_concat l |>.resolve_left hl
  rw [List.concat_eq_append, List.foldl_append]
  exact fmSet_ne_nil _ _ _

theorem State.restoreStep_flyers (hu : (s.part p).undoOver = false) (hd : s.draftSlots p ≠ []) (cause : Nat) :
    (s.restoreStep p cause).flyers ≠ [] := by
  have hslots : ((s.undoMemory p).rollbackStats p).draftSlots p = s.draftSlots p := by
    have hpart : ((s.undoMemory p).rollbackStats p).part p = s.part p :=
      State.part_of_parts (foldl_parts (fun s line => s.repairLine_parts p line) ..) p
    unfold State.draftSlots
    rw [hpart]
  have hrestored : (s.restored p).flyers ≠ [] := by
    unfold State.restored
    dsimp only
    rw [hslots]
    exact foldl_clearSlot_flyers hd _
  unfold State.restoreStep
  extract_lets x s1 s2 y s3 s4 s5
  have hsame : (s5.reel p 0x0A 2 [y.epoch.toNat + cause <<< 48]).flyers = (s.restored p).flyers := by
    simp [s5, s4, s3, s2, s1, State.restored, State.setPart]
  rw [if_neg (by simp [x, hu]), hsame]
  exact hrestored

/-- A tile's statistics whose record has a word of two wrong bits restore the step: the slots' flyers are cleared. -/
theorem State.addStats_restores {k e : Nat} (h : s.RollsBack p) (hd : s.draftSlots p ≠ [])
    (hrec : s.recKey n t = some k) (he : s.sramErr = [(e, 2)]) (hin : k < e + 8 ∧ e < k + 720) :
    (s.addStats p n t x codes band).flyers ≠ [] ∧ (s.addStats p n t x codes band).Restored p := by
  obtain ⟨hlo, -⟩ := State.sramKey_of_recKey hrec
  let e1 := s.metWords p n [e] []
  have hroll : e1.RollsBack p := State.metWords_rollsBack h n [e] []
  have hslots : e1.draftSlots p ≠ [] := by
    unfold State.draftSlots at hd ⊢
    rwa [State.metWords_part]
  obtain ⟨hback, hframe⟩ := State.detectedFault_effect (e1.dieOfSlot n) hroll
  rw [State.addStats_of_double hrec he hin, State.metBad_sram hlo]
  obtain ⟨halone, hover, -, hrun, -⟩ := hroll
  obtain ⟨hrest, hcause, htaint, hstate, hdraft, -⟩ := hback
  refine ⟨?_, hstate.trans hrun, ⟨hrest, hcause, htaint, rfl, rfl, rfl⟩, by rw [hdraft]; exact halone⟩
  have hflyers : (e1.detectedFault p (e1.dieOfSlot n)).flyers = (e1.restoreStep p 4).flyers :=
    (congrArg State.flyers hframe :)
  exact hflyers ▸ State.restoreStep_flyers hover hslots 4

end
end Sys2Proof.Machine
end

section
namespace Sys2Proof.Machine

/-! ### The tiles of a w_batt (03 R97, R99; 05 R185 to R187) -/

theorem bits_tensor {low index t : Nat} (hl : low < 2 ^ 128) (hi : index < 2 ^ 32) (ht : t < 2 ^ 16) :
    bits (low + ((index + (t <<< 32)) <<< 128)) 175 160 = t := by
  simp only [bits, Nat.shiftLeft_eq, Nat.shiftRight_eq_div_pow]
  omega

/-- The fields below the index and the tensor take 128 bits of a flag word. -/
theorem flagTensor_flagWord {nan inf : Option Nat} (hn : ∀ e ∈ nan, e < 2 ^ 15) (hi : ∀ e ∈ inf, e < 2 ^ 15)
    (crush zeros hist sat under index t : Nat) {fmt : Nat} (hf : fmt < 2 ^ 16) :
    flagTensor (flagWord nan inf crush zeros hist sat under fmt index t) = t % 65536 := by
  have hplace {o : Option Nat} (h : ∀ e ∈ o, e < 2 ^ 15) : o.getD 0x7FFF ≤ 0x7FFF := by
    cases o with
    | none => exact Nat.le_refl _
    | some e => exact Nat.le_of_lt_succ (h e rfl)
  have hbit (b : Bool) : b2n b ≤ 1 := by cases b <;> decide
  have h1 := hplace hn
  have h2 := hplace hi
  have h3 := hbit nan.isSome
  have h4 := hbit inf.isSome
  refine bits_tensor ?_ (by omega) (by omega)
  simp only [Nat.shiftLeft_eq]
  omega

theorem findIdx?_lt {α : Type} {f : α → Bool} {l : List α} : ∀ e ∈ l.findIdx? f, e < l.length := fun _ he =>
  (List.findIdx?_eq_some_iff_findIdx_eq.1 he).1

/-- A plain tile has no hank whose scale byte is NaN. -/
theorem firstNan_lt_of_plain {f : Nat} {codes : List Nat} {band : List Byte} (hf : fmtHank f = 0) :
    ∀ e ∈ firstNan f codes band, e < codes.length := by
  have hb : ((band.take (hankCount f)).findIdx? fun x => x.toNat == 0xFF) = none := by simp [hankCount, hf]
  intro e he
  have he' : codes.findIdx? (codeNan f) = some e := by
    unfold firstNan at he
    rw [hb] at he
    cases ha : codes.findIdx? (codeNan f) <;> simp_all
  exact findIdx?_lt e he'

section
variable (s : State) {n t index : Nat} {codes : List Nat} {x : TileStats}

/-- The tensor of an FP32 tile as a station writes it. -/
theorem State.flagTensor_makeTile_fp32 (hc : codes.length < 2 ^ 15) :
    flagTensor (s.makeTile n t 5 index codes [] x).tile.flag = t % 65536 := by
  refine flagTensor_flagWord (fun e he => ?_) (fun e he => ?_) _ _ _ _ _ _ _ (by omega)
  · exact Nat.lt_trans (firstNan_lt_of_plain rfl e he) hc
  · exact Nat.lt_trans (findIdx?_lt e he) hc

/-- The bytes of its record: payload, side band, flag word and reserved bytes (03 R97). -/
theorem State.record_makeTile_fp32 :
    (s.makeTile n t 5 index codes [] x).tile.record.length = codes.length * 4 + 1024 + 32 + 32 := by
  have hpay : (codes.flatMap (bytesOf 4)).length = codes.length * 4 := by
    rw [List.length_flatMap, List.map_congr_left fun c _ => length_bytesOf 4 c, List.map_const', List.sum_replicate, smul_eq_mul]
  have hband : (([] : List Byte) ++ List.replicate (1024 - 0) 0).length = 1024 := by
    rw [List.nil_append, List.length_replicate]
  unfold State.makeTile Tile.record
  dsimp only
  rw [List.length_append, List.length_append, List.length_append, List.length_replicate, length_bytesOf]
  exact congrArg₂ (fun a b => a + b + 32 + 32) hpay hband

theorem State.battRecord_makeTile (c : StCmd) (k : Bank) (old : Tile) (h : Nat) :
    ∃ index codes x, codes.length = 8192 ∧ s.battRecord c k old h = s.makeTile c.n (c.a % 65536) 5 index codes [] x := by
  refine ⟨_, _, _, ?_, rfl⟩
  rw [List.length_map, List.length_map, List.length_zip, List.length_range, List.length_map, List.length_range, Nat.min_self]

theorem State.battRecord_tile (c : StCmd) (k : Bank) (old : Tile) (h : Nat) :
    (s.battRecord c k old h).tile.record.length = 33856 ∧ flagTensor (s.battRecord c k old h).tile.flag = c.a % 65536 := by
  obtain ⟨index, codes, x, hlen, hmade⟩ := s.battRecord_makeTile c k old h
  rw [hmade, State.record_makeTile_fp32, State.flagTensor_makeTile_fp32 s (by omega), hlen]
  exact ⟨rfl, Nat.mod_mod ..⟩
end

end Sys2Proof.Machine
end

section
namespace Sys2Proof.Machine

/-! ### A write to places of step state that the step has journalled (13 R428) -/

section
variable {s : State} {p k : Nat} {l : List Byte}

theorem fmHas_of_mem {α : Type} {k : Nat} {a : α} : ∀ {m : Fm α}, (k, a) ∈ m → fmHas m k = true
  | (j, b) :: m, h => by
    by_cases hj : k = j
    · simp [fmHas, fmGet?, hj]
    · rcases List.mem_cons.1 h with he | hm
      · exact absurd (congrArg Prod.fst he) hj
      · simpa [fmHas, fmGet?, hj] using fmHas_of_mem hm

theorem foldl_fixed_of_mem {α β : Type} {f : β → α → β} {b : β} : ∀ {l : List α}, (∀ a ∈ l, f b a = b) → l.foldl f b = b
  | [], _ => rfl
  | a :: l, h => by
    rw [List.foldl_cons, h a List.mem_cons_self]
    exact foldl_fixed_of_mem fun x hx => h x (List.mem_cons_of_mem a hx)

theorem State.journal_of_has {line : Nat} (h : fmHas (s.part p).undo line = true) : s.journal p line = s := by
  unfold State.journal
  dsimp only
  rw [if_pos (by simp [h])]

/-- The buddy of the die's slot protects nothing: a store changes only the memory (13 R436). -/
theorem State.store_of_unprotected (h : ∀ n, s.slotOfDie (keyDie k) = some n → s.odGet 0x8005 (n + 1) ≠ 2) :
    s.store k l = s.putMem k l := by
  unfold State.store
  rw [foldl_fixed_of_mem fun p _ => ?_]
  split
  next n hn =>
    have hslot : s.slotOfDie (keyDie k) = some n := by
      unfold State.persistSlot at hn
      split at hn
      next hd =>
        split at hn
        · rwa [← Option.some.inj hn]
        · cases hn
      · cases hn
    have hbuddy : s.buddyStore p n k l = s := by
      unfold State.buddyStore
      dsimp only
      rw [if_pos (by simp [h n hslot])]
    rw [hbuddy, ite_self]
  · rfl

theorem State.c0Write_of_journaled (hj : ∀ i < (k + l.length - 1) / 64 - k / 64 + 1, fmHas (s.part p).undo (k / 64 + i) = true)
    (h : ∀ n, s.slotOfDie (keyDie k) = some n → s.odGet 0x8005 (n + 1) ≠ 2) : s.c0Write p k l = s.putMem k l := by
  unfold State.c0Write
  rw [foldl_fixed_of_mem fun i hi => State.journal_of_has (hj i (List.mem_range.1 hi))]
  exact State.store_of_unprotected h

theorem State.c0Read_of_clean {n st pa len : Nat} (hkey : s.stationKey p pa len = .ok k) (hread : s.readCheck k len = (s, []))
    (det : List EvField) : s.c0Read p n st pa len det = (s, some (Mem.readN s.mem k len)) := by
  simp [State.c0Read, hkey, hread]

/-! ### What a w_batt does once its area is read (05 R185 to R188) -/

variable {c : StCmd}

/-- The whorl once its output path and bank are taken for a w_batt. -/
def State.battUsed (s : State) (c : StCmd) : State :=
  let t := s.useOut c 128
  t.setWhorl c.n (c.st % 64)
    { t.whorl c.n (c.st % 64) with battArea := c.f 20 0 * 64, battUntil := t.now + 128 * t.cycleUnits }

/-- The two records are stored, then counted. -/
theorem State.startBatt_of_read (hlong : ((s.whorl c.n (c.st % 64)).bank c.wBank).long = false) (hfmt : c.format = 5)
    (hfit : c.f 20 0 * 64 + battBytes ≤ 96 * 2 ^ 20) (hreader : s.battReader c.n (c.f 20 0 * 64) = none)
    (herr : ((s.whorl c.n (c.st % 64)).bank c.wBank).err = [])
    (hread : s.c0Read c.p c.n c.st (sramBase c.n + battOff + c.f 20 0 * 64) battBytes (s.cmdPlace c.p c.tick c.pos) =
      (s, some l)) :
    let made := s.battRecord c ((s.whorl c.n (c.st % 64)).bank c.wBank)
    let m0 := made (tileOf 5 l) 0
    let m1 := made (tileOf 5 (l.drop 33856)) 1
    s.startBatt c = (((s.battUsed c).c0Store c.p c.n c.st (sramBase c.n + battOff + c.f 20 0 * 64)
      (m0.tile.record ++ m1.tile.record)).1.countTile c.p c.n m0).countTile c.p c.n m1 := by
  have hbank : s.readBank c.p c.n (c.st % 64) c.wBank c.tick c.pos = (s, true) := by
    simp only [State.readBank, herr]
    rfl
  fun_cases State.startBatt s c
  case case1 h =>
    rcases h with h | h | h
    · exact absurd (hlong.symm.trans h) Bool.false_ne_true
    · exact absurd hfmt h
    · exact absurd hfit (Nat.not_le_of_lt h)
  case case2 h => cases hreader.symm.trans h
  case case3 h => cases hbank.symm.trans h
  case case4 u hb v hr =>
    cases hbank.symm.trans hb
    cases hread.symm.trans hr
  case case5 u hb v l' hr _ _ _ _ _ _ =>
    cases hbank.symm.trans hb
    cases hread.symm.trans hr
    rfl
end

end Sys2Proof.Machine
end

section
namespace Sys2Proof.Machine

/-! ### The state that refutes it -/

/-- A w_batt of slot 0, whorl 0 and bank 0, for tensor 0 and the first area of the batt. -/
def faultyBatt : StCmd where
  p := 0
  n := 0
  st := 0x1000
  word := 0x22 * 2 ^ 120 + 0x1000 * 2 ^ 104 + 5 * 2 ^ 86
  arrival := 0
  tick := 0
  pos := 0

/-- The lines of the area, journalled before in the same step. -/
def battJournal : Fm (List Byte) := (List.range 1058).map fun i => (sramKey 0 battOff / 64 + i, List.replicate 64 0)

/-- A draft that runs on slot 0, with a w_batt at the head of whorl 0, and one word of tensor 0's statistics record with
two wrong bits. -/
def faultyRecord : State where
  parts := [(0, {
    state := .running
    draft := some { image := [], hdr := [0, 1, 0, 0], gates := [], wins := [], rovs := [] }
    undo := battJournal })]
  whorls := [(0, { bank0 := { ready := true }, queue := [faultyBatt] })]
  sramErr := [(sramKey 0 histOff, 2)]

/-- The same once the w_batt has left its queue. -/
def battAtStart : State := faultyRecord.popWhorl 0 0

theorem faultyRecord_undo : (faultyRecord.part 0).undo = battJournal := by
  simp [State.part, faultyRecord, fmGet, fmGet?]

theorem battJournal_has {i : Nat} (hi : i < 1058) : fmHas battJournal (sramKey 0 battOff / 64 + i) = true :=
  fmHas_of_mem (List.mem_map_of_mem (List.mem_range.2 hi))

/-- The address of its area. -/
def faultyBattAddr : Nat := sramBase faultyBatt.n + battOff + faultyBatt.f 20 0 * 64

theorem faultyRecord_key : faultyRecord.stationKey faultyBatt.p faultyBattAddr battBytes = .ok (sramKey 0 battOff) := by
  decide

theorem battAtStart_key : battAtStart.stationKey faultyBatt.p faultyBattAddr battBytes = .ok (sramKey 0 battOff) := by
  decide

theorem battUsed_key : (battAtStart.battUsed faultyBatt).stationKey faultyBatt.p faultyBattAddr battBytes =
    .ok (sramKey 0 battOff) := by
  decide

theorem battAtStart_recKey : battAtStart.recKey 0 0 = some (sramKey 0 histOff) := by
  decide

theorem battAtStart_slot : battAtStart.slotOfDie (keyDie (sramKey 0 battOff)) = some 0 := by
  decide

theorem battAtStart_buddy : battAtStart.odGet 0x8005 1 ≠ 2 := by
  decide

theorem battAtStart_limit : 2 ≤ battAtStart.odGet 0x8001 0 := by
  decide

theorem battAtStart_draftSlots : battAtStart.draftSlots 0 ≠ [] := by
  decide

theorem battAtStart_rollsBack : battAtStart.RollsBack 0 :=
  ⟨fun d hd => by cases hd; decide, rfl, rfl, rfl, rfl, rfl, battAtStart_limit⟩

theorem battAtStart_clean : battAtStart.readCheck (sramKey 0 battOff) battBytes = (battAtStart, []) := by
  rw [State.readCheck_double (by decide) (by decide) rfl, if_neg (by decide)]

theorem faultyRecord_clean : faultyRecord.readCheck (sramKey 0 battOff) battBytes = (faultyRecord, []) := by
  rw [State.readCheck_double (by decide) (by decide) rfl, if_neg (by decide)]

theorem faultyRecord_happen : faultyRecord.happen (.whorl 0 0) = battAtStart.startBatt faultyBatt := by
  change battAtStart.startOther faultyBatt = _
  unfold State.startOther
  extract_lets x
  rw [if_neg (by decide), if_neg (by decide), if_neg (by decide), if_pos (by decide)]

section
variable {l : List Byte} (hl : l.length = battBytes)
include hl

/-- The area is journalled, so that its store changes only the memory. -/
theorem battAtStart_store : ((battAtStart.battUsed faultyBatt).c0Store faultyBatt.p faultyBatt.n faultyBatt.st faultyBattAddr l).1 =
    (battAtStart.battUsed faultyBatt).putMem (sramKey 0 battOff) l := by
  rw [State.c0Store_of_key (hl ▸ battUsed_key)]
  have hundo : ((battAtStart.battUsed faultyBatt).part faultyBatt.p).undo = battJournal := faultyRecord_undo
  have hcount : (sramKey 0 battOff + battBytes - 1) / 64 - sramKey 0 battOff / 64 + 1 = 1058 := by
    norm_num [sramKey, battOff, battBytes]
  refine State.c0Write_of_journaled (fun i hi => ?_) fun n hn => ?_
  · rw [hl, hcount] at hi
    rw [hundo]
    exact battJournal_has hi
  · obtain rfl : 0 = n := Option.some.inj (battAtStart_slot.symm.trans hn)
    exact battAtStart_buddy

/-- The counting of the first tile meets the word and clears the slot; that of the second leaves it cleared. -/
theorem battStored_countTile {m0 m1 : Made} (h0 : flagTensor m0.tile.flag = 0) :
    ((((battAtStart.battUsed faultyBatt).putMem (sramKey 0 battOff) l).countTile faultyBatt.p faultyBatt.n m0).countTile
      faultyBatt.p faultyBatt.n m1).flyers ≠ [] := by
  generalize hv : (battAtStart.battUsed faultyBatt).putMem (sramKey 0 battOff) l = v
  have herr : v.sramErr = [(sramKey 0 histOff, 2)] := by
    subst hv
    unfold State.putMem
    rw [hl]
    rfl
  have hroll : v.RollsBack 0 := hv ▸ battAtStart_rollsBack
  have hslots : v.draftSlots 0 ≠ [] := hv ▸ battAtStart_draftSlots
  have hrec : v.recKey 0 0 = some (sramKey 0 histOff) := hv ▸ battAtStart_recKey
  obtain ⟨hflyers, hrestored⟩ := State.addStats_restores (x := m0.stats) (codes := m0.codes) (band := m0.tile.band)
    hroll hslots hrec herr (by decide)
  change ((v.countTile 0 0 m0).countTile 0 0 m1).flyers ≠ []
  unfold State.countTile
  rwa [h0, State.addStats_flyers_of_restored hrestored]
end

/-- Refutes O20: a w_batt whose area reads without an error, but whose tensor's statistics record has a word with two wrong bits.
The count of its tiles is a detected control fault, whose restoration clears the slot's flyers, which the statement keeps. -/
theorem not_whorlCommands : ¬ Obligations.WhorlCommands := by
  intro h
  obtain ⟨-, -, hstart⟩ := h
  obtain ⟨-, hready⟩ := hstart faultyBatt [] faultyRecord (by decide) rfl (by decide)
  obtain ⟨-, -, hbatt⟩ := hready rfl
  obtain ⟨-, -, -, -, hflyers⟩ := hbatt _ _ (by decide) rfl rfl (by decide) (by decide) (by decide)
    (State.c0Read_of_clean faultyRecord_key faultyRecord_clean _) faultyRecord_key
  have hread := State.c0Read_of_clean (n := faultyBatt.n) (st := faultyBatt.st) battAtStart_key battAtStart_clean
    (battAtStart.cmdPlace faultyBatt.p faultyBatt.tick faultyBatt.pos)
  have hbatt := State.startBatt_of_read (s := battAtStart) (c := faultyBatt) rfl (by decide) (by decide) (by decide) rfl hread
  extract_lets made m0 m1 at hbatt
  obtain ⟨hlen0, hten0⟩ := battAtStart.battRecord_tile faultyBatt _ _ 0
  obtain ⟨hlen1, -⟩ := battAtStart.battRecord_tile faultyBatt _ _ 1
  have hlen : (m0.tile.record ++ m1.tile.record).length = battBytes := by
    rw [List.length_append, hlen0, hlen1]
    rfl
  have hcleared : (faultyRecord.happen (.whorl 0 0)).flyers ≠ [] := by
    rw [faultyRecord_happen, hbatt, ← faultyBattAddr, battAtStart_store hlen]
    exact battStored_countTile hlen hten0
  exact hcleared hflyers

end Sys2Proof.Machine
end

section
namespace Sys2Proof.Machine

/-! ## Twist passes (O23)

A stage is an operation on every element of the pass's data, so what it gives at one element is the operation there. A pass
that flows writes its engine, which then has nothing more to open, and flags: nothing new is due at any station. -/

/-! ### The data of a pass -/

section
variable {x : Flow} {k : Nat}

theorem Flow.at_map (hk : k < x.size) (g : Nat → Nat → Nat × Nat) : (x.map g).at_ k = (g k (x.at_ k)).1 := by
  have hget : (x.map g).at_ k = ((((Array.range x.size).map fun i => g i (x.at_ i)).map (·.1))[k]?).getD 0 := rfl
  simp [hget, hk]

theorem Flow.alive_keep (hk : k < x.size) (g : Nat → Nat → Bool) : (x.keep g).alive k = (x.alive k && g k (x.at_ k)) := by
  have hget : (x.keep g).alive k = (((Array.range x.size).map fun i => x.alive i && g i (x.at_ i))[k]?).getD true := rfl
  simp [hget, hk]
end

/-! ### One stage (06 R207, R212 to R216) -/

section
variable {old : Twist} {c : StCmd} {a : Twist × Flow}

theorem stageStep_of_reduction (h : 0x68 ≤ c.op ∧ c.op < 0x6E) : stageStep old c a = reduceTo old a.1 c a.2 := if_pos h

/-- A reduction leaves the pass's data but for the flags it raises. -/
theorem reduceTo_flow (old tw : Twist) (c : StCmd) (x : Flow) : ∃ fl, (reduceTo old tw c x).2 = { x with flags := fl } := by
  unfold reduceTo
  dsimp only
  split <;> exact ⟨_, rfl⟩

theorem stageStep_reduction_data (h : 0x68 ≤ c.op ∧ c.op < 0x6E) :
    (stageStep old c a).2.data = a.2.data ∧ (stageStep old c a).2.live = a.2.live := by
  obtain ⟨fl, hflow⟩ := reduceTo_flow old a.1 c a.2
  rw [stageStep_of_reduction h, hflow]
  exact ⟨rfl, rfl⟩

theorem stageStep_scale (h : c.op = 0x48) : (stageStep old c a).2 =
    a.2.map fun _ v => fFma a.2.flt c.rm v (scalarOf a.2.wide c.a) (scalarOf a.2.wide c.b) := by
  simp [stageStep, h]

theorem stageStep_sign (h : c.op = 0x58) : (stageStep old c a).2 =
    a.2.map fun i v => (signCode a.2.flt c.sub v (operandB old c a.2 i), 0) := by
  simp [stageStep, h]

theorem stageStep_func (h : c.op = 0x60) : (stageStep old c a).2 = a.2.map fun _ v => (funcCode c.sub a.2.wide v, 0) := by
  simp [stageStep, h]

theorem stageStep_cmp (h : c.op = 0x64) : (stageStep old c a).2 =
    a.2.keep fun i v => cmpCode a.2.flt c.sub v (operandB old c a.2 i) := by
  simp [stageStep, h]

theorem stageStep_live (h : c.op = 0x65) : (stageStep old c a).2 =
    a.2.keep fun i _ => !(a.2.flt.decode (operandB old c a.2 i)).isZero := by
  simp [stageStep, h]

theorem stageStep_sel (h : c.op = 0x67) : (stageStep old c a).2 =
    a.2.map fun i v => (if a.2.alive i then v else operandB old c a.2 i, 0) := by
  simp [stageStep, h]

/-- The two-operand operations of stage 3, and the square root. -/
theorem stageStep_arith (h : 0x50 ≤ c.op) (h' : c.op ≤ 0x57) : (stageStep old c a).2 =
    a.2.map fun i v => arith a.2.flt c.rm c.op v (operandB old c a.2 i) (scalarOf a.2.wide c.a) := by
  unfold stageStep
  dsimp only
  rw [if_neg (by omega), if_neg (by omega), if_neg (by omega), if_pos ⟨h, h'⟩]

theorem stageStep_shape :
    (stageStep old c a).2.rows = a.2.rows ∧ (stageStep old c a).2.cols = a.2.cols ∧ (stageStep old c a).2.wide = a.2.wide := by
  by_cases hred : 0x68 ≤ c.op ∧ c.op < 0x6E
  · obtain ⟨fl, hflow⟩ := reduceTo_flow old a.1 c a.2
    rw [stageStep_of_reduction hred, hflow]
    exact ⟨rfl, rfl, rfl⟩
  · unfold stageStep
    dsimp only
    rw [if_neg hred]
    dsimp only
    split_ifs <;> exact ⟨rfl, rfl, rfl⟩

/-- A stage's command writes its destination buffer, and of the engine nothing else. -/
theorem stageStep_engine (old : Twist) (c : StCmd) (a : Twist × Flow) :
    ∃ b, (stageStep old c a).1 = if c.dst < 2 then a.1 else a.1.setBuf (c.dst - 2) b := by
  by_cases hred : 0x68 ≤ c.op ∧ c.op < 0x6E
  · rw [stageStep_of_reduction hred]
    exact ⟨_, apply_ite Prod.fst ..⟩
  · unfold stageStep
    dsimp only
    rw [if_neg hred]
    exact ⟨_, rfl⟩

theorem stageStep_of_no_dst (h : c.dst < 2) : (stageStep old c a).1 = a.1 := by
  obtain ⟨b, hb⟩ := stageStep_engine old c a
  rw [hb, if_pos h]
end

/-! ### What a pass leaves of its engine -/

/-- The engine's tile buffers alone have changed. -/
def Twist.BufOnly (x y : Twist) : Prop := { y with buf0 := x.buf0, buf1 := x.buf1, buf2 := x.buf2, buf3 := x.buf3 } = x

theorem Twist.BufOnly.trans {x y z : Twist} (h : x.BufOnly y) (h' : y.BufOnly z) : x.BufOnly z := by
  unfold Twist.BufOnly at *
  rw [← h, ← h']

theorem Twist.setBuf_bufOnly (x : Twist) (i : Nat) (b : TBuf) : x.BufOnly (x.setBuf i b) := by
  unfold Twist.setBuf
  split <;> rfl

theorem stageStep_bufOnly (old : Twist) (c : StCmd) (a : Twist × Flow) : a.1.BufOnly (stageStep old c a).1 := by
  obtain ⟨b, hb⟩ := stageStep_engine old c a
  rw [hb]
  split
  · rfl
  · exact Twist.setBuf_bufOnly ..

/-! ### What a pass leaves of the machine -/

theorem mem_of_earliest {l : List (Nat × Due)} {d : Nat × Due} (h : d ∈ earliest l) : d ∈ l := by
  fun_induction earliest l generalizing d
  case case1 => simp at h
  case case2 =>
    obtain rfl : _ = d := Option.some.inj h
    exact List.mem_cons_self
  case case3 ih =>
    obtain rfl : _ = d := Option.some.inj h
    split
    · exact List.mem_cons_of_mem _ (ih ‹_›)
    · exact List.mem_cons_self

theorem mem_fmSet {α : Type} {m : Fm α} {k : Nat} {v : α} {e : Nat × α} (h : e ∈ fmSet m k v) : e ∈ m ∨ e = (k, v) := by
  fun_induction fmSet m k v
  case case4 ih =>
    rcases List.mem_cons.1 h with h | h
    · exact .inl (List.mem_cons.2 (.inl h))
    · exact (ih h).imp_left (List.mem_cons_of_mem _)
  all_goals
    rcases List.mem_cons.1 h with h | h
    · exact .inr h
    · simp_all

theorem Twist.openTime_of_no_queue {x : Twist} (h : x.queue = []) : x.openTime = none := by
  unfold Twist.openTime
  cases x.pass <;> simp [h]

/-- From s to u only twist engines with nothing to open have changed, and objects that name no partition's resources. -/
structure State.FlowOnly (s u : State) : Prop where
  frame : { u with twists := s.twists, od := s.od, w1cAt := s.w1cAt } = s
  desc : ∀ p, p < 4 → u.desc p = s.desc p
  twists : ∀ e ∈ u.twists, e ∈ s.twists ∨ e.2.openTime = none

section
variable {s t u : State}

theorem State.FlowOnly.refl (s : State) : s.FlowOnly s := ⟨rfl, fun _ _ => rfl, fun _ h => .inl h⟩

theorem State.FlowOnly.trans (h : s.FlowOnly t) (h' : t.FlowOnly u) : s.FlowOnly u where
  frame := by rw [← h.frame, ← h'.frame]
  desc p hp := (h'.desc p hp).trans (h.desc p hp)
  twists e he := (h'.twists e he).elim (h.twists e) .inr

theorem State.setTwist_flowOnly (s : State) (n e : Nat) {x : Twist} (h : x.queue = []) : s.FlowOnly (s.setTwist n e x) :=
  ⟨rfl, fun _ _ => rfl, fun _ he => (mem_fmSet he).imp_right fun hset =>
    (congrArg (fun e : Nat × Twist => e.2.openTime) hset).trans (Twist.openTime_of_no_queue h)⟩

theorem State.odSet_flowOnly (s : State) {i : Nat} (j v : Nat) (hi : 0x3011 ≤ i) : s.FlowOnly (s.odSet i j v) :=
  ⟨rfl, fun _ hp => State.odSet_desc hp s i j v (.inl hi), fun _ h => .inl h⟩

theorem State.markW1c_flowOnly (s : State) (i j b : Nat) : s.FlowOnly (s.markW1c i j b) :=
  ⟨rfl, fun _ _ => rfl, fun _ h => .inl h⟩

theorem State.twistFlags_flowOnly (s : State) (n e fl : Nat) : s.FlowOnly (s.twistFlags n e fl) := by
  unfold State.twistFlags
  split
  · exact .refl s
  · exact List.foldlRecOn _ _ (motive := s.FlowOnly) (s.odSet_flowOnly _ _ (by omega)) fun t h b _ =>
      h.trans ((t.odSet_flowOnly _ _ (by omega)).trans (State.markW1c_flowOnly ..))

section
variable (h : s.FlowOnly u)
include h

theorem State.FlowOnly.parts : u.parts = s.parts := (congrArg State.parts h.frame :)
theorem State.FlowOnly.stations : u.stations = s.stations := (congrArg State.stations h.frame :)
theorem State.FlowOnly.now : u.now = s.now := (congrArg State.now h.frame :)

theorem State.FlowOnly.partOfSlot (n : Nat) : u.partOfSlot n = s.partOfSlot n := by
  unfold State.partOfSlot State.partValid
  refine List.find?_congr fun p hp => ?_
  rw [h.desc p (List.mem_range.1 hp)]

theorem State.FlowOnly.runsOn (n : Nat) : u.runsOn n = s.runsOn n := by
  simp only [State.runsOn, State.part, h.partOfSlot, h.parts]

theorem State.FlowOnly.laneTime (p n st v : Nat) : u.laneTime p n st v = s.laneTime p n st v := by
  have hwin (w : Nat) : u.winInStack p w = s.winInStack p w := by
    unfold State.winInStack State.part
    rw [h.parts]
  simp only [State.laneTime, State.lanesOf, State.station, hwin, h.stations]

/-- Nothing new is due. -/
theorem State.FlowOnly.dues {d : Nat × Due} (hd : d ∈ u.dues) : d ∈ s.dues := by
  have hwhorls : u.whorls = s.whorls := (congrArg State.whorls h.frame :)
  have hwire : u.wire = s.wire := (congrArg State.wire h.frame :)
  unfold State.dues State.transferStart State.commandTime at hd ⊢
  simp only [h.stations, hwhorls, hwire, h.runsOn, h.laneTime, List.mem_append] at hd ⊢
  refine hd.imp_left (Or.imp_right fun htw => ?_)
  rw [List.mem_flatMap] at htw ⊢
  obtain ⟨e, he, hopen⟩ := htw
  refine (h.twists e he).elim (fun hold => ⟨e, hold, hopen⟩) fun hnone => ?_
  rw [hnone] at hopen
  split at hopen <;> simp at hopen

/-- Where nothing is due before, the stations have nothing to catch up with. -/
theorem State.FlowOnly.settle (hq : s.Quiet) : u.settle = u :=
  State.settleTo_quiet u u.now _ fun e he => h.now ▸ hq e (h.dues (mem_of_earliest he))
end
end

/-! ### A pass that flows (06 R203, R204) -/

/-- The engine and the data that the commands of a pass give, one after another, from tile buffer i. -/
def Twist.flowed (x : Twist) (cs : List StCmd) (i : Nat) (wide : Bool) : Twist × Flow :=
  cs.foldl (fun a c => stageStep x c a) (x, flowOfBuf (x.buf i) wide)

theorem Twist.flowed_bufOnly (x : Twist) (cs : List StCmd) (i : Nat) (wide : Bool) : x.BufOnly (x.flowed cs i wide).1 :=
  List.foldlRecOn cs _ (motive := fun b : Twist × Flow => x.BufOnly b.1) rfl fun b h c _ => h.trans (stageStep_bufOnly x c b)

theorem State.source_of_buffer (s : State) (p n e : Nat) {c : StCmd} (sat sub : Bool) (hlo : 2 ≤ c.srcA) (hhi : c.srcA ≤ 5) :
    s.source p n e c sat sub = (s, some (flowOfBuf ((s.twist n e).buf (c.srcA - 2)) c.wide)) := by
  unfold State.source
  split
  · omega
  · omega
  · omega
  · rfl

theorem State.twistFlags_twist (s : State) (n e fl n' e' : Nat) : (s.twistFlags n e fl).twist n' e' = s.twist n' e' := by
  unfold State.twistFlags
  split
  · rfl
  · refine (foldl_keeps (fun u : State => u.twist n' e') _ (fun _ _ => ?_) _ _).trans ?_ <;> rfl

section
variable {s : State} {p n e : Nat} {cs : List StCmd} {c0 : StCmd}

/-- An ordinary pass from a tile buffer that writes no roving writes its engine and the flags of its operations. -/
theorem State.flowPass_of_buffer (hlo : 2 ≤ c0.srcA) (hhi : c0.srcA ≤ 5) (hbad : ∀ c ∈ cs, twistBad c = false)
    (hconv : ∀ c ∈ cs, c.op ≠ 0x6E) :
    let r := (s.twist n e).flowed cs (c0.srcA - 2) c0.wide
    ∃ time wrote, s.flowPass p n e cs c0 = ((s.setTwist n e r.1).twistFlags n e r.2.flags).passEntered n e time wrote := by
  have hfine : cs.find? twistBad = none := List.find?_eq_none.2 fun c hc => by simp [hbad c hc]
  have hno : cs.find? (fun c => c.op == 0x6E) = none := List.find?_eq_none.2 fun c hc => by simp [hconv c hc]
  unfold State.flowPass
  simp only [hfine, hno, s.source_of_buffer p n e _ _ hlo hhi]
  exact ⟨_, _, rfl⟩

theorem State.flow_of_stages (h : twistStage c0.op < 8) : s.flow p n e (c0 :: cs) = s.flowPass p n e (c0 :: cs) c0 := if_pos h

theorem State.flowNow_of_buffer (hpass : (s.twist n e).pass = c0 :: cs) (hqueue : (s.twist n e).queue = [])
    (hlo : 2 ≤ c0.srcA) (hhi : c0.srcA ≤ 5) (hfit : ∀ c ∈ c0 :: cs, twistStage c.op < 7 ∧ twistBad c = false) :
    let x := { s.twist n e with pass := [], headAt := s.now }
    let u := s.flowNow p n e
    s.FlowOnly u ∧ (u.twist n e).pass = [] ∧
      ∀ j, (u.twist n e).buf j = (x.flowed (c0 :: cs) (c0.srcA - 2) c0.wide).1.buf j := by
  intro x u
  let s1 := s.setTwist n e x
  let r := x.flowed (c0 :: cs) (c0.srcA - 2) c0.wide
  have hconv : ∀ c ∈ c0 :: cs, c.op ≠ 0x6E := fun c hc hop => absurd (hfit c hc).1 (by rw [hop]; decide)
  obtain ⟨hstage, -⟩ := hfit c0 List.mem_cons_self
  obtain ⟨time, wrote, hflow⟩ := State.flowPass_of_buffer (s := s1) (p := p) (n := n) (e := e) hlo hhi
    (fun c hc => (hfit c hc).2) hconv
  rw [State.twist_setTwist] at hflow
  let s2 := (s1.setTwist n e r.1).twistFlags n e r.2.flags
  have hu : u = s2.passEntered n e time wrote := by
    have hnow : u = s1.flow p n e (c0 :: cs) := hpass ▸ rfl
    rw [hnow, State.flow_of_stages (by omega), hflow]
  have hr : x.BufOnly r.1 := x.flowed_bufOnly ..
  have hrpass : r.1.pass = [] := (congrArg Twist.pass hr :)
  have hrqueue : r.1.queue = [] := (congrArg Twist.queue hr :).trans hqueue
  have htwist : s2.twist n e = r.1 := (State.twistFlags_twist ..).trans (State.twist_setTwist ..)
  rw [hu]
  refine ⟨?_, ?_, fun j => ?_⟩
  · exact (s.setTwist_flowOnly n e (x := x) hqueue).trans <| (s1.setTwist_flowOnly n e hrqueue).trans <|
      (State.twistFlags_flowOnly ..).trans (s2.setTwist_flowOnly n e (htwist ▸ hrqueue))
  · rw [State.passEntered, State.twist_setTwist, htwist]
    exact hrpass
  · rw [State.passEntered, State.twist_setTwist, htwist]
    rfl
end

theorem exec_twistPassFlow {t e p : Nat} {n : Slot} {r0 : State} (hp : (r0.arrive t).runsOn n.val = some p)
    (hpass : ((r0.arrive t).twist n.val e).pass ≠ []) :
    exec (.twistPassFlow t n e) r0 =
      .next (if (r0.arrive t).now < (r0.arrive t).flowTime ((r0.arrive t).twist n.val e) then r0.arrive t
        else ((r0.arrive t).flowNow p n.val e).settle) := by
  simp only [exec, execTwistPassFlow, hp, List.isEmpty_iff, hpass, false_or]
  split <;> rfl

/-- Settles O23: a stage by its operation at one element, a pass by what flowing leaves of its engine and the machine. -/
theorem twistStagesAndPasses : Obligations.TwistStagesAndPasses := by
  constructor
  · intro old tw c x k hk y b sa sb
    have hmap {g : Nat → Nat → Nat × Nat} (h : y = x.map g) : y.at_ k = (g k (x.at_ k)).1 := h ▸ Flow.at_map hk g
    have hkeep {g : Nat → Nat → Bool} (h : y = x.keep g) : y.alive k = (x.alive k && g k (x.at_ k)) ∧ y.data = x.data :=
      ⟨h ▸ Flow.alive_keep hk g, h ▸ rfl⟩
    have harith {op : Nat} (h : c.op = op) (hlo : 0x50 ≤ op) (hhi : op ≤ 0x57) :
        y.at_ k = (arith x.flt c.rm op (x.at_ k) b sa).1 :=
      h ▸ hmap (stageStep_arith (h ▸ hlo) (h ▸ hhi))
    refine ⟨fun h => hmap (stageStep_scale h), ?_, ?_, ?_, ?_, ?_, ?_, ?_, ?_, fun h => hmap (stageStep_sign h),
      fun h => hmap (stageStep_func h), fun h => hkeep (stageStep_cmp h), fun h => hkeep (stageStep_live h),
      fun h => hmap (stageStep_sel h), fun hlo hhi => stageStep_reduction_data ⟨hlo, hhi⟩, stageStep_of_no_dst,
      stageStep_shape⟩
    all_goals exact fun h => harith h (by decide) (by decide)
  · intro t p e n c0 cs r0 s x hp hpass
    have hexec := exec_twistPassFlow hp (hpass ▸ List.cons_ne_nil c0 cs)
    refine ⟨fun hearly => ?_, fun hnow hlo hhi hq hfit hqueue => ?_⟩
    · rwa [if_pos hearly] at hexec
    · rw [if_neg (Nat.not_lt.2 hnow)] at hexec
      obtain ⟨honly, hdone, hbuf⟩ := State.flowNow_of_buffer (p := p) hpass hqueue hlo hhi hfit
      rw [honly.settle hq] at hexec
      exact ⟨_, hexec, fun j _ => hbuf j, hdone, (congrArg State.mem honly.frame :), (congrArg State.flyers honly.frame :),
        honly.parts⟩

end Sys2Proof.Machine
end

section
namespace Sys2Proof.Machine

/-! ## Bit fields, elements and register groups (07 R237 to R239) -/

theorem setBits_eq (v hi lo x : Nat) : setBits v hi lo x =
    2 ^ lo * (2 ^ (hi + 1 - lo) * (v / 2 ^ lo / 2 ^ (hi + 1 - lo)) + x % 2 ^ (hi + 1 - lo)) + v % 2 ^ lo := by
  generalize hn : hi + 1 - lo = n
  have hfield : 2 ^ lo * (v / 2 ^ lo) = 2 ^ lo * (2 ^ n * (v / 2 ^ lo / 2 ^ n)) + 2 ^ lo * (v / 2 ^ lo % 2 ^ n) := by
    rw [← Nat.mul_add, Nat.div_add_mod]
  have hv := Nat.div_add_mod v (2 ^ lo)
  simp only [setBits, bits, hn, Nat.shiftRight_eq_div_pow, Nat.shiftLeft_eq, Nat.mul_add, Nat.mul_comm _ (2 ^ lo)]
  omega

/-- A field that is written reads as written, and the other bits as before. -/
theorem testBit_setBits (v hi lo x j : Nat) :
    (setBits v hi lo x).testBit j = if lo ≤ j ∧ j ≤ hi then x.testBit (j - lo) else v.testBit j := by
  rw [setBits_eq, Nat.testBit_two_pow_mul_add _ (Nat.mod_lt _ (Nat.two_pow_pos lo))]
  by_cases hlo : j < lo
  · simp [hlo, Nat.not_le.2 hlo, Nat.testBit_mod_two_pow]
  · rw [if_neg hlo, Nat.testBit_two_pow_mul_add _ (Nat.mod_lt _ (Nat.two_pow_pos _))]
    by_cases hhi : j ≤ hi
    · simp [hhi, Nat.not_lt.1 hlo, Nat.testBit_mod_two_pow, show j - lo < hi + 1 - lo by omega]
    · simp [hhi, show ¬ j - lo < hi + 1 - lo by omega, Nat.testBit_div_two_pow,
        show j - lo - (hi + 1 - lo) + (hi + 1 - lo) + lo = j by omega]

theorem bit_setBit (v i j : Nat) (b : Bool) : bit (setBit v i b) j = if j = i then b else bit v j := by
  simp only [bit, setBit, testBit_setBits, ← le_antisymm_iff, @eq_comm _ i]
  split
  next h => subst h; cases b <;> simp [b2n]
  next => rfl

theorem setBits_lt {v hi lo n : Nat} (x : Nat) (hv : v < 2 ^ n) (hh : hi < n) : setBits v hi lo x < 2 ^ n := by
  refine Nat.lt_pow_two_of_testBit _ fun j hj => ?_
  rw [testBit_setBits, if_neg (by omega)]
  exact Nat.testBit_lt_two_pow (hv.trans_le (Nat.pow_le_pow_right (by decide) hj))

theorem testBit_bits (v hi lo j : Nat) : (bits v hi lo).testBit j = (decide (j < hi + 1 - lo) && v.testBit (lo + j)) := by
  simp [bits, Nat.testBit_mod_two_pow, Nat.testBit_shiftRight]

theorem bits_setBits_same (v hi lo x : Nat) : bits (setBits v hi lo x) hi lo = x % 2 ^ (hi + 1 - lo) := by
  refine Nat.eq_of_testBit_eq fun j => ?_
  rw [testBit_bits, testBit_setBits, Nat.testBit_mod_two_pow]
  by_cases h : j < hi + 1 - lo
  · rw [if_pos (by omega), Nat.add_sub_cancel_left]
  · simp [h]

/-- A field that a bit written is outside of reads as before. -/
theorem bits_setBit_outside {v hi lo i : Nat} (b : Bool) (h : i < lo ∨ hi < i) : bits (setBit v i b) hi lo = bits v hi lo := by
  refine Nat.eq_of_testBit_eq fun j => ?_
  rw [testBit_bits, testBit_bits]
  by_cases hj : j < hi + 1 - lo
  · rw [setBit, testBit_setBits, if_neg (by omega)]
  · simp [hj]

/-! ### Elements of a number -/

theorem testBit_elemAt (v ew i j : Nat) : (elemAt v ew i).testBit j = (decide (j < ew) && v.testBit (ew * i + j)) := by
  simp [elemAt, Nat.testBit_mod_two_pow, Nat.testBit_shiftRight]

theorem elemAt_lt (v ew i : Nat) : elemAt v ew i < 2 ^ ew := Nat.mod_lt _ (Nat.two_pow_pos ew)

/-- The elements below an end are those of the number cut off there. -/
theorem elemAt_mod {ew i n : Nat} (v : Nat) (h : ew * i + ew ≤ n) : elemAt (v % 2 ^ n) ew i = elemAt v ew i := by
  refine Nat.eq_of_testBit_eq fun j => ?_
  rw [testBit_elemAt, testBit_elemAt, Nat.testBit_mod_two_pow]
  by_cases hj : j < ew
  · simp [show ew * i + j < n by omega]
  · simp [hj]

theorem elemAt_setBits (v ew k i x : Nat) : elemAt (setBits v (ew * k + ew - 1) (ew * k) x) ew i =
    if i = k then x % 2 ^ ew else elemAt v ew i := by
  refine Nat.eq_of_testBit_eq fun j => ?_
  rw [testBit_elemAt, testBit_setBits]
  by_cases hj : j < ew
  · by_cases hi : i = k
    · subst hi
      rw [if_pos (by omega), if_pos rfl, Nat.add_sub_cancel_left, Nat.testBit_mod_two_pow]
    · have hout : ¬ (ew * k ≤ ew * i + j ∧ ew * i + j ≤ ew * k + ew - 1) := by
        rcases Nat.lt_or_gt_of_ne hi with h | h
        · have := Nat.mul_le_mul_left ew h
          rw [Nat.mul_succ] at this
          omega
        · have := Nat.mul_le_mul_left ew h
          rw [Nat.mul_succ] at this
          omega
      rw [if_neg hout, if_neg hi, testBit_elemAt]
  · by_cases hi : i = k <;> simp [hj, hi, testBit_elemAt, Nat.testBit_mod_two_pow]

/-- Elements replaced by a value each: those of the list have it, the others are as before. -/
theorem elemAt_putElems (l : List Nat) (f : Nat → Nat) (v ew i : Nat) :
    elemAt (putElems v ew (l.map fun i => (i, f i))) ew i = if i ∈ l then f i % 2 ^ ew else elemAt v ew i := by
  induction l generalizing v with
  | nil => rfl
  | cons k l ih =>
    refine (ih (setBits v (ew * k + ew - 1) (ew * k) (f k))).trans ?_
    rw [elemAt_setBits]
    by_cases hl : i ∈ l
    · simp [hl]
    · by_cases hk : i = k
      · subst hk; simp [hl]
      · simp [hl, hk]

/-- Bits replaced by a value each. -/
theorem bit_foldl_setBit (l : List Nat) (f : Nat → Bool) (v j : Nat) :
    bit (l.foldl (fun m i => setBit m i (f i)) v) j = if j ∈ l then f j else bit v j := by
  induction l generalizing v with
  | nil => rfl
  | cons k l ih =>
    refine (ih (setBit v k (f k))).trans ?_
    rw [bit_setBit]
    by_cases hl : j ∈ l
    · simp [hl]
    · by_cases hk : j = k
      · subst hk; simp [hl]
      · simp [hl, hk]

/-! ### Register groups -/

/-- Words laid side by side: bit j is bit j mod n of word j / n. -/
theorem testBit_sum_shiftLeft {n : Nat} (c : Nat → BitVec n) (g j : Nat) :
    (((List.range g).map fun i => (c i).toNat <<< (n * i)).sum).testBit j =
      (decide (j < n * g) && (c (j / n)).toNat.testBit (j % n)) := by
  have hlt (g : Nat) : ((List.range g).map fun i => (c i).toNat <<< (n * i)).sum < 2 ^ (n * g) := by
    induction g with
    | zero => simp
    | succ g ih =>
      have hc := Nat.mul_le_mul_left (2 ^ (n * g)) (c g).isLt
      simp only [List.range_succ, List.map_append, List.sum_append, List.map_cons, List.map_nil, List.sum_cons,
        List.sum_nil, Nat.shiftLeft_eq, Nat.mul_succ, Nat.pow_add] at ih ⊢
      rw [Nat.mul_comm _ (2 ^ (n * g))]
      rw [Nat.mul_succ] at hc
      omega
  induction g with
  | zero => simp
  | succ g ih =>
    simp only [List.range_succ, List.map_append, List.sum_append, List.map_cons, List.map_nil, List.sum_cons,
      List.sum_nil, Nat.add_zero, Nat.shiftLeft_eq]
    rw [Nat.add_comm, Nat.mul_comm _ (2 ^ (n * g)), Nat.testBit_two_pow_mul_add _
      (by simpa only [Nat.shiftLeft_eq] using hlt g)]
    by_cases hj : j < n * g
    · rw [if_pos hj]
      simp only [Nat.shiftLeft_eq] at ih
      rw [ih]
      simp [hj, show j < n * (g + 1) from hj.trans_le (Nat.mul_le_mul_left n g.le_succ)]
    · rw [if_neg hj]
      by_cases hj' : j < n * (g + 1)
      · have hd : j / n = g := Nat.div_eq_of_lt_le (by rw [Nat.mul_comm]; omega) (by rw [Nat.mul_comm]; omega)
        have hm := Nat.div_add_mod j n
        rw [hd] at hm ⊢
        simp [hj', show j - n * g = j % n by omega]
      · rw [Nat.mul_succ] at hj'
        have hge : n ≤ j - n * g := by omega
        rw [Nat.testBit_lt_two_pow ((c g).isLt.trans_le (Nat.pow_le_pow_right (by decide) hge))]
        simp [Nat.mul_succ, hj']

/-- Registers r to r + g - 1 of a map written one after the other. -/
theorem fmGet_foldl_fmSet {α : Type} (m : Fm α) (r g k : Nat) (f : Nat → α) (d : α) :
    fmGet ((List.range g).foldl (fun m i => fmSet m (r + i) (f i)) m) k d =
      if r ≤ k ∧ k < r + g then f (k - r) else fmGet m k d := by
  induction g with
  | zero => simp
  | succ g ih =>
    rw [List.range_succ, List.foldl_append, List.foldl_cons, List.foldl_nil]
    by_cases hk : k = r + g
    · subst hk
      simp
    · rw [fmGet_fmSet_other _ _ _ _ _ hk, ih]
      by_cases h : r ≤ k ∧ k < r + g
      · rw [if_pos h, if_pos (by omega)]
      · rw [if_neg h, if_neg (by omega)]

theorem State.testBit_vGroup (s : State) (h r g j : Nat) : (s.vGroup h r g).testBit j =
    (decide (j < 4096 * g) && (fmGet (s.hart h).v (r + j / 4096) 0).toNat.testBit (j % 4096)) :=
  testBit_sum_shiftLeft (fun i => fmGet (s.hart h).v (r + i) 0) g j

theorem State.setGroupRegs_hart (s : State) (h r g v : Nat) : (s.setGroupRegs h r g v).hart h =
    { s.hart h with
      bxbs := 3
      v := (List.range g).foldl (fun m i => fmSet m (r + i) (BitVec.ofNat 4096 (v >>> (4096 * i)))) (s.hart h).v } :=
  State.hart_setHart_same ..

/-- A group of registers that is written reads as the number it takes. -/
theorem State.vGroup_setGroupRegs (s : State) (h r g v : Nat) :
    (s.setGroupRegs h r g v).vGroup h r g = v % 2 ^ (4096 * g) := by
  refine Nat.eq_of_testBit_eq fun j => ?_
  rw [State.testBit_vGroup, State.setGroupRegs_hart, Nat.testBit_mod_two_pow]
  by_cases hj : j < 4096 * g
  · have hin : r ≤ r + j / 4096 ∧ r + j / 4096 < r + g := by omega
    have hword := bit_ofNat_toNat (v := v >>> (4096 * (j / 4096))) (Nat.mod_lt j (show 0 < 4096 by decide))
    rw [bit, bit, Nat.testBit_shiftRight, Nat.div_add_mod] at hword
    rw [fmGet_foldl_fmSet, if_pos hin, Nat.add_sub_cancel_left, hword]
  · simp [hj]

/-- An element within VLMAX ends within the group. -/
theorem Hart.elem_end_le {x : Hart} {i : Nat} (hi : i < x.vlmax) : x.ew * i + x.ew ≤ 4096 * x.group :=
  calc x.ew * i + x.ew = x.ew * (i + 1) := (Nat.mul_succ ..).symm
    _ ≤ x.ew * x.vlmax := Nat.mul_le_mul_left _ hi
    _ ≤ 4096 * x.group := by rw [Nat.mul_comm 4096]; exact Nat.mul_div_le ..

/-- The elements of a group that is written are those of the number it takes. -/
theorem State.elem_setGroupRegs (s : State) {h i : Nat} (r v : Nat) (hi : i < (s.hart h).vlmax) :
    (s.setGroupRegs h r (s.hart h).group v).elem h r i = elemAt v (s.hart h).ew i := by
  have hew : ((s.setGroupRegs h r (s.hart h).group v).hart h).ew = (s.hart h).ew := by rw [setGroupRegs_hart]; rfl
  have hgroup : ((s.setGroupRegs h r (s.hart h).group v).hart h).group = (s.hart h).group := by rw [setGroupRegs_hart]; rfl
  rw [State.elem, hew, hgroup, State.vGroup_setGroupRegs, elemAt_mod _ (Hart.elem_end_le hi)]

end Sys2Proof.Machine
end

section
namespace Sys2Proof.Machine

/-! ## What changes one hart only -/

variable {s t u : State} {h : Nat}

theorem State.OnlyHart.refl (s : State) (h : Nat) : s.OnlyHart s h := ⟨rfl, fun _ _ => rfl⟩

theorem State.OnlyHart.trans (hst : s.OnlyHart t h) (htu : t.OnlyHart u h) : s.OnlyHart u h := by
  refine ⟨?_, fun k hk => (htu.2 k hk).trans (hst.2 k hk)⟩
  have h1 := hst.1
  have h2 := htu.1
  rw [← h1, ← h2]
  rfl

theorem State.setHart_onlyHart (s : State) (h : Nat) (x : Hart) : s.OnlyHart (s.setHart h x) h :=
  ⟨rfl, fun _ hk => s.hart_setHart_other x hk⟩

/-- An answer is outside of what OnlyHart looks at. -/
theorem State.OnlyHart.answer (hu : s.OnlyHart u h) (st : Nat) (l : List Byte) : s.OnlyHart (u.answer st l) h := hu

/-! ### Integer registers -/

theorem State.setX_onlyHart (s : State) (h r v : Nat) : s.OnlyHart (s.setX h r v) h := by
  unfold State.setX
  split
  · exact .refl s h
  · exact s.setHart_onlyHart h _

/-- A register that is written reads as written, x0 as 0; the others are as before. -/
theorem State.getX_setX (s : State) (h r v : Nat) :
    (s.setX h r v).getX h r = (if r = 0 then 0 else v % 2 ^ 64) ∧
    ∀ j, j ≠ r → (s.setX h r v).getX h j = s.getX h j := by
  by_cases hr : r = 0
  · subst hr
    exact ⟨rfl, fun _ _ => rfl⟩
  · simp only [State.setX, if_neg hr, State.getX, State.hart_setHart_same, fmGet_fmSet_same]
    exact ⟨rfl, fun j hj => by rw [fmGet_fmSet_other _ _ _ _ _ hj]⟩

/-- Of its hart a register write changes the integer registers only. -/
theorem State.setX_hart (s : State) (h r v : Nat) : { (s.setX h r v).hart h with x := (s.hart h).x } = s.hart h := by
  unfold State.setX
  split
  · rfl
  · rw [State.hart_setHart_same]

theorem State.getX_lt (s : State) (h r : Nat) : s.getX h r < 2 ^ 64 := by
  unfold State.getX
  split
  · decide
  · exact BitVec.isLt _

/-! ### Exceptions (07 R230, R238) -/

@[simp] theorem Hart.getCsr_setCsr_same (x : Hart) (c v : Nat) : (x.setCsr c v).getCsr c = v % 2 ^ 64 := by
  simp [Hart.getCsr, Hart.setCsr]

theorem Hart.getCsr_setCsr_other (x : Hart) {c d : Nat} (v : Nat) (hd : d ≠ c) : (x.setCsr c v).getCsr d = x.getCsr d := by
  simp [Hart.getCsr, Hart.setCsr, fmGet_fmSet_other _ _ _ _ _ hd]

theorem Hart.getCsr_lt (x : Hart) (c : Nat) : x.getCsr c < 2 ^ 64 := BitVec.isLt _

/-- The status a trap leaves in a status CSR that held v. -/
def TrapRegs.statusOf (r : TrapRegs) (m : HartMode) (v : Nat) : Nat :=
  let st := setBits v r.ppHi r.ppLo (m.level % 2 ^ (r.ppHi + 1 - r.ppLo))
  let st := setBit (setBit st (r.ie + 4) (bit st r.ie)) r.ie false
  if r.mode = .machine then setBit st 39 m.virtual else st

/-- The hart after a trap. -/
def Hart.trapped (x : Hart) (cause tval : Nat) : Hart :=
  let r := x.trapRegs cause
  let y := ((x.setCsr r.status (r.statusOf x.mode (x.getCsr r.status))).setCsr r.cause cause).setCsr r.tval tval
  let y := if r.mode = .supervisor then y.setCsr 0x600 (setBit (y.getCsr 0x600) 7 x.mode.virtual) else y
  { y with mode := r.mode, trap := some ⟨cause, tval⟩ }

theorem State.trap_eq (s : State) (h cause tval : Nat) : s.trap h cause tval = s.setHart h ((s.hart h).trapped cause tval) := rfl

/-- The three places of the registers of a trap. -/
theorem Hart.trapRegs_cases (x : Hart) (cause : Nat) :
    x.trapRegs cause = ⟨0x300, 3, 11, 12, 0x342, 0x343, .machine⟩ ∨
    x.trapRegs cause = ⟨0x200, 1, 8, 8, 0x242, 0x243, .virtualSupervisor⟩ ∨
    x.trapRegs cause = ⟨0x300, 1, 8, 8, 0x142, 0x143, .supervisor⟩ := by
  unfold Hart.trapRegs
  split
  · exact .inl rfl
  · split
    · exact .inr (.inl rfl)
    · exact .inr (.inr rfl)

/-- The registers of a trap are four CSRs, and its status fields lie apart. -/
structure TrapRegs.Apart (r : TrapRegs) : Prop where
  cause_tval : r.cause ≠ r.tval
  status_cause : r.status ≠ r.cause
  status_tval : r.status ≠ r.tval
  hstatus : r.status ≠ 0x600 ∧ r.cause ≠ 0x600 ∧ r.tval ≠ 0x600
  below : r.ie + 4 < r.ppLo
  pp : r.ppLo ≤ r.ppHi ∧ r.ppHi < 39

theorem Hart.trapRegs_apart (x : Hart) (cause : Nat) : (x.trapRegs cause).Apart := by
  rcases x.trapRegs_cases cause with h | h | h
  all_goals
    rw [h]
    constructor
    all_goals decide

section
variable {r : TrapRegs} (hr : r.Apart) (m : HartMode) {v : Nat}
include hr

theorem TrapRegs.statusOf_pp (v : Nat) :
    bits (r.statusOf m v) r.ppHi r.ppLo = m.level % 2 ^ (r.ppHi + 1 - r.ppLo) := by
  have hbelow := hr.below
  have hpp := hr.pp
  unfold TrapRegs.statusOf
  dsimp only
  split
  · rw [bits_setBit_outside _ (by omega), bits_setBit_outside _ (by omega), bits_setBit_outside _ (by omega),
      bits_setBits_same, Nat.mod_mod]
  · rw [bits_setBit_outside _ (by omega), bits_setBit_outside _ (by omega), bits_setBits_same, Nat.mod_mod]

theorem TrapRegs.statusOf_ie (v : Nat) : bit (r.statusOf m v) r.ie = false := by
  have hbelow := hr.below
  have hpp := hr.pp
  unfold TrapRegs.statusOf
  dsimp only
  split
  · rw [bit_setBit, if_neg (by omega), bit_setBit, if_pos rfl]
  · rw [bit_setBit, if_pos rfl]

theorem TrapRegs.statusOf_lt (hv : v < 2 ^ 64) : r.statusOf m v < 2 ^ 64 := by
  have hbelow := hr.below
  have hpp := hr.pp
  have hst (y : Nat) (hy : y < 2 ^ 64) (i : Nat) (b : Bool) (hi : i < 64) : setBit y i b < 2 ^ 64 := setBits_lt _ hy hi
  unfold TrapRegs.statusOf
  dsimp only
  split
  · exact hst _ (hst _ (hst _ (setBits_lt _ hv (by omega)) _ _ (by omega)) _ _ (by omega)) _ _ (by decide)
  · exact hst _ (hst _ (setBits_lt _ hv (by omega)) _ _ (by omega)) _ _ (by omega)
end

/-- What a trapped hart's registers of the trap hold. -/
theorem Hart.trapped_csrs (x : Hart) {cause tval : Nat} (hc : cause < 2 ^ 64) (ht : tval < 2 ^ 64) :
    let y := x.trapped cause tval
    let r := x.trapRegs cause
    y.getCsr r.cause = cause ∧ y.getCsr r.tval = tval ∧ y.getCsr r.status = r.statusOf x.mode (x.getCsr r.status) := by
  intro y r
  have hr : r.Apart := x.trapRegs_apart cause
  obtain ⟨hs6, hc6, ht6⟩ := hr.hstatus
  have hlt := TrapRegs.statusOf_lt hr x.mode (x.getCsr_lt r.status)
  let z := ((x.setCsr r.status (r.statusOf x.mode (x.getCsr r.status))).setCsr r.cause cause).setCsr r.tval tval
  have hy (c : Nat) (h6 : c ≠ 0x600) : y.getCsr c = z.getCsr c := by
    by_cases hm : r.mode = .supervisor
    · have : y.getCsr c = (z.setCsr 0x600 (setBit (z.getCsr 0x600) 7 x.mode.virtual)).getCsr c := by
        simp only [y, z, Hart.trapped, Hart.getCsr, r] at hm ⊢
        rw [if_pos hm]
      rw [this, Hart.getCsr_setCsr_other _ _ h6]
    · simp only [y, z, Hart.trapped, Hart.getCsr, r] at hm ⊢
      rw [if_neg hm]
  refine ⟨?_, ?_, ?_⟩
  · rw [hy _ hc6, Hart.getCsr_setCsr_other _ _ hr.cause_tval, Hart.getCsr_setCsr_same, Nat.mod_eq_of_lt hc]
  · rw [hy _ ht6, Hart.getCsr_setCsr_same, Nat.mod_eq_of_lt ht]
  · rw [hy _ hs6, Hart.getCsr_setCsr_other _ _ hr.status_tval, Hart.getCsr_setCsr_other _ _ hr.status_cause,
      Hart.getCsr_setCsr_same, Nat.mod_eq_of_lt hlt]

theorem Hart.trapped_mode (x : Hart) (cause tval : Nat) : (x.trapped cause tval).mode = (x.trapRegs cause).mode := rfl

theorem Hart.trapped_trap (x : Hart) (cause tval : Nat) : (x.trapped cause tval).trap = some ⟨cause, tval⟩ := rfl

/-- A trap changes the mode, the CSRs and the record of the exception, and nothing else of a hart. -/
theorem Hart.trapped_frame (x : Hart) (cause tval : Nat) :
    { x.trapped cause tval with trap := x.trap, mode := x.mode, csr := x.csr } = x := by
  simp only [Hart.trapped, Hart.setCsr]
  split <;> rfl

/-- A trap is the exception of the privileged architecture. -/
theorem State.trap_traps (s : State) (h : Nat) {cause tval : Nat} (hc : cause < 2 ^ 64) (ht : tval < 2 ^ 64) :
    s.Traps (s.trap h cause tval) h cause tval := by
  have hr := (s.hart h).trapRegs_apart cause
  obtain ⟨hcause, htval, hstatus⟩ := (s.hart h).trapped_csrs hc ht
  rw [State.trap_eq, State.Traps, State.hart_setHart_same]
  refine ⟨rfl, rfl, hcause, htval, ?_, ?_, Hart.trapped_frame .., s.setHart_onlyHart h _⟩
  · rw [hstatus, TrapRegs.statusOf_pp hr]
  · rw [hstatus, TrapRegs.statusOf_ie hr]

theorem State.illegal_traps (s : State) (h : Nat) (w : BitVec 32) : s.Traps (s.illegal h w.toNat) h 2 w.toNat :=
  s.trap_traps h (by decide) (w.isLt.trans (by decide))

end Sys2Proof.Machine
end

section
namespace Sys2Proof.Machine

/-! ## Element-wise vector operations (O24, O25, O26) -/

/-! ### Running a vector instruction (07 R238, R239) -/

section
variable {r0 : State} {t : Nat} {h : HartIdx} {w : BitVec 32} {own : Nat → Bool} {eff : State → Nat → Nat → State}

theorem State.bvx_of_on {setvl : Bool} (hgone : (r0.arrive t).hartGone h.val = false)
    (hbs : ((r0.arrive t).hart h.val).bxbs ≠ 0#2) (hill : setvl = false → ((r0.arrive t).hart h.val).ill = false)
    (hw : own w.toNat = true) : r0.bvx t h w own setvl eff = .next (eff (r0.arrive t) h.val w.toNat) := by
  have hset : (((r0.arrive t).hart h.val).ill && !setvl) = false := by cases setvl <;> simp_all
  simp [State.bvx, hgone, hbs, hset, hw]

theorem State.bvx_of_ready (setvl : Bool) (hr : (r0.arrive t).BxReady h.val) (hw : own w.toNat = true) :
    r0.bvx t h w own setvl eff = .next (eff (r0.arrive t) h.val w.toNat) :=
  State.bvx_of_on hr.1 hr.2.1 (fun _ => hr.2.2) hw

/-- An instruction that is its own word has the effect of its row. -/
theorem does_of_bvx {I : Instr} {P : State → Prop} (hI : exec I r0 = r0.bvx t h w own false eff)
    (hr : (r0.arrive t).BxReady h.val) (hw : own w.toNat = true) (hP : P (eff (r0.arrive t) h.val w.toNat)) : Does I r0 P :=
  ⟨_, hI.trans (State.bvx_of_ready false hr hw), hP⟩
end

/-! ### Groups that are written -/

section
variable {s u : State} {h : Nat}

theorem State.setGroupRegs_onlyVector (s : State) (h r g v : Nat) : s.OnlyVector (s.setGroupRegs h r g v) h r g := by
  rw [State.OnlyVector, State.setGroupRegs_hart]
  refine ⟨s.setHart_onlyHart h _, rfl, fun k hk => ?_, rfl⟩
  rw [fmGet_foldl_fmSet, if_neg (by omega)]

theorem State.setGroupRegs_fflags (s : State) (h r g v : Nat) :
    ((s.setGroupRegs h r g v).hart h).fflags = (s.hart h).fflags := by
  rw [State.setGroupRegs_hart]

theorem State.accrue_hart (s : State) (h fl : Nat) :
    (s.accrue h fl).hart h = { s.hart h with fflags := (s.hart h).fflags ||| BitVec.ofNat 5 fl } :=
  State.hart_setHart_same ..

theorem State.accrue_elem (s : State) (h fl r i : Nat) : (s.accrue h fl).elem h r i = s.elem h r i := by
  simp only [State.elem, State.vGroup, State.accrue_hart]
  rfl

theorem State.OnlyVector.accrue {r g : Nat} (hu : s.OnlyVector u h r g) (fl : Nat) : s.OnlyVector (u.accrue h fl) h r g := by
  obtain ⟨honly, hbs, hv, hframe⟩ := hu
  rw [State.OnlyVector, State.accrue_hart]
  exact ⟨honly.trans (u.setHart_onlyHart h _), hbs, hv, hframe⟩

/-- The active elements of a group take a value each. -/
def State.putActive (s : State) (h w : Nat) (f : Nat → Nat) : State :=
  s.setGroupRegs h (bxD w) (s.hart h).group
    (putElems (s.vGroup h (bxD w) (s.hart h).group) (s.hart h).ew ((s.active h w).map fun i => (i, f i)))

theorem State.putActive_elem (s : State) {h w i : Nat} (f : Nat → Nat) (hi : i < (s.hart h).vlmax) :
    (s.putActive h w f).elem h (bxD w) i =
      if i ∈ s.active h w then f i % 2 ^ (s.hart h).ew else s.elem h (bxD w) i := by
  rw [State.putActive, State.elem_setGroupRegs _ _ _ hi, elemAt_putElems]
  rfl

/-- What an element-wise instruction without flags leaves: each active element its value, the rest of the group as it was. -/
theorem State.putActive_effect (s : State) (h w : Nat) (f : Nat → Nat) : let u := s.putActive h w f
    (∀ i, i < (s.hart h).vlmax → u.elem h (bxD w) i =
      if i ∈ s.active h w then f i % 2 ^ (s.hart h).ew else s.elem h (bxD w) i) ∧
    (u.hart h).fflags = (s.hart h).fflags ∧ s.OnlyVector u h (bxD w) (s.hart h).group :=
  ⟨fun _ hi => s.putActive_elem f hi, s.setGroupRegs_fflags .., s.setGroupRegs_onlyVector ..⟩
end

/-! ### Operations (07 R245) -/

section
variable {s : State} {h w : Nat} (f : Nat → Rm → Nat → Nat → Nat → Nat × Nat)

/-- Result and flags of an operation at element i. -/
def State.elemResult (s : State) (h w : Nat) (fp : Bool) (f : Nat → Rm → Nat → Nat → Nat → Nat × Nat) (i : Nat) : Nat × Nat :=
  f (s.hart h).ew ((s.hart h).rm.getD .rne) (s.elem h (bxB w) i) (s.rightElem h w fp i) (s.elem h (bxD w) i)

theorem State.vectorOp_eq {fp usesRm : Bool} (hrm : usesRm = true → (s.hart h).rm.isSome = true)
    (hok : s.operandsOk h w fp true = true) (hvl : 0 < (s.hart h).vl) :
    s.vectorOp h w fp usesRm f =
      let u := s.putActive h w fun i => (s.elemResult h w fp f i).1
      if fp then u.accrue h ((s.active h w).foldl (fun m i => m ||| (s.elemResult h w fp f i).2) 0) else u := by
  unfold State.vectorOp
  cases hm : (s.hart h).rm with
  | none =>
    cases usesRm with
    | true => rw [hm] at hrm; exact absurd (hrm rfl) (by decide)
    | false =>
      simp only [hok, Bool.not_true, Bool.false_eq_true, if_false, hvl.ne', List.map_map, List.foldl_map, State.putActive,
        State.elemResult, hm]
      rfl
  | some rm =>
    simp only [hok, Bool.not_true, Bool.false_eq_true, if_false, hvl.ne', List.map_map, List.foldl_map, State.putActive,
      State.elemResult, hm]
    rfl

/-- A floating-point operation: the active elements take the results and their flags accrue. -/
theorem State.vectorOp_fp {usesRm : Bool} (hrm : usesRm = true → (s.hart h).rm.isSome = true)
    (hok : s.operandsOk h w true true = true) (hvl : 0 < (s.hart h).vl) : let u := s.vectorOp h w true usesRm f
    (∀ i, i < (s.hart h).vlmax → u.elem h (bxD w) i =
      if i ∈ s.active h w then (s.elemResult h w true f i).1 % 2 ^ (s.hart h).ew else s.elem h (bxD w) i) ∧
    (u.hart h).fflags = (s.hart h).fflags |||
      BitVec.ofNat 5 ((s.active h w).foldl (fun m i => m ||| (s.elemResult h w true f i).2) 0) ∧
    s.OnlyVector u h (bxD w) (s.hart h).group := by
  obtain ⟨helem, hfl, honly⟩ := s.putActive_effect h w fun i => (s.elemResult h w true f i).1
  rw [State.vectorOp_eq f hrm hok hvl]
  refine ⟨fun i hi => ?_, ?_, honly.accrue _⟩
  · exact (State.accrue_elem ..).trans (helem i hi)
  · rw [if_pos rfl, State.accrue_hart, hfl]

/-- An integer operation: the active elements take the results modulo 2^ew. -/
theorem State.intOp_effect (g : Nat → Nat → Nat → Nat) (hok : s.operandsOk h w false true = true)
    (hvl : 0 < (s.hart h).vl) : let u := s.intOp h w g
    (∀ i, i < (s.hart h).vlmax → u.elem h (bxD w) i = if i ∈ s.active h w
      then g (s.hart h).ew (s.elem h (bxB w) i) (s.rightElem h w false i) % 2 ^ (s.hart h).ew else s.elem h (bxD w) i) ∧
    (u.hart h).fflags = (s.hart h).fflags ∧ s.OnlyVector u h (bxD w) (s.hart h).group := by
  obtain ⟨helem, hrest⟩ := s.putActive_effect h w fun i =>
    (s.elemResult h w false (fun ew _ a b _ => (g ew a b % 2 ^ ew, 0)) i).1
  rw [State.intOp, State.vectorOp_eq _ (by simp) hok hvl]
  refine ⟨fun i hi => (helem i hi).trans ?_, hrest⟩
  rw [State.elemResult, Nat.mod_mod]
end

/-- Settles O24: every row is one vector operation, and what that leaves is the lemma about it. -/
theorem bvxFloatOperations : Obligations.BvxFloatOperations := by
  intro row hrow t h w r0 s x v hready hword hok hvl hrm
  have hexec : exec (row.1 t h w) r0 = r0.bvx t h w row.2.1 false fun s h w => s.vectorOp h w true row.2.2.1 row.2.2.2 := by
    simp only [List.mem_cons, List.not_mem_nil, or_false] at hrow
    rcases hrow with rfl | rfl | rfl | rfl | rfl | rfl | rfl | rfl | rfl | rfl | rfl <;> rfl
  exact does_of_bvx hexec hready hword (State.vectorOp_fp _ hrm hok hvl)

/-- Settles O26: every row is one integer operation, and what that leaves is the lemma about it. -/
theorem bvxIntegerOperations : Obligations.BvxIntegerOperations := by
  intro row hrow t h w r0 s x v hready hword hok hvl
  have hexec : exec (row.1 t h w) r0 = r0.bvx t h w (custom0 row.2.1 true) false fun s h w => s.intOp h w row.2.2 := by
    simp only [List.mem_cons, List.not_mem_nil, or_false] at hrow
    rcases hrow with rfl | rfl | rfl | rfl | rfl | rfl | rfl | rfl | rfl | rfl | rfl | rfl | rfl <;> rfl
  exact does_of_bvx hexec hready hword (State.intOp_effect _ hok hvl)

/-! ### The ordered sum (07 R246) -/

/-- A fold that gathers flags beside its sum has the sum of the fold without them. -/
theorem foldl_pair_fst {α β γ : Type} (f : α → γ → α) (g : α → β → γ → β) (l : List γ) (a : α) (b : β) :
    (l.foldl (fun x i => (f x.1 i, g x.1 x.2 i)) (a, b)).1 = l.foldl f a := by
  induction l generalizing a b with
  | nil => rfl
  | cons i l ih => exact ih ..

/-- The elements that bx.fredosum adds, in their order. -/
def State.summed (s : State) (h w : Nat) : List Nat :=
  (List.range (s.hart h).vl).filter fun i => !bxMk w || bit (s.maskReg h (bxMsk w)) i

/-- One addition of the ordered sum. -/
def State.addElem (s : State) (h w : Nat) (rm : Rm) (a i : Nat) : Nat × Nat :=
  fAdd (fltOfEw (s.hart h).ew) rm a (s.elem h (bxB w) i)

/-- The ordered sum and its flags. -/
def State.orderedSum (s : State) (h w : Nat) (rm : Rm) : Nat × Nat :=
  (s.summed h w).foldl (fun a i => ((s.addElem h w rm a.1 i).1, a.2 ||| (s.addElem h w rm a.1 i).2)) (s.elem h (bxA w) 0, 0)

/-- The state with the ordered sum in element 0 of vd. -/
def State.sumWritten (s : State) (h w : Nat) (rm : Rm) : State :=
  (s.setGroupRegs h (bxD w) (s.hart h).group (putElems (s.vGroup h (bxD w) (s.hart h).group) (s.hart h).ew
    [(0, (s.orderedSum h w rm).1)])).accrue h (s.orderedSum h w rm).2

theorem exec_bxFredosum (t : Nat) (h : HartIdx) (w : BitVec 32) (s : State) :
    exec (.bxFredosum t h w) s = execBxFredosum t h w s := rfl

theorem exec_bxFredosum_of_ready {r0 : State} {t : Nat} {h : HartIdx} {w : BitVec 32} {rm : Rm}
    (hready : (r0.arrive t).BxReady h.val) (hword : custom0 0x0B false w.toNat = true)
    (hok : (r0.arrive t).operandsOk h.val w.toNat true true = true) (hvl : 0 < ((r0.arrive t).hart h.val).vl)
    (hrm : ((r0.arrive t).hart h.val).rm = some rm) :
    exec (.bxFredosum t h w) r0 = .next ((r0.arrive t).sumWritten h.val w.toNat rm) := by
  rw [exec_bxFredosum, execBxFredosum, State.bvx_of_ready false hready hword]
  simp only [hrm, hok, Bool.not_true, Bool.false_eq_true, if_false, hvl.ne']
  rfl

/-- Settles O25: the sum is the fold over the elements taken, and element 0 is the only one replaced. -/
theorem fredosumInOrder : Obligations.FredosumInOrder := by
  intro t h w rm r0 s x v hready hword hok hvl hrm taken sum
  have hsum : (s.orderedSum h.val v rm).1 = sum := foldl_pair_fst (fun a i => (s.addElem h.val v rm a i).1)
    (fun a b i => b ||| (s.addElem h.val v rm a i).2) ..
  refine ⟨_, exec_bxFredosum_of_ready hready hword hok hvl hrm, fun i hi => ?_, (s.setGroupRegs_onlyVector ..).accrue _⟩
  rw [State.sumWritten, State.accrue_elem, State.elem_setGroupRegs _ _ _ hi, ← hsum]
  refine (elemAt_putElems [0] (fun _ => (s.orderedSum h.val v rm).1) ..).trans ?_
  simp only [List.mem_singleton]
  rfl

end Sys2Proof.Machine
end

section
namespace Sys2Proof.Machine

/-! ## Compares and mask operations (O27) -/

section
variable {s : State} {h m : Nat}

theorem State.setMask_hart (s : State) (h m v : Nat) : (s.setMask h m v).hart h =
    { s.hart h with bxbs := 3, m := fmSet (s.hart h).m m (BitVec.ofNat 512 v) } := State.hart_setHart_same ..

theorem State.setMask_onlyHart (s : State) (h m v : Nat) : s.OnlyHart (s.setMask h m v) h := s.setHart_onlyHart h _

theorem State.bit_maskReg_setMask (s : State) (h m v : Nat) {i : Nat} (hi : i < 512) :
    bit ((s.setMask h m v).maskReg h m) i = bit v i := by
  rw [State.maskReg, State.setMask_hart, fmGet_fmSet_same, bit_ofNat_toNat hi]

theorem State.maskReg_setMask_other (s : State) (h v : Nat) {k m : Nat} (hk : k ≠ m) :
    (s.setMask h m v).maskReg h k = s.maskReg h k := by
  rw [State.maskReg, State.setMask_hart, fmGet_fmSet_other _ _ _ _ _ hk, State.maskReg]

/-- Of its hart a write of a mask register changes the mask registers and `bs` only. -/
theorem State.setMask_frame (s : State) (h m v : Nat) :
    { (s.setMask h m v).hart h with m := (s.hart h).m, bxbs := (s.hart h).bxbs } = s.hart h := by
  rw [State.setMask_hart]

theorem State.accrue_maskReg (s : State) (h fl m : Nat) : (s.accrue h fl).maskReg h m = s.maskReg h m := by
  rw [State.maskReg, State.accrue_hart, State.maskReg]
end

/-! ### Compares (07 R247) -/

section
variable {s : State} {h w : Nat} (fp : Bool) (f : Nat → Nat → Nat → Bool × Nat)

/-- Outcome and flags of a compare at element i. -/
def State.elemCompare (s : State) (h w : Nat) (fp : Bool) (f : Nat → Nat → Nat → Bool × Nat) (i : Nat) : Bool × Nat :=
  f (s.hart h).ew (s.elem h (bxB w) i) (s.rightElem h w fp i)

/-- The flags a compare gathers: none for integers. -/
def State.compareFlags (s : State) (h w : Nat) (fp : Bool) (f : Nat → Nat → Nat → Bool × Nat) : Nat :=
  if fp then (s.active h w).foldl (fun m i => m ||| (s.elemCompare h w fp f i).2) 0 else 0

/-- The mask register after a compare. -/
def State.compared (s : State) (h w : Nat) (fp : Bool) (f : Nat → Nat → Nat → Bool × Nat) : State :=
  s.setMask h (bxD w)
    ((s.active h w).foldl (fun m i => setBit m i (s.elemCompare h w fp f i).1) (s.maskReg h (bxD w)))

theorem State.compareOp_eq (hd : bxD w < 8) (hok : s.operandsOk h w fp false = true) (hvl : 0 < (s.hart h).vl) :
    s.compareOp h w fp f =
      let u := s.compared h w fp f
      if fp then u.accrue h ((s.active h w).foldl (fun m i => m ||| (s.elemCompare h w fp f i).2) 0) else u := by
  simp only [State.compareOp, Nat.not_le.2 hd, hok, hvl.ne', Bool.not_true, Bool.false_eq_true, or_self, if_false,
    List.foldl_map]
  rfl

theorem State.compareOp_of_high (hd : 8 ≤ bxD w) : s.compareOp h w fp f = s.illegal h w := by
  rw [State.compareOp, if_pos (.inl hd)]

/-- A compare: the active elements' bits are its outcomes, and the flags of a floating-point one accrue. -/
theorem State.compareOp_effect (hd : bxD w < 8) (hok : s.operandsOk h w fp false = true) (hvl : 0 < (s.hart h).vl) :
    let u := s.compareOp h w fp f
    (∀ i, i < 512 → bit (u.maskReg h (bxD w)) i =
      if i ∈ s.active h w then (s.elemCompare h w fp f i).1 else bit (s.maskReg h (bxD w)) i) ∧
    (∀ k, k ≠ bxD w → u.maskReg h k = s.maskReg h k) ∧
    (u.hart h).fflags = (s.hart h).fflags ||| BitVec.ofNat 5 (s.compareFlags h w fp f) ∧
    { u.hart h with m := (s.hart h).m, bxbs := (s.hart h).bxbs, fflags := (s.hart h).fflags } = s.hart h ∧
    s.OnlyHart u h := by
  have hbit (i : Nat) (hi : i < 512) : bit ((s.compared h w fp f).maskReg h (bxD w)) i =
      if i ∈ s.active h w then (s.elemCompare h w fp f i).1 else bit (s.maskReg h (bxD w)) i := by
    rw [State.compared, State.bit_maskReg_setMask _ _ _ _ hi]
    exact bit_foldl_setBit _ (fun i => (s.elemCompare h w fp f i).1) ..
  have hother (k : Nat) (hk : k ≠ bxD w) : (s.compared h w fp f).maskReg h k = s.maskReg h k :=
    State.maskReg_setMask_other _ _ _ hk
  have honly : s.OnlyHart (s.compared h w fp f) h := s.setMask_onlyHart ..
  have hhart : (s.compared h w fp f).hart h = _ := s.setMask_hart ..
  rw [State.compareOp_eq fp f hd hok hvl]
  cases fp with
  | false => exact ⟨hbit, hother, by simp [hhart, State.compareFlags], by simp [hhart], honly⟩
  | true =>
    refine ⟨fun i hi => ?_, fun k hk => ?_, ?_, ?_, ?_⟩
    · exact (congrArg (bit · i) (State.accrue_maskReg ..)).trans (hbit i hi)
    · exact (State.accrue_maskReg ..).trans (hother k hk)
    · rw [if_pos rfl, State.accrue_hart, hhart]
      rfl
    · rw [if_pos rfl, State.accrue_hart, hhart]
    · exact honly.trans (State.setHart_onlyHart ..)
end

/-! ### Mask operations -/

/-- What a mask operation leaves, given what it does to a bit. -/
theorem State.maskOp_effect (s : State) (h w : Nat) {f : Nat → Nat → Nat} {g : Bool → Bool → Bool}
    (hf : ∀ a b i, i < 512 → bit (f a b) i = g (bit a i) (bit b i)) : let u := s.maskOp h w f
    (∀ i, i < 512 → bit (u.maskReg h (bxD w % 8)) i =
      g (bit (s.maskReg h (bxA w % 8)) i) (bit (s.maskReg h (bxB w % 8)) i)) ∧
    (∀ k, k ≠ bxD w % 8 → u.maskReg h k = s.maskReg h k) ∧
    { u.hart h with m := (s.hart h).m, bxbs := (s.hart h).bxbs } = s.hart h ∧ s.OnlyHart u h := by
  refine ⟨fun i hi => ?_, fun k hk => State.maskReg_setMask_other _ _ _ hk, s.setMask_frame .., s.setMask_onlyHart ..⟩
  rw [State.maskOp, State.bit_maskReg_setMask _ _ _ _ hi, hf _ _ i hi]

/-- The row of a mask operation, and what its operation does to a bit. -/
def MaskRow (row : (Nat → HartIdx → BitVec 32 → Instr) × Nat × (Bool → Bool → Bool)) (f : Nat → Nat → Nat) : Prop :=
  (∀ t h w r0, exec (row.1 t h w) r0 = r0.bvx t h w (custom1 row.2.1 false) false fun s h w => s.maskOp h w f) ∧
  ∀ a b i, i < 512 → bit (f a b) i = row.2.2 (bit a i) (bit b i)

theorem maskRow_and : MaskRow (.bxMand, 0x0C, fun a b => a && b) (fun a b => a &&& b) :=
  ⟨fun _ _ _ _ => rfl, fun _ _ _ _ => Nat.testBit_and ..⟩

theorem maskRow_or : MaskRow (.bxMor, 0x0D, fun a b => a || b) (fun a b => a ||| b) :=
  ⟨fun _ _ _ _ => rfl, fun _ _ _ _ => Nat.testBit_or ..⟩

theorem maskRow_xor : MaskRow (.bxMxor, 0x0E, fun a b => a != b) (fun a b => a ^^^ b) :=
  ⟨fun _ _ _ _ => rfl, fun _ _ _ _ => Nat.testBit_xor ..⟩

theorem maskRow_andn : MaskRow (.bxMandn, 0x0F, fun a b => a && !b) (fun a b => a &&& ((2 ^ 512 - 1) ^^^ b)) :=
  ⟨fun _ _ _ _ => rfl, fun a b i hi => by
    rw [bit, Nat.testBit_and, Nat.testBit_xor, Nat.testBit_two_pow_sub_one, decide_eq_true hi, Bool.true_xor, bit, bit]⟩

/-- Settles O27: a compare, and its refusal above m7, by what State.compareOp does; a mask operation bit by bit. -/
theorem bvxComparesAndMasks : Obligations.BvxComparesAndMasks := by
  refine ⟨fun row hrow t h w r0 => ?_, fun row hrow t h w r0 => ?_⟩
  · intro s x v hready hword
    have hexec : exec (row.1 t h w) r0 = r0.bvx t h w (custom0 row.2.1 true) false fun s h w =>
        s.compareOp h w row.2.2.1 row.2.2.2 := by
      simp only [List.mem_cons, List.not_mem_nil, or_false] at hrow
      rcases hrow with rfl | rfl | rfl | rfl | rfl | rfl <;> rfl
    refine ⟨fun hd hok hvl => ?_, fun hd => ?_⟩
    · exact does_of_bvx hexec hready hword (State.compareOp_effect _ _ hd hok hvl)
    · refine does_of_bvx hexec hready hword ?_
      rw [State.compareOp_of_high _ _ hd]
      exact s.illegal_traps h.val w
  · intro s x v hready hword
    have hop : ∃ f, MaskRow row f := by
      simp only [List.mem_cons, List.not_mem_nil, or_false] at hrow
      rcases hrow with rfl | rfl | rfl | rfl
      · exact ⟨_, maskRow_and⟩
      · exact ⟨_, maskRow_or⟩
      · exact ⟨_, maskRow_xor⟩
      · exact ⟨_, maskRow_andn⟩
    obtain ⟨f, hexec, hf⟩ := hop
    exact does_of_bvx (hexec t h w r0) hready hword (s.maskOp_effect h.val v hf)

end Sys2Proof.Machine
end

section
namespace Sys2Proof.Machine

/-! ## Vector length, moves and permutes (O28) -/

/-! ### bx.setvl (07 R239) -/

theorem bits_bits {hi lo : Nat} (v hi' lo' : Nat) (h : lo + hi' ≤ hi) :
    bits (bits v hi lo) hi' lo' = bits v (lo + hi') (lo + lo') := by
  refine Nat.eq_of_testBit_eq fun j => ?_
  rw [testBit_bits, testBit_bits, testBit_bits]
  by_cases hj : j < hi' + 1 - lo'
  · simp [hj, show lo' + j < hi + 1 - lo by omega, show j < lo + (hi' + 1) - (lo + lo') by omega, Nat.add_assoc]
  · simp [hj, show ¬ j < lo + hi' + 1 - (lo + lo') by omega]

theorem bit_63_add (b : Bool) {c : Nat} (h : c < 2 ^ 63) : bit (c + (b2n b <<< 63)) 63 = b := by
  rw [bit, Nat.testBit_eq_decide_div_mod_eq, Nat.shiftLeft_eq]
  cases b <;> simp only [b2n, Bool.false_eq_true, if_true, if_false, decide_eq_true_eq, decide_eq_false_iff_not] <;> omega

theorem bits_62_0_add (b : Bool) {c : Nat} (h : c < 2 ^ 63) : bits (c + (b2n b <<< 63)) 62 0 = c := by
  rw [bits, Nat.shiftLeft_eq, Nat.shiftRight_zero, Nat.add_mul_mod_self_right, Nat.mod_eq_of_lt h]

/-- VLMAX of the settings in a word of bx.setvl, and the length it gives. -/
def cfgVlmax (w : Nat) : Nat := 2 ^ bits w 23 22 * 4096 / (8 * 2 ^ bits w 21 20)
def State.cfgVl (s : State) (h w : Nat) : Nat := if 512 < cfgVlmax w then 0 else min (s.getX h (bxA w)) (cfgVlmax w)

theorem State.cfgVl_le (s : State) (h w : Nat) : s.cfgVl h w ≤ 512 := by
  unfold State.cfgVl
  split
  · exact Nat.zero_le _
  next hn => exact (Nat.min_le_right ..).trans (Nat.not_lt.1 hn)

/-- vtype and vl take the settings of the word. -/
def State.configured (s : State) (h w : Nat) : State :=
  s.setHart h { s.hart h with
    bxvl := BitVec.ofNat 64 (s.cfgVl h w)
    bxvtype := BitVec.ofNat 64 (bits w 23 20 + (b2n (decide (512 < cfgVlmax w)) <<< 63)) }

theorem State.configured_hart (s : State) (h w : Nat) : (s.configured h w).hart h = { s.hart h with
    bxvl := BitVec.ofNat 64 (s.cfgVl h w)
    bxvtype := BitVec.ofNat 64 (bits w 23 20 + (b2n (decide (512 < cfgVlmax w)) <<< 63)) } :=
  State.hart_setHart_same ..

theorem State.configured_vl (s : State) (h w : Nat) : ((s.configured h w).hart h).vl = s.cfgVl h w := by
  rw [State.configured_hart]
  exact Nat.mod_eq_of_lt ((s.cfgVl_le h w).trans_lt (by decide))

theorem bits_23_20_lt (w : Nat) : bits w 23 20 < 16 := Nat.mod_lt _ (by decide)

theorem State.configured_ill (s : State) (h w : Nat) : ((s.configured h w).hart h).ill = decide (512 < cfgVlmax w) := by
  rw [State.configured_hart, Hart.ill, bit_ofNat_toNat (by decide)]
  exact bit_63_add _ ((bits_23_20_lt w).trans (by decide))

theorem State.configured_vtype (s : State) (h w : Nat) :
    bits ((s.configured h w).hart h).bxvtype.toNat 62 0 = bits w 23 20 := by
  have hc := bits_23_20_lt w
  have hlt : bits w 23 20 + (b2n (decide (512 < cfgVlmax w)) <<< 63) < 2 ^ 64 := by
    rw [Nat.shiftLeft_eq, b2n]
    split <;> omega
  rw [State.configured_hart, BitVec.toNat_ofNat, Nat.mod_eq_of_lt hlt]
  exact bits_62_0_add _ (hc.trans (by decide))

section
variable {r0 : State} {t : Nat} {h : HartIdx} {w : BitVec 32}

theorem exec_bxSetvl (t : Nat) (h : HartIdx) (w : BitVec 32) (s : State) : exec (.bxSetvl t h w) s = execBxSetvl t h w s := rfl

theorem exec_bxSetvl_of_on (hgone : (r0.arrive t).hartGone h.val = false) (hbs : ((r0.arrive t).hart h.val).bxbs ≠ 0#2)
    (hword : custom1 0x18 false w.toNat = true) (h24 : bit w.toNat 24 = false) : exec (.bxSetvl t h w) r0 =
      let s := r0.arrive t
      .next ((s.configured h.val w.toNat).setX h.val (bxD w.toNat) (s.cfgVl h.val w.toNat)) := by
  rw [exec_bxSetvl, execBxSetvl, State.bvx_of_on hgone hbs (by simp) (by simp [hword, h24])]
  simp only [bits_bits _ _ _ (show 20 + 3 ≤ 23 by decide), bits_bits _ _ _ (show 20 + 1 ≤ 23 by decide), decide_eq_true_eq]
  rfl

/-- What bx.setvl leaves. -/
theorem State.setvl_effect (s : State) (h r w : Nat) : let u := (s.configured h w).setX h r (s.cfgVl h w)
    (u.hart h).vl = s.cfgVl h w ∧ (u.hart h).ill = decide (512 < cfgVlmax w) ∧
    bits (u.hart h).bxvtype.toNat 62 0 = bits w 23 20 ∧
    (u.getX h r = (if r = 0 then 0 else s.cfgVl h w) ∧ ∀ j, j ≠ r → u.getX h j = s.getX h j) ∧
    { u.hart h with x := (s.hart h).x, bxvl := (s.hart h).bxvl, bxvtype := (s.hart h).bxvtype } = s.hart h ∧ s.OnlyHart u h := by
  intro u
  have hu := (s.configured h w).setX_hart h r (s.cfgVl h w)
  have hvl : (u.hart h).bxvl = ((s.configured h w).hart h).bxvl := (congrArg Hart.bxvl hu :)
  have hvtype : (u.hart h).bxvtype = ((s.configured h w).hart h).bxvtype := (congrArg Hart.bxvtype hu :)
  obtain ⟨hget, hother⟩ := (s.configured h w).getX_setX h r (s.cfgVl h w)
  refine ⟨?_, ?_, ?_, ⟨?_, fun j hj => ?_⟩, ?_, (s.setHart_onlyHart h _).trans (State.setX_onlyHart ..)⟩
  · rw [Hart.vl, hvl]
    exact s.configured_vl h w
  · rw [Hart.ill, hvtype]
    exact s.configured_ill h w
  · rw [hvtype, State.configured_vtype]
  · rw [hget, Nat.mod_eq_of_lt ((s.cfgVl_le h w).trans_lt (by decide))]
  · rw [hother j hj, State.getX, State.configured_hart, State.getX]
  · rw [State.configured_hart] at hu
    exact congrArg (fun y : Hart => { y with x := (s.hart h).x, bxvl := (s.hart h).bxvl, bxvtype := (s.hart h).bxvtype }) hu
end

/-! ### Moves and permutes (07 R247, R248, R254) -/

/-- What a write of an integer register leaves, for a value of 64 bits. -/
theorem State.setX_effect (s : State) (h r : Nat) {v : Nat} (hv : v < 2 ^ 64) : let u := s.setX h r v
    (u.getX h r = (if r = 0 then 0 else v) ∧ ∀ j, j ≠ r → u.getX h j = s.getX h j) ∧
    { u.hart h with x := (s.hart h).x } = s.hart h ∧ s.OnlyHart u h := by
  obtain ⟨hget, hother⟩ := s.getX_setX h r v
  exact ⟨⟨by rw [hget, Nat.mod_eq_of_lt hv], hother⟩, s.setX_hart h r v, s.setX_onlyHart h r v⟩

theorem Hart.two_pow_ew_le (x : Hart) : 2 ^ x.ew ≤ 2 ^ 64 := by
  have hb : bits x.bxvtype.toNat 1 0 < 4 := Nat.mod_lt _ (by decide)
  have hp : 2 ^ bits x.bxvtype.toNat 1 0 ≤ 2 ^ 3 := Nat.pow_le_pow_right (by decide) (by omega)
  exact Nat.pow_le_pow_right (by decide) (show 8 * _ ≤ 64 by omega)

/-- The word a broadcast writes to each active element. -/
def State.broadcast (s : State) (h w : Nat) : Nat :=
  if bxB w = 0 then s.getX h (bxA w) else s.fScalar h (bxA w) (s.hart h).ew

/-- The element of an n-register table that element i of vs1 names; 0 outside the table. -/
def State.permuted (s : State) (h w n i : Nat) : Nat :=
  if s.elem h (bxA w) i < n * 4096 / (s.hart h).ew
  then elemAt (s.vGroup h (bxB w) n) (s.hart h).ew (s.elem h (bxA w) i) else 0

theorem State.permuted_lt (s : State) (h w n i : Nat) : s.permuted h w n i < 2 ^ (s.hart h).ew := by
  unfold State.permuted
  split
  · exact elemAt_lt ..
  · exact Nat.two_pow_pos _

theorem bits_chunk_lt (v c : Nat) : bits v (64 * c + 63) (64 * c) < 2 ^ 64 :=
  (Nat.mod_lt _ (Nat.two_pow_pos _)).trans_eq (congrArg (2 ^ ·) (by omega))

/-- The chunk of a mask register that bx.mwr writes. -/
theorem bit_setBits_chunk (v c x i : Nat) : bit (setBits v (64 * c + 63) (64 * c) x) i =
    if i / 64 = c then bit x (i % 64) else bit v i := by
  rw [bit, testBit_setBits]
  by_cases hc : i / 64 = c
  · rw [if_pos (by omega), if_pos hc, bit, show i - 64 * c = i % 64 by omega]
  · rw [if_neg (by omega), if_neg hc, bit]

section
variable {r0 : State} {t : Nat} {h : HartIdx} {w : BitVec 32} (hready : (r0.arrive t).BxReady h.val)

theorem exec_bxMrd (t : Nat) (h : HartIdx) (w : BitVec 32) (s : State) : exec (.bxMrd t h w) s = execBxMrd t h w s := rfl
theorem exec_bxMwr (t : Nat) (h : HartIdx) (w : BitVec 32) (s : State) : exec (.bxMwr t h w) s = execBxMwr t h w s := rfl
theorem exec_bxExt (t : Nat) (h : HartIdx) (w : BitVec 32) (s : State) : exec (.bxExt t h w) s = execBxExt t h w s := rfl
theorem exec_bxBcast (t : Nat) (h : HartIdx) (w : BitVec 32) (s : State) : exec (.bxBcast t h w) s = execBxBcast t h w s := rfl
theorem exec_bxTperm (t : Nat) (h : HartIdx) (w : BitVec 32) (s : State) : exec (.bxTperm t h w) s = execBxTperm t h w s := rfl

include hready

theorem exec_bxMrd_of_ready (hword : custom1 0x10 false w.toNat = true) : exec (.bxMrd t h w) r0 =
    let s := r0.arrive t
    let c := bits w.toNat 22 20
    .next (s.setX h.val (bxD w.toNat) (bits (s.maskReg h.val (bxA w.toNat % 8)) (64 * c + 63) (64 * c))) := by
  rw [exec_bxMrd, execBxMrd, State.bvx_of_ready false hready hword]

theorem exec_bxMwr_of_ready (hword : custom1 0x11 false w.toNat = true) : exec (.bxMwr t h w) r0 =
    let s := r0.arrive t
    let c := bits w.toNat 22 20
    .next (s.setMask h.val (bxD w.toNat % 8)
      (setBits (s.maskReg h.val (bxD w.toNat % 8)) (64 * c + 63) (64 * c) (s.getX h.val (bxA w.toNat)))) := by
  rw [exec_bxMwr, execBxMwr, State.bvx_of_ready false hready hword]

theorem exec_bxExt_of_aligned (hword : custom1 0x12 false w.toNat = true)
    (hal : aligned ((r0.arrive t).hart h.val).group [bxB w.toNat] = true) : exec (.bxExt t h w) r0 =
      let s := r0.arrive t
      let i := s.getX h.val (bxA w.toNat)
      .next (s.setX h.val (bxD w.toNat) (if i < (s.hart h.val).vlmax then s.elem h.val (bxB w.toNat) i else 0)) := by
  rw [exec_bxExt, execBxExt, State.bvx_of_ready false hready hword]
  simp only [hal, Bool.not_true, Bool.false_eq_true, if_false]
  rfl

theorem exec_bxBcast_of_aligned (hword : custom1 0x0B true w.toNat = true) (hB : bxB w.toNat ≤ 1)
    (hal : aligned ((r0.arrive t).hart h.val).group [bxD w.toNat] = true) (hvl : 0 < ((r0.arrive t).hart h.val).vl) :
    exec (.bxBcast t h w) r0 =
      let s := r0.arrive t
      .next (s.putActive h.val w.toNat fun _ => s.broadcast h.val w.toNat % 2 ^ (s.hart h.val).ew) := by
  rw [exec_bxBcast, execBxBcast, State.bvx_of_ready false hready (by simp [hword, hB])]
  simp only [hal, hvl.ne', Bool.not_true, Bool.false_eq_true, if_false]
  rfl

theorem exec_bxTperm_of_apart (hword : w.toNat % 128 = 0x2B) (hlo : 4 ≤ bxF6 w.toNat) (hhi : bxF6 w.toNat ≤ 7) {n : Nat}
    (hn : n = 2 ^ (bxF6 w.toNat - 4))
    (hal : aligned ((r0.arrive t).hart h.val).group [bxD w.toNat, bxA w.toNat] = true) (hB : aligned n [bxB w.toNat] = true)
    (hBA : overlap (bxB w.toNat) n (bxA w.toNat) ((r0.arrive t).hart h.val).group = false)
    (hBD : overlap (bxB w.toNat) n (bxD w.toNat) ((r0.arrive t).hart h.val).group = false)
    (hAD : overlap (bxA w.toNat) ((r0.arrive t).hart h.val).group (bxD w.toNat) ((r0.arrive t).hart h.val).group = false)
    (hvl : 0 < ((r0.arrive t).hart h.val).vl) :
    exec (.bxTperm t h w) r0 =
      let s := r0.arrive t
      .next (s.putActive h.val w.toNat fun i => s.permuted h.val w.toNat n i) := by
  subst hn
  rw [exec_bxTperm, execBxTperm, State.bvx_of_ready false hready (by simp [hword, hlo, hhi])]
  simp only [hal, hB, hBA, hBD, hAD, hvl.ne', Bool.not_true, Bool.false_eq_true, Bool.or_self, if_false]
  rfl
end

/-- Settles O28: each row by its equation and by what its write leaves. -/
theorem bvxMovesAndPermutes : Obligations.BvxMovesAndPermutes := by
  intro t h w r0 s x v put
  refine ⟨fun hgone hbs hword h24 => ?_, fun hready => ⟨fun hword => ?_, fun hword => ?_, fun hword hal => ?_,
    fun hword hB hal hvl => ?_, fun n hword hlo hhi hn hal hB hBA hBD hAD hvl => ?_⟩⟩
  · exact ⟨_, exec_bxSetvl_of_on hgone hbs hword h24, s.setvl_effect h.val (bxD v) v⟩
  · exact ⟨_, exec_bxMrd_of_ready hready hword, s.setX_effect h.val (bxD v) (bits_chunk_lt ..)⟩
  · refine ⟨_, exec_bxMwr_of_ready hready hword, fun i hi => ?_, fun k hk => ?_, ?_, ?_⟩
    · exact (State.bit_maskReg_setMask _ _ _ _ hi).trans (bit_setBits_chunk ..)
    · exact State.maskReg_setMask_other _ _ _ hk
    · exact s.setMask_frame ..
    · exact s.setMask_onlyHart ..
  · refine ⟨_, exec_bxExt_of_aligned hready hword hal, s.setX_effect h.val (bxD v) ?_⟩
    split
    · exact (elemAt_lt ..).trans_le (Hart.two_pow_ew_le _)
    · decide
  · obtain ⟨helem, hrest⟩ := s.putActive_effect h.val v fun _ => s.broadcast h.val v % 2 ^ x.ew
    refine ⟨_, exec_bxBcast_of_aligned hready hword hB hal hvl, fun i hi => (helem i hi).trans ?_, hrest⟩
    rw [Nat.mod_mod]
    rfl
  · obtain ⟨helem, hrest⟩ := s.putActive_effect h.val v fun i => s.permuted h.val v n i
    refine ⟨_, exec_bxTperm_of_apart hready hword hlo hhi hn hal hB hBA hBD hAD hvl, fun i hi => (helem i hi).trans ?_, hrest⟩
    rw [Nat.mod_eq_of_lt (s.permuted_lt ..)]
    rfl

end Sys2Proof.Machine
end

section
namespace Sys2Proof.Machine

/-! ## Vector loads and stores (O30) -/

/-! ### How a load or store ends (07 R242, R243) -/

section
variable {s : State} {h : Nat}

/-- The vector state of a hart is dirty. -/
def State.dirty (s : State) (h : Nat) : State := s.setHart h { s.hart h with bxbs := 3 }

theorem State.startAt_hart (s : State) (h k : Nat) : (s.startAt h k).hart h = { s.hart h with
    bxstart := BitVec.ofNat 16 k
    bxbs := if (s.hart h).bxstart = BitVec.ofNat 16 k then (s.hart h).bxbs else 3 } := State.hart_setHart_same ..

/-- All active elements are done. -/
def State.memDone (s : State) (h : Nat) (store : Bool) : State := (if store then s else s.dirty h).endStart h

theorem State.memDone_effect (s : State) (h : Nat) (store : Bool) : let u := s.memDone h store
    u.hart h = { s.hart h with
      bxstart := 0, bxbs := if store ∧ (s.hart h).bxstart = 0 then (s.hart h).bxbs else 3 } ∧ { u with harts := s.harts } = s := by
  refine ⟨?_, by cases store <;> rfl⟩
  cases store with
  | true =>
    refine (s.startAt_hart h 0).trans ?_
    simp
  | false =>
    refine ((s.dirty h).startAt_hart h 0).trans ?_
    simp [State.dirty]

/-- An exception is taken at element k. -/
def State.memFault (s : State) (h : Nat) (store : Bool) (k cause tval : Nat) : State :=
  ((if store then s else s.dirty h).startAt h k).trap h cause tval

theorem State.memFault_frame (s : State) (h : Nat) (store : Bool) (k cause tval : Nat) :
    { s.memFault h store k cause tval with harts := s.harts } = s := by
  simp only [State.memFault, State.trap_eq, State.startAt, State.dirty, State.setHart]
  cases store <;> rfl

theorem Hart.trapRegs_congr {x y : Hart} (hm : y.mode = x.mode) (hc : y.csr = x.csr) (cause : Nat) :
    y.trapRegs cause = x.trapRegs cause := by
  cases x
  cases y
  cases hm
  cases hc
  rfl

theorem State.memFault_effect (s : State) (h : Nat) (store : Bool) (k : Nat) {cause tval : Nat} (hc : cause < 64)
    (ht : tval < 2 ^ 64) : let u := s.memFault h store k cause tval
    (u.hart h).bxstart = BitVec.ofNat 16 k ∧ (u.hart h).bxvl = (s.hart h).bxvl ∧ (u.hart h).v = (s.hart h).v ∧
    (u.hart h).trap = some ⟨cause, tval⟩ ∧ (u.hart h).getCsr ((s.hart h).trapRegs cause).cause = cause ∧
    (u.hart h).getCsr ((s.hart h).trapRegs cause).tval = tval ∧ { u with harts := s.harts } = s := by
  intro u
  let z := (if store then s else s.dirty h).startAt h k
  have hz : ∃ b, z.hart h = { s.hart h with bxstart := BitVec.ofNat 16 k, bxbs := b } := by
    cases store with
    | true => exact ⟨_, s.startAt_hart h k⟩
    | false =>
      refine ⟨3, ((s.dirty h).startAt_hart h k).trans ?_⟩
      simp [State.dirty]
  obtain ⟨b, hz⟩ := hz
  have hregs : (z.hart h).trapRegs cause = (s.hart h).trapRegs cause :=
    Hart.trapRegs_congr (by rw [hz]) (by rw [hz]) cause
  obtain ⟨htrap, -, hcause, htval, -, -, hframe, -⟩ := z.trap_traps h (hc.trans (by decide)) ht
  rw [hregs] at hcause htval
  rw [hz] at hframe
  exact ⟨(congrArg Hart.bxstart hframe :), (congrArg Hart.bxvl hframe :), (congrArg Hart.v hframe :), htrap, hcause, htval,
    s.memFault_frame h store k cause tval⟩

/-- An element waits for room; all but a first-fault load go on from it. -/
def State.memWait (s : State) (h f6 i : Nat) : State := (if f6 = 1 then s else s.startAt h i).answer stWait []

theorem State.memWait_effect (s : State) (h f6 i : Nat) : let u := s.memWait h f6 i
    u.ans.status = stWait ∧ (f6 ≠ 1 → (u.hart h).bxstart = BitVec.ofNat 16 i) ∧
    { u with harts := s.harts, ans := s.ans } = s := by
  refine ⟨rfl, fun hf => ?_, ?_⟩
  · rw [State.memWait, if_neg hf]
    exact congrArg Hart.bxstart (s.startAt_hart h i)
  · unfold State.memWait
    split <;> rfl
end

/-! ### The commands (07 R241 to R243) -/

/-- The elements of a load or store, run in order. -/
def State.runElems (s : State) (h w : Nat) (store : Bool) (pf : Option PageFault) : State × Option (Nat × Nat × Nat) × Option Nat :=
  s.elements h w store pf (fun s i => if store then s.storeElem h w i else s.loadElem h w i) (s.active h w)

/-- The effect of a row on a hart whose operands are in order, by how its elements end. -/
structure MemOp (eff : State → Nat → Nat → State) (f6 : Nat) (store : Bool) (pf : Option PageFault) (s : State) (h w : Nat) : Prop where
  idle : (s.hart h).vl = 0 → eff s h w = s
  done : 0 < (s.hart h).vl → ∀ s1, s.runElems h w store pf = (s1, none, none) → eff s h w = s1.memDone h store
  fault : 0 < (s.hart h).vl → ∀ s1 k cause tval, s.runElems h w store pf = (s1, some (k, cause, tval), none) →
    (f6 = 1 → (s.active h w).head? = some k) → ∃ b, eff s h w = s1.memFault h b k cause tval
  wait : 0 < (s.hart h).vl → ∀ s1 e i, s.runElems h w store pf = (s1, e, some i) → eff s h w = s1.memWait h f6 i

/-- bx.ldff: a fault past the first active element trims bxvl (R243). -/
def State.firstFault (s : State) (h w : Nat) (pf : Option PageFault) : State :=
  if bxB w ≠ 0 ∨ !aligned (s.hart h).group [bxD w] then s.illegal h w
  else if (s.hart h).vl = 0 then s
  else match s.runElems h w false pf with
    | (s, _, some _) => s.answer stWait []
    | (s1, some (k, cause, tval), _) =>
      if (s.active h w).head? = some k then (s1.startAt h k).trap h cause tval
      else (s1.setHart h { s1.hart h with bxbs := 3, bxvl := BitVec.ofNat 64 k, bxff := true }).endStart h
    | (s, none, _) => (s.setHart h { s.hart h with bxbs := 3 }).endStart h

section
variable {s : State} {h w : Nat} {pf : Option PageFault} (hB : bxB w = 0) (hal : aligned (s.hart h).group [bxD w] = true)
include hB hal

theorem State.preciseMem_memOp {f6 : Nat} (hf : f6 ≠ 1) (store : Bool) :
    MemOp (fun s h w => s.preciseMem h w store pf) f6 store pf s h w := by
  have heq : s.preciseMem h w store pf = if (s.hart h).vl = 0 then s else match s.runElems h w store pf with
      | (s, _, some i) => (s.startAt h i).answer stWait []
      | (s, some (k, cause, tval), _) => s.memFault h store k cause tval
      | (s, none, _) => s.memDone h store := by
    simp only [State.preciseMem, hB, hal, ne_eq, not_true_eq_false, Bool.not_true, Bool.false_eq_true, or_self, if_false]
    rfl
  refine ⟨fun hvl => ?_, fun hvl s1 he => ?_, fun hvl s1 k cause tval he _ => ⟨store, ?_⟩, fun hvl s1 e i he => ?_⟩
  · rw [heq, if_pos hvl]
  · rw [heq, if_neg hvl.ne', he]
  · rw [heq, if_neg hvl.ne', he]
  · rw [heq, if_neg hvl.ne', he, State.memWait, if_neg hf]

theorem State.firstFault_eq (hvl : 0 < (s.hart h).vl) : s.firstFault h w pf = match s.runElems h w false pf with
    | (s, _, some _) => s.answer stWait []
    | (s1, some (k, cause, tval), _) =>
      if (s.active h w).head? = some k then s1.memFault h true k cause tval
      else (s1.setHart h { s1.hart h with bxbs := 3, bxvl := BitVec.ofNat 64 k, bxff := true }).endStart h
    | (s, none, _) => s.memDone h false := by
  simp only [State.firstFault, hB, hal, hvl.ne', ne_eq, not_true_eq_false, Bool.not_true, Bool.false_eq_true, or_self, if_false]
  rfl

theorem State.firstFault_memOp : MemOp (fun s h w => s.firstFault h w pf) 1 false pf s h w := by
  refine ⟨fun hvl => ?_, fun hvl s1 he => ?_, fun hvl s1 k cause tval he hk => ⟨true, ?_⟩, fun hvl s1 e i he => ?_⟩
  · simp [State.firstFault, hB, hal, hvl]
  · rw [State.firstFault_eq hB hal hvl, he]
  · rw [State.firstFault_eq hB hal hvl, he]
    exact if_pos (hk rfl)
  · rw [State.firstFault_eq hB hal hvl, he, State.memWait, if_pos rfl]

theorem State.firstFault_of_later {s1 : State} {k cause tval : Nat} (hvl : 0 < (s.hart h).vl)
    (he : s.runElems h w false pf = (s1, some (k, cause, tval), none)) (hk : (s.active h w).head? ≠ some k) :
    s.firstFault h w pf =
      (s1.setHart h { s1.hart h with bxbs := 3, bxvl := BitVec.ofNat 64 k, bxff := true }).endStart h := by
  rw [State.firstFault_eq hB hal hvl, he]
  exact if_neg hk
end

/-- What a trimmed first-fault load leaves. -/
theorem State.trimmed_effect (s : State) (h k : Nat) :
    let u := (s.setHart h { s.hart h with bxbs := 3, bxvl := BitVec.ofNat 64 k, bxff := true }).endStart h
    u.hart h = { s.hart h with bxbs := 3, bxvl := BitVec.ofNat 64 k, bxff := true, bxstart := 0 } ∧
    { u with harts := s.harts } = s := by
  refine ⟨(State.startAt_hart _ h 0).trans ?_, rfl⟩
  rw [State.hart_setHart_same]
  simp

theorem exec_bxLdff (t : Nat) (h : HartIdx) (w : BitVec 32) (pf : Option PageFault) (s : State) :
    exec (.bxLdff t h w pf) s = s.bvx t h w (custom1 0x01 true) false fun s h w => s.firstFault h w pf := rfl

/-- Settles O30: each row by how its elements end, and the later fault of bx.ldff by its trim. -/
theorem bvxLoadsAndStores : Obligations.BvxLoadsAndStores := by
  intro t h w pf r0 s hready x v hB hal
  refine ⟨fun row hrow hword => ?_, fun s1 k cause tval hword hvl he hk => ?_⟩
  · have hop : ∃ eff, exec (row.1 t h w pf) r0 = r0.bvx t h w (custom1 row.2.1 true) false eff ∧
        MemOp eff row.2.1 row.2.2 pf s h.val v := by
      simp only [List.mem_cons, List.not_mem_nil, or_false] at hrow
      rcases hrow with rfl | rfl | rfl
      · exact ⟨_, rfl, State.preciseMem_memOp hB hal (by decide) false⟩
      · exact ⟨_, exec_bxLdff .., State.firstFault_memOp hB hal⟩
      · exact ⟨_, rfl, State.preciseMem_memOp hB hal (by decide) true⟩
    obtain ⟨eff, hexec, hmem⟩ := hop
    have hdone := hexec.trans (State.bvx_of_ready false hready hword)
    refine ⟨fun hvl => hdone.trans (congrArg _ (hmem.idle hvl)), fun hvl s1 fault wait he => ⟨?_, ?_, ?_⟩⟩
    · rintro rfl rfl
      refine ⟨_, hdone, ?_⟩
      rw [hmem.done hvl s1 he]
      exact s1.memDone_effect h.val row.2.2
    · rintro k cause tval rfl rfl hc ht hk
      obtain ⟨b, hb⟩ := hmem.fault hvl s1 k cause tval he hk
      refine ⟨_, hdone, ?_⟩
      rw [hb]
      exact s1.memFault_effect h.val b k hc ht
    · rintro i rfl
      refine ⟨_, hdone, ?_⟩
      rw [hmem.wait hvl s1 fault i he]
      exact s1.memWait_effect h.val row.2.1 i
  · refine ⟨_, (exec_bxLdff t h w pf r0).trans (State.bvx_of_ready false hready hword), ?_⟩
    rw [State.firstFault_of_later hB hal hvl he hk]
    exact s1.trimmed_effect h.val k

end Sys2Proof.Machine
end

section
namespace Sys2Proof.Machine

/-! ## Coupling windows from the solver side (O31) -/

/-! ### Registers and windows -/

/-- A write of an integer register as the rows of a window leave it: x[r], the other registers, the other harts. -/
theorem State.setX_put (s : State) (h r k : Nat) : let u := s.setX h r k
    (u.getX h r = (if r = 0 then 0 else k % 2 ^ 64) ∧ (∀ j, j ≠ r → u.getX h j = s.getX h j) ∧
      ∀ i, i ≠ h → u.hart i = s.hart i) ∧ s.OnlyHart u h := by
  obtain ⟨hget, hother⟩ := s.getX_setX h r k
  have honly := s.setX_onlyHart h r k
  exact ⟨⟨hget, hother, honly.2⟩, honly⟩

theorem State.win_setWin_other (s : State) {p w k : Nat} (x : WinSt) (hk : k ≠ w) :
    (s.setWin p w x).win p k = s.win p k := by
  simp only [State.win, State.setWin, State.part_setPart_same, nth, List.getD_eq_getElem?_getD, List.getElem?_set_ne hk.symm]

theorem State.part_setWin_other (s : State) {p w q : Nat} (x : WinSt) (hq : q ≠ p) : (s.setWin p w x).part q = s.part q :=
  State.part_setPart_other s _ hq

theorem State.setWin_frame (s : State) (p w : Nat) (x : WinSt) : { (s.setWin p w x).bare s with parts := s.parts } = s := rfl

theorem State.parts_setX (s : State) (h r k : Nat) : (s.setX h r k).parts = s.parts := by
  unfold State.setX
  split <;> rfl

/-! ### bx.wrel (07 R257, R258, R260) -/

/-- A hart is counted at a window; with it the quorum may be complete. -/
def State.countHart (s : State) (p n h : Nat) : State :=
  s.setWin p n { s.win p n with
    counted := (s.win p n).counted ++ [h], writeBack := decide (s.quorum p n ≤ (s.win p n).counted.length + 1) }

/-- What bx.wrel leaves once nothing of its hart is outstanding. -/
def State.wrel (s : State) (h w : Nat) : State :=
  let n := s.getX h (bxA w)
  match s.hartWindow h n with
  | none => s.setX h (bxD w) 4
  | some (p, _) =>
    if !s.solverHolds p n then s.setX h (bxD w) 3
    else if (s.win p n).writeBack then s.setX h (bxD w) 2
    else if (s.win p n).counted.contains h then s.setX h (bxD w) 1
    else (s.countHart p n h).setX h (bxD w) 0

theorem exec_bxWrel (t : Nat) (h : HartIdx) (w : BitVec 32) (s : State) : exec (.bxWrel t h w) s = execBxWrel t h w s := rfl

theorem exec_bxWrel_of_idle {r0 : State} {t : Nat} {h : HartIdx} {w : BitVec 32} (hready : (r0.arrive t).BxReady h.val)
    (hword : custom1 0x19 false w.toNat = true) (hout : ((r0.arrive t).srcUnit (hartUnit h.val)).outstanding = [])
    (hheld : ((r0.arrive t).srcUnit (hartUnit h.val)).held = []) :
    exec (.bxWrel t h w) r0 = .next ((r0.arrive t).wrel h.val w.toNat) := by
  rw [exec_bxWrel, execBxWrel, State.bvx_of_ready false hready hword]
  simp only [hout, hheld, List.isEmpty_nil, Bool.not_true, Bool.or_self, Bool.false_eq_true, if_false, State.wrel,
    State.countHart, List.length_append, List.length_singleton] <;> rfl

/-- What counting a hart leaves: the window with the hart counted, the other windows and partitions, the rest of the machine. -/
theorem State.countHart_effect (s : State) {p n : Nat} (h r : Nat) (hn : n < (s.part p).wins.length) :
    let u := (s.countHart p n h).setX h r 0
    (u.getX h r = (if r = 0 then 0 else 0 % 2 ^ 64) ∧ (∀ j, j ≠ r → u.getX h j = s.getX h j) ∧
      ∀ i, i ≠ h → u.hart i = s.hart i) ∧
    u.win p n = { s.win p n with
      counted := (s.win p n).counted ++ [h], writeBack := decide (s.quorum p n ≤ (s.win p n).counted.length + 1) } ∧
    (∀ k, k ≠ n → u.win p k = s.win p k) ∧ (∀ q, q ≠ p → u.part q = s.part q) ∧
    { u.bare s with harts := s.harts, parts := s.parts } = s := by
  intro u
  obtain ⟨hput, honly⟩ := (s.countHart p n h).setX_put h r 0
  have hparts : u.parts = (s.countHart p n h).parts := State.parts_setX ..
  refine ⟨hput, ?_, fun k hk => ?_, fun q hq => ?_, ?_⟩
  · rw [State.win_of_parts hparts]
    exact State.win_setWin _ hn
  · rw [State.win_of_parts hparts]
    exact State.win_setWin_other _ _ hk
  · rw [State.part_of_parts hparts]
    exact State.part_setWin_other _ _ hq
  · exact congrArg (fun x : State => { x with parts := s.parts }) honly.1

theorem State.wrel_of_none {s : State} {h w : Nat} (hwin : s.hartWindow h (s.getX h (bxA w)) = none) :
    s.wrel h w = s.setX h (bxD w) 4 := by
  rw [State.wrel, hwin]

theorem State.wrel_of_some {s : State} {h w p : Nat} {d : WinDesc} (hwin : s.hartWindow h (s.getX h (bxA w)) = some (p, d)) :
    s.wrel h w = (let n := s.getX h (bxA w)
      if s.solverHolds p n = false then s.setX h (bxD w) 3
      else if (s.win p n).writeBack = true then s.setX h (bxD w) 2
      else if h ∈ (s.win p n).counted then s.setX h (bxD w) 1
      else (s.countHart p n h).setX h (bxD w) 0) := by
  rw [State.wrel, hwin]
  simp only [Bool.not_eq_true', List.contains_eq_mem, decide_eq_true_eq]

/-! ### bx.wstat and bx.wwait (07 R262, R263) -/

theorem exec_bxWstat (t : Nat) (h : HartIdx) (w : BitVec 32) (s : State) : exec (.bxWstat t h w) s = execBxWstat t h w s := rfl

theorem exec_bxWstat_of_ready {r0 : State} {t : Nat} {h : HartIdx} {w : BitVec 32} (hready : (r0.arrive t).BxReady h.val)
    (hword : custom1 0x1A false w.toNat = true) : exec (.bxWstat t h w) r0 =
      let s := r0.arrive t
      .next (s.setX h.val (bxD w.toNat) (s.windowStatus h.val (s.getX h.val (bxA w.toNat)))) := by
  rw [exec_bxWstat, execBxWstat, State.bvx_of_ready false hready hword]

theorem exec_bxWwait (t : Nat) (h : HartIdx) (w : BitVec 32) (how : WaitTrap) (s : State) :
    exec (.bxWwait t h w how) s = execBxWwait t h w how s := rfl

section
variable {r0 : State} {t : Nat} {h : HartIdx} {w : BitVec 32} {how : WaitTrap} (hready : (r0.arrive t).BxReady h.val)
  (hword : custom1 0x1B false w.toNat = true)
include hready hword

theorem exec_bxWwait_illegal (htw : how = .tw ∨ how = .none ∧
      ((r0.arrive t).hart h.val).mode ≠ .machine ∧ bit (((r0.arrive t).hart h.val).getCsr 0x300) 21 = true) :
    exec (.bxWwait t h w how) r0 = .next ((r0.arrive t).illegal h.val w.toNat) := by
  rw [exec_bxWwait, execBxWwait, State.bvx_of_ready false hready hword]
  rcases htw with rfl | ⟨rfl, htw⟩
  · rfl
  · simp only [if_pos htw]

theorem exec_bxWwait_virtual (htw : how = .vtw ∨ how = .none ∧
      ¬ (((r0.arrive t).hart h.val).mode ≠ .machine ∧ bit (((r0.arrive t).hart h.val).getCsr 0x300) 21 = true) ∧
      ((r0.arrive t).hart h.val).mode.virtual = true ∧ bit (((r0.arrive t).hart h.val).getCsr 0x600) 21 = true) :
    exec (.bxWwait t h w how) r0 = .next ((r0.arrive t).trap h.val 22 w.toNat) := by
  rw [exec_bxWwait, execBxWwait, State.bvx_of_ready false hready hword]
  rcases htw with rfl | ⟨rfl, htw, hvtw⟩
  · rfl
  · simp only [if_neg htw, if_pos hvtw]

theorem exec_bxWwait_wait
    (htw : ¬ (((r0.arrive t).hart h.val).mode ≠ .machine ∧ bit (((r0.arrive t).hart h.val).getCsr 0x300) 21 = true))
    (hvtw : ¬ (((r0.arrive t).hart h.val).mode.virtual = true ∧ bit (((r0.arrive t).hart h.val).getCsr 0x600) 21 = true)) :
    exec (.bxWwait t h w .none) r0 = .next (
      let s := r0.arrive t
      let n := s.getX h.val (bxA w.toNat)
      if s.waitEnds h.val n then s.setX h.val (bxD w.toNat) (s.windowStatus h.val n)
      else s.setHart h.val { s.hart h.val with waiting := some (n, bxD w.toNat) }) := by
  rw [exec_bxWwait, execBxWwait, State.bvx_of_ready false hready hword]
  simp only [if_neg htw, if_neg hvtw]
end

theorem exec_bxWwaitWake (t : Nat) (h : HartIdx) (s : State) : exec (.bxWwaitWake t h) s = execBxWwaitWake t h s := rfl

theorem exec_bxWwaitWake_of_over {r0 : State} {t k r : Nat} {h : HartIdx}
    (hwait : ((r0.arrive t).hart h.val).waiting = some (k, r)) (hgone : (r0.arrive t).hartGone h.val = false)
    (hend : (r0.arrive t).waitEnds h.val k = true) : exec (.bxWwaitWake t h) r0 =
      let s := r0.arrive t
      .next ((s.setHart h.val { s.hart h.val with waiting := none }).setX h.val r (s.windowStatus h.val k)) := by
  simp only [exec_bxWwaitWake, execBxWwaitWake, hwait, hgone, hend, Bool.not_true, Bool.or_self, Bool.false_eq_true, if_false]

/-- What a hart's waking leaves. -/
theorem State.wake_effect (s : State) (h r k : Nat) :
    let u := (s.setHart h { s.hart h with waiting := none }).setX h r k
    (u.getX h r = (if r = 0 then 0 else k % 2 ^ 64) ∧ (∀ j, j ≠ r → u.getX h j = s.getX h j) ∧
      ∀ i, i ≠ h → u.hart i = s.hart i) ∧ (u.hart h).waiting = none ∧ s.OnlyHart u h := by
  let z := s.setHart h { s.hart h with waiting := none }
  have hz : z.hart h = { s.hart h with waiting := none } := State.hart_setHart_same ..
  obtain ⟨⟨hget, hother, -⟩, honly⟩ := z.setX_put h r k
  have hs := (s.setHart_onlyHart h _).trans honly
  refine ⟨⟨hget, fun j hj => (hother j hj).trans ?_, hs.2⟩, ?_, hs⟩
  · rw [State.getX, hz, State.getX]
  · exact (congrArg Hart.waiting (z.setX_hart h r k) :).trans (congrArg Hart.waiting hz)

/-! ### WINDOW_FLAG_SET (07 R258, R260) -/

/-- A window after its write-back: the flag is set, and the solver side holds no buffer. -/
def WinSt.flagged (y : WinSt) : WinSt :=
  { y with
    writeBack := false
    flag := true
    lastCounted := y.counted
    bufs := y.bufs.map fun b => if b = .held .solver then .released .solver else b }

theorem exec_windowFlagSet {r0 : State} {t k : Nat} {p : PartIdx} (hw : ((r0.arrive t).win p.val k).writeBack = true) :
    exec (.windowFlagSet t p k) r0 = .next ((r0.arrive t).setWin p.val k ((r0.arrive t).win p.val k).flagged) := by
  have hexec : exec (.windowFlagSet t p k) r0 = execWindowFlagSet t p k r0 := rfl
  rw [hexec, execWindowFlagSet]
  simp only [hw, Bool.not_true, Bool.false_eq_true, if_false]
  rfl

/-- Settles O31: each row by its equation in that case, and by what its write leaves. -/
theorem couplingWindows : Obligations.CouplingWindows := by
  intro t h w r0 s x v n put
  refine ⟨fun hready => ⟨fun hword hout hheld => ?_, fun hword => ?_, fun how hword => ?_⟩,
    fun k r hwait hgone hend => ?_, fun p k hk hw => ?_⟩
  · have hexec := exec_bxWrel_of_idle hready hword hout hheld
    have hcode (c : Nat) (he : s.wrel h.val v = s.setX h.val (bxD v) c) :
        Does (.bxWrel t h w) r0 fun u => put (bxD v) c u ∧ s.OnlyHart u h.val :=
      ⟨_, hexec, he ▸ s.setX_put h.val (bxD v) c⟩
    refine ⟨fun hwin => hcode 4 (State.wrel_of_none hwin), fun p d hwin hn => ?_⟩
    have heq := State.wrel_of_some hwin
    refine ⟨fun hno => hcode 3 ?_, fun hold hwb => hcode 2 ?_, fun hold hwb hc => hcode 1 ?_, fun hold hwb hc => ?_⟩
    · exact heq.trans (if_pos hno)
    · exact heq.trans ((if_neg (ne_false_of_eq_true hold)).trans (if_pos hwb))
    · exact heq.trans ((if_neg (ne_false_of_eq_true hold)).trans ((if_neg (ne_true_of_eq_false hwb)).trans (if_pos hc)))
    · have hu := heq.trans ((if_neg (ne_false_of_eq_true hold)).trans ((if_neg (ne_true_of_eq_false hwb)).trans (if_neg hc)))
      exact ⟨_, hexec.trans (congrArg _ hu), s.countHart_effect h.val (bxD v) hn⟩
  · exact ⟨_, exec_bxWstat_of_ready hready hword, s.setX_put h.val (bxD v) (s.windowStatus h.val n)⟩
  · intro tW vtW
    refine ⟨fun htw => ?_, fun htw => ?_, fun htw htW hvtW => ?_⟩
    · exact ⟨_, exec_bxWwait_illegal hready hword htw, s.illegal_traps h.val w⟩
    · exact ⟨_, exec_bxWwait_virtual hready hword htw, s.trap_traps h.val (by decide) (w.isLt.trans (by decide))⟩
    · subst htw
      have hexec := exec_bxWwait_wait hready hword htW hvtW
      refine ⟨fun hend => ⟨_, hexec, ?_⟩, fun hend => ⟨_, hexec, ?_⟩⟩
      · rw [if_pos hend]
        exact s.setX_put h.val (bxD v) (s.windowStatus h.val n)
      · rw [if_neg (Bool.eq_false_iff.1 hend)]
        exact ⟨State.hart_setHart_same .., s.setHart_onlyHart h.val _⟩
  · exact ⟨_, exec_bxWwaitWake_of_over hwait hgone hend, s.wake_effect h.val r (s.windowStatus h.val k)⟩
  · refine ⟨_, exec_windowFlagSet hw, ?_⟩
    have hwin := State.win_setWin (s.win p.val k).flagged hk
    refine ⟨hwin, ?_, fun j hj => State.win_setWin_other _ _ hj, State.setWin_frame .., fun q hq => State.part_setWin_other _ _ hq⟩
    rw [State.solverHolds, hwin]
    simp [WinSt.flagged]

end Sys2Proof.Machine
end

section
namespace Sys2Proof.Machine

/-! ## Release quorum and the CSRs a hart writes (O32) -/

/-! ### WINDOW_QUORUM_WRITE (07 R256) -/

/-- The quorum write once it may look at its value. -/
def State.quorumRun (s : State) (p sub : Nat) (v : BitVec 16) : State × Bool :=
  let st := (s.part p).state
  if st = .armed ∨ st = .running ∨ v.toNat < 1 ∨ 256 < v.toNat then (s.event 0x0701 (ofPart p) [], false)
  else (s.odSet (0x2024 + p) sub v.toNat, true)

theorem exec_windowQuorumWrite (t : Nat) (q : Option Nat) (p : PartIdx) (sub : Nat) (v : BitVec 16) (s : State) :
    exec (.windowQuorumWrite t q p sub v) s =
      .next ((s.arrive t).command q (0x2024 + p.val) sub fun s => s.quorumRun p.val sub v) := rfl

theorem State.quorumRun_of_fit {s : State} {p : Nat} (sub : Nat) {v : BitVec 16} (ha : (s.part p).state ≠ .armed)
    (hr : (s.part p).state ≠ .running) (hlo : 1 ≤ v.toNat) (hhi : v.toNat ≤ 256) :
    s.quorumRun p sub v = (s.odSet (0x2024 + p) sub v.toNat, true) := if_neg (by simp [ha, hr]; omega)

theorem State.quorumRun_of_unfit {s : State} {p : Nat} (sub : Nat) {v : BitVec 16}
    (h : (s.part p).state = .armed ∨ (s.part p).state = .running ∨ v.toNat = 0 ∨ 256 < v.toNat) :
    s.quorumRun p sub v = (s.event 0x0701 (ofPart p) [], false) := if_pos (by rwa [Nat.lt_one_iff])

/-- What a command that stores one object leaves. -/
theorem State.odSet_done (s : State) {i0 j0 : Nat} (hj0 : j0 < 256) (v : Nat) : let u := (s.odSet i0 j0 v).answer stOk []
    u.ans.status = stOk ∧ u.odGet i0 j0 = v ∧ (∀ i j, j < 256 → (i, j) ≠ (i0, j0) → u.odGet i j = s.odGet i j) ∧
    { u.bare s with od := s.od } = s := by
  refine ⟨rfl, s.odGet_odSet_same i0 j0 v, fun i j hj hne => s.odGet_odSet_other i0 j0 v i j fun hkey => hne ?_, rfl⟩
  unfold odKey at hkey
  rw [Prod.mk.injEq]
  omega

/-! ### BX_CSR_WRITE (07 R236 to R238, R249, R261) -/

/-- A hart runs in a mode. -/
def State.inMode (s : State) (h : Nat) (m : HartMode) : State := s.setHart h { s.hart h with mode := m }

@[simp] theorem State.inMode_hart (s : State) (h : Nat) (m : HartMode) :
    (s.inMode h m).hart h = { s.hart h with mode := m } := State.hart_setHart_same ..

@[simp] theorem State.inMode_sameCycle (s : State) (h : Nat) (m : HartMode) (t : Nat) :
    (s.inMode h m).sameCycle t = s.sameCycle t := rfl

theorem exec_bxCsrWrite (t : Nat) (h : HartIdx) (csr : Nat) (v : BitVec 64) (priv : Nat) (s : State) :
    exec (.bxCsrWrite t h csr v priv) s = execBxCsrWrite t h csr v priv s := rfl

/-- A CSR of level 0 is reached in every mode. -/
theorem HartMode.csrFault_of_user (m : HartMode) {c : Nat} (h : csrLevel c = 0) : m.csrFault c = none := by
  rw [HartMode.csrFault, h]
  exact if_pos (Nat.zero_le _)

/-! What the CSRs that `bs` does not turn off read. -/

theorem State.csrRead_bxwmask (s : State) (h : Nat) : s.csrRead h 0x804 = some (s.hart h).bxwmask.toNat := rfl
theorem State.csrRead_bxwpend (s : State) (h : Nat) : s.csrRead h 0x805 = some (s.hart h).bxwpend.toNat := rfl
theorem State.csrRead_mip (s : State) (h : Nat) : s.csrRead h 0x344 =
    some (setBit (s.hart h).mip.toNat 16 ((s.hart h).bxwpend &&& (s.hart h).bxwmask != 0)) := rfl

/-- What a CSR write that is done leaves. -/
theorem State.csrWritten_effect {s s1 : State} {h : Nat} (y : Hart) (l : List Byte) (h1 : s.OnlyHart s1 h) :
    let u := (s1.setHart h y).answer stOk l
    u.hart h = y ∧ s.OnlyHart u h ∧ u.ans.status = stOk ∧ u.ans.data = l :=
  ⟨s1.hart_setHart_same h y, (h1.trans (s1.setHart_onlyHart h y)).answer stOk l, rfl, rfl⟩

section
variable {r0 : State} {t csr priv : Nat} {h : HartIdx} {v : BitVec 64} (hgone : (r0.arrive t).hartGone h.val = false)
include hgone

/-- A write that its mode refuses is an illegal instruction. -/
theorem does_csrWrite_of_fault (hf : (modeOf priv).csrFault csr = some 2) : Does (.bxCsrWrite t h csr v priv) r0 fun u =>
    ((r0.arrive t).inMode h.val (modeOf priv)).Traps u h.val 2 0 := by
  refine ⟨((r0.arrive t).inMode h.val (modeOf priv)).trap h.val 2 0, ?_, State.trap_traps _ _ (by decide) (by decide)⟩
  simp only [exec_bxCsrWrite, execBxCsrWrite, hgone, hf, Bool.false_eq_true, if_false]
  rfl

/-- A write of a CSR that there is not is an illegal instruction. -/
theorem does_csrWrite_of_none (hf : (modeOf priv).csrFault csr = none) (hguest : guestCsr csr = csr)
    (hread : ((r0.arrive t).inMode h.val (modeOf priv)).csrRead h.val csr = none) :
    Does (.bxCsrWrite t h csr v priv) r0 fun u => ((r0.arrive t).inMode h.val (modeOf priv)).Traps u h.val 2 0 := by
  refine ⟨((r0.arrive t).inMode h.val (modeOf priv)).trap h.val 2 0, ?_, State.trap_traps _ _ (by decide) (by decide)⟩
  unfold State.inMode at hread
  simp only [exec_bxCsrWrite, execBxCsrWrite, hgone, hf, hguest, ite_self, hread, Bool.false_eq_true, if_false]
  rfl

/-- A write of a read-only CSR is an illegal instruction. -/
theorem does_csrWrite_of_readOnly (hf : (modeOf priv).csrFault csr = none) (hro : csr / 1024 = 3) :
    Does (.bxCsrWrite t h csr v priv) r0 fun u => ((r0.arrive t).inMode h.val (modeOf priv)).Traps u h.val 2 0 := by
  refine ⟨((r0.arrive t).inMode h.val (modeOf priv)).trap h.val 2 0, ?_, State.trap_traps _ _ (by decide) (by decide)⟩
  simp only [exec_bxCsrWrite, execBxCsrWrite, hgone, hf, hro, Bool.false_eq_true, if_false, if_true]
  split <;> rfl

/-- A write of a CSR that there is answers what it held, and leaves the hart as the write of that CSR does. -/
theorem does_csrWrite {old : Nat} {y : Hart} (hf : (modeOf priv).csrFault csr = none) (hguest : guestCsr csr = csr)
    (hread : ((r0.arrive t).inMode h.val (modeOf priv)).csrRead h.val csr = some old) (hrw : csr / 1024 ≠ 3)
    (hwrite : ((r0.arrive t).inMode h.val (modeOf priv)).csrWrite h.val csr v =
      ((r0.arrive t).inMode h.val (modeOf priv)).setHart h.val y) :
    Does (.bxCsrWrite t h csr v priv) r0 fun u => u.hart h.val = y ∧ (r0.arrive t).OnlyHart u h.val ∧ u.ans.status = stOk ∧
      u.ans.data = bytesOf 8 ((((r0.arrive t).inMode h.val (modeOf priv)).csrRead h.val csr).getD 0) := by
  rw [hread]
  refine ⟨(((r0.arrive t).inMode h.val (modeOf priv)).setHart h.val y).answer stOk (bytesOf 8 old), ?_,
    State.csrWritten_effect y _ (State.setHart_onlyHart ..)⟩
  unfold State.inMode at hread hwrite ⊢
  simp only [exec_bxCsrWrite, execBxCsrWrite, hgone, hf, hguest, ite_self, hread, hrw, hwrite, Bool.false_eq_true, if_false]
end

theorem guestCsr_of_custom {csr : Nat} (hlo : 0x800 ≤ csr) : guestCsr csr = csr := by
  refine if_neg ?_
  simp
  omega

/-- Bits 17 to 19 of mip, the edge-raised interrupts, are those a write may clear. -/
theorem testBit_edgeIrqs : ∀ i < 64, edgeIrqs.testBit i = decide (17 ≤ i ∧ i ≤ 19) := by decide

/-- The interrupts that a write of mip leaves pending. -/
def Hart.mipAfter (x : Hart) (v : BitVec 64) : BitVec 64 :=
  x.mip &&& BitVec.ofNat 64 (2 ^ 64 - 1 - (edgeIrqs &&& (2 ^ 64 - 1 - v.toNat)))

theorem Hart.getLsbD_mipAfter (x : Hart) (v : BitVec 64) {i : Nat} (hi : i < 64) : (x.mipAfter v).getLsbD i =
    (x.mip.getLsbD i && (v.getLsbD i || !decide (17 ≤ i ∧ i ≤ 19))) := by
  have hlt : edgeIrqs &&& (2 ^ 64 - 1 - v.toNat) < 2 ^ 64 := Nat.and_lt_two_pow _ (by omega)
  have hmask : (2 ^ 64 - 1 - (edgeIrqs &&& (2 ^ 64 - 1 - v.toNat))).testBit i =
      !(decide (17 ≤ i ∧ i ≤ 19) && !v.toNat.testBit i) := by
    rw [Nat.sub_sub, Nat.add_comm 1, Nat.testBit_two_pow_sub_succ hlt, Nat.testBit_and, Nat.sub_sub, Nat.add_comm 1,
      Nat.testBit_two_pow_sub_succ v.isLt, testBit_edgeIrqs i hi]
    simp [hi]
  rw [Hart.mipAfter, BitVec.getLsbD_and, BitVec.getLsbD_ofNat, hmask]
  simp [hi, BitVec.getLsbD, Bool.or_comm]

/-! What a write of one CSR does to a hart. -/

section
variable {s : State} {h : Nat} {x : Hart} (hx : s.hart h = x) (v : BitVec 64)
include hx

theorem State.csrWrite_bxstart : s.csrWrite h 0x800 v = s.setHart h { x with bxstart := v.truncate 16 } := by
  subst hx
  rfl

theorem State.csrWrite_bxstat : s.csrWrite h 0x801 v = s.setHart h
    { x with bxff := v.getLsbD 0, bxbs := if x.mode = .machine then (v >>> 1).truncate 2 else x.bxbs } := by
  subst hx
  rfl

theorem State.csrWrite_bxhank : s.csrWrite h 0x802 v = s.setHart h { x with bxhank := v &&& 0x1FF } := by
  subst hx
  rfl

theorem State.csrWrite_bxscale : s.csrWrite h 0x803 v = s.setHart h { x with bxscale := v.truncate 16 } := by
  subst hx
  rfl

theorem State.csrWrite_bxwmask : s.csrWrite h 0x804 v = s.setHart h { x with bxwmask := v } := by
  subst hx
  rfl

theorem State.csrWrite_bxwpend_of_past (hc : s.sameCycle x.pendAt = false) :
    s.csrWrite h 0x805 v = s.setHart h { x with bxwpend := v } := by
  subst hx
  change s.writePend h v = _
  simp [State.writePend, hc]

/-- A bit of bxwpend set in the same cycle stays. -/
theorem State.csrWrite_bxwpend_of_now (hc : s.sameCycle x.pendAt = true) :
    s.csrWrite h 0x805 v = s.setHart h { x with bxwpend := v ||| (x.bxwpend &&& x.pendSet) } := by
  subst hx
  change s.writePend h v = _
  simp [State.writePend, hc]

theorem State.csrWrite_mip (hc : s.sameCycle x.mipAt = false) :
    s.csrWrite h 0x344 v = s.setHart h { x with mip := x.mipAfter v } := by
  subst hx
  change s.clearIrqs h edgeIrqs v.toNat = _
  simp [State.clearIrqs, hc, Hart.mipAfter]

theorem State.csrRead_of_on {csr : Nat} (hbs : x.bxbs ≠ 0) (hlo : 0x800 ≤ csr) (hhi : csr ≤ 0x803) :
    ∃ old, s.csrRead h csr = some old := by
  subst hx
  have hon : ¬ ((s.hart h).bxbs == 0) = true := mt beq_iff_eq.1 hbs
  obtain rfl | rfl | rfl | rfl : csr = 0x800 ∨ csr = 0x801 ∨ csr = 0x802 ∨ csr = 0x803 := by omega
  all_goals exact ⟨_, if_neg hon⟩

/-- The CSRs of BVX that `bs` turns off (R238). -/
theorem State.csrRead_of_off {csr : Nat} (hbs : x.bxbs = 0) (hlo : 0x800 ≤ csr) (hhi : csr ≤ 0x803) :
    s.csrRead h csr = none := by
  subst hx
  have hoff : ((s.hart h).bxbs == 0) = true := beq_iff_eq.2 hbs
  obtain rfl | rfl | rfl | rfl : csr = 0x800 ∨ csr = 0x801 ∨ csr = 0x802 ∨ csr = 0x803 := by omega
  all_goals exact if_pos hoff
end

/-- Settles O32: the quorum by what a command that stores or refuses leaves, each CSR by its read and its write. -/
theorem quorumAndCsrWrites : Obligations.QuorumAndCsrWrites := by
  refine ⟨fun t q p sub v r0 => ?_, fun t h v priv r0 => ?_⟩
  · intro s hsub href
    have hexec := exec_windowQuorumWrite t q p sub v r0
    refine ⟨fun ha hr hlo hhi => ⟨_, hexec, ?_⟩, fun hbad => ⟨_, hexec, ?_⟩⟩
    · rw [State.command_done href (State.quorumRun_of_fit sub ha hr hlo hhi)]
      exact s.odSet_done hsub _
    · rw [State.command_rejected href (State.quorumRun_of_unfit sub hbad)]
      exact ⟨rfl, s.event_count 0x0701 _ _, s.event_objectsKept _ _ _ (by decide)⟩
  · intro s hgone x s1 gives traps
    have hx : s1.hart h.val = x := State.hart_setHart_same ..
    have hgives {csr old : Nat} {y : Hart} (hlo : 0x800 ≤ csr) (hlevel : csrLevel csr = 0) (hrw : csr / 1024 ≠ 3)
        (hread : s1.csrRead h.val csr = some old) (hwrite : s1.csrWrite h.val csr v = s1.setHart h.val y) : gives csr y :=
      does_csrWrite hgone (HartMode.csrFault_of_user _ hlevel) (guestCsr_of_custom hlo) hread hrw hwrite
    refine ⟨fun hon => ?_, fun hoff csr hlo hhi => ?_, ?_, fun hc => ?_, fun hc => ?_, fun csr hlo hhi => ?_,
      fun hm hc => ?_, fun hm => ?_⟩
    · have hread {csr : Nat} (hlo : 0x800 ≤ csr) (hhi : csr ≤ 0x803) := (State.csrRead_of_on hx hon hlo hhi).choose_spec
      refine ⟨?_, ?_, ?_, ?_⟩
      · exact hgives (by decide) rfl (by decide) (hread (by decide) (by decide)) (State.csrWrite_bxstart hx v)
      · exact hgives (by decide) rfl (by decide) (hread (by decide) (by decide)) (State.csrWrite_bxstat hx v)
      · exact hgives (by decide) rfl (by decide) (hread (by decide) (by decide)) (State.csrWrite_bxhank hx v)
      · exact hgives (by decide) rfl (by decide) (hread (by decide) (by decide)) (State.csrWrite_bxscale hx v)
    · refine does_csrWrite_of_none hgone (HartMode.csrFault_of_user _ ?_) (guestCsr_of_custom hlo)
        (State.csrRead_of_off hx hoff hlo hhi)
      unfold csrLevel
      omega
    · exact hgives (by decide) rfl (by decide) (State.csrRead_bxwmask ..) (State.csrWrite_bxwmask hx v)
    · exact hgives (by decide) rfl (by decide) (State.csrRead_bxwpend ..) (State.csrWrite_bxwpend_of_past hx v hc)
    · exact hgives (by decide) rfl (by decide) (State.csrRead_bxwpend ..) (State.csrWrite_bxwpend_of_now hx v hc)
    · refine does_csrWrite_of_readOnly hgone (HartMode.csrFault_of_user _ ?_) (by omega)
      unfold csrLevel
      omega
    · have hmode : modeOf priv = .machine := hm
      obtain ⟨u, hexec, hhart, honly, -⟩ := does_csrWrite (csr := 0x344) (v := v) (y := { x with mip := x.mipAfter v }) hgone
        (by rw [hmode]; rfl) rfl (State.csrRead_mip ..) (by decide) (State.csrWrite_mip hx v hc)
      exact ⟨u, hexec, fun i hi => by rw [hhart]; exact x.getLsbD_mipAfter v hi, honly⟩
    · refine does_csrWrite_of_fault hgone ?_
      rcases hm with hm | hm
      all_goals
        have hmode : modeOf priv = _ := hm
        rw [hmode]
        rfl

end Sys2Proof.Machine
end

section
namespace Sys2Proof.Machine

/-! ## Memory keeps its canonical form (O3)

Memory is written by stores, copies, clears and filters, each of which keeps the form (Laws/Mem.lean). So each function of
the model has one lemma here, in the order of the definitions, under the model's files: F_mem where it leaves memory alone,
F_form where it may write it. -/

/-- The canonical form once more, under a name that simp does not rewrite. -/
def Mem.formed (m : Mem) : Bool := m.wf

@[congr] theorem Mem.formed_congr (m : Mem) : m.formed = m.formed := rfl

/-- m' has the canonical form when m has it: an implication, written as an equation, so that simp rewrites with it along a
chain of updates of any length with no condition to discharge at each. Whether m' has the form is wanted only where m has
it, so what stands after the or is never looked at. -/
abbrev Mem.FormKept (m m' : Mem) : Prop := m'.wf = (m.wf || m'.formed)

/-- The memory of u has its canonical form when that of s has it. -/
abbrev State.FormKept (s u : State) : Prop := Mem.FormKept s.mem u.mem

theorem Mem.FormKept.of {m m' : Mem} (h : m.wf = true → m'.wf = true) : m.FormKept m' := by
  cases hm : m.wf
  · simp [Mem.FormKept, Mem.formed, hm]
  · simp [Mem.FormKept, h hm, hm]

theorem State.FormKept.of {s u : State} (h : Mem.wf s.mem = true → Mem.wf u.mem = true) : s.FormKept u :=
  Mem.FormKept.of h

theorem State.FormKept.form {s u : State} (hk : s.FormKept u) (h : Mem.wf s.mem = true) : Mem.wf u.mem = true := by
  simp [hk, h]

@[simp] theorem Mem.wf_ite (c : Prop) [Decidable c] (a b : Mem) :
    Mem.wf (if c then a else b) = if c then Mem.wf a else Mem.wf b := apply_ite ..

@[simp] theorem foldl_mem {α : Type} (f : State → α → State) (h : ∀ s a, (f s a).mem = s.mem) (l : List α) (s : State) :
    (l.foldl f s).mem = s.mem := foldl_keeps State.mem f h l s

@[simp] theorem foldl_fst_mem {α β : Type} (f : State × β → α → State × β) (h : ∀ x a, (f x a).1.mem = x.1.mem)
    (l : List α) (x : State × β) : (l.foldl f x).1.mem = x.1.mem := foldl_keeps (·.1.mem) f h l x

@[simp] theorem forN_mem (f : State → Nat → State) (h : ∀ s a, (f s a).mem = s.mem) (n : Nat) (s : State) :
    (forN n s f).mem = s.mem := foldl_keeps State.mem f h _ s

theorem foldl_kept {α σ : Type} {P : σ → Prop} {f : σ → α → σ} (h : ∀ s a, P s → P (f s a)) (l : List α) {s : σ}
    (hs : P s) : P (l.foldl f s) := by
  induction l generalizing s with
  | nil => exact hs
  | cons a l ih => exact ih (h s a hs)

/-- The hypothesis names the state after a step, so that no fold over a long list is computed to compare two forms of
it. -/
theorem foldl_wf {α : Type} {f : State → α → State}
    (h : ∀ s a u, Mem.wf s.mem = true → f s a = u → Mem.wf u.mem = true) (l : List α) {s : State}
    (hm : Mem.wf s.mem = true) : Mem.wf (l.foldl f s).mem = true :=
  foldl_kept (P := fun s : State => Mem.wf s.mem = true) (fun s a hs => h s a _ hs rfl) l hm

theorem foldl_fst_wf {α β : Type} {f : State × β → α → State × β}
    (h : ∀ x a y, Mem.wf x.1.mem = true → f x a = y → Mem.wf y.1.mem = true) (l : List α) {x : State × β}
    (hm : Mem.wf x.1.mem = true) : Mem.wf (l.foldl f x).1.mem = true :=
  foldl_kept (P := fun x : State × β => Mem.wf x.1.mem = true) (fun x a hx => h x a _ hx rfl) l hm

theorem Mem.foldl_wf {α : Type} {f : Mem → α → Mem} (h : ∀ m a, Mem.wf m = true → Mem.wf (f m a) = true)
    (l : List α) {m : Mem} (hm : Mem.wf m = true) : Mem.wf (l.foldl f m) = true :=
  foldl_kept (P := fun m : Mem => Mem.wf m = true) h l hm

@[simp] theorem foldl_form {α : Type} (f : State → α → State)
    (h : ∀ s a, Mem.wf s.mem = true → Mem.wf (f s a).mem = true) (l : List α) (s : State) :
    s.FormKept (l.foldl f s) := .of (foldl_wf (fun s a _ hs e => e ▸ h s a hs) l)

@[simp] theorem foldl_fst_form {α β : Type} (f : State × β → α → State × β)
    (h : ∀ x a, Mem.wf x.1.mem = true → Mem.wf (f x a).1.mem = true) (l : List α) (x : State × β) :
    x.1.FormKept (l.foldl f x).1 := .of (foldl_fst_wf (fun x a _ hx e => e ▸ h x a hx) l)

@[simp] theorem forN_form (f : State → Nat → State)
    (h : ∀ s a, Mem.wf s.mem = true → Mem.wf (f s a).mem = true) (n : Nat) (s : State) :
    s.FormKept (forN n s f) := foldl_form f h _ s

@[simp] theorem Mem.foldl_form {α : Type} (f : Mem → α → Mem)
    (h : ∀ m a, Mem.wf m = true → Mem.wf (f m a) = true) (l : List α) (m : Mem) :
    m.FormKept (l.foldl f m) := .of (Mem.foldl_wf h l)

@[simp] theorem Mem.write_form (m : Mem) (k : Nat) (b : Byte) : m.FormKept (m.write k b) := .of (m.write_wf k b)

@[simp] theorem Mem.writeN_form (m : Mem) (k : Nat) (l : List Byte) : m.FormKept (m.writeN k l) := .of (m.writeN_wf k l)

@[simp] theorem Mem.clear_form (m : Mem) (lo n : Nat) : m.FormKept (m.clear lo n) := .of (m.clear_wf lo n)

@[simp] theorem Mem.copy_form (m : Mem) (src dst n : Nat) : m.FormKept (m.copy src dst n) := .of (m.copy_wf src dst n)

@[simp] theorem Mem.filter_form (m : Mem) (f : Host.Cell → Bool) : m.FormKept (m.filter f) := .of (m.filter_wfFrom f 0)

@[simp] theorem Mem.copyHist_form (m : Mem) (src dst : Nat) : m.FormKept (m.copyHist src dst) := .of fun hm => by
  simp +contextual [Mem.copyHist, hm]

/-- Whatever state comes next, its memory has the canonical form. -/
def FormNext (o : Host.Outcome State Fault Refusal) : Prop := ∀ u, o = .next u → Mem.wf u.mem = true

@[simp] theorem formNext_next {u : State} : FormNext (.next u) ↔ Mem.wf u.mem = true :=
  ⟨fun h => h u rfl, fun h v e => by cases e; exact h⟩

@[simp] theorem formNext_ite (c : Prop) [Decidable c] (a b : Host.Outcome State Fault Refusal) :
    FormNext (if c then a else b) ↔ if c then FormNext a else FormNext b := by split <;> rfl

/-! ### Machine/Mem.lean -/

@[simp] theorem State.setChannel_mem (s : State) (d ch : Nat) (x : Channel) : (s.setChannel d ch x).mem = s.mem := by
  simp [State.setChannel]

@[simp] theorem State.writePa_form (s : State) (pa : Nat) (l : List Byte) :
    s.FormKept (s.writePa pa l) := .of fun hm => by
  fun_cases State.writePa s pa l <;> simp [hm]

/-! ### Machine/Switch.lean -/

@[simp] theorem State.crossSwitch_mem (s : State) (d e cls vc part flits : Nat) :
    (s.crossSwitch d e cls vc part flits).mem = s.mem := by
  fun_cases State.crossSwitch s d e cls vc part flits <;> simp

/-! ### Machine/Ops.lean -/

@[simp] theorem State.putMem_form (s : State) (k : Nat) (l : List Byte) : s.FormKept (s.putMem k l) :=
  .of fun hm => Mem.writeN_wf _ _ _ hm

/-- Bytes put in parts keep the form when what puts them does. -/
@[simp] theorem State.putParts_form (s : State) (k : Nat) (l : List Byte) (put : State → Nat → List Byte → State)
    (h : ∀ s k l, Mem.wf s.mem = true → Mem.wf (put s k l).mem = true) :
    s.FormKept (s.putParts k l put) := .of fun hm => by
  have hbad (bad : List Nat) : Mem.wf (bad.foldl (fun s _ => s.dramBad (keyDie k) none []) s).mem = true := by simp [hm]
  fun_cases State.putParts s k l put
  case case1 => exact hbad _
  case case2 => exact h _ _ _ (hbad _)

@[simp] theorem State.reelStore_form (s : State) (p : Nat) (r : Reel) (o : Nat) (l : List Byte) :
    s.FormKept (s.reelStore p r o l) := .of fun hm => by
  fun_cases State.reelStore s p r o l
  case case1 => exact (State.putParts_form _ _ _ _ fun _ _ _ h => (State.putMem_form ..).form h).form hm
  case case2 => simp [hm]

@[simp] theorem State.reelPut_form (s : State) (p type units : Nat) (payload : List Nat) :
    s.FormKept (s.reelPut p type units payload) := .of fun hm => by
  simp [State.reelPut, hm]

@[simp] theorem State.reelWrite_form (s : State) (p type units : Nat) (payload : List Nat) :
    s.FormKept (s.reelWrite p type units payload) := .of fun hm => by
  simp [State.reelWrite, hm]

@[simp] theorem State.reel_form (s : State) (p type units : Nat) (payload : List Nat) :
    s.FormKept (s.reel p type units payload) := .of fun hm => by
  fun_cases State.reel s p type units payload <;> simp +zetaDelta [hm]

@[simp] theorem State.reelAll_form (s : State) (type units : Nat) (payload : List Nat) :
    s.FormKept (s.reelAll type units payload) := .of fun hm => by
  simp +contextual [State.reelAll, hm]

@[simp] theorem State.store_form (s : State) (k : Nat) (l : List Byte) : s.FormKept (s.store k l) :=
  .of fun hm => by rw [State.store_mem]; exact Mem.writeN_wf _ _ _ hm

@[simp] theorem State.storePa_form (s : State) (pa : Nat) (l : List Byte) :
    s.FormKept (s.storePa pa l) := .of fun hm => by
  fun_cases State.storePa s pa l
  case case1 => exact (State.putParts_form _ _ _ _ fun _ _ _ h => (State.store_form ..).form h).form hm
  case case2 => exact hm

@[simp] theorem State.c0Write_form (s : State) (p k : Nat) (l : List Byte) : s.FormKept (s.c0Write p k l) :=
  .of fun hm => by rw [State.c0Write_mem]; exact Mem.writeN_wf _ _ _ hm

@[simp] theorem State.freeBytes_mem (s : State) (n : Nat) : (s.freeBytes n).2.mem = s.mem := by simp [State.freeBytes]
@[simp] theorem State.freeWord_mem (s : State) : s.freeWord.2.mem = s.mem := by simp [State.freeWord]
@[simp] theorem State.clearSlot_mem (s : State) (n : Nat) : (s.clearSlot n).mem = s.mem := by simp [State.clearSlot]

@[simp] theorem State.dropDraftColls_mem (s : State) (p : Nat) : (s.dropDraftColls p).mem = s.mem := by
  simp [State.dropDraftColls]

@[simp] theorem State.repairLine_form (s : State) (p line : Nat) :
    s.FormKept (s.repairLine p line) := .of fun hm => by
  fun_cases State.repairLine s p line <;> simp [hm]

@[simp] theorem State.undoMemory_form (s : State) (p : Nat) : s.FormKept (s.undoMemory p) := .of fun hm => by
  simp +contextual [State.undoMemory, hm]

@[simp] theorem State.clearMarks_mem (s : State) (p : Nat) : (s.clearMarks p).mem = s.mem := by
  simp [State.clearMarks]

@[simp] theorem State.rollbackStats_form (s : State) (p : Nat) : s.FormKept (s.rollbackStats p) := .of fun hm => by
  have hclear (m : Mem) (k n : Nat) (h : Mem.wf m = true) :
      Mem.wf ((List.range n).foldl (fun m i => m.write (k + i) (memDefault (k + i))) m) = true :=
    Mem.foldl_wf (fun m _ h => m.write_wf _ _ h) _ h
  refine Mem.foldl_wf (fun m n h => Mem.foldl_wf (fun m t h => ?_) _ h) _ (by simpa using hm)
  dsimp only
  split
  · exact hclear _ _ _ (hclear _ _ _ (hclear _ _ _ h))
  · exact h

@[simp] theorem State.restoreStep_form (s : State) (p cause : Nat) :
    s.FormKept (s.restoreStep p cause) := .of fun hm => by
  fun_cases State.restoreStep s p cause <;> simp +zetaDelta [hm]

@[simp] theorem State.countTaint_mem (s : State) (p : Nat) : (s.countTaint p).mem = s.mem := by
  simp [State.countTaint]

@[simp] theorem State.rollback_form (s : State) (p cause : Nat) : s.FormKept (s.rollback p cause) := .of fun hm => by
  fun_cases State.rollback s p cause <;> simp +zetaDelta [hm]

/-! ### Machine/Source.lean -/

@[simp] theorem State.sendFlit_mem (s : State) (n : Nat) (e : Egress) : (s.sendFlit n e).1.mem = s.mem := by
  unfold State.sendFlit
  dsimp only
  split <;> simp

@[simp] theorem State.drainPort_mem (s : State) (n : Nat) : (s.drainPort n).mem = s.mem := by simp [State.drainPort]

@[simp] theorem State.sendPacket_mem (s : State) (charge : Option Nat) (p : Packet) :
    (s.sendPacket charge p).mem = s.mem := by
  fun_cases State.sendPacket s charge p <;> simp +zetaDelta

@[simp] theorem State.sendTile_mem (s : State) (p path slot roving index : Nat) (bytes : List Byte) :
    (s.sendTile p path slot roving index bytes).mem = s.mem := by
  simp [State.sendTile]

@[simp] theorem State.setSrcUnit_mem (s : State) (u : Nat) (x : Source) : (s.setSrcUnit u x).mem = s.mem := by
  simp [State.setSrcUnit]

@[simp] theorem State.launch_mem (s : State) (pkt : Packet) (dl : Deliver) : (s.launch pkt dl).mem = s.mem := by
  simp [State.launch]

@[simp] theorem State.issueReq_mem (s : State) (pkt : Packet) (dl : Deliver) : (s.issueReq pkt dl).mem = s.mem := by
  simp [State.issueReq]

@[simp] theorem State.faultRecord_mem (s : State) (p addr cause status path op tag unit : Nat) :
    (s.faultRecord p addr cause status path op tag unit).mem = s.mem := by
  fun_cases State.faultRecord s p addr cause status path op tag unit <;> simp +zetaDelta

@[simp] theorem State.storeDead_mem (s : State) (pkt : Packet) : (s.storeDead pkt).mem = s.mem := by
  simp [State.storeDead]

@[simp] theorem State.issueStores_mem (s : State) (base : Packet) (l : List Byte) :
    (s.issueStores base l).mem = s.mem := by
  simp [State.issueStores]

/-! ### Machine/DraftOps.lean -/

@[simp] theorem State.beginFlyers_mem (s : State) (p tick : Nat) : (s.beginFlyers p tick).mem = s.mem :=
  foldl_mem _ (fun _ _ => by simp) _ _

@[simp] theorem State.doffStore_form (s : State) (p i half off : Nat) (l : List Byte) :
    s.FormKept (s.doffStore p i half off l) := .of fun hm => by
  fun_cases State.doffStore s p i half off l <;> simp [hm]

@[simp] theorem State.doffStoreBoth_form (s : State) (p half off : Nat) (l : List Byte) :
    s.FormKept (s.doffStoreBoth p half off l) := .of fun hm => by
  simp [State.doffStoreBoth, hm]

@[simp] theorem State.clearScratch_mem (s : State) (p : Nat) : (s.clearScratch p).mem = s.mem := by
  simp [State.clearScratch]

@[simp] theorem State.beginStep_form (s : State) (p : Nat) : s.FormKept (s.beginStep p) := .of fun hm => by
  fun_cases State.beginStep s p <;> simp +zetaDelta [hm]

@[simp] theorem State.advance_form (s : State) (p k : Nat) : s.FormKept (s.advance p k) := .of fun hm => by
  fun_induction State.advance s p k
  case case4 ih => exact ih (by simp +zetaDelta [State.beginDraftTick_mem, hm])
  all_goals exact hm

@[simp] theorem State.syncDraft_form (s : State) (p : Nat) : s.FormKept (s.syncDraft p) := .of fun hm => by
  simp [State.syncDraft, hm]

/-! ### Machine/Cadence.lean -/

@[simp] theorem State.startTraining_mem (s : State) : s.startTraining.mem = s.mem := by simp [State.startTraining]
@[simp] theorem State.closeStage7_mem (s : State) : s.closeStage7.mem = s.mem := by simp [State.closeStage7]
@[simp] theorem State.endStage7_mem (s : State) : s.endStage7.mem = s.mem := by simp [State.endStage7]
@[simp] theorem State.acquire_mem (s : State) (b : CadSource) : (s.acquire b).mem = s.mem := by simp [State.acquire]
@[simp] theorem State.selectSource_mem (s : State) : s.selectSource.mem = s.mem := by simp [State.selectSource]

@[simp] theorem State.sendSyncs_mem (s : State) : s.sendSyncs.mem = s.mem := by
  fun_cases State.sendSyncs s
  case case1 => exact foldl_mem _ (fun _ _ => by simp) _ _
  case case2 => rfl

@[simp] theorem State.issueBoundary_form (s : State) : s.FormKept s.issueBoundary := .of fun hm => by
  simp +contextual [State.issueBoundary, hm]

@[simp] theorem State.refuseCount_mem (s : State) : s.refuseCount.mem = s.mem := by simp [State.refuseCount]

@[simp] theorem State.tickCore_form (s : State) (b : Nat) : s.FormKept (s.tickCore b) := .of fun hm => by
  fun_cases State.tickCore s b <;> simp +zetaDelta [hm]

@[simp] theorem State.ref10mBad_mem (s : State) : s.ref10mBad.mem = s.mem := by simp [State.ref10mBad]
@[simp] theorem State.treadleBad_mem (s : State) : s.treadleBad.mem = s.mem := by simp [State.treadleBad]

@[simp] theorem State.adoptPeriod_mem (s : State) (period : Nat) : (s.adoptPeriod period).mem = s.mem := by
  simp [State.adoptPeriod]

@[simp] theorem State.handover_mem (s : State) : s.handover.mem = s.mem := by simp [State.handover]

/-! ### Machine/Access.lean -/

/-- A request of the object dictionary keeps the form when what it runs does. -/
@[simp] theorem State.command_form (s : State) (q : Option Nat) (idx sub : Nat) (run : State → State × Bool)
    (h : ∀ s, Mem.wf s.mem = true → Mem.wf (run s).1.mem = true) :
    s.FormKept (s.command q idx sub run) := .of fun hm => by
  fun_cases State.command s q idx sub run
  case case1 => simp [hm]
  case case2 e => simp [fst_of_eq e, h s hm]

@[simp] theorem State.commandEv_form (s : State) (q : Option Nat) (idx sub code : Nat) (who : EvWho)
    (run : State → State × Bool) (h : ∀ s, Mem.wf s.mem = true → Mem.wf (run s).1.mem = true) :
    s.FormKept (s.commandEv q idx sub code who run) := .of fun hm => by
  fun_cases State.commandEv s q idx sub code who run
  case case3 | case4 => simp [fst_of_eq ‹run s = (_, _)›, h s hm]
  all_goals simp [hm]

@[simp] theorem State.endStartup_mem (s : State) (k : Nat) : (s.endStartup k).mem = s.mem := by
  simp [State.endStartup]

@[simp] theorem State.setOwn_mem (s : State) (region state domain path : Nat) :
    (s.setOwn region state domain path).mem = s.mem := by
  simp [State.setOwn]

@[simp] theorem State.forceOpen_mem (s : State) (region : Nat) : (s.forceOpen region).mem = s.mem := by
  simp [State.forceOpen]

/-! ### Machine/CollOps.lean -/

@[simp] theorem State.zeroGranules_form (s : State) (l : List Nat) : s.FormKept (s.zeroGranules l) := .of fun hm => by
  simp +contextual [State.zeroGranules, hm]

@[simp] theorem State.setColl_mem (s : State) (k : Nat) (c : Collective) : (s.setColl k c).mem = s.mem := by
  simp [State.setColl]

@[simp] theorem State.sendColl_mem (s : State) (p dst op cls : Nat) (data : List Byte) :
    (s.sendColl p dst op cls data).mem = s.mem := by
  simp [State.sendColl]

@[simp] theorem State.releaseStages_form (s : State) (c : Collective) :
    s.FormKept (s.releaseStages c) := .of fun hm => by
  simp [State.releaseStages, hm]

@[simp] theorem State.writeRecord_form (s : State) (c : Collective) (status failRank : Nat) :
    s.FormKept (s.writeRecord c status failRank) := .of fun hm => by
  simp [State.writeRecord, hm]

@[simp] theorem State.completeColl_form (s : State) (k status failRank : Nat) :
    s.FormKept (s.completeColl k status failRank) := .of fun hm => by
  fun_cases State.completeColl s k status failRank <;> simp +zetaDelta [hm]

@[simp] theorem State.nakAll_form (s : State) (k reason : Nat) : s.FormKept (s.nakAll k reason) := .of fun hm => by
  fun_cases State.nakAll s k reason <;> simp +zetaDelta [hm]

@[simp] theorem State.creelAbort_form (s : State) (p : Nat) : s.FormKept (s.creelAbort p) := .of fun hm => by
  simp +contextual [State.creelAbort, hm]

@[simp] theorem State.setVote_mem (s : State) (p : Nat) (ins : Fm (List Nat)) : (s.setVote p ins).mem = s.mem := by
  simp [State.setVote]

@[simp] theorem State.voteResult_form (s : State) (p : Nat) (w : List Nat) :
    s.FormKept (s.voteResult p w) := .of fun hm => by
  fun_cases State.voteResult s p w <;> simp [hm]

@[simp] theorem State.voteDown_form (s : State) (p : Nat) (g : Group) (w : List Nat) (n pos j : Nat) :
    s.FormKept (s.voteDown p g w n pos j) := .of fun hm => by
  induction n generalizing s pos j with
  | zero => exact hm
  | succ n ih =>
    refine foldl_wf ?_ _ hm
    rintro s c _ h rfl
    dsimp only
    split
    · split
      · exact ih _ _ _ h
      · simp [h]
    · simp [h]

@[simp] theorem State.voteUp_form (s : State) (p : Nat) (g : Group) (w : List Nat) (mine : Bool) (n pos : Nat)
    (j : Option Nat) : s.FormKept (s.voteUp p g w mine n pos j) := .of fun hm => by
  fun_induction State.voteUp s p g w mine n pos j
  case case4 ih => exact ih (by simp +zetaDelta [hm])
  all_goals simp +zetaDelta [hm]

@[simp] theorem State.sendVote_form (s : State) (p : Nat) (commit : Bool) :
    s.FormKept (s.sendVote p commit) := .of fun hm => by
  simp [State.sendVote, hm]

@[simp] theorem State.withholdAndRollback_form (s : State) (p cause : Nat) :
    s.FormKept (s.withholdAndRollback p cause) := .of fun hm => by
  fun_cases State.withholdAndRollback s p cause
  simp +zetaDelta [hm]

/-! ### Machine/Fault.lean -/

@[simp] theorem State.setRail_mem (s : State) (r mv : Nat) : (s.setRail r mv).mem = s.mem := by simp [State.setRail]

@[simp] theorem State.imageWrite_form (s : State) (n : Nat) (e : Nat × Byte) :
    s.FormKept (s.imageWrite n e) := .of fun hm => by
  refine foldl_wf ?_ _ hm
  rintro s i _ h rfl
  split <;> simp [h]

@[simp] theorem State.seedImage_form (s : State) (p n : Nat) (i : Nat × Nat) :
    s.FormKept (s.seedImage p n i) := .of fun hm => by
  fun_cases State.seedImage s p n i <;> simp +contextual +zetaDelta [hm]

@[simp] theorem State.applyDelta_form (s : State) (p n : Nat) : s.FormKept (s.applyDelta p n) := .of fun hm => by
  refine foldl_wf ?_ _ (foldl_wf ?_ _ hm)
  · rintro s i _ h rfl
    split <;> simp [h]
  · rintro s e _ h rfl
    simp [h]

@[simp] theorem State.loseImages_mem (s : State) (aperture : Nat) : (s.loseImages aperture).mem = s.mem := by
  simp [State.loseImages]

@[simp] theorem State.moveSlot_mem (s : State) (n old new : Nat) : (s.moveSlot n old new).mem = s.mem := by
  simp -implicitDefEqProofs [State.moveSlot]

@[simp] theorem State.movePersist_mem (s : State) (p n old new : Nat) : (s.movePersist p n old new).mem = s.mem := by
  simp [State.movePersist]

@[simp] theorem State.fillSpare_form (s : State) (p n new b : Nat) :
    s.FormKept (s.fillSpare p n new b) := .of fun hm => by
  simp +contextual [State.fillSpare, hm]

@[simp] theorem State.spareActivated_mem (s : State) (p : Nat) (a : Nat × Nat × Nat) :
    (s.spareActivated p a).mem = s.mem := by
  simp [State.spareActivated]

@[simp] theorem State.spareExhausted_mem (s : State) (n die : Nat) : (s.spareExhausted n die).mem = s.mem := by
  fun_cases State.spareExhausted s n die <;> simp +zetaDelta

@[simp] theorem State.spindleLost_form (s : State) (die : Nat) : s.FormKept (s.spindleLost die) := .of fun hm => by
  fun_cases State.spindleLost s die <;> simp +contextual +zetaDelta [hm]

@[simp] theorem State.detectedFault_form (s : State) (p : Nat) (die : Option Nat) :
    s.FormKept (s.detectedFault p die) := .of fun hm => by
  fun_cases State.detectedFault s p die <;> simp +zetaDelta [hm]

@[simp] theorem State.failureWarning_mem (s : State) : s.failureWarning.mem = s.mem := by simp [State.failureWarning]

@[simp] theorem State.warnIfReached_mem (s : State) (sub before after : Nat) :
    (s.warnIfReached sub before after).mem = s.mem := by
  simp [State.warnIfReached]

/-! ### Machine/Draft.lean -/

@[simp] theorem State.draftReject_mem (s : State) (p reason : Nat) : (s.draftReject p reason).1.mem = s.mem := by
  simp [State.draftReject]

@[simp] theorem State.takeRanges_mem (s : State) (p : Nat) : (s.takeRanges p).mem = s.mem :=
  foldl_mem _ (fun _ _ => by split <;> simp) _ _

@[simp] theorem State.setLiveSets_mem (s : State) (p : Nat) : (s.setLiveSets p).mem = s.mem :=
  foldl_mem _ (fun _ _ => by simp) _ _

@[simp] theorem State.extendMr_mem (s : State) (k : Nat) (data : List Byte) : (s.extendMr k data).mem = s.mem := by
  simp [State.extendMr]

@[simp] theorem State.installDraft_form (s : State) (p : Nat) (d : Draft) :
    s.FormKept (s.installDraft p d) := .of fun hm => by
  simp [State.installDraft, hm]

@[simp] theorem State.abortDraft_mem (s : State) (p : Nat) : (s.abortDraft p).mem = s.mem := by
  simp [State.abortDraft, State.toLoaded_mem]

@[simp] theorem State.emptyDraft_form (s : State) (p : Nat) : s.FormKept (s.emptyDraft p) := .of fun hm => by
  fun_cases State.emptyDraft s p <;> simp +zetaDelta [hm]

@[simp] theorem State.startBuddies_form (s : State) (p seeding : Nat) (d : Draft) :
    s.FormKept (s.startBuddies p seeding d) := .of fun hm => by
  simp +contextual [State.startBuddies, hm]

@[simp] theorem State.startReplay_mem (s : State) (p : Nat) : (s.startReplay p).mem = s.mem := by
  fun_cases State.startReplay s p
  case case3 =>
    simp +zetaDelta
    split <;> simp
  all_goals rfl

@[simp] theorem State.seedRecord_form (s : State) (p : Nat) : s.FormKept (s.seedRecord p) := .of fun hm => by
  simp [State.seedRecord, hm]

@[simp] theorem State.setWin_mem (s : State) (p w : Nat) (x : WinSt) : (s.setWin p w x).mem = s.mem := by
  simp [State.setWin]

@[simp] theorem State.windowIn_form (s : State) (p w b : Nat) (x : WinDesc) :
    s.FormKept (s.windowIn p w b x) := .of fun hm => by
  simp [State.windowIn, hm]

@[simp] theorem State.passed_mem (s : State) (p w : Nat) (side : Side) (x : WinSt) :
    (s.passed p w side x).mem = s.mem := by
  fun_cases State.passed s p w side x <;> simp

@[simp] theorem State.passGate_form (s : State) (p : Nat) (d : Draft) (g : GateDesc) :
    s.FormKept (s.passGate p d g) := .of fun hm => by
  fun_cases State.passGate s p d g <;> simp +zetaDelta [hm]

@[simp] theorem State.reuseGate_mem (s : State) (p : Nat) (g : GateDesc) : (s.reuseGate p g).mem = s.mem := by
  fun_cases State.reuseGate s p g <;> simp +zetaDelta

@[simp] theorem State.lateEvent_mem (s : State) (p : Nat) (g : GateDesc) : (s.lateEvent p g).mem = s.mem := by
  simp [State.lateEvent]

@[simp] theorem State.lateRecord_form (s : State) (p i : Nat) (g : GateDesc) (outcome slip : Nat) :
    s.FormKept (s.lateRecord p i g outcome slip) := .of fun hm => by
  simp [State.lateRecord, hm]

@[simp] theorem State.failStep_form (s : State) (p : Nat) : s.FormKept (s.failStep p) := .of fun hm => by
  simp [State.failStep, hm]

@[simp] theorem State.lateGates_form (s : State) (p : Nat) (late : List (Nat × GateDesc)) (slip : Nat) :
    s.FormKept (s.lateGates p late slip) := .of fun hm => by
  simp +contextual [State.lateGates, hm]

@[simp] theorem State.gates_form (s : State) (p : Nat) (d : Draft) (l : List (Nat × GateDesc)) :
    s.FormKept (s.gates p d l) := .of fun hm => by
  simp +contextual [State.gates, hm]

@[simp] theorem State.replayGates_form (s : State) (p : Nat) (d : Draft) (l : List (Nat × GateDesc)) :
    s.FormKept (s.replayGates p d l) := .of fun hm => by
  fun_cases State.replayGates s p d l <;> simp +contextual +zetaDelta [hm]

@[simp] theorem State.resume_mem (s : State) (p : Nat) : (s.resume p).mem = s.mem := by simp [State.resume]

@[simp] theorem State.retest_form (s : State) (p : Nat) (d : Draft) : s.FormKept (s.retest p d) := .of fun hm => by
  simp +contextual [State.retest, hm]

@[simp] theorem State.replayRetest_form (s : State) (p : Nat) (d : Draft) :
    s.FormKept (s.replayRetest p d) := .of fun hm => by
  simp +contextual [State.replayRetest, hm]

/-! ### Machine/Lines.lean -/

@[simp] theorem State.setStack_mem (s : State) (d : Nat) (x : Stack) : (s.setStack d x).mem = s.mem := by
  simp [State.setStack]

@[simp] theorem State.eraseOne_mem (s : State) (d ch k : Nat) : (s.eraseOne d ch k).mem = s.mem := by
  fun_cases State.eraseOne s d ch k <;> simp

@[simp] theorem State.eraseIn_mem (s : State) (d k : Nat) (chs : List Nat) : (s.eraseIn d k chs).mem = s.mem := by
  simp [State.eraseIn]

@[simp] theorem State.markDramLost_mem (s : State) (d k : Nat) : (s.markDramLost d k).mem = s.mem := by
  simp [State.markDramLost]

@[simp] theorem State.eraseDie_mem (s : State) (d ch k : Nat) : (s.eraseDie d ch k).mem = s.mem := by
  simp [State.eraseDie]

@[simp] theorem State.countSymbols_mem (s : State) (d k n : Nat) : (s.countSymbols d k n).mem = s.mem := by
  simp [State.countSymbols]

@[simp] theorem State.readLine_mem (s : State) (line : Nat) : (s.readLine line).1.mem = s.mem := by
  fun_cases State.readLine s line <;> simp

@[simp] theorem State.markColumn_mem (s : State) (d bank col : Nat) : (s.markColumn d bank col).mem = s.mem := by
  simp [State.markColumn]

@[simp] theorem State.countColumn_mem (s : State) (k col : Nat) : (s.countColumn k col).mem = s.mem := by
  simp [State.countColumn]

@[simp] theorem State.sramCorrected_mem (s : State) (k col : Nat) : (s.sramCorrected k col).mem = s.mem := by
  simp [State.sramCorrected]

@[simp] theorem State.readWords_mem (s : State) (k n : Nat) : (s.readWords k n).1.mem = s.mem := by
  simp [State.readWords]

@[simp] theorem State.readLines_mem (s : State) (k n : Nat) : (s.readLines k n).1.mem = s.mem := by
  simp [State.readLines]

@[simp] theorem State.readCheck_mem (s : State) (k n : Nat) : (s.readCheck k n).1.mem = s.mem := by
  simp [State.readCheck]

@[simp] theorem State.scanned_mem (s : State) (pa n : Nat) : (s.scanned pa n).mem = s.mem := by
  fun_cases State.scanned s pa n
  case case2 | case3 => simp [fst_of_eq ‹_ = (_, _)›]
  case case1 => simp

@[simp] theorem State.stationRefused_form (s : State) (code p n st pa : Nat) :
    s.FormKept (s.stationRefused code p n st pa) := .of fun hm => by
  simp [State.stationRefused, hm]

@[simp] theorem State.metBad_form (s : State) (p n k : Nat) (bad : List Nat) (det : List EvField) :
    s.FormKept (s.metBad p n k bad det) := .of fun hm => by
  simp [State.metBad, hm]

@[simp] theorem State.c0Read_form (s : State) (p n st pa len : Nat) (det : List EvField) :
    s.FormKept (s.c0Read p n st pa len det).1 := .of fun hm => by
  fun_cases State.c0Read s p n st pa len det
  case case2 | case3 => simp [hm, fst_of_eq ‹_ = (_, _)›]
  case case1 => simp [hm]

@[simp] theorem State.c0Store_form (s : State) (p n st pa : Nat) (l : List Byte) :
    s.FormKept (s.c0Store p n st pa l).1 := .of fun hm => by
  fun_cases State.c0Store s p n st pa l <;> simp [hm]

/-! ### Machine/Stats.lean -/

@[simp] theorem State.recCheck_form (s : State) (p n t : Nat) (det : List EvField) :
    s.FormKept (s.recCheck p n t det).1 := .of fun hm => by
  fun_cases State.recCheck s p n t det
  case case2 | case3 => simp [hm, fst_of_eq ‹_ = (_, _)›]
  case case1 => simp [hm]

@[simp] theorem State.setMark_mem (s : State) (n t : Nat) (m : StatMark) : (s.setMark n t m).mem = s.mem := by
  simp [State.setMark]

@[simp] theorem State.delayedScale_mem (s : State) (n t : Nat) (f : Flt) : (s.delayedScale n t f).1.mem = s.mem := by
  fun_cases State.delayedScale s n t f <;> simp

@[simp] theorem State.accumulate_form (s : State) (p n t : Nat) (x : TileStats) (codes : List Nat) (band : List Byte)
    : s.FormKept (s.accumulate p n t x codes band) := .of fun hm => by
  fun_cases State.accumulate s p n t x codes band <;> simp +zetaDelta [hm]

@[simp] theorem State.addStats_form (s : State) (p n t : Nat) (x : TileStats) (codes : List Nat) (band : List Byte) :
    s.FormKept (s.addStats p n t x codes band) := .of fun hm => by
  fun_cases State.addStats s p n t x codes band <;> simp [hm, fst_of_eq ‹_ = (_, _)›]

@[simp] theorem State.statsCheck_form (s : State) (p : Nat) : s.FormKept (s.statsCheck p).1 := .of fun hm => by
  refine foldl_fst_wf ?_ _ hm
  rintro x n _ h rfl
  refine foldl_fst_wf ?_ _ h
  rintro x t _ h rfl
  split <;> simp [h]

@[simp] theorem State.commitStats_form (s : State) (p : Nat) : s.FormKept (s.commitStats p) := .of fun hm => by
  refine foldl_wf ?_ _ (by simpa using hm)
  rintro s n _ h rfl
  refine foldl_wf ?_ _ h
  rintro s t _ h rfl
  split <;> simp [h]

@[simp] theorem State.convertHanked_mem (s : State) (n t fmt index : Nat) (rm : Nat → Rm) (bounded : Bool)
    (extra : Cnt) (xs : List Num) : (s.convertHanked n t fmt index rm bounded extra xs).1.mem = s.mem := by
  simp [State.convertHanked]

@[simp] theorem State.convertTile_mem (s : State) (n t fmt index : Nat) (rm : Nat → Rm) (bounded : Bool) (extra : Cnt)
    (xs : List Num) : (s.convertTile n t fmt index rm bounded extra xs).1.mem = s.mem := by
  simp [State.convertTile]

@[simp] theorem State.countTile_form (s : State) (p n : Nat) (m : Made) :
    s.FormKept (s.countTile p n m) := .of fun hm => by
  simp [State.countTile, hm]

/-! ### Machine/Reach.lean -/

@[simp] theorem State.whoEvent_mem (s : State) (code : Nat) (w : Who) (pa : Nat) :
    (s.whoEvent code w pa).mem = s.mem := by
  simp [State.whoEvent]

@[simp] theorem State.ownVerdict_mem (s : State) (w : Who) (a : Acc) (pa k : Nat) :
    (s.ownVerdict w a pa k).1.mem = s.mem := by
  fun_cases State.ownVerdict s w a pa k <;> simp

@[simp] theorem State.verdict_mem (s : State) (w : Who) (a : Acc) (pa : Nat) : (s.verdict w a pa).1.mem = s.mem := by
  fun_cases State.verdict s w a pa <;> simp

@[simp] theorem State.snoopFor_mem (s : State) (w : Who) (pa n : Nat) : (s.snoopFor w pa n).1.mem = s.mem := by
  fun_cases State.snoopFor s w pa n <;> simp

@[simp] theorem State.loadPiece_mem (s : State) (w : Who) (lane off pa n : Nat) :
    (s.loadPiece w lane off pa n).1.mem = s.mem := by
  fun_cases State.loadPiece s w lane off pa n
  case case1 h1 _ _ h2 _ | case2 h1 _ _ h2 _ _ => simp +zetaDelta [fst_of_eq h1, fst_of_eq h2]
  case case3 h => simp [fst_of_eq h]

@[simp] theorem State.loadFrom_mem (s : State) (w : Who) (lane off pa n : Nat) :
    (s.loadFrom w lane off pa n).1.mem = s.mem := by
  fun_cases State.loadFrom s w lane off pa n
  case case1 => simp [fst_of_eq ‹_ = (_, _)›]
  case case2 => simp +zetaDelta [fst_of_eq ‹_ = (_, _)›]

@[simp] theorem State.loadLocal_mem (s : State) (w : Who) (lane pa n : Nat) :
    (s.loadLocal w lane pa n).1.mem = s.mem := by
  simp [State.loadLocal]

@[simp] theorem State.statsWord_form (s : State) (k i mask v : Nat) :
    s.FormKept (s.statsWord k i mask v) := .of fun hm => by
  simp [State.statsWord, hm]

@[simp] theorem State.statsStore_form (s : State) (n d o : Nat) (l : List Byte) :
    s.FormKept (s.statsStore n d o l).1 := .of fun hm => by
  refine foldl_fst_wf ?_ _ hm
  rintro x j _ h rfl
  dsimp only
  split
  · split <;> simp [h]
  · split <;> simp [h]

@[simp] theorem State.storePiece_form (s : State) (w : Who) (a : Acc) (pa : Nat) (l : List Byte) :
    s.FormKept (s.storePiece w a pa l).1 := .of fun hm => by
  fun_cases State.storePiece s w a pa l
  case case1 h1 _ _ _ _ _ _ _ h2 => simp [hm, fst_of_eq h1, fst_of_eq h2]
  case case2 | case5 => simp [hm, fst_of_eq ‹_ = (_, _)›]
  case case3 h1 _ _ h2 _ _ | case4 h1 _ _ h2 _ _ => simp [hm, fst_of_eq h1, fst_of_eq h2]

@[simp] theorem State.storeLocal_form (s : State) (w : Who) (pa : Nat) (l : List Byte) :
    s.FormKept (s.storeLocal w pa l).1 := .of fun hm => by
  fun_cases State.storeLocal s w pa l
  case case1 e => simp [fst_of_eq e, hm]
  case case2 e r => exact foldl_fst_wf (by rintro x j _ h rfl; simp [h]) _ (by simp [fst_of_eq e, hm])

@[simp] theorem State.storeRequest_form (s : State) (w : Who) (pa : Nat) (l : List Byte) :
    s.FormKept (s.storeRequest w pa l).1 := .of fun hm => by
  fun_cases State.storeRequest s w pa l
  case case1 h =>
    obtain ⟨e, -, he⟩ := List.exists_of_findSome?_eq_some h
    split at he
    · next hv => cases he; simp [hm, fst_of_eq hv]
    · cases he
  case case2 => exact (State.storeLocal_form ..).form hm

@[simp] theorem State.amoLocal_form (s : State) (w : Who) (op pa n : Nat) (operands : List Byte) :
    s.FormKept (s.amoLocal w op pa n operands).1 := .of fun hm => by
  fun_cases State.amoLocal s w op pa n operands
  case case1 => simp [hm, fst_of_eq ‹_ = (_, _)›]
  case case2 h1 _ _ h2 _ _ h3 _ => simp [hm, fst_of_eq h1, fst_of_eq h2, fst_of_eq h3]
  case case3 h1 _ _ h2 _ _ h3 _ _ _ _ _ _ _ _ _ _ h4 => simp [hm, fst_of_eq h1, fst_of_eq h2, fst_of_eq h3,
    fst_of_eq h4]
  case case4 h1 _ _ h2 _ _ h3 _ _ _ _ _ _ _ _ => simp [hm, fst_of_eq h1, fst_of_eq h2, fst_of_eq h3]
  case case5 h1 _ _ h2 _ _ h3 _ _ _ _ => simp [hm, fst_of_eq h1, fst_of_eq h2, fst_of_eq h3]
  case case6 h1 _ _ _ h2 => simp [hm, fst_of_eq h1, fst_of_eq h2]

/-! ### Machine/Priv.lean -/

@[simp] theorem State.trap_mem (s : State) (h cause tval : Nat) : (s.trap h cause tval).mem = s.mem := by
  simp [State.trap]

/-! ### Machine/Request.lean -/

@[simp] theorem State.setX_mem (s : State) (h r v : Nat) : (s.setX h r v).mem = s.mem := by simp [State.setX]

@[simp] theorem State.setF_mem (s : State) (h r size v : Nat) : (s.setF h r size v).mem = s.mem := by
  simp [State.setF]

@[simp] theorem State.setVBytes_mem (s : State) (h r off : Nat) (l : List Byte) :
    (s.setVBytes h r off l).mem = s.mem := by
  fun_cases State.setVBytes s h r off l
  exact foldl_mem _ (fun _ _ => by simp) _ _

@[simp] theorem State.setGather_mem (s : State) (h j : Nat) (g : Gather) : (s.setGather h j g).mem = s.mem := by
  simp [State.setGather]

@[simp] theorem State.gatherDone_form (s : State) (h j i : Nat) (l : List Byte) (status cause : Nat) :
    s.FormKept (s.gatherDone h j i l status cause) := .of fun hm => by
  fun_cases State.gatherDone s h j i l status cause <;> simp +zetaDelta [hm]

@[simp] theorem State.deliver_form (s : State) (dl : Deliver) (status cause : Nat) (l : List Byte) :
    s.FormKept (s.deliver dl status cause l) := .of fun hm => by
  fun_cases State.deliver s dl status cause l <;> simp [hm]

@[simp] theorem State.finish_form (s : State) (pkt : Packet) (dl : Deliver) (status cause : Nat) (l : List Byte) :
    s.FormKept (s.finish pkt dl status cause l) := .of fun hm => by
  simp [State.finish, hm]

@[simp] theorem State.failNow_form (s : State) (pkt : Packet) (dl : Deliver) (status cause : Nat) :
    s.FormKept (s.failNow pkt dl status cause) := .of fun hm => by
  simp [State.failNow, hm]

@[simp] theorem State.headChange_mem (s : State) (path : Nat) : (s.headChange path).mem = s.mem := by
  simp [State.headChange]

@[simp] theorem State.failMember_form (s : State) (path : Nat) : s.FormKept (s.failMember path) := .of fun hm => by
  simp +contextual [State.failMember, hm]

@[simp] theorem State.markDead_form (s : State) (path : Nat) : s.FormKept (s.markDead path) := .of fun hm => by
  fun_cases State.markDead s path <;> simp +zetaDelta [hm]

@[simp] theorem State.clearDead_mem (s : State) (path : Nat) : (s.clearDead path).mem = s.mem := by
  simp [State.clearDead]

@[simp] theorem State.deadEvent_mem (s : State) (pkt : Packet) : (s.deadEvent pkt).mem = s.mem := by
  simp [State.deadEvent]

@[simp] theorem State.failDead_form (s : State) (pkt : Packet) (dl : Deliver) :
    s.FormKept (s.failDead pkt dl) := .of fun hm => by
  simp [State.failDead, hm]

@[simp] theorem State.releaseHeld_form (s : State) (u : Nat) : s.FormKept (s.releaseHeld u) := .of fun hm => by
  simp +contextual [State.releaseHeld, hm]

@[simp] theorem State.complete_form (s : State) (u tag status cause : Nat) (l : List Byte) :
    s.FormKept (s.complete u tag status cause l) := .of fun hm => by
  fun_cases State.complete s u tag status cause l <;> simp +zetaDelta [hm]

@[simp] theorem State.request_form (s : State) (pkt : Packet) (path : Nat) (dl : Deliver) :
    s.FormKept (s.request pkt path dl) := .of fun hm => by
  fun_cases State.request s pkt path dl <;> simp [hm]

@[simp] theorem State.localFault_form (s : State) (h op pa len status cause : Nat) :
    s.FormKept (s.localFault h op pa len status cause) := .of fun hm => by
  fun_cases State.localFault s h op pa len status cause <;> simp [hm]

/-! ### Machine/Fabric.lean -/

@[simp] theorem State.ownApply_mem (s : State) (path domain region word target : Nat) :
    (s.ownApply path domain region word target).1.mem = s.mem := by
  fun_cases State.ownApply s path domain region word target <;> simp

@[simp] theorem State.ctlCheck_mem (s : State) (w : Who) (pa : Nat) : (s.ctlCheck w pa).1.mem = s.mem := by
  fun_cases State.ctlCheck s w pa <;> simp

@[simp] theorem State.ownServe_mem (s : State) (w : Who) (path domain pa : Nat) (data : List Byte) :
    (s.ownServe w path domain pa data).1.mem = s.mem := by
  fun_cases State.ownServe s w path domain pa data
  case case1 h _ | case3 _ h => simp [fst_of_eq h]
  case case2 h1 _ _ _ h2 => simp [fst_of_eq h1, fst_of_eq h2]

@[simp] theorem State.ownSend_form (s : State) (h : Nat) (here : Bool) (path pa len : Nat) (dl : Deliver)
    (data : List Byte) : s.FormKept (s.ownSend h here path pa len dl data) := .of fun hm => by
  unfold State.ownSend
  dsimp only
  split
  · simp [hm]
  · split <;> simp [hm]

@[simp] theorem State.endGiving_mem (s : State) (k : Packet) : (s.endGiving k).mem = s.mem := by
  simp [State.endGiving]

@[simp] theorem State.ctlLoad_form (s : State) (h a size : Nat) (dl : Deliver) :
    s.FormKept (s.ctlLoad h a size dl) := .of fun hm => by
  fun_cases State.ctlLoad s h a size dl <;> simp [hm]

@[simp] theorem State.breakRes_mem (s : State) (h pa n : Nat) : (s.breakRes h pa n).mem = s.mem := by
  simp [State.breakRes]

@[simp] theorem State.solverStore_form (s : State) (h a pa : Nat) (l : List Byte) :
    s.FormKept (s.solverStore h a pa l) := .of fun hm => by
  fun_cases State.solverStore s h a pa l
  case case1 e | case2 e => simp [fst_of_eq e, hm]
  case case5 => exact foldl_wf (by rintro s i _ h rfl; simp [h]) _ hm
  all_goals simp [hm]

@[simp] theorem State.solverAmo_form (s : State) (h a pa size rd op : Nat) (l : List Byte) :
    s.FormKept (s.solverAmo h a pa size rd op l) := .of fun hm => by
  fun_cases State.solverAmo s h a pa size rd op l
  case case1 | case2 => simp [hm, fst_of_eq ‹_ = (_, _)›]
  all_goals simp [hm]

@[simp] theorem State.pushFence_mem (s : State) (u : Nat) (next : Option (Packet × Deliver))
    (peers : List (Nat × Nat × Nat)) (here : Bool) : (s.pushFence u next peers here).mem = s.mem := by
  simp [State.pushFence]

@[simp] theorem State.fenceDone_form (s : State) (h : Nat) : s.FormKept (s.fenceDone h) := .of fun hm => by
  unfold State.fenceDone
  dsimp only
  split
  · exact hm
  · split
    · exact hm
    · split <;> split <;> simp [hm]

@[simp] theorem State.ownIssue_form (s : State) (h a rd word : Nat) :
    s.FormKept (s.ownIssue h a rd word) := .of fun hm => by
  fun_cases State.ownIssue s h a rd word <;> simp [hm]

@[simp] theorem State.gatherDesc_mem (s : State) (h pa : Nat) : (s.gatherDesc h pa).1.mem = s.mem := by
  fun_cases State.gatherDesc s h pa
  case case2 | case3 => simp [fst_of_eq ‹_ = (_, _)›]
  case case1 => simp

@[simp] theorem State.gatherList_mem (s : State) (h addr count : Nat) :
    (s.gatherList h addr count).1.mem = s.mem := by
  fun_cases State.gatherList s h addr count <;> simp [fst_of_eq ‹_ = (_, _)›]

@[simp] theorem State.gatherElem_form (s : State) (h j i lane : Nat) (e : Nat × Nat) :
    s.FormKept (s.gatherElem h j i lane e) := .of fun hm => by
  fun_cases State.gatherElem s h j i lane e
  case case1 | case2 => simp +zetaDelta [hm, fst_of_eq ‹_ = (_, _)›]
  case case3 => simp [hm, fst_of_eq ‹_ = (_, _)›]
  case case4 => simp [hm]

@[simp] theorem State.snoopAll_mem (s : State) (h : Nat) (l : List (Nat × Nat)) : (s.snoopAll h l).1.mem = s.mem := by
  simp [State.snoopAll]

@[simp] theorem State.gatherStart_form (s : State) (h rd desc : Nat) :
    s.FormKept (s.gatherStart h rd desc) := .of fun hm => by
  have hsnoop {u v : State} {l b} (e : u.snoopAll h l = (v, b)) (hu : Mem.wf u.mem = true) : Mem.wf v.mem = true := by
    simp [fst_of_eq e, hu]
  have hdesc {u v : State} {r} (e : u.gatherDesc h desc = (v, r)) (hu : Mem.wf u.mem = true) : Mem.wf v.mem = true := by
    simp [fst_of_eq e, hu]
  have hlist {u v : State} {l n r} (e : u.gatherList h l n = (v, r)) (hu : Mem.wf u.mem = true) :
      Mem.wf v.mem = true := by
    simp [fst_of_eq e, hu]
  fun_cases State.gatherStart s h rd desc
  case case1 | case2 | case3 => simp [hm]
  case case4 h1 => simp [hsnoop h1 hm]
  case case5 h1 _ h2 => simp [hdesc h2 (hsnoop h1 hm)]
  case case6 h1 _ _ h2 _ _ h3 => simp [hsnoop h3 (hdesc h2 (hsnoop h1 hm))]
  case case7 h1 _ _ h2 _ _ h3 _ h4 => simp [hlist h4 (hsnoop h3 (hdesc h2 (hsnoop h1 hm)))]
  case case8 h1 _ _ h2 _ _ h3 _ _ h4 _ h5 => simp [hsnoop h5 (hlist h4 (hsnoop h3 (hdesc h2 (hsnoop h1 hm))))]
  case case9 h1 _ _ h2 _ _ _ h3 _ _ h4 _ h5 _ =>
    have hall := hsnoop h5 (hlist h4 (hsnoop h3 (hdesc h2 (hsnoop h1 hm))))
    refine (congrArg Mem.wf (State.setX_mem ..)).trans (foldl_wf ?_ _ (by simpa +zetaDelta using hall))
    rintro s i _ h rfl
    simp [h]

@[simp] theorem State.ctlAmo_form (s : State) (h a size rd op word : Nat) :
    s.FormKept (s.ctlAmo h a size rd op word) := .of fun hm => by
  fun_cases State.ctlAmo s h a size rd op word <;> simp [hm]

@[simp] theorem State.heard_mem (s : State) (k : Packet) : (s.heard k).mem = s.mem := by simp [State.heard]

@[simp] theorem State.respond_mem (s : State) (k : Packet) (status cause : Nat) (l : List Byte) :
    (s.respond k status cause l).mem = s.mem := by
  simp [State.respond]

@[simp] theorem State.fabricRecord_form (s : State) (p : Nat) (k : Packet) :
    s.FormKept (s.fabricRecord p k) := .of fun hm => by
  simp [State.fabricRecord, hm]

@[simp] theorem State.perform_form (s : State) (k : Packet) : s.FormKept (s.perform k).1 := .of fun hm => by
  fun_cases State.perform s k
  case case2 => simp +zetaDelta [hm]
  case case5 | case6 | case7 =>
    rename State × Option (List Byte × Nat × Nat) => r
    have hr : Mem.wf r.1.mem = true := by
      dsimp only [r]
      split
      · split <;> next e => simp [fst_of_eq e, hm]
      · simp [hm]
    clear_value r
    simp_all
  all_goals exact hm

@[simp] theorem State.setOrd_mem (s : State) (key : Nat) (x : OrdSrc) : (s.setOrd key x).mem = s.mem := by
  simp [State.setOrd]

@[simp] theorem State.ordersLost_mem (s : State) : s.ordersLost.mem = s.mem := by simp [State.ordersLost]

@[simp] theorem State.applyOne_form (s : State) (key : Nat) (k : Packet) :
    s.FormKept (s.applyOne key k).1 := .of fun hm => by
  fun_cases State.applyOne s key k
  case case2 | case3 => simp [hm, fst_of_eq ‹_ = (_, _)›]
  case case1 => simp [hm]

@[simp] theorem State.drainHeld_form (s : State) (key n : Nat) : s.FormKept (s.drainHeld key n) := .of fun hm => by
  fun_induction State.drainHeld s key n
  case case3 h ih => exact ih (by simp [hm, fst_of_eq h])
  case case4 h => simp [hm, fst_of_eq h]
  all_goals exact hm

@[simp] theorem State.holdReq_mem (s : State) (key : Nat) (k : Packet) : (s.holdReq key k).mem = s.mem := by
  simp [State.holdReq]

@[simp] theorem State.orderedHere_form (s : State) (k : Packet) : s.FormKept (s.orderedHere k) := .of fun hm => by
  fun_cases State.orderedHere s k
  case case6 | case7 | case8 => simp +zetaDelta [hm, fst_of_eq ‹State.applyOne _ _ _ = (_, _)›]
  all_goals simp +zetaDelta [hm]

@[simp] theorem State.ordered_form (s : State) (k : Packet) : s.FormKept (s.ordered k) := .of fun hm => by
  fun_cases State.ordered s k <;> simp +zetaDelta [hm]

@[simp] theorem State.slotWaits_mem (s : State) (dl : Deliver) : (s.slotWaits dl).1.mem = s.mem := by
  fun_cases State.slotWaits s dl <;> simp

/-! ### Machine/Commit.lean -/

@[simp] theorem State.doffFail_mem (s : State) (p : Nat) : (s.doffFail p).mem = s.mem := by simp [State.doffFail]

@[simp] theorem State.writeShard_form (s : State) (p kind fmt orig layout tensor slot rowOff colOff rows cols : Nat)
    (data : List Byte) :
    s.FormKept (s.writeShard p kind fmt orig layout tensor slot rowOff colOff rows cols data) := .of fun hm => by
  fun_cases State.writeShard s p kind fmt orig layout tensor slot rowOff colOff rows cols data <;> simp +zetaDelta [hm]

@[simp] theorem State.writeSlotStates_form (s : State) (p : Nat) :
    s.FormKept (s.writeSlotStates p) := .of fun hm => by
  fun_cases State.writeSlotStates s p <;> simp +contextual +zetaDelta [hm]

@[simp] theorem State.decideDoff_mem (s : State) (p next : Nat) : (s.decideDoff p next).mem = s.mem := by
  simp [State.decideDoff]

@[simp] theorem State.sealDeltas_form (s : State) (p : Nat) : s.FormKept (s.sealDeltas p) := .of fun hm => by
  simp +contextual [State.sealDeltas, hm]

@[simp] theorem State.commitStep_form (s : State) (p : Nat) (d : Draft) :
    s.FormKept (s.commitStep p d) := .of fun hm => by
  simp +contextual [State.commitStep, hm]

@[simp] theorem State.afterCommit_form (s : State) (p : Nat) (d : Draft) :
    s.FormKept (s.afterCommit p d) := .of fun hm => by
  fun_cases State.afterCommit s p d <;> simp [State.toLoaded_mem, hm]

@[simp] theorem State.lateRelease_mem (s : State) (p t c : Nat) : (s.lateRelease p t c).mem = s.mem := by
  simp [State.lateRelease]

@[simp] theorem State.grantHost_mem (s : State) (p : Nat) (h : HeldOut) : (s.grantHost p h).mem = s.mem := by
  simp [State.grantHost]

@[simp] theorem State.releaseBuffers_mem (s : State) (p : Nat) : (s.releaseBuffers p).mem = s.mem := by
  simp [State.releaseBuffers]

@[simp] theorem State.releaseTiles_mem (s : State) (p : Nat) : (s.releaseTiles p).mem = s.mem := by
  simp [State.releaseTiles]

@[simp] theorem State.drivePulse_mem (s : State) : s.drivePulse.mem = s.mem := by simp [State.drivePulse]

@[simp] theorem State.signatureFault_form (s : State) (p n tick : Nat) :
    s.FormKept (s.signatureFault p n tick) := .of fun hm => by
  simp [State.signatureFault, hm]

/-! ### Machine/Flyer.lean -/

@[simp] theorem State.placeFault_form (s : State) (code p n tick pos : Nat) :
    s.FormKept (s.placeFault code p n tick pos) := .of fun hm => by
  simp [State.placeFault, hm]

@[simp] theorem State.cmdFault_form (s : State) (i : Issued) (code : Nat) :
    s.FormKept (s.cmdFault i code) := .of fun hm => by
  simp [State.cmdFault, hm]

@[simp] theorem State.atFault_form (s : State) (c : StCmd) (code : Nat) :
    s.FormKept (s.atFault c code) := .of fun hm => by
  simp [State.atFault, hm]

@[simp] theorem State.invalid_form (s : State) (i : Issued) : s.FormKept (s.invalid i) := .of fun hm => by
  simp [State.invalid, hm]

@[simp] theorem State.atInvalid_form (s : State) (c : StCmd) : s.FormKept (s.atInvalid c) := .of fun hm => by
  simp [State.atInvalid, hm]

@[simp] theorem State.issueAt_form (s : State) (p : Nat) (c : Cmd) (op : Nat) :
    s.FormKept (s.issueAt p c op).1 := .of fun hm => by
  simp [State.issueAt, hm]

@[simp] theorem State.readSreg_form (s : State) (i : Issued) (r : Nat) :
    s.FormKept (s.readSreg i r).1 := .of fun hm => by
  fun_cases State.readSreg s i r <;> simp [hm]

@[simp] theorem State.readSregs_form (s : State) (i : Issued) (l : List Nat) :
    s.FormKept (s.readSregs i l).1 := .of fun hm => by
  fun_induction State.readSregs s i l
  case case1 => exact hm
  case case2 h => simp [fst_of_eq h, hm]
  case case3 h _ h' ih | case4 h _ _ h' ih => exact fst_of_eq h' ▸ ih (by simp [fst_of_eq h, hm])

@[simp] theorem State.landSreg_mem (s : State) (i : Issued) (c : Cmd) (v mask : Nat) :
    (s.landSreg i c v mask).mem = s.mem := by
  simp [State.landSreg]

@[simp] theorem State.sLoad_form (s : State) (i : Issued) (c : Cmd) : s.FormKept (s.sLoad i c) := .of fun hm => by
  fun_cases State.sLoad s i c
  case case2 | case3 => simp [hm, fst_of_eq ‹_ = (_, _)›]
  case case1 => simp [hm]

@[simp] theorem State.sStore_form (s : State) (i : Issued) (c : Cmd) : s.FormKept (s.sStore i c) := .of fun hm => by
  fun_cases State.sStore s i c
  case case2 | case3 => simp [hm, fst_of_eq ‹_ = (_, _)›]
  case case1 => simp [hm]

@[simp] theorem State.sOp_form (s : State) (i : Issued) (c : Cmd) (g : Nat → Nat → Option Nat) :
    s.FormKept (s.sOp i c g) := .of fun hm => by
  fun_cases State.sOp s i c g <;> simp [hm, fst_of_eq ‹_ = (_, _)›]

@[simp] theorem State.setBase_form (s : State) (i : Issued) (c : Cmd) : s.FormKept (s.setBase i c) := .of fun hm => by
  fun_cases State.setBase s i c <;> simp [hm]

@[simp] theorem State.dispatch_mem (s : State) (i : Issued) (c : Cmd) (a b : Nat) :
    (s.dispatch i c a b).mem = s.mem := by
  simp [State.dispatch]

@[simp] theorem State.dispatch0_mem (s : State) (i : Issued) (c : Cmd) : (s.dispatch0 i c).mem = s.mem := by
  simp [State.dispatch0]

@[simp] theorem State.dispatch1_form (s : State) (i : Issued) (c : Cmd) :
    s.FormKept (s.dispatch1 i c) := .of fun hm => by
  fun_cases State.dispatch1 s i c <;> simp [hm, fst_of_eq ‹_ = (_, _)›]

@[simp] theorem State.dispatch2_form (s : State) (i : Issued) (c : Cmd) :
    s.FormKept (s.dispatch2 i c) := .of fun hm => by
  fun_cases State.dispatch2 s i c <;> simp [hm, fst_of_eq ‹_ = (_, _)›]

@[simp] theorem State.queueAt_form (s : State) (c : StCmd) : s.FormKept (s.queueAt c) := .of fun hm => by
  simp [State.queueAt, hm]

@[simp] theorem State.occupy_mem (s : State) (c : StCmd) (cycles : Nat) : (s.occupy c cycles).mem = s.mem := by
  simp [State.occupy]

@[simp] theorem State.takeTile_mem {s u : State} {p n st r : Nat} {q : QTile} (h : s.takeTile p n st r = some (u, q))
    : u.mem = s.mem := by
  revert h
  fun_cases State.takeTile s p n st r
  case case1 => simp
  case case2 =>
    rintro h
    cases h
    simp +zetaDelta

@[simp] theorem State.underrun_form (s : State) (p n st r tick pos : Nat) :
    s.FormKept (s.underrun p n st r tick pos) := .of fun hm => by
  simp [State.underrun, hm]

@[simp] theorem State.consume_form (s : State) (p n st r tick pos : Nat) :
    s.FormKept (s.consume p n st r tick pos).1 := .of fun hm => by
  fun_cases State.consume s p n st r tick pos
  case case1 h => rw [State.takeTile_mem h]; exact hm
  case case2 => simp [hm]

@[simp] theorem State.takeLane_mem (s : State) (p n st r from_ cycles : Nat) :
    (s.takeLane p n st r from_ cycles).mem = s.mem := by
  simp [State.takeLane]

@[simp] theorem State.holdMem_mem (s : State) (c : StCmd) (cycles : Nat) : (s.holdMem c cycles).mem = s.mem := by
  simp [State.holdMem]

@[simp] theorem State.fillRange_form (s : State) (c : StCmd) (base size : Nat) :
    s.FormKept (s.fillRange c base size) := .of fun hm => by
  simp [State.fillRange, hm]

@[simp] theorem State.copyRange_form (s : State) (c : StCmd) (base size : Nat) :
    s.FormKept (s.copyRange c base size) := .of fun hm => by
  fun_cases State.copyRange s c base size
  case case2 => simp +zetaDelta [hm]
  case case3 | case4 => simp +zetaDelta [hm, fst_of_eq ‹_ = (_, _)›]
  case case1 => simp [hm]

@[simp] theorem State.startMem_form (s : State) (c : StCmd) : s.FormKept (s.startMem c) := .of fun hm => by
  fun_cases State.startMem s c <;> simp [hm]

@[simp] theorem State.startMark_form (s : State) (c : StCmd) : s.FormKept (s.startMark c) := .of fun hm => by
  simp [State.startMark, hm]

@[simp] theorem State.digestTile_form (s : State) (p : Nat) (t : Tile) :
    s.FormKept (s.digestTile p t) := .of fun hm => by
  fun_cases State.digestTile s p t <;> simp +zetaDelta [hm]

@[simp] theorem State.finishShard_form (s : State) (p n : Nat) (r : Take) :
    s.FormKept (s.finishShard p n r) := .of fun hm => by
  fun_cases State.finishShard s p n r <;> simp +zetaDelta [hm]

@[simp] theorem State.setWhorl_mem (s : State) (n w : Nat) (x : Whorl) : (s.setWhorl n w x).mem = s.mem := by
  simp [State.setWhorl]

@[simp] theorem State.finishImport_form (s : State) (p n st : Nat) (r : Take) :
    s.FormKept (s.finishImport p n st r) := .of fun hm => by
  simp [State.finishImport, hm]

@[simp] theorem State.finishContribution_mem (s : State) (n : Nat) (r : Take) :
    (s.finishContribution n r).mem = s.mem := by
  fun_cases State.finishContribution s n r <;> simp

@[simp] theorem State.finishTake_form (s : State) (p n st : Nat) (r : Take) :
    s.FormKept (s.finishTake p n st r) := .of fun hm => by
  fun_cases State.finishTake s p n st r <;> simp [hm]

@[simp] theorem State.holdTile_mem (s : State) (n st : Nat) (t : Tile) : (s.holdTile n st t).mem = s.mem := by
  simp [State.holdTile]

@[simp] theorem State.feed_form (s : State) (p n st k : Nat) : s.FormKept (s.feed p n st k) := .of fun hm => by
  fun_induction State.feed s p n st k
  case case3 ih | case7 ih => exact ih (by simp +zetaDelta [hm])
  all_goals simp [hm]

@[simp] theorem State.addTake_form (s : State) (c : StCmd) (roving want per : Nat) (desc : List Nat) :
    s.FormKept (s.addTake c roving want per desc) := .of fun hm => by
  simp [State.addTake, hm]

@[simp] theorem State.startDigest_form (s : State) (c : StCmd) : s.FormKept (s.startDigest c) := .of fun hm => by
  fun_cases State.startDigest s c <;> simp [hm]

@[simp] theorem State.startShard_form (s : State) (c : StCmd) : s.FormKept (s.startShard c) := .of fun hm => by
  fun_cases State.startShard s c
  case case3 | case4 | case5 => simp [hm, fst_of_eq ‹_ = (_, _)›]
  all_goals simp [hm]

/-! ### Machine/Whorl.lean -/

@[simp] theorem State.startSetup_mem (s : State) (c : StCmd) : (s.startSetup c).mem = s.mem := by
  simp [State.startSetup]

@[simp] theorem State.readBank_form (s : State) (p n w b tick pos : Nat) :
    s.FormKept (s.readBank p n w b tick pos).1 := .of fun hm => by
  simp [State.readBank, hm]

@[simp] theorem State.tellSticky_mem (s : State) (n w b : Nat) : (s.tellSticky n w b).mem = s.mem := by
  fun_cases State.tellSticky s n w b <;> simp

@[simp] theorem State.produce_mem (s : State) (p r ready : Nat) (t : Tile) : (s.produce p r ready t).mem = s.mem := by
  simp [State.produce]

@[simp] theorem State.useOut_mem (s : State) (c : StCmd) (cycles : Nat) : (s.useOut c cycles).mem = s.mem := by
  simp [State.useOut]

@[simp] theorem State.startAccOut_form (s : State) (c : StCmd) : s.FormKept (s.startAccOut c) := .of fun hm => by
  fun_cases State.startAccOut s c
  case case2 => simp +zetaDelta [hm, fst_of_eq ‹_ = (_, _)›]
  case case3 => simp [hm, fst_of_eq ‹_ = (_, _)›]
  case case1 => simp [hm]

@[simp] theorem State.startAccIn_form (s : State) (c : StCmd) : s.FormKept (s.startAccIn c) := .of fun hm => by
  simp [State.startAccIn, hm]

@[simp] theorem State.startBatt_form (s : State) (c : StCmd) : s.FormKept (s.startBatt c) := .of fun hm => by
  fun_cases State.startBatt s c
  case case3 => simp [hm, fst_of_eq ‹_ = (_, _)›]
  case case4 h1 _ h2 => simp [hm, fst_of_eq h1, fst_of_eq h2]
  case case5 h1 _ _ h2 _ _ _ _ _ _ => simp +zetaDelta [hm, fst_of_eq h1, fst_of_eq h2]
  all_goals simp [hm]

@[simp] theorem State.startOther_form (s : State) (c : StCmd) : s.FormKept (s.startOther c) := .of fun hm => by
  simp [State.startOther, hm]

@[simp] theorem State.popWhorl_mem (s : State) (n w : Nat) : (s.popWhorl n w).mem = s.mem := by simp [State.popWhorl]

@[simp] theorem State.startWhorl_form (s : State) (n w : Nat) : s.FormKept (s.startWhorl n w) := .of fun hm => by
  fun_cases State.startWhorl s n w <;> simp [hm]

@[simp] theorem State.whorlArrive_form (s : State) (c : StCmd) : s.FormKept (s.whorlArrive c) := .of fun hm => by
  simp [State.whorlArrive, hm]

@[simp] theorem State.portTiles_form (s : State) (c : StCmd) (hold : Bool) (r count : Nat) (portB : Bool) :
    s.FormKept (s.portTiles c hold r count portB).1 := .of fun hm => by
  fun_cases State.portTiles s c hold r count portB
  case case4 | case5 => simp [hm, fst_of_eq ‹_ = (_, _)›]
  case case6 h1 _ _ h2 => simp [hm, fst_of_eq h1, fst_of_eq h2]
  case case7 h1 _ _ _ h2 => simp [hm, fst_of_eq h1, fst_of_eq h2]
  all_goals simp [hm]

@[simp] theorem State.startMma_form (s : State) (c : StCmd) : s.FormKept (s.startMma c) := .of fun hm => by
  fun_cases State.startMma s c
  case case4 => simp [hm, fst_of_eq ‹_ = (_, _)›]
  case case5 h1 _ h2 => simp [hm, fst_of_eq h1, fst_of_eq h2]
  case case6 h1 _ _ h2 _ => simp [hm, fst_of_eq h1, fst_of_eq h2]
  case case7 h1 _ _ h2 _ _ _ _ => simp [hm, fst_of_eq h1, fst_of_eq h2]
  all_goals simp [hm]

@[simp] theorem State.countRerun_mem (s : State) (n : Nat) : (s.countRerun n).mem = s.mem := by
  simp [State.countRerun]

@[simp] theorem State.pauseIssue_mem (s : State) (p cycles : Nat) : (s.pauseIssue p cycles).mem = s.mem := by
  fun_cases State.pauseIssue s p cycles <;> simp

@[simp] theorem State.stepMismatch_form (s : State) (p n w : Nat) (e : TileStep) (es : List TileStep) :
    s.FormKept (s.stepMismatch p n w e es) := .of fun hm => by
  simp [State.stepMismatch, hm]

@[simp] theorem State.endStep_form (s : State) (p n w : Nat) (e : TileStep) (es : List TileStep) (r : StepCheck) :
    s.FormKept (s.endStep p n w e es r) := .of fun hm => by
  fun_cases State.endStep s p n w e es r
  case case2 | case3 | case4 => simp [hm, fst_of_eq ‹_ = (_, _)›]
  case case1 => simp [hm]

/-! ### Machine/Coll.lean -/

@[simp] theorem State.modColl_mem (s : State) (k : Nat) (f : Collective → Collective) :
    (s.modColl k f).mem = s.mem := by
  fun_cases State.modColl s k f <;> simp

@[simp] theorem State.modStage_mem (s : State) (k seg depth : Nat) (f : Stage → Stage) :
    (s.modStage k seg depth f).mem = s.mem := by
  simp [State.modStage]

@[simp] theorem State.nak_mem (s : State) (k : Packet) (reason : Nat) : (s.nak k reason).mem = s.mem := by
  simp [State.nak]

@[simp] theorem State.collCheck_mem (s : State) (k : Packet) : (s.collCheck k).1.mem = s.mem := by
  simp [State.collCheck]

@[simp] theorem State.openColl_mem (s : State) (h : ChunkHead) (draft : Bool) : (s.openColl h draft).mem = s.mem := by
  fun_cases State.openColl s h draft <;> simp

@[simp] theorem State.sendChunk_mem (s : State) (k dst depth : Nat) (down : Bool) (chunk rank : Nat) (l : List Byte)
    (taint : Bool) : (s.sendChunk k dst depth down chunk rank l taint).mem = s.mem := by
  fun_cases State.sendChunk s k dst depth down chunk rank l taint <;> simp +zetaDelta

@[simp] theorem State.sendLaunch_mem (s : State) (k dst depth : Nat) (down : Bool) (seg rank : Nat) (l : List Byte) :
    (s.sendLaunch k dst depth down seg rank l).mem = s.mem := by
  fun_cases State.sendLaunch s k dst depth down seg rank l <;> simp +zetaDelta

@[simp] theorem State.taint_mem (s : State) (k chunk depth : Nat) : (s.taint k chunk depth).mem = s.mem := by
  simp [State.taint]

@[simp] theorem State.claimStage_form (s : State) (k j seg tick : Nat) :
    s.FormKept (s.claimStage k j seg tick) := .of fun hm => by
  fun_cases State.claimStage s k j seg tick <;> simp +zetaDelta [hm]

@[simp] theorem State.claimFirst_form (s : State) (k j tick : Nat) :
    s.FormKept (s.claimFirst k j tick) := .of fun hm => by
  simp [State.claimFirst, hm]

@[simp] theorem State.launchUp_form (s : State) (k tick n pos j : Nat) :
    s.FormKept (s.launchUp k tick n pos j) := .of fun hm => by
  fun_induction State.launchUp s k tick n pos j
  case case5 ih => exact ih (by simp +zetaDelta [hm])
  all_goals simp +zetaDelta [hm]

@[simp] theorem State.emitUp_mem (s : State) (k seg pos j i : Nat) (l : List Byte) (taint : Bool) :
    (s.emitUp k seg pos j i l taint).mem = s.mem := by
  fun_cases State.emitUp s k seg pos j i l taint <;> simp +zetaDelta

@[simp] theorem State.emitDown_mem (s : State) (k seg pos j i : Nat) (l : List Byte) (taint : Bool) :
    (s.emitDown k seg pos j i l taint).mem = s.mem := by
  simp [State.emitDown]

@[simp] theorem State.collRead_mem (s : State) (pa n : Nat) : (s.collRead pa n).1.mem = s.mem := by
  refine foldl_fst_mem _ (fun x e => ?_) _ _
  split
  · rfl
  · split
    next h => split <;> simp [fst_of_eq h]

@[simp] theorem State.sourceChunk_mem (s : State) (c : Collective) (i : Nat) : (s.sourceChunk c i).1.mem = s.mem := by
  fun_cases State.sourceChunk s c i
  case case3 => simp [fst_of_eq ‹_ = (_, _)›]
  all_goals simp

@[simp] theorem State.loneFold_mem (s : State) (c : Collective) (g : Group) (i : Nat) :
    (s.loneFold c g i).1.mem = s.mem := by
  simp [State.loneFold]

@[simp] theorem State.pumpMember_mem (s : State) (k seg : Nat) : (s.pumpMember k seg).mem = s.mem := by
  fun_cases State.pumpMember s k seg <;> simp

@[simp] theorem State.pumpUp_mem (s : State) (k seg j : Nat) : (s.pumpUp k seg j).mem = s.mem := by
  fun_cases State.pumpUp s k seg j <;> simp

@[simp] theorem State.pumpDown_mem (s : State) (k seg j : Nat) : (s.pumpDown k seg j).mem = s.mem := by
  fun_cases State.pumpDown s k seg j <;> simp

@[simp] theorem State.toldTaint_form (s : State) (h : ChunkHead) (bitmap : Nat) :
    s.FormKept (s.toldTaint h bitmap) := .of fun hm => by
  fun_cases State.toldTaint s h bitmap <;> simp +zetaDelta [hm]

@[simp] theorem State.acked_form (s : State) (k chunk rank : Nat) (good wrote : Bool) :
    s.FormKept (s.acked k chunk rank good wrote) := .of fun hm => by
  fun_cases State.acked s k chunk rank good wrote <;> simp +contextual +zetaDelta [hm]

@[simp] theorem State.ackChunk_form (s : State) (k chunk : Nat) (good wrote : Bool) :
    s.FormKept (s.ackChunk k chunk good wrote) := .of fun hm => by
  simp [State.ackChunk, hm]

@[simp] theorem State.deliverChunk_form (s : State) (k seg i : Nat) (l : List Byte) (taint : Bool) :
    s.FormKept (s.deliverChunk k seg i l taint) := .of fun hm => by
  simp +contextual [State.deliverChunk, hm]

@[simp] theorem State.pumpDeliver_form (s : State) (k seg : Nat) :
    s.FormKept (s.pumpDeliver k seg) := .of fun hm => by
  fun_cases State.pumpDeliver s k seg <;> simp +contextual [hm]

@[simp] theorem State.endStage_form (s : State) (k seg j : Nat) : s.FormKept (s.endStage k seg j) := .of fun hm => by
  fun_cases State.endStage s k seg j <;> simp +zetaDelta [hm]

@[simp] theorem State.endColl_form (s : State) (k : Nat) : s.FormKept (s.endColl k) := .of fun hm => by
  fun_cases State.endColl s k <;> simp +zetaDelta [hm]

@[simp] theorem State.pump_form (s : State) (k : Nat) : s.FormKept (s.pump k) := .of fun hm => by
  fun_cases State.pump s k
  case case1 => exact hm
  case case2 =>
    refine (State.endColl_form ..).form (foldl_wf ?_ _ (foldl_wf ?_ _ hm))
    · rintro s seg _ h rfl
      exact foldl_wf (by rintro s j _ h rfl; simp [h]) _ h
    · rintro s seg _ h rfl
      refine (State.pumpDeliver_form ..).form ?_
      simp [-List.foldl_reverse, h]

@[simp] theorem State.grant_mem (s : State) (x : Claim) : (s.grant x).mem = s.mem := by simp [State.grant]
@[simp] theorem State.admitRound_mem (s : State) : s.admitRound.mem = s.mem := by simp [State.admitRound]

@[simp] theorem State.mismatch_form (s : State) (k : Nat) : s.FormKept (s.mismatch k) := .of fun hm => by
  simp [State.mismatch, hm]

@[simp] theorem State.launchColl_form (s : State) (p : Nat) (w : List Nat) :
    s.FormKept (s.launchColl p w).1 := .of fun hm => by
  fun_cases State.launchColl s p w <;> simp +zetaDelta [hm]

@[simp] theorem State.checkChunk_mem (s : State) (key : Nat) (h : ChunkHead) (l : List Byte) (cr : CreelCheck) :
    (s.checkChunk key h l cr).1.mem = s.mem := by
  simp [State.checkChunk]

@[simp] theorem State.hear_mem (s : State) (k key : Nat) : (s.hear k key).mem = s.mem := by simp [State.hear]

@[simp] theorem State.dynChunk_form (s : State) (k : Packet) (h : ChunkHead) (cr : CreelCheck) :
    s.FormKept (s.dynChunk k h cr) := .of fun hm => by
  fun_cases State.dynChunk s k h cr
  case case5 | case9 | case10 => simp [hm, fst_of_eq ‹_ = (_, _)›]
  all_goals simp [hm]

@[simp] theorem State.draftChunk_mem (s : State) (k : Packet) (h : ChunkHead) (cr : CreelCheck) :
    (s.draftChunk k h cr).mem = s.mem := by
  fun_cases State.draftChunk s k h cr
  case case1 | case3 => simp +zetaDelta [fst_of_eq ‹_ = (_, _)›]
  case case2 => simp +zetaDelta

@[simp] theorem State.resend_mem (s : State) (key : Nat) (fits : Kept → Bool) : (s.resend key fits).mem = s.mem := by
  simp [State.resend]

/-! ### Machine/DraftColl.lean -/

@[simp] theorem State.beginDraftColl_mem (s : State) (p off bytes : Nat) (w : List Nat) :
    (s.beginDraftColl p off bytes w).1.mem = s.mem := by
  simp [State.beginDraftColl]

@[simp] theorem State.joinColl_mem (s : State) (p n off bytes : Nat) (w : List Nat) :
    (s.joinColl p n off bytes w).1.mem = s.mem := by
  fun_cases State.joinColl s p n off bytes w <;> simp

@[simp] theorem State.startColl_form (s : State) (c : StCmd) : s.FormKept (s.startColl c) := .of fun hm => by
  fun_cases State.startColl s c
  case case2 | case3 => simp [hm, fst_of_eq ‹_ = (_, _)›]
  case case4 h1 _ _ _ _ _ _ _ _ h2 => simp [hm, fst_of_eq h1, fst_of_eq h2]
  all_goals simp [hm]

@[simp] theorem State.startVote_form (s : State) (c : StCmd) : s.FormKept (s.startVote c) := .of fun hm => by
  fun_cases State.startVote s c <;> simp +zetaDelta [hm]

@[simp] theorem State.draftLaunch_form (s : State) (k : Nat) : s.FormKept (s.draftLaunch k) := .of fun hm => by
  fun_cases State.draftLaunch s k <;> simp +zetaDelta [hm]

@[simp] theorem State.seqUp_form (s : State) (k j i : Nat) : s.FormKept (s.seqUp k j i) := .of fun hm => by
  fun_cases State.seqUp s k j i
  case case3 h => simp +zetaDelta [hm, snd_of_eq h]
  all_goals simp +zetaDelta [hm]

@[simp] theorem State.seqInput_mem (s : State) (k j i : Nat) : (s.seqInput k j i).1.mem = s.mem := by
  unfold State.seqInput
  dsimp only
  split <;> simp

@[simp] theorem State.emitTiles_mem (s : State) (k n fuel : Nat) : (s.emitTiles k n fuel).mem = s.mem := by
  fun_induction State.emitTiles s k n fuel
  case case5 ih => exact ih.trans ((State.produce_mem ..).trans (State.modColl_mem ..))
  all_goals rfl

@[simp] theorem State.seqDown_mem (s : State) (k j i : Nat) : (s.seqDown k j i).mem = s.mem := by simp [State.seqDown]

@[simp] theorem State.seqColl_mem (s : State) (p off : Nat) (d : Draft) : (s.seqColl p off d).1.mem = s.mem := by
  fun_cases State.seqColl s p off d <;> simp

@[simp] theorem State.staleGroup_form (s : State) (p g : Nat) : s.FormKept (s.staleGroup p g) := .of fun hm => by
  simp +contextual [State.staleGroup, hm]

@[simp] theorem State.setGroup_mem (s : State) (p g : Nat) (x : Group) : (s.setGroup p g x).mem = s.mem := by
  simp [State.setGroup]

/-! ### Machine/Twist.lean -/

@[simp] theorem State.setTwist_mem (s : State) (n e : Nat) (x : Twist) : (s.setTwist n e x).mem = s.mem := by
  simp [State.setTwist]

@[simp] theorem State.tFault_form (s : State) (p n : Nat) (c : StCmd) (code : Nat) :
    s.FormKept (s.tFault p n c code) := .of fun hm => by
  simp [State.tFault, hm]

@[simp] theorem State.readBatt_form (s : State) (p n e : Nat) (c : StCmd) (area cycles : Nat) :
    s.FormKept (s.readBatt p n e c area cycles).1 := .of fun hm => by
  simp [State.readBatt, hm]

@[simp] theorem State.source_form (s : State) (p n e : Nat) (c : StCmd) (sat sub : Bool) :
    s.FormKept (s.source p n e c sat sub).1 := .of fun hm => by
  fun_cases State.source s p n e c sat sub
  case case3 | case4 | case7 | case9 | case10 => simp [hm, fst_of_eq ‹_ = (_, _)›]
  case case8 => simp +zetaDelta [hm, fst_of_eq ‹_ = (_, _)›]
  all_goals simp [hm]

@[simp] theorem State.twistFlags_mem (s : State) (n e fl : Nat) : (s.twistFlags n e fl).mem = s.mem := by
  simp -implicitDefEqProofs [State.twistFlags]

@[simp] theorem State.writeTile_form (s : State) (p n e r : Nat) (v : Roving) (stoch : Bool) (x : Flow)
    (vals : Array Num) (direct : Bool) (ready h : Nat) :
    s.FormKept (s.writeTile p n e r v stoch x vals direct ready h) := .of fun hm => by
  simp [State.writeTile, hm]

@[simp] theorem State.writeRoving_form (s : State) (p n e : Nat) (c : StCmd) (r fmt : Nat) (x : Flow)
    (vals : Array Num) (direct : Bool) (ready : Nat) :
    s.FormKept (s.writeRoving p n e c r fmt x vals direct ready) := .of fun hm => by
  fun_cases State.writeRoving s p n e c r fmt x vals direct ready <;> simp +contextual [hm]

@[simp] theorem State.passEntered_mem (s : State) (n e time : Nat) (wrote : List Nat) :
    (s.passEntered n e time wrote).mem = s.mem := by
  simp [State.passEntered]

@[simp] theorem State.flowPass_form (s : State) (p n e : Nat) (cs : List StCmd) (c0 : StCmd) :
    s.FormKept (s.flowPass p n e cs c0) := .of fun hm => by
  fun_cases State.flowPass s p n e cs c0
  case case1 => simp [hm]
  case case2 h => simp [hm, fst_of_eq h]
  case case3 | case4 => simp +zetaDelta [hm, fst_of_eq ‹_ = (_, some _)›]

@[simp] theorem State.openPass_form (s : State) (n e : Nat) : s.FormKept (s.openPass n e) := .of fun hm => by
  simp +contextual [State.openPass, hm]

@[simp] theorem State.twistArrive_form (s : State) (c : StCmd) : s.FormKept (s.twistArrive c) := .of fun hm => by
  simp [State.twistArrive, hm]

/-! ### Machine/RowProg.lean -/

@[simp] theorem State.rowEvents_mem (s : State) (n e tensor : Nat) (masked infs : List Nat) :
    (s.rowEvents n e tensor masked infs).mem = s.mem := by
  cases masked <;> cases infs <;> simp [State.rowEvents]

@[simp] theorem State.flowRows_form (s : State) (p n e : Nat) (c : StCmd) :
    s.FormKept (s.flowRows p n e c) := .of fun hm => by
  fun_cases State.flowRows s p n e c
  case case2 => simp [hm, fst_of_eq ‹_ = (_, _)›]
  case case3 | case4 => simp +zetaDelta [hm, fst_of_eq ‹_ = (_, _)›]
  case case1 => simp [hm]

/-! ### Machine/Optimiser.lean -/

@[simp] theorem State.writePair_form (s : State) (p n e pa : Nat) (old : List Byte) (codes : Array Nat)
    (cnt : Array Cnt) : s.FormKept (s.writePair p n e pa old codes cnt) := .of fun hm => by
  simp +contextual [State.writePair, hm]

@[simp] theorem State.writeResidue_form (s : State) (p n e pa : Nat) (old : List Byte) (rs : Array Int) :
    s.FormKept (s.writeResidue p n e pa old rs) := .of fun hm =>
  (State.c0Store_form ..).form (by simpa using hm)

@[simp] theorem State.readAll_form (s : State) (p n e : Nat) (det : List EvField) (l : List (Nat × Nat)) :
    s.FormKept (s.readAll p n e det l).1 := .of fun hm => by
  fun_induction State.readAll s p n e det l
  case case1 => exact hm
  case case2 h => simp [fst_of_eq h, hm]
  case case3 h _ h' ih | case4 h _ _ h' ih => exact fst_of_eq h' ▸ ih (by simp [fst_of_eq h, hm])

@[simp] theorem State.writeUpdate_form (s : State) (p n : Nat) (c : StCmd) (l : Layer) (j : Nat) (els : Array OptEl)
    (ready : Nat) : s.FormKept (s.writeUpdate p n c l j els ready) := .of fun hm => by
  simp +contextual [State.writeUpdate, hm]

@[simp] theorem State.optStep_form (s : State) (p n e : Nat) (c : StCmd) :
    s.FormKept (s.optStep p n e c) := .of fun hm => by
  fun_cases State.optStep s p n e c
  case case2 | case3 => simp [hm, fst_of_eq ‹_ = (_, _)›]
  case case4 h1 _ _ _ _ _ _ _ h2 => simp [hm, fst_of_eq h1, fst_of_eq h2]
  case case5 h1 _ _ _ _ _ _ _ _ h2 _ h3 => simp [hm, fst_of_eq h1, fst_of_eq h2, fst_of_eq h3]
  case case6 h1 _ _ _ _ _ _ _ _ h2 _ _ h3 _ _ _ _ _ _ _ _ _ _ _ _ _ _ _ _ _ _ _ _ _ | case7 h1 _ _ _ _ _ _ _ _ h2 _ _
    h3 _ _ _ _ _ _ _ _ _ _ _ _ _ _ _ _ _ _ _ _ _ => simp +zetaDelta [hm, fst_of_eq h1, fst_of_eq h2,
    fst_of_eq h3]
  case case1 => simp [hm]

@[simp] theorem State.recsCheck_form (s : State) (p n : Nat) (det : List EvField) (l : List Nat) :
    s.FormKept (s.recsCheck p n det l).1 := .of fun hm => by
  simp +contextual [State.recsCheck, hm]

@[simp] theorem State.optCommit_form (s : State) (p n e : Nat) (c : StCmd) :
    s.FormKept (s.optCommit p n e c) := .of fun hm => by
  fun_cases State.optCommit s p n e c
  case case2 | case3 => simp [hm, fst_of_eq ‹_ = (_, _)›]
  case case4 h1 _ _ _ _ h2 => simp [hm, fst_of_eq h1, fst_of_eq h2]
  case case5 h1 _ _ _ _ h2 _ _ _ _ _ _ _ _ h3 _ | case6 h1 _ _ _ _ h2 _ _ _ _ _ _ _ _ h3 _ => simp [hm, 
    fst_of_eq h1, fst_of_eq h2, fst_of_eq h3]
  case case1 => simp [hm]

@[simp] theorem State.flow_form (s : State) (p n e : Nat) (cs : List StCmd) :
    s.FormKept (s.flow p n e cs) := .of fun hm => by
  fun_cases State.flow s p n e cs <;> simp [hm]

@[simp] theorem State.flowNow_form (s : State) (p n e : Nat) : s.FormKept (s.flowNow p n e) := .of fun hm => by
  simp [State.flowNow, hm]

/-! ### Machine/Roving.lean -/

@[simp] theorem State.tileInvalid_form (s : State) (p n r i : Nat) :
    s.FormKept (s.tileInvalid p n r i) := .of fun hm => by
  simp [State.tileInvalid, hm]

@[simp] theorem State.tileOverrun_form (s : State) (p n st r i : Nat) :
    s.FormKept (s.tileOverrun p n st r i) := .of fun hm => by
  simp [State.tileOverrun, hm]

@[simp] theorem State.readTile_form (s : State) (p n st r i due : Nat) (v : Roving) :
    s.FormKept (s.readTile p n st r i due v).1 := .of fun hm => by
  fun_cases State.readTile s p n st r i due v
  case case2 | case3 | case4 => simp [hm, fst_of_eq ‹_ = (_, _)›]
  case case1 => simp [hm]

@[simp] theorem State.crossTile_mem (s : State) (p : Nat) (v : Roving) (x : Tile) :
    (s.crossTile p v x).mem = s.mem := by
  fun_cases State.crossTile s p v x <;> simp

@[simp] theorem State.takeOut_form (s : State) (p r i : Nat) (v : Roving) :
    s.FormKept (s.takeOut p r i v).1 := .of fun hm => by
  fun_cases State.takeOut s p r i v <;> simp [hm]

@[simp] theorem State.takeAway_form (s : State) (p r i : Nat) (v : Roving) :
    s.FormKept (s.takeAway p r i v).1 := .of fun hm => by
  fun_cases State.takeAway s p r i v <;> simp [hm]

@[simp] theorem State.sourceTile_form (s : State) (p r i due : Nat) (v : Roving) :
    s.FormKept (s.sourceTile p r i due v).1 := .of fun hm => by
  simp [State.sourceTile, hm]

@[simp] theorem State.sendAway_mem (s : State) (p r i : Nat) (v : Roving) (x : Tile) :
    (s.sendAway p r i v x).mem = s.mem := by
  simp [State.sendAway]

@[simp] theorem State.sourceLane_mem (s : State) (p r due : Nat) (v : Roving) :
    (s.sourceLane p r due v).1.mem = s.mem := by
  simp [State.sourceLane]

@[simp] theorem State.depart_form (s : State) (p r i due : Nat) (v : Roving) :
    s.FormKept (s.depart p r i due v) := .of fun hm => by
  fun_cases State.depart s p r i due v
  case case1 => simp +zetaDelta [hm]
  case case2 => simp +zetaDelta [hm, fst_of_eq ‹_ = (_, _)›]
  case case3 h1 _ _ h2 _ => simp +zetaDelta [hm, fst_of_eq h1, fst_of_eq h2]
  case case4 h1 _ _ h2 _ _ _ _ => simp +zetaDelta [hm, fst_of_eq h1, fst_of_eq h2]
  case case5 h1 _ _ h2 _ _ => simp +zetaDelta [hm, fst_of_eq h1, fst_of_eq h2]

@[simp] theorem State.enqueueTile_form (s : State) (p n st r i : Nat) (x : Tile) :
    s.FormKept (s.enqueueTile p n st r i x) := .of fun hm => by
  simp [State.enqueueTile, hm]

@[simp] theorem State.noteOld_mem (s : State) (n st pa len : Nat) : (s.noteOld n st pa len).mem = s.mem := by
  fun_cases State.noteOld s n st pa len <;> simp

@[simp] theorem State.putTile_form (s : State) (p n st pa : Nat) (x : Tile) :
    s.FormKept (s.putTile p n st pa x) := .of fun hm => by
  simp [State.putTile, hm]

@[simp] theorem State.beginTransfer_form (s : State) (p n st r i : Nat) (v : Roving) (x : Tile) :
    s.FormKept (s.beginTransfer p n st r i v x) := .of fun hm => by
  fun_cases State.beginTransfer s p n st r i v x <;> simp +zetaDelta [hm]

@[simp] theorem State.nextTransfer_form (s : State) (n st : Nat) :
    s.FormKept (s.nextTransfer n st) := .of fun hm => by
  fun_cases State.nextTransfer s n st <;> simp +zetaDelta [hm]

@[simp] theorem State.storeTile_form (s : State) (p n st r i : Nat) (v : Roving) (x : Tile) :
    s.FormKept (s.storeTile p n st r i v x) := .of fun hm => by
  fun_cases State.storeTile s p n st r i v x <;> simp +zetaDelta [hm]

@[simp] theorem State.land_form (s : State) (p r i : Nat) (v : Roving) (x : Tile) :
    s.FormKept (s.land p r i v x) := .of fun hm => by
  simp [State.land, hm]

/-! ### Machine/Settle.lean -/

@[simp] theorem State.landCmd_form (s : State) (c : StCmd) : s.FormKept (s.landCmd c) := .of fun hm => by
  simp [State.landCmd, hm]

@[simp] theorem State.startCmd_form (s : State) (n st : Nat) : s.FormKept (s.startCmd n st) := .of fun hm => by
  fun_cases State.startCmd s n st <;> simp +zetaDelta [hm]

@[simp] theorem State.happen_form (s : State) (x : Due) : s.FormKept (s.happen x) := .of fun hm => by
  fun_cases State.happen s x <;> simp [hm]

@[simp] theorem State.settleTo_form (s : State) (t k : Nat) : s.FormKept (s.settleTo t k) := .of fun hm => by
  fun_induction State.settleTo s t k
  case case3 ih => exact ih (by simp [hm])
  all_goals exact hm

@[simp] theorem State.settle_form (s : State) : s.FormKept s.settle := State.settleTo_form ..

@[simp] theorem State.arrive_form (s : State) (t : Nat) : s.FormKept (s.arrive t) :=
  State.settleTo_form { s with out := [], ans := {} } ..

@[simp] theorem State.toIssue_form (s : State) (p : Nat) (c : Cmd) : s.FormKept (s.toIssue p c) := .of fun hm => by
  fun_cases State.toIssue s p c <;> simp [hm]

@[simp] theorem State.run_form (s : State) (t : Nat) (c : Cmd) (op : Nat) (eff : State → Issued → State)
    (h : ∀ s i, Mem.wf s.mem = true → Mem.wf (eff s i).mem = true) (hm : Mem.wf s.mem = true) :
    FormNext (s.run t c op eff) := by
  have hissued {a b : State} {i} (ha : Mem.wf a.mem = true) {p} (e : a.issueAt p c op = (b, i)) :
      Mem.wf b.mem = true := by
    simp [fst_of_eq e, ha]
  fun_cases State.run s t c op eff
  case case4 e => exact formNext_next.2 (hissued (by simp +zetaDelta [hm]) e)
  case case5 e => exact formNext_next.2 (h _ _ (hissued (by simp +zetaDelta [hm]) e))
  all_goals simp +zetaDelta [hm]

/-! ### Machine/Bvx.lean -/

@[simp] theorem State.illegal_mem (s : State) (h w : Nat) : (s.illegal h w).mem = s.mem := by simp [State.illegal]

@[simp] theorem State.setGroupRegs_mem (s : State) (h r g v : Nat) : (s.setGroupRegs h r g v).mem = s.mem := by
  simp [State.setGroupRegs]

@[simp] theorem State.setMask_mem (s : State) (h m v : Nat) : (s.setMask h m v).mem = s.mem := by simp [State.setMask]
@[simp] theorem State.accrue_mem (s : State) (h fl : Nat) : (s.accrue h fl).mem = s.mem := by simp [State.accrue]
@[simp] theorem State.startAt_mem (s : State) (h k : Nat) : (s.startAt h k).mem = s.mem := by simp [State.startAt]
@[simp] theorem State.endStart_mem (s : State) (h : Nat) : (s.endStart h).mem = s.mem := by simp [State.endStart]

@[simp] theorem State.bvx_form (s : State) (t : Nat) (h : HartIdx) (w : BitVec 32) (own : Nat → Bool) (setvl : Bool)
    (eff : State → Nat → Nat → State) (he : ∀ s h w, Mem.wf s.mem = true → Mem.wf (eff s h w).mem = true)
    (hm : Mem.wf s.mem = true) : FormNext (s.bvx t h w own setvl eff) := by
  have harr : Mem.wf (s.arrive t).mem = true := by simp [hm]
  simp [State.bvx, harr, he]

@[simp] theorem State.vectorOp_mem (s : State) (h w : Nat) (fp usesRm : Bool)
    (f : Nat → Rm → Nat → Nat → Nat → Nat × Nat) : (s.vectorOp h w fp usesRm f).mem = s.mem := by
  fun_cases State.vectorOp s h w fp usesRm f <;> simp +zetaDelta

@[simp] theorem State.compareOp_mem (s : State) (h w : Nat) (fp : Bool) (f : Nat → Nat → Nat → Bool × Nat) :
    (s.compareOp h w fp f).mem = s.mem := by
  simp [State.compareOp]

@[simp] theorem State.intOp_mem (s : State) (h w : Nat) (f : Nat → Nat → Nat → Nat) :
    (s.intOp h w f).mem = s.mem := by
  simp [State.intOp]

@[simp] theorem State.loadBytes_form (s : State) (h n a off len rd place : Nat) :
    s.FormKept (s.loadBytes h n a off len rd place).1 := .of fun hm => by
  fun_cases State.loadBytes s h n a off len rd place
  case case2 e | case3 e => simp +zetaDelta [fst_of_eq e, hm]
  case case7 => exact foldl_wf (by rintro s i _ h rfl; simp [h]) _ hm
  all_goals simp +zetaDelta [hm]

@[simp] theorem State.atPart_form (s : State) (h : Nat) (store : Bool) (e : Nat × Nat × Nat)
    (f : State → Nat → State × Bool) (hf : ∀ s a, Mem.wf s.mem = true → Mem.wf (f s a).1.mem = true) :
    s.FormKept (s.atPart h store e f).1 := .of fun hm => by
  fun_cases State.atPart s h store e f
  case case1 => exact hm
  case case2 => exact hf _ _ hm

@[simp] theorem State.overParts_form (s : State) (f : State → Nat × Nat × Nat → State × Bool)
    (l : List (Nat × Nat × Nat)) (hf : ∀ s e, Mem.wf s.mem = true → Mem.wf (f s e).1.mem = true) :
    s.FormKept (s.overParts f l).1 := .of fun hm => by
  fun_induction State.overParts s f l
  case case1 => exact hm
  case case2 e ih => exact ih (by simp [fst_of_eq e, hf _ _ hm])
  case case3 e => simp [fst_of_eq e, hf _ _ hm]

@[simp] theorem State.loadElem_form (s : State) (h w i : Nat) : s.FormKept (s.loadElem h w i).1 := .of fun hm => by
  simp +contextual [State.loadElem, hm]

@[simp] theorem State.storeElem_form (s : State) (h w i : Nat) : s.FormKept (s.storeElem h w i).1 := .of fun hm => by
  simp +contextual [State.storeElem, hm]

@[simp] theorem State.elements_form (s : State) (h w : Nat) (store : Bool) (pf : Option PageFault)
    (f : State → Nat → State × Bool) (l : List Nat) (hf : ∀ s i, Mem.wf s.mem = true → Mem.wf (f s i).1.mem = true) :
    s.FormKept (s.elements h w store pf f l).1 := .of fun hm => by
  fun_induction State.elements s h w store pf f l
  case case1 | case2 => exact hm
  case case3 e ih => exact ih (by simp [fst_of_eq e, hf _ _ hm])
  case case4 e => simp [fst_of_eq e, hf _ _ hm]

@[simp] theorem State.preciseMem_form (s : State) (h w : Nat) (store : Bool) (pf : Option PageFault) :
    s.FormKept (s.preciseMem h w store pf) := .of fun hm => by
  have hel {l : List Nat} {u r} (e : s.elements h w store pf
      (fun s i => if store then s.storeElem h w i else s.loadElem h w i) l = (u, r)) : Mem.wf u.mem = true := by
    rw [fst_of_eq e]
    exact (State.elements_form _ _ _ _ _ _ _ fun s i h => by split <;> simp [h]).form hm
  fun_cases State.preciseMem s h w store pf
  case case3 e => simp [hel e]
  case case4 e _ => simp +zetaDelta [hel e]
  case case5 e => simp [hel e]
  all_goals simp [hm]

@[simp] theorem State.maskOp_mem (s : State) (h w : Nat) (f : Nat → Nat → Nat) : (s.maskOp h w f).mem = s.mem := by
  simp [State.maskOp]

/-! ### Machine/Coupling.lean -/

@[simp] theorem State.clearIrqs_mem (s : State) (h may v : Nat) : (s.clearIrqs h may v).mem = s.mem := by
  simp [State.clearIrqs]

@[simp] theorem State.writePend_mem (s : State) (h : Nat) (v : BitVec 64) : (s.writePend h v).mem = s.mem := by
  simp [State.writePend]

@[simp] theorem State.csrWrite_mem (s : State) (h c : Nat) (v : BitVec 64) : (s.csrWrite h c v).mem = s.mem := by
  fun_cases State.csrWrite s h c v <;> simp

/-! ### Machine/Links.lean -/

@[simp] theorem State.leaveService_mem (s : State) (n : Nat) : (s.leaveService n).mem = s.mem := by
  simp [State.leaveService]

@[simp] theorem State.portDown_mem (s : State) (n : Nat) : (s.portDown n).mem = s.mem := by simp [State.portDown]

@[simp] theorem State.badCodeword_mem (s : State) (n : Nat) : (s.badCodeword n).mem = s.mem := by
  simp [State.badCodeword]

@[simp] theorem State.takeFlits_mem (s : State) (n : Nat) (vcs : List Nat) (credits : List (Nat × Nat))
    (ack : Option (BitVec 8)) : (s.takeFlits n vcs credits ack).mem = s.mem := by
  simp [State.takeFlits]

/-! ### Machine/Resil.lean -/

@[simp] theorem State.endSession_mem (s : State) (id : Nat) : (s.endSession id).mem = s.mem := by
  simp [State.endSession]

@[simp] theorem State.endSessionsOf_mem (s : State) (d : Nat) : (s.endSessionsOf d).mem = s.mem := by
  simp [State.endSessionsOf]

@[simp] theorem State.lossRestart_form (s : State) (p v : Nat) (halts : Bool) :
    s.FormKept (s.lossRestart p v halts) := .of fun hm => by
  fun_cases State.lossRestart s p v halts <;> simp +zetaDelta [hm]

@[simp] theorem State.cutQuorums_mem (s : State) (p n : Nat) : (s.cutQuorums p n).mem = s.mem := by
  simp [State.cutQuorums]

@[simp] theorem State.poisonDirty_mem (s : State) (dirty : List Nat) : (s.poisonDirty dirty).mem = s.mem := by
  simp [State.poisonDirty]

@[simp] theorem State.solverLost_form (s : State) (n : Nat) (dirty : List Nat) :
    s.FormKept (s.solverLost n dirty) := .of fun hm => by
  simp +contextual [State.solverLost, hm]

@[simp] theorem State.portGone_mem (s : State) (n : Nat) : (s.portGone n).mem = s.mem := by simp [State.portGone]

@[simp] theorem State.creelLost_form (s : State) : s.FormKept s.creelLost := .of fun hm => by
  simp +contextual [State.creelLost, hm]

@[simp] theorem State.cadenceDead_mem (s : State) : s.cadenceDead.mem = s.mem := by simp [State.cadenceDead]

@[simp] theorem State.fabricLost_form (s : State) (f : Nat) : s.FormKept (s.fabricLost f) := .of fun hm => by
  simp +contextual [State.fabricLost, hm]

@[simp] theorem State.holdInterface_mem (s : State) (k d : Nat) : (s.holdInterface k d).mem = s.mem := by
  simp [State.holdInterface]

@[simp] theorem State.lanesGone_mem (s : State) (h : Nat) : (s.lanesGone h).mem = s.mem := by simp [State.lanesGone]
@[simp] theorem State.hostLost_mem (s : State) (h : Nat) : (s.hostLost h).mem = s.mem := by simp [State.hostLost]

@[simp] theorem State.dieLost_form (s : State) (d : Nat) (dirty : List Nat) :
    s.FormKept (s.dieLost d dirty) := .of fun hm => by
  simp [State.dieLost, hm]

/-! ### Machine/Sharing.lean -/

@[simp] theorem State.setPoint_mem (s : State) (pl : ArbPlace) (x : ArbPoint) : (s.setPoint pl x).mem = s.mem := by
  simp [State.setPoint]

@[simp] theorem State.joinArb_mem (s : State) (pl : ArbPlace) (arr : List Arrival) :
    (s.joinArb pl arr).mem = s.mem := by
  simp [State.joinArb]

@[simp] theorem State.admitReqs_mem (s : State) (pl : ArbPlace) (fourth : Bool) :
    (s.admitReqs pl fourth).mem = s.mem := by
  simp [State.admitReqs]

@[simp] theorem State.countServed_mem (s : State) (pl : ArbPlace) (units : Nat) (r : ArbReq) :
    (s.countServed pl units r).mem = s.mem := by
  cases pl <;> simp [State.countServed]

@[simp] theorem State.carryServed_mem (s : State) (pl : ArbPlace) (r : ArbReq) :
    (s.carryServed pl r).mem = s.mem := by
  fun_cases State.carryServed s pl r <;> simp

@[simp] theorem State.promote_mem (s : State) (pl : ArbPlace) (c1 : Bool) : (s.promote pl c1).mem = s.mem := by
  simp [State.promote]

@[simp] theorem State.missedBound_mem (s : State) (pl : ArbPlace) (c1 : Bool) :
    (s.missedBound pl c1).mem = s.mem := by
  simp [State.missedBound]

@[simp] theorem State.round_mem (s : State) (pl : ArbPlace) (c1 : Bool) : (s.round pl c1).mem = s.mem := by
  fun_cases State.round s pl c1 <;> simp +zetaDelta

@[simp] theorem State.setGen_mem (s : State) (d ch : Nat) (x : TrafficGen) : (s.setGen d ch x).mem = s.mem := by
  simp [State.setGen]

@[simp] theorem State.genRequest_mem (s : State) (d : DieIdx) (ch : Fin 64) : (s.genRequest d ch).mem = s.mem := by
  simp [State.genRequest]

@[simp] theorem State.serveArb_mem (s : State) (d : DieIdx) (ch : Fin 64) (c1 : Bool) :
    (s.serveArb d ch c1).1.mem = s.mem := by
  fun_cases State.serveArb s d ch c1 <;> simp +zetaDelta

@[simp] theorem State.serveDynamic_mem (s : State) (d : DieIdx) (ch : Fin 64) :
    (s.serveDynamic d ch).1.mem = s.mem := by
  simp [State.serveDynamic]

@[simp] theorem State.endWindow_form (s : State) (d ch : Nat) : s.FormKept (s.endWindow d ch) := .of fun hm => by
  simp +contextual [State.endWindow, hm]

@[simp] theorem State.startGens_mem (s : State) (d : Nat) : (s.startGens d).mem = s.mem := by simp [State.startGens]

@[simp] theorem State.applyEntries_mem (s : State) (d : Nat) : (s.applyEntries d).mem = s.mem := by
  fun_cases State.applyEntries s d
  exact foldl_mem _ (fun _ _ => by simp) _ _

/-! ### Machine/MemRows.lean -/

@[simp] theorem State.arise_mem (s : State) (d : Nat) (x : Upset) : (s.arise d x).mem = s.mem := by
  fun_cases State.arise s d x <;> simp

@[simp] theorem State.scrubLine_mem (s : State) (d line : Nat) : (s.scrubLine d line).mem = s.mem := by
  simp [State.scrubLine]

@[simp] theorem State.scrubWord_form (s : State) (d k e : Nat) : s.FormKept (s.scrubWord d k e) := .of fun hm => by
  unfold State.scrubWord
  split
  · simp [hm]
  · split
    · dsimp only
      split <;> simp [hm]
    · simp [hm]

@[simp] theorem State.spareBond_mem (s : State) (d ch bond : Nat) : (s.spareBond d ch bond).mem = s.mem := by
  simp [State.spareBond]

@[simp] theorem State.refreshRate_mem (s : State) (d temp : Nat) : (s.refreshRate d temp).mem = s.mem := by
  simp [State.refreshRate]

@[simp] theorem State.hotLimit_mem (s : State) (d temp : Nat) : (s.hotLimit d temp).mem = s.mem := by
  simp [State.hotLimit]

@[simp] theorem State.repairColumns_mem (s : State) (d : Nat) : (s.repairColumns d).mem = s.mem := by
  simp [State.repairColumns]

@[simp] theorem State.genWrites_form (s : State) (d ch c n i r : Nat) :
    s.FormKept (s.genWrites d ch c n i r) := .of fun hm => by
  fun_induction State.genWrites s d ch c n i r
  case case1 => exact hm
  case case2 ih | case3 ih => exact ih (by simp [hm])

@[simp] theorem State.genStore_form (s : State) (d ch moved : Nat) :
    s.FormKept (s.genStore d ch moved) := .of fun hm => by
  simp [State.genStore, hm]

@[simp] theorem State.genStatus_mem (s : State) (d ch state moved dies : Nat) (first : Option GenMiss) (bad : Nat) :
    (s.genStatus d ch state moved dies first bad).mem = s.mem := by
  simp [State.genStatus]

/-! ### Machine/Restore.lean -/

@[simp] theorem State.fillMap_form (s : State) (l : List RShard) (m : RMap) :
    s.FormKept (s.fillMap l m) := .of fun hm => by
  simp +contextual [State.fillMap, hm]

@[simp] theorem State.fillSlot_form (s : State) (n : Nat) (data : List Byte) :
    s.FormKept (s.fillSlot n data) := .of fun hm => by
  fun_cases State.fillSlot s n data <;> simp +contextual +zetaDelta [hm]

@[simp] theorem State.writeReport_form (s : State) (addr : Nat) (l : List (Nat × Nat × Nat)) :
    s.FormKept (s.writeReport addr l) := .of fun hm => by
  simp [State.writeReport, hm]

@[simp] theorem State.endRestore_mem (s : State) (status : Nat) : (s.endRestore status).mem = s.mem := by
  simp [State.endRestore]

/-! ### Machine/Setup.lean -/

@[simp] theorem State.critical_mem (s : State) (agree : Bool) : (s.critical agree).1.mem = s.mem := by
  simp [State.critical]

@[simp] theorem State.aimRail_mem (s : State) (r mv : Nat) : (s.aimRail r mv).mem = s.mem := by simp [State.aimRail]
@[simp] theorem State.setRole_mem (s : State) (d v : Nat) : (s.setRole d v).mem = s.mem := by simp [State.setRole]
@[simp] theorem State.dropEntries_mem (s : State) : s.dropEntries.mem = s.mem := by simp [State.dropEntries]

@[simp] theorem State.rejectImage_mem (s : State) (i : Nat × Bool × Nat × Nat) : (s.rejectImage i).mem = s.mem := by
  simp [State.rejectImage]

@[simp] theorem State.bindSpares_mem (s : State) : s.bindSpares.mem = s.mem := by simp [State.bindSpares]

@[simp] theorem State.packageEntry_mem (s : State) (d base count p : Nat) (world : Bool) :
    (s.packageEntry d base count p world).1.mem = s.mem := by
  fun_cases State.packageEntry s d base count p world <;> simp

@[simp] theorem State.packageEntries_mem (s : State) : s.packageEntries.mem = s.mem := by
  unfold State.packageEntries
  refine (foldl_mem _ (fun s i => ?_) _ _).trans (foldl_mem _ (fun s d => by simp) _ _)
  split
  · rfl
  · dsimp only
    split <;> next h => simp [fst_of_eq h]

@[simp] theorem State.setWorlds_mem (s : State) : s.setWorlds.mem = s.mem := by
  simp -implicitDefEqProofs [State.setWorlds]

@[simp] theorem State.setCreelBases_mem (s : State) : s.setCreelBases.mem = s.mem := by
  fun_cases State.setCreelBases s
  exact forN_mem _ (fun _ _ => by simp) _ _

@[simp] theorem State.openReel_form (s : State) (p : Nat) : s.FormKept (s.openReel p) := .of fun hm => by
  simp [State.openReel, hm]

@[simp] theorem State.measureCommit_mem (s : State) : s.measureCommit.mem = s.mem := by simp [State.measureCommit]

@[simp] theorem State.commitPartitions_form (s : State) : s.FormKept s.commitPartitions := .of fun hm => by
  simp +contextual -implicitDefEqProofs [State.commitPartitions, hm]

@[simp] theorem State.setKey_form (s : State) (p v : Nat) (entropy : Bool) :
    s.FormKept (s.setKey p v entropy) := .of fun hm => by
  simp [State.setKey, hm]

@[simp] theorem State.replayInput_form (s : State) (p : Nat) (k : Packet) :
    s.FormKept (s.replayInput p k) := .of fun hm => by
  simp [State.replayInput, hm]

/-! ### Machine/Warm.lean -/

@[simp] theorem State.zeroSram_form (s : State) : s.FormKept s.zeroSram := .of fun hm => by
  simp +contextual [State.zeroSram, hm]

@[simp] theorem State.dropDrafts_form (s : State) : s.FormKept s.dropDrafts := .of fun hm => by
  refine foldl_wf ?_ _ hm
  rintro s p _ h rfl
  split <;> simp [h]

@[simp] theorem State.endColls_form (s : State) : s.FormKept s.endColls := .of fun hm => by
  simp +contextual [State.endColls, hm]

@[simp] theorem State.endTransfers_mem (s : State) : s.endTransfers.mem = s.mem := by simp [State.endTransfers]

@[simp] theorem State.beginWarm_form (s : State) (cause : Nat) : s.FormKept (s.beginWarm cause) := .of fun hm => by
  simp [State.beginWarm, hm]

/-! ### Machine/Security.lean -/

@[simp] theorem State.identitySign_mem (s : State) (ctx m : List Byte) : (s.identitySign ctx m).2.mem = s.mem := by
  fun_cases State.identitySign s ctx m <;> simp

@[simp] theorem State.renewLc_mem (s : State) : s.renewLc.mem = s.mem := by simp [State.renewLc]

@[simp] theorem State.transitionWrites_mem (s : State) (dest : LifeCycle) (owner pk : List Byte) (cosign : Bool) :
    (s.transitionWrites dest owner pk cosign).mem = s.mem := by
  simp [State.transitionWrites]

@[simp] theorem State.zeroMemory_form (s : State) : s.FormKept s.zeroMemory := .of fun _ => by
  rw [State.zeroMemory, State.zeroSram_form]
  rfl

@[simp] theorem State.finishTransition_form (s : State) (dest : LifeCycle) :
    s.FormKept (s.finishTransition dest) := .of fun hm => by
  simp [State.finishTransition, hm]

@[simp] theorem State.carryOut_form (s : State) (q : Option Nat) (dest : LifeCycle) (r : List Byte) :
    s.FormKept (s.carryOut q dest r) := .of fun hm => by
  fun_cases State.carryOut s q dest r
  case case1 u _ _ _ | case2 u _ _ _ =>
    have hu : Mem.wf u.mem = true := by
      refine foldl_wf ?_ _ hm
      rintro s p _ h rfl
      split <;> simp [h]
    clear_value u
    simp +zetaDelta [hu]

@[simp] theorem State.openDebug_mem (s : State) (g : List Byte) : (s.openDebug g).mem = s.mem := by
  simp [State.openDebug]

@[simp] theorem State.setSession_mem (s : State) (id : Nat) (x : Session) : (s.setSession id x).mem = s.mem := by
  simp [State.setSession]

@[simp] theorem State.attestRead_mem (s : State) (q : Option Nat) (agree : Bool) :
    (s.attestRead q agree).mem = s.mem := by
  fun_cases State.attestRead s q agree
  case case3 h _ _ _ h' => simp +zetaDelta [snd_of_eq h', fst_of_eq h]
  case case4 h => simp [fst_of_eq h]
  all_goals simp

/-! ### Machine/Od.lean -/

@[simp] theorem State.readObject_mem (s : State) (q : Option Nat) (idx sub : Nat) (whole agree : Bool) :
    (s.readObject q idx sub whole agree).mem = s.mem := by
  simp [State.readObject]

@[simp] theorem State.describeObject_mem (s : State) (q : Option Nat) (idx sub : Nat) (whole : Bool) :
    (s.describeObject q idx sub whole).mem = s.mem := by
  fun_cases State.describeObject s q idx sub whole <;> simp +zetaDelta

/-! ### Machine/Power.lean -/

@[simp] theorem State.setPow_mem (s : State) (x : Power) : (s.setPow x).mem = s.mem := by simp [State.setPow]
@[simp] theorem State.askReplan_mem (s : State) : s.askReplan.mem = s.mem := by simp [State.askReplan]
@[simp] theorem State.pauseAll_mem (s : State) : s.pauseAll.mem = s.mem := by simp [State.pauseAll]

@[simp] theorem State.recordPower_mem (s : State) (watts : Nat) : (s.recordPower watts).mem = s.mem := by
  simp [State.recordPower]

@[simp] theorem State.holdPower_mem (s : State) : s.holdPower.mem = s.mem := by simp [State.holdPower]

@[simp] theorem State.setDieHealth_mem (s : State) (d : Nat) (x : DieHealth) : (s.setDieHealth d x).mem = s.mem := by
  simp [State.setDieHealth]

@[simp] theorem State.thermalWarn_mem (s : State) (d : Nat) (temp : ℤ) : (s.thermalWarn d temp).mem = s.mem := by
  simp [State.thermalWarn]

@[simp] theorem State.thermalThrottle_mem (s : State) (d : Nat) (temp : ℤ) :
    (s.thermalThrottle d temp).mem = s.mem := by
  simp [State.thermalThrottle]

@[simp] theorem State.junctionLimit_form (s : State) (d : Nat) (dirty : List Nat) :
    s.FormKept (s.junctionLimit d dirty) := .of fun hm => by
  simp [State.junctionLimit, hm]

@[simp] theorem State.planRecord_mem (s : State) (m : Margin) (vmin setpoint : Nat) (drift : ℤ) (left : Nat) :
    (s.planRecord m vmin setpoint drift left).mem = s.mem := by
  simp [State.planRecord]

@[simp] theorem State.exhaust_mem (s : State) (d : Nat) : (s.exhaust d).mem = s.mem := by simp [State.exhaust]

@[simp] theorem State.replanDie_mem (s : State) (m : Margin) : (s.replanDie m).mem = s.mem := by
  simp [State.replanDie]

@[simp] theorem State.accrueDie_mem (s : State) (d : Nat) : (s.accrueDie d).mem = s.mem := by simp [State.accrueDie]

@[simp] theorem State.applyClock_form (s : State) : s.FormKept s.applyClock := .of fun hm => by
  fun_cases State.applyClock s
  case case1 => exact hm
  case case2 u _ =>
    have hu : Mem.wf u.mem = true := by
      refine foldl_wf ?_ _ hm
      rintro s p _ h rfl
      split
      · split <;> simp [h]
      · exact h
    clear_value u
    simp +zetaDelta [hu]

/-! ### Machine/Boot.lean -/

@[simp] theorem State.setBoot_mem (s : State) (b : Boot) : (s.setBoot b).mem = s.mem := by simp [State.setBoot]
@[simp] theorem State.driveFault_mem (s : State) : s.driveFault.mem = s.mem := by simp [State.driveFault]
@[simp] theorem State.nextStage_mem (s : State) (k : Nat) : (s.nextStage k).mem = s.mem := by simp [State.nextStage]
@[simp] theorem State.cold_form (s : State) (cause : Nat) : s.FormKept (s.cold cause) := .of fun _ => rfl

@[simp] theorem State.hold0_form (s : State) (cause : Nat) : s.FormKept (s.hold0 cause) := .of fun hm => by
  simp [State.hold0, hm]

@[simp] theorem State.runImage_mem (s : State) (part : Nat) (img : List Byte) (cs : List ImageComp) :
    (s.runImage part img cs).mem = s.mem := by
  simp [State.runImage]

@[simp] theorem State.tryImages_mem (s : State) (l : List (Nat × List Byte × Bool)) :
    (s.tryImages l).mem = s.mem := by
  fun_induction State.tryImages s l
  case case1 => simp
  case case2 ih => simp [ih]
  case case3 h => simp [fst_of_eq h]
  case case4 h ih => rw [ih, State.event_mem, fst_of_eq h, State.critical_mem]

@[simp] theorem State.settleRails_mem (s : State) : s.settleRails.mem = s.mem := by simp [State.settleRails]
@[simp] theorem State.trainStacks_mem (s : State) : s.trainStacks.mem = s.mem := by simp [State.trainStacks]

@[simp] theorem State.retireDie_mem (s : State) (d : Nat) : (s.retireDie d).mem = s.mem := by
  fun_cases State.retireDie s d <;> simp

@[simp] theorem State.testFailed_form (s : State) (d : Nat) : s.FormKept (s.testFailed d) := .of fun hm => by
  simp [State.testFailed, hm]

@[simp] theorem State.loadStage6_mem (s : State) (columns : List (DieIdx × Nat × Nat)) :
    (s.loadStage6 columns).mem = s.mem := by
  simp [State.loadStage6]

@[simp] theorem State.endStage8_mem (s : State) : s.endStage8.mem = s.mem := by simp [State.endStage8]

@[simp] theorem State.linkUp_mem (s : State) (width rate : Nat) : (s.linkUp width rate).mem = s.mem := by
  simp [State.linkUp]

@[simp] theorem State.sysLost_mem (s : State) : s.sysLost.mem = s.mem := by
  fun_cases State.sysLost s
  case case1 u _ =>
    have hu : u.mem = s.mem := by
      refine forN_mem _ (fun s p => ?_) _ _
      split <;> simp
    clear_value u
    simp +zetaDelta [hu]

/-! ### Machine/FabricRows.lean -/

@[simp] theorem State.reformReads_mem (s : State) (p g : Nat) : (s.reformReads p g).mem = s.mem := by
  fun_cases State.reformReads s p g <;> simp

/-! ### Machine/Host.lean -/

@[simp] theorem State.setHost_mem (s : State) (x : HostIf) : (s.setHost x).mem = s.mem := by simp [State.setHost]
@[simp] theorem State.clearHdm_mem (s : State) (seg : Nat) : (s.clearHdm seg).mem = s.mem := by simp [State.clearHdm]
@[simp] theorem State.hdmMiss_mem (s : State) (o : Nat) : (s.hdmMiss o).mem = s.mem := by simp [State.hdmMiss]
@[simp] theorem State.hold_mem (s : State) (pa : Nat) : (s.hold pa).mem = s.mem := by simp [State.hold]

@[simp] theorem State.hostStore_form (s : State) (pa : Nat) (l : List Byte) (mask : Nat) :
    s.FormKept (s.hostStore pa l mask) := .of fun hm => by
  fun_cases State.hostStore s pa l mask
  case case1 e _ | case4 e => simp [fst_of_eq e, hm]
  case case2 h1 _ _ _ h2 _ =>
    refine foldl_wf ?_ _ (by simp [fst_of_eq h1, fst_of_eq h2, hm])
    rintro s i _ h rfl
    simp [h]
  case case3 h1 _ _ _ h2 _ => simp [fst_of_eq h1, fst_of_eq h2, hm]

@[simp] theorem State.backInvalidate_mem (s : State) (pa n : Nat) : (s.backInvalidate pa n).1.mem = s.mem := by
  simp [State.backInvalidate]

@[simp] theorem State.mbDone_mem (s : State) (code : Nat) (payload : List Byte) :
    (s.mbDone code payload).mem = s.mem := by
  simp [State.mbDone]

@[simp] theorem State.hostOwn_mem (s : State) (pa word : Nat) : (s.hostOwn pa word).mem = s.mem := by
  simp [State.hostOwn]

@[simp] theorem State.ownResume_mem (s : State) : s.ownResume.mem = s.mem := by simp [State.ownResume]
@[simp] theorem State.letGo_mem (s : State) (region : Nat) : (s.letGo region).mem = s.mem := by simp [State.letGo]

@[simp] theorem State.poisonLine_mem (s : State) (pa : Nat) : (s.poisonLine pa).mem = s.mem := by
  fun_cases State.poisonLine s pa <;> simp

@[simp] theorem State.releaseBit_mem (s : State) (p w : Nat) : (s.releaseBit p w).mem = s.mem := by
  fun_cases State.releaseBit s p w <;> simp +zetaDelta

@[simp] theorem State.mailbox_form (s : State) (good : Bool) (run : State → State)
    (h : ∀ s, Mem.wf s.mem = true → Mem.wf (run s).mem = true) : s.FormKept (s.mailbox good run) := .of fun hm => by
  fun_cases State.mailbox s good run
  case case4 => exact h s hm
  all_goals simp [hm]

@[simp] theorem State.copyLine_form (s : State) (c : HostCopy) (off : Nat) (line : Option (List Byte)) :
    s.FormKept (s.copyLine c off line).1 := .of fun hm => by
  fun_cases State.copyLine s c off line
  case case1 | case2 | case3 | case5 | case6 => simp [hm, fst_of_eq ‹_ = (_, _)›]
  case case4 => simp [hm]

@[simp] theorem State.copyLines_form (s : State) (c : HostCopy) (host : List (Option (List Byte))) (n off : Nat) :
    s.FormKept (s.copyLines c host n off).1 := .of fun hm => by
  fun_induction State.copyLines s c host n off
  case case1 => exact hm
  case case2 h ih => exact ih (by simp [hm, fst_of_eq h])
  case case3 h => simp [hm, fst_of_eq h]

/-! ### Machine/Session.lean -/

@[simp] theorem State.endSpent_mem (s : State) (id : Nat) : (s.endSpent id).mem = s.mem := by
  fun_cases State.endSpent s id <;> simp

@[simp] theorem State.refuseHello_mem (s : State) (status : Nat) : (s.refuseHello status).1.mem = s.mem := by
  simp [State.refuseHello]

@[simp] theorem State.greet_mem (s : State) (tr : Transport) (role : Role) (part : Nat) (body : List Byte) :
    (s.greet tr role part body).1.mem = s.mem := by
  simp [State.greet]

@[simp] theorem State.hello_mem (s : State) (tr : Transport) (body : List Byte) (agree : Bool) :
    (s.hello tr body agree).1.mem = s.mem := by
  fun_cases State.hello s tr body agree
  case case5 | case6 => simp [fst_of_eq ‹_ = (_, _)›]
  all_goals simp

@[simp] theorem State.authStatus_mem (s : State) (x : Session) (pk sig t2 : List Byte) (agree : Bool) :
    (s.authStatus x pk sig t2 agree).1.mem = s.mem := by
  fun_cases State.authStatus s x pk sig t2 agree
  case case4 | case5 => simp [fst_of_eq ‹_ = (_, _)›]
  all_goals simp

@[simp] theorem State.auth_mem (s : State) (tr : Transport) (id : Nat) (body : List Byte) (agree : Bool) :
    (s.auth tr id body agree).1.mem = s.mem := by
  fun_cases State.auth s tr id body agree
  case case3 | case4 => simp [fst_of_eq ‹_ = (_, _)›]
  all_goals simp

@[simp] theorem State.reply_mem (s : State) (id : Nat) (ms : List (List Byte)) : (s.reply id ms).mem = s.mem := by
  simp -implicitDefEqProofs [State.reply]

@[simp] theorem State.closeMsg_mem (s : State) (tr : Transport) (id seq : Nat) (tag : List Byte) :
    (s.closeMsg tr id seq tag).mem = s.mem := by
  fun_cases State.closeMsg s tr id seq tag <;> simp

/-! ### Machine/Aoap.lean -/

@[simp] theorem State.clearBits_mem (s : State) (i u v : Nat) : (s.clearBits i u v).mem = s.mem := by
  simp [State.clearBits]

@[simp] theorem State.descChanged_mem (s : State) (p old : Nat) : (s.descChanged p old).mem = s.mem := by
  simp [State.descChanged]

@[simp] theorem State.afterWrite_mem (s : State) (i u old : Nat) : (s.afterWrite i u old).mem = s.mem := by
  simp [State.afterWrite]

@[simp] theorem State.applyWrite_mem (s : State) (i u : Nat) (r : OdRow) (data : List Byte) :
    (s.applyWrite i u r data).mem = s.mem := by
  simp -implicitDefEqProofs [State.applyWrite]

theorem State.heldObject_mem {s u : State} {i j : Nat} (h : s.heldObject i j = some u) : u.mem = s.mem := by
  unfold State.heldObject at h
  split at h
  · cases h
    rfl
  · split at h
    · cases h
      simp
    · cases h

@[simp] theorem State.subscribe_mem (s : State) (q : Option Nat) (idx sub : Nat) (d : List Byte) :
    (s.subscribe q idx sub d).mem = s.mem := by
  unfold State.subscribe
  dsimp only
  repeat' split
  all_goals simp

@[simp] theorem State.unsubscribe_mem (s : State) (q : Option Nat) (d : List Byte) :
    (s.unsubscribe q d).mem = s.mem := by
  unfold State.unsubscribe
  repeat' split
  all_goals simp

@[simp] theorem State.setAoap_mem (s : State) (a : Aoap) : (s.setAoap a).mem = s.mem := by simp [State.setAoap]

/-! ### Machine/StationRows.lean -/

@[simp] theorem State.dispatchT_form (s : State) (i : Issued) (c : Cmd) :
    s.FormKept (s.dispatchT i c) := .of fun hm => by
  fun_cases State.dispatchT s i c
  case case4 | case5 => simp [hm, fst_of_eq ‹_ = (_, _)›]
  all_goals simp [hm]

/-! ### The rows -/

section
variable {s : State} (hm : Mem.wf s.mem = true) (t : Nat)
include hm

/-! #### Machine/Bvx.lean -/

@[simp] theorem execBxFadd_form (h : HartIdx) (w : BitVec 32) : FormNext (execBxFadd t h w s) := by
  simp +contextual [execBxFadd, hm]

@[simp] theorem execBxFsub_form (h : HartIdx) (w : BitVec 32) : FormNext (execBxFsub t h w s) := by
  simp +contextual [execBxFsub, hm]

@[simp] theorem execBxFmul_form (h : HartIdx) (w : BitVec 32) : FormNext (execBxFmul t h w s) := by
  simp +contextual [execBxFmul, hm]

@[simp] theorem execBxFdiv_form (h : HartIdx) (w : BitVec 32) : FormNext (execBxFdiv t h w s) := by
  simp +contextual [execBxFdiv, hm]

@[simp] theorem execBxFsqrt_form (h : HartIdx) (w : BitVec 32) : FormNext (execBxFsqrt t h w s) := by
  simp +contextual [execBxFsqrt, hm]

@[simp] theorem execBxFmin_form (h : HartIdx) (w : BitVec 32) : FormNext (execBxFmin t h w s) := by
  simp +contextual [execBxFmin, hm]

@[simp] theorem execBxFmax_form (h : HartIdx) (w : BitVec 32) : FormNext (execBxFmax t h w s) := by
  simp +contextual [execBxFmax, hm]

@[simp] theorem execBxFsgnj_form (h : HartIdx) (w : BitVec 32) : FormNext (execBxFsgnj t h w s) := by
  simp +contextual [execBxFsgnj, hm]

@[simp] theorem execBxFmadd_form (h : HartIdx) (w : BitVec 32) : FormNext (execBxFmadd t h w s) := by
  simp +contextual [execBxFmadd, hm]

@[simp] theorem execBxFmsub_form (h : HartIdx) (w : BitVec 32) : FormNext (execBxFmsub t h w s) := by
  simp +contextual [execBxFmsub, hm]

@[simp] theorem execBxFnmadd_form (h : HartIdx) (w : BitVec 32) : FormNext (execBxFnmadd t h w s) := by
  simp +contextual [execBxFnmadd, hm]

@[simp] theorem execBxFredosum_form (h : HartIdx) (w : BitVec 32) : FormNext (execBxFredosum t h w s) := by
  refine State.bvx_form _ _ _ _ _ _ _ (fun s h w hm => ?_) hm
  cases hrm : (s.hart h).rm <;> simp [hrm, hm]

@[simp] theorem execBxFeq_form (h : HartIdx) (w : BitVec 32) : FormNext (execBxFeq t h w s) := by
  simp +contextual [execBxFeq, hm]

@[simp] theorem execBxFlt_form (h : HartIdx) (w : BitVec 32) : FormNext (execBxFlt t h w s) := by
  simp +contextual [execBxFlt, hm]

@[simp] theorem execBxFle_form (h : HartIdx) (w : BitVec 32) : FormNext (execBxFle t h w s) := by
  simp +contextual [execBxFle, hm]

@[simp] theorem execBxAdd_form (h : HartIdx) (w : BitVec 32) : FormNext (execBxAdd t h w s) := by
  simp +contextual [execBxAdd, hm]

@[simp] theorem execBxSub_form (h : HartIdx) (w : BitVec 32) : FormNext (execBxSub t h w s) := by
  simp +contextual [execBxSub, hm]

@[simp] theorem execBxMul_form (h : HartIdx) (w : BitVec 32) : FormNext (execBxMul t h w s) := by
  simp +contextual [execBxMul, hm]

@[simp] theorem execBxAnd_form (h : HartIdx) (w : BitVec 32) : FormNext (execBxAnd t h w s) := by
  simp +contextual [execBxAnd, hm]

@[simp] theorem execBxOr_form (h : HartIdx) (w : BitVec 32) : FormNext (execBxOr t h w s) := by
  simp +contextual [execBxOr, hm]

@[simp] theorem execBxXor_form (h : HartIdx) (w : BitVec 32) : FormNext (execBxXor t h w s) := by
  simp +contextual [execBxXor, hm]

@[simp] theorem execBxSll_form (h : HartIdx) (w : BitVec 32) : FormNext (execBxSll t h w s) := by
  simp +contextual [execBxSll, hm]

@[simp] theorem execBxSrl_form (h : HartIdx) (w : BitVec 32) : FormNext (execBxSrl t h w s) := by
  simp +contextual [execBxSrl, hm]

@[simp] theorem execBxSra_form (h : HartIdx) (w : BitVec 32) : FormNext (execBxSra t h w s) := by
  simp +contextual [execBxSra, hm]

@[simp] theorem execBxMinu_form (h : HartIdx) (w : BitVec 32) : FormNext (execBxMinu t h w s) := by
  simp +contextual [execBxMinu, hm]

@[simp] theorem execBxMaxu_form (h : HartIdx) (w : BitVec 32) : FormNext (execBxMaxu t h w s) := by
  simp +contextual [execBxMaxu, hm]

@[simp] theorem execBxMin_form (h : HartIdx) (w : BitVec 32) : FormNext (execBxMin t h w s) := by
  simp +contextual [execBxMin, hm]

@[simp] theorem execBxMax_form (h : HartIdx) (w : BitVec 32) : FormNext (execBxMax t h w s) := by
  simp +contextual [execBxMax, hm]

@[simp] theorem execBxSeq_form (h : HartIdx) (w : BitVec 32) : FormNext (execBxSeq t h w s) := by
  simp +contextual [execBxSeq, hm]

@[simp] theorem execBxSltu_form (h : HartIdx) (w : BitVec 32) : FormNext (execBxSltu t h w s) := by
  simp +contextual [execBxSltu, hm]

@[simp] theorem execBxSlt_form (h : HartIdx) (w : BitVec 32) : FormNext (execBxSlt t h w s) := by
  simp +contextual [execBxSlt, hm]

@[simp] theorem execBxLd_form (h : HartIdx) (w : BitVec 32) (pf : Option PageFault) :
    FormNext (execBxLd t h w pf s) := by
  simp +contextual [execBxLd, hm]

@[simp] theorem execBxSt_form (h : HartIdx) (w : BitVec 32) (pf : Option PageFault) :
    FormNext (execBxSt t h w pf s) := by
  simp +contextual [execBxSt, hm]

@[simp] theorem execBxLdff_form (h : HartIdx) (w : BitVec 32) (pf : Option PageFault) :
    FormNext (execBxLdff t h w pf s) := by
  refine State.bvx_form _ _ _ _ _ _ _ (fun s h w hm => ?_) hm
  have hel {l : List Nat} {u r} (e : s.elements h w false pf (fun s i => s.loadElem h w i) l = (u, r)) :
      Mem.wf u.mem = true := by
    rw [fst_of_eq e]
    exact (State.elements_form _ _ _ _ _ _ _ fun s i h => by simp [h]).form hm
  dsimp only
  split
  · simp [hm]
  split
  · exact hm
  split
  next e => simp [hel e]
  next e => split <;> simp [hel e]
  next e => simp [hel e]

@[simp] theorem execBxTperm_form (h : HartIdx) (w : BitVec 32) : FormNext (execBxTperm t h w s) := by
  simp +contextual [execBxTperm, hm]

@[simp] theorem execBxMand_form (h : HartIdx) (w : BitVec 32) : FormNext (execBxMand t h w s) := by
  simp +contextual [execBxMand, hm]

@[simp] theorem execBxMor_form (h : HartIdx) (w : BitVec 32) : FormNext (execBxMor t h w s) := by
  simp +contextual [execBxMor, hm]

@[simp] theorem execBxMxor_form (h : HartIdx) (w : BitVec 32) : FormNext (execBxMxor t h w s) := by
  simp +contextual [execBxMxor, hm]

@[simp] theorem execBxMandn_form (h : HartIdx) (w : BitVec 32) : FormNext (execBxMandn t h w s) := by
  simp +contextual [execBxMandn, hm]

@[simp] theorem execBxMrd_form (h : HartIdx) (w : BitVec 32) : FormNext (execBxMrd t h w s) := by
  simp +contextual [execBxMrd, hm]

@[simp] theorem execBxMwr_form (h : HartIdx) (w : BitVec 32) : FormNext (execBxMwr t h w s) := by
  simp +contextual [execBxMwr, hm]

@[simp] theorem execBxExt_form (h : HartIdx) (w : BitVec 32) : FormNext (execBxExt t h w s) := by
  simp +contextual [execBxExt, hm]

@[simp] theorem execBxBcast_form (h : HartIdx) (w : BitVec 32) : FormNext (execBxBcast t h w s) := by
  simp +contextual [execBxBcast, hm]

@[simp] theorem execBxSetvl_form (h : HartIdx) (w : BitVec 32) : FormNext (execBxSetvl t h w s) := by
  simp +contextual [execBxSetvl, hm]

@[simp] theorem execBxCvtn_form (h : HartIdx) (w : BitVec 32) : FormNext (execBxCvtn t h w s) := by
  simp +contextual [execBxCvtn, hm]

@[simp] theorem execBxCvtw_form (h : HartIdx) (w : BitVec 32) : FormNext (execBxCvtw t h w s) := by
  simp +contextual [execBxCvtw, hm]

@[simp] theorem execBxFcvt_form (h : HartIdx) (w : BitVec 32) : FormNext (execBxFcvt t h w s) := by
  refine State.bvx_form _ _ _ _ _ _ _ (fun s h w hm => ?_) hm
  dsimp only
  split
  · simp [hm]
  · split
    · simp [hm]
    · split <;> simp [hm]

/-! #### Machine/Coupling.lean -/

@[simp] theorem execBxWrel_form (h : HartIdx) (w : BitVec 32) : FormNext (execBxWrel t h w s) := by
  refine State.bvx_form _ _ _ _ _ _ _ (fun s h w hm => ?_) hm
  dsimp only
  split
  · simp [hm]
  · split <;> simp [hm]

@[simp] theorem execBxWstat_form (h : HartIdx) (w : BitVec 32) : FormNext (execBxWstat t h w s) := by
  simp +contextual [execBxWstat, hm]

@[simp] theorem execBxWwait_form (h : HartIdx) (w : BitVec 32) (trapped : WaitTrap) :
    FormNext (execBxWwait t h w trapped s) := by
  refine State.bvx_form _ _ _ _ _ _ _ (fun s h w hm => ?_) hm
  cases trapped <;> simp [hm]

@[simp] theorem execBxWwaitWake_form (h : HartIdx) : FormNext (execBxWwaitWake t h s) := by
  fun_cases execBxWwaitWake t h s <;> simp +zetaDelta [hm]

@[simp] theorem execWindowFlagSet_form (p : PartIdx) (w : Nat) : FormNext (execWindowFlagSet t p w s) := by
  simp [execWindowFlagSet, hm]

@[simp] theorem execWindowQuorumWrite_form (q : Option Nat) (p : PartIdx) (sub : Nat) (v : BitVec 16) :
    FormNext (execWindowQuorumWrite t q p sub v s) := by
  simp [execWindowQuorumWrite, hm]

@[simp] theorem execBxCsrWrite_form (h : HartIdx) (csr : Nat) (v : BitVec 64) (priv : Nat) :
    FormNext (execBxCsrWrite t h csr v priv s) := by
  fun_cases execBxCsrWrite t h csr v priv s <;> simp +zetaDelta [hm]

/-! #### Machine/Links.lean -/

@[simp] theorem execCodewordReceive_form (n : PortIdx) (ok : Bool) (vcs : List Nat) (credits : List (Nat × Nat))
    (ack : Option (BitVec 8)) : FormNext (execCodewordReceive t n ok vcs credits ack s) := by
  simp [execCodewordReceive, hm]

@[simp] theorem execLaneLoss_form (n : PortIdx) (lane : Fin 7) (lock : Bool) :
    FormNext (execLaneLoss t n lane lock s) := by
  fun_cases execLaneLoss t n lane lock s <;> simp +zetaDelta [hm]

@[simp] theorem execLaneSpareRemap_form (n : PortIdx) : FormNext (execLaneSpareRemap t n s) := by
  fun_cases execLaneSpareRemap t n s <;> simp +zetaDelta [hm]

@[simp] theorem execPortRetrain_form (n : PortIdx) : FormNext (execPortRetrain t n s) := by simp [execPortRetrain, hm]

@[simp] theorem execPortTraining_form (n : PortIdx) (failed : BitVec 7) (tier : Nat) (isPackage : Bool) :
    FormNext (execPortTraining t n failed tier isPackage s) := by
  fun_cases execPortTraining t n failed tier isPackage s
  case case5 =>
    simp +zetaDelta
    split <;> simp [hm]
  all_goals simp +zetaDelta [hm]

@[simp] theorem execLinkNak_form (n : PortIdx) : FormNext (execLinkNak t n s) := by simp +contextual [execLinkNak, hm]

@[simp] theorem execFlyoverRemoved_form (n : PortIdx) (present : Bool) :
    FormNext (execFlyoverRemoved t n present s) := by
  simp [execFlyoverRemoved, hm]

/-! #### Machine/Resil.lean -/

@[simp] theorem execDieHeartbeatLoss_form (d : DieIdx) (cause : LossCause) (dirty : List (BitVec 48)) :
    FormNext (execDieHeartbeatLoss t d cause dirty s) := by
  fun_cases execDieHeartbeatLoss t d cause dirty s <;> simp +zetaDelta [hm]

@[simp] theorem execDoffShardsAck_form (p : PartIdx) (failed : Bool) : FormNext (execDoffShardsAck t p failed s) := by
  fun_cases execDoffShardsAck t p failed s <;> simp +zetaDelta [hm]

@[simp] theorem execDoffManifestAck_form (p : PartIdx) (failed : Bool) :
    FormNext (execDoffManifestAck t p failed s) := by
  fun_cases execDoffManifestAck t p failed s <;> simp +zetaDelta [hm]

/-! #### Machine/Sharing.lean -/

@[simp] theorem execArbitrationRound_form (pl : ArbPlace) (c1 : Bool) (arr : List Arrival) :
    FormNext (execArbitrationRound t pl c1 arr s) := by
  simp [execArbitrationRound, hm]

@[simp] theorem execRequestPromote_form (pl : ArbPlace) (c1 : Bool) : FormNext (execRequestPromote t pl c1 s) := by
  simp [execRequestPromote, hm]

@[simp] theorem execArbitrationBound_form (pl : ArbPlace) (c1 : Bool) :
    FormNext (execArbitrationBound t pl c1 s) := by
  simp [execArbitrationBound, hm]

@[simp] theorem execChannelCommandSlot_form (d : DieIdx) (ch : Fin 64) (arr : List Arrival) (upkeep : Bool) :
    FormNext (execChannelCommandSlot t d ch arr upkeep s) := by
  unfold execChannelCommandSlot
  dsimp only
  split
  · simp [hm]
  · refine formNext_next.2 ?_
    split
    · split <;> simp [hm]
    · split <;> simp [hm]

@[simp] theorem execChannelSlotWindow_form (d : DieIdx) : FormNext (execChannelSlotWindow t d s) := by
  simp +contextual [execChannelSlotWindow, hm]

@[simp] theorem execLinkFrame_form (pl : ArbPlace) (c0 : List (Nat × Nat)) : FormNext (execLinkFrame t pl c0 s) := by
  cases pl <;> simp +contextual [execLinkFrame, hm]

/-! #### Machine/MemRows.lean -/

@[simp] theorem execScrubPass_form (d : DieIdx) (arisen : List Upset) (lo n so sn : Nat) :
    FormNext (execScrubPass t d arisen lo n so sn s) := by
  simp +contextual [execScrubPass, hm]

@[simp] theorem execBondLaneReplace_form (d : DieIdx) (ch : Fin 64) (bond : Nat) :
    FormNext (execBondLaneReplace t d ch bond s) := by
  simp [execBondLaneReplace, hm]

@[simp] theorem execDramTempSample_form (d : DieIdx) (temp : Nat) : FormNext (execDramTempSample t d temp s) := by
  simp [execDramTempSample, hm]

@[simp] theorem execSramColumnRepair_form (d : DieIdx) : FormNext (execSramColumnRepair t d s) := by
  simp [execSramColumnRepair, hm]

@[simp] theorem execTrafficGenStart_form (q : Option Nat) (v : BitVec 32) :
    FormNext (execTrafficGenStart t q v s) := by
  simp [execTrafficGenStart, hm]

@[simp] theorem execTrafficGenStop_form (q : Option Nat) (v : BitVec 32) (moved : Nat)
    (miss : List (Fin 64 × List GenMiss)) : FormNext (execTrafficGenStop t q v moved miss s) := by
  simp +contextual [execTrafficGenStop, hm]

@[simp] theorem execTrafficGenDone_form (d : DieIdx) (ch : Fin 64) (miss : List GenMiss) :
    FormNext (execTrafficGenDone t d ch miss s) := by
  simp [execTrafficGenDone, hm]

/-! #### Machine/Restore.lean -/

@[simp] theorem execRestoreRequest_form (q : Option Nat) (v : BitVec 64) : FormNext (execRestoreRequest t q v s) := by
  simp [execRestoreRequest, hm]

@[simp] theorem execRestoreFinish_form (areas : List (Nat × List Byte)) : FormNext (execRestoreFinish t areas s) := by
  fun_cases execRestoreFinish t areas s
  case case6 v0 _ _ _ _ _ _ _ _ _ _ v1 v2 v3 _ v4 =>
    have h0 : Mem.wf v0.mem = true := by simp +zetaDelta [hm]
    have h1 : Mem.wf v1.mem = true := by
      refine foldl_wf ?_ _ h0
      rintro s m _ h rfl
      simp [h]
    have h2 : Mem.wf v2.mem = true := by
      refine foldl_wf ?_ _ h1
      rintro s e _ h rfl
      split <;> simp [h]
    have h3 : Mem.wf v3.mem = true := (State.writeReport_form ..).form h2
    have h4 : Mem.wf v4.mem = true := by
      refine foldl_wf ?_ _ h3
      rintro s p _ h rfl
      simp [h]
    clear_value v4
    simp [h4]
  all_goals simp +zetaDelta [hm]

/-! #### Machine/Setup.lean -/

@[simp] theorem execRoleMapWrite_form (q : Option Nat) (die : DieIdx) (v : BitVec 16) :
    FormNext (execRoleMapWrite t q die v s) := by
  simp [execRoleMapWrite, hm]

@[simp] theorem execShareWrite_form (q : Option Nat) (part : Fin 5) (sub : Nat) (v : BitVec 16) :
    FormNext (execShareWrite t q part sub v s) := by
  simp [execShareWrite, hm]

@[simp] theorem execRegionEntryWrite_form (q : Option Nat) (die : DieIdx) (e : BitVec 8) (v : BitVec 64) :
    FormNext (execRegionEntryWrite t q die e v s) := by
  simp [execRegionEntryWrite, hm]

@[simp] theorem execPartitionCommit_form (q : Option Nat) (v : BitVec 8) (agree : Bool) :
    FormNext (execPartitionCommit t q v agree s) := by
  have hcrit {u : State} {b : Bool} (e : (s.arrive t).critical agree = (u, b)) : Mem.wf u.mem = true := by
    simp [fst_of_eq e, hm]
  fun_cases execPartitionCommit t q v agree s
  case case4 e => simp -implicitDefEqProofs [hcrit e]
  case case5 e => simp [hcrit e]
  all_goals simp +zetaDelta [hm]

@[simp] theorem execRngKeyWrite_form (q : Option Nat) (p : PartIdx) (v : BitVec 128) :
    FormNext (execRngKeyWrite t q p v s) := by
  simp +contextual [execRngKeyWrite, hm]

@[simp] theorem execRngKeyEntropy_form (q : Option Nat) (p : PartIdx) (v : BitVec 8) :
    FormNext (execRngKeyEntropy t q p v s) := by
  fun_cases execRngKeyEntropy t q p v s
  case case5 e => simp +zetaDelta [snd_of_eq e, hm]
  all_goals simp +zetaDelta [hm]

@[simp] theorem execReelReadWrite_form (q : Option Nat) (p : PartIdx) (v : BitVec 64) :
    FormNext (execReelReadWrite t q p v s) := by
  simp [execReelReadWrite, hm]

@[simp] theorem execReplayFabricInput_form (p : PartIdx) : FormNext (execReplayFabricInput t p s) := by
  fun_cases execReplayFabricInput t p s
  case case4 =>
    simp +zetaDelta
    split <;> simp [hm]
  all_goals simp +zetaDelta [hm]

/-! #### Machine/Security.lean -/

@[simp] theorem execLcRequest_form (q : Option Nat) (record : List Byte) (agree : Bool) :
    FormNext (execLcRequest t q record agree s) := by
  fun_cases execLcRequest t q record agree s
  case case1 | case2 | case3 | case4 => simp +zetaDelta [hm]
  case case5 | case6 => simp +zetaDelta [hm, fst_of_eq ‹_ = (_, _)›]

@[simp] theorem execLcEraseDone_form (mismatch : Bool) : FormNext (execLcEraseDone t mismatch s) := by
  fun_cases execLcEraseDone t mismatch s <;> simp +zetaDelta [hm]

@[simp] theorem execTestPortInstruction_form (op : TestOp) : FormNext (execTestPortInstruction t op s) := by
  fun_cases execTestPortInstruction t op s <;> simp +zetaDelta [hm]

@[simp] theorem execDebugGrant_form (q : Option Nat) (grant : List Byte) (agree : Bool) :
    FormNext (execDebugGrant t q grant agree s) := by
  fun_cases execDebugGrant t q grant agree s
  case case1 | case2 | case3 | case4 => simp +zetaDelta [hm]
  case case5 | case6 => simp +zetaDelta [hm, fst_of_eq ‹_ = (_, _)›]

@[simp] theorem execSvnCommit_form (q : Option Nat) (v : BitVec 32) : FormNext (execSvnCommit t q v s) := by
  simp [execSvnCommit, hm]

@[simp] theorem execAttestNonceWrite_form (q : Option Nat) (nonce : List Byte) :
    FormNext (execAttestNonceWrite t q nonce s) := by
  unfold execAttestNonceWrite
  dsimp only
  cases (s.arrive t).refusal q 0x9030 1 true with
  | some st => simp [hm]
  | none => cases q with
    | none => simp [hm]
    | some id => cases (s.arrive t).sessionOf (some id) <;> simp [hm]

@[simp] theorem execAttestReportRead_form (q : Option Nat) (agree : Bool) :
    FormNext (execAttestReportRead t q agree s) := by
  simp [execAttestReportRead, hm]

/-! #### Machine/Od.lean -/

@[simp] theorem execOdRead_form (q : Option Nat) (idx : BitVec 16) (sub : BitVec 8) (whole : Bool) :
    FormNext (execOdRead t q idx sub whole s) := by
  simp [execOdRead, hm]

@[simp] theorem execOdDescribe_form (q : Option Nat) (idx : BitVec 16) (sub : BitVec 8) (whole : Bool) :
    FormNext (execOdDescribe t q idx sub whole s) := by
  simp [execOdDescribe, hm]

/-! #### Machine/Power.lean -/

@[simp] theorem execPowerSample_form (watts : Nat) (currents : List (Fin 40 × Nat)) :
    FormNext (execPowerSample t watts currents s) := by
  simp +contextual [execPowerSample, hm]

@[simp] theorem execPowerLimitEscalate_form : FormNext (execPowerLimitEscalate t s) := by
  fun_cases execPowerLimitEscalate t s <;> simp +zetaDelta [hm]

@[simp] theorem execThermalSample_form (d : DieIdx) (temp : ℤ) (dirty : List (BitVec 48)) :
    FormNext (execThermalSample t d temp dirty s) := by
  simp [execThermalSample, hm]

@[simp] theorem execDroopAlert_form (k : Fin 8) : FormNext (execDroopAlert t k s) := by simp [execDroopAlert, hm]

@[simp] theorem execDroopRelease_form (k : Fin 8) (released : Nat) : FormNext (execDroopRelease t k released s) := by
  simp [execDroopRelease, hm]

@[simp] theorem execReplanNow_form (q : Option Nat) (v : BitVec 8) : FormNext (execReplanNow t q v s) := by
  fun_cases execReplanNow t q v s <;> simp +zetaDelta [hm]

@[simp] theorem execMarginReplan_form (ms : List Margin) : FormNext (execMarginReplan t ms s) := by
  simp [execMarginReplan, hm]

@[simp] theorem execAvsSetpointStep_form (r : Fin 40) : FormNext (execAvsSetpointStep t r s) := by
  simp [execAvsSetpointStep, hm]

@[simp] theorem execAgeingAccrue_form : FormNext (execAgeingAccrue t s) := by simp [execAgeingAccrue, hm]

@[simp] theorem execClockAccept_form (q : Option Nat) (v : BitVec 16) : FormNext (execClockAccept t q v s) := by
  simp +contextual [execClockAccept, hm]

@[simp] theorem execClockChangeApply_form : FormNext (execClockChangeApply t s) := by simp [execClockChangeApply, hm]

/-! #### Machine/Boot.lean -/

@[simp] theorem execResetRequestCold_form (q : Option Nat) : FormNext (execResetRequestCold t q s) := by
  simp [execResetRequestCold, hm]

@[simp] theorem execColdResetDelayExpiry_form : FormNext (execColdResetDelayExpiry t s) := by
  fun_cases execColdResetDelayExpiry t s <;> simp +zetaDelta [hm]

@[simp] theorem execRailOutOfRange_form : FormNext (execRailOutOfRange t s) := by simp [execRailOutOfRange, hm]

@[simp] theorem execPkgResetAssert_form (ns : Nat) : FormNext (execPkgResetAssert t ns s) := by
  simp [execPkgResetAssert, hm]

@[simp] theorem execPkgResetRelease_form (straps : BitVec 4) : FormNext (execPkgResetRelease t straps s) := by
  simp [execPkgResetRelease, hm]

@[simp] theorem execPllLock_form (ok : Bool) : FormNext (execPllLock t ok s) := by simp [execPllLock, hm]

@[simp] theorem execSealBoot_form (a b : List Byte) (agreeA agreeB failA failB : Bool) :
    FormNext (execSealBoot t a b agreeA agreeB failA failB s) := by
  simp [execSealBoot, hm]

@[simp] theorem execStewardStart_form : FormNext (execStewardStart t s) := by simp [execStewardStart, hm]

@[simp] theorem execStewardStartTimeout_form : FormNext (execStewardStartTimeout t s) := by
  simp [execStewardStartTimeout, hm]

@[simp] theorem execDramTraining_form (bonds : List (DieIdx × Fin 64 × Fin 576)) (offline : List DieIdx) :
    FormNext (execDramTraining t bonds offline s) := by
  simp +contextual [execDramTraining, hm]

@[simp] theorem execDieSelfTest_form (columns : List (DieIdx × Nat × Nat)) (failed : List DieIdx) :
    FormNext (execDieSelfTest t columns failed s) := by
  simp +contextual [execDieSelfTest, hm]

@[simp] theorem execStartupUnlocked_form : FormNext (execStartupUnlocked t s) := by simp [execStartupUnlocked, hm]
@[simp] theorem execCxlPerstRelease_form : FormNext (execCxlPerstRelease t s) := by simp [execCxlPerstRelease, hm]

@[simp] theorem execCxlTraining_form (ok : Bool) (width rate : Nat) :
    FormNext (execCxlTraining t ok width rate s) := by
  simp [execCxlTraining, hm]

@[simp] theorem execResetRequestWarm_form (q : Option Nat) : FormNext (execResetRequestWarm t q s) := by
  simp +contextual [execResetRequestWarm, hm]

@[simp] theorem execWarmResetInput_form (ns : Nat) : FormNext (execWarmResetInput t ns s) := by
  simp [execWarmResetInput, hm]

@[simp] theorem execWarmResetComplete_form (columns : List (DieIdx × Nat × Nat)) (failed : List DieIdx) :
    FormNext (execWarmResetComplete t columns failed s) := by
  simp +contextual [execWarmResetComplete, hm]

@[simp] theorem execThermtrip_form : FormNext (execThermtrip t s) := by simp [execThermtrip, hm]

@[simp] theorem execRefclkLost_form (c : RefClock) : FormNext (execRefclkLost t c s) := by
  fun_cases execRefclkLost t c s <;> simp +zetaDelta [hm]

/-! #### Machine/DraftRows.lean -/

@[simp] theorem execDraftLoad_form (q : Option Nat) (p : PartIdx) : FormNext (execDraftLoad t q p s) := by
  simp +contextual [execDraftLoad, hm]

@[simp] theorem execDraftStart_form (q : Option Nat) (p : PartIdx) : FormNext (execDraftStart t q p s) := by
  simp [execDraftStart, hm]

@[simp] theorem execDraftStop_form (q : Option Nat) (p : PartIdx) : FormNext (execDraftStop t q p s) := by
  simp [execDraftStop, hm]

@[simp] theorem execDraftAbort_form (q : Option Nat) (p : PartIdx) : FormNext (execDraftAbort t q p s) := by
  refine formNext_next.2 ((State.command_form _ _ _ _ _ fun s h => ?_).form (by simp [hm]))
  dsimp only
  split <;> simp [h]

@[simp] theorem execDraftUnload_form (q : Option Nat) (p : PartIdx) : FormNext (execDraftUnload t q p s) := by
  simp +contextual [execDraftUnload, hm]

@[simp] theorem execDraftStartTick_form (p : PartIdx) (seeding : Nat) :
    FormNext (execDraftStartTick t p seeding s) := by
  fun_cases execDraftStartTick t p seeding s <;> simp +zetaDelta [State.beginDraftTick_mem, hm]

@[simp] theorem execGate_form (p : PartIdx) (g : Nat) : FormNext (execGate t p g s) := by
  fun_cases execGate t p g s <;> simp +zetaDelta [hm]

@[simp] theorem execGateRetest_form (p : PartIdx) : FormNext (execGateRetest t p s) := by
  fun_cases execGateRetest t p s <;> simp +zetaDelta [hm]

@[simp] theorem execStepCommit_form (p : PartIdx) : FormNext (execStepCommit t p s) := by
  fun_cases execStepCommit t p s
  case case1 | case2 | case3 | case4 => simp +zetaDelta [hm]
  case case5 | case6 => simp +zetaDelta [hm, fst_of_eq ‹_ = (_, _)›]

@[simp] theorem execCommitVoteLost_form (p : PartIdx) : FormNext (execCommitVoteLost t p s) := by
  fun_cases execCommitVoteLost t p s <;> simp +zetaDelta [hm]

@[simp] theorem execOutputRelease_form (p : PartIdx) (pulse : Option Pulse) :
    FormNext (execOutputRelease t p pulse s) := by
  fun_cases execOutputRelease t p pulse s <;> simp +zetaDelta [hm]

@[simp] theorem execTreadlePulseEnd_form : FormNext (execTreadlePulseEnd t s) := by simp [execTreadlePulseEnd, hm]

@[simp] theorem execRerunStart_form (p : PartIdx) : FormNext (execRerunStart t p s) := by
  fun_cases execRerunStart t p s <;> simp +zetaDelta [State.beginDraftTick_mem, hm]

@[simp] theorem execSignatureCompare_form (slot : Slot) (tick : Nat) (gate : Option Nat) (missing : Bool) :
    FormNext (execSignatureCompare t slot tick gate missing s) := by
  fun_cases execSignatureCompare t slot tick gate missing s <;> simp +zetaDelta [hm]

/-! #### Machine/FabricRows.lean -/

@[simp] theorem execSolverLoad_form (h : HartIdx) (a : BitVec 56) (size rd : Nat) (signed fp lr : Bool) :
    FormNext (execSolverLoad t h a size rd signed fp lr s) := by
  fun_cases execSolverLoad t h a size rd signed fp lr s
  case case5 e | case6 e _ => simp +zetaDelta [fst_of_eq e, hm]
  case case9 =>
    refine formNext_next.2 (foldl_wf ?_ _ (by simp +zetaDelta [hm]))
    rintro s i _ h rfl
    simp [h]
  all_goals simp +zetaDelta [hm]

@[simp] theorem execSolverFence_form (h : HartIdx) : FormNext (execSolverFence t h s) := by simp [execSolverFence, hm]

@[simp] theorem execFenceComplete_form (h : HartIdx) : FormNext (execFenceComplete t h s) := by
  simp [execFenceComplete, hm]

@[simp] theorem execOwnAcquire_form (h : HartIdx) (a : BitVec 56) (rd : Nat) (word : BitVec 64) :
    FormNext (execOwnAcquire t h a rd word s) := by
  simp [execOwnAcquire, hm]

@[simp] theorem execOwnRelease_form (h : HartIdx) (a : BitVec 56) (rd : Nat) (word : BitVec 64) :
    FormNext (execOwnRelease t h a rd word s) := by
  simp [execOwnRelease, hm]

@[simp] theorem execOwnHandover_form (h : HartIdx) (a : BitVec 56) (rd : Nat) (word : BitVec 64) :
    FormNext (execOwnHandover t h a rd word s) := by
  simp [execOwnHandover, hm]

@[simp] theorem execGatherDoorbell_form (h : HartIdx) (rd : Nat) (desc : BitVec 64) :
    FormNext (execGatherDoorbell t h rd desc s) := by
  simp [execGatherDoorbell, hm]

@[simp] theorem execSolverStore_form (h : HartIdx) (a : BitVec 56) (size rs2 rd : Nat) (kind : StoreKind) :
    FormNext (execSolverStore t h a size rs2 rd kind s) := by
  fun_cases execSolverStore t h a size rs2 rd kind s <;> simp +zetaDelta [hm]

@[simp] theorem execGatherComplete_form (h : HartIdx) (j : Nat) : FormNext (execGatherComplete t h j s) := by
  fun_cases execGatherComplete t h j s
  case case1 | case2 => simp +zetaDelta [hm]
  case case3 | case4 | case5 => simp +zetaDelta [hm, fst_of_eq ‹_ = (_, _)›]

@[simp] theorem execLd_form (k : Packet) : FormNext (execLd t k s) := by
  fun_cases execLd t k s
  case case1 => simp +zetaDelta [hm]
  case case2 | case3 => simp +zetaDelta [hm, fst_of_eq ‹_ = (_, _)›]

@[simp] theorem execSt_form (k : Packet) : FormNext (execSt t k s) := by simp [execSt, hm]
@[simp] theorem execAmoAdd_form (k : Packet) : FormNext (execAmoAdd t k s) := by simp [execAmoAdd, hm]
@[simp] theorem execAmoSwap_form (k : Packet) : FormNext (execAmoSwap t k s) := by simp [execAmoSwap, hm]
@[simp] theorem execAmoCas_form (k : Packet) : FormNext (execAmoCas t k s) := by simp [execAmoCas, hm]
@[simp] theorem execAmoAnd_form (k : Packet) : FormNext (execAmoAnd t k s) := by simp [execAmoAnd, hm]
@[simp] theorem execAmoOr_form (k : Packet) : FormNext (execAmoOr t k s) := by simp [execAmoOr, hm]
@[simp] theorem execAmoXor_form (k : Packet) : FormNext (execAmoXor t k s) := by simp [execAmoXor, hm]
@[simp] theorem execAmoMinu_form (k : Packet) : FormNext (execAmoMinu t k s) := by simp [execAmoMinu, hm]
@[simp] theorem execAmoMaxu_form (k : Packet) : FormNext (execAmoMaxu t k s) := by simp [execAmoMaxu, hm]
@[simp] theorem execAmoMin_form (k : Packet) : FormNext (execAmoMin t k s) := by simp [execAmoMin, hm]
@[simp] theorem execAmoMax_form (k : Packet) : FormNext (execAmoMax t k s) := by simp [execAmoMax, hm]
@[simp] theorem execAmoFadd_form (k : Packet) : FormNext (execAmoFadd t k s) := by simp [execAmoFadd, hm]
@[simp] theorem execOwnCmd_form (k : Packet) : FormNext (execOwnCmd t k s) := by simp [execOwnCmd, hm]

@[simp] theorem execLedgerEntryAgeOut_form (path unit : Nat) : FormNext (execLedgerEntryAgeOut t path unit s) := by
  simp [execLedgerEntryAgeOut, hm]

@[simp] theorem execResponse_form (k : Packet) : FormNext (execResponse t k s) := by
  fun_cases execResponse t k s
  case case1 | case2 => simp +zetaDelta [hm]
  case case3 | case4 => simp +zetaDelta [hm, fst_of_eq ‹_ = (_, _)›]

@[simp] theorem execRequestReissue_form (u tag : Nat) : FormNext (execRequestReissue t u tag s) := by
  fun_cases execRequestReissue t u tag s <;> simp +zetaDelta [hm]

@[simp] theorem execRequestDeadTimeout_form (u tag : Nat) : FormNext (execRequestDeadTimeout t u tag s) := by
  fun_cases execRequestDeadTimeout t u tag s
  case case1 | case2 => simp +zetaDelta [hm]
  case case3 | case4 => simp +zetaDelta [hm, fst_of_eq ‹_ = (_, _)›]

@[simp] theorem execHeartbeatFlit_form (port : PortIdx) (path : BitVec 48) :
    FormNext (execHeartbeatFlit t port path s) := by
  simp [execHeartbeatFlit, hm]

@[simp] theorem execDeadClear_form (q : Option Nat) (v : BitVec 64) : FormNext (execDeadClear t q v s) := by
  simp [execDeadClear, hm]

@[simp] theorem execOwnForceOpen_form (q : Option Nat) (v : BitVec 64) : FormNext (execOwnForceOpen t q v s) := by
  refine formNext_next.2 ((State.command_form _ _ _ _ _ fun s h => ?_).form (by simp [hm]))
  split <;> simp [h]

@[simp] theorem execAdmitRound_form : FormNext (execAdmitRound t s) := by simp +contextual [execAdmitRound, hm]

@[simp] theorem execCollLaunchDoorbell_form (h : HartIdx) (rd : Nat) (desc : BitVec 64) :
    FormNext (execCollLaunchDoorbell t h rd desc s) := by
  fun_cases execCollLaunchDoorbell t h rd desc s
  case case1 | case2 | case3 => simp +zetaDelta [hm]
  case case4 | case5 | case6 => simp +zetaDelta [hm, fst_of_eq ‹_ = (_, _)›]

@[simp] theorem execCollLaunch_form (k : Packet) : FormNext (execCollLaunch t k s) := by
  fun_cases execCollLaunch t k s <;> simp +zetaDelta [hm, fst_of_eq ‹_ = (_, _)›]

@[simp] theorem execCollChunk_form (k : Packet) (cr : CreelCheck) : FormNext (execCollChunk t k cr s) := by
  fun_cases execCollChunk t k cr s <;> simp +zetaDelta [hm, fst_of_eq ‹_ = (_, _)›]

@[simp] theorem execCollAck_form (k : Packet) : FormNext (execCollAck t k s) := by
  fun_cases execCollAck t k s <;> simp +zetaDelta [hm, fst_of_eq ‹_ = (_, _)›]

@[simp] theorem execCollTaintPacket_form (k : Packet) : FormNext (execCollTaintPacket t k s) := by
  fun_cases execCollTaintPacket t k s <;> simp +zetaDelta [hm, fst_of_eq ‹_ = (_, _)›]

@[simp] theorem execCollNak_form (k : Packet) : FormNext (execCollNak t k s) := by
  fun_cases execCollNak t k s <;> simp +zetaDelta [hm]

@[simp] theorem execGenAheadExpiry_form (p : PartIdx) (g cseq : Nat) :
    FormNext (execGenAheadExpiry t p g cseq s) := by
  fun_cases execGenAheadExpiry t p g cseq s <;> simp +zetaDelta [hm]

@[simp] theorem execChunkResendTimeout_form (p : PartIdx) (g cseq : Nat) (peer : BitVec 48) (depth : Nat)
    (down : Bool) (chunk : Nat) (ask : Bool) (tries : Nat) :
    FormNext (execChunkResendTimeout t p g cseq peer depth down chunk ask tries s) := by
  fun_cases execChunkResendTimeout t p g cseq peer depth down chunk ask tries s <;> simp +zetaDelta [hm]

@[simp] theorem execQChunk_form (p : PartIdx) (f : Fin 8) (e : Nat) : FormNext (execQChunk t p f e s) := by
  fun_cases execQChunk t p f e s
  case case1 => simp +zetaDelta [hm]
  case case2 => simp +zetaDelta [hm, fst_of_eq ‹_ = (_, _)›]

@[simp] theorem execQNop_form (p : PartIdx) (_f : Fin 8) (_e : Nat) : FormNext (execQNop t p _f _e s) := by
  simp [execQNop, hm]

@[simp] theorem execCommitVote_form (k : Packet) : FormNext (execCommitVote t k s) := by
  fun_cases execCommitVote t k s <;> simp +zetaDelta [hm]

@[simp] theorem execCommitResult_form (k : Packet) : FormNext (execCommitResult t k s) := by
  fun_cases execCommitResult t k s <;> simp +zetaDelta [hm]

@[simp] theorem execGroupReform_form (q : Option Nat) (p : PartIdx) (g : BitVec 8) :
    FormNext (execGroupReform t q p g s) := by
  unfold execGroupReform
  dsimp only
  split
  · split <;> simp [hm]
  · refine formNext_next.2 ((State.command_form _ _ _ _ _ fun s h => ?_).form (by simp [hm]))
    split <;> simp [h]

/-! #### Machine/Host.lean -/

@[simp] theorem execHdmSizeWrite_form (q : Option Nat) (v : BitVec 16) : FormNext (execHdmSizeWrite t q v s) := by
  fun_cases execHdmSizeWrite t q v s <;> simp +zetaDelta [hm]

@[simp] theorem execHdmDecoderCommit_form (gib : Nat) : FormNext (execHdmDecoderCommit t gib s) := by
  simp [execHdmDecoderCommit, hm]

@[simp] theorem execHostRead_form (o : Nat) : FormNext (execHostRead t o s) := by
  fun_cases execHostRead t o s
  case case1 | case2 => simp +zetaDelta [hm]
  case case3 | case4 => simp +zetaDelta [hm, fst_of_eq ‹_ = (_, _)›]

@[simp] theorem execHostWrite_form (o : Nat) (data : List Byte) (mask : BitVec 64) :
    FormNext (execHostWrite t o data mask s) := by
  fun_cases execHostWrite t o data mask s <;> simp +zetaDelta [hm]

@[simp] theorem execBiSnoopResponse_form (region : Nat) (dirty : List (Fin 32768 × List Byte)) :
    FormNext (execBiSnoopResponse t region dirty s) := by
  unfold execBiSnoopResponse
  dsimp only
  split
  · refine formNext_next.2 ((congrArg Mem.wf (State.letGo_mem ..)).trans (foldl_wf ?_ _ (by simp [hm])))
    rintro s e _ h rfl
    simp [h]
  · simp [hm]

@[simp] theorem execCxlBiTimeout_form (region : Nat) (lines : List (Fin 32768)) :
    FormNext (execCxlBiTimeout t region lines s) := by
  unfold execCxlBiTimeout
  dsimp only
  split
  · simp [hm]
  split
  · simp [hm]
  · refine formNext_next.2 ((congrArg Mem.wf (State.letGo_mem ..)).trans (foldl_wf ?_ _ (by simp [hm])))
    rintro s i _ h rfl
    simp [h]

@[simp] theorem execWinPendClear_form (p : PartIdx) (v : BitVec 64) : FormNext (execWinPendClear t p v s) := by
  simp [execWinPendClear, hm]

@[simp] theorem execWinReleaseWrite_form (p : PartIdx) (v : BitVec 64) : FormNext (execWinReleaseWrite t p v s) := by
  simp [execWinReleaseWrite, hm]

@[simp] theorem execHostReleaseDone_form (p : PartIdx) (w : Fin 64) : FormNext (execHostReleaseDone t p w s) := by
  fun_cases execHostReleaseDone t p w s
  case case1 | case2 | case4 => simp +zetaDelta [hm]
  case case3 => simp +zetaDelta [hm, fst_of_eq ‹_ = (_, _)›]

@[simp] theorem execHostDoorbellWrite_form (p : PartIdx) (v : BitVec 64) :
    FormNext (execHostDoorbellWrite t p v s) := by
  simp [execHostDoorbellWrite, hm]

@[simp] theorem execMbIdentify_form : FormNext (execMbIdentify t s) := by simp [execMbIdentify, hm]

@[simp] theorem execMbGetSupportedLogs_form : FormNext (execMbGetSupportedLogs t s) := by
  simp [execMbGetSupportedLogs, hm]

@[simp] theorem execMbGetLog_form (uuid : List Byte) (off len : BitVec 32) :
    FormNext (execMbGetLog t uuid off len s) := by
  simp [execMbGetLog, hm]

@[simp] theorem execMbHostCopy_form (hostAddr pkgAddr : BitVec 64) (len : BitVec 32) (dir : BitVec 8) :
    FormNext (execMbHostCopy t hostAddr pkgAddr len dir s) := by
  simp [execMbHostCopy, hm]

@[simp] theorem execHostCopyDone_form (host : List (Option (List Byte))) : FormNext (execHostCopyDone t host s) := by
  have hback {u : State} {b : Bool} {pa n : Nat} (e : (s.arrive t).backInvalidate pa n = (u, b)) :
      Mem.wf u.mem = true := by
    simp [fst_of_eq e, hm]
  fun_cases execHostCopyDone t host s
  case case3 e => simp [hback e]
  case case4 h1 _ _ _ h2 => simp [fst_of_eq h2, hback h1]
  all_goals simp +zetaDelta [hm]

@[simp] theorem execMbOwnershipCmd_form (region word : BitVec 64) :
    FormNext (execMbOwnershipCmd t region word s) := by
  refine formNext_next.2 ((State.mailbox_form _ _ _ fun s h => ?_).form (by simp [hm]))
  split
  · split <;> next e => simp [fst_of_eq e, h]
  · simp [h]

@[simp] theorem execMbCollLaunch_form (p : BitVec 8) (desc : BitVec 64) : FormNext (execMbCollLaunch t p desc s) := by
  refine formNext_next.2 ((State.mailbox_form _ _ _ fun s h => ?_).form (by simp [hm]))
  dsimp only
  split
  · simp [h]
  · split
    next e => simp [fst_of_eq e, h]
    next e => split <;> next e' => simp [fst_of_eq e, fst_of_eq e', h]

/-! #### Machine/Session.lean -/

@[simp] theorem execClientHello_form (tr : Transport) (body : List Byte) (agree : Bool) :
    FormNext (execClientHello t tr body agree s) := by
  simp [execClientHello, hm]

@[simp] theorem execClientAuth_form (tr : Transport) (id : Nat) (body : List Byte) (agree : Bool) :
    FormNext (execClientAuth t tr id body agree s) := by
  simp [execClientAuth, hm]

@[simp] theorem execSessionClose_form (tr : Transport) (id seq : Nat) (tag : List Byte) :
    FormNext (execSessionClose t tr id seq tag s) := by
  simp [execSessionClose, hm]

@[simp] theorem execSessionIdleTimeout_form (id : Nat) : FormNext (execSessionIdleTimeout t id s) := by
  fun_cases execSessionIdleTimeout t id s <;> simp +zetaDelta [hm]

@[simp] theorem execSessionLifetimeExpiry_form (id : Nat) : FormNext (execSessionLifetimeExpiry t id s) := by
  fun_cases execSessionLifetimeExpiry t id s <;> simp +zetaDelta [hm]

/-! #### Machine/Aoap.lean -/

@[simp] theorem execOdSubscribe_form (q : Option Nat) (idx : BitVec 16) (sub : BitVec 8) (data : List Byte) :
    FormNext (execOdSubscribe t q idx sub data s) := by
  simp [execOdSubscribe, hm]

@[simp] theorem execOdUnsubscribe_form (q : Option Nat) (data : List Byte) :
    FormNext (execOdUnsubscribe t q data s) := by
  simp [execOdUnsubscribe, hm]

@[simp] theorem execValueNotify_form (id sid : Nat) : FormNext (execValueNotify t id sid s) := by
  fun_cases execValueNotify t id sid s <;> simp +zetaDelta [hm]

@[simp] theorem execUdpReassemblyTimeout_form (port : Bool) (src msgId : Nat) :
    FormNext (execUdpReassemblyTimeout t port src msgId s) := by
  simp [execUdpReassemblyTimeout, hm]

@[simp] theorem execMbNotifyDrain_form : FormNext (execMbNotifyDrain t s) := by
  refine formNext_next.2 ((State.mailbox_form _ _ _ fun s h => ?_).form (by simp [hm]))
  split
  · simp [h]
  · dsimp only
    split <;> simp [h]

@[simp] theorem execEthLinkChange_form (port up : Bool) : FormNext (execEthLinkChange t port up s) := by
  simp [execEthLinkChange, hm]

@[simp] theorem execMctpEidAssign_form (bus : Bool) (eid : BitVec 8) : FormNext (execMctpEidAssign t bus eid s) := by
  simp [execMctpEidAssign, hm]

/-! #### Machine/CadenceRows.lean -/

@[simp] theorem execTickBoundary_form : FormNext (execTickBoundary t s) := by simp [execTickBoundary, hm]

@[simp] theorem execCad1ppsEdge_form (pulseNs : Nat) (ref10mOk : Bool) :
    FormNext (execCad1ppsEdge t pulseNs ref10mOk s) := by
  simp [execCad1ppsEdge, hm]

@[simp] theorem execCad1ppsTimeout_form : FormNext (execCad1ppsTimeout t s) := by simp [execCad1ppsTimeout, hm]
@[simp] theorem execCadRef10mTimeout_form : FormNext (execCadRef10mTimeout t s) := by simp [execCadRef10mTimeout, hm]

@[simp] theorem execCadRef10mOutOfRange_form : FormNext (execCadRef10mOutOfRange t s) := by
  simp [execCadRef10mOutOfRange, hm]

@[simp] theorem execTreadleEdge_form (falling : Bool) (pulseNs : Nat) :
    FormNext (execTreadleEdge t falling pulseNs s) := by
  fun_cases execTreadleEdge t falling pulseNs s <;> simp +zetaDelta [hm]

@[simp] theorem execTreadleTimeout_form : FormNext (execTreadleTimeout t s) := by simp [execTreadleTimeout, hm]

@[simp] theorem execPtpMessage_form (port : PortIdx) (kind : PtpKind) (src : BitVec 48) (tick : BitVec 64)
    (period : BitVec 32) (offsetPs : ℤ) : FormNext (execPtpMessage t port kind src tick period offsetPs s) := by
  fun_cases execPtpMessage t port kind src tick period offsetPs s <;> simp +zetaDelta [hm]

@[simp] theorem execDelayReqSend_form : FormNext (execDelayReqSend t s) := by
  fun_cases execDelayReqSend t s <;> simp +zetaDelta [hm]

@[simp] theorem execCadenceHoldoverLimit_form : FormNext (execCadenceHoldoverLimit t s) := by
  fun_cases execCadenceHoldoverLimit t s <;> simp +zetaDelta [hm]

@[simp] theorem execCadenceMasterHandover_form : FormNext (execCadenceMasterHandover t s) := by
  simp [execCadenceMasterHandover, hm]

/-! #### Machine/StationRows.lean -/

@[simp] theorem execNop_form (c : Cmd) : FormNext (execNop t c s) := by simp +contextual [execNop, hm]
@[simp] theorem execSetBase_form (c : Cmd) : FormNext (execSetBase t c s) := by simp +contextual [execSetBase, hm]
@[simp] theorem execSSetLo_form (c : Cmd) : FormNext (execSSetLo t c s) := by simp +contextual [execSSetLo, hm]
@[simp] theorem execSSetHi_form (c : Cmd) : FormNext (execSSetHi t c s) := by simp +contextual [execSSetHi, hm]
@[simp] theorem execSLoad_form (c : Cmd) : FormNext (execSLoad t c s) := by simp +contextual [execSLoad, hm]
@[simp] theorem execSStore_form (c : Cmd) : FormNext (execSStore t c s) := by simp +contextual [execSStore, hm]
@[simp] theorem execSInt_form (c : Cmd) : FormNext (execSInt t c s) := by simp +contextual [execSInt, hm]
@[simp] theorem execSFp64_form (c : Cmd) : FormNext (execSFp64 t c s) := by simp +contextual [execSFp64, hm]
@[simp] theorem execWSetup_form (c : Cmd) : FormNext (execWSetup t c s) := by simp +contextual [execWSetup, hm]
@[simp] theorem execWMma_form (c : Cmd) : FormNext (execWMma t c s) := by simp +contextual [execWMma, hm]
@[simp] theorem execWBatt_form (c : Cmd) : FormNext (execWBatt t c s) := by simp +contextual [execWBatt, hm]
@[simp] theorem execWAccOut_form (c : Cmd) : FormNext (execWAccOut t c s) := by simp +contextual [execWAccOut, hm]
@[simp] theorem execWAccIn_form (c : Cmd) : FormNext (execWAccIn t c s) := by simp +contextual [execWAccIn, hm]
@[simp] theorem execTLoad_form (c : Cmd) : FormNext (execTLoad t c s) := by simp +contextual [execTLoad, hm]
@[simp] theorem execTAcc_form (c : Cmd) : FormNext (execTAcc t c s) := by simp +contextual [execTAcc, hm]
@[simp] theorem execTScale_form (c : Cmd) : FormNext (execTScale t c s) := by simp +contextual [execTScale, hm]
@[simp] theorem execTAdd_form (c : Cmd) : FormNext (execTAdd t c s) := by simp +contextual [execTAdd, hm]
@[simp] theorem execTSub_form (c : Cmd) : FormNext (execTSub t c s) := by simp +contextual [execTSub, hm]
@[simp] theorem execTMul_form (c : Cmd) : FormNext (execTMul t c s) := by simp +contextual [execTMul, hm]
@[simp] theorem execTDiv_form (c : Cmd) : FormNext (execTDiv t c s) := by simp +contextual [execTDiv, hm]
@[simp] theorem execTMin_form (c : Cmd) : FormNext (execTMin t c s) := by simp +contextual [execTMin, hm]
@[simp] theorem execTMax_form (c : Cmd) : FormNext (execTMax t c s) := by simp +contextual [execTMax, hm]
@[simp] theorem execTFma_form (c : Cmd) : FormNext (execTFma t c s) := by simp +contextual [execTFma, hm]
@[simp] theorem execTSqrt_form (c : Cmd) : FormNext (execTSqrt t c s) := by simp +contextual [execTSqrt, hm]
@[simp] theorem execTSign_form (c : Cmd) : FormNext (execTSign t c s) := by simp +contextual [execTSign, hm]
@[simp] theorem execTFunc_form (c : Cmd) : FormNext (execTFunc t c s) := by simp +contextual [execTFunc, hm]
@[simp] theorem execTCmp_form (c : Cmd) : FormNext (execTCmp t c s) := by simp +contextual [execTCmp, hm]
@[simp] theorem execTLive_form (c : Cmd) : FormNext (execTLive t c s) := by simp +contextual [execTLive, hm]
@[simp] theorem execTTri_form (c : Cmd) : FormNext (execTTri t c s) := by simp +contextual [execTTri, hm]
@[simp] theorem execTSel_form (c : Cmd) : FormNext (execTSel t c s) := by simp +contextual [execTSel, hm]
@[simp] theorem execTRsum_form (c : Cmd) : FormNext (execTRsum t c s) := by simp +contextual [execTRsum, hm]
@[simp] theorem execTRmax_form (c : Cmd) : FormNext (execTRmax t c s) := by simp +contextual [execTRmax, hm]
@[simp] theorem execTRmin_form (c : Cmd) : FormNext (execTRmin t c s) := by simp +contextual [execTRmin, hm]
@[simp] theorem execTCsum_form (c : Cmd) : FormNext (execTCsum t c s) := by simp +contextual [execTCsum, hm]
@[simp] theorem execTCmax_form (c : Cmd) : FormNext (execTCmax t c s) := by simp +contextual [execTCmax, hm]
@[simp] theorem execTCmin_form (c : Cmd) : FormNext (execTCmin t c s) := by simp +contextual [execTCmin, hm]
@[simp] theorem execTConv_form (c : Cmd) : FormNext (execTConv t c s) := by simp +contextual [execTConv, hm]
@[simp] theorem execTSmaxMax_form (c : Cmd) : FormNext (execTSmaxMax t c s) := by simp +contextual [execTSmaxMax, hm]
@[simp] theorem execTSmaxSum_form (c : Cmd) : FormNext (execTSmaxSum t c s) := by simp +contextual [execTSmaxSum, hm]
@[simp] theorem execTSmaxOut_form (c : Cmd) : FormNext (execTSmaxOut t c s) := by simp +contextual [execTSmaxOut, hm]
@[simp] theorem execTSmaxDot_form (c : Cmd) : FormNext (execTSmaxDot t c s) := by simp +contextual [execTSmaxDot, hm]
@[simp] theorem execTSmaxBwd_form (c : Cmd) : FormNext (execTSmaxBwd t c s) := by simp +contextual [execTSmaxBwd, hm]
@[simp] theorem execTNormSum_form (c : Cmd) : FormNext (execTNormSum t c s) := by simp +contextual [execTNormSum, hm]
@[simp] theorem execTNormVar_form (c : Cmd) : FormNext (execTNormVar t c s) := by simp +contextual [execTNormVar, hm]
@[simp] theorem execTNormOut_form (c : Cmd) : FormNext (execTNormOut t c s) := by simp +contextual [execTNormOut, hm]
@[simp] theorem execTNormDot_form (c : Cmd) : FormNext (execTNormDot t c s) := by simp +contextual [execTNormDot, hm]
@[simp] theorem execTNormBwd_form (c : Cmd) : FormNext (execTNormBwd t c s) := by simp +contextual [execTNormBwd, hm]
@[simp] theorem execTOptStep_form (c : Cmd) : FormNext (execTOptStep t c s) := by simp +contextual [execTOptStep, hm]

@[simp] theorem execTOptCommit_form (c : Cmd) : FormNext (execTOptCommit t c s) := by
  simp +contextual [execTOptCommit, hm]

@[simp] theorem execMemFill_form (c : Cmd) : FormNext (execMemFill t c s) := by simp +contextual [execMemFill, hm]
@[simp] theorem execMemCopy_form (c : Cmd) : FormNext (execMemCopy t c s) := by simp +contextual [execMemCopy, hm]
@[simp] theorem execCFill_form (c : Cmd) : FormNext (execCFill t c s) := by simp +contextual [execCFill, hm]
@[simp] theorem execCCopy_form (c : Cmd) : FormNext (execCCopy t c s) := by simp +contextual [execCCopy, hm]
@[simp] theorem execFColl_form (c : Cmd) : FormNext (execFColl t c s) := by simp +contextual [execFColl, hm]
@[simp] theorem execFVote_form (c : Cmd) : FormNext (execFVote t c s) := by simp +contextual [execFVote, hm]
@[simp] theorem execDShard_form (c : Cmd) : FormNext (execDShard t c s) := by simp +contextual [execDShard, hm]
@[simp] theorem execLMark_form (c : Cmd) : FormNext (execLMark t c s) := by simp +contextual [execLMark, hm]
@[simp] theorem execLDigest_form (c : Cmd) : FormNext (execLDigest t c s) := by simp +contextual [execLDigest, hm]

@[simp] theorem execTileStepStart_form (slot : Slot) (w : Nat) : FormNext (execTileStepStart t slot w s) := by
  fun_cases execTileStepStart t slot w s <;> simp +zetaDelta [hm]

@[simp] theorem execTileStepCheck_form (slot : Slot) (w : Nat) (r : StepCheck) :
    FormNext (execTileStepCheck t slot w r s) := by
  fun_cases execTileStepCheck t slot w r s <;> simp +zetaDelta [hm]

@[simp] theorem execRerunPauseEnd_form (p : PartIdx) : FormNext (execRerunPauseEnd t p s) := by
  fun_cases execRerunPauseEnd t p s <;> simp +zetaDelta [hm]

@[simp] theorem execTwistPassFlow_form (slot : Slot) (e : Nat) : FormNext (execTwistPassFlow t slot e s) := by
  fun_cases execTwistPassFlow t slot e s <;> simp +zetaDelta [hm]

@[simp] theorem execRovingTileSend_form (p : PartIdx) (r i : Nat) : FormNext (execRovingTileSend t p r i s) := by
  fun_cases execRovingTileSend t p r i s <;> simp +zetaDelta [hm]

@[simp] theorem execRovingTileArrive_form (p : PartIdx) (r i : Nat) : FormNext (execRovingTileArrive t p r i s) := by
  fun_cases execRovingTileArrive t p r i s <;> simp +zetaDelta [hm]

@[simp] theorem execRovingTile_form (k : Packet) : FormNext (execRovingTile t k s) := by
  fun_cases execRovingTile t k s <;> simp +zetaDelta [hm]

end

/-! ### Writes of command objects, and the messages that carry them -/

theorem State.nested_form {s : State} {f : State → Host.Outcome State Fault Refusal} (hm : Mem.wf s.mem = true)
    (h : FormNext (f s)) : Mem.wf (s.nested f).mem = true := by
  fun_cases State.nested s f
  case case1 e =>
    have hu := h _ e
    exact hu
  case case2 => exact hm

/-- A command, if one is given, keeps the form. -/
def GivenForm (s : State) (x : Option (State → Host.Outcome State Fault Refusal)) : Prop :=
  ∀ f, x = some f → FormNext (f s)

@[simp] theorem givenForm_none (s : State) : GivenForm s none := fun _ h => nomatch h

@[simp] theorem givenForm_some (s : State) (f : State → Host.Outcome State Fault Refusal) :
    GivenForm s (some f) ↔ FormNext (f s) := ⟨fun h => h f rfl, fun h _ e => Option.some.inj e ▸ h⟩

theorem GivenForm.ite {s : State} {c : Prop} [Decidable c] {a b : Option (State → Host.Outcome State Fault Refusal)}
    (ha : GivenForm s a) (hb : GivenForm s b) : GivenForm s (if c then a else b) := by
  split <;> assumption

theorem objectCommand_form (q : Option Nat) (i u : Nat) (data : List Byte) (o : Outside) (t : Nat) {s : State}
    (hm : Mem.wf s.mem = true) : GivenForm s (objectCommand q i u data o t) := by
  unfold objectCommand
  dsimp only
  repeat' refine .ite ?_ ?_
  all_goals simp only [givenForm_none, givenForm_some, execResetRequestCold_form, execResetRequestWarm_form,
    execHdmSizeWrite_form, execDraftLoad_form, execDraftStart_form, execDraftStop_form, execDraftAbort_form,
    execDraftUnload_form, execWindowQuorumWrite_form, execReelReadWrite_form, execRoleMapWrite_form,
    execPartitionCommit_form, execShareWrite_form, execRngKeyWrite_form, execRngKeyEntropy_form,
    execTrafficGenStop_form, execTrafficGenStart_form, execDeadClear_form, execOwnForceOpen_form,
    execGroupReform_form, execRestoreRequest_form, execLcRequest_form, execSvnCommit_form, execDebugGrant_form,
    execAttestNonceWrite_form, execRegionEntryWrite_form, execReplanNow_form, execClockAccept_form, hm]

@[simp] theorem State.writeObject_form (s : State) (q : Option Nat) (idx sub : Nat) (whole : Bool) (data : List Byte)
    (o : Outside) : s.FormKept (s.writeObject q idx sub whole data o) := .of fun hm => by
  fun_cases State.writeObject s q idx sub whole data o
  case case6 h => exact State.nested_form hm (objectCommand_form q _ _ data o _ hm _ h)
  case case9 h => simp [State.heldObject_mem h, hm]
  all_goals simp [hm]

@[simp] theorem State.serveReq_form (s : State) (q : Option Nat) (plain : Bool) (o : Outside) (r : AoapReq) :
    s.FormKept (s.serveReq q plain o r) := .of fun hm => by
  fun_cases State.serveReq s q plain o r <;> simp [hm]

@[simp] theorem State.serveReqs_form (q : Option Nat) (plain : Bool) (o : Outside) (room : Nat) (s : State)
    (l : List AoapReq) : s.FormKept (State.serveReqs q plain o room s l).1 := .of fun hm => by
  fun_induction State.serveReqs q plain o room s l
  case case1 | case3 => exact hm
  case case2 e ih => exact fst_of_eq e ▸ ih ((State.serveReq_form ..).form hm)

@[simp] theorem State.serveBody_form (s : State) (q : Option Nat) (plain : Bool) (o : Outside) (room : Nat)
    (body : List Byte) : s.FormKept (s.serveBody q plain o room body).1 := .of fun hm => by
  fun_cases State.serveBody s q plain o room body
  case case1 e => simp [fst_of_eq e, hm]
  case case2 => exact hm

@[simp] theorem State.serveSealed_form (s : State) (tr : Transport) (m : List Byte) (o : Outside) :
    s.FormKept (s.serveSealed tr m o).1 := .of fun hm => by
  have hbody {id : Nat} {x : Session} {v : State} {l body : List Byte} {room : Nat}
      (e : (s.setSession id x).serveBody (some id) false o room body = (v, l)) : Mem.wf v.mem = true := by
    simp [fst_of_eq e, hm]
  fun_cases State.serveSealed s tr m o
  case case4 e _ _ _ _ _ => simp [hbody e]
  case case5 e _ => exact hbody e
  all_goals exact hm

@[simp] theorem State.serve_form (s : State) (tr : Transport) (m : List Byte) (o : Outside) :
    s.FormKept (s.serve tr m o).1 := .of fun hm => by
  fun_cases State.serve s tr m o
  case case4 e => simp [fst_of_eq e, hm]
  all_goals simp [hm]

@[simp] theorem State.serveUdp_form (s : State) (port : Bool) (src msgId : Nat) (m : List Byte) (o : Outside) :
    s.FormKept (s.serveUdp port src msgId m o) := .of fun hm => by
  simp +contextual [State.serveUdp, hm]

section
variable {s : State} (hm : Mem.wf s.mem = true) (t : Nat)
include hm

@[simp] theorem execOdWrite_form (q : Option Nat) (idx : BitVec 16) (sub : BitVec 8) (whole : Bool) (data : List Byte)
    (o : Outside) : FormNext (execOdWrite t q idx sub whole data o s) := by
  simp [execOdWrite, hm]

@[simp] theorem execAoapMessage_form (tr : Transport) (m : List Byte) (o : Outside) :
    FormNext (execAoapMessage t tr m o s) := by
  simp [execAoapMessage, hm]

@[simp] theorem execUdpSegment_form (port : Bool) (src msgId seg nseg total rsv : Nat) (data : List Byte)
    (o : Outside) : FormNext (execUdpSegment t port src msgId seg nseg total rsv data o s) := by
  fun_cases execUdpSegment t port src msgId seg nseg total rsv data o s <;> simp +zetaDelta [hm]

@[simp] theorem execMctpMessage_form (bus : Bool) (body : List Byte) (o : Outside) :
    FormNext (execMctpMessage t bus body o s) := by
  simp +contextual [execMctpMessage, hm]

@[simp] theorem execMbAoapMessage_form (m : List Byte) (o : Outside) : FormNext (execMbAoapMessage t m o s) := by
  simp +contextual [execMbAoapMessage, hm]

end

/-! ### Every command -/

theorem exec_form (c : Instr) {s : State} (hm : Mem.wf s.mem = true) : FormNext (exec c s) := by
  cases c <;> simp [exec, hm]

theorem step_form {s : State} (hm : Mem.wf s.mem = true) : FormNext (step s) := by
  cases hp : s.pending with
  | nil =>
    rw [step_nil hp]
    exact formNext_next.2 hm
  | cons c rest =>
    rw [step_cons hp]
    exact exec_form c hm

/-- Settles O3: a step is a command or nothing, and every command keeps the form. -/
theorem stepKeepsMemoryForm : Obligations.StepKeepsMemoryForm := fun _ u hm => step_form hm u

end Sys2Proof.Machine
end

section
/-! SUPPORT. Command slots and slot windows of a channel, and its traffic generator (08 R284 to R289; 14 R463): what a slot
and a window do, what the arbitration inside a slot leaves, and what the three commands of a generator leave. -/

namespace Sys2Proof.Machine

/-! ### What the arbitration of a channel leaves -/

/-- The channels and the traffic generators stand as they did. -/
def State.ChannelsKept (s u : State) : Prop := u.channels = s.channels ∧ u.gens = s.gens

theorem State.ChannelsKept.trans {s t u : State} (h : s.ChannelsKept t) (h' : t.ChannelsKept u) : s.ChannelsKept u :=
  ⟨h'.1.trans h.1, h'.2.trans h.2⟩

theorem State.ChannelsKept.refl (s : State) : s.ChannelsKept s := ⟨rfl, rfl⟩

theorem foldl_channelsKept {α : Type} {f : State → α → State} (h : ∀ s a, State.ChannelsKept s (f s a)) (l : List α) (s : State) :
    State.ChannelsKept s (l.foldl f s) :=
  ⟨foldl_keeps State.channels f (fun s a => (h s a).1) l s, foldl_keeps State.gens f (fun s a => (h s a).2) l s⟩

theorem State.channel_of_channelsKept {s u : State} (h : s.ChannelsKept u) (d ch : Nat) : u.channel d ch = s.channel d ch := by
  rw [State.channel, State.channel, h.1]

theorem State.event_channelsKept (s : State) (c : Nat) (w : EvWho) (d : List EvField) : s.ChannelsKept (s.event c w d) :=
  ⟨State.event_channels .., State.event_gens ..⟩

theorem State.failureWarning_channelsKept (s : State) : s.ChannelsKept s.failureWarning := by
  unfold State.failureWarning
  dsimp only
  split
  · exact s.event_channelsKept ..
  · refine foldl_channelsKept (fun s p => State.ChannelsKept.trans ?_ (State.event_channelsKept ..)) _ s
    split <;> exact .refl s

theorem State.joinArb_channelsKept (s : State) (pl : ArbPlace) (arr : List Arrival) : s.ChannelsKept (s.joinArb pl arr) := by
  unfold State.joinArb
  refine foldl_channelsKept (fun s a => ?_) _ s
  exact ⟨rfl, rfl⟩

theorem State.admitReqs_channelsKept (s : State) (pl : ArbPlace) (fourth : Bool) : s.ChannelsKept (s.admitReqs pl fourth) := by
  fun_cases State.admitReqs s pl fourth <;> exact ⟨rfl, rfl⟩

theorem State.countServed_channelsKept (s : State) (pl : ArbPlace) (units : Nat) (r : ArbReq) :
    s.ChannelsKept (s.countServed pl units r) := by
  unfold State.countServed
  split
  · exact .refl s
  · cases pl <;> dsimp only <;> split <;> exact ⟨rfl, rfl⟩

theorem State.promote_channelsKept (s : State) (pl : ArbPlace) (c1 : Bool) : s.ChannelsKept (s.promote pl c1) := by
  have hcount : ∀ (u : State) (r : ArbReq), u.ChannelsKept (if r.member < 4 then
      u.odSet (0x3028 + r.member) 4 (u.odGet (0x3028 + r.member) 4 + 1) else u) := fun u r => by
    split <;> exact ⟨rfl, rfl⟩
  unfold State.promote
  dsimp only
  split
  · exact .refl s
  · exact foldl_channelsKept hcount _ _

theorem State.missedBound_channelsKept (s : State) (pl : ArbPlace) (c1 : Bool) : s.ChannelsKept (s.missedBound pl c1) := by
  unfold State.missedBound
  dsimp only
  split
  · exact .refl s
  · exact foldl_channelsKept (fun s r => (s.event_channelsKept ..).trans (State.failureWarning_channelsKept _)) _ _

theorem State.round_dram_channelsKept (s : State) (d : DieIdx) (ch : Fin 64) (c1 : Bool) :
    s.ChannelsKept (s.round (.dram d ch) c1) := by
  have h := (s.missedBound_channelsKept (.dram d ch) c1).trans (State.promote_channelsKept _ (.dram d ch) c1)
  unfold State.round
  dsimp only
  split <;> exact h

/-! ### What serving a dynamic request leaves -/

@[simp] theorem State.channel_setChannel_same (s : State) (d ch : Nat) (x : Channel) : (s.setChannel d ch x).channel d ch = x :=
  fmGet_fmSet_same ..

@[simp] theorem State.gen_setGen_same (s : State) (d ch : Nat) (x : TrafficGen) : (s.setGen d ch x).gen d ch = x :=
  fmGet_fmSet_same ..

/-- Memory, the generators and the slot number of a channel stand as they did. -/
def State.SlotKept (d ch : Nat) (s u : State) : Prop :=
  u.mem = s.mem ∧ u.gens = s.gens ∧ (u.channel d ch).slotNo = (s.channel d ch).slotNo

section
variable {d ch : Nat}

theorem State.SlotKept.refl (s : State) : s.SlotKept d ch s := ⟨rfl, rfl, rfl⟩

theorem State.SlotKept.trans {s t u : State} (h : s.SlotKept d ch t) (h' : t.SlotKept d ch u) : s.SlotKept d ch u := by
  obtain ⟨hm, hg, hn⟩ := h
  obtain ⟨hm', hg', hn'⟩ := h'
  exact ⟨hm'.trans hm, hg'.trans hg, hn'.trans hn⟩

theorem State.ChannelsKept.slotKept {s u : State} (h : s.ChannelsKept u) (hm : u.mem = s.mem) : s.SlotKept d ch u :=
  ⟨hm, h.2, by rw [State.channel_of_channelsKept h]⟩

theorem State.setChannel_slotKept (s : State) {x : Channel} (h : x.slotNo = (s.channel d ch).slotNo) :
    s.SlotKept d ch (s.setChannel d ch x) := ⟨rfl, rfl, by rw [State.channel_setChannel_same, h]⟩
end

/-- A served slot counts in the shares, and the requests of the point and the channel record what is left. -/
theorem State.served_slotKept (s : State) (d : DieIdx) (ch : Fin 64) (r : ArbReq) (x : ArbPoint) {c : Channel}
    (h : c.slotNo = (s.channel d.val ch.val).slotNo) :
    s.SlotKept d.val ch.val (((s.countServed (.dram d ch) 1 r).setPoint (.dram d ch) x).setChannel d.val ch.val c) := by
  have hc : s.SlotKept d.val ch.val ((s.countServed (.dram d ch) 1 r).setPoint (.dram d ch) x) :=
    State.ChannelsKept.slotKept (s.countServed_channelsKept (.dram d ch) 1 r) (s.countServed_mem (.dram d ch) 1 r)
  exact hc.trans (State.setChannel_slotKept _ (h.trans hc.2.2.symm))

theorem State.serveArb_slotKept (s : State) (d : DieIdx) (ch : Fin 64) (c1 : Bool) :
    s.SlotKept d.val ch.val (s.serveArb d ch c1).1 := by
  have hround : s.SlotKept d.val ch.val (if ((s.point (.dram d ch)).arb c1).granted.isEmpty &&
      !((s.point (.dram d ch)).arb c1).reqs.isEmpty then s.round (.dram d ch) c1 else s) := by
    split
    · exact (s.round_dram_channelsKept d ch c1).slotKept (s.round_mem (.dram d ch) c1)
    · exact .refl s
  unfold State.serveArb
  dsimp only
  split
  · exact hround
  · split <;> exact hround.trans (State.served_slotKept _ d ch _ _ rfl)

theorem State.SlotKept.ite {d ch : Nat} {s : State} {P : Prop} [Decidable P] {a b : State × Bool}
    (ha : s.SlotKept d ch a.1) (hb : s.SlotKept d ch b.1) : s.SlotKept d ch (if P then a else b).1 := by
  split
  · exact ha
  · exact hb

theorem State.serveDynamic_slotKept (s : State) (d : DieIdx) (ch : Fin 64) :
    s.SlotKept d.val ch.val (s.serveDynamic d ch).1 := by
  unfold State.serveDynamic
  extract_lets c barred a b
  have ha : s.SlotKept d.val ch.val a.1 := .ite (s.serveArb_slotKept d ch true) (.refl s)
  have hb : s.SlotKept d.val ch.val b.1 := .ite ha (ha.trans (a.1.serveArb_slotKept d ch false))
  exact .ite ha (.ite hb (hb.trans (b.1.serveArb_slotKept d ch true)))

/-! ### CHANNEL_COMMAND_SLOT (08 R284 to R286, 11 R385) -/

/-- What a channel does with one slot of its window. -/
def State.useSlot (s : State) (d : DieIdx) (ch : Fin 64) (upkeep : Bool) : State :=
  let c := s.channel d.val ch.val
  if c.slotNo < 944 then
    match (if c.c0Served < 819 then c.serveC0 (s.c0Budget d.val) else none) with
    | some c => s.setChannel d.val ch.val c
    | none => (s.serveDynamic d ch).1
  else if c.refreshed < (if (s.stackOf d.val).hot then 64 else 32) then
    s.setChannel d.val ch.val { c with refreshed := c.refreshed + 1 }
  else if upkeep ∧ c.scrubbed < 16 then s.setChannel d.val ch.val { c with scrubbed := c.scrubbed + 1 }
  else (s.serveDynamic d ch).1

/-- The channel goes on to its next slot. -/
def State.nextSlot (s : State) (d ch : Nat) : State :=
  s.setChannel d ch { s.channel d ch with slotNo := (s.channel d ch).slotNo + 1 }

/-- A channel whose own state is stored again. -/
def State.sameChannel (s : State) (d ch : Nat) : State := s.setChannel d ch (s.channel d ch)

@[simp] theorem State.sameChannel_channel (s : State) (d ch : Nat) : (s.sameChannel d ch).channel d ch = s.channel d ch :=
  State.channel_setChannel_same ..

/-- The generator of a channel places its request before a slot. -/
def State.genSlot (s : State) (d : DieIdx) (ch : Fin 64) : State := (s.sameChannel d.val ch.val).genRequest d ch

/-- A slot admits what its queues have room for. -/
def State.admitSlot (s : State) (d : DieIdx) (ch : Fin 64) : State :=
  (s.genSlot d ch).admitReqs (.dram d ch) (((s.genSlot d ch).channel d.val ch.val).slotNo % 4 == 0)

@[simp] theorem State.nextSlot_channel (s : State) (d ch : Nat) : (s.nextSlot d ch).channel d ch =
    { s.channel d ch with slotNo := (s.channel d ch).slotNo + 1 } := State.channel_setChannel_same ..

section
variable {s : State} {d : DieIdx} {ch : Fin 64}

theorem Channel.serveC0_slotNo {c c' : Channel} {budget : Nat → Nat} (h : c.serveC0 budget = some c') :
    c'.slotNo = c.slotNo := by
  unfold Channel.serveC0 at h
  split at h
  · cases h
  · cases h
    rfl

theorem State.useSlot_slotKept (s : State) (d : DieIdx) (ch : Fin 64) (upkeep : Bool) :
    s.SlotKept d.val ch.val (s.useSlot d ch upkeep) := by
  fun_cases State.useSlot s d ch upkeep
  case case1 c' hc =>
    refine s.setChannel_slotKept ?_
    split at hc
    · exact Channel.serveC0_slotNo hc
    · cases hc
  case case2 | case5 => exact s.serveDynamic_slotKept d ch
  case case3 | case4 => exact s.setChannel_slotKept rfl

theorem State.genRequest_channels (s : State) (d : DieIdx) (ch : Fin 64) : (s.genRequest d ch).channels = s.channels := by
  unfold State.genRequest
  dsimp only
  split
  · exact (s.joinArb_channelsKept ..).1
  · rfl

@[simp] theorem State.genSlot_channel (s : State) (d : DieIdx) (ch : Fin 64) :
    (s.genSlot d ch).channel d.val ch.val = s.channel d.val ch.val := by
  refine Eq.trans ?_ (s.sameChannel_channel d.val ch.val)
  rw [State.channel, State.channel, State.genSlot, State.genRequest_channels]

@[simp] theorem State.admitSlot_channel (s : State) (d : DieIdx) (ch : Fin 64) :
    (s.admitSlot d ch).channel d.val ch.val = s.channel d.val ch.val :=
  (State.channel_of_channelsKept (State.admitReqs_channelsKept ..) d.val ch.val).trans (s.genSlot_channel d ch)

@[simp] theorem State.admitSlot_mem (s : State) (d : DieIdx) (ch : Fin 64) : (s.admitSlot d ch).mem = s.mem :=
  (State.admitReqs_mem ..).trans (State.genRequest_mem ..)

/-- A slot without arrivals, once the generator has placed its request and what has room is admitted. -/
theorem exec_channelCommandSlot {t : Nat} {r0 : State} (upkeep : Bool) (hs : s = r0.arrive t)
    (hn : (s.channel d.val ch.val).slotNo < 1024) :
    exec (.channelCommandSlot t d ch [] upkeep) r0 = .next (((s.admitSlot d ch).useSlot d ch upkeep).nextSlot d.val ch.val) := by
  have hc := s.genSlot_channel d ch
  have ha := s.admitSlot_channel d ch
  have h : exec (.channelCommandSlot t d ch [] upkeep) r0 =
      if 1024 ≤ ((s.genSlot d ch).channel d.val ch.val).slotNo then .next (s.admitSlot d ch)
      else .next (((s.admitSlot d ch).useSlot d ch upkeep).nextSlot d.val ch.val) := by
    rw [State.useSlot, ha, ← hc, hs]
    rfl
  rw [h, hc, if_neg (Nat.not_le.2 hn)]

/-! ### The slot of a channel without traffic -/

theorem State.genRequest_of_stopped (h : (s.gen d.val ch.val).running = false) : s.genRequest d ch = s :=
  if_neg fun hc => by simp [h] at hc

theorem State.admitReqs_of_none {pl : ArbPlace} (h : (s.point pl).outside = []) (fourth : Bool) : s.admitReqs pl fourth = s :=
  if_pos (by rw [h]; rfl)

theorem State.admitSlot_of_stopped (hnone : (s.point (.dram d ch)).outside = []) (hstop : (s.gen d.val ch.val).running = false) :
    s.admitSlot d ch = s.sameChannel d.val ch.val := by
  have hgen : s.genSlot d ch = s.sameChannel d.val ch.val := State.genRequest_of_stopped hstop
  rw [State.admitSlot, hgen]
  exact State.admitReqs_of_none (s := s.sameChannel d.val ch.val) hnone _

/-- Nothing but the channels is changed. -/
def State.ChannelsOnly (s u : State) : Prop := { u.bare s with channels := s.channels } = s

theorem State.ChannelsOnly.trans {s t u : State} (h : s.ChannelsOnly t) (h' : t.ChannelsOnly u) : s.ChannelsOnly u := by
  unfold State.ChannelsOnly at *
  rw [← h, ← h']
  rfl

theorem State.setChannel_channelsOnly (s : State) (d ch : Nat) (x : Channel) : s.ChannelsOnly (s.setChannel d ch x) := rfl

/-- A slot that stores the channel once changes the channels alone. -/
theorem State.nextSlot_setChannel_channelsOnly (s : State) (d ch : Nat) (x : Channel) :
    s.ChannelsOnly (((s.sameChannel d ch).setChannel d ch x).nextSlot d ch) :=
  ((s.setChannel_channelsOnly ..).trans (State.setChannel_channelsOnly ..)).trans (State.setChannel_channelsOnly ..)

/-- The head of the C0 queue is served when its partition has budget left and no line is half served. -/
theorem Channel.serveC0_head {c : Channel} {p line cost : Nat} {rest : List (Nat × Nat × Nat)} {budget : Nat → Nat}
    (hq : c.c0 = (p, line, cost) :: rest) (hhalf : c.half = none) (hb : fmGet c.c0ByPart p 0 < budget p) :
    ∃ c', c.serveC0 budget = some c' ∧ c'.slotNo = c.slotNo ∧ c'.c0Served = c.c0Served + 1 ∧ (cost ≤ 1 → c'.c0 = rest) ∧
      fmGet c'.c0ByPart p 0 = fmGet c.c0ByPart p 0 + 1 := by
  have hfind : c.c0.find? (fun e => decide (fmGet c.c0ByPart e.1 0 < budget e.1) && c.half != some e.2.1) =
      some (p, line, cost) := by
    simp [hq, hhalf, hb]
  unfold Channel.serveC0
  rw [hfind]
  refine ⟨_, rfl, rfl, rfl, fun hcost => ?_, fmGet_fmSet_same ..⟩
  simp [hcost, hq]

/-- A general slot serves the C0 request at the head of the channel's queue. -/
theorem channelCommandSlot_servesC0 {t p line cost : Nat} {rest : List (Nat × Nat × Nat)} {upkeep : Bool} {r0 : State}
    (hs : s = r0.arrive t) (hnone : (s.point (.dram d ch)).outside = []) (hstop : (s.gen d.val ch.val).running = false)
    (hn : (s.channel d.val ch.val).slotNo < 944) (hq : (s.channel d.val ch.val).c0 = (p, line, cost) :: rest)
    (hhalf : (s.channel d.val ch.val).half = none) (hserved : (s.channel d.val ch.val).c0Served < 819)
    (hb : fmGet (s.channel d.val ch.val).c0ByPart p 0 < s.c0Budget d.val p) :
    Does (.channelCommandSlot t d ch [] upkeep) r0 fun u =>
      (u.channel d.val ch.val).slotNo = (s.channel d.val ch.val).slotNo + 1 ∧
      (u.channel d.val ch.val).c0Served = (s.channel d.val ch.val).c0Served + 1 ∧
      (cost ≤ 1 → (u.channel d.val ch.val).c0 = rest) ∧
      fmGet (u.channel d.val ch.val).c0ByPart p 0 = fmGet (s.channel d.val ch.val).c0ByPart p 0 + 1 ∧
      { u.bare s with channels := s.channels } = s := by
  obtain ⟨c', hserve, hno, hcount, hrest, hpart⟩ := Channel.serveC0_head hq hhalf hb
  have huse : (s.sameChannel d.val ch.val).useSlot d ch upkeep = (s.sameChannel d.val ch.val).setChannel d.val ch.val c' := by
    have hserve' : (s.channel d.val ch.val).serveC0 ((s.sameChannel d.val ch.val).c0Budget d.val) = some c' := hserve
    simp only [State.useSlot, State.sameChannel_channel, if_pos hn, if_pos hserved, hserve']
  have hexec := exec_channelCommandSlot upkeep hs (show (s.channel d.val ch.val).slotNo < 1024 by omega)
  rw [State.admitSlot_of_stopped hnone hstop, huse] at hexec
  refine ⟨_, hexec, ?_, ?_, ?_, ?_, s.nextSlot_setChannel_channelsOnly d.val ch.val c'⟩ <;>
    rw [State.nextSlot_channel, State.channel_setChannel_same]
  · rw [hno]
  · exact hcount
  · exact hrest
  · exact hpart

/-- A maintenance slot refreshes while the window's refreshes are not done. -/
theorem channelCommandSlot_refreshes {t : Nat} {upkeep : Bool} {r0 : State}
    (hs : s = r0.arrive t) (hnone : (s.point (.dram d ch)).outside = []) (hstop : (s.gen d.val ch.val).running = false)
    (hn : (s.channel d.val ch.val).slotNo < 1024) (hmaint : 944 ≤ (s.channel d.val ch.val).slotNo)
    (hr : (s.channel d.val ch.val).refreshed < 32) :
    Does (.channelCommandSlot t d ch [] upkeep) r0 fun u =>
      u.channel d.val ch.val = { s.channel d.val ch.val with
        refreshed := (s.channel d.val ch.val).refreshed + 1
        slotNo := (s.channel d.val ch.val).slotNo + 1 } ∧
      { u.bare s with channels := s.channels } = s := by
  have huse : (s.sameChannel d.val ch.val).useSlot d ch upkeep = (s.sameChannel d.val ch.val).setChannel d.val ch.val
      { s.channel d.val ch.val with refreshed := (s.channel d.val ch.val).refreshed + 1 } := by
    have hlimit : ∀ hot : Bool, (s.channel d.val ch.val).refreshed < if hot then 64 else 32 := by
      rintro (_ | _) <;> simp <;> omega
    simp only [State.useSlot, State.sameChannel_channel, if_neg (Nat.not_lt.2 hmaint), if_pos (hlimit _)]
  have hexec := exec_channelCommandSlot upkeep hs hn
  rw [State.admitSlot_of_stopped hnone hstop, huse] at hexec
  refine ⟨_, hexec, ?_, s.nextSlot_setChannel_channelsOnly d.val ch.val _⟩
  rw [State.nextSlot_channel, State.channel_setChannel_same]

/-! ### The slot of a channel whose generator runs -/

/-- The generator with one more request placed. -/
def TrafficGen.place (x : TrafficGen) : TrafficGen := { x with placed := x.placed + 1, taken := x.taken + 1 }

theorem State.admitSlot_gen_of_running (hnone : (s.point (.dram d ch)).outside = [])
    (hrun : (s.gen d.val ch.val).running = true) (hrate : (s.gen d.val ch.val).taken < bits (s.genCtl d.val ch.val) 20 10)
    (hleft : genMoves (s.genCtl d.val ch.val) = 0 ∨ (s.gen d.val ch.val).placed < genMoves (s.genCtl d.val ch.val)) :
    (s.admitSlot d ch).gen d.val ch.val = (s.gen d.val ch.val).place := by
  have hplace : ∃ v : State, s.genSlot d ch = v.setGen d.val ch.val (s.gen d.val ch.val).place :=
    ⟨_, if_pos ⟨hrun, hrate, hleft, by
      rw [show ((s.sameChannel d.val ch.val).point (.dram d ch)).outside = [] from hnone]
      rfl⟩⟩
  obtain ⟨v, hv⟩ := hplace
  rw [State.admitSlot, State.gen, (State.admitReqs_channelsKept ..).2, hv]
  exact State.gen_setGen_same ..

/-- A slot of a channel whose generator runs places the generator's next request; what is then served leaves the generator
and memory. -/
theorem channelCommandSlot_places {t : Nat} (upkeep : Bool) {r0 : State}
    (hs : s = r0.arrive t) (hnone : (s.point (.dram d ch)).outside = []) (hn : (s.channel d.val ch.val).slotNo < 1024)
    (hrun : (s.gen d.val ch.val).running = true) (hrate : (s.gen d.val ch.val).taken < bits (s.genCtl d.val ch.val) 20 10)
    (hleft : genMoves (s.genCtl d.val ch.val) = 0 ∨ (s.gen d.val ch.val).placed < genMoves (s.genCtl d.val ch.val)) :
    Does (.channelCommandSlot t d ch [] upkeep) r0 fun u =>
      u.gen d.val ch.val = (s.gen d.val ch.val).place ∧
      (u.channel d.val ch.val).slotNo = (s.channel d.val ch.val).slotNo + 1 ∧ u.mem = s.mem := by
  obtain ⟨hm, hg, hno⟩ := (s.admitSlot d ch).useSlot_slotKept d ch upkeep
  refine ⟨_, exec_channelCommandSlot upkeep hs hn, ?_, ?_, hm.trans (s.admitSlot_mem d ch)⟩
  · have hgen : ((s.admitSlot d ch).useSlot d ch upkeep).gen d.val ch.val = (s.admitSlot d ch).gen d.val ch.val := by
      rw [State.gen, State.gen, hg]
    exact hgen.trans (State.admitSlot_gen_of_running hnone hrun hrate hleft)
  · rw [State.nextSlot_channel, hno, State.admitSlot_channel]
end

/-! ### CHANNEL_SLOT_WINDOW (08 R284, R286; 14 R463) -/

theorem mem_of_fmGet? {α : Type} {k : Nat} {a : α} : ∀ {m : Fm α}, fmGet? m k = some a → (k, a) ∈ m
  | (j, b) :: m, h => by
    by_cases hj : k = j
    · simp_all [fmGet?]
    · rw [fmGet?, if_neg hj] at h
      exact List.mem_cons_of_mem _ (mem_of_fmGet? h)

/-- A channel at the start of a window: slot 0, empty counts, its queue as it was. -/
def Channel.fresh (c : Channel) : Channel :=
  { c with slotNo := 0, c0Served := 0, c1Served := 0, refreshed := 0, scrubbed := 0, c0Received := [], c0ByPart := [] }

/-- No partition asked a channel of the stack for more C0 slots than its budget. -/
def State.WithinBudget (s : State) (d : Nat) (c : Channel) : Prop := ∀ p < 4, fmGet c.c0Received p 0 ≤ s.c0Budget d p

theorem State.channel_setChannel_other (s : State) {d ch ch' : Nat} (x : Channel) (h : ch' ≠ ch) :
    (s.setChannel d ch x).channel d ch' = s.channel d ch' := fmGet_fmSet_other _ _ _ _ _ (by omega)

theorem State.fresh_withinBudget (s : State) (d : Nat) (c : Channel) : s.WithinBudget d c.fresh := fun _ _ => Nat.zero_le _

theorem State.endWindow_of_withinBudget {s : State} {d ch : Nat} (h : s.WithinBudget d (s.channel d ch)) :
    s.endWindow d ch = s.setChannel d ch (s.channel d ch).fresh := by
  have hbad : (List.range 4).filter (fun p => decide (s.c0Budget d p < fmGet (s.channel d ch).c0Received p 0)) = [] := by
    refine List.filter_eq_nil_iff.2 fun p hp => ?_
    simpa using h p (List.mem_range.1 hp)
  unfold State.endWindow
  dsimp only
  rw [hbad]
  rfl

/-- Channels whose windows end without an overrun start afresh, and nothing else changes. -/
theorem State.foldl_endWindow {d : Nat} : ∀ (l : List Nat) (s : State), (∀ ch ∈ l, s.WithinBudget d (s.channel d ch)) →
    s.ChannelsOnly (l.foldl (fun s ch => s.endWindow d ch) s) ∧
    ∀ ch, (l.foldl (fun s ch => s.endWindow d ch) s).channel d ch = if ch ∈ l then (s.channel d ch).fresh else s.channel d ch
  | [], s, _ => ⟨rfl, fun ch => by simp⟩
  | c :: l, s, h => by
    have hw : ∀ ch, (s.endWindow d c).channel d ch = if ch = c then (s.channel d ch).fresh else s.channel d ch := fun ch => by
      rw [State.endWindow_of_withinBudget (h c List.mem_cons_self)]
      split
      next hc => rw [hc, State.channel_setChannel_same]
      next hc => exact s.channel_setChannel_other _ hc
    have honly : s.ChannelsOnly (s.endWindow d c) := by
      rw [State.endWindow_of_withinBudget (h c List.mem_cons_self)]
      exact s.setChannel_channelsOnly ..
    have hbudget : ∀ p, (s.endWindow d c).c0Budget d p = s.c0Budget d p := fun p => by
      rw [State.endWindow_of_withinBudget (h c List.mem_cons_self)]
      rfl
    obtain ⟨hrest, hch⟩ := State.foldl_endWindow l (s.endWindow d c) fun ch hl p hp => by
      rw [hbudget, hw]
      split
      · exact s.fresh_withinBudget d _ p hp
      · exact h ch (List.mem_cons_of_mem _ hl) p hp
    refine ⟨honly.trans hrest, fun ch => (hch ch).trans ?_⟩
    rw [hw]
    by_cases hc : ch = c <;> by_cases hl : ch ∈ l <;> simp [hc, hl, Channel.fresh]

/-- Channels of a stack that have a state. -/
def State.stackChannels (s : State) (d : Nat) : List Nat := (s.channels.filter fun e => e.1 / 64 == d).map fun e => e.1 % 64

theorem State.mem_stackChannels {s : State} {d ch : Nat} (hch : ch < 64) (h : fmHas s.channels (d * 64 + ch) = true) :
    ch ∈ s.stackChannels d := by
  obtain ⟨c, hc⟩ := Option.isSome_iff_exists.1 h
  refine List.mem_map.2 ⟨_, List.mem_filter.2 ⟨mem_of_fmGet? hc, ?_⟩, ?_⟩
  · simp only [beq_iff_eq]
    omega
  · simp only
    omega

theorem State.stackChannels_lt {s : State} {d ch : Nat} (h : ch ∈ s.stackChannels d) : ch < 64 := by
  obtain ⟨e, -, rfl⟩ := List.mem_map.1 h
  exact Nat.mod_lt _ (by decide)

/-- A stack all whose listed channels stayed within their budgets has no other that did not. -/
theorem State.withinBudget_of_all {s : State} {d : Nat} (h : s.channels.all (fun x => x.1 / 64 != d ||
    (List.range 4).all fun p => decide (fmGet x.2.c0Received p 0 ≤ s.c0Budget d p)) = true) {ch : Nat} (hch : ch < 64) :
    s.WithinBudget d (s.channel d ch) := by
  intro p hp
  cases hc : fmGet? s.channels (d * 64 + ch) with
  | none =>
    rw [show s.channel d ch = {} from congrArg (·.getD {}) hc]
    exact Nat.zero_le _
  | some c =>
    rw [show s.channel d ch = c from congrArg (·.getD {}) hc]
    have hmem := List.all_eq_true.1 h _ (mem_of_fmGet? hc)
    have hd : (d * 64 + ch) / 64 = d := by omega
    simp only [hd, bne_self_eq_false, Bool.false_or, List.all_eq_true, List.mem_range, decide_eq_true_eq] at hmem
    exact hmem p hp

/-- A region entry that waits for its stack comes in force. -/
theorem State.applyEntries_of_one {s : State} {d e v : Nat} (hw : s.entryWaits = [(d * 256 + e, v)]) (he : e < 256) :
    s.applyEntries d = { s with entryWaits := [] }.odSet (0x9100 + d) e v := by
  have hdiv : (d * 256 + e) / 256 = d := by omega
  have hmod : (d * 256 + e) % 256 = e := by omega
  simp [State.applyEntries, hw, hdiv, hmod]

theorem channelSlotWindow_starts {t e v : Nat} {d : DieIdx} {s r0 : State} (hs : s = r0.arrive t)
    (hall : s.channels.all (fun x => x.1 / 64 != d.val ||
      (List.range 4).all fun p => decide (fmGet x.2.c0Received p 0 ≤ s.c0Budget d.val p)) = true)
    (hwait : s.entryWaits = [(d.val * 256 + e, v)]) (he : e < 256) : Does (.channelSlotWindow t d) r0 fun u =>
      u.odGet (0x9100 + d.val) e = v ∧ u.entryWaits = [] ∧
      (∀ ch, ch < 64 → fmHas s.channels (d.val * 64 + ch) = true → (u.channel d.val ch).slotNo = 0 ∧
        (u.channel d.val ch).c0Served = 0 ∧ (u.channel d.val ch).c0 = (s.channel d.val ch).c0) ∧
      u.mem = s.mem ∧ u.parts = s.parts := by
  obtain ⟨honly, hch⟩ := State.foldl_endWindow (s.stackChannels d.val) s fun ch hmem =>
    State.withinBudget_of_all hall (State.stackChannels_lt hmem)
  have hexec : exec (.channelSlotWindow t d) r0 = .next ((((s.stackChannels d.val).foldl (fun s ch => s.endWindow d.val ch) s).startGens
      d.val).applyEntries d.val) := by
    rw [hs]
    rfl
  generalize (s.stackChannels d.val).foldl (fun s ch => s.endWindow d.val ch) s = w at honly hch hexec
  have hmem : w.mem = s.mem := (congrArg State.mem honly :)
  have hparts : w.parts = s.parts := (congrArg State.parts honly :)
  have hwait' : (w.startGens d.val).entryWaits = [(d.val * 256 + e, v)] := (congrArg State.entryWaits honly).trans hwait
  rw [State.applyEntries_of_one hwait' he] at hexec
  refine ⟨_, hexec, State.odGet_odSet_same .., rfl, fun ch hlt hhas => ?_, hmem, hparts⟩
  have hfresh : w.channel d.val ch = (s.channel d.val ch).fresh := by
    rw [hch, if_pos (State.mem_stackChannels hlt hhas)]
  have hchan : ((({ w.startGens d.val with entryWaits := [] } : State).odSet (0x9100 + d.val) e v)).channel d.val ch =
      (s.channel d.val ch).fresh := hfresh
  rw [hchan]
  exact ⟨rfl, rfl, rfl⟩

/-! ### Status records of the traffic generators (08 Table 08-9) -/

/-- The fields of a status word above its first three. -/
theorem bits_status {w0 w1 w2 : Nat} (moved el bad : Nat) (h0 : w0 < 2 ^ 64) (h1 : w1 < 2 ^ 64) (h2 : w2 < 2 ^ 64) :
    let v := w0 + w1 * 2 ^ 64 + w2 * 2 ^ 128 + moved * 2 ^ 192 + el * 2 ^ 256 + bad * 2 ^ 320
    bits v 2 0 = w0 % 8 ∧ bits v 255 192 = moved % 2 ^ 64 := by
  intro v
  have hv : v = w0 + w1 * 2 ^ 64 + w2 * 2 ^ 128 + (moved + (el + bad * 2 ^ 64) * 2 ^ 64) * 2 ^ 192 := by
    simp only [v, Nat.add_mul, Nat.mul_assoc, ← Nat.pow_add, Nat.add_assoc]
  generalize el + bad * 2 ^ 64 = hi at hv
  constructor
  · rw [bits, Nat.shiftRight_zero, hv]
    omega
  · rw [bits, Nat.shiftRight_eq_div_pow, hv]
    omega

/-- A status record holds its state and the lines moved. -/
theorem State.genStatus_eq (s : State) (d ch : Nat) {state moved : Nat} (dies : Nat) (first : Option GenMiss) (bad : Nat)
    (hstate : state < 8) (hmoved : moved < 2 ^ 64) : ∃ v, s.genStatus d ch state moved dies first bad =
      s.odSet (0x5120 + d) (ch + 1) v ∧ bits v 2 0 = state ∧ bits v 255 192 = moved := by
  have hw0 : ∀ b : Bool, state + ((dies % 2 ^ 18) <<< 3) + (b2n b <<< 21) < 2 ^ 64 ∧
      (state + ((dies % 2 ^ 18) <<< 3) + (b2n b <<< 21)) % 8 = state := fun b => by
    rw [Nat.shiftLeft_eq, Nat.shiftLeft_eq]
    cases b <;> simp only [b2n, Bool.false_eq_true, if_true, if_false] <;> omega
  have hrecord : ∀ {w1 w2 : Nat} (b : Bool) (el bad : Nat), w1 < 2 ^ 64 → w2 < 2 ^ 64 →
      let v := state + ((dies % 2 ^ 18) <<< 3) + (b2n b <<< 21) + w1 * 2 ^ 64 + w2 * 2 ^ 128 + moved * 2 ^ 192 + el * 2 ^ 256 +
        bad * 2 ^ 320
      bits v 2 0 = state ∧ bits v 255 192 = moved := fun b el bad h1 h2 => by
    obtain ⟨hlt, hmod⟩ := hw0 b
    obtain ⟨hlow, hhigh⟩ := bits_status moved el bad hlt h1 h2
    exact ⟨hlow.trans hmod, hhigh.trans (Nat.mod_eq_of_lt hmoved)⟩
  cases first with
  | none => exact ⟨_, rfl, hrecord false _ _ (by decide) (by decide)⟩
  | some m =>
    refine ⟨_, rfl, hrecord true _ _ ?_ m.xor.isLt⟩
    dsimp only
    rw [Nat.shiftLeft_eq]
    omega

/-! ### TRAFFIC_GEN_START (R288, R289) -/

/-- A stack's generators may start: no region of it is assigned, or the life cycle or boot stage allows it all the same. -/
def State.genAllowed (s : State) (d : Nat) : Bool :=
  !s.stackAssigned d || s.sec.life == .maker || s.sec.life == .returned || s.boot.stage == 5

theorem State.genAllowed_iff (s : State) (d : Nat) : s.genAllowed d = true ↔
    s.stackAssigned d = false ∨ s.sec.life = .maker ∨ s.sec.life = .returned ∨ s.boot.stage = 5 := by
  simp [State.genAllowed, or_assoc]

/-- What a start does once its write is allowed. -/
def State.startRun (v : Nat) (s : State) : State × Bool :=
  let d := bits v 4 0
  let chs := genChannels v
  if !s.genNames v 1 then (s.event 0x080E noOne [], false)
  else if !s.genAllowed d || !chs.all (fun ch => genOk (s.genCtl d ch)) then
    ((chs.foldl (fun s ch => s.genStatus d ch 4 0 0 none 0) s).event 0x080E (ofDie d) [], false)
  else
    (chs.foldl (fun s ch =>
      (s.setGen d ch { running := !bit v 5, startedAt := s.now, due := bit v 5 }).genStatus d ch 1 0 0 none 0) s, true)

theorem exec_trafficGenStart {t : Nat} {q : Option Nat} {v : BitVec 32} {s r0 : State} (hs : s = r0.arrive t) :
    exec (.trafficGenStart t q v) r0 = .next (s.command q 0x5140 0 (State.startRun v.toNat)) := by
  rw [hs]
  rfl

section
variable {s : State} {v d ch : Nat}

theorem genChannels_of_one (hone : bit v 5 = false) (hch : bits v 11 6 = ch) : genChannels v = [ch] := by
  rw [genChannels, hone, hch]
  rfl

theorem State.genNames_of_mapped {op : Nat} (hd : bits v 4 0 = d) (hop : bits v 13 12 = op) (hmap : s.mapped d = true) :
    s.genNames v op = true := by
  have hlt : d < 22 := by
    simp only [State.mapped, Bool.and_eq_true, decide_eq_true_eq] at hmap
    exact hmap.1.1
  simp [State.genNames, hd, hop, hmap, hlt]

theorem State.genNames_of_unmapped (op : Nat) (hd : bits v 4 0 = d) (hmap : s.mapped d = false) : s.genNames v op = false := by
  simp [State.genNames, hd, hmap]

theorem State.startRun_of_unmapped (hd : bits v 4 0 = d) (hmap : s.mapped d = false) :
    s.startRun v = (s.event 0x080E noOne [], false) :=
  if_pos (by rw [State.genNames_of_unmapped 1 hd hmap]; rfl)

variable (hd : bits v 4 0 = d) (hone : bit v 5 = false) (hch : bits v 11 6 = ch) (hop : bits v 13 12 = 1)
  (hmap : s.mapped d = true)
include hd hone hch hop hmap

theorem State.startRun_of_ok (hallowed : s.genAllowed d = true) (hok : genOk (s.genCtl d ch) = true) :
    s.startRun v =
      ((s.setGen d ch { running := true, startedAt := s.now, due := false }).genStatus d ch 1 0 0 none 0, true) := by
  simp [State.startRun, genChannels_of_one hone hch, State.genNames_of_mapped hd hop hmap, hd, hone, hallowed, hok]

theorem State.startRun_of_bad (hbad : genOk (s.genCtl d ch) = false ∨ s.genAllowed d = false) :
    s.startRun v = ((s.genStatus d ch 4 0 0 none 0).event 0x080E (ofDie d) [], false) := by
  rcases hbad with hbad | hbad <;>
    simp [State.startRun, genChannels_of_one hone hch, State.genNames_of_mapped hd hop hmap, hd, hbad]
end

/-! ### TRAFFIC_GEN_STOP (R288) -/

/-- The lines of a channel that its checker has found wrong. -/
def missOf (miss : List (Fin 64 × List GenMiss)) (ch : Nat) : List GenMiss :=
  ((miss.find? fun e => e.1.val == ch).map (·.2)).getD []

/-- What a stop does once its write is allowed. -/
def State.stopRun (v moved : Nat) (miss : List (Fin 64 × List GenMiss)) (s : State) : State × Bool :=
  let d := bits v 4 0
  if !s.genNames v 2 then (s, false)
  else
    ((genChannels v).foldl (fun s ch =>
      let x := s.gen d ch
      if x.running || x.due then
        let m := if x.running then moved else 0
        let l := if x.running then missOf miss ch else []
        ((s.genStore d ch m).genStatus d ch 3 m (missDies (s.genCtl d ch) l) l.head? l.length).setGen d ch
          { x with running := false, due := false }
      else s) s, true)

theorem exec_trafficGenStop {t moved : Nat} {q : Option Nat} {v : BitVec 32} {miss : List (Fin 64 × List GenMiss)} {s r0 : State}
    (hs : s = r0.arrive t) : exec (.trafficGenStop t q v moved miss) r0 =
      .next (s.command q 0x5140 0 (State.stopRun v.toNat moved miss)) := by
  rw [hs]
  rfl

/-- A generator that only reads leaves memory as it is. -/
theorem State.genStore_of_reads {s : State} {d ch : Nat} (h : genMix (s.genCtl d ch) = 0) (moved : Nat) :
    s.genStore d ch moved = s := by
  simp only [State.genStore, genWritten, h]
  rfl

theorem State.stopRun_of_running {s : State} {v d ch : Nat} (hd : bits v 4 0 = d) (hone : bit v 5 = false)
    (hch : bits v 11 6 = ch) (hop : bits v 13 12 = 2) (hmap : s.mapped d = true) (hrun : (s.gen d ch).running = true)
    (hmix : genMix (s.genCtl d ch) = 0) (moved : Nat) (miss : List (Fin 64 × List GenMiss)) :
    s.stopRun v moved miss =
      ((s.genStatus d ch 3 moved (missDies (s.genCtl d ch) (missOf miss ch)) (missOf miss ch).head? (missOf miss ch).length).setGen
        d ch { s.gen d ch with running := false, due := false }, true) := by
  simp only [State.stopRun, genChannels_of_one hone hch, State.genNames_of_mapped hd hop hmap, hd, hrun, Bool.true_or,
    Bool.not_true, Bool.false_eq_true, if_true, if_false, List.foldl_cons, List.foldl_nil, State.genStore_of_reads hmix]

/-! ### TRAFFIC_GEN_DONE (R288) -/

/-- A running generator that has moved its passes. -/
def State.genFinish (s : State) (d ch : Nat) (miss : List GenMiss) : State :=
  let c := s.genCtl d ch
  ((s.genStore d ch (genMoves c)).genStatus d ch 2 (genMoves c) (missDies c miss) miss.head? miss.length).setGen d ch
    { s.gen d ch with running := false }

theorem exec_trafficGenDone {t : Nat} {d : DieIdx} {ch : Fin 64} {miss : List GenMiss} {s r0 : State} (hs : s = r0.arrive t) :
    exec (.trafficGenDone t d ch miss) r0 =
      if !(s.gen d.val ch.val).running || genPasses (s.genCtl d.val ch.val) == 0 then .next s
      else .next (s.genFinish d.val ch.val miss) := by
  rw [hs]
  rfl

/-- The next line written with a pattern of 64-bit words. -/
theorem State.genWrites_of_words {s : State} {d ch c n i r : Nat} (h : genPattern c ≠ 4) :
    s.genWrites d ch c (n + 1) i r = (s.store (stackKey d (lineOff ch (genLine c i)))
      ((List.range 8).flatMap fun w => bytesOf 8 (genWord c (genLine c i) w))).genWrites d ch c n (i + 1) r := by
  conv_lhs => unfold State.genWrites
  split
  · contradiction
  · rfl

/-- One line written with the pattern of zeros. -/
theorem State.genStore_one_zero {s : State} {d ch : Nat} (hcount : genCount (s.genCtl d ch) = 1) (hmix : genMix (s.genCtl d ch) = 1)
    (hpattern : genPattern (s.genCtl d ch) = 0) (hwalk : genWalk (s.genCtl d ch) = 0) :
    s.genStore d ch 1 = s.store (stackKey d (lineOff ch (genBase (s.genCtl d ch)))) (List.replicate 64 0) := by
  have hwritten : genWritten (s.genCtl d ch) 1 = 1 := by simp [genWritten, hmix, hcount]
  have hline : genLine (s.genCtl d ch) 0 = genBase (s.genCtl d ch) := by simp [genLine, hwalk]
  have hword : bytesOf 8 0 = List.replicate 8 0 := rfl
  have hbytes : (List.range 8).flatMap (fun _ => bytesOf 8 0) = List.replicate 64 0 := by
    refine List.eq_replicate_iff.2 ⟨by simp [hword], fun b hb => ?_⟩
    obtain ⟨_, -, hw⟩ := List.mem_flatMap.1 hb
    rw [hword] at hw
    exact (List.mem_replicate.1 hw).2
  have hdata : (List.range 8).flatMap (fun w => bytesOf 8 (genWord (s.genCtl d ch) (genBase (s.genCtl d ch)) w)) =
      List.replicate 64 0 := by
    simp only [genWord, hpattern]
    exact hbytes
  have hpattern' : genPattern (s.genCtl d ch) ≠ 4 := by simp [hpattern]
  rw [State.genStore, hwritten, State.genWrites_of_words hpattern', hline, hdata]
  rfl

/-! ### What the three rows of a generator leave -/

/-- An object of a stack's status records is no event counter. -/
theorem statusKey_ne_counter {d ch : Nat} (hd : d < 32) (hch : ch < 64) : odKey 0xB108 14 ≠ odKey (0x5120 + d) (ch + 1) := by
  unfold odKey
  omega

section
variable {t : Nat} {q : Option Nat} {v : BitVec 32} {d : DieIdx} {ch : Fin 64} {s r0 : State} (hs : s = r0.arrive t)
  (hr : s.refusal q 0x5140 0 true = none) (hd : bits v.toNat 4 0 = d.val)
include hs hr hd

/-- A start at a die out of the address map is rejected. -/
theorem trafficGenStart_of_unmapped (hmap : s.mapped d.val = false) : Does (.trafficGenStart t q v) r0 fun u =>
    u.ans.status = stRejected ∧ u.odGet 0xB108 14 = s.odGet 0xB108 14 + 1 ∧ s.ObjectsKept u ∧ u.unsaid s = s := by
  have hunsaid : (s.event 0x080E noOne []).unsaid s = s := by
    apply State.eq_of_fields <;> simp [State.unsaid, State.bare]
  refine ⟨_, (exec_trafficGenStart hs).trans (congrArg _ (State.command_rejected hr (State.startRun_of_unmapped hd hmap))),
    rfl, s.event_count 0x080E noOne [],
    s.event_objectsKept 0x080E noOne [] (by decide), hunsaid⟩

variable (hone : bit v.toNat 5 = false) (hch : bits v.toNat 11 6 = ch.val)
include hone hch

/-- A start that is accepted sets the generator running. -/
theorem trafficGenStart_of_ok (hop : bits v.toNat 13 12 = 1) (hmap : s.mapped d.val = true)
    (hok : genOk (s.genCtl d.val ch.val) = true) (hallowed : s.genAllowed d.val = true) :
    Does (.trafficGenStart t q v) r0 fun u => u.ans.status = stOk ∧
      u.gen d.val ch.val = { running := true, startedAt := s.now, due := false } ∧
      bits (u.odGet (0x5120 + d.val) (ch.val + 1)) 2 0 = 1 ∧ { u.bare s with gens := s.gens, od := s.od } = s := by
  have hrun := State.startRun_of_ok hd hone hch hop hmap hallowed hok
  obtain ⟨w, hw, hstate, -⟩ := (s.setGen d.val ch.val { running := true, startedAt := s.now, due := false }).genStatus_eq
    d.val ch.val (state := 1) (moved := 0) 0 none 0 (by decide) (by decide)
  rw [hw] at hrun
  refine ⟨_, (exec_trafficGenStart hs).trans (congrArg _ (State.command_done hr hrun)), rfl, State.gen_setGen_same .., ?_, rfl⟩
  exact (congrArg (bits · 2 0) (State.odGet_odSet_same ..)).trans hstate

/-- A start that is not accepted is rejected, and the status record says so. -/
theorem trafficGenStart_of_bad (hop : bits v.toNat 13 12 = 1) (hmap : s.mapped d.val = true)
    (hbad : genOk (s.genCtl d.val ch.val) = false ∨ s.genAllowed d.val = false) :
    Does (.trafficGenStart t q v) r0 fun u => u.ans.status = stRejected ∧
      bits (u.odGet (0x5120 + d.val) (ch.val + 1)) 2 0 = 4 ∧
      u.odGet 0xB108 14 = s.odGet 0xB108 14 + 1 ∧ u.gens = s.gens ∧ u.mem = s.mem := by
  have hrun := State.startRun_of_bad hd hone hch hop hmap hbad
  obtain ⟨w, hw, hstate, -⟩ := s.genStatus_eq d.val ch.val (state := 4) (moved := 0) 0 none 0 (by decide) (by decide)
  rw [hw] at hrun
  have hobjects := (s.odSet (0x5120 + d.val) (ch.val + 1) w).event_objectsKept 0x080E (ofDie d.val) [] (by decide)
  have hstatus := hobjects (0x5120 + d.val) (ch.val + 1) (by omega) (by omega)
  refine ⟨_, (exec_trafficGenStart hs).trans (congrArg _ (State.command_rejected hr hrun)), rfl, ?_, ?_,
    State.event_gens .., State.event_mem ..⟩
  · exact (congrArg (bits · 2 0) (hstatus.trans (State.odGet_odSet_same ..))).trans hstate
  · exact (State.event_count _ 0x080E (ofDie d.val) []).trans
      (congrArg (· + 1) (State.odGet_odSet_other _ _ _ _ _ _ (statusKey_ne_counter d.isLt ch.isLt)))

/-- A stop of a running generator that only reads: its status says stopped and how many lines it has moved. -/
theorem trafficGenStop_of_running {moved : Nat} (miss : List (Fin 64 × List GenMiss)) (hop : bits v.toNat 13 12 = 2)
    (hmap : s.mapped d.val = true) (hrunning : (s.gen d.val ch.val).running = true)
    (hmix : genMix (s.genCtl d.val ch.val) = 0) (hmoved : moved < 2 ^ 64) : Does (.trafficGenStop t q v moved miss) r0 fun u =>
      u.ans.status = stOk ∧ u.gen d.val ch.val = { s.gen d.val ch.val with running := false, due := false } ∧
      bits (u.odGet (0x5120 + d.val) (ch.val + 1)) 2 0 = 3 ∧ bits (u.odGet (0x5120 + d.val) (ch.val + 1)) 255 192 = moved ∧
      { u.bare s with gens := s.gens, od := s.od } = s := by
  have hrun := State.stopRun_of_running hd hone hch hop hmap hrunning hmix moved miss
  obtain ⟨w, hw, hstate, hlines⟩ := s.genStatus_eq d.val ch.val (state := 3)
    (missDies (s.genCtl d.val ch.val) (missOf miss ch.val)) (missOf miss ch.val).head? (missOf miss ch.val).length
    (by decide) hmoved
  rw [hw] at hrun
  have hget : (s.odSet (0x5120 + d.val) (ch.val + 1) w).odGet (0x5120 + d.val) (ch.val + 1) = w := State.odGet_odSet_same ..
  exact ⟨_, (exec_trafficGenStop hs).trans (congrArg _ (State.command_done hr hrun)), rfl, State.gen_setGen_same ..,
    (congrArg (bits · 2 0) hget).trans hstate, (congrArg (bits · 255 192) hget).trans hlines, rfl⟩
end

/-- The end of a generator that writes one line of zeros in one pass. -/
theorem State.genFinish_one_zero {s : State} {d ch : Nat} (hpasses : genPasses (s.genCtl d ch) = 1)
    (hcount : genCount (s.genCtl d ch) = 1) (hmix : genMix (s.genCtl d ch) = 1) (hpattern : genPattern (s.genCtl d ch) = 0)
    (hwalk : genWalk (s.genCtl d ch) = 0) (miss : List GenMiss) : ∃ w, s.genFinish d ch miss =
      ((s.store (stackKey d (lineOff ch (genBase (s.genCtl d ch)))) (List.replicate 64 0)).odSet (0x5120 + d) (ch + 1) w).setGen
        d ch { s.gen d ch with running := false } ∧ bits w 2 0 = 2 := by
  have hmoves : genMoves (s.genCtl d ch) = 1 := by simp [genMoves, hpasses, hcount, hmix]
  rw [State.genFinish, hmoves, State.genStore_one_zero hcount hmix hpattern hwalk]
  obtain ⟨w, hw, hstate, -⟩ := State.genStatus_eq (s.store (stackKey d (lineOff ch (genBase (s.genCtl d ch)))) (List.replicate 64 0))
    d ch (state := 2) (moved := 1) (missDies (s.genCtl d ch) miss) miss.head? miss.length (by decide) (by decide)
  exact ⟨w, by rw [hw], hstate⟩

theorem State.odGet_setGen (s : State) (d ch : Nat) (x : TrafficGen) (i j : Nat) : (s.setGen d ch x).odGet i j = s.odGet i j := rfl

/-- A generator that writes one line of zeros in one pass is done after it. -/
theorem trafficGenDone_of_one_zero {t : Nat} {d : DieIdx} {ch : Fin 64} (miss : List GenMiss) {s r0 : State} (hs : s = r0.arrive t)
    (hrun : (s.gen d.val ch.val).running = true) (hpasses : genPasses (s.genCtl d.val ch.val) = 1)
    (hcount : genCount (s.genCtl d.val ch.val) = 1) (hmix : genMix (s.genCtl d.val ch.val) = 1)
    (hpattern : genPattern (s.genCtl d.val ch.val) = 0) (hwalk : genWalk (s.genCtl d.val ch.val) = 0)
    (hwf : Mem.wf s.mem = true) : Does (.trafficGenDone t d ch miss) r0 fun u =>
      let k := stackKey d.val (lineOff ch.val (genBase (s.genCtl d.val ch.val)))
      (u.gen d.val ch.val).running = false ∧ bits (u.odGet (0x5120 + d.val) (ch.val + 1)) 2 0 = 2 ∧
      Mem.readN u.mem k 64 = List.replicate 64 0 ∧ ∀ a, a < k ∨ k + 64 ≤ a → Mem.read u.mem a = Mem.read s.mem a := by
  have hexec : exec (.trafficGenDone t d ch miss) r0 = .next (s.genFinish d.val ch.val miss) :=
    (exec_trafficGenDone hs).trans (if_neg (by simp [hrun, hpasses]))
  obtain ⟨w, hw, hstate⟩ := State.genFinish_one_zero hpasses hcount hmix hpattern hwalk miss
  rw [hw] at hexec
  generalize stackKey d.val (lineOff ch.val (genBase (s.genCtl d.val ch.val))) = k at hexec ⊢
  have hlen : (List.replicate 64 (0 : Byte)).length = 64 := List.length_replicate
  generalize List.replicate 64 (0 : Byte) = l at hexec hlen ⊢
  refine ⟨_, hexec, ?_, ?_, ?_, fun a ha => ?_⟩
  · rw [State.gen_setGen_same]
  · rw [State.odGet_setGen, State.odGet_odSet_same]
    exact hstate
  · rw [State.setGen_mem, State.odSet_mem, State.store_mem]
    have hread := Mem.readN_writeN s.mem k l hwf
    rwa [hlen] at hread
  · rw [State.setGen_mem, State.odSet_mem, State.store_mem]
    exact Mem.read_writeN_outside s.mem k a l hwf (by rwa [hlen])

/-! ### The obligation -/

/-- Settles O45: per row, what a slot serves, what a window starts, and what the commands of a generator leave. -/
theorem channelsAndGenerators : Obligations.ChannelsAndGenerators := by
  unfold Obligations.ChannelsAndGenerators
  refine ⟨?slots, ?windows, ?commands, ?done⟩
  case slots =>
    intro t p line cost rest d ch up r0 s c x ctl hnone hn
    exact ⟨fun hgeneral hstop hq hhalf hserved hb => channelCommandSlot_servesC0 rfl hnone hstop hgeneral hq hhalf hserved hb,
      fun hmaint hstop hr => channelCommandSlot_refreshes rfl hnone hstop hn hmaint hr,
      fun hrun hrate hleft => channelCommandSlot_places up rfl hnone hn hrun hrate hleft⟩
  case windows =>
    intro t e v d r0 s hall hwait he
    exact channelSlotWindow_starts rfl hall hwait he
  case commands =>
    intro t q v d ch r0 s status allowed hr hd hone hch
    have hallowed : s.genAllowed d.val = true ↔ allowed := s.genAllowed_iff d.val
    refine ⟨fun hop hmap hok hall => trafficGenStart_of_ok rfl hr hd hone hch hop hmap hok (hallowed.2 hall),
      fun hop hmap hbad => trafficGenStart_of_bad rfl hr hd hone hch hop hmap (hbad.imp_right fun hno => ?_),
      trafficGenStart_of_unmapped rfl hr hd,
      fun moved miss hop hmap hrun hmix hmoved => trafficGenStop_of_running rfl hr hd hone hch miss hop hmap hrun hmix hmoved⟩
    exact Bool.eq_false_iff.2 (mt hallowed.1 hno)
  case done =>
    intro t d ch miss r0 s hrun
    refine ⟨fun hendless => ?_, fun hpasses hcount hmix hpattern hwalk hwf =>
      trafficGenDone_of_one_zero miss rfl hrun hpasses hcount hmix hpattern hwalk hwf⟩
    rw [exec_trafficGenDone rfl]
    exact if_pos (by simp [s, hendless])

end Sys2Proof.Machine
end

section
namespace Sys2Proof.Machine

/-! ## Accesses of one line to memory that answers (O33, O35, O36)

An access that lies in one line, to memory of a stack that the checks let pass, whose line has no error and that the host does
not hold, moves its bytes and does nothing else. -/

/-! ### Numbers of bytes -/

theorem natOf_bytesOf (n v : Nat) : natOf (bytesOf n v) = v % 256 ^ n := by
  induction n generalizing v with
  | zero => simp [bytesOf, natOf, Nat.mod_one]
  | succ n ih =>
    rw [bytesOf, natOf, ih, BitVec.toNat_ofNat, show 256 ^ (n + 1) = 256 * 256 ^ n from Nat.pow_succ', Nat.mod_mul]

theorem natOf_lt (l : List Byte) : natOf l < 256 ^ l.length := by
  induction l with
  | nil => simp [natOf]
  | cons b l ih =>
    have hb := b.isLt
    rw [natOf, List.length_cons, Nat.pow_succ]
    omega

/-- Eight bytes at most are a 64-bit number. -/
theorem natOf_take_lt (l : List Byte) {n : Nat} (hn : n ≤ 8) : natOf (l.take n) < 2 ^ 64 :=
  (natOf_lt _).trans_le (Nat.pow_le_pow_right (by decide : 0 < 256) ((List.length_take_le n l).trans hn))

theorem extendTo_lt {v : Nat} (size : Nat) (sg : Bool) (hv : v < 2 ^ 64) : extendTo size sg v < 2 ^ 64 := by
  unfold extendTo
  split
  · exact (Int.toNat_lt (Int.emod_nonneg _ (by decide))).2 (Int.emod_lt_of_pos _ (by decide))
  · exact hv

/-- The register a delivered value reaches. -/
theorem State.getX_setX_same (s : State) (h r : Nat) {v : Nat} (hv : v < 2 ^ 64) :
    (s.setX h r v).getX h r = if r = 0 then 0 else v := by
  rw [(s.getX_setX h r v).1, Nat.mod_eq_of_lt hv]

/-! ### Lines the host holds, and the pieces of an access -/

section
variable {s : State} {w : Who} {pa n k : Nat}

theorem State.snoopFor_of_held_nil (w : Who) (pa n : Nat) (h : s.host.held = []) : s.snoopFor w pa n = (s, false) := by
  cases w <;> simp [State.snoopFor, h]

/-- An aligned access of 1, 2, 4 or 8 bytes lies in one line. -/
theorem within_line_of_aligned (hn : n = 1 ∨ n = 2 ∨ n = 4 ∨ n = 8) (ha : pa % n = 0) : 0 < n ∧ pa % 64 + n ≤ 64 := by
  rcases hn with rfl | rfl | rfl | rfl <;> omega

theorem linePieces_of_within (h : 0 < n ∧ pa % 64 + n ≤ 64) : linePieces pa n = [(0, pa, n)] := by
  have h1 : (pa + n - 1) / 64 - pa / 64 + 1 = 1 := by omega
  have h2 : max pa (pa / 64 * 64) = pa := by omega
  have h3 : min (pa + n) ((pa / 64 + 1) * 64) - pa = n := by omega
  simp only [linePieces, h1, List.range_one, List.map_cons, List.map_nil, Nat.add_zero, h2, h3, Nat.sub_self]

/-! ### Loads -/

theorem State.loadPiece_of_ok (lane off : Nat) (hv : s.verdict w .rd pa = (s, .ok k)) (hr : s.readCheck k n = (s, [])) :
    s.loadPiece w lane off pa n = (s, Mem.readN s.mem k n, 0) := by
  simp only [State.loadPiece, hv, hr, List.isEmpty_nil, if_true]

theorem State.loadLocal_of_ok (lane : Nat) (hh : s.host.held = []) (hw : 0 < n ∧ pa % 64 + n ≤ 64)
    (hv : s.verdict w .rd pa = (s, .ok k)) (hr : s.readCheck k n = (s, [])) :
    s.loadLocal w lane pa n = (s, some (Mem.readN s.mem k n, 0)) := by
  simp only [State.loadLocal, State.loadFrom, State.snoopFor_of_held_nil w pa n hh, linePieces_of_within hw,
    List.foldl_cons, List.foldl_nil, State.loadPiece_of_ok _ _ hv hr, List.nil_append, if_true]

/-! ### Stores -/

variable {d o : Nat} {l : List Byte}

theorem State.storePiece_of_ok (a : Acc) (hp : s.place pa = .stack d o) (hv : s.verdict w a pa = (s, .ok k))
    (hr : s.readCheck k l.length = (s, [])) : s.storePiece w a pa l = (s.store k l, 0, 0) := by
  have hif : (if l.length = 64 then (s, []) else s.readCheck k l.length) = (s, []) := by rw [hr, ite_self]
  simp only [State.storePiece, hv, hp, hif, List.isEmpty_nil, if_true]

theorem State.storeLocal_of_ok (hh : s.host.held = []) (hw : 0 < l.length ∧ pa % 64 + l.length ≤ 64)
    (hp : s.place pa = .stack d o) (hv : s.verdict w .wr pa = (s, .ok k)) (hr : s.readCheck k l.length = (s, [])) :
    s.storeLocal w pa l = (s.store k l, some (0, 0)) := by
  simp only [State.storeLocal, State.snoopFor_of_held_nil w pa _ hh, linePieces_of_within hw, List.foldl_cons, List.foldl_nil,
    List.drop_zero, List.take_length, State.storePiece_of_ok _ hp hv hr, if_true]

theorem State.storeRequest_of_ok (hh : s.host.held = []) (hw : 0 < l.length ∧ pa % 64 + l.length ≤ 64)
    (hp : s.place pa = .stack d o) (hv : s.verdict w .wr pa = (s, .ok k)) (hr : s.readCheck k l.length = (s, [])) :
    s.storeRequest w pa l = (s.store k l, some (0, 0)) := by
  simp only [State.storeRequest, linePieces_of_within hw, List.findSome?_cons, List.findSome?_nil, hv,
    State.storeLocal_of_ok hh hw hp hv hr]

/-! ### Atomics -/

theorem State.amoLocal_of_ok (op : Nat) (operands : List Byte) (hh : s.host.held = []) (hp : s.place pa = .stack d o)
    (hv : s.verdict w .amo pa = (s, .ok k)) (hr : s.readCheck k n = (s, [])) :
    s.amoLocal w op pa n operands = (s.store k (bytesOf n (amoValue op n (natOf (Mem.readN s.mem k n)) (natOf (operands.take n))
      (natOf ((operands.drop n).take n)))), some (Mem.readN s.mem k n, 0, 0)) := by
  simp only [State.amoLocal, State.snoopFor_of_held_nil w pa n hh, hv, hr, hp, List.isEmpty_nil, Bool.not_true,
    Bool.false_eq_true, if_false]
end

/-! ### What a store leaves in memory -/

/-- Exactly the bytes stored are there. -/
theorem State.store_bytes (s : State) (k : Nat) (l : List Byte) (hm : Mem.wf s.mem = true) :
    Mem.readN (s.store k l).mem k l.length = l ∧
    ∀ b, b < k ∨ k + l.length ≤ b → Mem.read (s.store k l).mem b = Mem.read s.mem b := by
  rw [State.store_mem]
  exact ⟨Mem.readN_writeN _ _ _ hm, fun b hb => Mem.read_writeN_outside _ _ _ _ hm hb⟩

/-! ### Reservations (07 R232) -/

/-- A map over the values of a sparse map is read value by value. -/
theorem fmGet?_map_of_key {α : Type} (m : Fm α) (f : Nat × α → Nat × α) (hf : ∀ e, (f e).1 = e.1) (k : Nat) :
    fmGet? (m.map f) k = (fmGet? m k).map fun a => (f (k, a)).2 := by
  induction m with
  | nil => rfl
  | cons e m ih =>
    obtain ⟨j, a⟩ := e
    have hj : f (j, a) = (j, (f (j, a)).2) := Prod.ext (hf _) rfl
    rw [List.map_cons, hj, fmGet?, fmGet?]
    split
    next h => rw [h]; rfl
    next => exact ih

/-- A store ends no reservation of its own hart. -/
theorem State.hart_breakRes_same (s : State) (h pa n : Nat) : (s.breakRes h pa n).hart h = s.hart h := by
  unfold State.hart State.breakRes fmGet
  rw [fmGet?_map_of_key]
  · cases hx : fmGet? s.harts h with
    | none => rfl
    | some x =>
      cases hr : x.reserved <;> simp [hr]
  · intro e
    split
    · split <;> rfl
    · rfl

end Sys2Proof.Machine
end

section
namespace Sys2Proof.Machine

/-! ## own_force_open (O38) -/

/-- A command object that may be written and whose command goes through answers OK. -/
theorem State.command_of_ok {s u : State} {q : Option Nat} {idx sub : Nat} {run : State → State × Bool}
    (hr : s.refusal q idx sub true = none) (hrun : run s = (u, true)) : s.command q idx sub run = u.answer stOk [] := by
  simp only [State.command, hr, hrun, if_true]

/-- An event changes event records only. -/
theorem State.event_unsaid (s : State) (c : Nat) (w : EvWho) (d : List EvField) : (s.event c w d).unsaid s = s := by
  apply State.eq_of_fields <;> simp [State.unsaid, State.bare]

theorem State.ownEnt_of_fab {s u : State} (h : u.fab = s.fab) (r : Nat) : u.ownEnt r = s.ownEnt r := by
  rw [State.ownEnt, h, State.ownEnt]

/-- A region forced open, before the event. -/
def State.opened (s : State) (g : Nat) : State :=
  { s with fab := { s.fab with own := fmSet s.fab.own g { gen := (s.ownEnt g).gen + 1 } } }

theorem State.forceOpen_effect (s : State) (g : Nat) : let u := s.forceOpen g
    u.ownEnt g = { gen := (s.ownEnt g).gen + 1 } ∧ (∀ r, r ≠ g → u.ownEnt r = s.ownEnt r) ∧
    u.odGet 0xB109 11 = s.odGet 0xB109 11 + 1 ∧ s.ObjectsKept u ∧ { u.unsaid s with fab := s.fab } = s := by
  intro u
  have hfab : u.fab = (s.opened g).fab := State.event_fab ..
  refine ⟨?_, fun r hr => ?_, (s.opened g).event_count 0x090B noOne [],
    (s.opened g).event_objectsKept 0x090B noOne [] (by decide), ?_⟩
  · rw [State.ownEnt_of_fab hfab]
    exact fmGet_fmSet_same ..
  · rw [State.ownEnt_of_fab hfab]
    exact fmGet_fmSet_other _ _ _ _ _ hr
  · exact congrArg (fun x : State => { x with fab := s.fab }) ((s.opened g).event_unsaid 0x090B noOne [])

theorem exec_ownForceOpen (t : Nat) (q : Option Nat) (v : BitVec 64) (s : State) :
    exec (.ownForceOpen t q v) s = execOwnForceOpen t q v s := rfl

theorem exec_ownForceOpen_of_stack {t d o : Nat} {q : Option Nat} {v : BitVec 64} {r0 : State}
    (hr : (r0.arrive t).refusal q 0x6030 0 true = none) (hp : (r0.arrive t).place (v.toNat % 2 ^ 48) = .stack d o) :
    exec (.ownForceOpen t q v) r0 = .next (((r0.arrive t).forceOpen (v.toNat % 2 ^ 48 / 2 ^ 21)).answer stOk []) := by
  rw [exec_ownForceOpen, execOwnForceOpen, State.command_of_ok hr]
  simp only [hp]

/-- Settles O38: the region is the one entry written, and the event changes event records only. -/
theorem forceOpen : Obligations.ForceOpen := by
  intro t d o q v r0 s hr hp g
  have heffect := s.forceOpen_effect g
  refine ⟨_, exec_ownForceOpen_of_stack hr hp, ?_⟩
  generalize s.forceOpen g = u at heffect ⊢
  obtain ⟨hent, hother, hcount, hkept, hframe⟩ := heffect
  exact ⟨congrArg OwnEnt.state hent, congrArg OwnEnt.gen hent, hcount, hother, (congrArg State.mem hframe :),
    (congrArg (fun x : State => x.host.held) hframe :), hkept, hframe⟩

end Sys2Proof.Machine
end

section
namespace Sys2Proof.Machine

/-! ## Packets that leave (09 R292, R293, R304)

What sending changes, and that a packet that can leave at once does leave with its header. -/

/-! ### What sending leaves alone -/

/-- Between s and u packets may have been sent: what went out, the ports, the shares' counts, and that a request has been
issued; the rest is as it was. -/
def State.Posts (s u : State) : Prop :=
  { u with
    od := s.od
    out := s.out
    ports := s.ports
    fab := { u.fab with issued := s.fab.issued } } = s

theorem State.Posts.refl (s : State) : s.Posts s := rfl

theorem State.Posts.trans {s t u : State} (h : s.Posts t) (h' : t.Posts u) : s.Posts u := by
  unfold State.Posts at *
  rw [← h, ← h']

theorem State.Posts.harts {s u : State} (h : s.Posts u) : u.harts = s.harts := (congrArg State.harts h :)
theorem State.Posts.mem {s u : State} (h : s.Posts u) : u.mem = s.mem := (congrArg State.mem h :)
theorem State.Posts.sources {s u : State} (h : s.Posts u) : u.fab.sources = s.fab.sources := (congrArg (·.fab.sources) h :)
theorem State.Posts.ordering {s u : State} (h : s.Posts u) : u.fab.ordering = s.fab.ordering := (congrArg (·.fab.ordering) h :)
theorem State.Posts.own {s u : State} (h : s.Posts u) : u.fab.own = s.fab.own := (congrArg (·.fab.own) h :)
theorem State.Posts.gathers {s u : State} (h : s.Posts u) : u.fab.gathers = s.fab.gathers := (congrArg (·.fab.gathers) h :)

theorem State.setPort_posts (s : State) (n : Nat) (x : Port) : s.Posts (s.setPort n x) := rfl

theorem State.send_posts (s : State) (m : Msg) : s.Posts (s.send m) := rfl

theorem State.sendFlit_posts (s : State) (n : Nat) (e : Egress) : s.Posts (s.sendFlit n e).1 := by
  unfold State.sendFlit
  dsimp only
  split <;> rfl

theorem State.sendFlits_posts (s : State) (n k : Nat) (e : Egress) : s.Posts (s.sendFlits n k e).1 := by
  fun_induction State.sendFlits s n k e
  case case1 => exact .refl _
  case case2 => exact .refl _
  case case3 h ih =>
    refine .trans ?_ ih
    rw [fst_of_eq h]
    exact State.sendFlit_posts ..

theorem foldl_fst_posts {α β : Type} {f : State × β → α → State × β} (h : ∀ (x : State × β) a, x.1.Posts (f x a).1) (l : List α)
    (x : State × β) : x.1.Posts (l.foldl f x).1 :=
  List.foldlRecOn l f (motive := fun u => x.1.Posts u.1) (.refl x.1) fun _ hu a _ => hu.trans (h _ a)

theorem State.drainPort_posts (s : State) (n : Nat) : s.Posts (s.drainPort n) := by
  have h (l : List Egress) := foldl_fst_posts (f := fun (a : State × List Egress) e =>
    if a.2.any fun b => b.vc == e.vc then (a.1, a.2 ++ [e])
    else
      let (s, e) := a.1.sendFlits n e.left e
      if e.left = 0 then (s.send (.packet { e.packet with flits := e.heads }), a.2) else (s, a.2 ++ [e])) (fun a e => by
    dsimp only
    split
    · exact .refl _
    · have hflits := a.1.sendFlits_posts n e.left e
      split
      · exact hflits.trans (State.send_posts ..)
      · exact hflits) l (s, [])
  unfold State.drainPort
  dsimp only
  split
  · exact h _
  · exact (h _).trans (State.setPort_posts ..)

theorem State.sendPacket_posts (s : State) (charge : Option Nat) (p : Packet) : s.Posts (s.sendPacket charge p) := by
  have hissued : s.Posts (if p.op < 0x80 then { s with fab := { s.fab with issued := true } } else s) := by
    split <;> rfl
  unfold State.sendPacket
  dsimp only
  split
  · exact hissued
  · exact hissued.trans ((State.setPort_posts ..).trans (State.drainPort_posts ..))

theorem State.respond_posts (s : State) (k : Packet) (status cause : Nat) (l : List Byte) :
    s.Posts (s.respond k status cause l) := s.sendPacket_posts _ _

/-! ### One flit -/

section
variable (s : State) (n : Nat) (e : Egress)

/-- Its port after a flit. -/
theorem State.sendFlit_port : ∃ seq owed, (s.sendFlit n e).1.port n = { s.port n with
    seq := seq
    owed := owed
    credits := fmSet (s.port n).credits e.vc (fmGet (s.port n).credits e.vc 0 - 1)
    replayBuf := if bit (s.odGet 0x6002 (n + 1)) 1 then (s.port n).replayBuf ++ [(s.port n).seq] else []
    frameC0 := if e.cls = 0 then fmSet (s.port n).frameC0 (e.charge.getD 0) (fmGet (s.port n).frameC0 (e.charge.getD 0) 0 + 1)
      else (s.port n).frameC0
    frameC1 := if e.cls = 1 then (s.port n).frameC1 + 1 else (s.port n).frameC1 } := by
  unfold State.sendFlit
  dsimp only
  split <;> exact ⟨_, _, fmGet_fmSet_same ..⟩

theorem State.sendFlit_packet : (s.sendFlit n e).2.packet = e.packet := rfl
theorem State.sendFlit_left : (s.sendFlit n e).2.left = e.left - 1 := rfl
theorem State.sendFlit_out : (s.sendFlit n e).1.out = s.out := by
  unfold State.sendFlit
  dsimp only
  split <;> rfl

/-- The member toward whose share the flits of a packet count: draft traffic counts toward none. -/
def Egress.counts (e : Egress) : Option Nat := if e.cls = 0 then none else e.charge

theorem State.sendFlit_od : (s.sendFlit n e).1.od = match e.counts with
    | none => s.od
    | some p => (s.odSet (0x3028 + p) 2 (s.odGet (0x3028 + p) 2 + 1)).od := by
  unfold State.sendFlit
  dsimp only
  split
  next h =>
    rw [show e.counts = none from if_pos h]
    rfl
  next h _ =>
    rw [show e.counts = none by rw [Egress.counts, h, ite_self]]
    rfl
  next p hcharge hcls =>
    rw [show e.counts = some p from (if_neg hcls).trans hcharge]
    rfl
end

theorem State.odGet_of_eq {s u : State} (ho : u.od = s.od) (hc : u.cfg = s.cfg) (i j : Nat) : u.odGet i j = s.odGet i j := by
  rw [State.odGet, ho, hc, State.odGet]

/-! ### Room to replay

A flit charged to member 0x2FDA would count in the object that tells whether port 1 is a compatibility port. Even then a packet
that begins on a native port finds room in the replay buffer for all its flits, which the buffer never holds more than two of. -/

theorem bit_one_iff (v : Nat) : bit v 1 = true ↔ 2 ≤ v % 4 := by
  rw [bit, Nat.testBit_eq_decide_div_mod_eq, decide_eq_true_eq]
  omega

/-- The object that tells whether port n is a compatibility port. -/
def State.portConfig (s : State) (n : Nat) : Nat := s.odGet 0x6002 (n + 1)

/-- The flits of a packet count in the object of their port. -/
def Egress.countsIn (e : Egress) (n : Nat) : Prop := e.counts = some 0x2FDA ∧ n = 1

theorem State.sendFlit_portConfig (s : State) {n : Nat} (e : Egress) (hn : n < 16) :
    (e.countsIn n → (s.sendFlit n e).1.portConfig n = s.portConfig n + 1) ∧
    (¬ e.countsIn n → (s.sendFlit n e).1.portConfig n = s.portConfig n) := by
  have hcfg : (s.sendFlit n e).1.cfg = s.cfg := (congrArg State.cfg (s.sendFlit_posts n e) :)
  have hread : (s.sendFlit n e).1.portConfig n = ({ s with od := (s.sendFlit n e).1.od } : State).portConfig n :=
    State.odGet_of_eq (u := (s.sendFlit n e).1) (s := { s with od := (s.sendFlit n e).1.od }) rfl hcfg 0x6002 (n + 1)
  rw [hread, State.sendFlit_od]
  refine ⟨fun h => ?_, fun h => ?_⟩
  · obtain ⟨hp, rfl⟩ := h
    rw [hp]
    exact State.odGet_odSet_same ..
  · cases hp : e.counts with
    | none => rfl
    | some p =>
      refine State.odGet_odSet_other s _ _ _ 0x6002 (n + 1) fun hkey => h ?_
      unfold odKey at hkey
      obtain ⟨hpeq, hneq⟩ : p = 0x2FDA ∧ n = 1 := by omega
      exact ⟨hp.trans (congrArg some hpeq), hneq⟩

/-- The port is native, or its flits count in its own object and the buffer holds as few as that count tells. -/
def State.Roomy (s : State) (n : Nat) (e : Egress) : Prop :=
  bit (s.portConfig n) 1 = true → e.countsIn n ∧ (s.port n).replayBuf.length + 2 ≤ s.portConfig n % 4

theorem State.Roomy.room {s : State} {n : Nat} {e : Egress} (h : s.Roomy n e) : s.roomToReplay n = true := by
  change (!bit (s.portConfig n) 1 || _) = true
  by_cases hb : bit (s.portConfig n) 1 = true
  · obtain ⟨-, hlen⟩ := h hb
    simp only [hb, Bool.not_true, Bool.false_or, decide_eq_true_eq]
    omega
  · simp [hb]

theorem State.Roomy.sendFlit {s : State} {n : Nat} {e : Egress} (h : s.Roomy n e) (hn : n < 16) :
    (s.sendFlit n e).1.Roomy n (s.sendFlit n e).2 := by
  obtain ⟨hin, hout⟩ := s.sendFlit_portConfig e hn
  obtain ⟨seq, owed, hport⟩ := s.sendFlit_port n e
  have hbuf : ((s.sendFlit n e).1.port n).replayBuf =
      if bit (s.portConfig n) 1 then (s.port n).replayBuf ++ [(s.port n).seq] else [] := congrArg Port.replayBuf hport
  intro hbit
  have hcounts : e.countsIn n := by
    by_contra hno
    rw [hout hno] at hbit
    exact hno (h hbit).1
  refine ⟨hcounts, ?_⟩
  rw [hin hcounts, bit_one_iff] at hbit
  rw [hin hcounts, hbuf]
  by_cases hb : bit (s.portConfig n) 1 = true
  · have hlen := (h hb).2
    rw [if_pos hb, List.length_append, List.length_singleton]
    rw [bit_one_iff] at hb
    omega
  · rw [if_neg hb, List.length_nil]
    omega

/-! ### All the flits of a packet -/

theorem State.frameBudget_of_eq {s u : State} (ho : u.od = s.od) (hc : u.cfg = s.cfg) (p : Nat) :
    u.frameBudget p = s.frameBudget p := by
  have hvalid : u.partValid = s.partValid := funext fun p => congrArg (bit · 32) (State.desc_of_eq ho hc p)
  simp only [State.frameBudget, hvalid, State.odGet_of_eq ho hc]

/-- A packet for whose flits there are credits, and as draft traffic room in the frame. -/
structure State.Passes (s : State) (n : Nat) (e : Egress) : Prop where
  credits : e.left ≤ fmGet (s.port n).credits e.vc 0
  frame : e.cls = 0 → fmGet (s.port n).frameC0 (e.charge.getD 0) 0 + e.left ≤ s.frameBudget (e.charge.getD 0)
  roomy : s.Roomy n e

theorem State.Passes.overFrame {s : State} {n : Nat} {e : Egress} (h : s.Passes n e) (hl : e.left ≠ 0) :
    s.overFrame n e = false := by
  unfold State.overFrame
  by_cases hc : e.cls = 0
  · have := h.frame hc
    simp only [hc, beq_self_eq_true, Bool.true_and, decide_eq_false_iff_not]
    omega
  · simp [hc]

theorem State.Passes.sendFlit {s : State} {n : Nat} {e : Egress} (h : s.Passes n e) (hl : e.left ≠ 0) (hn : n < 16) :
    (s.sendFlit n e).1.Passes n (s.sendFlit n e).2 := by
  obtain ⟨seq, owed, hport⟩ := s.sendFlit_port n e
  refine ⟨?_, fun hc => ?_, h.roomy.sendFlit hn⟩
  · have := h.credits
    rw [hport]
    change e.left - 1 ≤ fmGet (fmSet _ e.vc _) e.vc 0
    rw [fmGet_fmSet_same]
    omega
  · change e.cls = 0 at hc
    have hod : (s.sendFlit n e).1.od = s.od := by rw [State.sendFlit_od, Egress.counts, if_pos hc]
    have hcfg : (s.sendFlit n e).1.cfg = s.cfg := (congrArg State.cfg (s.sendFlit_posts n e) :)
    have hframe := h.frame hc
    rw [State.frameBudget_of_eq hod hcfg, hport]
    simp only [if_pos hc]
    change fmGet (fmSet _ (e.charge.getD 0) _) (e.charge.getD 0) 0 + (e.left - 1) ≤ s.frameBudget (e.charge.getD 0)
    rw [fmGet_fmSet_same]
    omega

/-- All its flits leave, and nothing else goes out. -/
theorem State.sendFlits_of_passes {s : State} {n : Nat} {e : Egress} (h : s.Passes n e) (hn : n < 16) :
    (s.sendFlits n e.left e).2.left = 0 ∧ (s.sendFlits n e.left e).2.packet = e.packet ∧
    (s.sendFlits n e.left e).1.out = s.out := by
  generalize hk : e.left = k
  induction k generalizing s e with
  | zero => exact ⟨hk, rfl, rfl⟩
  | succ k ih =>
    have hl : e.left ≠ 0 := by omega
    have hcredits := h.credits
    have hgo : ¬ (e.left = 0 ∨ fmGet (s.port n).credits e.vc 0 = 0 ∨ !s.roomToReplay n ∨ s.overFrame n e) := by
      simp only [h.roomy.room, h.overFrame hl, Bool.not_true, Bool.false_eq_true, or_false]
      omega
    obtain ⟨hleft, hpacket, hout⟩ := ih (h.sendFlit hl hn) (by rw [State.sendFlit_left]; omega)
    rw [State.sendFlits, if_neg hgo]
    exact ⟨hleft, hpacket.trans (s.sendFlit_packet n e), hout.trans (s.sendFlit_out n e)⟩

/-- A packet that waits alone at its port, and passes, goes out with the headers of its flits. -/
theorem State.drainPort_of_passes {s : State} {n : Nat} {e : Egress} (h : s.Passes n e) (hn : n < 16)
    (he : (s.port n).egress = [e]) : ∃ heads, (s.drainPort n).out = s.out ++ [.packet { e.packet with flits := heads }] := by
  obtain ⟨hleft, hpacket, hout⟩ := State.sendFlits_of_passes h hn
  have horder : sendOrder (s.port n).frameC1 (s.port n).egress = [e] := by rw [he]; rfl
  refine ⟨(s.sendFlits n e.left e).2.heads, ?_⟩
  unfold State.drainPort
  simp only [horder, List.foldl_cons, List.foldl_nil, List.any_nil, Bool.false_eq_true, if_false, hleft, if_true, List.isEmpty_cons,
    hpacket]
  change (s.sendFlits n e.left e).1.out ++ _ = _
  rw [hout]

/-! ### A packet that can leave at once -/

theorem State.portFor_lt {s : State} {c0 : Bool} {dst unit n : Nat} (h : s.portFor c0 dst unit = some n) : n < 16 := by
  have hmem : n ∈ s.portSet c0 dst := List.mem_of_getElem? h
  unfold State.portSet at hmem
  extract_lets k at hmem
  cases hf : ((List.range (k + 1)).reverse.map (s.levelPorts c0)).find? fun l => !l.isEmpty with
  | none =>
    rw [hf] at hmem
    cases hmem
  | some l =>
    obtain ⟨j, -, rfl⟩ := List.mem_map.1 (List.mem_of_find?_eq_some hf)
    rw [hf] at hmem
    change n ∈ s.levelPorts c0 j at hmem
    exact List.mem_range.1 (List.mem_of_mem_filter hmem)

section
variable {s u : State} (ho : u.od = s.od) (hc : u.cfg = s.cfg) (hp : u.ports = s.ports)
include ho hc hp

theorem State.portFor_of_eq (c0 : Bool) (dst unit : Nat) : u.portFor c0 dst unit = s.portFor c0 dst unit := by
  have hport (n : Nat) : u.port n = s.port n := by rw [State.port, hp, State.port]
  have hlevel : u.levelPorts c0 = s.levelPorts c0 := by
    funext k
    simp only [State.levelPorts, State.odGet_of_eq ho hc, hport]
  have hpath : u.ownPath = s.ownPath := by rw [State.ownPath, State.odGet_of_eq ho hc, State.ownPath]
  simp only [State.portFor, State.portSet, hlevel, hpath]

/-- Whether a packet can leave at once is told by the objects, the configuration and the ports. -/
theorem State.leaves_of_eq (charge : Option Nat) (m : Packet) : u.Leaves charge m ↔ s.Leaves charge m := by
  have hport (n : Nat) : u.port n = s.port n := by rw [State.port, hp, State.port]
  simp only [State.Leaves, State.portFor_of_eq ho hc hp, State.odGet_of_eq ho hc, State.frameBudget_of_eq ho hc, hport]

theorem State.Sends.of_eq {v : State} {charge : Option Nat} {m : Packet} (h : u.Sends v charge m) (hout : u.out = s.out) :
    s.Sends v charge m := by
  intro hl
  obtain ⟨m', hsent, hwords, hsame⟩ := h ((State.leaves_of_eq ho hc hp charge m).2 hl)
  exact ⟨m', by rw [hsent, hout], hwords, hsame⟩
end

theorem State.sendPacket_sends (s : State) (charge : Option Nat) (m : Packet) :
    s.Sends (s.sendPacket charge m) charge m := by
  rintro ⟨n, hport, hempty, hnative, hcredits, hframe⟩
  have hn := State.portFor_lt hport
  let e : Egress := {
    vc := vcOf m, cls := m.cls, left := flitsOf m.data.length, charge := charge, packet := { m with port := some n, words := m.header } }
  let s0 : State := if m.op < 0x80 then { s with fab := { s.fab with issued := true } } else s
  let s1 := s0.setPort n { s0.port n with egress := (s0.port n).egress ++ [e] }
  have hs0 : s0.out = s.out ∧ s0.od = s.od ∧ s0.cfg = s.cfg ∧ s0.port n = s.port n ∧
      s0.portFor (m.cls == 0) m.dst m.unit = s.portFor (m.cls == 0) m.dst m.unit := by
    unfold s0
    split <;> exact ⟨rfl, rfl, rfl, rfl, rfl⟩
  obtain ⟨hout0, hod0, hcfg0, hport0, hfor0⟩ := hs0
  have hport1 : s1.port n = { s.port n with egress := [e] } := by
    refine (fmGet_fmSet_same ..).trans ?_
    rw [hport0, hempty]
    rfl
  have hpass : s1.Passes n e := by
    refine ⟨?_, fun hc => ?_, fun hb => ?_⟩
    · rw [hport1]
      exact hcredits
    · rw [hport1, State.frameBudget_of_eq (u := s1) hod0 hcfg0]
      exact hframe hc
    · rw [State.portConfig, State.odGet_of_eq (u := s1) hod0 hcfg0, hnative] at hb
      cases hb
  have hsend : s.sendPacket charge m = s1.drainPort n := by
    unfold State.sendPacket
    change (match s0.portFor (m.cls == 0) m.dst m.unit with | none => s0 | some n => _) = _
    rw [hfor0, hport]
  obtain ⟨heads, hgone⟩ := State.drainPort_of_passes hpass hn (congrArg Port.egress hport1)
  refine ⟨{ m with port := some n, words := m.header, flits := heads }, ?_, rfl, rfl⟩
  rw [hsend, hgone]
  exact congrArg (· ++ _) hout0

end Sys2Proof.Machine
end

section
namespace Sys2Proof.Machine

/-! ## Requests from other packages (O35, O36) -/

/-! ### What arrives, and what its ordering die keeps (09 R317, R321) -/

theorem State.heard_of_alive {s : State} {k : Packet} (h : s.fab.dead.contains k.src = false) : s.heard k = s := by
  simp only [State.heard, State.clearDead, h, Bool.false_eq_true, if_false]

@[simp] theorem State.ordSrc_setOrd (s : State) (key : Nat) (x : OrdSrc) : (s.setOrd key x).ordSrc key = x :=
  fmGet_fmSet_same ..

theorem State.ordSrc_of_ordering {s u : State} (h : u.fab.ordering = s.fab.ordering) (key : Nat) : u.ordSrc key = s.ordSrc key := by
  rw [State.ordSrc, h, State.ordSrc]

/-- A request of an older generation leaves the source's state as it is. -/
theorem orderAccept_stale {x : OrdSrc} {gen ord : Nat} {resync : Bool} (h : (orderAccept x gen ord resync).2 = .stale) :
    (orderAccept x gen ord resync).1 = x := by
  unfold orderAccept at h ⊢
  split
  · rfl
  next hno =>
    have hne (c d : Prop) [Decidable c] [Decidable d] : (if c then Accept.apply else if d then .duplicate else .hold) ≠ .stale := by
      split
      · nofun
      · split <;> nofun
    rw [if_neg hno] at h
    exact absurd h (hne _ _)

section
variable {s : State} {k : Packet} (hdead : s.fab.dead.contains k.src = false) (hhome : (s.orderHome k.src k.unit).isSome = true)
include hdead hhome

theorem State.ordered_of_home : s.ordered k = s.orderedHere k := by
  simp only [State.ordered, State.heard_of_alive hdead, Option.isNone_eq_false_iff.2 hhome, Bool.false_eq_true, if_false]
end

/-- The answer to a request, as it leaves. -/
theorem State.respond_sends (s : State) (k : Packet) (status cause : Nat) (l : List Byte) :
    s.Sends (s.respond k status cause l) (s.regionPart k.addr) (s.response k status cause l) :=
  s.sendPacket_sends _ _

/-! ### A request next in order (09 R317, R319) -/

/-- A source after a request of it has been applied: the next one is awaited, and an atomic stands in the ledger. -/
def OrdSrc.applied (x : OrdSrc) (k : Packet) (old : List Byte) (status now : Nat) : OrdSrc :=
  let x := { x with next := (k.ord + 1) % 65536, held := x.held.filter fun h => h.ord != k.ord }
  if decide (0x10 ≤ k.op) && (status == 0 || k.op == 0x28) then x.record k.tag old now else x

section
variable (x : OrdSrc) (k : Packet) (old : List Byte) (status now : Nat)

theorem OrdSrc.applied_next : (x.applied k old status now).next = (k.ord + 1) % 65536 := by
  unfold OrdSrc.applied
  dsimp only
  split <;> rfl

theorem OrdSrc.applied_held : (x.applied k old status now).held = x.held.filter fun h => h.ord != k.ord := by
  unfold OrdSrc.applied
  dsimp only
  split <;> rfl

/-- The newest entry of the ledger is that of the atomic recorded last. -/
theorem OrdSrc.record_getLast? (tag : Nat) : (x.record tag old now).ledger.getLast? = some ⟨tag, old, now⟩ := by
  unfold OrdSrc.record
  dsimp only
  rw [List.getLast?_drop, List.getLast?_append_of_ne_nil _ (by simp), List.getLast?_singleton, if_neg]
  simp only [List.length_append, List.length_singleton]
  omega

theorem OrdSrc.applied_getLast? (hop : 0x10 ≤ k.op) : (x.applied k old 0 now).ledger.getLast? = some ⟨k.tag, old, now⟩ := by
  unfold OrdSrc.applied
  simp only [hop, decide_true, beq_self_eq_true, Bool.true_or, Bool.and_true, if_true]
  exact OrdSrc.record_getLast? _ old now k.tag
end

section
variable {s s1 : State} {key : Nat} {k : Packet} {l : List Byte} {st c : Nat}

/-- What the ordering die does once a request has been performed. -/
def State.answered (s : State) (key : Nat) (k : Packet) (st c : Nat) (l : List Byte) : State :=
  (s.setOrd key ((s.ordSrc key).applied k l st s.now)).respond k st c l

theorem State.answered_posts (s : State) (key : Nat) (k : Packet) (st c : Nat) (l : List Byte) :
    (s.setOrd key ((s.ordSrc key).applied k l st s.now)).Posts (s.answered key k st c l) := State.respond_posts ..

theorem State.answered_ordSrc (s : State) (key : Nat) (k : Packet) (st c : Nat) (l : List Byte) :
    (s.answered key k st c l).ordSrc key = (s.ordSrc key).applied k l st s.now := by
  rw [State.ordSrc_of_ordering (s.answered_posts key k st c l).ordering, State.ordSrc_setOrd]

theorem State.answered_mem (s : State) (key : Nat) (k : Packet) (st c : Nat) (l : List Byte) :
    (s.answered key k st c l).mem = s.mem := (s.answered_posts key k st c l).mem

theorem State.answered_own (s : State) (key : Nat) (k : Packet) (st c : Nat) (l : List Byte) :
    (s.answered key k st c l).fab.own = s.fab.own := (s.answered_posts key k st c l).own

theorem State.applyOne_of_perform (hfull : (s.ordSrc key).ledgerFull s.now = false) (hp : s.perform k = (s1, some (l, st, c))) :
    s.applyOne key k = (s1.answered key k st c l, true) := by
  simp only [State.applyOne, hfull, Bool.and_false, Bool.false_eq_true, if_false, hp, State.answered, OrdSrc.applied]

theorem State.drainHeld_of_held_nil (n : Nat) (h : (s.ordSrc key).held = []) : s.drainHeld key n = s := by
  cases n with
  | zero => rfl
  | succ n => simp only [State.drainHeld, h, List.find?_nil]

/-- With nothing else held, the request that is next is the last to be applied. -/
theorem State.drainHeld_of_answered (n : Nat) (h : (s.ordSrc key).held.filter (fun q => q.ord != k.ord) = []) :
    (s.answered key k st c l).drainHeld key n = s.answered key k st c l :=
  State.drainHeld_of_held_nil n (by rw [State.answered_ordSrc, OrdSrc.applied_held, h])

/-- The one request held of a source is applied once it is next. -/
theorem State.drainHeld_of_held_singleton (n : Nat) (hheld : (s.ordSrc key).held = [k]) (hord : k.ord = (s.ordSrc key).next)
    (hfull : (s.ordSrc key).ledgerFull s.now = false) (hp : s.perform k = (s1, some (l, st, c)))
    (hkeep : s1.ordSrc key = s.ordSrc key) : s.drainHeld key (n + 1) = s1.answered key k st c l := by
  have hnext : [k].find? (fun h => h.ord == (s.ordSrc key).next) = some k := by simp [hord]
  simp only [State.drainHeld, hheld, hnext, State.applyOne_of_perform hfull hp]
  refine State.drainHeld_of_answered n ?_
  rw [hkeep, hheld]
  simp
end

section
variable {s : State} {k : Packet}

/-- A source's state as its ordering die takes a request. -/
def State.accepts (s : State) (k : Packet) : OrdSrc × Accept :=
  orderAccept (s.ordSrc (ordKey k.src k.unit)) k.gen k.ord k.resync

/-- The state in which it decides. -/
def State.accepted (s : State) (k : Packet) : State := s.setOrd (ordKey k.src k.unit) (s.accepts k).1

theorem State.accepted_ordSrc (s : State) (k : Packet) : (s.accepted k).ordSrc (ordKey k.src k.unit) = (s.accepts k).1 :=
  State.ordSrc_setOrd ..

theorem State.orderedHere_of_stale (h : (s.accepts k).2 = .stale) :
    s.orderedHere k = (s.accepted k).respond k 5 0 (slubData k .none 0) := by
  have hx : orderAccept (s.ordSrc (ordKey k.src k.unit)) k.gen k.ord k.resync = ((s.accepts k).1, .stale) := Prod.ext rfl h
  simp only [State.orderedHere, hx, State.accepted]

theorem State.orderedHere_of_hold (h : (s.accepts k).2 = .hold) :
    s.orderedHere k = (s.accepted k).holdReq (ordKey k.src k.unit) k := by
  have hx : orderAccept (s.ordSrc (ordKey k.src k.unit)) k.gen k.ord k.resync = ((s.accepts k).1, .hold) := Prod.ext rfl h
  simp only [State.orderedHere, hx, State.accepted]

theorem State.orderedHere_of_apply {s1 : State} {l : List Byte} {st c : Nat} (h : (s.accepts k).2 = .apply)
    (hheld : (s.accepts k).1.held = []) (hfull : (s.accepts k).1.ledgerFull s.now = false)
    (hp : (s.accepted k).perform k = (s1, some (l, st, c)))
    (hkeep : s1.ordSrc (ordKey k.src k.unit) = (s.accepted k).ordSrc (ordKey k.src k.unit)) :
    s.orderedHere k = s1.answered (ordKey k.src k.unit) k st c l := by
  have hone := State.applyOne_of_perform (key := ordKey k.src k.unit) (by rw [State.accepted_ordSrc]; exact hfull) hp
  have hdrain : (s1.answered (ordKey k.src k.unit) k st c l).drainHeld (ordKey k.src k.unit) 64 = s1.answered (ordKey k.src k.unit) k st c l :=
    State.drainHeld_of_answered 64 (by rw [hkeep, State.accepted_ordSrc, hheld, List.filter_nil])
  have hx : orderAccept (s.ordSrc (ordKey k.src k.unit)) k.gen k.ord k.resync = ((s.accepts k).1, .apply) := Prod.ext rfl h
  rw [State.accepted] at hone
  simp only [State.orderedHere, hx, hone]
  exact hdrain

theorem State.holdReq_of_room {key : Nat} (hlen : (s.ordSrc key).held.length < 64)
    (hnew : (s.ordSrc key).held.any (fun q => q.ord == k.ord) = false) :
    s.holdReq key k = s.setOrd key { s.ordSrc key with held := (s.ordSrc key).held ++ [k] } := by
  unfold State.holdReq
  exact if_neg (by simp [hnew, hlen])
end

end Sys2Proof.Machine
end

section
namespace Sys2Proof.Machine

/-! ### A store or atomic whose checks are passed (09 R311, R312, R319) -/

/-- The bytes a store or atomic puts into memory, over the old ones. -/
def writesOf (k : Packet) (old : List Byte) : List Byte :=
  if k.op = 0x02 then k.data
  else bytesOf k.len (amoValue k.op k.len (natOf old) (natOf (k.data.take k.len)) (natOf ((k.data.drop k.len).take k.len)))

/-- The bytes it answers with. -/
def returnsOf (k : Packet) (old : List Byte) : List Byte := if k.op = 0x02 then [] else old

/-- The access it makes. -/
def accessOf (k : Packet) : Acc := if k.op = 0x02 then .wr else .amo

section
variable {k : Packet} (hop : k.op = 0x02 ∨ 0x10 ≤ k.op ∧ k.op ≤ 0x1A) (hw : wellMade k = true) (hlen : k.len ≤ 8)
include hop hw hlen

/-- A well-made store or atomic of at most 8 bytes is aligned, and a store brings as many bytes as it says. -/
theorem aligned_of_wellMade : (k.len = 1 ∨ k.len = 2 ∨ k.len = 4 ∨ k.len = 8) ∧ k.addr % k.len = 0 ∧
    (k.op = 0x02 → k.data.length = k.len) := by
  unfold wellMade at hw
  rcases hop with hop | hop
  · simp only [hop, Nat.reduceEqDiff, if_false, if_true, Bool.and_eq_true, Bool.or_eq_true, beq_iff_eq, decide_eq_true_eq] at hw
    omega
  · have h1 : k.op ≠ 0x01 := by omega
    have h2 : k.op ≠ 0x02 := by omega
    have h3 : k.op ≠ 0x28 := by omega
    simp only [h1, h2, h3, if_false, Bool.and_eq_true, Bool.or_eq_true, beq_iff_eq] at hw
    omega

theorem length_writesOf (old : List Byte) : (writesOf k old).length = k.len := by
  obtain ⟨-, -, hdata⟩ := aligned_of_wellMade hop hw hlen
  unfold writesOf
  split
  next h => exact hdata h
  next => exact length_bytesOf ..

/-- What it leaves in memory, and of its ordering die. -/
theorem State.performed_effect (s : State) (a : Nat) (hm : Mem.wf s.mem = true) :
    let u := (s.store a (writesOf k (Mem.readN s.mem a k.len))).breakRes 256 k.addr k.len
    Mem.readN u.mem a k.len = writesOf k (Mem.readN s.mem a k.len) ∧
    (∀ b, b < a ∨ a + k.len ≤ b → Mem.read u.mem b = Mem.read s.mem b) ∧ u.fab.ordering = s.fab.ordering := by
  obtain ⟨hin, hout⟩ := s.store_bytes a (writesOf k (Mem.readN s.mem a k.len)) hm
  rw [length_writesOf hop hw hlen] at hin hout
  exact ⟨hin, hout, (congrArg (·.ordering) (s.store_fab a (writesOf k (Mem.readN s.mem a k.len))) :)⟩
variable {s : State} {a d o : Nat} (hfadd : k.op = 0x1A → s.odGet 0x4002 0 ≠ 1) (hin : s.fabricIn k = none)
  (hh : s.host.held = []) (hp : s.place k.addr = .stack d o)
  (hv : s.verdict (.remote k.src k.unit k.part k.world) (accessOf k) k.addr = (s, .ok a)) (hr : s.readCheck a k.len = (s, []))
include hfadd hin hh hp hv hr

theorem State.perform_of_ok :
    s.perform k = ((s.store a (writesOf k (Mem.readN s.mem a k.len))).breakRes 256 k.addr k.len,
      some (returnsOf k (Mem.readN s.mem a k.len), 0, 0)) := by
  obtain ⟨hsize, halign, hdata⟩ := aligned_of_wellMade hop hw hlen
  have hown : k.op ≠ 0x28 := by omega
  have hstrict : ¬ (k.op = 0x1A ∧ s.odGet 0x4002 0 = 1) := fun h => hfadd h.1 h.2
  unfold accessOf at hv
  unfold State.perform writesOf returnsOf
  by_cases hst : k.op = 0x02
  · rw [if_pos hst] at hv
    have hl := hdata hst
    have hline : 0 < k.data.length ∧ k.addr % 64 + k.data.length ≤ 64 := by
      rw [hl]
      exact within_line_of_aligned hsize halign
    rw [← hl] at hr
    have hstore := State.storeRequest_of_ok hh hline hp hv hr
    simp only [hw, Bool.not_true, Bool.false_eq_true, if_false, hown, hstrict, hin, Option.any_none]
    simp only [hst, if_true, hstore]
  · rw [if_neg hst] at hv
    have hamo := State.amoLocal_of_ok k.op k.data hh hp hv hr
    simp only [hw, Bool.not_true, Bool.false_eq_true, if_false, hown, hstrict, hin, Option.any_none, hst, hamo]
end

/-! ### The rows of stores and atomics -/

/-- The commands of Obligations.IncomingStoresAndAtomics, each with its opcode. -/
def incomingRows : List ((Nat → Packet → Instr) × Nat) := [(.st, 0x02), (.amoAdd, 0x10), (.amoSwap, 0x11), (.amoCas, 0x12),
  (.amoAnd, 0x13), (.amoOr, 0x14), (.amoXor, 0x15), (.amoMinu, 0x16), (.amoMaxu, 0x17), (.amoMin, 0x18), (.amoMax, 0x19),
  (.amoFadd, 0x1A)]

theorem incomingRows_op {row : (Nat → Packet → Instr) × Nat} (h : row ∈ incomingRows) :
    row.2 = 0x02 ∨ 0x10 ≤ row.2 ∧ row.2 ≤ 0x1A := by
  have hops : row.2 ∈ incomingRows.map Prod.snd := List.mem_map_of_mem h
  simp only [incomingRows, List.map_cons, List.map_nil, List.mem_cons, List.not_mem_nil, or_false] at hops
  omega

theorem exec_incoming {row : (Nat → Packet → Instr) × Nat} (h : row ∈ incomingRows) (t : Nat) (k : Packet) (s : State) :
    exec (row.1 t k) s = .next ((s.arrive t).ordered { k with op := row.2 }) := by
  simp only [incomingRows, List.mem_cons, List.not_mem_nil, or_false] at h
  rcases h with rfl | rfl | rfl | rfl | rfl | rfl | rfl | rfl | rfl | rfl | rfl | rfl <;> rfl

/-- Where an address leads is told by the objects and the configuration. -/
theorem State.place_of_eq {s u : State} (ho : u.od = s.od) (hc : u.cfg = s.cfg) (pa : Nat) : u.place pa = s.place pa := by
  have hget : u.odGet = s.odGet := funext fun i => funext fun j => State.odGet_of_eq ho hc i j
  have hrole : u.role = s.role := by
    funext d
    rw [State.role, hget, State.role]
  have hslot : u.roleSlot = s.roleSlot := by
    funext d
    rw [State.roleSlot, hget, State.roleSlot]
  have hdie (n : Nat) : u.dieOfSlot n = s.dieOfSlot n := by rw [State.dieOfSlot, hrole, hslot, hc, State.dieOfSlot]
  have hspare (a : Nat) : u.spareDie a = s.spareDie a := by
    rw [State.spareDie, State.spareDies, hrole, hc, State.spareDie, State.spareDies]
  have hjournal : u.journalBytes = s.journalBytes := by rw [State.journalBytes, hget, State.journalBytes]
  simp only [State.place, hdie, hspare, hjournal, hc]

/-! An entry of an ordering die has no part in placing an address or in a response. -/

section
variable (s : State) (key : Nat) (x : OrdSrc)

theorem State.setOrd_place (pa : Nat) : (s.setOrd key x).place pa = s.place pa :=
  State.place_of_eq (u := s.setOrd key x) (s := s) rfl rfl pa

theorem State.setOrd_region? (d g : Nat) : (s.setOrd key x).region? d g = s.region? d g := by
  have hentry : (s.setOrd key x).regionEntry = s.regionEntry := rfl
  rw [State.region?, hentry, State.region?]

theorem State.setOrd_regionPart (pa : Nat) : (s.setOrd key x).regionPart pa = s.regionPart pa := by
  simp only [State.regionPart, State.setOrd_place, State.setOrd_region?]

theorem State.setOrd_response (k : Packet) (st c : Nat) (l : List Byte) :
    (s.setOrd key x).response k st c l = s.response k st c l := by
  rw [State.response, State.response, State.ownPath, State.odGet_of_eq (u := s.setOrd key x) (s := s) rfl rfl, State.ownPath]
end

section
variable {s : State} {k : Packet} {a d o : Nat} (hdead : s.fab.dead.contains k.src = false)
  (hhome : (s.orderHome k.src k.unit).isSome = true)
include hdead hhome

/-- A request next in its source's order, whose checks are passed. -/
theorem State.ordered_of_next (hop : k.op = 0x02 ∨ 0x10 ≤ k.op ∧ k.op ≤ 0x1A) (hnext : (s.accepts k).2 = .apply)
    (hheld : (s.accepts k).1.held = []) (hfull : (s.accepts k).1.ledgerFull s.now = false) (hw : wellMade k = true) (hlen : k.len ≤ 8)
    (hfadd : k.op = 0x1A → s.odGet 0x4002 0 ≠ 1) (hin : (s.accepted k).fabricIn k = none) (hh : s.host.held = [])
    (hp : s.place k.addr = .stack d o)
    (hv : (s.accepted k).verdict (.remote k.src k.unit k.part k.world) (accessOf k) k.addr = (s.accepted k, .ok a))
    (hr : (s.accepted k).readCheck a k.len = (s.accepted k, [])) (hm : Mem.wf s.mem = true) :
    let u := s.ordered k
    Mem.readN u.mem a k.len = writesOf k (Mem.readN s.mem a k.len) ∧
    (∀ b, b < a ∨ a + k.len ≤ b → Mem.read u.mem b = Mem.read s.mem b) ∧
    (u.ordSrc (ordKey k.src k.unit)).next = (k.ord + 1) % 65536 ∧
    (k.op ≠ 0x02 → ((u.ordSrc (ordKey k.src k.unit)).ledger.getLast?.map fun e => (e.tag, e.old)) =
      some (k.tag, Mem.readN s.mem a k.len)) := by
  obtain ⟨hread, hother, hord⟩ := State.performed_effect hop hw hlen (s.accepted k) a hm
  rw [← State.setOrd_place s (ordKey k.src k.unit) (s.accepts k).1] at hp
  have hdone := State.orderedHere_of_apply hnext hheld hfull (State.perform_of_ok hop hw hlen hfadd hin hh hp hv hr)
    (State.ordSrc_of_ordering hord _)
  rw [State.ordered_of_home hdead hhome, hdone]
  dsimp only
  rw [State.answered_mem, State.answered_ordSrc]
  refine ⟨hread, hother, OrdSrc.applied_next .., fun hst => ?_⟩
  have hamo : 0x10 ≤ k.op := by omega
  rw [OrdSrc.applied_getLast? _ _ _ _ hamo, returnsOf, if_neg hst]
  rfl

/-- A request of an older generation. -/
theorem State.ordered_of_stale (hstale : (s.accepts k).2 = .stale) :
    let u := s.ordered k
    u.mem = s.mem ∧ u.ordSrc (ordKey k.src k.unit) = s.ordSrc (ordKey k.src k.unit) ∧
    s.Sends u (s.regionPart k.addr) (s.response k 5 0 (slubData k .none 0)) := by
  have hposts := (s.accepted k).respond_posts k 5 0 (slubData k .none 0)
  rw [State.ordered_of_home hdead hhome, State.orderedHere_of_stale hstale]
  have hsends := State.Sends.of_eq (s := s) rfl rfl rfl ((s.accepted k).respond_sends k 5 0 (slubData k .none 0)) rfl
  rw [State.accepted, State.setOrd_regionPart, State.setOrd_response] at hsends
  refine ⟨hposts.mem, ?_, hsends⟩
  rw [State.ordSrc_of_ordering hposts.ordering, State.accepted_ordSrc]
  exact orderAccept_stale hstale

/-- A request ahead of its turn. -/
theorem State.ordered_of_ahead (hhold : (s.accepts k).2 = .hold) (hlen : (s.accepts k).1.held.length < 64)
    (hnew : (s.accepts k).1.held.any (fun q => q.ord == k.ord) = false) :
    let u := s.ordered k
    u.mem = s.mem ∧ u.ordSrc (ordKey k.src k.unit) = { (s.accepts k).1 with held := (s.accepts k).1.held ++ [k] } := by
  have hroom := State.holdReq_of_room (s := s.accepted k) (key := ordKey k.src k.unit) (k := k)
    (by rw [State.accepted_ordSrc]; exact hlen) (by rw [State.accepted_ordSrc]; exact hnew)
  rw [State.ordered_of_home hdead hhome, State.orderedHere_of_hold hhold, hroom]
  refine ⟨rfl, ?_⟩
  rw [State.ordSrc_setOrd, State.accepted_ordSrc]
end

/-- Settles O35: the request is the last applied, and its answer changes neither memory nor the ordering die. -/
theorem incomingStoresAndAtomics : Obligations.IncomingStoresAndAtomics := by
  intro row hrow t a d o k r0 s hdead hhome key k' y s2 who
  have hexec := exec_incoming hrow t k r0
  refine ⟨fun hnext hheld hfull hw hlen hfadd hin hh hp hv hr hm => ?_, fun hstale => ?_, fun hhold hlen hnew => ?_⟩
  · have heffect := State.ordered_of_next (k := k') hdead hhome (incomingRows_op hrow) hnext hheld hfull hw hlen hfadd hin hh hp hv hr hm
    exact ⟨_, hexec, heffect⟩
  · exact ⟨_, hexec, State.ordered_of_stale (k := k') hdead hhome hstale⟩
  · exact ⟨_, hexec, State.ordered_of_ahead (k := k') hdead hhome hhold hlen hnew⟩

end Sys2Proof.Machine
end

section
namespace Sys2Proof.Machine

/-! ### Ownership at its home (09 R328, R329) -/

theorem exec_ld (t : Nat) (k : Packet) (s : State) : exec (.ld t k) s = execLd t k s := rfl
theorem exec_ownCmd (t : Nat) (k : Packet) (s : State) : exec (.ownCmd t k) s = execOwnCmd t k s := rfl
theorem exec_ledgerEntryAgeOut (t path unit : Nat) (s : State) :
    exec (.ledgerEntryAgeOut t path unit) s = .next ((s.arrive t).drainHeld (ordKey path unit) 64) := rfl

section
variable (s : State) (r st dom path : Nat)

/-- An entry is the one thing a change of ownership writes. -/
theorem State.setOwn_frame : { s.setOwn r st dom path with fab := { (s.setOwn r st dom path).fab with own := s.fab.own } } = s := by
  unfold State.setOwn
  dsimp only
  split <;> rfl

theorem State.setOwn_ordering : (s.setOwn r st dom path).fab.ordering = s.fab.ordering :=
  (congrArg (·.fab.ordering) (s.setOwn_frame r st dom path) :)

theorem State.setOwn_ownEnt_other {q : Nat} (h : q ≠ r) : (s.setOwn r st dom path).ownEnt q = s.ownEnt q := by
  unfold State.setOwn
  dsimp only
  split
  · rfl
  · exact fmGet_fmSet_other _ _ _ _ _ h

variable {st}

theorem State.setOwn_ownEnt_same (h : (s.ownEnt r).state ≠ st) :
    (s.setOwn r st dom path).ownEnt r = { state := st, domain := dom, gen := (s.ownEnt r).gen + 1, path := path } := by
  unfold State.setOwn
  dsimp only
  rw [if_neg fun hsame => h hsame.1]
  exact fmGet_fmSet_same ..
end

/-- The data of an acquire. -/
def acquireData : List Byte := bytesOf 8 1 ++ List.replicate 8 0

theorem acquireData_word : natOf (acquireData.take 8) = 1 := by decide

section
variable {s : State} {w : Who} {path domain pa : Nat}

theorem State.ownServe_of_command {data : List Byte} (hdata : data ≠ []) (hc : s.ctlCheck w pa = (s, 0)) :
    s.ownServe w path domain pa data =
      let r := s.ownApply path domain (pa / 2 ^ 21) (natOf (data.take 8)) (natOf ((data.drop 8).take 8))
      (r.1, bytesOf 8 (r.1.ownResult (pa / 2 ^ 21) r.2), r.2, 0) := by
  simp only [State.ownServe, hc, List.isEmpty_eq_false_iff.2 hdata, Bool.false_eq_true, if_false]

theorem State.ownApply_acquire (region target : Nat) : s.ownApply path domain region 1 target =
    if (s.ownEnt region).state = 0 then (s.setOwn region 1 domain path, 0)
    else if (s.ownEnt region).state == 1 && (s.ownEnt region).path == path && (s.ownEnt region).domain == domain then (s, 0)
    else (s, if (s.ownEnt region).state = 2 then 0x12 else 0x10) := rfl

/-- An acquire of an OPEN region. -/
theorem State.ownServe_acquire_open (hc : s.ctlCheck w pa = (s, 0)) (hopen : (s.ownEnt (pa / 2 ^ 21)).state = 0) :
    let u := s.setOwn (pa / 2 ^ 21) 1 domain path
    s.ownServe w path domain pa acquireData = (u, bytesOf 8 (u.ownResult (pa / 2 ^ 21) 0), 0, 0) := by
  rw [State.ownServe_of_command (by decide) hc, acquireData_word, State.ownApply_acquire, if_pos hopen]
end

/-! ### Loads, ownership commands and aged ledgers from other packages (O36) -/

section
variable {s s1 : State} {k : Packet} {l : List Byte} {c : Nat}

theorem exec_ld_of_load {t : Nat} {r0 : State} (hdead : (r0.arrive t).fab.dead.contains k.src = false) (hw : wellMade k = true)
    (hload : (r0.arrive t).loadLocal (.remote k.src k.unit k.part k.world) k.lane k.addr k.len = (s1, some (l, c))) :
    exec (.ld t k) r0 = .next (s1.respond k (if c = 0 then 0 else 1) c l) := by
  simp only [exec_ld, execLd, State.heard_of_alive hdead, hw, Bool.not_true, Bool.false_eq_true, if_false, hload]

theorem exec_ownCmd_of_write (t : Nat) (r0 : State) (h : k.data ≠ []) :
    exec (.ownCmd t k) r0 = .next ((r0.arrive t).ordered { k with op := 0x28 }) := by
  have hwrite : Packet.isWrite { k with op := 0x28 } = true := by
    simp [Packet.isWrite, h]
  rw [exec_ownCmd, execOwnCmd, if_pos hwrite]

/-- An acquire of an OPEN region that is next in its source's order. -/
theorem State.ordered_acquire (hop : k.op = 0x28) (hdead : s.fab.dead.contains k.src = false)
    (hhome : (s.orderHome k.src k.unit).isSome = true) (hlen : k.len = 8) (hnext : (s.accepts k).2 = .apply)
    (hheld : (s.accepts k).1.held = []) (hfull : (s.accepts k).1.ledgerFull s.now = false) (hdata : k.data = acquireData)
    (hc : (s.accepted k).ctlCheck (.remote k.src k.unit k.part k.world) k.addr = (s.accepted k, 0))
    (hopen : (s.ownEnt (k.addr / 2 ^ 21)).state = 0) :
    let u := s.ordered k
    u.ownEnt (k.addr / 2 ^ 21) = { state := 1, domain := k.part, gen := (s.ownEnt (k.addr / 2 ^ 21)).gen + 1, path := k.src } ∧
    (∀ r, r ≠ k.addr / 2 ^ 21 → u.ownEnt r = s.ownEnt r) ∧ (u.ordSrc (ordKey k.src k.unit)).next = (k.ord + 1) % 65536 ∧
    u.mem = s.mem := by
  have hw : wellMade k = true := by
    simp [wellMade, hop, hlen, hdata, acquireData, length_bytesOf]
  have hserve := State.ownServe_acquire_open (path := k.src) (domain := k.part) hc hopen
  have hp : (s.accepted k).perform k = ((s.accepted k).setOwn (k.addr / 2 ^ 21) 1 k.part k.src,
      some ((bytesOf 8 (((s.accepted k).setOwn (k.addr / 2 ^ 21) 1 k.part k.src).ownResult (k.addr / 2 ^ 21) 0)).take k.len, 0, 0)) := by
    simp only [State.perform, hw, Bool.not_true, Bool.false_eq_true, if_false, hop, if_true, hdata, hserve]
  rw [State.ordered_of_home hdead hhome, State.orderedHere_of_apply hnext hheld hfull hp
    (State.ordSrc_of_ordering (State.setOwn_ordering ..) _)]
  have hchange : ((s.accepted k).ownEnt (k.addr / 2 ^ 21)).state ≠ 1 := by
    change (s.ownEnt (k.addr / 2 ^ 21)).state ≠ 1
    omega
  refine ⟨?_, fun r hr => ?_, ?_, (State.answered_mem ..).trans (State.setOwn_mem ..)⟩
  · rw [State.ownEnt, State.answered_own]
    exact (s.accepted k).setOwn_ownEnt_same _ _ _ hchange
  · rw [State.ownEnt, State.answered_own]
    exact (s.accepted k).setOwn_ownEnt_other _ _ _ _ hr
  · rw [State.answered_ordSrc]
    exact OrdSrc.applied_next ..
end

/-- Settles O36: an answer changes neither memory, nor harts, nor owners; the held request is the last one applied. -/
theorem incomingLoadsAndOwnership : Obligations.IncomingLoadsAndOwnership := by
  intro t k r0 s key g
  refine ⟨fun s1 l c hdead hw hload => ?_, ?_, fun s1 l st c hheld hord hamo hfull hp hkeep => ?_⟩
  · have hposts := s1.respond_posts k (if c = 0 then 0 else 1) c l
    exact ⟨_, exec_ld_of_load hdead hw hload, hposts.mem, hposts.harts, s1.respond_sends k _ c l⟩
  · intro k' y s2 hdead hhome hlen hnext hheld hfull hdata hc hopen
    have hsome : k.data ≠ [] := by
      rw [hdata]
      exact List.append_ne_nil_of_right_ne_nil _ (by decide)
    exact ⟨_, exec_ownCmd_of_write t r0 hsome,
      State.ordered_acquire (k := k') rfl hdead hhome hlen hnext hheld hfull hdata hc hopen⟩
  · have hdrain := State.drainHeld_of_held_singleton 63 hheld hord hfull hp hkeep
    refine ⟨_, exec_ledgerEntryAgeOut t k.src k.unit r0, ?_⟩
    dsimp only
    rw [hdrain, State.answered_mem, State.answered_ordSrc, OrdSrc.applied_held, OrdSrc.applied_next]
    refine ⟨rfl, ?_, rfl⟩
    rw [hkeep, hheld]
    simp

end Sys2Proof.Machine
end

section
namespace Sys2Proof.Machine

/-! ## Responses, reissues and dead targets (O37) -/

/-! ### Events alone -/

/-- Between s and u nothing but events was raised. -/
structure State.Raises (s u : State) : Prop where
  fab : u.fab = s.fab
  objects : s.ObjectsKept u
  rest : u.unsaid s = s

theorem State.Raises.refl (s : State) : s.Raises s := ⟨rfl, fun _ _ _ _ => rfl, rfl⟩

theorem State.Raises.trans {s t u : State} (h : s.Raises t) (h' : t.Raises u) : s.Raises u :=
  ⟨h'.fab.trans h.fab, fun i j hj hi => (h'.objects i j hj hi).trans (h.objects i j hj hi),
    (congrArg (fun x : State => x.unsaid s) h'.rest).trans h.rest⟩

theorem State.Raises.mem {s u : State} (h : s.Raises u) : u.mem = s.mem := (congrArg State.mem h.rest :)
theorem State.Raises.coll {s u : State} (h : s.Raises u) : u.coll = s.coll := (congrArg State.coll h.rest :)

theorem State.event_raises (s : State) {c : Nat} (w : EvWho) (d : List EvField) (hc : c < 65536) : s.Raises (s.event c w d) :=
  ⟨s.event_fab c w d, s.event_objectsKept c w d hc, s.event_unsaid c w d⟩

theorem State.deadEvent_raises (s : State) (k : Packet) : s.Raises (s.deadEvent k) := by
  unfold State.deadEvent
  split
  · exact s.event_raises _ _ (by decide)
  · exact .refl s

theorem State.headChange_raises (s : State) (path : Nat) : s.Raises (s.headChange path) :=
  List.foldlRecOn _ _ (motive := s.Raises) (.refl s) fun t ht _ _ => ht.trans (t.event_raises _ _ (by decide))

/-! ### The dead mark of a path (09 R321) -/

theorem contains_filter_ne (l : List Nat) (p d : Nat) : (l.filter fun x => x != p).contains d = (l.contains d && d != p) := by
  rw [Bool.eq_iff_iff]
  simp [List.mem_filter]

theorem State.clearDead_effect (s : State) (path : Nat) : let u := s.clearDead path
    (∀ d, u.fab.dead.contains d = (s.fab.dead.contains d && d != path)) ∧ s.ObjectsKept u ∧
    { u.unsaid s with fab := s.fab } = s := by
  unfold State.clearDead
  split
  next =>
    have hraises := ({ s with fab := { s.fab with dead := s.fab.dead.filter fun d => d != path } } : State).headChange_raises path
    refine ⟨fun d => ?_, hraises.objects, (congrArg (fun x : State => { x with fab := s.fab }) hraises.rest :)⟩
    rw [hraises.fab]
    exact contains_filter_ne ..
  next hno =>
    refine ⟨fun d => ?_, (State.Raises.refl s).objects, rfl⟩
    by_cases hd : d = path
    · subst hd
      rw [Bool.eq_false_iff.2 hno, Bool.false_and]
    · simp [hd]

theorem exec_heartbeatFlit (t : Nat) (p : PortIdx) (path : BitVec 48) (s : State) :
    exec (.heartbeatFlit t p path) s = execHeartbeatFlit t p path s := rfl
theorem exec_deadClear (t : Nat) (q : Option Nat) (v : BitVec 64) (s : State) : exec (.deadClear t q v) s = execDeadClear t q v s := rfl

theorem exec_heartbeatFlit_of_usable {t : Nat} {p : PortIdx} {path : BitVec 48} {r0 : State}
    (h : ((r0.arrive t).port p.val).state.usable = true) :
    exec (.heartbeatFlit t p path) r0 = .next ((r0.arrive t).clearDead path.toNat) := by
  rw [exec_heartbeatFlit, execHeartbeatFlit]
  exact congrArg _ (if_pos h)

theorem exec_deadClear_of_ok {t : Nat} {q : Option Nat} {v : BitVec 64} {r0 : State}
    (h : (r0.arrive t).refusal q 0x6020 0 true = none) :
    exec (.deadClear t q v) r0 = .next (((r0.arrive t).clearDead (v.toNat % 2 ^ 48)).answer stOk []) := by
  rw [exec_deadClear, execDeadClear, State.command_of_ok h rfl]

/-! ### The requests of a unit -/

/-- Memory, the gathers and the requests of unit n, outstanding and held back, are as they were, and no dead mark has gone. -/
structure State.RequestsKept (s u : State) (n : Nat) : Prop where
  mem : u.mem = s.mem
  gathers : u.fab.gathers = s.fab.gathers
  outstanding : (u.srcUnit n).outstanding = (s.srcUnit n).outstanding
  held : (u.srcUnit n).held = (s.srcUnit n).held
  dead : ∀ d, s.fab.dead.contains d = true → u.fab.dead.contains d = true

theorem State.RequestsKept.trans {s t u : State} {n : Nat} (h : s.RequestsKept t n) (h' : t.RequestsKept u n) : s.RequestsKept u n :=
  ⟨h'.mem.trans h.mem, h'.gathers.trans h.gathers, h'.outstanding.trans h.outstanding, h'.held.trans h.held, fun d hd => h'.dead d (h.dead d hd)⟩

section
variable {s u : State} (n : Nat)

theorem State.srcUnit_of_fab (h : u.fab = s.fab) : u.srcUnit n = s.srcUnit n := by
  rw [State.srcUnit, h, State.srcUnit]

theorem State.Raises.requestsKept (h : s.Raises u) : s.RequestsKept u n :=
  ⟨h.mem, congrArg _ h.fab, congrArg _ (State.srcUnit_of_fab n h.fab), congrArg _ (State.srcUnit_of_fab n h.fab), fun d hd => by rw [h.fab, hd]⟩

theorem State.srcUnit_setSrcUnit_same (s : State) (n : Nat) (x : Source) : (s.setSrcUnit n x).srcUnit n = x := fmGet_fmSet_same ..

theorem State.endGiving_requestsKept (s : State) (k : Packet) : s.RequestsKept (s.endGiving k) n := by
  unfold State.endGiving
  split <;> exact ⟨rfl, rfl, rfl, rfl, fun _ h => h⟩

theorem State.spoilFences_requestsKept (s : State) (dst : Nat) : s.RequestsKept (s.setSrcUnit n ((s.srcUnit n).spoilFences dst)) n :=
  ⟨rfl, rfl, by rw [State.srcUnit_setSrcUnit_same]; rfl, by rw [State.srcUnit_setSrcUnit_same]; rfl, fun _ h => h⟩

/-- The next store or atomic to a path is to resynchronise. -/
def unsynced (path : Nat) (x : Source) : Source := { x with synced := x.synced.filter fun d => d != path }

/-- A path put among the dead ones. -/
def State.marked (s : State) (path : Nat) : State :=
  { s with fab := { s.fab with
    dead := s.fab.dead ++ [path]
    sources := s.fab.sources.map fun (e : Nat × Source) => (e.1, unsynced path e.2) } }

theorem State.srcUnit_marked (s : State) (path : Nat) : (s.marked path).srcUnit n = unsynced path (s.srcUnit n) := by
  have hread := fmGet?_map_of_key s.fab.sources (fun e => (e.1, unsynced path e.2)) (fun _ => rfl) n
  unfold State.srcUnit fmGet State.marked
  dsimp only
  rw [hread]
  cases fmGet? s.fab.sources n <;> rfl

theorem State.marked_requestsKept (s : State) (path : Nat) : s.RequestsKept (s.marked path) n := by
  refine ⟨rfl, rfl, by rw [State.srcUnit_marked]; rfl, by rw [State.srcUnit_marked]; rfl, fun d hd => ?_⟩
  change (s.fab.dead ++ [path]).contains d = true
  rw [List.contains_append, hd, Bool.true_or]

theorem State.markDead_of_alive {s : State} {path : Nat} (h : (s.event 0x0909 noOne [.word path]).fab.dead.contains path = false) :
    s.markDead path = (((s.event 0x0909 noOne [.word path]).marked path).headChange path).failMember path := by
  unfold State.markDead
  exact if_neg (by rw [h]; exact Bool.false_ne_true)

/-- Marking a path dead, with no collective to fail. -/
theorem State.markDead_effect (s : State) (path : Nat) (hcoll : s.coll.colls = []) :
    (s.markDead path).fab.dead.contains path = true ∧ s.RequestsKept (s.markDead path) n := by
  have hevent := s.event_raises (c := 0x0909) noOne [.word path] (by decide)
  by_cases h : (s.event 0x0909 noOne [.word path]).fab.dead.contains path = true
  · have hdone : s.markDead path = s.event 0x0909 noOne [.word path] := if_pos h
    rw [hdone]
    exact ⟨h, hevent.requestsKept n⟩
  · rw [State.markDead_of_alive (Bool.eq_false_iff.2 h)]
    generalize s.event 0x0909 noOne [.word path] = t at hevent ⊢
    have hhead := (t.marked path).headChange_raises path
    have hcolls : ((t.marked path).headChange path).coll.colls = [] := by
      rw [hhead.coll]
      change t.coll.colls = []
      rw [hevent.coll, hcoll]
    have hnone : ((t.marked path).headChange path).failMember path = (t.marked path).headChange path := by
      rw [State.failMember, hcolls, List.foldl_nil]
    rw [hnone, hhead.fab]
    exact ⟨by simp [State.marked], (hevent.requestsKept n).trans ((t.marked_requestsKept n path).trans (hhead.requestsKept n))⟩
end

/-! ### Completion -/

section
variable {s : State} {n tag st c : Nat} {l : List Byte} {r : Request}

theorem State.faultRecord_fab (s : State) (p addr cause status path op tag unit : Nat) :
    (s.faultRecord p addr cause status path op tag unit).fab = s.fab := by
  fun_cases State.faultRecord s p addr cause status path op tag unit <;> simp +zetaDelta

theorem State.releaseHeld_of_held_nil (h : (s.srcUnit n).held = []) : s.releaseHeld n = s.setSrcUnit n (s.srcUnit n) := by
  rw [State.releaseHeld, h, List.foldl_nil, ← h]

/-- A unit's state after a request of it has completed. -/
def completedSource (x : Source) (tag : Nat) (r : Request) : Source :=
  { x with
    outstanding := fmDel x.outstanding tag
    answered := if r.pkt.isWrite then fmSet x.answered r.pkt.dst (fmGet x.answered r.pkt.dst 0 + 1) else x.answered }

/-- With nothing held back, a request that completes delivers its data and is over. -/
theorem State.complete_of_held_nil (ho : fmGet? (s.srcUnit n).outstanding tag = some r) (hh : (s.srcUnit n).held = [])
    (hfab : ∀ t : State, (t.finish r.pkt r.deliver st c l).fab = t.fab) :
    let t := (s.setSrcUnit n (completedSource (s.srcUnit n) tag r)).finish r.pkt r.deliver st c l
    s.complete n tag st c l = t.setSrcUnit n (completedSource (s.srcUnit n) tag r) := by
  intro t
  have hsrc : t.srcUnit n = completedSource (s.srcUnit n) tag r := by
    rw [State.srcUnit_of_fab n (hfab _), State.srcUnit_setSrcUnit_same]
  have hheld : (t.srcUnit n).held = [] := by
    rw [hsrc]
    exact hh
  have hrelease : t.releaseHeld n = _ := State.releaseHeld_of_held_nil hheld
  rw [hsrc] at hrelease
  rw [← hrelease, State.complete, ho]
  rfl

/-- A request of nothing to deliver ends. -/
theorem State.complete_of_deliver_none (ho : fmGet? (s.srcUnit n).outstanding tag = some r) (hh : (s.srcUnit n).held = [])
    (hdl : r.deliver = .none) : let u := s.complete n tag st c l
    u.fab.dead = s.fab.dead ∧ fmGet? (u.srcUnit n).outstanding tag = none ∧ u.mem = s.mem := by
  have hfinish (t : State) : (t.finish r.pkt r.deliver st c l).fab = t.fab ∧ (t.finish r.pkt r.deliver st c l).mem = t.mem := by
    rw [hdl, State.finish]
    split
    · exact ⟨rfl, rfl⟩
    · exact ⟨State.faultRecord_fab .., State.faultRecord_mem ..⟩
  rw [State.complete_of_held_nil ho hh fun t => (hfinish t).1]
  refine ⟨?_, ?_, (hfinish _).2⟩
  · exact congrArg (·.dead) (hfinish _).1
  · rw [State.srcUnit_setSrcUnit_same]
    exact fmGet?_fmDel_same ..

/-- A request that brings a register its value is over. -/
theorem State.complete_of_deliver_xreg {h rd size : Nat} {sg : Bool} (ho : fmGet? (s.srcUnit n).outstanding tag = some r)
    (hh : (s.srcUnit n).held = []) (hdl : r.deliver = .xreg h rd size sg) (hsize : size ≤ 8) : let u := s.complete n tag 0 c l
    u.getX h rd = (if rd = 0 then 0 else extendTo size sg (natOf ((l.take r.pkt.len).take size))) ∧
    u.srcUnit n = completedSource (s.srcUnit n) tag r ∧ u.mem = s.mem ∧ u.od = s.od := by
  have hfinish (t : State) : t.finish r.pkt r.deliver 0 c l =
      t.setX h rd (extendTo size sg (natOf ((l.take r.pkt.len).take size))) := by
    rw [hdl]
    rfl
  have honly (t : State) (v : Nat) := (t.setX_onlyHart h rd v).1
  rw [State.complete_of_held_nil ho hh fun t => by rw [hfinish]; exact (congrArg State.fab (honly t _) :), hfinish]
  refine ⟨?_, State.srcUnit_setSrcUnit_same .., (congrArg State.mem (honly (s.setSrcUnit n _) _) :),
    (congrArg State.od (honly (s.setSrcUnit n _) _) :)⟩
  exact (s.setSrcUnit n (completedSource (s.srcUnit n) tag r)).getX_setX_same h rd (extendTo_lt size sg (natOf_take_lt _ hsize))
end

/-! ### The rows -/

section
variable {t n tag : Nat} {k : Packet} {r : Request} {r0 : State}

theorem exec_response (t : Nat) (k : Packet) (s : State) : exec (.response t k) s = execResponse t k s := rfl
theorem exec_requestReissue (t n tag : Nat) (s : State) : exec (.requestReissue t n tag) s = execRequestReissue t n tag s := rfl
theorem exec_requestDeadTimeout (t n tag : Nat) (s : State) :
    exec (.requestDeadTimeout t n tag) s = execRequestDeadTimeout t n tag s := rfl

theorem exec_response_of_unmatched (hdead : (r0.arrive t).fab.dead.contains k.src = false)
    (h : fmGet? ((r0.arrive t).srcUnit k.unit).outstanding k.tag = none) : exec (.response t k) r0 = .next (r0.arrive t) := by
  simp only [exec_response, execResponse, State.heard_of_alive hdead, h]

theorem exec_response_of_ok {h rd size : Nat} {sg : Bool} (hdead : (r0.arrive t).fab.dead.contains k.src = false)
    (ho : fmGet? ((r0.arrive t).srcUnit k.unit).outstanding k.tag = some r) (hop : k.op = r.pkt.op + 0x80) (hgen : k.gen = r.pkt.gen)
    (hst : k.status = 0) (hdl : r.deliver = .xreg h rd size sg) :
    exec (.response t k) r0 = .next (((r0.arrive t).endGiving r.pkt).complete k.unit k.tag 0 k.cause k.data) := by
  have hwait (s : State) : s.slotWaits r.deliver = (s, false) := by
    rw [hdl]
    rfl
  have hmatch : ¬ (k.op ≠ r.pkt.op + 0x80 ∨ k.gen ≠ r.pkt.gen) := by simp [hop, hgen]
  have hknown : (k.status == 5 && r.pkt.isWrite) = false := by rw [hst]; rfl
  simp only [exec_response, execResponse, State.heard_of_alive hdead, ho, hmatch, if_false, hwait, hknown, Bool.false_eq_true]
  rw [hst]

/-- A response completes its request with the value for its register. -/
theorem State.response_effect {s : State} {h rd : Nat} {c : Nat} {l : List Byte} (ho : fmGet? (s.srcUnit n).outstanding tag = some r)
    (hlen : r.pkt.len = 8) (hh : (s.srcUnit n).held = []) (hdl : r.deliver = .xreg h rd 8 false) :
    let u := (s.endGiving r.pkt).complete n tag 0 c l
    u.getX h rd = (if rd = 0 then 0 else natOf (l.take 8)) ∧ fmGet? (u.srcUnit n).outstanding tag = none ∧
    (u.srcUnit n).answered = (if r.pkt.isWrite
      then fmSet (s.srcUnit n).answered r.pkt.dst (fmGet (s.srcUnit n).answered r.pkt.dst 0 + 1) else (s.srcUnit n).answered) ∧
    u.mem = s.mem ∧ u.od = s.od := by
  have hsame : (s.endGiving r.pkt).srcUnit n = s.srcUnit n ∧ (s.endGiving r.pkt).mem = s.mem ∧ (s.endGiving r.pkt).od = s.od := by
    unfold State.endGiving
    split <;> exact ⟨rfl, rfl, rfl⟩
  obtain ⟨hsrc, hmem, hod⟩ := hsame
  obtain ⟨hget, hsrc', hmem', hod'⟩ := State.complete_of_deliver_xreg (s := s.endGiving r.pkt) (c := c) (l := l) (by rw [hsrc, ho])
    (by rw [hsrc, hh]) hdl (by decide)
  rw [hlen, List.take_take, Nat.min_self] at hget
  dsimp only
  rw [hget, hsrc', hsrc, hmem', hmem, hod', hod]
  exact ⟨rfl, fmGet?_fmDel_same .., rfl, rfl, rfl⟩

theorem exec_requestReissue_of_due (ho : fmGet? ((r0.arrive t).srcUnit n).outstanding tag = some r) (hless : r.reissues < 4)
    (hdue : r.first + 4 * unitsPerUs * (r.reissues + 1) ≤ (r0.arrive t).now) :
    exec (.requestReissue t n tag) r0 = .next (((r0.arrive t).setSrcUnit n { (r0.arrive t).srcUnit n with
      outstanding := fmSet ((r0.arrive t).srcUnit n).outstanding tag { r with reissues := r.reissues + 1 } }).sendPacket
        (chargeOf r.pkt) { r.pkt with retry := true }) := by
  have hgo : ¬ (4 ≤ r.reissues ∨ (r0.arrive t).now < r.first + 4 * unitsPerUs * (r.reissues + 1)) := by omega
  simp only [exec_requestReissue, execRequestReissue, ho, hgo, if_false]

theorem exec_requestReissue_of_early (ho : fmGet? ((r0.arrive t).srcUnit n).outstanding tag = some r)
    (hearly : (r0.arrive t).now < r.first + 4 * unitsPerUs * (r.reissues + 1)) :
    exec (.requestReissue t n tag) r0 = .next (r0.arrive t) := by
  simp only [exec_requestReissue, execRequestReissue, ho, hearly, or_true, if_true]

/-- A request is sent again with its retry mark. -/
theorem State.reissue_effect (s : State) (n tag : Nat) (r : Request) :
    let u := (s.setSrcUnit n { s.srcUnit n with outstanding := fmSet (s.srcUnit n).outstanding tag r }).sendPacket
      (chargeOf r.pkt) { r.pkt with retry := true }
    fmGet? (u.srcUnit n).outstanding tag = some r ∧ u.mem = s.mem ∧ s.Sends u (chargeOf r.pkt) { r.pkt with retry := true } := by
  generalize hv : s.setSrcUnit n { s.srcUnit n with outstanding := fmSet (s.srcUnit n).outstanding tag r } = v
  have hsame : v.od = s.od ∧ v.cfg = s.cfg ∧ v.ports = s.ports ∧ v.out = s.out ∧ v.mem = s.mem := by
    rw [← hv]
    exact ⟨rfl, rfl, rfl, rfl, rfl⟩
  obtain ⟨hod, hcfg, hports, hout, hmem⟩ := hsame
  have hposts := v.sendPacket_posts (chargeOf r.pkt) { r.pkt with retry := true }
  have hsends := v.sendPacket_sends (chargeOf r.pkt) { r.pkt with retry := true }
  refine ⟨?_, hposts.mem.trans hmem, hsends.of_eq hod hcfg hports hout⟩
  rw [State.srcUnit, hposts.sources, ← State.srcUnit, ← hv, State.srcUnit_setSrcUnit_same]
  exact fmGet?_fmSet_same ..

theorem exec_requestDeadTimeout_of_early (ho : fmGet? ((r0.arrive t).srcUnit n).outstanding tag = some r)
    (hearly : (r0.arrive t).now < r.first + 20 * unitsPerUs) : exec (.requestDeadTimeout t n tag) r0 = .next (r0.arrive t) := by
  simp only [exec_requestDeadTimeout, execRequestDeadTimeout, ho, hearly, if_true]

/-- A request's destination is given up: its fences are spoiled, the path is dead, and an atomic's outcome is unknown. -/
def State.givesUp (s : State) (n : Nat) (k : Packet) : State :=
  let s := if k.isWrite then s.setSrcUnit n ((s.srcUnit n).spoilFences k.dst) else s
  ((s.markDead k.dst).deadEvent k).endGiving k

theorem State.givesUp_effect (s : State) (n : Nat) (k : Packet) (hcoll : s.coll.colls = []) :
    (s.givesUp n k).fab.dead.contains k.dst = true ∧ s.RequestsKept (s.givesUp n k) n := by
  have hspoil : s.RequestsKept (if k.isWrite then s.setSrcUnit n ((s.srcUnit n).spoilFences k.dst) else s) n ∧
      (if k.isWrite then s.setSrcUnit n ((s.srcUnit n).spoilFences k.dst) else s).coll.colls = [] := by
    split
    · exact ⟨State.spoilFences_requestsKept n s k.dst, hcoll⟩
    · exact ⟨(State.Raises.refl s).requestsKept n, hcoll⟩
  unfold State.givesUp
  dsimp only
  generalize (if k.isWrite then s.setSrcUnit n ((s.srcUnit n).spoilFences k.dst) else s) = v at hspoil ⊢
  obtain ⟨hmark, hkept⟩ := v.markDead_effect n k.dst hspoil.2
  have hevent := ((v.markDead k.dst).deadEvent_raises k).requestsKept n
  have hgiving := State.endGiving_requestsKept n ((v.markDead k.dst).deadEvent k) k
  exact ⟨hgiving.dead _ (hevent.dead _ hmark), hspoil.1.trans (hkept.trans (hevent.trans hgiving))⟩

theorem exec_requestDeadTimeout_of_due (ho : fmGet? ((r0.arrive t).srcUnit n).outstanding tag = some r)
    (hdue : r.first + 20 * unitsPerUs ≤ (r0.arrive t).now) (hdl : r.deliver = .none) :
    exec (.requestDeadTimeout t n tag) r0 =
      .next (((r0.arrive t).givesUp n r.pkt).complete n tag (deadStatus r.pkt) 1 (slubData r.pkt r.deliver 1)) := by
  have hgo : ¬ (r0.arrive t).now < r.first + 20 * unitsPerUs := by omega
  have hwait (s : State) : s.slotWaits r.deliver = (s, false) := by
    rw [hdl]
    rfl
  simp only [exec_requestDeadTimeout, execRequestDeadTimeout, ho, hgo, if_false, hwait]
  rfl

theorem State.deadTimeout_effect {s : State} {st c : Nat} {l : List Byte} (ho : fmGet? (s.srcUnit n).outstanding tag = some r)
    (hcoll : s.coll.colls = []) (hh : (s.srcUnit n).held = []) (hdl : r.deliver = .none) :
    let u := (s.givesUp n r.pkt).complete n tag st c l
    u.fab.dead.contains r.pkt.dst = true ∧ fmGet? (u.srcUnit n).outstanding tag = none ∧ u.mem = s.mem := by
  obtain ⟨hdead, hkept⟩ := s.givesUp_effect n r.pkt hcoll
  obtain ⟨hdead', hout, hmem⟩ := State.complete_of_deliver_none (st := st) (c := c) (l := l) (by rw [hkept.outstanding, ho])
    (by rw [hkept.held, hh]) hdl
  dsimp only
  rw [hdead']
  exact ⟨hdead, hout, hmem.trans hkept.mem⟩
end

/-- Settles O37: a completion writes the register and the unit's own entries; dead marks raise events only. -/
theorem responsesAndDeadTargets : Obligations.ResponsesAndDeadTargets := by
  refine ⟨?response, ?request, ?heartbeat, ?clear⟩
  case response =>
    intro t n tag h rd k r r0 s hn htag hdead x
    subst hn htag
    exact ⟨fun ho => exec_response_of_unmatched hdead ho, fun ho hop hgen hst hlen hh hdl =>
      ⟨_, exec_response_of_ok hdead ho hop hgen hst hdl, State.response_effect ho hlen hh hdl⟩⟩
  case request =>
    intro t n tag r r0 s ho
    exact ⟨fun hless hdue => ⟨_, exec_requestReissue_of_due ho hless hdue, s.reissue_effect n tag { r with reissues := r.reissues + 1 }⟩,
      fun hearly => exec_requestReissue_of_early ho hearly,
      fun hdue hcoll hh hdl => ⟨_, exec_requestDeadTimeout_of_due ho hdue hdl, State.deadTimeout_effect ho hcoll hh hdl⟩,
      fun hearly => exec_requestDeadTimeout_of_early ho hearly⟩
  case heartbeat =>
    intro t p path r0 s hp
    exact ⟨_, exec_heartbeatFlit_of_usable hp, s.clearDead_effect path.toNat⟩
  case clear =>
    intro t q v r0 s hr
    have heffect := s.clearDead_effect (v.toNat % 2 ^ 48)
    refine ⟨_, exec_deadClear_of_ok hr, rfl, ?_⟩
    generalize s.clearDead (v.toNat % 2 ^ 48) = u at heffect ⊢
    exact heffect

end Sys2Proof.Machine
end

section
namespace Sys2Proof.Machine

/-! ## The answer and the collectives under checks and stores

No check of an access, and no store of bytes, answers a command or touches a collective. One lemma per function, in the order of
the definitions. -/

/-- u has the answer and the collectives of s. An abbreviation, so that a lemma s.Calm u tagged simp rewrites both fields. -/
abbrev State.Calm (s u : State) : Prop := u.ans = s.ans ∧ u.coll = s.coll

@[simp] theorem State.ite_ans (c : Prop) [Decidable c] (a b : State) :
    (if c then a else b).ans = if c then a.ans else b.ans := apply_ite ..

@[simp] theorem State.ite_coll (c : Prop) [Decidable c] (a b : State) :
    (if c then a else b).coll = if c then a.coll else b.coll := apply_ite ..

@[simp] theorem foldl_ans {α : Type} (f : State → α → State) (h : ∀ s a, (f s a).ans = s.ans) (l : List α) (s : State) :
    (l.foldl f s).ans = s.ans := foldl_keeps State.ans f h l s

@[simp] theorem foldl_coll {α : Type} (f : State → α → State) (h : ∀ s a, (f s a).coll = s.coll) (l : List α) (s : State) :
    (l.foldl f s).coll = s.coll := foldl_keeps State.coll f h l s

@[simp] theorem foldl_fst_ans {α β : Type} (f : State × β → α → State × β) (h : ∀ x a, (f x a).1.ans = x.1.ans) (l : List α)
    (x : State × β) : (l.foldl f x).1.ans = x.1.ans := foldl_keeps (·.1.ans) f h l x

@[simp] theorem foldl_fst_coll {α β : Type} (f : State × β → α → State × β) (h : ∀ x a, (f x a).1.coll = x.1.coll) (l : List α)
    (x : State × β) : (l.foldl f x).1.coll = x.1.coll := foldl_keeps (·.1.coll) f h l x

@[simp] theorem State.setChannel_calm (s : State) (d ch : Nat) (x : Channel) : s.Calm (s.setChannel d ch x) := by
  simp [State.Calm, State.setChannel]

@[simp] theorem State.failureWarning_calm (s : State) : s.Calm s.failureWarning := by
  simp [State.Calm, State.failureWarning]

@[simp] theorem State.warnIfReached_calm (s : State) (sub before after : Nat) :
    s.Calm (s.warnIfReached sub before after) := by
  simp [State.Calm, State.warnIfReached]

@[simp] theorem State.setStack_calm (s : State) (d : Nat) (x : Stack) : s.Calm (s.setStack d x) := by
  simp [State.Calm, State.setStack]

@[simp] theorem State.eraseOne_calm (s : State) (d ch k : Nat) : s.Calm (s.eraseOne d ch k) := by
  fun_cases State.eraseOne s d ch k <;> simp [State.Calm]

@[simp] theorem State.eraseIn_calm (s : State) (d k : Nat) (chs : List Nat) : s.Calm (s.eraseIn d k chs) := by
  simp [State.Calm, State.eraseIn]

@[simp] theorem State.markDramLost_calm (s : State) (d k : Nat) : s.Calm (s.markDramLost d k) := by
  simp [State.Calm, State.markDramLost]

@[simp] theorem State.countSymbols_calm (s : State) (d k n : Nat) : s.Calm (s.countSymbols d k n) := by
  simp [State.Calm, State.countSymbols]

@[simp] theorem State.readLine_calm (s : State) (line : Nat) : s.Calm (s.readLine line).1 := by
  fun_cases State.readLine s line <;> simp [State.Calm]

@[simp] theorem State.markColumn_calm (s : State) (d bank col : Nat) : s.Calm (s.markColumn d bank col) := by
  simp [State.Calm, State.markColumn]

@[simp] theorem State.countColumn_calm (s : State) (k col : Nat) : s.Calm (s.countColumn k col) := by
  simp [State.Calm, State.countColumn]

@[simp] theorem State.sramCorrected_calm (s : State) (k col : Nat) : s.Calm (s.sramCorrected k col) := by
  simp [State.Calm, State.sramCorrected]

@[simp] theorem State.readWords_calm (s : State) (k n : Nat) : s.Calm (s.readWords k n).1 := by
  simp [State.Calm, State.readWords]

@[simp] theorem State.readLines_calm (s : State) (k n : Nat) : s.Calm (s.readLines k n).1 := by
  simp [State.Calm, State.readLines]

@[simp] theorem State.readCheck_calm (s : State) (k n : Nat) : s.Calm (s.readCheck k n).1 := by
  simp [State.Calm, State.readCheck]

@[simp] theorem State.whoEvent_calm (s : State) (code : Nat) (w : Who) (pa : Nat) :
    s.Calm (s.whoEvent code w pa) := by
  simp [State.Calm, State.whoEvent]

@[simp] theorem State.ownVerdict_calm (s : State) (w : Who) (a : Acc) (pa k : Nat) :
    s.Calm (s.ownVerdict w a pa k).1 := by
  fun_cases State.ownVerdict s w a pa k <;> simp [State.Calm]

@[simp] theorem State.verdict_calm (s : State) (w : Who) (a : Acc) (pa : Nat) : s.Calm (s.verdict w a pa).1 := by
  fun_cases State.verdict s w a pa <;> simp [State.Calm]

@[simp] theorem State.snoopFor_calm (s : State) (w : Who) (pa n : Nat) : s.Calm (s.snoopFor w pa n).1 := by
  fun_cases State.snoopFor s w pa n <;> simp [State.Calm]

@[simp] theorem State.statsWord_calm (s : State) (k i mask v : Nat) : s.Calm (s.statsWord k i mask v) := by
  simp [State.Calm, State.statsWord]

@[simp] theorem State.statsStore_calm (s : State) (n d o : Nat) (l : List Byte) :
    s.Calm (s.statsStore n d o l).1 := by
  simp [State.Calm, State.statsStore]

@[simp] theorem State.storePiece_calm (s : State) (w : Who) (a : Acc) (pa : Nat) (l : List Byte) :
    s.Calm (s.storePiece w a pa l).1 := by
  fun_cases State.storePiece s w a pa l
  case case1 h1 _ _ _ _ _ _ _ h2 => simp [State.Calm, fst_of_eq h1, fst_of_eq h2]
  case case2 | case5 => simp [State.Calm, fst_of_eq ‹_ = (_, _)›]
  case case3 h1 _ _ h2 _ _ | case4 h1 _ _ h2 _ _ => simp [State.Calm, fst_of_eq h1, fst_of_eq h2]

@[simp] theorem State.storeLocal_calm (s : State) (w : Who) (pa : Nat) (l : List Byte) :
    s.Calm (s.storeLocal w pa l).1 := by
  fun_cases State.storeLocal s w pa l
  case case1 => simp [State.Calm, fst_of_eq ‹_ = (_, _)›]
  case case2 => simp +zetaDelta [State.Calm, fst_of_eq ‹_ = (_, _)›]

end Sys2Proof.Machine
end

section
namespace Sys2Proof.Machine

/-! ## Fences, ownership commands and gathers of harts (O34) -/

/-! ### Fault records (09 R322) -/

theorem State.partOfHart_lt {s : State} {h p : Nat} (hp : s.partOfHart h = some p) : p < 4 := by
  unfold State.partOfHart State.partOfGroup at hp
  exact List.mem_range.1 (List.mem_of_find?_eq_some hp)

theorem State.partOfHart_getD_lt (s : State) (h : Nat) : (s.partOfHart h).getD 0 < 4 := by
  cases hp : s.partOfHart h with
  | none => decide
  | some p => exact State.partOfHart_lt hp

theorem State.raiseIrq_getX (s : State) (n h g r : Nat) : (s.raiseIrq n h).getX g r = s.getX g r := by
  unfold State.getX State.raiseIrq
  by_cases hg : g = h
  · rw [hg, State.hart_setHart_same]
  · rw [State.hart_setHart_other _ _ hg]

section
variable (s : State) (p addr cause status path op tag unit : Nat)

theorem State.faultRecord_getX (g r : Nat) : (s.faultRecord p addr cause status path op tag unit).getX g r = s.getX g r := by
  fun_cases State.faultRecord s p addr cause status path op tag unit
  · exact State.raiseIrq_getX ..
  · rfl
  · rfl

/-- A fault record writes its partition's ring and the ring's head, which it moves on by one. -/
theorem State.faultRecord_odGet : let u := s.faultRecord p addr cause status path op tag unit
    u.odGet (0x6044 + p) 0 = (s.odGet (0x6044 + p) 0 + 1) % 2 ^ 32 ∧
    ∀ i j, odKey i j ≠ odKey (0x6040 + p) 0 → odKey i j ≠ odKey (0x6044 + p) 0 → u.odGet i j = s.odGet i j := by
  have hod : ∃ v, ∀ i j, (s.faultRecord p addr cause status path op tag unit).odGet i j =
      ((s.odSet (0x6040 + p) 0 v).odSet (0x6044 + p) 0 ((s.odGet (0x6044 + p) 0 + 1) % 2 ^ 32)).odGet i j := by
    fun_cases State.faultRecord s p addr cause status path op tag unit
    · exact ⟨_, fun _ _ => State.odGet_of_eq (State.raiseIrq_od ..) (State.raiseIrq_cfg ..) _ _⟩
    · exact ⟨_, fun _ _ => rfl⟩
    · exact ⟨_, fun _ _ => rfl⟩
  obtain ⟨v, hv⟩ := hod
  refine ⟨?_, fun i j hring hhead => ?_⟩
  · rw [hv, State.odGet_odSet_same]
  · rw [hv, State.odGet_odSet_other _ _ _ _ _ _ hhead, State.odGet_odSet_other _ _ _ _ _ _ hring]
end

/-! ### Fences (09 R323, R324) -/

theorem State.srcUnit_setSrcUnit_other (s : State) (n m : Nat) (x : Source) (h : m ≠ n) :
    (s.setSrcUnit n x).srcUnit m = s.srcUnit m := fmGet_fmSet_other _ _ _ _ _ h

theorem exec_solverFence (t : Nat) (h : HartIdx) (s : State) : exec (.solverFence t h) s =
    .next (if (s.arrive t).hartGone h.val then s.arrive t else (s.arrive t).pushFence (hartUnit h.val) none [] false) := rfl
theorem exec_fenceComplete (t : Nat) (h : HartIdx) (s : State) : exec (.fenceComplete t h) s = .next ((s.arrive t).fenceDone h.val) := rfl

/-- A fence records what its unit has issued, and writes nothing else. -/
theorem State.pushFence_effect (s : State) (n : Nat) (next : Option (Packet × Deliver)) (peers : List (Nat × Nat × Nat)) (here : Bool) :
    let u := s.pushFence n next peers here
    u.srcUnit n = { s.srcUnit n with fences := (s.srcUnit n).fences ++
      [{ marks := (s.srcUnit n).issued, thenSend := next, peers := peers, here := here }] } ∧
    (∀ m, m ≠ n → u.srcUnit m = s.srcUnit m) ∧ u.fab.own = s.fab.own ∧ { u.bare s with fab := s.fab } = s :=
  ⟨State.srcUnit_setSrcUnit_same .., fun _ hm => State.srcUnit_setSrcUnit_other _ _ _ _ hm, rfl, rfl⟩

section
variable {s : State} {h : Nat} {f : Fence} {fs : List Fence} (hf : (s.srcUnit (hartUnit h)).fences = f :: fs)
include hf

/-- The oldest fence waits while a destination that lives has not answered. -/
theorem State.fenceDone_of_waiting
    (hw : f.marks.any (fun e => decide (fmGet (s.srcUnit (hartUnit h)).answered e.1 0 < e.2) && !s.fab.dead.contains e.1) = true) :
    s.fenceDone h = s := by
  have hall : f.marks.all (s.fenceMet (s.srcUnit (hartUnit h))) = false := by
    obtain ⟨e, he, hlate⟩ := List.any_eq_true.1 hw
    refine List.all_eq_false.2 ⟨e, he, ?_⟩
    simp only [Bool.and_eq_true, decide_eq_true_eq, Bool.not_eq_true'] at hlate
    rw [State.fenceMet, hlate.2, Bool.or_false, decide_eq_true_eq]
    omega
  simp only [State.fenceDone, hf, hall, Bool.false_and, Bool.not_false, if_true]

variable (hpeers : f.peers = []) (hsend : f.thenSend = none)
include hpeers hsend

/-- The oldest fence is over when all its destinations have answered. -/
theorem State.fenceDone_of_answered
    (hall : f.marks.all (fun e => decide (e.2 ≤ fmGet (s.srcUnit (hartUnit h)).answered e.1 0)) = true) (herr : f.err = none) :
    s.fenceDone h = s.setSrcUnit (hartUnit h) { s.srcUnit (hartUnit h) with fences := fs } := by
  have hanswered := fun e he => of_decide_eq_true (List.all_eq_true.1 hall e he)
  have hmet : f.marks.all (s.fenceMet (s.srcUnit (hartUnit h))) = true :=
    List.all_eq_true.2 fun e he => by simp [State.fenceMet, hanswered e he]
  have hnone (t : State) : t.fenceDead (s.srcUnit (hartUnit h)) f = none := by
    have hfind : f.marks.find? (fun e => decide (fmGet (s.srcUnit (hartUnit h)).answered e.1 0 < e.2) && t.fab.dead.contains e.1) = none :=
      List.find?_eq_none.2 fun e he => by
        have := hanswered e he
        simp only [Bool.and_eq_true, decide_eq_true_eq]
        omega
    simp only [State.fenceDead, herr, hfind, hpeers, List.find?_nil, Option.map_none, Option.or_none]
  simp only [State.fenceDone, hf, hmet, hpeers, List.all_nil, Bool.and_self, Bool.not_true, Bool.false_eq_true, if_false, hnone, hsend]

/-- A fence that ends at a dead destination. -/
theorem State.fenceDone_of_dead {d : Nat} (hmet : f.marks.all (s.fenceMet (s.srcUnit (hartUnit h))) = true) (herr : f.err = some d) :
    s.fenceDone h = ((s.setSrcUnit (hartUnit h) { s.srcUnit (hartUnit h) with fences := fs }).faultRecord ((s.partOfHart h).getD 0)
      0 1 3 d 0xF0 0 (hartUnit h)).event 0x090A { part := s.partOfHart h } [] := by
  have hdead (t : State) : t.fenceDead (s.srcUnit (hartUnit h)) f = some d := by
    simp only [State.fenceDead, herr, Option.some_or]
  simp only [State.fenceDone, hf, hmet, hpeers, List.all_nil, Bool.and_self, Bool.not_true, Bool.false_eq_true, if_false, hdead, hsend]
  rfl
end

/-- What the record and the event of a fence's error leave. -/
theorem State.fenceError_effect (s : State) (n d p : Nat) (x : Source) (w : EvWho) (hp : p < 4) :
    let u := ((s.setSrcUnit n x).faultRecord p 0 1 3 d 0xF0 0 n).event 0x090A w []
    u.srcUnit n = x ∧ u.odGet 0xB109 10 = s.odGet 0xB109 10 + 1 ∧ u.odGet (0x6044 + p) 0 = (s.odGet (0x6044 + p) 0 + 1) % 2 ^ 32 := by
  obtain ⟨hhead, hother⟩ := (s.setSrcUnit n x).faultRecord_odGet p 0 1 3 d 0xF0 0 n
  have hfab : ((s.setSrcUnit n x).faultRecord p 0 1 3 d 0xF0 0 n).fab = (s.setSrcUnit n x).fab := State.faultRecord_fab ..
  generalize (s.setSrcUnit n x).faultRecord p 0 1 3 d 0xF0 0 n = v at hhead hother hfab
  refine ⟨?_, (v.event_count 0x090A w []).trans (congrArg (· + 1) (hother 0xB109 10 ?_ ?_)),
    (v.event_objectsKept 0x090A w [] (by decide) _ _ (by decide) (by omega)).trans hhead⟩
  · rw [State.srcUnit_of_fab n (v.event_fab 0x090A w []), State.srcUnit_of_fab n hfab, State.srcUnit_setSrcUnit_same]
  · unfold odKey
    omega
  · unfold odKey
    omega

/-! ### Ownership commands (09 R328, R329) -/

theorem exec_ownAcquire (t rd : Nat) (h : HartIdx) (a : BitVec 56) (w : BitVec 64) (s : State) :
    exec (.ownAcquire t h a rd w) s = .next ((s.arrive t).ownIssue h.val a.toNat rd w.toNat) := rfl
theorem exec_ownRelease (t rd : Nat) (h : HartIdx) (a : BitVec 56) (w : BitVec 64) (s : State) :
    exec (.ownRelease t h a rd w) s = .next ((s.arrive t).ownIssue h.val a.toNat rd w.toNat) := rfl
theorem exec_ownHandover (t rd : Nat) (h : HartIdx) (a : BitVec 56) (w : BitVec 64) (s : State) :
    exec (.ownHandover t h a rd w) s = .next ((s.arrive t).ownIssue h.val a.toNat rd w.toNat) := rfl

/-- The data of an ownership command of a hart: the word, and the path its new owner has. -/
def State.ownData (s : State) (h word : Nat) : List Byte := bytesOf 8 word ++ bytesOf 8 (s.hartPath h (bits word 14 8 * 2 ^ 48))

theorem State.ownData_take (s : State) (h word : Nat) : (s.ownData h word).take 8 = bytesOf 8 word := by
  rw [State.ownData, List.take_append_of_le_length (length_bytesOf ..).ge, List.take_of_length_le (length_bytesOf ..).le]

theorem State.ownData_ne_nil (s : State) (h word : Nat) : s.ownData h word ≠ [] := by
  intro hnil
  have hlen := congrArg List.length (s.ownData_take h word)
  rw [hnil, length_bytesOf] at hlen
  cases hlen

section
variable {s : State} {h a rd word : Nat} (hgone : s.hartGone h = false) (hpmp : s.pmpStops h a 8 true = false)
  (halign : a % 2 ^ 48 % 2 ^ 21 = 0) (hroom : s.unitFull (hartUnit h) 1 = false)
include hgone hpmp halign hroom

/-- A release or handover becomes a fence that sends it. -/
theorem State.ownIssue_of_release (hword : bits word 3 0 = 2 ∨ bits word 3 0 = 3) : s.ownIssue h a rd word =
    s.pushFence (hartUnit h)
      (some ({ s.hartPacket h 0x28 2 (a % 2 ^ 48) 8 (s.ownData h word) with dst := s.hartPath h a }, .xreg h rd 8 false))
      (if s.hartRoute h a = .here then [] else s.peerWrites h (s.hartPath h a)) (s.hartRoute h a == .here) := by
  simp only [State.ownIssue, hgone, hpmp, halign, hroom, bne_self_eq_false, Bool.or_self, Bool.false_eq_true, if_false, hword, if_true]
  rfl

/-- A command for a region of the package that is served at once: its result reaches x[rd]. -/
theorem State.ownIssue_of_served {u : State} {v st : Nat} (hword : ¬ (bits word 3 0 = 2 ∨ bits word 3 0 = 3))
    (hhere : s.hartRoute h a = .here)
    (hserve : s.ownServe (.hart h) s.ownPath ((s.partOfHart h).getD 0) (a % 2 ^ 48) (s.ownData h word) = (u, bytesOf 8 v, st, 0)) :
    s.ownIssue h a rd word = (u.setX h rd (v % 2 ^ 64)).localFault h 0x28 (a % 2 ^ 48) 8 st 0 := by
  have hdeliver : u.deliver (.xreg h rd 8 false) 0 0 ((bytesOf 8 v).take 8) = u.setX h rd (v % 2 ^ 64) := by
    rw [List.take_of_length_le (length_bytesOf 8 v).le, State.deliver, List.take_of_length_le (length_bytesOf 8 v).le, natOf_bytesOf]
    rfl
  rw [State.ownData] at hserve
  simp only [State.ownIssue, hgone, hpmp, halign, hroom, bne_self_eq_false, Bool.or_self, Bool.false_eq_true, if_false, hword, hhere,
    beq_self_eq_true, State.ownSend, if_true, hserve, hdeliver]
end

theorem State.ownResult_lt (s : State) (r : Nat) {st : Nat} (hst : st < 2 ^ 32) : s.ownResult r st < 2 ^ 64 := by
  have hgen := (s.ownEnt r).gen.isLt
  rw [State.ownResult, Nat.shiftLeft_eq]
  omega

section
variable (s : State) (h op pa n st c : Nat)

theorem State.localFault_ok : s.localFault h op pa n 0 c = s := if_pos rfl

/-- A failed access of a hart changes no integer register, and of the fabric only the requests of units. -/
theorem State.localFault_effect (g r : Nat) : let u := s.localFault h op pa n st c
    u.getX g r = s.getX g r ∧ u.fab.own = s.fab.own := by
  unfold State.localFault
  split
  · exact ⟨rfl, rfl⟩
  · unfold State.failNow State.finish
    dsimp only
    split
    · exact ⟨rfl, rfl⟩
    · refine ⟨State.faultRecord_getX .., ?_⟩
      rw [State.faultRecord_fab]
      rfl
end

theorem State.ownServe_acquire {s : State} {h a : Nat} (hc : s.ctlCheck (.hart h) (a % 2 ^ 48) = (s, 0)) :
    s.ownServe (.hart h) s.ownPath ((s.partOfHart h).getD 0) (a % 2 ^ 48) (s.ownData h 1) =
    let r := s.ownApply s.ownPath ((s.partOfHart h).getD 0) (a % 2 ^ 48 / 2 ^ 21) 1 (natOf (((s.ownData h 1).drop 8).take 8))
    (r.1, bytesOf 8 (r.1.ownResult (a % 2 ^ 48 / 2 ^ 21) r.2), r.2, 0) := by
  rw [State.ownServe_of_command (s.ownData_ne_nil h 1) hc, State.ownData_take, natOf_bytesOf,
    Nat.mod_eq_of_lt (by decide : 1 < 256 ^ 8)]

section
variable {s : State} {h a rd : Nat} (hgone : s.hartGone h = false) (hpmp : s.pmpStops h a 8 true = false)
  (halign : a % 2 ^ 48 % 2 ^ 21 = 0) (hroom : s.unitFull (hartUnit h) 1 = false) (hhere : s.hartRoute h a = .here)
  (hc : s.ctlCheck (.hart h) (a % 2 ^ 48) = (s, 0))
include hgone hpmp halign hroom hhere hc

/-- An acquire of an OPEN region of the package. -/
theorem State.ownIssue_acquire_open (hopen : (s.ownEnt (a % 2 ^ 48 / 2 ^ 21)).state = 0) :
    let g := a % 2 ^ 48 / 2 ^ 21
    let u := s.ownIssue h a rd 1
    u.ownEnt g = { state := 1, domain := (s.partOfHart h).getD 0, gen := (s.ownEnt g).gen + 1, path := s.ownPath } ∧
    u.getX h rd = (if rd = 0 then 0 else ((s.ownEnt g).gen + 1).toNat <<< 16) ∧
    (∀ r, r ≠ g → u.ownEnt r = s.ownEnt r) ∧ u.mem = s.mem := by
  intro g
  have hserve := State.ownServe_acquire hc
  rw [State.ownApply_acquire, if_pos hopen] at hserve
  have hchange : (s.ownEnt g).state ≠ 1 := by
    change (s.ownEnt (a % 2 ^ 48 / 2 ^ 21)).state ≠ 1
    omega
  have hsame := s.setOwn_ownEnt_same g ((s.partOfHart h).getD 0) s.ownPath hchange
  have hother (r : Nat) (hr : r ≠ g) := s.setOwn_ownEnt_other g 1 ((s.partOfHart h).getD 0) s.ownPath hr
  have hmem := State.setOwn_mem s g 1 ((s.partOfHart h).getD 0) s.ownPath
  rw [State.ownIssue_of_served hgone hpmp halign hroom (by decide) hhere hserve, State.localFault_ok]
  change let u := ((s.setOwn g 1 ((s.partOfHart h).getD 0) s.ownPath).setX h rd
    ((s.setOwn g 1 ((s.partOfHart h).getD 0) s.ownPath).ownResult g 0 % 2 ^ 64)); _
  generalize s.setOwn g 1 ((s.partOfHart h).getD 0) s.ownPath = v at hsame hother hmem ⊢
  have hv : v.ownResult g 0 = ((s.ownEnt g).gen + 1).toNat <<< 16 := by rw [State.ownResult, hsame, Nat.zero_add]
  have hfab : (v.setX h rd (v.ownResult g 0 % 2 ^ 64)).fab = v.fab := (congrArg State.fab (v.setX_onlyHart h rd _).1 :)
  rw [Nat.mod_eq_of_lt (v.ownResult_lt g (by decide))] at hfab ⊢
  refine ⟨(State.ownEnt_of_fab hfab g).trans hsame, ?_, fun r hr => (State.ownEnt_of_fab hfab r).trans (hother r hr),
    (v.setX_mem ..).trans hmem⟩
  rw [State.getX_setX_same _ _ _ (v.ownResult_lt g (by decide)), hv]

/-- An acquire of a region that another package owns. -/
theorem State.ownIssue_acquire_foreign (howned : (s.ownEnt (a % 2 ^ 48 / 2 ^ 21)).state = 1)
    (hforeign : (s.ownEnt (a % 2 ^ 48 / 2 ^ 21)).path ≠ s.ownPath) : let u := s.ownIssue h a rd 1
    u.fab.own = s.fab.own ∧
    u.getX h rd = (if rd = 0 then 0 else 0x10 + (s.ownEnt (a % 2 ^ 48 / 2 ^ 21)).gen.toNat <<< 16) := by
  have hserve := State.ownServe_acquire hc
  have hmine : ((s.ownEnt (a % 2 ^ 48 / 2 ^ 21)).path == s.ownPath) = false := beq_eq_false_iff_ne.2 hforeign
  rw [State.ownApply_acquire, if_neg (by omega), hmine, Bool.and_false, Bool.false_and, if_neg Bool.false_ne_true,
    if_neg (by omega)] at hserve
  rw [State.ownIssue_of_served hgone hpmp halign hroom (by decide) hhere hserve,
    Nat.mod_eq_of_lt (s.ownResult_lt (a % 2 ^ 48 / 2 ^ 21) (by decide : 0x10 < 2 ^ 32))]
  obtain ⟨hget, hown⟩ := (s.setX h rd (s.ownResult (a % 2 ^ 48 / 2 ^ 21) 0x10)).localFault_effect h 0x28 (a % 2 ^ 48) 8 0x10 0 h rd
  have hfab : (s.setX h rd (s.ownResult (a % 2 ^ 48 / 2 ^ 21) 0x10)).fab = s.fab := (congrArg State.fab (s.setX_onlyHart h rd _).1 :)
  refine ⟨hown.trans (congrArg _ hfab), hget.trans ?_⟩
  rw [State.getX_setX_same _ _ _ (s.ownResult_lt _ (by decide : 0x10 < 2 ^ 32))]
  rfl
end

end Sys2Proof.Machine
end

section
namespace Sys2Proof.Machine

/-! ### Heads of gathers (09 R332, R333) -/

theorem exec_gatherDoorbell (t rd : Nat) (h : HartIdx) (w : BitVec 64) (s : State) :
    exec (.gatherDoorbell t h rd w) s = .next ((s.arrive t).gatherStart h.val rd (w.toNat % 2 ^ 48)) := rfl
theorem exec_gatherComplete (t j : Nat) (h : HartIdx) (s : State) :
    exec (.gatherComplete t h j) s = execGatherComplete t h j s := rfl

/-- What a gather keeps from its start on: its element count and lane, where its slots and its record are, and its elements. -/
def State.gatherCore (s : State) (h j : Nat) : Option (Nat × Nat × Nat × Nat × List (Nat × Nat)) :=
  (s.gather h j).map fun x => (x.count, x.lane, x.dest, x.cmpl, x.elems)

/-- u has the heads of the gathers of s, and the collectives. -/
structure State.HeadsKept (s u : State) (h j : Nat) : Prop where
  core : u.gatherCore h j = s.gatherCore h j
  coll : u.coll = s.coll

section
variable {s t u : State} {h j : Nat}

theorem State.HeadsKept.trans (h1 : s.HeadsKept t h j) (h2 : t.HeadsKept u h j) : s.HeadsKept u h j :=
  ⟨h2.core.trans h1.core, h2.coll.trans h1.coll⟩

theorem State.HeadsKept.of_gathers (hg : u.fab.gathers = s.fab.gathers) (hc : u.coll = s.coll) : s.HeadsKept u h j :=
  ⟨by rw [State.gatherCore, State.gather, hg, ← State.gather, ← State.gatherCore], hc⟩

/-- An element that completes leaves the head of its gather. -/
theorem State.gatherDone_headsKept (s : State) (h j i : Nat) (l : List Byte) (st c : Nat) : s.HeadsKept (s.gatherDone h j i l st c) h j := by
  unfold State.gatherDone
  cases hg : s.gather h j with
  | none => exact ⟨rfl, rfl⟩
  | some g =>
    have hcalm := s.storeLocal_calm (.hart h) (g.dest + i * laneBytes g.lane) l
    dsimp only
    generalize (s.storeLocal (.hart h) (g.dest + i * laneBytes g.lane) l).1 = v at hcalm ⊢
    refine ⟨?_, hcalm.2⟩
    unfold State.gatherCore
    rw [hg, State.gather, State.setGather, fmGet?_fmSet_same]
    rfl

theorem State.faultRecord_coll (s : State) (p addr cause status path op tag unit : Nat) :
    (s.faultRecord p addr cause status path op tag unit).coll = s.coll := by
  fun_cases State.faultRecord s p addr cause status path op tag unit <;> simp +zetaDelta

theorem State.failNow_headsKept (s : State) (k : Packet) (i st c : Nat) : s.HeadsKept (s.failNow k (.gather h j i) st c) h j := by
  unfold State.failNow State.finish
  dsimp only
  have hunit : s.HeadsKept (s.setSrcUnit k.unit { s.srcUnit k.unit with tag := (s.srcUnit k.unit).tag + 1 }) h j := .of_gathers rfl rfl
  refine hunit.trans ?_
  generalize s.setSrcUnit k.unit { s.srcUnit k.unit with tag := (s.srcUnit k.unit).tag + 1 } = v
  generalize (if st = 1 then slubData _ _ c else _) = l
  have hdone : v.HeadsKept (v.deliver (.gather h j i) st c l) h j := v.gatherDone_headsKept h j i l st c
  split
  · exact hdone
  · exact hdone.trans (.of_gathers (congrArg _ (State.faultRecord_fab ..)) (State.faultRecord_coll ..))

theorem State.failDead_gatherCore (s : State) (k : Packet) (i : Nat) (hcoll : s.coll.colls = []) :
    (s.failDead k (.gather h j i)).gatherCore h j = s.gatherCore h j := by
  unfold State.failDead
  dsimp only
  have hfail := s.failNow_headsKept (h := h) (j := j) k i (deadStatus k) 1
  generalize s.failNow k (.gather h j i) (deadStatus k) 1 = v at hfail ⊢
  have hmark := (v.markDead_effect 0 k.dst (by rw [hfail.coll, hcoll])).2.gathers
  have hevent := ((v.markDead k.dst).deadEvent_raises { k with tag := (s.srcUnit k.unit).tag.toNat }).fab
  rw [State.gatherCore, State.gather, hevent, hmark, ← State.gather, ← State.gatherCore, hfail.core]

theorem State.issueReq_gatherCore (s : State) (k : Packet) (dl : Deliver) : (s.issueReq k dl).gatherCore h j = s.gatherCore h j := by
  have hgathers : (s.issueReq k dl).fab.gathers = s.fab.gathers := by
    unfold State.issueReq
    dsimp only
    split
    · rfl
    · exact (State.sendPacket_posts ..).gathers
  rw [State.gatherCore, State.gather, hgathers, ← State.gather, ← State.gatherCore]

/-- A gather keeps its head whatever becomes of the request of an element. -/
theorem State.request_gatherCore (s : State) (k : Packet) (path i : Nat) (hcoll : s.coll.colls = []) :
    (s.request k path (.gather h j i)).gatherCore h j = s.gatherCore h j := by
  fun_cases State.request s k path (.gather h j i)
  · exact s.failDead_gatherCore _ i hcoll
  · exact (s.failNow_headsKept ..).core
  · exact (s.failNow_headsKept ..).core
  · exact s.issueReq_gatherCore ..
  · exact (s.failNow_headsKept ..).core

theorem State.snoopAll_of_held_nil (s : State) (h : Nat) (l : List (Nat × Nat)) (hh : s.host.held = []) : s.snoopAll h l = (s, false) := by
  unfold State.snoopAll
  refine List.foldlRecOn l _ (motive := fun x => x = (s, false)) rfl fun x hx e _ => ?_
  rw [hx]
  simp only [State.snoopFor_of_held_nil (.hart h) e.1 e.2 hh, Bool.or_self]

end

theorem State.setGather_hartRoute (s : State) (h j g : Nat) (x : Gather) (a : Nat) :
    (s.setGather h j x).hartRoute g a = s.hartRoute g a := rfl

theorem State.gatherElem_of_away {s : State} {h : Nat} {e : Nat × Nat} (j i lane : Nat) (haway : s.hartRoute h (e.2 * 2 ^ 48) ≠ .here) :
    ∃ k path, s.gatherElem h j i lane e = s.request k path (.gather h j i) := ⟨_, _, if_neg haway⟩

/-- The head of a gather, of its descriptor's words and its elements. -/
def State.gatherHead (s : State) (h : Nat) (l : List Nat) (es : List (Nat × Nat)) : Gather :=
  { count := bits (nth l 0 0) 54 48, lane := bits (nth l 0 0) 56 55, dest := nth l 1 0, cmpl := nth l 2 0, elems := es
    paths := es.map (s.elemPath h) }

section
variable {s : State} {h rd desc : Nat} (hgone : s.hartGone h = false)
include hgone

/-- With 16 gathers outstanding none starts. -/
theorem State.gatherStart_of_full (hfull : ∀ j, j < 16 → (s.gather h j).isSome = true) : s.gatherStart h rd desc = s.setX h rd 2 := by
  have hnone : (List.range 16).find? (fun j => (s.gather h j).isNone) = none :=
    List.find?_eq_none.2 fun j hj => by
      have hsome := hfull j (List.mem_range.1 hj)
      simp [Option.isNone_iff_eq_none, Option.ne_none_iff_isSome.2 hsome]
  simp only [State.gatherStart, hgone, Bool.false_eq_true, if_false, hnone]

variable (hfree : s.gather h 0 = none)
include hfree

omit hgone in
theorem State.gather_place_free : (List.range 16).find? (fun j => (s.gather h j).isNone) = some 0 :=
  List.find?_cons_of_pos (by rw [hfree]; rfl)

theorem State.gatherStart_of_unaligned (hdesc : desc % 64 ≠ 0) : s.gatherStart h rd desc = s.setX h rd 1 := by
  have hplace := State.gather_place_free hfree
  simp only [State.gatherStart, hgone, Bool.false_eq_true, if_false, hplace, hdesc, not_false_eq_true, ne_eq, if_true]

/-- A gather whose descriptor and list are valid starts its elements in order. -/
theorem State.gatherStart_of_valid {l : List Nat} {es : List (Nat × Nat)} (hdesc : s.gatherDesc h desc = (s, some l))
    (hlist : s.gatherList h (bits (nth l 0 0) 47 0) (bits (nth l 0 0) 54 48) = (s, some es)) (hh : s.host.held = []) :
    s.gatherStart h rd desc = ((List.range (bits (nth l 0 0) 54 48)).foldl (fun s i =>
      s.gatherElem h 0 i (bits (nth l 0 0) 56 55) (nth es i (0, 0))) (s.setGather h 0 (s.gatherHead h l es))).setX h rd 0 := by
  have halign : desc % 64 = 0 := by
    by_contra hno
    rw [State.gatherDesc, if_pos hno] at hdesc
    cases hdesc
  have hplace := State.gather_place_free hfree
  simp only [State.gatherStart, hgone, Bool.false_eq_true, if_false, hplace, halign, ne_eq, not_true_eq_false,
    State.snoopAll_of_held_nil s h _ hh, hdesc, hlist, State.gatherHead]

/-- A gather of one element of another package starts: its head stands, and x[rd] is 0. -/
theorem State.gatherStart_effect {l : List Nat} {e : Nat × Nat} (hdesc : s.gatherDesc h desc = (s, some l))
    (hcount : bits (nth l 0 0) 54 48 = 1) (hlist : s.gatherList h (bits (nth l 0 0) 47 0) 1 = (s, some [e])) (hh : s.host.held = [])
    (hcoll : s.coll.colls = []) (haway : s.hartRoute h (e.2 * 2 ^ 48) ≠ .here) : let u := s.gatherStart h rd desc
    u.getX h rd = 0 ∧ ∃ x, u.gather h 0 = some x ∧
      (x.count, x.lane, x.dest, x.cmpl, x.elems) = (1, bits (nth l 0 0) 56 55, nth l 1 0, nth l 2 0, [e]) := by
  rw [State.gatherStart_of_valid hgone hfree hdesc (by rw [hcount, hlist]) hh, hcount, List.range_one, List.foldl_cons, List.foldl_nil]
  generalize hv : s.setGather h 0 (s.gatherHead h l [e]) = v
  have hroute : v.hartRoute h (e.2 * 2 ^ 48) ≠ .here := by
    rw [← hv, State.setGather_hartRoute]
    exact haway
  have hcore : v.gatherCore h 0 = some (1, bits (nth l 0 0) 56 55, nth l 1 0, nth l 2 0, [e]) := by
    rw [State.gatherCore, State.gather, ← hv, State.setGather, fmGet?_fmSet_same, Option.map_some, State.gatherHead, hcount]
  obtain ⟨k, path, helem⟩ := State.gatherElem_of_away 0 0 (bits (nth l 0 0) 56 55) hroute
  have hkept := v.request_gatherCore (h := h) (j := 0) k path 0 (by rw [← hv]; exact hcoll)
  have hnth : nth [e] 0 (0, 0) = e := rfl
  rw [hnth, helem]
  generalize v.request k path (.gather h 0 0) = u at hkept ⊢
  have hfab : (u.setX h rd 0).fab = u.fab := (congrArg State.fab (u.setX_onlyHart h rd 0).1 :)
  refine ⟨by rw [State.getX_setX_same _ _ _ (by decide), ite_self], ?_⟩
  rw [hcore, State.gatherCore, State.gather, ← hfab, ← State.gather] at hkept
  exact Option.map_eq_some_iff.1 hkept
end

/-- The completion record of a gather without failures (Table 09-11). -/
theorem gatherRecord_of_no_failure {g : Gather} (h : g.failed = []) :
    gatherRecord g = bytesOfWords [3 + 0x7F <<< 3, 0, 0, 0, 0, 0, 0, 0] := by
  simp only [gatherRecord, h]
  rfl

theorem exec_gatherComplete_of_done {t j : Nat} {h : HartIdx} {r0 s1 : State} {g : Gather} {r : Nat × Nat}
    (hg : (r0.arrive t).gather h.val j = some g) (hdone : g.count ≤ g.done.length) (hok : g.failed = [])
    (hstore : (r0.arrive t).storeLocal (.hart h.val) g.cmpl (bytesOfWords [3 + 0x7F <<< 3, 0, 0, 0, 0, 0, 0, 0]) = (s1, some r)) :
    exec (.gatherComplete t h j) r0 =
      .next { s1 with fab := { s1.fab with gathers := fmDel s1.fab.gathers (h.val * 16 + j) } } := by
  have hgo : ¬ g.done.length < g.count := by omega
  rw [← gatherRecord_of_no_failure hok] at hstore
  simp only [exec_gatherComplete, execGatherComplete, hg, hgo, if_false, hstore, hok, List.head?_nil]

/-- The ownership commands that wait, each with its code. -/
def waitingRows : List ((Nat → HartIdx → BitVec 56 → Nat → BitVec 64 → Instr) × Nat) := [(.ownRelease, 2), (.ownHandover, 3)]

theorem exec_waiting {row : (Nat → HartIdx → BitVec 56 → Nat → BitVec 64 → Instr) × Nat} (hrow : row ∈ waitingRows)
    (t rd : Nat) (h : HartIdx) (a : BitVec 56) (w : BitVec 64) (s : State) :
    (row.2 = 2 ∨ row.2 = 3) ∧ exec (row.1 t h a rd w) s = .next ((s.arrive t).ownIssue h.val a.toNat rd w.toNat) := by
  simp only [waitingRows, List.mem_cons, List.not_mem_nil, or_false] at hrow
  rcases hrow with rfl | rfl
  · exact ⟨.inl rfl, exec_ownRelease ..⟩
  · exact ⟨.inr rfl, exec_ownHandover ..⟩

/-- Writing the requests of a unit changes the fabric's state only. -/
theorem State.setSrcUnit_frame (s : State) (n : Nat) (x : Source) : { (s.setSrcUnit n x).bare s with fab := s.fab } = s := rfl

theorem does_of_exec {c : Instr} {s u : State} {P : State → Prop} (h : exec c s = .next u) (hu : P u) : Does c s P := ⟨u, h, hu⟩

section
variable {t rd : Nat} {h : HartIdx} {a : BitVec 56} {w : BitVec 64} {r0 : State}

/-- The fences of a hart, from their beginning to their end. -/
theorem fences_of_hart (t : Nat) (h : HartIdx) (r0 : State) : let s := r0.arrive t
    let n := hartUnit h.val
    let x := s.srcUnit n
    (s.hartGone h.val = false → Does (.solverFence t h) r0 fun u =>
      u.srcUnit n = { x with fences := x.fences ++ [{ marks := x.issued, thenSend := none }] } ∧
      (∀ m, m ≠ n → u.srcUnit m = s.srcUnit m) ∧ { u.bare s with fab := s.fab } = s) ∧
    (∀ f fs, x.fences = f :: fs →
      (f.marks.any (fun e => decide (fmGet x.answered e.1 0 < e.2) && !s.fab.dead.contains e.1) = true →
        exec (.fenceComplete t h) r0 = .next s) ∧
      (f.marks.all (fun e => decide (e.2 ≤ fmGet x.answered e.1 0)) = true → f.peers = [] → f.err = none → f.thenSend = none →
        Does (.fenceComplete t h) r0 fun u =>
          u.srcUnit n = { x with fences := fs } ∧ (∀ m, m ≠ n → u.srcUnit m = s.srcUnit m) ∧
          { u.bare s with fab := s.fab } = s) ∧
      (∀ d, f.marks.all (s.fenceMet x) = true → f.peers = [] → f.err = some d → f.thenSend = none → Does (.fenceComplete t h) r0 fun u =>
          u.srcUnit n = { x with fences := fs } ∧ u.odGet 0xB109 10 = s.odGet 0xB109 10 + 1 ∧
          u.odGet (0x6044 + (s.partOfHart h.val).getD 0) 0 = (s.odGet (0x6044 + (s.partOfHart h.val).getD 0) 0 + 1) % 2 ^ 32)) := by
  intro s n x
  have hcomplete := exec_fenceComplete t h r0
  refine ⟨fun hgone => ?_, fun f fs hf => ⟨fun hw => ?_, fun hall hpeers herr hsend => ?_, fun d hmet hpeers herr hsend => ?_⟩⟩
  · obtain ⟨hsame, hother, -, hframe⟩ := s.pushFence_effect n none [] false
    have hexec := exec_solverFence t h r0
    rw [if_neg (by rw [hgone]; exact Bool.false_ne_true)] at hexec
    exact does_of_exec hexec ⟨hsame, hother, hframe⟩
  · rw [State.fenceDone_of_waiting hf hw] at hcomplete
    exact hcomplete
  · rw [State.fenceDone_of_answered hf hpeers hsend hall herr] at hcomplete
    exact does_of_exec hcomplete ⟨State.srcUnit_setSrcUnit_same .., fun _ hm => State.srcUnit_setSrcUnit_other _ _ _ _ hm, s.setSrcUnit_frame _ _⟩
  · rw [State.fenceDone_of_dead hf hpeers hsend hmet herr] at hcomplete
    have heffect := s.fenceError_effect n d ((s.partOfHart h.val).getD 0) { x with fences := fs } { part := s.partOfHart h.val }
      (s.partOfHart_getD_lt h.val)
    exact does_of_exec hcomplete heffect

/-- A release or handover waits in a fence. -/
theorem does_waiting {row : (Nat → HartIdx → BitVec 56 → Nat → BitVec 64 → Instr) × Nat} (hrow : row ∈ waitingRows)
    (hgone : (r0.arrive t).hartGone h.val = false) (hpmp : (r0.arrive t).pmpStops h.val a.toNat 8 true = false)
    (halign : a.toNat % 2 ^ 48 % 2 ^ 21 = 0) (hroom : (r0.arrive t).unitFull (hartUnit h.val) 1 = false)
    (hword : bits w.toNat 3 0 = row.2) : let s := r0.arrive t
    let n := hartUnit h.val
    Does (row.1 t h a rd w) r0 fun u =>
      (u.srcUnit n).fences.length = (s.srcUnit n).fences.length + 1 ∧
      (((u.srcUnit n).fences.getLast?).bind fun f => f.thenSend.map fun e => (f.marks, e.1.op, e.1.addr, e.1.data.take 8)) =
        some ((s.srcUnit n).issued, 0x28, a.toNat % 2 ^ 48, bytesOf 8 w.toNat) ∧
      u.fab.own = s.fab.own ∧ { u.bare s with fab := s.fab } = s := by
  intro s n
  obtain ⟨hcode, hexec⟩ := exec_waiting hrow t rd h a w r0
  rw [State.ownIssue_of_release hgone hpmp halign hroom (by rw [hword]; exact hcode)] at hexec
  refine does_of_exec hexec ?_
  generalize hk : ({ (r0.arrive t).hartPacket h.val 0x28 2 (a.toNat % 2 ^ 48) 8 ((r0.arrive t).ownData h.val w.toNat) with
    dst := (r0.arrive t).hartPath h.val a.toNat } : Packet) = k
  have hcommand : k.op = 0x28 ∧ k.addr = a.toNat % 2 ^ 48 ∧ k.data.take 8 = bytesOf 8 w.toNat := by
    rw [← hk]
    exact ⟨rfl, rfl, State.ownData_take ..⟩
  obtain ⟨hop, haddr, hdata⟩ := hcommand
  obtain ⟨hsame, -, hown, hframe⟩ := s.pushFence_effect n (some (k, .xreg h.val rd 8 false))
    (if s.hartRoute h.val a.toNat = .here then [] else s.peerWrites h.val (s.hartPath h.val a.toNat)) (s.hartRoute h.val a.toNat == .here)
  refine ⟨?_, ?_, hown, hframe⟩
  · rw [hsame]
    exact List.length_append
  · rw [hsame, List.getLast?_append_of_ne_nil _ (by simp), List.getLast?_singleton]
    simp only [Option.bind_some, Option.map_some, hop, haddr, hdata]

/-- A doorbell that is refused answers its code. -/
theorem does_gatherDoorbell_refused {v : Nat} (hv : v < 2 ^ 64)
    (hstart : (r0.arrive t).gatherStart h.val rd (w.toNat % 2 ^ 48) = (r0.arrive t).setX h.val rd v) :
    Does (.gatherDoorbell t h rd w) r0 fun u => u.getX h.val rd = (if rd = 0 then 0 else v) ∧ (r0.arrive t).OnlyHart u h.val := by
  have hexec := exec_gatherDoorbell t rd h w r0
  rw [hstart] at hexec
  obtain ⟨⟨hget, -⟩, -, honly⟩ := (r0.arrive t).setX_effect h.val rd hv
  exact does_of_exec hexec ⟨hget, honly⟩
end

/-- Settles O34: fences and answers write the unit's entries and one register; an element's request leaves its gather's head. -/
theorem fencesOwnershipAndGathers : Obligations.FencesOwnershipAndGathers := by
  refine ⟨fences_of_hart, ?_⟩
  intro t rd h a w r0 s hgone pa g p n
  refine ⟨fun halign hpmp hroom => ⟨fun hw hhere hc => ⟨fun hopen => ?_, fun howned hforeign => ?_⟩, fun row hrow hword => ?_⟩,
    fun hfull => ?_, fun hfree hdesc => ?_, fun l e hfree hdesc hcount hlist hcoll hh haway => ?_,
    fun j x s1 r hg hdone hok hstore => ?_⟩
  · have hexec := exec_ownAcquire t rd h a w r0
    rw [hw] at hexec
    exact does_of_exec hexec (State.ownIssue_acquire_open hgone hpmp halign hroom hhere hc hopen)
  · have hexec := exec_ownAcquire t rd h a w r0
    rw [hw] at hexec
    exact does_of_exec hexec (State.ownIssue_acquire_foreign hgone hpmp halign hroom hhere hc howned hforeign)
  · exact does_waiting hrow hgone hpmp halign hroom hword
  · exact does_gatherDoorbell_refused (by decide) (State.gatherStart_of_full hgone hfull)
  · have hdesc' : w.toNat % 2 ^ 48 % 64 ≠ 0 := by omega
    exact does_gatherDoorbell_refused (by decide) (State.gatherStart_of_unaligned hgone hfree hdesc')
  · exact does_of_exec (exec_gatherDoorbell t rd h w r0) (State.gatherStart_effect hgone hfree hdesc hcount hlist hh hcoll haway)
  · exact does_of_exec (exec_gatherComplete_of_done hg hdone hok hstore) ⟨fmGet?_fmDel_same .., rfl⟩

end Sys2Proof.Machine
end

section
namespace Sys2Proof.Machine

/-! ## The removed cable of a port with a waiting packet (O43)

A port that goes DOWN gives its waiting packets to other ports, and their flits count in the object of the member they are charged
to. Where that object is the counter of FLYOVER_REMOVED, the removal counts twice. -/

/-- A packet that waits at a port, charged to the member whose flits count at sub 2 of object 0x3028 + 0x80EA = 0xB112. -/
def waitingCharged : Egress :=
  { vc := 2, cls := 1, left := 1, charge := some 0x80EA, packet := { dst := 0, op := 0, cls := 1, src := 0, unit := 0 } }

/-- Port 0 is UP with that packet, and port 1 is UP with a credit for it. -/
def twoPortsUp : State :=
  { ports := [(0, { state := .up, egress := [waitingCharged] }), (1, { state := .up, credits := [(2, 1)] })] }

theorem twoPortsUp_arrive : twoPortsUp.arrive 0 = twoPortsUp.begin 0 :=
  State.arrive_quiet twoPortsUp 0 (by
    rw [show earliest twoPortsUp.dues = none from rfl]
    exact fun _ h => nomatch h)

/-- Port 0 of that state without its cable. -/
def cablePulled : State := (twoPortsUp.begin 0).setPort 0 { (twoPortsUp.begin 0).port 0 with present := false }

theorem exec_flyoverRemoved_twoPortsUp :
    exec (.flyoverRemoved 0 0 false) twoPortsUp = .next ((cablePulled.portDown 0).event 0x1202 noOne [.half 0]) := by
  change Host.Outcome.next _ = _
  rw [twoPortsUp_arrive]
  rfl

/-- The packet leaves by port 1 and counts. -/
theorem cablePulled_portDown_count : (cablePulled.portDown 0).odGet 0xB112 2 = 1 := rfl

/-- Refutes O43: port 0 loses its cable while a packet waits there whose flits count at sub 2 of 0xB112, the object that counts
FLYOVER_REMOVED. The packet leaves by port 1, and the object rises by 2, not by 1. -/
theorem not_portRules : ¬ Obligations.PortRules := by
  intro h
  obtain ⟨-, -, -, -, -, -, -, -, -, hremoved, -⟩ := h 0 0 twoPortsUp
  have husable : ((twoPortsUp.arrive 0).port 0).state.usable = true := by
    rw [twoPortsUp_arrive]
    rfl
  obtain ⟨u, hexec, -, -, -, hcount, -⟩ := hremoved husable
  rw [exec_flyoverRemoved_twoPortsUp] at hexec
  have hevent := (cablePulled.portDown 0).event_count 0x1202 noOne [.half 0]
  obtain rfl := Host.Outcome.next.inj hexec
  rw [twoPortsUp_arrive] at hcount
  have hzero : (twoPortsUp.begin 0).odGet 0xB112 2 = 0 := rfl
  have htwo := hcount.symm.trans hevent
  rw [hzero] at htwo
  exact absurd (htwo.trans (congrArg (· + 1) cablePulled_portDown_count)) (by decide)

end Sys2Proof.Machine
end

section
namespace Sys2Proof.Machine

/-! ## A mailbox command at whose time something is due (O54)

Everything due at the stations happens as a command arrives (03 R111). An event that this raises notifies the sessions that follow
it, so that messages go out although the mailbox command itself has no effect. -/

/-- Partition 0 runs on slot 0, an invalid twist command is about to reach its engine, a session follows all events, and the host's
link is not up. -/
def invalidOnTheWay : State :=
  { od := [(odKey 0x3010 1, 2 ^ 32 + 1)]
    parts := [(0, { state := .running })]
    wire := [{ p := 0, n := 0, st := 0x2000, word := 0, arrival := 0, tick := 0, pos := 0 }]
    aoap := { sessions := [(1, {
      role := .owner
      transport := .ethernet false
      open_ := true
      subs := [{ id := 1, kind := .event 0 0xFFFF }] })] } }

theorem invalidOnTheWay_unlinked : (invalidOnTheWay.arrive 0).linked = false := rfl

/-- COMMAND_INVALID and the rollback it causes are each told to the session. -/
theorem invalidOnTheWay_notifies : (invalidOnTheWay.arrive 0).out.length = 2 := rfl

theorem exec_mbIdentify_of_unlinked {t : Nat} {s : State} (h : (s.arrive t).linked = false) :
    exec (.mbIdentify t) s = .next (s.arrive t) := by
  change Host.Outcome.next ((s.arrive t).mailbox true _) = _
  rw [State.mailbox, h]
  rfl

/-- Refutes O54: without the link an Identify has no effect, but at its time an invalid twist command reaches its engine, and the
notifications of that event go out, where the statement has nothing sent. -/
theorem not_mailboxCommands : ¬ Obligations.MailboxCommands := by
  intro h
  obtain ⟨hunlinked, -⟩ := h 0 [] [] 0 0 0 0 0 0 0 0 0 0 {} invalidOnTheWay
  obtain ⟨hidle, -⟩ := hunlinked (.mbIdentify 0) (List.mem_cons_self ..)
  obtain ⟨u, hexec, hout, -⟩ := hidle invalidOnTheWay_unlinked
  rw [exec_mbIdentify_of_unlinked invalidOnTheWay_unlinked] at hexec
  obtain rfl := Host.Outcome.next.inj hexec
  have hlength := invalidOnTheWay_notifies
  rw [hout] at hlength
  exact absurd hlength (by decide)

end Sys2Proof.Machine
end

section
namespace Sys2Proof.Machine

/-! ## The answer under what falls due (O33)

What happens at the stations up to the time of a command answers none: each function that it uses leaves the answer alone. One
lemma per function, in the order of the definitions. -/

@[simp] theorem forN_ans (f : State → Nat → State) (h : ∀ s a, (f s a).ans = s.ans) (n : Nat) (s : State) :
    (forN n s f).ans = s.ans := foldl_keeps State.ans f h _ s

@[simp] theorem State.writePa_ans (s : State) (pa : Nat) (l : List Byte) : (s.writePa pa l).ans = s.ans := by
  fun_cases State.writePa s pa l <;> simp

@[simp] theorem State.clearSlot_ans (s : State) (n : Nat) : (s.clearSlot n).ans = s.ans := by
  simp [State.clearSlot]

@[simp] theorem State.dropDraftColls_ans (s : State) (p : Nat) : (s.dropDraftColls p).ans = s.ans := by
  simp [State.dropDraftColls]

@[simp] theorem State.repairLine_ans (s : State) (p line : Nat) : (s.repairLine p line).ans = s.ans := by
  fun_cases State.repairLine s p line <;> simp

@[simp] theorem State.undoMemory_ans (s : State) (p : Nat) : (s.undoMemory p).ans = s.ans := by
  simp [State.undoMemory]

@[simp] theorem State.clearMarks_ans (s : State) (p : Nat) : (s.clearMarks p).ans = s.ans := by
  simp [State.clearMarks]

@[simp] theorem State.rollbackStats_ans (s : State) (p : Nat) : (s.rollbackStats p).ans = s.ans := by
  simp [State.rollbackStats]

@[simp] theorem State.restoreStep_ans (s : State) (p cause : Nat) : (s.restoreStep p cause).ans = s.ans := by
  simp [State.restoreStep]

@[simp] theorem State.countTaint_ans (s : State) (p : Nat) : (s.countTaint p).ans = s.ans := by
  simp [State.countTaint]

@[simp] theorem State.rollback_ans (s : State) (p cause : Nat) : (s.rollback p cause).ans = s.ans := by
  simp [State.rollback]

@[simp] theorem State.sendPacket_ans (s : State) (charge : Option Nat) (p : Packet) : (s.sendPacket charge p).ans = s.ans :=
  (congrArg State.ans (s.sendPacket_posts charge p) :)

@[simp] theorem State.setSrcUnit_ans (s : State) (u : Nat) (x : Source) : (s.setSrcUnit u x).ans = s.ans := by
  simp [State.setSrcUnit]

@[simp] theorem State.launch_ans (s : State) (pkt : Packet) (dl : Deliver) : (s.launch pkt dl).ans = s.ans := by
  simp [State.launch]

@[simp] theorem State.issueReq_ans (s : State) (pkt : Packet) (dl : Deliver) : (s.issueReq pkt dl).ans = s.ans := by
  simp [State.issueReq]

@[simp] theorem State.faultRecord_ans (s : State) (p addr cause status path op tag unit : Nat) :
    (s.faultRecord p addr cause status path op tag unit).ans = s.ans := by
  fun_cases State.faultRecord s p addr cause status path op tag unit <;> simp +zetaDelta

@[simp] theorem State.storeDead_ans (s : State) (pkt : Packet) : (s.storeDead pkt).ans = s.ans := by
  simp [State.storeDead]

@[simp] theorem State.issueStores_ans (s : State) (base : Packet) (l : List Byte) : (s.issueStores base l).ans = s.ans := by
  simp [State.issueStores]

@[simp] theorem State.doffStore_ans (s : State) (p i half off : Nat) (l : List Byte) :
    (s.doffStore p i half off l).ans = s.ans := by
  simp [State.doffStore]

@[simp] theorem State.doffStoreBoth_ans (s : State) (p half off : Nat) (l : List Byte) :
    (s.doffStoreBoth p half off l).ans = s.ans := by
  simp [State.doffStoreBoth]

@[simp] theorem State.setColl_ans (s : State) (k : Nat) (c : Collective) : (s.setColl k c).ans = s.ans := by
  simp [State.setColl]

@[simp] theorem State.sendColl_ans (s : State) (p dst op cls : Nat) (data : List Byte) :
    (s.sendColl p dst op cls data).ans = s.ans := by
  simp [State.sendColl]

@[simp] theorem State.setVote_ans (s : State) (p : Nat) (ins : Fm (List Nat)) : (s.setVote p ins).ans = s.ans := by
  simp [State.setVote]

@[simp] theorem State.voteResult_ans (s : State) (p : Nat) (w : List Nat) : (s.voteResult p w).ans = s.ans := by
  simp [State.voteResult]

@[simp] theorem State.voteDown_ans (s : State) (p : Nat) (g : Group) (w : List Nat) (n pos j : Nat) :
    (s.voteDown p g w n pos j).ans = s.ans := by
  induction n generalizing s pos j with
  | zero => rfl
  | succ n ih =>
    refine foldl_keeps State.ans _ (fun s c => ?_) _ s
    dsimp only
    split
    · split
      · exact ih ..
      · exact State.voteResult_ans ..
    · exact State.sendColl_ans ..

@[simp] theorem State.voteUp_ans (s : State) (p : Nat) (g : Group) (w : List Nat) (mine : Bool) (n pos : Nat)
    (j : Option Nat) :
    (s.voteUp p g w mine n pos j).ans = s.ans := by
  fun_induction State.voteUp s p g w mine n pos j
  case case4 ih => exact ih.trans (by simp +zetaDelta)
  all_goals simp +zetaDelta

@[simp] theorem State.sendVote_ans (s : State) (p : Nat) (commit : Bool) : (s.sendVote p commit).ans = s.ans := by
  simp [State.sendVote]

@[simp] theorem State.withholdAndRollback_ans (s : State) (p cause : Nat) : (s.withholdAndRollback p cause).ans = s.ans := by
  simp [State.withholdAndRollback]

@[simp] theorem State.setRail_ans (s : State) (r mv : Nat) : (s.setRail r mv).ans = s.ans := by
  simp [State.setRail]

@[simp] theorem State.loseImages_ans (s : State) (aperture : Nat) : (s.loseImages aperture).ans = s.ans := by
  simp [State.loseImages]

@[simp] theorem State.moveSlot_ans (s : State) (n old new : Nat) : (s.moveSlot n old new).ans = s.ans := by
  simp -implicitDefEqProofs [State.moveSlot]

@[simp] theorem State.movePersist_ans (s : State) (p n old new : Nat) : (s.movePersist p n old new).ans = s.ans := by
  simp [State.movePersist]

@[simp] theorem State.fillSpare_ans (s : State) (p n new b : Nat) : (s.fillSpare p n new b).ans = s.ans := by
  simp [State.fillSpare]

@[simp] theorem State.spareActivated_ans (s : State) (p : Nat) (a : Nat × Nat × Nat) : (s.spareActivated p a).ans = s.ans := by
  simp [State.spareActivated]

@[simp] theorem State.spareExhausted_ans (s : State) (n die : Nat) : (s.spareExhausted n die).ans = s.ans := by
  fun_cases State.spareExhausted s n die <;> simp +zetaDelta

@[simp] theorem State.spindleLost_ans (s : State) (die : Nat) : (s.spindleLost die).ans = s.ans := by
  fun_cases State.spindleLost s die <;> simp +zetaDelta

@[simp] theorem State.detectedFault_ans (s : State) (p : Nat) (die : Option Nat) : (s.detectedFault p die).ans = s.ans := by
  fun_cases State.detectedFault s p die <;> simp +zetaDelta

@[simp] theorem State.stationRefused_ans (s : State) (code p n st pa : Nat) :
    (s.stationRefused code p n st pa).ans = s.ans := by
  simp [State.stationRefused]

@[simp] theorem State.metBad_ans (s : State) (p n k : Nat) (bad : List Nat) (det : List EvField) :
    (s.metBad p n k bad det).ans = s.ans := by
  simp [State.metBad]

@[simp] theorem State.c0Read_ans (s : State) (p n st pa len : Nat) (det : List EvField) :
    (s.c0Read p n st pa len det).1.ans = s.ans := by
  fun_cases State.c0Read s p n st pa len det
  case case2 | case3 => simp [fst_of_eq ‹_ = (_, _)›]
  case case1 => simp

@[simp] theorem State.c0Store_ans (s : State) (p n st pa : Nat) (l : List Byte) : (s.c0Store p n st pa l).1.ans = s.ans := by
  fun_cases State.c0Store s p n st pa l <;> simp

@[simp] theorem State.recCheck_ans (s : State) (p n t : Nat) (det : List EvField) : (s.recCheck p n t det).1.ans = s.ans := by
  fun_cases State.recCheck s p n t det
  case case2 | case3 => simp [fst_of_eq ‹_ = (_, _)›]
  case case1 => simp

@[simp] theorem State.setMark_ans (s : State) (n t : Nat) (m : StatMark) : (s.setMark n t m).ans = s.ans := by
  simp [State.setMark]

@[simp] theorem State.accumulate_ans (s : State) (p n t : Nat) (x : TileStats) (codes : List Nat) (band : List Byte) :
    (s.accumulate p n t x codes band).ans = s.ans := by
  fun_cases State.accumulate s p n t x codes band <;> simp +zetaDelta

@[simp] theorem State.addStats_ans (s : State) (p n t : Nat) (x : TileStats) (codes : List Nat) (band : List Byte) :
    (s.addStats p n t x codes band).ans = s.ans := by
  fun_cases State.addStats s p n t x codes band <;> simp [fst_of_eq ‹_ = (_, _)›]

@[simp] theorem State.countTile_ans (s : State) (p n : Nat) (m : Made) : (s.countTile p n m).ans = s.ans := by
  simp [State.countTile]

@[simp] theorem State.doffFail_ans (s : State) (p : Nat) : (s.doffFail p).ans = s.ans := by
  simp [State.doffFail]

@[simp] theorem State.writeShard_ans (s : State) (p kind fmt orig layout tensor slot rowOff colOff rows cols : Nat)
    (data : List Byte) :
    (s.writeShard p kind fmt orig layout tensor slot rowOff colOff rows cols data).ans = s.ans := by
  fun_cases State.writeShard s p kind fmt orig layout tensor slot rowOff colOff rows cols data <;> simp +zetaDelta

@[simp] theorem State.placeFault_ans (s : State) (code p n tick pos : Nat) : (s.placeFault code p n tick pos).ans = s.ans := by
  simp [State.placeFault]

@[simp] theorem State.atFault_ans (s : State) (c : StCmd) (code : Nat) : (s.atFault c code).ans = s.ans := by
  simp [State.atFault]

@[simp] theorem State.atInvalid_ans (s : State) (c : StCmd) : (s.atInvalid c).ans = s.ans := by
  simp [State.atInvalid]

@[simp] theorem State.queueAt_ans (s : State) (c : StCmd) : (s.queueAt c).ans = s.ans := by
  simp [State.queueAt]

@[simp] theorem State.occupy_ans (s : State) (c : StCmd) (cycles : Nat) : (s.occupy c cycles).ans = s.ans := by
  simp [State.occupy]

@[simp] theorem State.underrun_ans (s : State) (p n st r tick pos : Nat) : (s.underrun p n st r tick pos).ans = s.ans := by
  simp [State.underrun]

@[simp] theorem State.takeLane_ans (s : State) (p n st r from_ cycles : Nat) :
    (s.takeLane p n st r from_ cycles).ans = s.ans := by
  simp [State.takeLane]

@[simp] theorem State.holdMem_ans (s : State) (c : StCmd) (cycles : Nat) : (s.holdMem c cycles).ans = s.ans := by
  simp [State.holdMem]

@[simp] theorem State.fillRange_ans (s : State) (c : StCmd) (base size : Nat) : (s.fillRange c base size).ans = s.ans := by
  simp [State.fillRange]

@[simp] theorem State.copyRange_ans (s : State) (c : StCmd) (base size : Nat) : (s.copyRange c base size).ans = s.ans := by
  fun_cases State.copyRange s c base size
  case case2 => simp +zetaDelta
  case case3 | case4 => simp +zetaDelta [fst_of_eq ‹_ = (_, _)›]
  case case1 => simp

@[simp] theorem State.startMem_ans (s : State) (c : StCmd) : (s.startMem c).ans = s.ans := by
  fun_cases State.startMem s c <;> simp

@[simp] theorem State.startMark_ans (s : State) (c : StCmd) : (s.startMark c).ans = s.ans := by
  simp [State.startMark]

@[simp] theorem State.digestTile_ans (s : State) (p : Nat) (t : Tile) : (s.digestTile p t).ans = s.ans := by
  fun_cases State.digestTile s p t <;> simp +zetaDelta

@[simp] theorem State.finishShard_ans (s : State) (p n : Nat) (r : Take) : (s.finishShard p n r).ans = s.ans := by
  fun_cases State.finishShard s p n r <;> simp +zetaDelta

@[simp] theorem State.setWhorl_ans (s : State) (n w : Nat) (x : Whorl) : (s.setWhorl n w x).ans = s.ans := by
  simp [State.setWhorl]

@[simp] theorem State.finishImport_ans (s : State) (p n st : Nat) (r : Take) : (s.finishImport p n st r).ans = s.ans := by
  simp [State.finishImport]

@[simp] theorem State.finishContribution_ans (s : State) (n : Nat) (r : Take) : (s.finishContribution n r).ans = s.ans := by
  fun_cases State.finishContribution s n r <;> simp

@[simp] theorem State.finishTake_ans (s : State) (p n st : Nat) (r : Take) : (s.finishTake p n st r).ans = s.ans := by
  fun_cases State.finishTake s p n st r <;> simp

@[simp] theorem State.holdTile_ans (s : State) (n st : Nat) (t : Tile) : (s.holdTile n st t).ans = s.ans := by
  simp [State.holdTile]

@[simp] theorem State.feed_ans (s : State) (p n st k : Nat) : (s.feed p n st k).ans = s.ans := by
  fun_induction State.feed s p n st k
  case case3 ih | case7 ih => exact ih.trans (by simp +zetaDelta)
  all_goals simp

@[simp] theorem State.addTake_ans (s : State) (c : StCmd) (roving want per : Nat) (desc : List Nat) :
    (s.addTake c roving want per desc).ans = s.ans := by
  simp [State.addTake]

@[simp] theorem State.startDigest_ans (s : State) (c : StCmd) : (s.startDigest c).ans = s.ans := by
  fun_cases State.startDigest s c <;> simp

@[simp] theorem State.startShard_ans (s : State) (c : StCmd) : (s.startShard c).ans = s.ans := by
  fun_cases State.startShard s c
  case case3 | case4 | case5 => simp [fst_of_eq ‹_ = (_, _)›]
  all_goals simp

@[simp] theorem State.startSetup_ans (s : State) (c : StCmd) : (s.startSetup c).ans = s.ans := by
  simp [State.startSetup]

@[simp] theorem State.readBank_ans (s : State) (p n w b tick pos : Nat) : (s.readBank p n w b tick pos).1.ans = s.ans := by
  simp [State.readBank]

@[simp] theorem State.tellSticky_ans (s : State) (n w b : Nat) : (s.tellSticky n w b).ans = s.ans := by
  fun_cases State.tellSticky s n w b <;> simp

@[simp] theorem State.produce_ans (s : State) (p r ready : Nat) (t : Tile) : (s.produce p r ready t).ans = s.ans := by
  simp [State.produce]

@[simp] theorem State.useOut_ans (s : State) (c : StCmd) (cycles : Nat) : (s.useOut c cycles).ans = s.ans := by
  simp [State.useOut]

@[simp] theorem State.startAccOut_ans (s : State) (c : StCmd) : (s.startAccOut c).ans = s.ans := by
  fun_cases State.startAccOut s c
  case case2 => simp +zetaDelta [fst_of_eq ‹_ = (_, _)›]
  case case3 => simp [fst_of_eq ‹_ = (_, _)›]
  case case1 => simp

@[simp] theorem State.startAccIn_ans (s : State) (c : StCmd) : (s.startAccIn c).ans = s.ans := by
  simp [State.startAccIn]

@[simp] theorem State.startBatt_ans (s : State) (c : StCmd) : (s.startBatt c).ans = s.ans := by
  fun_cases State.startBatt s c
  case case3 => simp [fst_of_eq ‹_ = (_, _)›]
  case case4 h1 _ h2 => simp [fst_of_eq h1, fst_of_eq h2]
  case case5 h1 _ _ h2 _ _ _ _ _ _ => simp +zetaDelta [fst_of_eq h1, fst_of_eq h2]
  all_goals simp

@[simp] theorem State.startOther_ans (s : State) (c : StCmd) : (s.startOther c).ans = s.ans := by
  simp [State.startOther]

@[simp] theorem State.popWhorl_ans (s : State) (n w : Nat) : (s.popWhorl n w).ans = s.ans := by
  simp [State.popWhorl]

@[simp] theorem State.startWhorl_ans (s : State) (n w : Nat) : (s.startWhorl n w).ans = s.ans := by
  fun_cases State.startWhorl s n w <;> simp

@[simp] theorem State.whorlArrive_ans (s : State) (c : StCmd) : (s.whorlArrive c).ans = s.ans := by
  simp [State.whorlArrive]

@[simp] theorem State.modColl_ans (s : State) (k : Nat) (f : Collective → Collective) : (s.modColl k f).ans = s.ans := by
  fun_cases State.modColl s k f <;> simp

@[simp] theorem State.beginDraftColl_ans (s : State) (p off bytes : Nat) (w : List Nat) :
    (s.beginDraftColl p off bytes w).1.ans = s.ans := by
  simp [State.beginDraftColl]

@[simp] theorem State.joinColl_ans (s : State) (p n off bytes : Nat) (w : List Nat) :
    (s.joinColl p n off bytes w).1.ans = s.ans := by
  fun_cases State.joinColl s p n off bytes w <;> simp

@[simp] theorem State.startColl_ans (s : State) (c : StCmd) : (s.startColl c).ans = s.ans := by
  fun_cases State.startColl s c
  case case2 | case3 => simp [fst_of_eq ‹_ = (_, _)›]
  case case4 h1 _ _ _ _ _ _ _ _ h2 => simp [fst_of_eq h1, fst_of_eq h2]
  all_goals simp

@[simp] theorem State.startVote_ans (s : State) (c : StCmd) : (s.startVote c).ans = s.ans := by
  fun_cases State.startVote s c <;> simp +zetaDelta

@[simp] theorem State.setTwist_ans (s : State) (n e : Nat) (x : Twist) : (s.setTwist n e x).ans = s.ans := by
  simp [State.setTwist]

@[simp] theorem State.openPass_ans (s : State) (n e : Nat) : (s.openPass n e).ans = s.ans := by
  simp [State.openPass]

@[simp] theorem State.twistArrive_ans (s : State) (c : StCmd) : (s.twistArrive c).ans = s.ans := by
  simp [State.twistArrive]

@[simp] theorem State.tileInvalid_ans (s : State) (p n r i : Nat) : (s.tileInvalid p n r i).ans = s.ans := by
  simp [State.tileInvalid]

@[simp] theorem State.noteOld_ans (s : State) (n st pa len : Nat) : (s.noteOld n st pa len).ans = s.ans := by
  fun_cases State.noteOld s n st pa len <;> simp

@[simp] theorem State.putTile_ans (s : State) (p n st pa : Nat) (x : Tile) : (s.putTile p n st pa x).ans = s.ans := by
  simp [State.putTile]

@[simp] theorem State.beginTransfer_ans (s : State) (p n st r i : Nat) (v : Roving) (x : Tile) :
    (s.beginTransfer p n st r i v x).ans = s.ans := by
  fun_cases State.beginTransfer s p n st r i v x <;> simp +zetaDelta

@[simp] theorem State.nextTransfer_ans (s : State) (n st : Nat) : (s.nextTransfer n st).ans = s.ans := by
  fun_cases State.nextTransfer s n st <;> simp +zetaDelta

@[simp] theorem State.landCmd_ans (s : State) (c : StCmd) : (s.landCmd c).ans = s.ans := by
  simp [State.landCmd]

@[simp] theorem State.startCmd_ans (s : State) (n st : Nat) : (s.startCmd n st).ans = s.ans := by
  fun_cases State.startCmd s n st <;> simp +zetaDelta

@[simp] theorem State.happen_ans (s : State) (x : Due) : (s.happen x).ans = s.ans := by
  fun_cases State.happen s x <;> simp

theorem State.settleTo_ans (s : State) (t k : Nat) : (s.settleTo t k).ans = s.ans := by
  fun_induction State.settleTo s t k
  case case3 ih => exact ih.trans (State.happen_ans ..)
  all_goals rfl

/-- A command finds nothing answered yet. -/
theorem State.arrive_ans (s : State) (t : Nat) : (s.arrive t).ans = {} := State.settleTo_ans ..

end Sys2Proof.Machine
end

section
namespace Sys2Proof.Machine

/-! ## Loads, stores and atomics of a hart to its own package (O33) -/

theorem exec_solverLoad (t : Nat) (h : HartIdx) (a : BitVec 56) (size rd : Nat) (sg fp lr : Bool) (s : State) :
    exec (.solverLoad t h a size rd sg fp lr) s = execSolverLoad t h a size rd sg fp lr s := rfl
theorem exec_solverStore (t : Nat) (h : HartIdx) (a : BitVec 56) (size rs rd : Nat) (kind : StoreKind) (s : State) :
    exec (.solverStore t h a size rs rd kind) s = execSolverStore t h a size rs rd kind s := rfl

/-! ### Registers beside reservations and stores -/

section
variable (s : State) (h r v : Nat)

theorem State.getX_of_hart {s u : State} {h : Nat} (hu : u.hart h = s.hart h) (r : Nat) : u.getX h r = s.getX h r := by
  rw [State.getX, hu, State.getX]

theorem State.setX_reserved : ((s.setX h r v).hart h).reserved = (s.hart h).reserved := (congrArg Hart.reserved (s.setX_hart h r v) :)

/-- A store and the reservations it ends leave the storing hart as it was. -/
theorem State.hart_stored (k pa n : Nat) (l : List Byte) : ((s.store k l).breakRes h pa n).hart h = s.hart h := by
  rw [State.hart_breakRes_same, State.hart, State.store_harts, ← State.hart]
end

/-! ### An access of the package itself that is let pass -/

/-- A hart's access of so many bytes that goes to memory of the package: the hart is there, PMP lets it pass, and it names no
control view. -/
structure State.ReachesMemory (s : State) (h a size : Nat) : Prop where
  alive : s.hartGone h = false
  allowed : ∀ w, s.pmpStops h a size w = false
  data : bit a 55 = false
  here : s.hartRoute h a = .here

section
variable {t k d o size rd rs : Nat} {h : HartIdx} {a : BitVec 56} {r0 : State}

section
variable (hreach : (r0.arrive t).ReachesMemory h.val a.toNat size) (hh : (r0.arrive t).host.held = [])
  (hline : 0 < size ∧ a.toNat % 2 ^ 48 % 64 + size ≤ 64) (hr : (r0.arrive t).readCheck k size = (r0.arrive t, []))
  (hv : (r0.arrive t).verdict (.hart h.val) .rd (a.toNat % 2 ^ 48) = (r0.arrive t, .ok k))
include hreach hh hline hr hv

theorem exec_solverLoad_of_ok (sg : Bool) : exec (.solverLoad t h a size rd sg false false) r0 =
    .next ((r0.arrive t).setX h.val rd (extendTo size sg (natOf (Mem.readN (r0.arrive t).mem k size)))) := by
  obtain ⟨halive, hallowed, hdata, hhere⟩ := hreach
  have hload := State.loadLocal_of_ok (laneOf size) hh hline hv hr
  have htake : (Mem.readN (r0.arrive t).mem k size).take size = Mem.readN (r0.arrive t).mem k size :=
    List.take_of_length_le (Mem.length_readN ..).le
  simp only [exec_solverLoad, execSolverLoad, halive, hallowed, hdata, hhere, hload, Bool.false_and, Bool.or_self, Bool.false_eq_true,
    if_false, if_true, false_and, State.deliver, htake, State.localFault_ok]

/-- A load-reserved also reserves its address. -/
theorem exec_solverLoad_reserved (halign : a.toNat % 2 ^ 48 % size = 0) (hc : (r0.arrive t).coherent a.toNat = true) :
    exec (.solverLoad t h a size rd true false true) r0 =
    .next (((r0.arrive t).setHart h.val { (r0.arrive t).hart h.val with reserved := some (a.toNat % 2 ^ 48) }).setX h.val rd
      (extendTo size true (natOf (Mem.readN (r0.arrive t).mem k size)))) := by
  obtain ⟨halive, hallowed, hdata, hhere⟩ := hreach
  have hload := State.loadLocal_of_ok (laneOf size) hh hline hv hr
  have htake : (Mem.readN (r0.arrive t).mem k size).take size = Mem.readN (r0.arrive t).mem k size :=
    List.take_of_length_le (Mem.length_readN ..).le
  simp only [exec_solverLoad, execSolverLoad, halive, hallowed, hdata, hhere, hload, hc, halign, Bool.not_true, Bool.and_false, Bool.or_self,
    Bool.false_eq_true, if_false, if_true, ne_eq, not_true_eq_false, and_false, State.deliver, htake, State.localFault_ok]
end

section
variable {s : State} {pa g : Nat} {l : List Byte} (hhere : s.hartRoute g a.toNat = .here) (hh : s.host.held = [])
  (hline : 0 < l.length ∧ pa % 64 + l.length ≤ 64) (hp : s.place pa = .stack d o) (hr : s.readCheck k l.length = (s, []))
include hhere hh hline hp hr

theorem State.solverStore_of_ok (hv : s.verdict (.hart g) .wr pa = (s, .ok k)) :
    s.solverStore g a.toNat pa l = (s.store k l).breakRes g pa l.length := by
  have hstore := State.storeLocal_of_ok hh hline hp hv hr
  simp only [State.solverStore, hhere, if_true, hstore, State.localFault_ok]

omit hline in
theorem State.solverAmo_of_ok (op : Nat) (hv : s.verdict (.hart g) .amo pa = (s, .ok k)) :
    s.solverAmo g a.toNat pa l.length rd op l =
      (((s.store k (bytesOf l.length (amoValue op l.length (natOf (Mem.readN s.mem k l.length)) (natOf l) 0))).setX g rd
        (extendTo l.length true (natOf (Mem.readN s.mem k l.length)))).breakRes g pa l.length) := by
  have hamo := State.amoLocal_of_ok op l hh hp hv hr
  have htake : (Mem.readN s.mem k l.length).take l.length = Mem.readN s.mem k l.length :=
    List.take_of_length_le (Mem.length_readN ..).le
  rw [List.take_length, List.drop_length, List.take_nil] at hamo
  simp only [State.solverAmo, hhere, if_true, hamo, State.deliver, htake, State.localFault_ok]
  rfl
end

/-! ### The rows of stores -/

section
variable {s : State} {pa n : Nat} (hm : Mem.wf s.mem = true)
include hm

/-- Memory after a store that ends reservations. -/
theorem State.stored_mem (g k pa : Nat) {l : List Byte} (hl : l.length = n) : let u := (s.store k l).breakRes g pa n
    Mem.readN u.mem k n = l ∧ ∀ b, b < k ∨ k + n ≤ b → Mem.read u.mem b = Mem.read s.mem b := by
  subst hl
  exact s.store_bytes k l hm
end

section
variable (hreach : (r0.arrive t).ReachesMemory h.val a.toNat size) (hh : (r0.arrive t).host.held = [])
  (hline : 0 < size ∧ a.toNat % 2 ^ 48 % 64 + size ≤ 64) (hp : (r0.arrive t).place (a.toNat % 2 ^ 48) = .stack d o)
  (hr : (r0.arrive t).readCheck k size = (r0.arrive t, []))
include hreach hh hline hp hr

theorem exec_solverStore_int (hv : (r0.arrive t).verdict (.hart h.val) .wr (a.toNat % 2 ^ 48) = (r0.arrive t, .ok k)) :
    exec (.solverStore t h a size rs rd .int) r0 = .next (((r0.arrive t).store k (bytesOf size ((r0.arrive t).getX h.val rs))).breakRes
      h.val (a.toNat % 2 ^ 48) size) := by
  obtain ⟨halive, hallowed, hdata, hhere⟩ := hreach
  have hstore := State.solverStore_of_ok (l := bytesOf size ((r0.arrive t).getX h.val rs)) hhere hh (by rwa [length_bytesOf]) hp
    (by rwa [length_bytesOf]) hv
  rw [length_bytesOf] at hstore
  simp only [exec_solverStore, execSolverStore, halive, hallowed, hdata, hstore, Bool.false_eq_true, if_false]

omit hline in
theorem exec_solverStore_amo (op : Nat) (halign : a.toNat % 2 ^ 48 % size = 0)
    (hv : (r0.arrive t).verdict (.hart h.val) .amo (a.toNat % 2 ^ 48) = (r0.arrive t, .ok k)) :
    exec (.solverStore t h a size rs rd (.amo op)) r0 =
    .next ((((r0.arrive t).store k (bytesOf size (amoValue op size (natOf (Mem.readN (r0.arrive t).mem k size))
      (natOf (bytesOf size ((r0.arrive t).getX h.val rs))) 0))).setX h.val rd
        (extendTo size true (natOf (Mem.readN (r0.arrive t).mem k size)))).breakRes h.val (a.toNat % 2 ^ 48) size) := by
  obtain ⟨halive, hallowed, hdata, hhere⟩ := hreach
  have hamo := State.solverAmo_of_ok (l := bytesOf size ((r0.arrive t).getX h.val rs)) (rd := rd) hhere hh hp (by rwa [length_bytesOf]) op hv
  rw [length_bytesOf] at hamo
  simp only [exec_solverStore, execSolverStore, halive, hallowed, hdata, halign, hamo, Bool.false_eq_true, if_false, ne_eq,
    not_true_eq_false]
end

/-- Hart h without its reservation. -/
def State.unreserved (s : State) (h : Nat) : State := s.setHart h { s.hart h with reserved := none }

theorem State.unreserved_hartRoute (s : State) (h g x : Nat) : (s.unreserved h).hartRoute g x = s.hartRoute g x := rfl

/-- A store-conditional whose reservation does not stand. -/
theorem exec_solverStore_cond_lost (hreach : (r0.arrive t).ReachesMemory h.val a.toNat size)
    (hc : (r0.arrive t).coherent a.toNat = true) (halign : a.toNat % 2 ^ 48 % size = 0)
    (hres : ((r0.arrive t).hart h.val).reserved ≠ some (a.toNat % 2 ^ 48)) :
    exec (.solverStore t h a size rs rd .cond) r0 = .next (((r0.arrive t).unreserved h.val).setX h.val rd 1) := by
  obtain ⟨halive, hallowed, -, -⟩ := hreach
  simp only [exec_solverStore, execSolverStore, halive, hallowed, hc, halign, hres, Bool.not_true, Bool.false_eq_true, if_false, ne_eq,
    not_true_eq_false, not_false_eq_true, if_true]
  rfl

/-- A store-conditional whose reservation stands, and that does not wait. -/
theorem exec_solverStore_cond_kept {u : State} (hreach : (r0.arrive t).ReachesMemory h.val a.toNat size)
    (hc : (r0.arrive t).coherent a.toNat = true) (halign : a.toNat % 2 ^ 48 % size = 0)
    (hres : ((r0.arrive t).hart h.val).reserved = some (a.toNat % 2 ^ 48))
    (hstore : ((r0.arrive t).unreserved h.val).solverStore h.val a.toNat (a.toNat % 2 ^ 48) (bytesOf size ((r0.arrive t).getX h.val rs)) = u)
    (hans : u.ans.status ≠ stWait) : exec (.solverStore t h a size rs rd .cond) r0 = .next (u.setX h.val rd 0) := by
  obtain ⟨halive, hallowed, -, -⟩ := hreach
  rw [State.unreserved, State.getX] at hstore
  simp only [exec_solverStore, execSolverStore, halive, hallowed, hc, halign, hres, Bool.not_true, Bool.false_eq_true, if_false, ne_eq,
    not_true_eq_false, State.getX, hstore, hans]

/-- The store of a store-conditional of an address in memory; it answers nothing. -/
theorem State.unreserved_solverStore {s : State} {g x pa : Nat} {l : List Byte} (hhere : s.hartRoute g x = .here) (hh : s.host.held = [])
    (hline : 0 < l.length ∧ pa % 64 + l.length ≤ 64) (hp : s.place pa = .stack d o)
    (hr : (s.unreserved g).readCheck k l.length = (s.unreserved g, []))
    (hv : (s.unreserved g).verdict (.hart g) .wr pa = (s.unreserved g, .ok k)) :
    (s.unreserved g).solverStore g x pa l = ((s.unreserved g).store k l).breakRes g pa l.length ∧
    (((s.unreserved g).store k l).breakRes g pa l.length).ans = s.ans := by
  have hp' := (State.place_of_eq (u := s.unreserved g) (s := s) rfl rfl pa).trans hp
  have hroute : (s.unreserved g).hartRoute g x = .here := (s.unreserved_hartRoute g g x).trans hhere
  have hstore := State.storeLocal_of_ok (s := s.unreserved g) hh hline hp' hv hr
  refine ⟨?_, State.store_ans ..⟩
  simp only [State.solverStore, hroute, if_true, hstore, State.localFault_ok]

/-! ### Exceptions -/

section
variable (halive : (r0.arrive t).hartGone h.val = false)
include halive

theorem exec_solverLoad_forbidden (hstop : (r0.arrive t).pmpStops h.val a.toNat size false = true) (sg fp lr : Bool) :
    exec (.solverLoad t h a size rd sg fp lr) r0 = .next ((r0.arrive t).trap h.val 5 a.toNat) := by
  simp only [exec_solverLoad, execSolverLoad, halive, hstop, Bool.true_or, Bool.false_eq_true, if_false, if_true]

theorem exec_solverStore_forbidden (hstop : (r0.arrive t).pmpStops h.val a.toNat size true = true) (kind : StoreKind) :
    exec (.solverStore t h a size rs rd kind) r0 = .next ((r0.arrive t).trap h.val 7 a.toNat) := by
  simp only [exec_solverStore, execSolverStore, halive, hstop, Bool.false_eq_true, if_false, if_true]

variable (hallowed : ∀ w, (r0.arrive t).pmpStops h.val a.toNat size w = false) (halign : a.toNat % 2 ^ 48 % size ≠ 0)
include hallowed halign

theorem exec_solverLoad_unaligned (hc : (r0.arrive t).coherent a.toNat = true) :
    exec (.solverLoad t h a size rd true false true) r0 = .next ((r0.arrive t).trap h.val 4 a.toNat) := by
  simp only [exec_solverLoad, execSolverLoad, halive, hallowed, hc, halign, Bool.not_true, Bool.and_false, Bool.or_self, Bool.false_eq_true,
    if_false, ne_eq, not_false_eq_true, and_self, if_true]

theorem exec_solverStore_unaligned (op : Nat) :
    exec (.solverStore t h a size rs rd (.amo op)) r0 = .next ((r0.arrive t).trap h.val 6 a.toNat) := by
  simp only [exec_solverStore, execSolverStore, halive, hallowed, halign, Bool.false_eq_true, if_false, ne_eq, not_false_eq_true, if_true]
end
end

/-! ### What the rows leave -/

section
variable (s : State) (h rd : Nat)

/-- A load writes one register. -/
theorem State.loaded_effect {v : Nat} (hv : v < 2 ^ 64) : let u := s.setX h rd v
    u.getX h rd = (if rd = 0 then 0 else v) ∧ (∀ r, r ≠ rd → u.getX h r = s.getX h r) ∧ s.OnlyHart u h := by
  obtain ⟨⟨hget, hother⟩, -, honly⟩ := s.setX_effect h rd hv
  exact ⟨hget, hother, honly⟩

/-- A load-reserved writes one register and the reservation, as a store-conditional that fails does. -/
theorem State.reserved_effect (x : Option Nat) {v : Nat} (hv : v < 2 ^ 64) :
    let u := (s.setHart h { s.hart h with reserved := x }).setX h rd v
    u.getX h rd = (if rd = 0 then 0 else v) ∧ (u.hart h).reserved = x ∧ s.OnlyHart u h := by
  obtain ⟨⟨hget, -⟩, -, honly⟩ := (s.setHart h { s.hart h with reserved := x }).setX_effect h rd hv
  refine ⟨hget, ?_, (s.setHart_onlyHart h _).trans honly⟩
  rw [State.setX_reserved, State.hart_setHart_same]

variable {s} (k pa : Nat) {n : Nat} {l : List Byte} (hl : l.length = n) (hm : Mem.wf s.mem = true)
include hl hm

/-- A store changes its bytes, and no register. -/
theorem State.stored_effect : let u := (s.store k l).breakRes h pa n
    Mem.readN u.mem k n = l ∧ (∀ b, b < k ∨ k + n ≤ b → Mem.read u.mem b = Mem.read s.mem b) ∧
    (∀ r, u.getX h r = s.getX h r) ∧ u.flyers = s.flyers ∧ u.fab = s.fab := by
  obtain ⟨hin, hout⟩ := State.stored_mem hm h k pa hl
  exact ⟨hin, hout, State.getX_of_hart (s.hart_stored h k pa n l), s.store_flyers k l, s.store_fab k l⟩

/-- A store-conditional that stores writes 0 and holds no reservation any more. -/
theorem State.storedCond_effect : let u := (((s.unreserved h).store k l).breakRes h pa n).setX h rd 0
    Mem.readN u.mem k n = l ∧ (∀ b, b < k ∨ k + n ≤ b → Mem.read u.mem b = Mem.read s.mem b) ∧
    u.getX h rd = 0 ∧ (u.hart h).reserved = none := by
  obtain ⟨hin, hout⟩ := State.stored_mem (s := s.unreserved h) hm h k pa hl
  have hhart := (s.unreserved h).hart_stored h k pa n l
  generalize ((s.unreserved h).store k l).breakRes h pa n = v at hin hout hhart ⊢
  dsimp only
  rw [State.setX_mem]
  refine ⟨hin, hout, ?_, ?_⟩
  · rw [State.getX_setX_same _ _ _ (by decide), ite_self]
  · rw [State.setX_reserved, hhart, State.unreserved, State.hart_setHart_same]

/-- An atomic also writes the old value to a register. -/
theorem State.storedAmo_effect {v : Nat} (hv : v < 2 ^ 64) : let u := ((s.store k l).setX h rd v).breakRes h pa n
    u.getX h rd = (if rd = 0 then 0 else v) ∧
    Mem.readN u.mem k n = l ∧ ∀ b, b < k ∨ k + n ≤ b → Mem.read u.mem b = Mem.read s.mem b := by
  obtain ⟨hin, hout⟩ := s.store_bytes k l hm
  rw [hl] at hin hout
  dsimp only
  rw [State.breakRes_mem, State.setX_mem]
  refine ⟨?_, hin, hout⟩
  rw [State.getX_of_hart (State.hart_breakRes_same _ h pa n), State.getX_setX_same _ _ _ hv]
end

/-- Settles O33: each row is one write of memory or of a register on the state at its time; a store-conditional that stores does
not wait, since nothing due answers a command. -/
theorem hartMemoryAccesses : Obligations.HartMemoryAccesses := by
  intro t k d o size rd rs h a r0 s pa clear outside halive hallowed hdata hhere hh hsize halign hp hr hm
  have hreach : s.ReachesMemory h.val a.toNat size := ⟨halive, hallowed, hdata, hhere⟩
  have hline := within_line_of_aligned hsize halign
  have hold : natOf (Mem.readN s.mem k size) < 2 ^ 64 := by
    have hlt := natOf_take_lt (Mem.readN s.mem k size) (n := size) (by omega)
    rwa [List.take_of_length_le (Mem.length_readN ..).le] at hlt
  refine ⟨fun hv sg => ?load, fun hv hc => ?reserve, fun hv => ?store, ?conditional, fun hc hres => ?lost,
    fun hv h4 op hlo hhi hcas => ?amo, fun b op => ⟨fun hstop sg fp lr => ?_, fun hstop kind => ?_, fun hal hall => ⟨fun hc => ?_, ?_⟩⟩⟩
  case load =>
    exact does_of_exec (exec_solverLoad_of_ok hreach hh hline hr hv sg) (s.loaded_effect h.val rd (extendTo_lt size sg hold))
  case reserve =>
    exact does_of_exec (exec_solverLoad_reserved hreach hh hline hr hv halign hc)
      (s.reserved_effect h.val rd (some pa) (extendTo_lt size true hold))
  case store =>
    exact does_of_exec (exec_solverStore_int hreach hh hline hp hr hv) (State.stored_effect h.val k pa (length_bytesOf ..) hm)
  case conditional =>
    intro s2 hv hr2 hc hres
    have hlen : (bytesOf size (s.getX h.val rs)).length = size := length_bytesOf ..
    rw [← hlen] at hline hr2
    obtain ⟨hstore, hans⟩ := State.unreserved_solverStore hhere hh hline hp hr2 hv
    rw [hlen] at hstore hans
    have hgo : ((((s.unreserved h.val).store k (bytesOf size (s.getX h.val rs))).breakRes h.val pa size).ans).status ≠ stWait := by
      rw [hans, State.arrive_ans]
      decide
    exact does_of_exec (exec_solverStore_cond_kept hreach hc halign hres hstore hgo)
      (State.storedCond_effect h.val rd k pa (length_bytesOf ..) hm)
  case lost =>
    obtain ⟨hget, hnone, honly⟩ := s.reserved_effect h.val rd none (by decide : 1 < 2 ^ 64)
    exact does_of_exec (exec_solverStore_cond_lost hreach hc halign hres) ⟨State.setX_mem .., hget, hnone, honly⟩
  case amo =>
    exact does_of_exec (exec_solverStore_amo hreach hh hp hr op halign hv)
      (State.storedAmo_effect h.val rd k pa (length_bytesOf ..) hm (extendTo_lt size true hold))
  · exact does_of_exec (exec_solverLoad_forbidden halive hstop sg fp lr) (s.trap_traps h.val (by decide) (b.isLt.trans (by decide)))
  · exact does_of_exec (exec_solverStore_forbidden halive hstop kind) (s.trap_traps h.val (by decide) (b.isLt.trans (by decide)))
  · exact does_of_exec (exec_solverLoad_unaligned halive hall hal hc) (s.trap_traps h.val (by decide) (b.isLt.trans (by decide)))
  · exact does_of_exec (exec_solverStore_unaligned halive hall hal op) (s.trap_traps h.val (by decide) (b.isLt.trans (by decide)))

end Sys2Proof.Machine
end
